-- ==== Sys2Proof/Word.lean ====
section
/-! DEFINITION. The words of the Chelos M16 model and their plainest arithmetic. -/

namespace Sys2Proof

/-- A byte of memory. -/
abbrev Byte := BitVec 8
/-- 16-bit field. -/
abbrev W16 := BitVec 16
/-- 32-bit register. -/
abbrev W32 := BitVec 32
/-- 64-bit register. -/
abbrev W64 := BitVec 64

/-- A byte string, lowest address first (R9). -/
abbrev Bytes := List Byte

end Sys2Proof
end

