-- ==== Sys2Proof/Syntax.lean ====
section
/-! DEFINITION. The commands of the Chelos M16: one constructor of `Instr` per row of the spec's table
of operations and events, with the operand types those rows need. A command of the mailbox interface
names the mailbox whose taken-up command it runs; an event that time drives carries the device time
`now` (ns, R427) at which it happens; an event of the outside world carries what the outside supplies. -/

namespace Sys2Proof

/-! ## Units of the device (Table 02-2) -/

/-- The unit types of Table 02-2. -/
inductive UnitType where
  | device | die | stack | fold | sigCore | sigGroup | engine | ctlCore | stackCtl
  | fabPort | fhPort | dma | commons | collector
  deriving DecidableEq, Repr

/-- A unit, by type and INDEX (Table 02-3). -/
structure UnitId where
  ty : UnitType
  idx : Nat
  deriving DecidableEq, Repr

/-- What a unit's training and self-test found (Table 02-5). -/
inductive SelfTest where
  /-- passed in full -/
  | pass
  /-- passed in part, with the capabilities left in CAPS -/
  | part (caps : W64)
  /-- failed beyond repair -/
  | fail
  deriving DecidableEq, Repr

/-- The kinds of clock island of Table 01-3. -/
inductive IslandKind where
  | fold | group | engine | noc | ctlCore | stackCtl | port
  deriving DecidableEq, Repr

/-- Why an uncontained fault is fatal (R241). -/
inductive FatalCause where
  | noc | dispatcher | collector | barrier | radioState | unit (u : UnitId)
  deriving DecidableEq, Repr

/-! ## Vector cores (R213 to R216) -/

/-- Arithmetic of a vector instruction. The manual gives the arithmetic (R215) and no instruction set. -/
inductive VArith where
  | add | sub | mul | fma | div | sqrt | min | max
  deriving DecidableEq, Repr

/-- What a conversion reads from a register: 32 FP32 lanes, or 64 lanes of 16 bits. -/
inductive VSrc where
  | fp32 | fp16 | bf16
  deriving DecidableEq, Repr

/-- A vector instruction, decoded. Registers are 0 to 31, lanes 0 to 31. -/
inductive VOp where
  /-- FP32 arithmetic lane by lane -/
  | fp32 (op : VArith) (d a b c : Fin 32)
  /-- BF16 arithmetic on the two halves of every lane -/
  | bf16 (op : VArith) (d a b c : Fin 32)
  /-- cross-lane FP32 sum through the binary tree of R215 into lane 0 -/
  | reduce (d a : Fin 32)
  /-- cross-lane BF16 sum of the 64 halves through the binary tree of R215 into the low half of lane 0 -/
  | reduceBf16 (d a : Fin 32)
  /-- load a 32-bit word per lane from the context's share -/
  | load (d addr : Fin 32)
  /-- store a 32-bit word per lane to the context's share -/
  | store (src addr : Fin 32)
  /-- set a register to a constant in every lane -/
  | imm (d : Fin 32) (v : W32)
  /-- convert the lanes of a register into MX blocks of 32 at a share address (R132) -/
  | toMx (fmt : Byte) (lanes : VSrc) (src addr : Fin 32)
  /-- convert the first 16 lanes into one Merven block, glint positions marked (R133) -/
  | toMerven (fmt : Byte) (lanes : VSrc) (src addr : Fin 32) (glints : List (Fin 16))
  /-- bundle barrier -/
  | barrier
  /-- relative branch -/
  | jump (target : W32)
  /-- the end of the bundle's program -/
  | halt
  /-- an illegal or undefined instruction (Table 07-7, code 1) -/
  | illegal
  deriving DecidableEq, Repr

/-- Where in a context a contained fault lies: vector core, bundle and address (R238). -/
structure FaultPlace where
  core : Fin 16
  bundle : Fin 128
  address : W64
  deriving DecidableEq, Repr

/-- Interrupts of a core that its own bundles do not raise: a job posted to its job queue, and one of a control core
(Table 08-6). -/
structure ScIrq where
  job : Bool := false
  firmware : Bool := false
  deriving DecidableEq, Repr

/-- A kernel image in radio memory (R269). -/
structure ImageRange where
  start : Nat
  size : Nat
  deriving DecidableEq, Repr

/-- What the monitors of the dies found up to a device time since the last evaluation (R584, Table 19-1): canary captures and aged
paths by fold, droop trips. -/
structure MonitorReadings where
  now : Nat
  canary : List (Fin 32) := []
  ageing : List (Fin 32) := []
  droops : Nat := 0
  deriving DecidableEq, Repr

/-- The codes of Table 07-7, contained faults. -/
inductive ContainedCode where
  | illegal | outside | misaligned | fetch | registerEcc | sequencerEcc
  deriving DecidableEq, Repr

/-! ## Signal cores (ch 08) -/

/-- Addressing modes of Table 08-5. -/
inductive AddrMode where
  | plain | postInc | circ (j : Fin 4) | bitRev (j : Fin 4)
  deriving DecidableEq, Repr

/-- Complex multiply slot, Table 08-4. -/
inductive MOp where
  | nop
  | cmac (y : Fin 4) (a b : Fin 16)
  | cmacj (y : Fin 4) (a b : Fin 16)
  | cmsc (y : Fin 4) (a b : Fin 16)
  | cmul (d a b : Fin 16) (s : Fin 32)
  | cmulj (d a b : Fin 16) (s : Fin 32)
  deriving DecidableEq, Repr

/-- Lane operations of the vector ALU slot with latency 1 (Table 08-3). -/
inductive LaneOp where
  | add | sub | conj | shl (s : Fin 16) | shr (s : Fin 16) | min | max | cmp
  deriving DecidableEq, Repr

/-- Vector ALU slot (Table 08-3). -/
inductive AOp where
  | nop
  | yext (d : Fin 16) (y : Fin 4) (s : Fin 32)
  | yclr (y : Fin 4)
  | lane (op : LaneOp) (d a b : Fin 16)
  | perm (d a : Fin 16) (p : List (Fin 16))
  | csum (d a : Fin 16)
  deriving DecidableEq, Repr

/-- Scalar ALU operations. -/
inductive SAlu where
  | add | sub | and | or | xor | shl | shr | asr
  deriving DecidableEq, Repr

/-- Registers the control slot moves to and from a scalar register. -/
inductive CReg where
  | p (k : Fin 8) | n (k : Fin 8) | cb (j : Fin 4) | cl (j : Fin 4)
  | lcnt (k : Fin 3) | lbeg (k : Fin 3) | lend (k : Fin 3) | ipc | istat
  deriving DecidableEq, Repr

/-- Control slot (Table 08-3). -/
inductive COp where
  | nop
  | alu (op : SAlu) (d a b : Fin 16)
  | imm (d : Fin 16) (v : W32)
  | toReg (r : CReg) (a : Fin 16)
  | fromReg (d : Fin 16) (r : CReg)
  | rcp (d a : Fin 16)
  | rsq (d a : Fin 16)
  | loop (k : Fin 3) (count : W16) (last : BitVec 12)
  | brk (k : Fin 3)
  | branch (target : BitVec 12)
  | branchIf (a : Fin 16) (target : BitVec 12)
  | call (d : Fin 16) (target : BitVec 12)
  | ret (a : Fin 16)
  | reti
  | lthaw
  | lfreeze
  | setIe (on : Bool)
  /-- raise GROUP_SIGNAL at another core of the group (Table 08-6) -/
  | signal (k : Fin 8)
  | wait
  | stop
  deriving DecidableEq, Repr

/-- Load slot L0 and load or store slot L1 (Table 08-2). -/
inductive LOp where
  | nop
  | vload (d : Fin 16) (p : Fin 8) (mode : AddrMode)
  | sload (d : Fin 16) (p : Fin 8) (mode : AddrMode)
  | vstore (a : Fin 16) (p : Fin 8) (mode : AddrMode)
  | sstore (a : Fin 16) (p : Fin 8) (mode : AddrMode)
  deriving DecidableEq, Repr

/-- One bundle of Table 08-2 as its slots decode. The slot encodings belong to the Obesk image and to no interface of the
device (R246): `Config.slotC` and its fellows decode the fields of the bundle in program memory. -/
structure Bundle where
  sp : Bool
  c : COp
  a : AOp
  m : MOp
  l0 : LOp
  l1 : LOp
  /-- a slot holds a reserved or illegal encoding (Table 08-9, code 1) -/
  illegal : Bool
  deriving DecidableEq, Repr

/-- What the reads of a bundle met in the LDM or in program memory: an uncorrectable error (Table 08-9 codes 4, 5) or a
word the SECDED corrected (R269, Table 08-11). -/
inductive ScEcc where
  | clean | ldm | pm | ldmCorrected | pmCorrected
  deriving DecidableEq, Repr

/-- Who makes an external access to an LDM (R257): the descriptor in progress of a DMA engine, radio class or grazing, a
radio engine, or the group's program loader. -/
inductive ExtSource where
  | dma (engine : Fin 64) (radio : Bool)
  | engine (n : Fin 100)
  | loader
  deriving DecidableEq, Repr

/-! ## Frames, packets and control messages -/

/-- An Ethernet frame, fields of R396 and R421; `payload` follows the EtherType. -/
structure Frame where
  dst : BitVec 48
  src : BitVec 48
  tagged : Bool
  vid : BitVec 12
  pcp : BitVec 3
  dei : Bool
  etherType : W16
  payload : Bytes
  fcsOk : Bool
  deriving DecidableEq, Repr

/-- The header flit of Table 15-5. -/
structure Header where
  vc : Fin 4
  epoch : Fin 4
  op : Fin 16
  codewords : Nat
  dst : Nat
  src : Nat
  version : W16
  hops : Nat
  ce : Bool
  srcInc : Nat
  seq : Nat
  space : Bool
  rlen : Nat
  addr : Nat
  keyIndex : Nat
  keyValue : W32
  hcrc : W32
  deriving DecidableEq, Repr

/-- What a collective contribution says of itself (R528, R529): the manual gives the content and no layout. `down` marks
a result on its way down the tree, or a segment of an all-gather; `offset` counts bytes within the segment. -/
structure Coll where
  id : Nat
  ckind : Nat
  rop : Nat
  bitId : Bool
  efmt : Nat
  length : Nat
  segment : Nat
  level : Nat
  offset : Nat
  down : Bool
  deriving DecidableEq, Repr

/-- A packet: its header and its payload bytes, 32 for each codeword, and whether the payload carries
a poison mark. -/
structure Packet where
  h : Header
  data : Bytes
  poison : Bool
  coll : Option Coll := none
  deriving DecidableEq, Repr

/-- One entry of NODE_TABLE (Table 15-6). -/
structure NodeEntry where
  node : Nat
  uid : W64
  inc : Nat
  live : Bool
  versions : List W16
  deriving DecidableEq, Repr

/-- One link of LINK_REPORT (Table 15-6). -/
structure LinkInfo where
  uid : W64
  port : Nat
  lanes : Nat
  up : Bool
  deriving DecidableEq, Repr

/-- FEC and eye readings of a fabric port (Table 15-10). -/
structure EyeReading where
  echo : W64
  height : W64
  width : W64
  deriving DecidableEq, Repr

/-- A PTP message received (R431): times are those the message carries. -/
inductive PtpMsg where
  | announce (gmId : W64) (clockClass accuracy : Byte)
  /-- Sync with its origin time, one-step, or completed by its Follow_Up -/
  | sync (origin : Int)
  /-- two-step Sync, whose origin time follows -/
  | syncTwoStep (sequence : W16)
  | followUp (sequence : W16) (origin : Int)
  | delayReq (sender : W64) (sequence : W16)
  /-- Delay_Resp with the time at which our Delay_Req was sent and was received -/
  | delayResp (sent received : Int)
  deriving DecidableEq, Repr

/-- What a coherent access asks (R37). -/
inductive CohReq where
  | read | write (data : Bytes)
  deriving DecidableEq, Repr

/-- Credits of the Fyfoyx link by class. -/
structure FyfCredits where
  request : Nat := 0
  snoop : Nat := 0
  response : Nat := 0
  data : Nat := 0
  deriving DecidableEq, Repr

/-- A message of the Fyfoyx link with the credits it returns (R640). -/
structure Credited (α : Type) where
  msg : α
  credits : FyfCredits := {}
  deriving DecidableEq, Repr

/-- Ownership a companion asks for (Table 21-7). -/
inductive Own where
  | shared | exclusive
  deriving DecidableEq, Repr

/-- What a scrub step met in the word or codeword it read (R368). -/
inductive ScrubFinding where
  | clean | corrected1 | corrected2 | uncorrectable
  deriving DecidableEq, Repr

/-- What a chunk read, a line read or a word read met (R360, R358). -/
inductive ReadFinding where
  | good | uncorrectable | late
  deriving DecidableEq, Repr

/-- A training phase of Table 15-3. -/
inductive Phase where
  | identify | echoM | echoS | lock | adapt | check
  deriving DecidableEq, Repr

/-- Radio stages of Table 10-4. -/
inductive Stage where
  | array | engine | signalCore | dlEgress | ulDelivery | nrxUpdate
  deriving DecidableEq, Repr

/-- Instructions of the test port (R663). -/
inductive Jtag where
  | bypass | idcode | sample | preload | extest | extestPulse
  deriving DecidableEq, Repr

/-- Thermal readings of one sample: the highest sensor of each die (0 to 4) and of each stack (16 to 31),
in 1/16 °C, keyed by die number. -/
abbrev Readings := List (Nat × Int)

/-! ## Instance images (Table 18-6) -/

/-- One object of an image: its old handle, its OBJ_CREATE fields (Table 11-3), its alternates; for a HOME 1 object its
nonzero bytes by offset, each poisoned line as zeros, and the numbers of the poisoned lines. -/
structure ImgObj where
  handle : Nat
  fields : Bytes
  alternates : List Nat
  content : List (Nat × Byte)
  poisoned : List Nat
  deriving DecidableEq, Repr

/-- One logical group of a context: its records (Table 06-8) while a physical group held it; none once SPILLED. -/
structure ImgGroup where
  group : Nat
  mode : Nat
  records : Option Bytes
  deriving DecidableEq, Repr

/-- One context: its RESIDE fields in the places of Table 07-2, and for each fold in ascending order the nonzero bytes of
its share and its groups. -/
structure ImgCtx where
  reside : Bytes
  shares : List (List (Nat × Byte))
  groups : List (List ImgGroup)
  deriving DecidableEq, Repr

/-- One paused task: its descriptor, and for each rank the place of its fold among its context's, its next tile and its
flags so far. -/
structure ImgTask where
  desc : Bytes
  ranks : List (Nat × Nat × Nat)
  deriving DecidableEq, Repr

/-- An instance image. The manual gives its content and not the layout of most of its sections, so a command carries
what the image says. -/
structure Image where
  descVersion : Nat
  generation : Nat
  classString : BitVec 128
  /-- the Table 18-3 block, its first byte that of INSTANCE -/
  create : Bytes
  objects : List ImgObj
  contexts : List ImgCtx
  tasks : List ImgTask
  /-- the Table 16-2 block of each region -/
  regions : List Bytes
  deriving DecidableEq, Repr

/-! ## The commands -/

/-- One constructor per row of the table of operations and events. -/
inductive Instr where
  -- reset, bring-up and units
  | boardReset
  | boardResetRelease (hotInsertion : Bool)
  | imageVerify (readOk : Bool)
  | unitReset (u : UnitId)
  | unitSelfTestDone (u : UnitId) (r : SelfTest)
  | retentionCheckDone (u : UnitId) (decayed : List (Nat × Byte))
  | watchdogExpiry (core : Fin 8)
  | coreEccHalt (core : Fin 8)
  | coreRestartDone (core : Fin 8)
  | heartbeatTick (now : Nat)
  | islandClockChange (kind : IslandKind) (idx : Nat) (midHandshake : Bool)
  | nocIntegrityError
  | fatalFault (cause : FatalCause)
  | registerWrite (mapping : W32) (offset : Nat) (wide : Bool) (value : W64)
  -- mailboxes
  | mbxEnableWrite (m : Fin 16) (mapping : W32) (enable : Bool)
  | mbxTailWrite (m : Fin 16) (mapping : W32) (tail : W16)
  | commandTakeUp (second : Bool) (slotOk argsOk : Bool)
  | mbxVersion (m : Fin 16)
  | mbxAssign (m : Fin 16)
  | devQuery (m : Fin 16)
  | devConfigure (m : Fin 16)
  | devCommit (m : Fin 16)
  | devReset (m : Fin 16)
  | evrConfigure (m : Fin 16)
  | debugAccess (m : Fin 16)
  | evrHeadWrite (ring : Fin 4096) (mapping : W32) (head : W32)
  | evrArmWrite (ring : Fin 4096) (mapping : W32) (arm : Bool)
  | doorbell (page : Fin 256) (mapping : W32) (offset : Nat) (aligned64 : Bool) (value : W64)
  -- instances
  | instCreate (m : Fin 16)
  | instDestroy (m : Fin 16)
  | instReset (m : Fin 16)
  | instFreeze (m : Fin 16)
  | instExport (m : Fin 16)
  | instExportDone (inst : Fin 256)
  | instImport (m : Fin 16) (image : Image)
  | instImportDone (inst : Fin 256) (ok : Bool)
  | instThaw (m : Fin 16)
  | dirtySwap (m : Fin 16)
  | quotaSet (m : Fin 16)
  -- radio configuration
  | cellAdd (m : Fin 16)
  | cellRemove (m : Fin 16)
  | cellReconfigure (m : Fin 16)
  | radioShareSet (m : Fin 16)
  | penumbraSet (m : Fin 16)
  | nrxLoad (m : Fin 16)
  -- objects
  | objCreate (m : Fin 16)
  | objPromote (m : Fin 16)
  | objEvict (m : Fin 16)
  | objAlternate (m : Fin 16)
  | objDestroy (m : Fin 16)
  | objQuery (m : Fin 16)
  -- fabric and time commands
  | fabRegionSet (m : Fin 16)
  | fabCompatSet (m : Fin 16)
  | fabPortSet (m : Fin 16)
  | fabTopologyGet (m : Fin 16)
  | timeDomainSelect (m : Fin 16)
  | tpoSet (m : Fin 16)
  | captureArm (m : Fin 16)
  -- health, ledger, standby
  | watchSet (m : Fin 16)
  | retest (m : Fin 16)
  | retestDone (now : Nat) (failed : List UnitId) (heavyEvidence : Bool) (unitsTested : Nat)
      (tempMin tempMax : Int) (supplyMin : Nat)
  | marginSweep (m : Fin 16)
  | marginSweepDone (fold : Fin 32) (lowest : List (Fin 4 × Int × Int)) (failed0 skipped : List (Fin 4))
  | devFence (m : Fin 16)
  | devUnfence (m : Fin 16)
  | unitFence (m : Fin 16)
  | unitRetire (m : Fin 16)
  | standbyEnter (m : Fin 16)
  | assume (m : Fin 16)
  | assumeDone (now : Nat)
  | ledgerRead (m : Fin 16)
  | progressRead (m : Fin 16)
  -- provenance, security
  | provenanceSet (m : Fin 16)
  | measureRead (m : Fin 16)
  | fwRecoveryLoad (m : Fin 16)
  | fwRecoveryVerified (transferOk : Bool)
  | imagePersistDone (powerLost : Bool)
  -- power
  | powerSet (m : Fin 16)
  | nightEntryDone
  | prepareRemoval (m : Fin 16)
  | removalDrainDone
  | drainTimeout (now : Nat)
  | evacuateTimeout (now : Nat)
  | retentionSelect (m : Fin 16)
  -- folds under debug
  | foldDebugHold (m : Fin 16)
  | foldDebugRead (m : Fin 16)
  | foldDebugRelease (m : Fin 16)
  -- tasks and folds
  | taskPlace (queue : Nat)
  | resideDone (fold : Fin 32) (slot : Fin 8)
  | releaseDone (inst ctx : Fin 256)
  | tileStart (fold : Fin 32) (slot : Fin 8)
  | rampStep (fold : Fin 32)
  | arrayIdleTimeout (fold : Fin 32)
  | planeLoadDone (fold : Fin 32)
  | issueCycle (fold : Fin 32) (buffered : Bool) (errors : List (Nat × Nat × Int))
  | tileEnd (fold : Fin 32)
  | groupActionDone (fold : Fin 32) (group : Fin 8)
  | vectorIssue (fold : Fin 32) (core : Fin 16) (radio : Bool) (op : VOp)
  | containedFault (fold : Fin 32) (slot : Fin 8) (place : FaultPlace) (code : ContainedCode)
  | partitionResetDone
  | collectorCycle (die : Fin 2)
  | barrierAdd (b : Fin 256)
  -- signal cores
  | bundleIssue (core : Fin 384) (irq : ScIrq) (ecc : ScEcc)
  | ldmExtAccess (core : Fin 384) (arrives : Option ExtSource) (finding : ReadFinding)
  | programLoad (group : Fin 48) (cores : List (Fin 8)) (image : ImageRange) (start : BitVec 12)
  -- radio engines
  | jobPost (engine : Fin 100) (fromWindow : Bool) (job : Bytes)
  | jobStart (engine : Fin 100)
  | jobComplete (engine : Fin 100) (now : Nat) (lost : List Nat)
  -- shepherd
  | windowBoundary (now : Nat)
  | penumbraOpen (now : Nat)
  | tileAbandon (fold : Fin 32) (now : Nat)
  | slotBoundary (now : Nat) (gradient : Option (List W32)) (blocks failures : Nat)
  | frameBoundary (now : Nat)
  | stageDeadline (now : Nat) (cell : Fin 512) (slot : W32) (stage : Stage) (lateNs : Nat)
      (inputLate unitLost rerun : Bool)
  -- memory tiers
  | chunkDone (half : Fin 2) (chan : Fin 64) (finding : ReadFinding) (remote : Bytes)
  | chunkStart (half : Fin 2) (chan : Fin 64)
  | tierLateExpiry (now : Nat) (half : Fin 2) (chan : Fin 64)
  | repairWaitExpiry (now : Nat)
  | scrubStep (u : UnitId) (address : Nat) (finding : ScrubFinding) (lastOfPass : Bool)
  | coherentAccess (mapping : W32) (offset : Nat) (len : Nat) (req : Credited CohReq)
  -- DMA
  | dmaDescriptorPost (engine : Fin 64) (chan : Fin 16) (d : Bytes)
  | dmaLevelAdd (engine : Fin 64) (chan : Fin 16) (bytes : Nat)
  | dmaDescriptorStart (engine : Fin 64)
  | dmaLineAccess (engine : Fin 64) (finding : ReadFinding)
  | dmaDescriptorComplete (engine : Fin 64)
  -- fronthaul
  | fhRxFrame (now : Nat) (lane : Fin 32) (f : Frame) (dueNs : Int)
  | egressFrameStart (now : Nat) (lane : Fin 32)
  | egressFrameDone (now : Nat) (lane : Fin 32)
  | egressDeadlineExpiry (now : Nat) (queue : Nat)
  | queueEvict (now : Nat) (queue : Nat)
  | fhLaneLinkChange (lane : Fin 32) (up : Bool)
  -- time
  | ptpRx (now : Nat) (lane : Fin 32) (domain : Byte) (msg : PtpMsg)
  | ptpTxTick (now : Nat) (lane : Fin 32) (kind : Fin 3)
  | announceTimeout (now : Nat) (mirror : Bool)
  | domainSwitchDone (now : Nat)
  | esmcRx (lane : Fin 32) (good : Bool)
  | esmcTxTick (now : Nat)
  | snapRefresh (now : Nat)
  | tpoEdge (now : Nat) (output : Fin 8)
  | captureEdge (now : Nat) (input : Fin 4) (rising : Bool)
  | capPop (mapping : W32) (input : Fin 4)
  -- fabric links
  | identifyRx (port : Fin 32) (uid : W64) (farPort : Fin 32)
  | trainPhaseDone (port : Fin 32) (lanesOk : Byte) (offsetPpb : Int) (eye : EyeReading)
  | trainPhaseTimeout (port : Fin 32)
  | detectRetry (now : Nat) (port : Fin 32)
  | heldRetrain (now : Nat) (port : Fin 32)
  | linkLoss (port : Fin 32)
  | codewordRx (now : Nat) (port : Fin 32) (n : W16) (corrected : Nat) (uncorrectable : Bool) (flits : Nat)
  | creditRx (port : Fin 32) (cw : W16) (nak : Bool) (credits : List Nat)
  | packetForward (port : Fin 32) (p : Packet)
  | packetDeliver (port : Fin 32) (p : Packet)
  | helloRx (port : Fin 32) (uid : W64) (inc : Nat) (node : Option Nat) (versions : List W16)
      (term : Nat) (bwUid : W64)
  -- flock control
  | beaconRx (now : Nat) (port : Fin 32) (origin : W64) (fseq term tableVersion epoch : Nat)
  | beaconTick (now : Nat)
  | beaconTimeout (now : Nat)
  | candidateRx (now : Nat) (port : Fin 32) (origin : W64) (fseq term : Nat) (vote : W64)
  | electionSettle (now : Nat)
  | linkReportRx (port : Fin 32) (origin : W64) (fseq : Nat) (links : List LinkInfo)
  | linkReportTick (now : Nat)
  | nodeTableRx (port : Fin 32) (origin : W64) (fseq version : Nat) (full : Bool) (entries : List NodeEntry)
  | refreshRx (now : Nat) (port : Fin 32) (uid : W64) (hint : Option Nat) (inc : Nat) (versions : List W16)
      (tableVersion : Nat)
  | routePlanRx (port : Fin 32) (origin : W64) (fseq epoch : Nat) (torus : Bool) (root : Nat) (shape : W32)
      (tableVersion : Nat)
  | planAckRx (port : Fin 32) (uid : W64) (epoch : Nat)
  | planAckTimeout (now : Nat)
  | commitRx (port : Fin 32) (origin : W64) (fseq epoch : Nat)
  | nodeReserveExpiry (now : Nat) (node : Fin 4096)
  -- fabric memory
  | fabRequestSend (now : Nat) (queue : Nat)
  | flagRelease (now : Nat) (id : Nat)
  | copyCounterSend (now : Nat) (id : Nat)
  | fabReadRx (p : Packet)
  | fabWriteRx (p : Packet)
  | fabFlagRx (p : Packet)
  | fabAtomicRx (p : Packet)
  | fabAckRx (p : Packet)
  | fabCollRx (p : Packet)
  | fabResponseRx (now : Nat) (p : Packet)
  | homeUpdateApply (now : Nat) (space : Bool) (line : Nat)
  | fabRetryTimeout (now : Nat) (dst : Fin 4096) (seq : Nat)
  | fabOutcomeTimeout (now : Nat) (dst : Fin 4096) (seq : Nat)
  | ackSend (now : Nat) (dst : Fin 4096)
  | replayEntryExpiry (now : Nat) (src : Fin 4096) (seq : Nat)
  | collectiveTimeout (now : Nat) (id : Nat)
  | regionCloseDone (region : Fin 4096)
  -- provenance and security
  | provenanceIntervalEnd (now : Nat)
  | signRequestDone (now : Nat)
  | sessionKeyReady
  | getVersion (major minor tag : Byte)
  | getCert (major tag : Byte) (body : Bytes)
  | getQuote (now : Nat) (major tag : Byte) (body : Bytes)
  | getRoot (major tag : Byte) (body : Bytes)
  | getLedgerHead (major tag : Byte) (body : Bytes)
  -- ledger and health
  | ledgerBatchWrite (now : Nat)
  | ledgerPeriodicRecord (now : Nat) (daily : Bool)
  | healthEvaluation (found : MonitorReadings)
  | patrolTick (now : Nat) (u : UnitId)
  | patrolResult (u : UnitId) (firstOk secondOk : Bool)
  | condFenceSample (now : Nat) (fold : Fin 32) (temp : Int) (activity : Nat)
  | thermalSample (now : Nat) (readings : Readings)
  | thermalTrip (readings : Readings)
  -- supplies and brake
  | pwrFail
  | railFault
  | pwrBrake (low : Bool)
  -- the Fyfoyx link
  | fyfTrainDone (lanesOk : W32) (versions : List W16)
  | fyfFlitCrcFail (now : Nat) (held : Bool)
  | fyfRecoveryTimeout
  | fyfLinkDown
  | companionOwnershipRequest (line : Nat) (own : Credited Own)
  | recallTimeout (line : Nat)
  | companionSnoop (line : Credited Nat)
  | flashRequest
  | flashRelease
  | jtagInstruction (op : Jtag)
  | ledgerReadDone (m : Fin 16)
  | routePlanIssue (now : Nat)
  | fyfLaneDetect
  | snoopReply (line : Nat) (data : Credited (Option Bytes))
  | unknownAttestationCode (major code tag : Byte)
  deriving DecidableEq, Repr

end Sys2Proof
end

