-- ==== Sys2Proof/Decode.lean ====
section
/-! DEFINITION. The command a word spells by the table's bits. The table of operations and events gives its rows
no bits: no word spells a command. -/

namespace Sys2Proof

/-- The command that the `nbits` bits of `w` spell: none, since no row of the table gives bits. -/
def decodeTableWord (_nbits _w : Nat) : Option Instr := none

end Sys2Proof
end

