-- ==== Sys2Proof/Machine/Keccak.lean ====
section
/-! DEFINITION. SHAKE256 of FIPS 202, the digest of the ledger, of object digests and of provenance (chapters 11,
17, 19, 20), and CRC-32C, the CHUNK_SUM and header CRC. -/

namespace Sys2Proof.Machine

/-- Rotation offsets of Keccak-f[1600], lane `x + 5 y`. -/
def rhoOffsets : List Nat :=
  [0, 1, 62, 28, 27, 36, 44, 6, 55, 20, 3, 10, 43, 25, 39, 41, 45, 15, 21, 8, 18, 2, 61, 56, 14]

/-- Round constants of Keccak-f[1600]. -/
def roundConstants : List W64 :=
  [0x0000000000000001#64, 0x0000000000008082#64, 0x800000000000808A#64, 0x8000000080008000#64,
   0x000000000000808B#64, 0x0000000080000001#64, 0x8000000080008081#64, 0x8000000000008009#64,
   0x000000000000008A#64, 0x0000000000000088#64, 0x0000000080008009#64, 0x000000008000000A#64] ++
  [0x000000008000808B#64, 0x800000000000008B#64, 0x8000000000008089#64, 0x8000000000008003#64,
   0x8000000000008002#64, 0x8000000000000080#64, 0x000000000000800A#64, 0x800000008000000A#64,
   0x8000000080008081#64, 0x8000000000008080#64, 0x0000000080000001#64, 0x8000000080008008#64]

/-- One round of Keccak-f[1600]. -/
def keccakRound (a : List W64) (rc : W64) : List W64 :=
  let g := fun i => a.getD i 0#64
  let cs := (List.range 5).map (fun x => g x ^^^ g (x + 5) ^^^ g (x + 10) ^^^ g (x + 15) ^^^ g (x + 20))
  let c := fun x => cs.getD (x % 5) 0#64
  let t := fun i => g i ^^^ c (i % 5 + 4) ^^^ (c (i % 5 + 1)).rotateLeft 1
  let bs := (List.range 25).map (fun i =>
    let j := (i % 5 + 3 * (i / 5)) % 5 + 5 * (i % 5)
    (t j).rotateLeft (rhoOffsets.getD j 0))
  let b := fun x y => bs.getD (x % 5 + 5 * y) 0#64
  (List.range 25).map (fun i =>
    let v := b (i % 5) (i / 5) ^^^ (~~~ b (i % 5 + 1) (i / 5) &&& b (i % 5 + 2) (i / 5))
    if i = 0 then v ^^^ rc else v)

/-- Keccak-f[1600]. -/
def keccakF (a : List W64) : List W64 := roundConstants.foldl keccakRound a

/-- Eight bytes as a lane. -/
def laneOf : Bytes → W64
  | [] => 0#64
  | b :: r => b.zeroExtend 64 ||| (laneOf r <<< 8)

/-- Lanes of a block of bytes. -/
def lanesOf (n : Nat) (bs : Bytes) : List W64 := (List.range n).map (fun i => laneOf ((bs.drop (8 * i)).take 8))

/-- The bytes of a lane. -/
def bytesOfLane (v : W64) : Bytes := (List.range 8).map (fun i => (v >>> (8 * i)).truncate 8)

/-- Absorb `k` blocks of 136 bytes. -/
def absorb : Nat → List W64 → Bytes → List W64
  | 0, st, _ => st
  | k + 1, st, bs =>
    let blk := lanesOf 25 (bs.take 136)
    absorb k (keccakF (List.zipWith (· ^^^ ·) st blk)) (bs.drop 136)

/-- Pad a message for SHAKE: 0x1F, zeros, 0x80, to a multiple of 136 bytes. -/
def shakePad (m : Bytes) : Bytes :=
  let n := 136 - m.length % 136
  if n = 1 then m ++ [0x9F#8] else m ++ [0x1F#8] ++ List.replicate (n - 2) 0#8 ++ [0x80#8]

/-- The first `n` bytes, at most 136, of SHAKE256 over a message. -/
def shake256 (n : Nat) (m : Bytes) : Bytes :=
  let p := shakePad m
  let st := absorb (p.length / 136) (List.replicate 25 0#64) p
  ((st.take 17).flatMap bytesOfLane).take n

/-- One bit of the reflected CRC-32C division (polynomial 0x1EDC6F41, reflected 0x82F63B78). -/
def crcBit (c : W32) : W32 := if c.getLsbD 0 then (c >>> 1) ^^^ 0x82F63B78#32 else c >>> 1

/-- One byte of CRC-32C. -/
def crcByte (c : W32) (b : Byte) : W32 :=
  (List.range 8).foldl (fun c _ => crcBit c) (c ^^^ b.zeroExtend 32)

/-- CRC-32C of a byte string. -/
def crc32c (bs : Bytes) : W32 := ~~~ (bs.foldl crcByte 0xFFFFFFFF#32)

/-- The first `n` bytes of SHAKE256 over an ASCII prefix and a byte string. -/
def shakeTag (n : Nat) (tag : List Nat) (m : Bytes) : Bytes :=
  shake256 n (tag.map (BitVec.ofNat 8) ++ m)

end Sys2Proof.Machine
end

