-- ==== Sys2Proof/Machine/Table.lean ====
section
/-! DEFINITION. Keyed tables in one canonical form: (key, value) pairs with strictly rising keys and no
value equal to what an unlisted key reads as. Memory is the table of bytes; every numbered set of
units, cells, queues or objects is one of these. -/

namespace Sys2Proof.Machine

/-- The value of key `k`: that of the first entry with this key, `d` where the table lists none. -/
def tget {α : Type} (d : α) : List (Nat × α) → Nat → α
  | [], _ => d
  | (k', v) :: r, k => if k = k' then v else tget d r k

/-- The table with key `k` removed. -/
def tdel {α : Type} : List (Nat × α) → Nat → List (Nat × α)
  | [], _ => []
  | (k', v) :: r, k => if k = k' then tdel r k else (k', v) :: tdel r k

/-- The table with key `k` listed at `v`. -/
def tput {α : Type} : List (Nat × α) → Nat → α → List (Nat × α)
  | [], k, v => [(k, v)]
  | (k', v') :: r, k, v =>
    if k = k' then (k, v) :: r else if k < k' then (k, v) :: (k', v') :: r else (k', v') :: tput r k v

/-- Write `v` at key `k`; writing the default removes the entry, so equal tables are equal data. -/
def tset {α : Type} [DecidableEq α] (d : α) (t : List (Nat × α)) (k : Nat) (v : α) : List (Nat × α) :=
  if v = d then tdel t k else tput t k v

/-- Change the value at key `k`. -/
def tmod {α : Type} [DecidableEq α] (d : α) (t : List (Nat × α)) (k : Nat) (f : α → α) : List (Nat × α) :=
  tset d t k (f (tget d t k))

/-- Keys rise strictly, above `lo` where one is given. -/
def tsorted {α : Type} : Option Nat → List (Nat × α) → Bool
  | _, [] => true
  | none, (k, _) :: r => tsorted (some k) r
  | some lo, (k, _) :: r => decide (lo < k) && tsorted (some k) r

/-- The canonical form: keys strictly rising, no value the default. -/
def twf {α : Type} [DecidableEq α] (d : α) (t : List (Nat × α)) : Bool :=
  tsorted none t && t.all (fun p => decide (p.2 ≠ d))

/-- Apply `f` at every listed key of `ks`, in order. -/
def tmodAll {α : Type} [DecidableEq α] (d : α) (t : List (Nat × α)) (ks : List Nat) (f : Nat → α → α) :
    List (Nat × α) :=
  ks.foldl (fun t k => tmod d t k (f k)) t

/-! ## Memory -/

/-- One memory of bytes: what no entry lists reads as zero, and the numbers of the 64-byte lines that
carry a poison mark (R360, R365, R366), rising strictly. -/
structure Mem where
  cells : List (Nat × Byte)
  poison : List (Nat × Unit)
  deriving DecidableEq, Repr

/-- Empty memory. -/
def Mem.empty : Mem := ⟨[], []⟩

/-- The canonical form of memory. -/
def Mem.wf (m : Mem) : Bool := twf 0#8 m.cells && tsorted none m.poison

/-- The byte at address `a`. -/
def Mem.rd (m : Mem) (a : Nat) : Byte := tget 0#8 m.cells a

/-- Write one byte. -/
def Mem.wr (m : Mem) (a : Nat) (b : Byte) : Mem := { m with cells := tset 0#8 m.cells a b }

/-- `n` bytes from `a`. -/
def Mem.rdN (m : Mem) (a n : Nat) : Bytes := (List.range n).map (fun i => m.rd (a + i))

/-- Write a byte string from `a`. -/
def Mem.wrN (m : Mem) (a : Nat) : Bytes → Mem
  | [] => m
  | b :: r => (m.wr a b).wrN (a + 1) r

/-- Word `a / 8` carries a poison mark: SRAM is protected by words of 64 bits (R365). -/
def Mem.isPoison (m : Mem) (word : Nat) : Bool := m.poison.any (fun p => p.1 == word)

/-- Mark a word poisoned. -/
def Mem.mark (m : Mem) (word : Nat) : Mem := { m with poison := tput m.poison word () }

/-- Clear a word's poison mark. -/
def Mem.unmark (m : Mem) (word : Nat) : Mem := { m with poison := tdel m.poison word }

/-- The words that `n` bytes from `a` touch. -/
def wordsOf (a n : Nat) : List Nat :=
  if n = 0 then [] else (List.range ((a + n - 1) / 8 - a / 8 + 1)).map (fun i => a / 8 + i)

/-- The 64-byte lines that `n` bytes from `a` touch. -/
def linesOf (a n : Nat) : List Nat :=
  if n = 0 then [] else (List.range ((a + n - 1) / 64 - a / 64 + 1)).map (fun i => a / 64 + i)

/-- One of the words that `n` bytes from `a` touch is poisoned. -/
def Mem.poisoned (m : Mem) (a n : Nat) : Bool :=
  m.poison.any (fun p => decide (n ≠ 0 ∧ a / 8 ≤ p.1 ∧ p.1 ≤ (a + n - 1) / 8))

/-- Mark every word that `n` bytes from `a` touch. -/
def Mem.markN (m : Mem) (a n : Nat) : Mem := (wordsOf a n).foldl Mem.mark m

/-- The 64-byte line of word `w` lies wholly in `n` bytes from `a`. -/
def lineWithin (a n w : Nat) : Bool := decide (a ≤ w / 8 * 64 ∧ w / 8 * 64 + 64 ≤ a + n)

/-- Write a byte string; a line written whole loses its poison mark (R363). -/
def Mem.store (m : Mem) (a : Nat) (bs : Bytes) : Mem :=
  let m := m.wrN a bs
  { m with poison := m.poison.filter (fun p => !lineWithin a bs.length p.1) }

/-- Zero `n` bytes from `a` and clear the marks of the lines wholly inside. -/
def Mem.zero (m : Mem) (a n : Nat) : Mem :=
  { cells := m.cells.filter (fun p => !decide (a ≤ p.1 ∧ p.1 < a + n))
    poison := m.poison.filter (fun p => !lineWithin a n p.1) }

/-- Copy `n` bytes with their poison marks from `src` to `dst`, both multiples of 64: what is listed in the
source range moves, everything else of the target range reads zero. -/
def Mem.copy (m : Mem) (src dst n : Nat) : Mem :=
  let cs := m.cells.filter (fun p => decide (src ≤ p.1 ∧ p.1 < src + n))
  let ps := m.poison.filter (fun p => decide (src / 8 ≤ p.1 ∧ p.1 < (src + n) / 8))
  let m := m.zero dst n
  let m := cs.foldl (fun m p => m.wr (p.1 - src + dst) p.2) m
  ps.foldl (fun m p => m.mark (p.1 - src / 8 + dst / 8)) m

/-! ## The spaces of memory, all in one `Mem` -/

/-- The memories of the device and of the companion. -/
inductive Space where
  | hbm | radio | companion | commons (d : Nat) | sram (f : Nat)
  /-- the port buffer of a fronthaul lane (Table 12-3, code 6) -/
  | port (lane : Nat)
  deriving DecidableEq, Repr

/-- The number of a space. -/
def Space.code : Space → Nat
  | .hbm => 0
  | .radio => 1
  | .companion => 2
  | .commons d => 4 + d
  | .sram f => 64 + f
  | .port l => 16 + l

/-- The key of byte `a` of a space: each space has 2^64 keys of its own. -/
def key (sp : Space) (a : Nat) : Nat := sp.code * 2 ^ 64 + a % 2 ^ 64

/-- What of a byte string written from address `a` lies in the space: no byte has an address above 2^64 − 1. -/
def clip {α : Type} (a : Nat) (b : List α) : List α := if a % 2 ^ 64 + b.length ≤ 2 ^ 64 then b else b.take (2 ^ 64 - a % 2 ^ 64)

/-! ## Bytes and fields (R8, R9) -/

/-- The little-endian number a byte string spells. -/
def leNat : Bytes → Nat
  | [] => 0
  | b :: r => b.toNat + 256 * leNat r

/-- `n` little-endian bytes of a number. -/
def leBytes : Nat → Nat → Bytes
  | 0, _ => []
  | n + 1, v => BitVec.ofNat 8 (v % 256) :: leBytes n (v / 256)

/-- Byte `i` of a byte string, 0 beyond its end. -/
def byteAt (bs : Bytes) (i : Nat) : Nat := (bs.getD i 0#8).toNat

/-- The little-endian field of `n` bytes at offset `i`. -/
def fieldAt (bs : Bytes) (i n : Nat) : Nat := leNat ((bs.drop i).take n)

/-- Bits `[lo + w - 1 : lo]` of a number. -/
def bitsOf (v lo w : Nat) : Nat := v / 2 ^ lo % 2 ^ w

/-- Bit `i` of a number. -/
def bitOf (v i : Nat) : Bool := v / 2 ^ i % 2 == 1

/-- One bit as a number. -/
def b2n (b : Bool) : Nat := if b then 1 else 0

/-- A number of `w` bits read as two's complement. -/
def toInt (w v : Nat) : Int := if 2 * (v % 2 ^ w) < 2 ^ w then (v % 2 ^ w : Nat) else ((v % 2 ^ w : Nat) : Int) - (2 ^ w : Nat)

/-- The two's complement of `w` bits of an integer. -/
def ofInt (w : Nat) (v : Int) : Nat := (v % ((2 ^ w : Nat) : Int)).toNat

/-- A counter of `w` bits that holds at its all-ones value (R180). -/
def satAdd (w v n : Nat) : Nat := min (v + n) (2 ^ w - 1)

/-- One more, held at all-ones. -/
def satInc (w v : Nat) : Nat := satAdd w v 1

/-- `max`imum over a list, 0 for none. -/
def listMax (l : List Nat) : Nat := l.foldl max 0

/-- Ceiling of a division. -/
def ceilDiv (a b : Nat) : Nat := (a + b - 1) / b

/-- Put a 16-bit difference on the signed circle: `a - b` modulo 2^w as a signed number (R286, R414). -/
def sdiff (w a b : Nat) : Int := toInt w (a + 2 ^ w - b % 2 ^ w)

/-- Replace element `i` of a list. -/
def lset {α : Type} (l : List α) (i : Nat) (v : α) : List α := l.set i v

end Sys2Proof.Machine
end

