-- ==== Sys2Proof/Machine/Types.lean ====
section
/-! DEFINITION. The records the state is made of, group by group, each with its value at reset. A field's
docstring names the register or rule of the spec that gives it. -/

namespace Sys2Proof.Machine

/-! ## Unit and device states -/

/-- Unit states of Table 02-4. -/
inductive UState where
  | absent | fusedOff | initialising | ready | degraded | fenced | failed | retired | sleeping | spare
  deriving DecidableEq, Repr

/-- Codes of Table 02-4. -/
def UState.code : UState → Nat
  | .absent => 0 | .fusedOff => 1 | .initialising => 2 | .ready => 3 | .degraded => 4
  | .fenced => 5 | .failed => 6 | .retired => 7 | .sleeping => 8 | .spare => 9

/-- The last column of Table 02-4: the unit accepts work. -/
def UState.accepts : UState → Bool
  | .ready | .degraded => true
  | _ => false

/-- Device states of Table 03-5. -/
inductive DState where
  | rom | loaded | configuring | serving | dusk | night | draining | standby | watched | fenced
  deriving DecidableEq, Repr

/-- Codes of Table 03-5. -/
def DState.code : DState → Nat
  | .rom => 0 | .loaded => 1 | .configuring => 2 | .serving => 3 | .dusk => 4
  | .night => 5 | .draining => 6 | .standby => 7 | .watched => 8 | .fenced => 9

/-- What the device's own register of a unit entry holds beyond its constants (Table 02-3). -/
structure UnitEntry where
  /-- the unit's own state; `shownState` applies R55 -/
  state : UState := .absent
  /-- RETAINED_UNVERIFIED (R62) -/
  retainedUnverified : Bool := false
  /-- DEBUG (R206) -/
  debug : Bool := false
  /-- INCARNATION (R58) -/
  incarnation : Nat := 0
  /-- STATE_CHANGE -/
  stateChange : Nat := 0
  /-- CAPS as an offset of the unit's full capabilities: the value shown when DEGRADED -/
  capsDegraded : Option W64 := none
  /-- a reset or wake waits for its incarnation reservation (R59) -/
  waitsReserve : Bool := false
  deriving DecidableEq, Repr

/-- The Peloth table (Table 02-1). -/
structure Peloth where
  /-- MAGIC is nonzero -/
  published : Bool := false
  /-- CHANGE_COUNT; even between the device's updates, each of which is one step (R49) -/
  changeCount : Nat := 0
  /-- the unit entries by unit key -/
  entries : List (Nat × UnitEntry) := []
  deriving DecidableEq, Repr

/-! ## Status codes (Table 03-8) -/

/-- Status codes of Table 03-8. -/
inductive Status where
  | ok | stateConflict | capacity | quota | badArg | version | staleHandle | staleGeneration
  | tierUncorrectable | tierLate | outcomeUnknown | keyMismatch | spoof | jobLost | poisoned
  | denied | notReady | unknownOpcode | cancelled
  deriving DecidableEq, Repr

/-- Codes of Table 03-8. -/
def Status.code : Status → Nat
  | .ok => 0 | .stateConflict => 1 | .capacity => 2 | .quota => 3 | .badArg => 4 | .version => 5
  | .staleHandle => 6 | .staleGeneration => 7 | .tierUncorrectable => 8 | .tierLate => 9
  | .outcomeUnknown => 10 | .keyMismatch => 11 | .spoof => 12 | .jobLost => 13 | .poisoned => 14
  | .denied => 15 | .notReady => 16 | .unknownOpcode => 17 | .cancelled => 18

/-! ## Control cores and islands -/

/-- One control core (R39 to R43). -/
structure CtlCore where
  /-- halted, being restarted by its supervisor -/
  restarting : Bool := false
  /-- by an uncorrectable error (R40) rather than the watchdog -/
  byEcc : Bool := false
  /-- restart count carried by the heartbeat -/
  restarts : Nat := 0
  deriving DecidableEq, Repr

/-- One clock island (R21, R27): clocks in kHz. -/
structure Island where
  /-- the clock it runs at; none at its nominal clock of Table 01-3 -/
  clock : Option Nat := none
  /-- a clock requested and not yet in effect -/
  requested : Option (Option Nat) := none
  deriving DecidableEq, Repr

/-! ## Mailboxes and event rings -/

/-- Mailbox roles of Table 03-2. -/
inductive Role where
  | unassigned | manager | group | radio | tenant
  deriving DecidableEq, Repr

/-- Codes of Table 03-2. -/
def Role.code : Role → Nat
  | .unassigned => 0 | .manager => 1 | .group => 2 | .radio => 3 | .tenant => 4

/-- A command as taken up from its slot: the header of Table 03-3 and its argument bytes. -/
structure Cmd where
  opcode : Nat
  version : Nat
  seq : Nat
  instId : Nat
  indirect : Bool
  argLength : Nat
  argPointer : Nat
  /-- the argument bytes, wherever they lay; argument byte 0x20 + i is element i -/
  args : Bytes
  /-- address of the slot in companion memory -/
  slot : Nat
  /-- the enabling of the mailbox under which it was taken up -/
  session : Nat
  deriving DecidableEq, Repr

/-- A response as written into a slot (Table 03-4). -/
structure Response where
  opcode : Nat
  status : Status
  seq : Nat
  instId : Nat
  pending : Bool
  result : Bytes
  dstate : Nat
  deriving DecidableEq, Repr

/-- A long command under way (R95). -/
structure LongCmd where
  opcode : Nat
  seq : Nat
  deriving DecidableEq, Repr

/-- One mailbox (Table 03-1) with the history of R92 and R93. -/
structure Mailbox where
  role : Role := .unassigned
  inst : Nat := 0
  /-- mapping granted by MBX_ASSIGN; for mailbox 0 the manager's -/
  mapping : W32 := 0
  ringBase : Nat := 0
  enable : Bool := false
  tail : Nat := 0
  taken : Nat := 0
  head : Nat := 0
  stopped : Bool := false
  /-- MBX_ERROR -/
  fetchFault : Bool := false
  overrun : Bool := false
  foreign : Bool := false
  /-- AGREED, 0 before agreement -/
  agreed : Nat := 0
  /-- RESP_EVENT -/
  respRing : Nat := 0
  respOn : Bool := false
  /-- long commands pending -/
  long : List LongCmd := []
  /-- the stored response (R93) -/
  stored : Option Response := none
  /-- SEQ of the previous command; none right after enabling or assignment (R92) -/
  lastSeq : Option Nat := none
  /-- the next command is the first after ENABLE went to 1 (R93) -/
  first : Bool := true
  /-- the command taken up and not yet answered -/
  current : Option Cmd := none
  /-- the command has taken effect and its answer is held because the control core halted (R89) -/
  heldAnswer : Bool := false
  /-- a write of 0 to ENABLE waits for the answer of the command taken up (R80): what ENABLE is to hold then, and the TAIL
  written meanwhile, 65,536 once one of them set OVERRUN -/
  closing : Option (Bool × Nat) := none
  /-- enablings so far -/
  session : Nat := 0
  deriving DecidableEq, Repr

/-- An event record (Table 03-11) but for its PHASE. -/
structure EvRecord where
  code : Nat
  inst : Nat
  srcType : Nat
  srcIdx : Nat
  time : Nat
  payload : Nat
  deriving DecidableEq, Repr

/-- One event ring (Table 03-10). -/
structure EventRing where
  base : Nat := 0
  /-- LOG2_ENTRIES; 0 while disabled -/
  log2 : Nat := 0
  ownerRole : Role := .unassigned
  ownerInst : Nat := 0
  vecAddr : W64 := 0
  vecData : W32 := 0
  tail : Nat := 0
  head : Nat := 0
  arm : Bool := false
  lost : Nat := 0
  mask : Nat := 0
  /-- records held while the ring is full (R109), oldest first, at most 16 -/
  held : List EvRecord := []
  /-- records discarded since the ring filled -/
  dropped : Nat := 0
  deriving DecidableEq, Repr

/-- Owner of a page of sixteen event rings (R106). -/
structure EvPage where
  mapping : W32 := 0
  role : Role := .unassigned
  inst : Nat := 0
  deriving DecidableEq, Repr

/-- Counters of a doorbell page (Table 03-13). -/
structure DbPage where
  accepted : Nat := 0
  spoof : Nat := 0
  stale : Nat := 0
  malformed : Nat := 0
  deriving DecidableEq, Repr

/-! ## Instances -/

/-- Instance states of Table 18-1. -/
inductive IState where
  | unused | active | frozen | exporting | importing
  deriving DecidableEq, Repr

/-- Codes of Table 18-1. -/
def IState.code : IState → Nat
  | .unused => 0 | .active => 1 | .frozen => 2 | .exporting => 3 | .importing => 4

/-- Policer parameters of Table 13-10a. -/
structure PolicerCfg where
  rfc2698 : Bool := false
  colourSrc : Nat := 0
  yellowDrop : Bool := false
  cir : Nat := 0
  pir : Nat := 0
  cbs : Nat := 0
  ebs : Nat := 0
  deriving DecidableEq, Repr

/-- A flow grant (Table 18-4). -/
structure Flow where
  lane : Nat
  vid : Nat
  tagged : Bool
  mac : Nat
  policer : Nat
  rxQueue : Nat
  police : PolicerCfg
  deriving DecidableEq, Repr

/-- The grants of Table 18-3. -/
structure Grant where
  descVersion : Nat := 0
  folds : Nat := 0
  contextSlots : Nat := 0
  queueFirst : Nat := 0
  queueCount : Nat := 0
  groupFirst : Nat := 0
  groupCount : Nat := 0
  regionFirst : Nat := 0
  regionCount : Nat := 0
  mapping : W32 := 0
  t2Base : Nat := 0
  t2Size : Nat := 0
  quotaT0 : Nat := 0
  quotaT1 : Nat := 0
  quotaT2 : Nat := 0
  flows : List Flow := []
  deriving DecidableEq, Repr

/-- One instance (ch 18) with its registers of Table 18-7. -/
structure Inst where
  state : IState := .unused
  generation : Nat := 0
  grant : Grant := {}
  /-- object table entry of the queue table (R409) -/
  queueTable : Option Nat := none
  /-- bitmap in force (R565), 0 for none -/
  bitmap : Nat := 0
  dirtyPages : Nat := 0
  spoofCount : Nat := 0
  staleDiscards : Nat := 0
  frozenDrops : Nat := 0
  resets : Nat := 0
  /-- buffer and size of the export under way, or addresses of the import under way (R568, R569) -/
  transfer : Option (Nat × Nat × Nat) := none
  /-- the mailbox and SEQ the transfer answers -/
  transferCmd : Option (Nat × Nat) := none
  /-- what the image under import says -/
  image : Option Image := none
  deriving DecidableEq, Repr

/-- The device's spoof counters (Table 18-7, R558). -/
structure Spoof where
  total : Nat := 0
  /-- per kind 1 to 5: count, failures since the last SPOOF event, time of that event -/
  kinds : List (Nat × (Nat × Nat × Option Nat)) := []
  /-- INST_EVENT -/
  event : Nat := 0
  deriving DecidableEq, Repr

/-! ## Objects and tiers -/

/-- Residency states of Table 11-4. -/
inductive CState where
  | absent | filling | resident | draining | poisoned | repair
  deriving DecidableEq, Repr

/-- Codes of Table 11-4. -/
def CState.code : CState → Nat
  | .absent => 0 | .filling => 1 | .resident => 2 | .draining => 3 | .poisoned => 4 | .repair => 5

/-- One range of a copy: the space it lies in and the base address of each of its chunks. -/
structure Part where
  space : Space
  chunks : List Nat
  deriving DecidableEq, Repr

/-- Where a T0 copy lies (R352). -/
inductive Place where
  /-- T1, or the companion range of T2 -/
  | plain
  /-- commons copies, PLACE 0, 1 or 2 -/
  | commons (place : Nat)
  /-- the share of a context, PLACE 3 -/
  | share (inst ctx : Nat)
  deriving DecidableEq, Repr

/-- One copy of an object in one tier. Every part holds the whole object. -/
structure Copy where
  tier : Nat
  place : Place
  state : CState
  parts : List Part
  /-- moves of the running fill or drain that are complete: move `chunk * parts + part` -/
  filled : List Nat := []
  /-- a chunk of the running fill was poisoned -/
  fillPoisoned : Bool := false
  /-- a fill that is to stop at its next chunk boundary (R353) -/
  cancelled : Bool := false
  /-- chunks written and not yet written back (R350, R370) -/
  dirty : List Nat := []
  /-- moves still to be refilled by the running repair, each with the number of sources tried (R361) -/
  repairTodo : List (Nat × Nat) := []
  /-- order of acceptance of the running fill, drain or repair (R354) -/
  order : Nat := 0
  /-- the running operation is of the radio class (R354) -/
  radio : Bool := false
  deriving DecidableEq, Repr

/-- A tier reference (R351). -/
structure Ref where
  inst : Nat
  tier : Nat
  place : Place
  deriving DecidableEq, Repr

/-- One entry of the object table (R340 to R345). -/
structure Obj where
  live : Bool := false
  /-- REF_GEN of the present or last use; 0 for an entry never used -/
  refGen : Nat := 0
  kind : Nat := 0
  readonly : Bool := false
  shared : Bool := false
  pin : Bool := false
  headerless : Bool := false
  home : Nat := 1
  place1 : Nat := 0
  size : Nat := 0
  source : Nat := 0
  lateUs : Nat := 0
  repairMs : Nat := 0
  digest : Bytes := []
  joinable : Bool := false
  digestFailed : Bool := false
  /-- the first complete fill into T1 is done: its sums and digests are recorded -/
  summed : Bool := false
  chunkSums : List Nat := []
  contentDigest : Bytes := []
  alternates : List Nat := []
  /-- the last header check found the header bad (R127) -/
  headerBad : Bool := false
  /-- of a report area: block 0 is the first block found since FIRST_BLOCK was last written 0 (R143) -/
  firstIsZero : Bool := false
  copies : List Copy := []
  refs : List Ref := []
  /-- instances holding a handle -/
  holders : List Nat := []
  deriving DecidableEq, Repr

/-- Classes of a tier-mover operation. -/
inductive MoveKind where
  | fill | drain | repair
  deriving DecidableEq, Repr

/-- A chunk in transit on a tier-mover channel. -/
structure Transit where
  obj : Nat
  place : Place
  tier : Nat
  kind : MoveKind
  move : Nat
  /-- source of the chunk; none for a range in T3, whose data arrive from the fabric -/
  src : Option (Space × Nat)
  /-- the source lies in T2 or T3, or is the SOURCE of a HOME 1 object -/
  lowTier : Bool
  started : Nat
  /-- it did not arrive within LATE_US (R358) -/
  late : Bool := false
  deriving DecidableEq, Repr

/-- A read waiting for a chunk in REPAIR (R362): object, chunk, the time it ends, the task it is for. -/
structure Waiter where
  obj : Nat
  chunk : Nat
  until' : Nat
  task : Nat
  deriving DecidableEq, Repr

/-- The tier-mover half and commons scrubber of a commons (Table 11-10). -/
structure Mover where
  /-- channels: 0, 1 radio (channels 4, 5), 2, 3 grazing (6, 7) -/
  chans : List (Nat × Option Transit) := []
  filled : Nat := 0
  drained : Nat := 0
  cancelled : Nat := 0
  late : Nat := 0
  poisoned : Nat := 0
  repaired : Nat := 0
  repairFailed : Nat := 0
  sumRejects : Nat := 0
  sramCorrected : Nat := 0
  sramUncorrectable : Nat := 0
  scrubPasses : Nat := 0
  event : Nat := 0
  deriving DecidableEq, Repr

/-- A stack controller (Table 11-11). -/
structure StackCtl where
  scrubActive : Bool := false
  corrected1 : Nat := 0
  corrected2 : Nat := 0
  uncorrectable : Nat := 0
  rowsRemapped : Nat := 0
  chunksRetired : Nat := 0
  scrubPasses : Nat := 0
  event : Nat := 0
  /-- times of corrections of each row within 24 h (R369) -/
  rowHits : List (Nat × List Nat) := []
  /-- spare rows used in each bank -/
  sparesUsed : List (Nat × Nat) := []
  deriving DecidableEq, Repr

/-- Objects, tiers and their movers. -/
structure Tiers where
  /-- the object table, 2^20 entries -/
  objs : List (Nat × Obj) := []
  movers : List (Nat × Mover) := []
  stackCtls : List (Nat × StackCtl) := []
  /-- operations accepted so far, which orders them (R354) -/
  accepted : Nat := 0
  waiters : List Waiter := []
  /-- chunks of HBM retired for good (R369), by base offset -/
  retired : List (Nat × Unit) := []
  deriving DecidableEq, Repr

/-! ## Numbers and weight headers -/

/-- A decoded number: `sig * 2 ^ exp`, an infinity or a NaN. -/
inductive Num where
  | fin (sig exp : Int)
  | inf (neg : Bool)
  | nan
  deriving DecidableEq, Repr

/-- The weight tensor header (Table 04-7). -/
structure WHeader where
  fmt : Nat
  glint : Bool
  master : Bool
  sampleLog2 : Nat
  masterFmt : Nat
  guardMin : Int
  guardMax : Int
  rows : Nat
  k : Nat
  elemOff : Nat
  scaleOff : Nat
  glintOff : Nat
  masterHandle : Nat
  reportHandle : Nat
  deriving DecidableEq, Repr

/-! ## Folds -/

/-- An accumulator (Table 06-1): value `sig * 2 ^ exp`, its flags, and whether an entry of a MAX or MIN group has
taken a value. -/
structure Acc where
  sig : Int := 0
  exp : Int := 0
  sat : Bool := false
  poison : Bool := false
  nan : Bool := false
  inexact : Bool := false
  taken : Bool := false
  deriving DecidableEq, Repr

/-- Logical group states of Table 06-3. -/
inductive GState where
  | unused | open' | held | merging | converting | spilling | spilled | restoring
  deriving DecidableEq, Repr

/-- Codes of Table 06-3. -/
def GState.code : GState → Nat
  | .unused => 0 | .open' => 1 | .held => 2 | .merging => 3
  | .converting => 4 | .spilling => 5 | .spilled => 6 | .restoring => 7

/-- A physical group. -/
structure PGroup where
  /-- context slot that owns it; none while no resident context has it -/
  owner : Option Nat := none
  /-- it holds a logical group or a working group -/
  used : Bool := false
  working : Bool := false
  logical : Nat := 0
  state : GState := .unused
  /-- mode of R202 -/
  mode : Nat := 0
  accs : List (Nat × Acc) := []
  deriving DecidableEq, Repr

/-- A logical group of a context. -/
structure LGroup where
  state : GState := .unused
  mode : Nat := 0
  /-- the physical group that holds it -/
  phys : Option Nat := none
  /-- tiles started when it was last used (R210) -/
  lastUse : Nat := 0
  deriving DecidableEq, Repr

/-- Context slot states of Table 07-8. -/
inductive XState where
  | empty | residing | idle | running | releasing
  deriving DecidableEq, Repr

/-- Codes of CTX_STATE. -/
def XState.code : XState → Nat
  | .empty => 0 | .residing => 1 | .idle => 2 | .running => 3 | .releasing => 4

/-- A vector bundle: the parts of BUNDLE_STATE and its registers (32 registers of 32 lanes). -/
structure VBundle where
  pc : Nat := 0
  ready : Bool := false
  stopped : Bool := false
  regs : List (Nat × W32) := []
  deriving DecidableEq, Repr

/-- A vector core: bundles by number, and the bundle it issued last of each class. -/
structure VCore where
  bundles : List (Nat × VBundle) := []
  /-- instruction cache (R213): slot, line number and the 64 bytes of the line, oldest first, at most 1,024 lines -/
  icache : List (Nat × Nat × Bytes) := []
  lastRadio : Nat := 127
  lastGrazing : Nat := 127
  deriving DecidableEq, Repr

/-- A context slot. -/
structure Ctx where
  state : XState := .empty
  radio : Bool := false
  inst : Nat := 0
  ctxId : Nat := 0
  phys : Nat := 0
  logical : Nat := 0
  groups : List (Nat × LGroup) := []
  /-- the context's bundles on each vector core, ascending -/
  bundleSet : List Nat := []
  /-- base and size of the share in fold SRAM -/
  shareBase : Nat := 0
  shareSize : Nat := 0
  /-- base of the spill area within the share (R208) -/
  spillBase : Nat := 0
  spillSeq : Nat := 0
  digest : Bytes := []
  /-- object of the program -/
  program : Nat := 0
  /-- the task whose rank runs here -/
  task : Option Nat := none
  rank : Nat := 0
  /-- next tile of that rank, and its flags so far (SAT, POISON, NAN, INEXACT in bits 0 to 3) -/
  nextTile : Nat := 0
  /-- the next tile starts its second run (R171) -/
  secondRun : Bool := false
  flags : Nat := 0
  /-- the rank is paused at a tile boundary (R563, R590, R627) -/
  paused : Bool := false
  /-- the context is to leave residency once its tasks have completed (R220), for this RELEASE task -/
  releasing : Bool := false
  relTask : Option Nat := none
  deriving DecidableEq, Repr

/-- A tile entry (Table 07-3). -/
structure TileEntry where
  shape : Nat := 0
  xred : Bool := false
  start : Nat := 0
  endAt : Nat := 0
  report : Bool := false
  wfmt : Nat := 0
  sfmt : Nat := 0
  ofmt : Nat := 0
  rows : Nat := 0
  lgroup : Nat := 0
  mode : Nat := 0
  target : Nat := 0
  passes : Nat := 0
  entryBase : Nat := 0
  posBase : Nat := 0
  weight : Nat := 0
  output : Nat := 0
  outOffset : Nat := 0
  passOffset : Nat := 0
  wk : Nat := 0
  deriving DecidableEq, Repr

/-- A pass entry (Table 07-4). -/
structure PassEntry where
  wrow : Nat := 0
  chunk : Nat := 0
  statOffset : Nat := 0
  swap : Bool := false
  fromCommons : Bool := false
  deriving DecidableEq, Repr

/-- One stationary plane: the columns' bytes as loaded, which columns came from poisoned words, the checksum cells (the
exact sum of the columns at each element position, the same in every column group, R156, R166), and the status that
poison of the load gives the tile (R360). -/
structure Plane where
  cols : List Bytes := []
  poison : List Bool := []
  sums : List Num := []
  st : Status := .ok
  complete : Bool := false
  deriving DecidableEq, Repr

/-- The value of a row's tree on its way to an accumulator: `sig * 2 ^ exp` with the flags it raises. -/
structure Val where
  sig : Int := 0
  exp : Int := 0
  nan : Bool := false
  sat : Bool := false
  inexact : Bool := false
  deriving DecidableEq, Repr

/-- What one column makes of one weight row: the value for its accumulator, the value that a comparison takes on the
main side, what it is exactly, and the sum of the weights of the bits its rounding nodes keep (R170), each dyadic. -/
structure ColVal where
  v : Val
  main : Int × Int
  exact : Int × Int
  tau : Int × Int
  deriving DecidableEq, Repr

/-- One weight row in flight: tile row, group, its weights until it is multiplied, its errors, its column values. -/
structure RowInFlight where
  row : Nat
  group : Nat
  poison : Bool
  weights : List Num
  errors : List (Nat × Int)
  vals : List ColVal := []
  /-- from its multiply stage on: the marks of the stationary columns, and the value of its group's checksum column -/
  colPoison : List Bool := []
  check : Num := .fin 0 0
  /-- the row of the master copy, for a sampled tile, and what the columns make of it (R140) -/
  ref : List Num := []
  refVals : List Num := []
  deriving DecidableEq, Repr

/-- What was broadcast in one cycle: its age in fold cycles, its rows; for a checksum cycle no rows and the errors of
its checksum rows. -/
structure InFlight where
  age : Nat := 0
  rows : List RowInFlight := []
  check : Bool := false
  errors : List (Nat × Nat × Int) := []
  /-- it belongs to a checked pass -/
  checked : Bool := false
  passEnd : Bool := false
  tileEnd : Bool := false
  deriving DecidableEq, Repr

/-- What a checked pass has gathered for a group and column since the last checksum cycle (R169): the main side, the
exact side and the tolerance. -/
structure RowCheck where
  main : Int × Int := (0, 0)
  exact : Int × Int := (0, 0)
  tau : Int × Int := (0, 0)
  deriving DecidableEq, Repr

/-- The tile running on the array. -/
structure Tile where
  slot : Nat
  index : Nat
  entry : TileEntry
  passes : List PassEntry
  /-- physical groups it accumulates into, in group order: the named groups', or working ones for CONTINUE -/
  into : List Nat
  /-- weight rows per tensor row, and the header of the weight object or what WK says of a headerless one -/
  header : WHeader
  /-- pass being broadcast, and issue cycles broadcast in it -/
  pass : Nat := 0
  cycle : Nat := 0
  /-- the next cycle of this pass is a checksum cycle, or issue cycles since the last one (R168) -/
  sinceCheck : Nat := 0
  /-- this pass is checked; counted once its first row is broadcast -/
  checked : Bool := false
  checks : List (Nat × RowCheck) := []
  /-- second run under R171 -/
  rerun : Bool := false
  /-- a comparison failed in this run -/
  failed : Bool := false
  /-- the first row has been broadcast, and the first row accumulated -/
  begun : Bool := false
  opened : Bool := false
  /-- the TILE_END row has been broadcast, and accumulated -/
  endSent : Bool := false
  endDone : Bool := false
  /-- a status that ends the tile without results (R174) -/
  ended : Option Status := none
  /-- what poison that entered the tile makes of its status (R186, R360) -/
  poisonSt : Status := .ok
  /-- the chunk of the weight object that its stream waits for -/
  waits : Option Nat := none
  /-- the accumulators recomputed from the master copy, for a tile selected for error sampling (R140); none where it
  is not selected; `sampleLost` once a master chunk was not there (R142) -/
  sample : Option (List (Nat × Num)) := none
  sampleLost : Bool := false
  /-- plane loads completed for the tile -/
  loads : Nat := 0
  /-- the plane of the pass being broadcast has been swapped in, or needs no swap -/
  swapped : Bool := false
  /-- position in the three-cycle rhythm of M3 at W16B4 (R151) -/
  slotPhase : Nat := 0
  /-- an entry of the completion buffer is reserved for its record -/
  reserved : Bool := false
  /-- when it started, or started its second run -/
  since : Nat := 0
  deriving DecidableEq, Repr

/-- Phases of a tile after its TILE_END (R192, R226). -/
inductive Phase' where
  | merging | reducing | ending | target
  deriving DecidableEq, Repr

/-- A tile whose results are leaving the array. -/
structure Closing where
  slot : Nat
  index : Nat
  entry : TileEntry
  phase : Phase'
  /-- group actions that its phase still waits for -/
  left : Nat
  flags : Nat := 0
  status : Status := .ok
  reserved : Bool := false
  header : WHeader
  /-- converted bytes of its groups, by group number, for provenance -/
  outBytes : List (Nat × Bytes) := []
  deriving DecidableEq, Repr

/-- What a group's port does (R193). `tile` is the closing tile it belongs to. -/
inductive GroupAction where
  | merge (into : Nat)
  | convert (part : Nat)
  | fold (part : Nat)
  | convertTarget
  | spill
  | restore
  deriving DecidableEq, Repr

/-- A port at work: the slot and tile index it works for, and the action. -/
structure PortJob where
  slot : Nat
  index : Nat
  action : GroupAction
  deriving DecidableEq, Repr

/-- A completion record (Table 07-5) with the queue it goes to. -/
structure CmpRec where
  kind : Nat
  flags : Nat
  status : Status
  inst : Nat
  fold : Nat
  ctxId : Nat
  generation : Nat
  rank : Nat
  tile : Nat
  tag : Nat
  time : Nat
  queue : Nat
  /-- generation of the instance under which the work was started (R561) -/
  issued : Nat := 0
  /-- provenance digest of the task, for a sealed task record (R541) -/
  pv : Option (Bytes × Bytes × Nat) := none
  deriving DecidableEq, Repr

/-- One fold: array (Table 05-8), accumulation (06-10), contexts and vector cores (07-8). -/
structure Fold where
  /-- RAMP of ARR_CFG; reset 2 -/
  ramp : Nat := 2
  activePlane : Bool := false
  planes0 : Plane := {}
  planes1 : Plane := {}
  issueHeld : Bool := false
  /-- no row is ready: the stream of the tile on the array is not there -/
  stalled : Bool := false
  /-- slot and tile whose first load the shadow plane holds ahead of that tile's start (R157) -/
  ahead : Option (Nat × Nat) := none
  octets : Nat := 0
  rampingDown : Bool := false
  /-- fold cycles without a broadcast (R165) -/
  idle : Nat := 0
  /-- the penumbra is open on this fold, for how many windows -/
  penumbra : Nat := 0
  penumbraAt : Nat := 0
  shape : Nat := 0
  context : Nat := 0
  /-- the context slot whose tile was last on the array -/
  lastCtx : Option Nat := none
  /-- passes started since the fold's reset (R167) -/
  passesStarted : Nat := 0
  passes : Nat := 0
  checkedPasses : Nat := 0
  issueCycles : Nat := 0
  issueHeldCycles : Nat := 0
  loaderHeldCycles : Nat := 0
  mismatches : Nat := 0
  recovered : Nat := 0
  poisonedTiles : Nat := 0
  tilesAbandoned : Nat := 0
  lastMismatch : Nat := 0
  arrEvent : Nat := 0
  groups : List (Nat × PGroup) := []
  satTiles : Nat := 0
  nanTiles : Nat := 0
  poisonTiles : Nat := 0
  inexactTiles : Nat := 0
  merges : Nat := 0
  spills : Nat := 0
  restores : Nat := 0
  spillEcc : Nat := 0
  accEvent : Nat := 0
  /-- group ports at work, by physical group -/
  ports : List (Nat × Option PortJob) := []
  closing : List Closing := []
  slots : List (Nat × Ctx) := []
  tile : Option Tile := none
  pipe : List InFlight := []
  /-- tiles started, the clock of R210 -/
  tilesStarted : Nat := 0
  /-- completion buffer (R232) and entries reserved -/
  cmp : List CmpRec := []
  cmpReserved : Nat := 0
  tasksDone : Nat := 0
  cmpStall : Nat := 0
  /-- bytes that wait for the digest unit (R542) -/
  digestDue : Nat := 0
  switches : Nat := 0
  containedFaults : Nat := 0
  lastFault : Nat := 0
  vecEvent : Nat := 0
  vcores : List (Nat × VCore) := []
  /-- FAULT_LOG and DISPATCH_TRACE (Table 07-10), newest first -/
  faultLog : List (Nat × Nat × Nat × Nat × Nat) := []
  dispatchTrace : List (Nat × Nat × Nat × Nat × Nat) := []
  /-- FOLD_DEBUG_HOLD taken, waiting for the fold to come to rest (R206): mailbox of the command -/
  holdAsked : Option Nat := none
  /-- mismatches per bin over the current span (R592, R593): bin, CHECKED_PASSES at it -/
  bins : List (Nat × Nat) := []
  deriving DecidableEq, Repr

/-! ## Tasks, barriers, collectors -/

/-- The task descriptor (Table 07-2), parsed. -/
structure TaskDesc where
  kind : Nat
  sr : Bool
  barrierEn : Bool
  reportAll : Bool
  version : Nat
  inst : Nat
  ctxId : Nat
  generation : Nat
  foldMask : Nat
  ranks : Nat
  barrier : Nat
  cq : Nat
  tileCount : Nat
  tag : Nat
  digest : Bytes
  coords : Bytes
  tileList : Nat
  entry : Nat
  args : Nat
  program : Nat
  share : Nat
  physGroups : Nat
  logGroups : Nat
  bundles : Nat
  deriving DecidableEq, Repr

/-- What a rank's tile leaves for its provenance digest. -/
structure TileOut where
  tile : Nat
  rank : Nat
  status : Status
  /-- converted bytes by group number -/
  bytes : List (Nat × Bytes)
  deriving DecidableEq, Repr

/-- The stationary bytes of one plane load. -/
structure PlaneIn where
  tile : Nat
  pass : Nat
  rank : Nat
  bytes : Bytes
  deriving DecidableEq, Repr

/-- A placed task: its ranks' folds and slots, which of them have ended, its status. -/
structure Task where
  desc : TaskDesc
  queue : Nat
  tiles : List (TileEntry × List PassEntry)
  /-- (fold, slot) of each logical rank -/
  ranks : List (Nat × Nat)
  done : List Nat := []
  status : Status := .ok
  /-- the instance's tasks are sealed (R541): the tile list digest and the content of ARGS -/
  sealed : Bool := false
  listDigest : Bytes := []
  argBytes : Bytes := []
  outputs : List TileOut := []
  inputs : List PlaneIn := []
  /-- task records held until PV is complete (R541) -/
  records : List CmpRec := []
  deriving DecidableEq, Repr

/-- What a barrier does when it fires (R235). -/
inductive BarrierAction where
  | none | releaseQueue (q : Nat) | slotEnd (window : Nat)
  deriving DecidableEq, Repr

/-- A hardware barrier (R235). -/
structure Barrier where
  count : Nat := 0
  target : Nat := 0
  action : BarrierAction := .none
  nextTarget : Nat := 0
  deriving DecidableEq, Repr

/-- A completion collector (Table 07-9). -/
structure Collector where
  taken : Nat := 0
  queueFull : Nat := 0
  maxBacklog : Nat := 0
  /-- fold (0 to 15 of the die) it took from last -/
  last : Nat := 15
  deriving DecidableEq, Repr

/-- Dispatcher, barriers and collectors. -/
structure Dispatch where
  tasks : List (Nat × Option Task) := []
  nextTask : Nat := 0
  /-- instance served last among instances 1 to 255 (R228) -/
  lastInst : Nat := 0
  barriers : List (Nat × Barrier) := []
  collectors : List (Nat × Collector) := []
  /-- a partition reset is under way (R238): the faulting instances and contexts, and since when -/
  resetting : List (Nat × Nat) := []
  resetSince : Nat := 0
  /-- task queues that wait for a barrier to release them (R235) -/
  gated : List Nat := []
  /-- records of tasks that ran on no fold, held while their queue is full, oldest first -/
  direct : List CmpRec := []
  /-- barrier additions in order of arrival (R236) -/
  adds : List Nat := []
  deriving DecidableEq, Repr

/-! ## Queues -/

/-- A queue in the state cache (Table 13-7), parsed. -/
structure QCtx where
  type : Nat := 0
  enable : Bool := false
  err : Nat := 0
  log2 : Nat := 4
  group : Nat := 0
  lane : Nat := 0
  cls : Nat := 0
  ring : Nat := 0
  ringOff : Nat := 0
  producer : Nat := 0
  consumer : Nat := 0
  rate : Nat := 0
  burst : Nat := 0
  weight : Nat := 0
  buf : Nat := 0
  /-- bucket in 10^-6 bit, and the time it was last filled -/
  tokens : Nat := 0
  filledAt : Nat := 0
  /-- last activity (R411) -/
  usedAt : Nat := 0
  deficit : Nat := 0
  /-- consumer index at the last QUEUE_COMPLETION; none before the first (R111) -/
  announced : Option Nat := none
  deriving DecidableEq, Repr

/-- The queue state cache, 65,536 entries. -/
structure Queues where
  cached : List (Nat × Option QCtx) := []
  /-- group contexts in use, by group number -/
  groups : List (Nat × Option QCtx) := []
  /-- device time + 1 at which a queue that has been cached before was evicted (R419) -/
  evicted : List (Nat × Nat) := []
  /-- doorbells that wait for room in the cache, oldest first: page, queue and TAIL (R115, R411) -/
  doorbells : List (Nat × Nat × Nat) := []
  deriving DecidableEq, Repr

/-! ## Signal cores -/

/-- A register of a signal core. -/
inductive SReg where
  | x (i : Nat) | y (i : Nat) | s (i : Nat) | p (i : Nat) | n (i : Nat) | cb (i : Nat) | cl (i : Nat)
  deriving DecidableEq, Repr

/-- A value on its way to a register: 16 complex lanes, an accumulation, or a word. -/
inductive SVal where
  /-- 16 lanes of I and Q as 16-bit two's complement -/
  | lanes (v : List (Int × Int))
  /-- products to add to an accumulator, lane by lane -/
  | mac (v : List (Int × Int))
  | word (v : W32)
  deriving DecidableEq, Repr

/-- A result outstanding: written when `left` issue cycles have passed (R249). -/
structure Outstanding where
  reg : SReg
  val : SVal
  left : Nat
  long : Bool
  deriving DecidableEq, Repr

/-- An accumulator Y: 16 lanes of 40-bit I and Q, and SAT (R251). -/
structure YReg where
  lanes : List (Int × Int) := []
  sat : Bool := false
  deriving DecidableEq, Repr

/-- RUN_STATE of SC_STATUS. -/
inductive RunState where
  | halted | running | waiting | inHandler | faulted
  deriving DecidableEq, Repr

/-- Codes of RUN_STATE. -/
def RunState.code : RunState → Nat
  | .halted => 0 | .running => 1 | .waiting => 2 | .inHandler => 3 | .faulted => 4

/-- One signal core (Table 08-1, Table 08-11). Its LDM lies in radio memory (R283). -/
structure SigCore where
  x : List (Nat × List (Int × Int)) := []
  y : List (Nat × YReg) := []
  s : List (Nat × W32) := []
  p : List (Nat × W32) := []
  n : List (Nat × W32) := []
  cb : List (Nat × W32) := []
  cl : List (Nat × W32) := []
  lcnt : List (Nat × Nat) := []
  lbeg : List (Nat × Nat) := []
  lend : List (Nat × Nat) := []
  ipc : Nat := 0
  istat : Nat := 0
  ie : Bool := false
  frozen : Bool := false
  run : RunState := .halted
  /-- address of the next bundle, and of the last one issued -/
  next : Nat := 0
  pc : Nat := 0
  /-- branches taken, oldest first: target, and bundles still to issue before it (R249) -/
  branches : List (Nat × Nat) := []
  pending : Nat := 0
  outstanding : List Outstanding := []
  /-- a store of the previous bundle, written in phase 1 of this cycle (R255): address, bytes -/
  store : Option (Nat × Bytes) := none
  /-- a stall cycle owed: the bank conflict of R256 or a forced phase of R257 -/
  stall : Nat := 0
  satSticky : Bool := false
  /-- the load of L1 that a bank conflict leaves to the stall cycle (R256): register, LDM address, vector -/
  late : Option (SReg × Nat × Bool) := none
  /-- the LDM phases that the last core cycle used, and whether an external access takes phase 0 of the next (R257) -/
  used0 : Bool := false
  used1 : Bool := false
  forced : Bool := false
  /-- cycles until the handler's first bundle (R264) -/
  entry : Nat := 0
  issueCycles : Nat := 0
  bankStalls : Nat := 0
  extStalls : Nat := 0
  interrupts : Nat := 0
  spDeferred : Nat := 0
  ldmCorrected : Nat := 0
  pmCorrected : Nat := 0
  lastFault : Nat := 0
  faultAddr : Nat := 0
  event : Nat := 0
  /-- program memory, 128 KiB -/
  pm : List (Nat × Byte) := []
  deriving DecidableEq, Repr

/-- An external access to an LDM in the inbound crossing of its group (R23, R257), with the core cycles it has waited. -/
structure ExtAccess where
  core : Nat
  src : ExtSource
  waited : Nat := 0
  deriving DecidableEq, Repr

/-! ## Radio engines and cells -/

/-- A job as posted: its 64 bytes and its place in posting order. -/
structure Job where
  bytes : Bytes
  order : Nat
  deriving DecidableEq, Repr

/-- A radio engine (Table 09-16). -/
structure Engine where
  queue : List Job := []
  /-- jobs that their senders hold while the engine's island is gated, in order (R24, R25) -/
  held : List Bytes := []
  busy : Option Job := none
  /-- when the job in progress was taken -/
  started : Nat := 0
  posted : Nat := 0
  jobsDone : Nat := 0
  busyCycles : Nat := 0
  lateJobs : Nat := 0
  crcFails : Nat := 0
  iterations : Nat := 0
  softLost : Nat := 0
  badJobs : Nat := 0
  event : Nat := 0
  deriving DecidableEq, Repr

/-- Cell states of Table 09-4. -/
inductive CellState where
  | unused | admitted | active | reconfiguring | suspended | removing
  deriving DecidableEq, Repr

/-- Codes of Table 09-4. -/
def CellState.code : CellState → Nat
  | .unused => 0 | .admitted => 1 | .active => 2 | .reconfiguring => 3 | .suspended => 4 | .removing => 5

/-- A cell's configuration (Tables 09-3 and 13-3). -/
structure CellCfg where
  lte : Bool := false
  tdd : Bool := false
  mu : Nat := 0
  split : Nat := 0
  bw : Nat := 0
  tx : Nat := 0
  rx : Nat := 0
  dlLayers : Nat := 0
  ulLayers : Nat := 0
  extendedCp : Bool := false
  fhPort : Nat := 0
  arfcn : Nat := 0
  pci : Nat := 0
  shaping : Nat := 0
  tddPeriod : Nat := 0
  sDl : Nat := 0
  sGuard : Nat := 0
  harqMib : Nat := 0
  tddPattern : Nat := 0
  portMode : Nat := 0
  udWidth : Nat := 9
  udComp : Nat := 0
  eaxcBase : Nat := 0
  vlan : Nat := 0
  ruMac : Nat := 0xFFFFFFFFFFFF
  shapingTable : Nat := 0
  deriving DecidableEq, Repr

/-- A symbol that the mask checker is taking up from the messages of a stream (R405): its slot and number, and the samples
so far. -/
structure MaskSymbol where
  slot : Nat
  symbol : Nat
  samples : List (Int × Int) := []
  deriving DecidableEq, Repr

/-- What transmit shaping keeps of a stream (R405): the last samples before shaping, newest first, the symbols that have
begun since one was last checked, and the symbol being taken up. -/
structure Stream where
  past : List (Int × Int) := []
  begun : Nat := 0
  taken : Option MaskSymbol := none
  deriving DecidableEq, Repr

/-- One cell number. -/
structure Cell where
  state : CellState := .unused
  cfg : CellCfg := {}
  /-- configuration a CELL_RECONFIGURE waits to put in force (R279) -/
  next : Option CellCfg := none
  /-- earliest device time at which the next boundary changes it (R278, R279) -/
  notBefore : Nat := 0
  /-- incarnation (R280) -/
  inc : Nat := 0
  /-- object table entry of the soft buffer pool (R292) -/
  pool : Option Nat := none
  /-- served by the neural receiver -/
  nrx : Bool := false
  /-- a suspension waits for the next frame boundary (R332) -/
  suspendDue : Bool := false
  /-- assumed by ASSUME: its first slot is still to come (R599), gap slots counted -/
  assumed : Bool := false
  /-- assumed without its HARQ state (R599) -/
  inherited : Bool := false
  slotsServed : Nat := 0
  slotsMissed : Nat := 0
  slotsSuspended : Nat := 0
  lastMissSlot : Nat := 0
  lastMissStage : Nat := 0
  lastMissCause : Nat := 0
  /-- slots begun and not yet counted, oldest first -/
  open' : List Nat := []
  /-- (slot, stage) already recorded (R331) -/
  missed : List (Nat × Nat) := []
  /-- SEQ_ID expected next per eAxC ID (R399); samples held: slot, symbol of a stream, offset and count (R403) -/
  seqIds : List (Nat × Nat) := []
  held : List (Nat × Nat × Nat × Nat) := []
  /-- the shaping table as read last (R404), and its downlink streams by eAxC ID -/
  shape : Bytes := []
  shaping : List (Nat × Stream) := []
  deriving DecidableEq, Repr

/-- The neural receiver (R297 to R302). -/
structure Nrx where
  /-- cells of the set, ascending -/
  cells : List Nat := []
  model : Option Nat := none
  adapt : Bool := false
  rate : W32 := 0
  clip : W32 := 0
  revert : W32 := 0
  cPrb : Nat := 0
  wSlot : Nat := 0
  loaded : List W32 := []
  master : List W32 := []
  working : List W16 := []
  skips : Nat := 0
  reverts : Nat := 0
  /-- an accepted NRX_LOAD waiting for its slot boundary: cells, model, mailbox, SEQ -/
  pending : Option (List Nat × Option Nat × Nat × Nat) := none
  /-- the arguments of that load: adapt, rate, clip, revert, cPrb, wSlot -/
  pendingArgs : Bool × W32 × W32 × W32 × Nat × Nat := (false, 0, 0, 0, 0, 0)
  /-- (blocks, failures) of the last 2,000 slots, newest first (R301) -/
  history : List (Nat × Nat) := []
  /-- weight format of the working copy -/
  fmt : Nat := 1
  deriving DecidableEq, Repr

/-- The shepherd's settings: those in force and those that the next window puts in force (R335). -/
structure Settings where
  share : Nat := 40
  penumbra : Nat := 20000
  shareNext : Nat := 40
  penumbraNext : Nat := 20000
  deriving DecidableEq, Repr

/-- The shepherd (Table 10-7). -/
structure Shepherd where
  eligible : List Nat := []
  windows : Nat := 0
  slotsServed : Nat := 0
  slotsMissed : Nat := 0
  slotsSuspended : Nat := 0
  missCause : List (Nat × Nat) := []
  /-- LENT_FOLD_US, kept in 1/16,000,000 fold-µs -/
  lentFoldUs : Nat := 0
  /-- PENUMBRA_FOLD_US, kept in ns -/
  penumbraFoldUs : Nat := 0
  event : Nat := 0
  /-- S_w of the windows whose penumbra is open, newest first: window, folds -/
  sets : List (Nat × List Nat) := []
  /-- signal cores of each cell (R313): cell, its first place in 1/64 core, demand; place k lies on the core `cores[k / 64]` -/
  assignment : List (Nat × (Nat × Nat)) := []
  cores : List Nat := []
  deriving DecidableEq, Repr

/-- Cells, engines and the neural receiver. -/
structure Radio where
  cells : List (Nat × Cell) := []
  engines : List (Nat × Engine) := []
  sigCores : List (Nat × SigCore) := []
  /-- inbound crossings of the signal-core groups (Table 01-4), oldest entry first -/
  crossings : List (Nat × List ExtAccess) := []
  nrx : Nrx := {}
  deriving DecidableEq, Repr

/-! ## DMA -/

/-- Progress of a DMA descriptor in an engine's class slot. -/
structure DmaRun where
  chan : Nat
  desc : Bytes
  /-- source bytes read, destination bytes written, the holding register or shuffle buffer -/
  read : Nat := 0
  written : Nat := 0
  buffer : Bytes := []
  /-- whether a poisoned line was read, and what status it gave -/
  status : Status := .ok
  poison : List Bool := []
  halfDone : Bool := false
  stopped : Bool := false
  /-- bytes left of a source and of a destination access that crosses a line (R386) -/
  srcLeft : Nat := 0
  dstLeft : Nat := 0
  deriving DecidableEq, Repr

/-- A DMA channel (Table 12-10). -/
structure DmaChan where
  enable : Bool := false
  pace : Bool := false
  radio : Bool := false
  prio : Nat := 0
  log2 : Nat := 0
  context : Nat := 0
  ownerInst : Nat := 0
  /-- 0 firmware, 1 tier mover, 2 context -/
  ownerKind : Nat := 0
  ringAddr : Nat := 0
  tail : Nat := 0
  head : Nat := 0
  level : Nat := 0
  highWm : Nat := 0
  lowWm : Nat := 0
  paused : Bool := false
  bytes : Nat := 0
  pauses : Nat := 0
  lastStatus : Nat := 0
  /-- descriptors posted and not completed, oldest first -/
  ring : List Bytes := []
  deriving DecidableEq, Repr

/-- A DMA engine (Table 12-9). -/
structure DmaEngine where
  chans : List (Nat × DmaChan) := []
  radioRun : Option DmaRun := none
  grazingRun : Option DmaRun := none
  grazingHeld : Bool := false
  bytesMoved : Nat := 0
  descriptorsDone : Nat := 0
  lineAccesses : Nat := 0
  heldCount : Nat := 0
  errorCount : Nat := 0
  event : Nat := 0
  deriving DecidableEq, Repr

/-! ## Fronthaul -/

/-- A policer's buckets (R424), in 10^-6 bit, and its parameters. -/
structure Policer where
  cfg : PolicerCfg := {}
  tc : Nat := 0
  te : Nat := 0
  at' : Nat := 0
  full : Bool := true
  deriving DecidableEq, Repr

/-- The frame a lane is sending (R414). -/
structure Sending where
  queue : Nat
  desc : Bytes
  frame : Bytes
  /-- when its start-of-frame delimiter left, and the generation of the instance it was started under (R561) -/
  at' : Nat
  issued : Nat
  deriving DecidableEq, Repr

/-- A fronthaul lane (Table 13-13). -/
structure Lane where
  linkUp : Bool := false
  training : Bool := false
  overhead : Nat := 20
  pcpDeiMap : W32 := 0x44444444
  /-- yellow at DSCP 12, 20, 28, 36 and red at 14, 22, 30, 38 -/
  dscpMap : Nat := 0x21002100210021000000
  /-- RW values waiting for the lane's next frame boundary (R426) -/
  overheadNext : Option Nat := none
  pcpNext : Option W32 := none
  dscpNext : Option Nat := none
  txFrames : Nat := 0
  txBytes : Nat := 0
  rxFrames : Nat := 0
  rxBytes : Nat := 0
  rxFcsErr : Nat := 0
  rxUnmatched : Nat := 0
  upLate : Nat := 0
  upSeqGap : Nat := 0
  upFormatErr : Nat := 0
  rxQueueFull : Nat := 0
  rxGreen : Nat := 0
  rxYellow : Nat := 0
  rxRed : Nat := 0
  txDeadlineDrop : Nat := 0
  maskViolations : Nat := 0
  fecCorrected : Nat := 0
  fecUncorrectable : Nat := 0
  policers : List (Nat × Policer) := []
  sending : Option Sending := none
  /-- deficit round-robin: last group served per class -/
  lastGroup : List (Nat × Nat) := []
  lastQueue : List (Nat × Nat) := []
  /-- bytes of ingress frames placed in the port buffer so far -/
  placed : Nat := 0
  txAdj : Int := 0
  rxAdj : Int := 0
  deriving DecidableEq, Repr

/-- A fronthaul port (Table 13-12). -/
structure FhPort where
  mode : Nat := 1
  event : Nat := 0
  deriving DecidableEq, Repr

/-- The fronthaul side. -/
structure Fronthaul where
  ports : List (Nat × FhPort) := []
  lanes : List (Nat × Lane) := []
  deriving DecidableEq, Repr

/-! ## Time -/

/-- Servo states of Table 14-1. -/
inductive Servo where
  | freerun | acquiring | locked | holdover
  deriving DecidableEq, Repr

/-- Codes of Table 14-1. -/
def Servo.code : Servo → Nat
  | .freerun => 0 | .acquiring => 1 | .locked => 2 | .holdover => 3

/-- A time domain (Table 14-5) and its servo. Frequencies are in 2^-16 ppb. -/
structure Domain where
  number : Nat := 24
  enable : Bool := false
  slaveLanes : W32 := 0
  kp : W32 := 0x3DCCCCCD
  ki : W32 := 0x3A83126F
  offsetLast : Int := 0
  meanPath : Nat := 0
  gmClass : Nat := 0
  gmAccuracy : Nat := 0
  gmId : W64 := 0
  updates : Nat := 0
  losses : Nat := 0
  state : Servo := .freerun
  /-- consecutive measurements within LOCK_NS -/
  inLock : Nat := 0
  /-- sum of the offsets since the servo left FREERUN -/
  integral : Int := 0
  correction : Int := 0
  /-- time stamps of the exchange under way: Sync sent and received -/
  syncSent : Option Int := none
  syncSeen : Int := 0
  twoStep : Option (Nat × Int) := none
  /-- when the chosen grandmaster's last Announce came, plus 1; 0 while none is chosen -/
  lastAnnounce : Nat := 0
  /-- corrections taken while LOCKED, newest first, with their times (R437) -/
  history : List (Nat × Int) := []
  /-- its time minus device time, in 2^-16 of 10^-9 ns (R436) -/
  virt : Int := 0
  deriving DecidableEq, Repr

/-- A timing pulse output (R444 to R446). -/
structure Tpo where
  start : Nat := 0
  period : Nat := 0
  width : Nat := 0
  running : Bool := false
  pendingStart : Bool := false
  pulses : Nat := 0
  high : Bool := false
  /-- number of the next pulse, and when the present one falls -/
  nextN : Nat := 0
  fallAt : Nat := 0
  deriving DecidableEq, Repr

/-- A capture input (R447). -/
structure Capture where
  edge : Nat := 0
  lost : Nat := 0
  /-- entries, oldest first, at most 16: time and rising -/
  fifo : List (Nat × Bool) := []
  last : Option Nat := none
  deriving DecidableEq, Repr

/-- The timing subsystem (Table 14-4). -/
structure TimeBlk where
  /-- device time in ns (R427) -/
  now : Nat := 0
  mirrorSelected : Bool := false
  switching : Bool := false
  synceQualified : Bool := false
  everLocked : Bool := false
  autoSwitch : Bool := true
  synceEn : Bool := false
  synceOutEn : Bool := false
  synceLane : Nat := 0
  masterDomain : Nat := 24
  snapSeq : Nat := 0
  snapSec : Nat := 0
  snapNs : Nat := 0
  frameOffset : Int := 0
  domainOffset : Int := 0
  lockNs : Nat := 50
  stepNs : Nat := 1000
  masterLanes : W32 := 0
  freqAdj : Int := 0
  holdoverFreq : Int := 0
  event : Nat := 0
  primary : Domain := {}
  mirror : Domain := { number := 25 }
  /-- the offset alert has fired and not fallen below 80 ns (R440) -/
  alerted : Bool := false
  /-- device time up to which the virtual times are integrated -/
  driftAt : Nat := 0
  tpos : List (Nat × Tpo) := []
  captures : List (Nat × Capture) := []
  deriving DecidableEq, Repr

/-! ## Fabric -/

/-- Link states of Table 15-2. -/
inductive LinkState where
  | disabled | detect | training | check | up | held
  deriving DecidableEq, Repr

/-- Codes of Table 15-2. -/
def LinkState.code : LinkState → Nat
  | .disabled => 0 | .detect => 1 | .training => 2 | .check => 3 | .up => 4 | .held => 5

/-- A packet waiting at an output, with the input port and virtual channel whose buffer holds it (R468); port 32 is this
device. -/
structure Queued where
  inPort : Nat
  inVc : Nat
  packet : Packet
  deriving DecidableEq, Repr

/-- A fabric port (Table 15-10). -/
structure FabPort where
  link : LinkState := .disabled
  phase : Nat := 0
  timingMaster : Bool := false
  heldReason : Nat := 0
  lastStatus : Nat := 0
  lanes : Nat := 0
  neighbourUid : W64 := 0
  neighbourPort : Nat := 0
  neighbourNode : Option Nat := none
  neighbourInc : Nat := 0
  agreed : Nat := 0
  freqOffset : Int := 0
  eye : EyeReading := ⟨0, 0, 0⟩
  fecCorrected : Nat := 0
  fecUncorrectable : Nat := 0
  replays : Nat := 0
  trainFails : Nat := 0
  linkDowns : Nat := 0
  txFlits : Nat := 0
  rxFlits : Nat := 0
  /-- credit counts per virtual channel (R468) -/
  credits : List Nat := [0, 0, 0, 0]
  spoofDrops : Nat := 0
  ceMarks : Nat := 0
  event : Nat := 0
  /-- when it last came UP, and the codewords of the packets sent and not yet acknowledged (R467) -/
  upAt : Nat := 0
  unacked : List Nat := []
  /-- next codeword expected, whether it is awaited again, times of recent uncorrectable ones (R467) -/
  expected : Nat := 0
  awaiting : Bool := false
  badTimes : List Nat := []
  /-- packets waiting at this output, oldest first -/
  out : List Queued := []
  /-- taken down by FAB_PORT_SET; and while its output queues empty after that, until when at most (R495) -/
  takenDown : Bool := false
  closing : Option Nat := none
  /-- input port served last in the request and in the response class (R469) -/
  lastReq : Nat := 32
  lastResp : Nat := 32
  /-- when it entered HELD, or may transmit IDENTIFY again -/
  waitUntil : Nat := 0
  deriving DecidableEq, Repr

/-- A node of the node table (R480). -/
structure Node where
  uid : W64 := 0
  inc : Nat := 0
  live : Bool := false
  versions : List W16 := []
  /-- when it was marked GONE; none while its number is free or LIVE -/
  goneAt : Option Nat := none
  deriving DecidableEq, Repr

/-- The latest LINK_REPORT of an origin (R476). -/
structure Report where
  uid : W64
  links : List LinkInfo
  deriving DecidableEq, Repr

/-- Next-hop sets of one destination (R488). -/
structure Route where
  low : List Nat := []
  high : List Nat := []
  deriving DecidableEq, Repr

/-- The route table of one epoch. -/
structure RouteTable where
  epoch : Nat
  torus : Bool
  routes : List (Nat × Route)
  /-- of each port UP when it was computed: the dimension of its link (3 in MODE 0), and whether the hop takes the upper
  virtual channel, being a dateline or a down link (R486, R487) -/
  hops : List (Nat × (Nat × Bool)) := []
  deriving DecidableEq, Repr

/-- The plan a bellwether waits on (R490). -/
structure Plan where
  epoch : Nat
  acks : List W64
  issued : Nat
  deriving DecidableEq, Repr

/-- Node registers and flock state (Table 15-11). -/
structure Fabric where
  ports : List (Nat × FabPort) := []
  node : Option Nat := none
  bellwether : Bool := false
  nodeConflict : Bool := false
  torusMode : Bool := false
  hint : Nat := 0
  hintValid : Bool := false
  shape : W32 := 0
  bwUid : W64 := 0
  /-- a bellwether has been accepted -/
  accepted : Bool := false
  term : Nat := 0
  vote : Option W64 := none
  voteAt : Nat := 0
  epoch : Nat := 0
  tableVersion : Nat := 0
  unroutable : Nat := 0
  linkLostDrops : Nat := 0
  staleSource : Nat := 0
  epochDrops : Nat := 0
  hopLimitDrops : Nat := 0
  hcrcErrors : Nat := 0
  elections : Nat := 0
  event : Nat := 0
  nodes : List (Nat × Node) := []
  reports : List Report := []
  /-- own flood sequence, and the {ORIGIN, FSEQ} pairs met (R475) -/
  fseq : Nat := 0
  seen : List (Nat × Nat) := []
  parent : Option Nat := none
  lastBeacon : Nat := 0
  /-- route tables held, newest first, at most two -/
  tables : List RouteTable := []
  plan : Option Plan := none
  /-- the committed epoch is in force for sending -/
  committed : Bool := false
  lastCommit : Nat := 0
  /-- changes wait for the next plan -/
  planDue : Bool := false
  /-- last REFRESH per source node (R472), time + 1 -/
  refreshAt : List (Nat × Nat) := []
  /-- packets handed to the responder and the requester and not yet served -/
  inbox : List Packet := []
  /-- those of them that came by a port: they stay in its buffer (R468) -/
  arrivals : List Queued := []
  deriving DecidableEq, Repr

/-! ## Fabric memory -/

/-- Region states of Table 16-3. -/
inductive RState where
  | unused | open' | closing
  deriving DecidableEq, Repr

/-- Codes of Table 16-3. -/
def RState.code : RState → Nat
  | .unused => 0 | .open' => 1 | .closing => 2

/-- A region entry (Table 16-2). -/
structure Region where
  state : RState := .unused
  inst : Nat := 0
  space : Bool := false
  read : Bool := false
  write : Bool := false
  atomic : Bool := false
  keyIndex : Nat := 0
  keyValue : W32 := 0
  base : Nat := 0
  length : Nat := 0
  obj : Nat := 0
  objGen : Nat := 0
  objOffset : Nat := 0
  compat : Bool := false
  /-- CLOSING by INST_FREEZE, so that INST_THAW opens it again (R564) -/
  frozen : Bool := false
  deriving DecidableEq, Repr

/-- A request of this device that waits for its response (R524). -/
structure Request where
  packet : Packet
  sentAt : Nat
  resends : Nat
  /-- every transmission so far met CAPACITY -/
  capacity : Nat
  /-- the FAB_MSG descriptor it belongs to -/
  desc : Nat
  /-- offset of its bytes within the descriptor's LENGTH -/
  offset : Nat
  /-- it is the counter addition of a copy -/
  counter : Bool
  deriving DecidableEq, Repr

/-- A FAB_MSG descriptor under way (R513). -/
structure FabDesc where
  bytes : Bytes
  inst : Nat
  generation : Nat
  queue : Nat
  /-- object and offset of its ring entry, for the write-back -/
  ringObj : Nat
  entry : Nat
  node : Nat
  /-- offsets of packets still to be sent -/
  toSend : List Nat
  status : Status := .ok
  /-- SEQ of its first request, or of the first that failed -/
  firstSeq : Option Nat := none
  result : Nat := 0
  ceSeen : Bool := false
  /-- its flag has been released, or its counter addition sent -/
  released : Bool := false
  postedAt : Nat := 0
  /-- of a collective: the participants, the running values, the contributions in hand by (segment, level) with the offsets
  arrived, the next level of each segment, packets ready to go, and bytes of the result placed -/
  parts : List Nat := []
  value : Bytes := []
  gathered : List ((Nat × Nat) × (Bytes × List Nat)) := []
  progress : List (Nat × Nat) := []
  msgs : List Packet := []
  placed : Nat := 0
  deriving DecidableEq, Repr

/-- What a requester keeps for a destination node. -/
structure Dest where
  nextSeq : Nat := 0
  /-- requests completed above ACK_SEQ -/
  doneSeqs : List Nat := []
  ackSeq : Option Nat := none
  ackDue : Option Nat := none
  window : Nat := 64
  clean : Nat := 0
  deriving DecidableEq, Repr

/-- What a responder keeps for a source node. -/
structure Source where
  inc : Nat := 0
  ackSeq : Option Nat := none
  newSince : Nat := 0
  deriving DecidableEq, Repr

/-- An entry of the replay table (R521). -/
structure Replay where
  src : Nat
  inc : Nat
  seq : Nat
  response : Packet
  at' : Nat
  deriving DecidableEq, Repr

/-- An update waiting at the home of its line (R525): the packet, its offset in its space, and where it goes. -/
structure Waiting where
  space : Bool
  off : Nat
  obj : Nat
  objOff : Nat
  packet : Packet
  deriving DecidableEq, Repr

/-- Fabric memory (Table 16-9). -/
structure FabMem where
  regions : List (Nat × Region) := []
  descs : List (Nat × Option FabDesc) := []
  nextDesc : Nat := 0
  requests : List Request := []
  dests : List (Nat × Dest) := []
  sources : List (Nat × Source) := []
  replay : List Replay := []
  waiting : List Waiting := []
  /-- by queue × 4,096 + node: the earliest STORE, COPY_PUT or STORE_FLAG that ended otherwise than OK (R517) -/
  failed : List (Nat × Option (Nat × Nat × Status)) := []
  hotAt : List (Bool × Nat × Nat) := []
  atomicsApplied : Nat := 0
  replayHits : Nat := 0
  replayFull : Nat := 0
  staleRepeats : Nat := 0
  outcomeUnknown : Nat := 0
  keyMismatches : Nat := 0
  accessDenied : Nat := 0
  compatAccepts : Nat := 0
  hotLines : Nat := 0
  ceResponses : Nat := 0
  lastHotLine : Nat := 0
  event : Nat := 0
  deriving DecidableEq, Repr

/-! ## Provenance -/

/-- Provenance (Table 17-6). -/
structure Prov where
  enabled : Bool := false
  log2 : Nat := 0
  intervalMs : Nat := 0
  logBase : Nat := 0
  tail : Nat := 0
  head : Nat := 0
  interval : Nat := 0
  dropped : Nat := 0
  leaves : Nat := 0
  holdCycles : Nat := 0
  event : Nat := 0
  instances : Nat := 0
  start : Nat := 0
  /-- leaf hashes and drops of the current interval -/
  hashes : List Bytes := []
  droppedNow : Nat := 0
  /-- interval and signature records held while the log is full (R546) -/
  heldRecords : List Bytes := []
  deriving DecidableEq, Repr

/-! ## Ledger and health -/

/-- Bodies of ledger records (Table 19-5): the manual gives their content and no layout. -/
inductive LBody where
  | incReserve (first count : Nat)
  | unitState (old new : Nat) (inc : Nat)
  | retire
  | fence (mode tempBand actBand : Nat)
  | mismatch (last checked : Nat)
  | deadlineMiss (payload : Nat)
  | nrx (cells : List Nat) (slot : Nat) (reversion : Bool)
  | coreRestart (core : Nat) (ecc : Bool)
  | memError (tier address kind : Nat)
  | link (port reason : Nat) (readings : List Nat)
  | patrol (passed : Bool)
  | health (scope old new score : Nat)
  | deficits (device : Nat) (folds : List (Nat × Nat))
  | thermalHist (seconds : List Nat)
  | hbmHist (one two : Nat) (spares : List Nat)
  | power (event cycles : Nat)
  | progress (fields : List Nat)
  | certificate (bytes : Bytes)
  | margin (bytes : Bytes)
  | assume (node mode : Nat) (cells : List Nat)
  deriving DecidableEq, Repr

/-- A ledger record (Table 19-4). -/
structure LRecord where
  type : Nat
  srcType : Nat
  srcIdx : Nat
  seq : Nat
  time : Nat
  timeValid : Bool
  stress : Bool
  body : LBody
  /-- operating point at the event (Table 19-2), where the record carries one -/
  snapshot : Option Bytes := none
  deriving DecidableEq, Repr

/-- A batch as written to flash (Table 19-3). -/
structure LBatch where
  seq : Nat
  devInc : Nat
  prev : Bytes
  records : List LRecord
  /-- signature bytes; none until the security block has signed; empty where it cannot (R617) -/
  signature : Option Bytes
  deriving DecidableEq, Repr

/-- A standing fence of a unit (R594). -/
inductive FenceMode where
  | manager
  | patrol
  | cond (tempBand actBand : Nat)
  deriving DecidableEq, Repr

/-- What the card's flash and the fuses keep over every reset. -/
structure Flash where
  /-- the Obesk image region, its validity is what R606 finds -/
  image : Bytes := []
  /-- written batches, newest first -/
  batches : List LBatch := []
  bytesUsed : Nat := 0
  /-- highest incarnation reserved per unit (R59); the device's own under key 0 -/
  reserved : List (Nat × Nat) := []
  retired : List (Nat × Unit) := []
  fences : List (Nat × List FenceMode) := []
  powerCycles : Nat := 0
  /-- the identity certificate, KIND 1 of Table 20-4 -/
  identityCert : Bytes := []
  deriving DecidableEq, Repr

/-- Fuses (Table 20-1). -/
structure Fuses where
  uid : W64 := 1
  keyHash : List Bytes := []
  revoked : BitVec 4 := 0
  svn : Nat := 0
  idSteps : Nat := 0
  deriving DecidableEq, Repr

/-- Health of one scope. -/
structure Scope where
  /-- deficit, FP32 bits -/
  deficit : W32 := 0
  score : Nat := 0
  cls : Nat := 0
  /-- evidence weight waiting for the next evaluation -/
  fresh : Nat := 0
  lastEvent : Nat := 0
  sinceEvent : Bool := false
  deriving DecidableEq, Repr

/-- Conditional-fence readings of a fold (Table 19-12). -/
structure FoldHealth where
  inBands : Bool := false
  tempBand : Nat := 0
  actBand : Nat := 0
  condBin : Nat := 0
  /-- conditional fences that hold the fold, each as temperature band × 4 + activity band, and since when temperature
  and activity have stayed outside the bands of each (time + 1; 0 while inside) -/
  holding : List Nat := []
  outs : List (Nat × (Nat × Nat)) := []
  deriving DecidableEq, Repr

/-- Health registers (Table 19-12) and evidence. -/
structure Health where
  device : Scope := {}
  folds : List (Nat × Scope) := []
  foldHealth : List (Nat × FoldHealth) := []
  /-- RETEST runs, oldest first: mailbox, SEQ, start; certificates that wait for their signature: mailbox, SEQ, bytes -/
  retests : List (Nat × Nat × Nat) := []
  certifying : List (Nat × Nat × Bytes) := []
  /-- MARGIN_SWEEP runs, oldest first: mailbox, SEQ, fold, arguments -/
  sweeps : List (Nat × Nat × Nat × Bytes) := []
  ledgerSeq : Nat := 0
  ledgerDropped : Nat := 0
  escalations : Nat := 0
  condFenced : List Nat := []
  patrolFails : Nat := 0
  patrolRuns : Nat := 0
  event : Nat := 0
  /-- ledger records waiting for their batch, oldest first, and when the first of them came -/
  waiting : List LRecord := []
  waitingSince : Nat := 0
  /-- batches held while the card has the flash (R662), oldest first -/
  heldBatches : List (List LRecord) := []
  lastEval : Nat := 0
  /-- TIME of the DEFICITS record restored at power-up, until the first lock decays what it gave (R583) -/
  restoredAt : Option Nat := none
  /-- when the device last entered FENCED (R591) -/
  fencedAt : Nat := 0
  /-- certificates signed since the last reset, as DEV_UNFENCE takes them (R591) -/
  certificates : List Bytes := []
  group : Option (Nat × Nat) := none
  /-- ASSUME commands under way, oldest first: mailbox, SEQ, failed node, planned, cells -/
  assuming : List (Nat × Nat × Nat × Bool × List Nat) := []
  /-- LEDGER_READ commands under way, oldest first: mailbox, SEQ, buffer, bytes to copy -/
  reads : List (Nat × Nat × Nat × Bytes) := []
  /-- Table 19-11 counters not kept elsewhere -/
  grazingIssue : Nat := 0
  grazingTasks : Nat := 0
  grazingLost : Nat := 0
  /-- RECOVERY_FOLD_US and FENCED_FOLD_US, kept in ns, and since when each FENCED fold is (time + 1) -/
  recoveryFoldUs : Nat := 0
  fencedFoldUs : Nat := 0
  fencedSince : List (Nat × Nat) := []
  assumeGap : Nat := 0
  since : Nat := 0
  lastPatrol : List (Nat × Nat) := []
  /-- corrected words and codewords waiting for their next unit of evidence (Table 19-1, codes 7, 8, 10) -/
  droopTrips : Nat := 0
  sramWords : Nat := 0
  hbm2 : Nat := 0
  deriving DecidableEq, Repr

/-! ## Security -/

/-- What is waiting for a signature (R617, R618). -/
inductive SignReq where
  | batch (seq : Nat)
  | certificate (bytes : Bytes)
  | quote (tag : Byte) (nonce : Bytes) (mask : W16)
  | root (interval start endAt leaves dropped : Nat) (root : Bytes)
  deriving DecidableEq, Repr

/-- A signed provenance root (R623). -/
structure SignedRoot where
  interval : Nat
  block : Bytes
  signature : Bytes
  deriving DecidableEq, Repr

/-- The security block (Table 20-8). -/
structure Sec where
  bootRecovery : Bool := false
  slot : Nat := 0
  sessionReady : Bool := false
  renewing : Bool := false
  idExhausted : Bool := false
  persistDone : Bool := false
  /-- next identity index, and whether this boot has burned a step (R614) -/
  idNext : Nat := 0
  idUsed : Bool := false
  sessionSeq : Nat := 0
  sessionNext : Nat := 0
  /-- certificate of the current session key -/
  sessionCert : Bytes := []
  /-- certificate of the next key, generated in the background (R616) -/
  nextCert : Option Bytes := none
  quotes : Nat := 0
  signatures : Nat := 0
  quoteRate : Nat := 0
  event : Nat := 0
  rootsUnsigned : Nat := 0
  measures : List (Nat × Bytes) := []
  ext8 : Nat := 0
  ext9 : Nat := 0
  ext10 : Nat := 0
  queue : List SignReq := []
  roots : List SignedRoot := []
  /-- the last interval signed and its root -/
  lastRoot : Option (Nat × Bytes) := none
  /-- times of quotes accepted in the last second -/
  quoteTimes : List Nat := []
  /-- times of signatures made in the last second (R617) -/
  signTimes : List Nat := []
  /-- the image has been verified once since reset, and failed (R607, R608) -/
  tried : Bool := false
  /-- recovery loads under way, oldest first: address, length, report, persist, SEQ -/
  recovery : List (Nat × Nat × Nat × Bool × Nat) := []
  /-- the copy the device boots from or runs, with its PERSIST flag (R608) -/
  recoveryImage : Option (Bytes × Bool) := none
  /-- the image that runs: its SVN, its REVOKE -/
  manifestSvn : Nat := 0
  manifestRevoke : Nat := 0
  deriving DecidableEq, Repr

/-! ## Power, the Fyfoyx link, the package -/

/-- Fyfoyx link states of Table 21-5. -/
inductive FyfState where
  | down | training | active | night | recovery
  deriving DecidableEq, Repr

/-- Codes of Table 21-5. -/
def FyfState.code : FyfState → Nat
  | .down => 0 | .training => 1 | .active => 2 | .night => 3 | .recovery => 4

/-- Line states at the companion (Table 21-7). -/
inductive LineState where
  | invalid | sharedClean | exclusiveClean | exclusiveDirty
  deriving DecidableEq, Repr

/-- Codes of Table 21-7. -/
def LineState.code : LineState → Nat
  | .invalid => 0 | .sharedClean => 1 | .exclusiveClean => 2 | .exclusiveDirty => 3

/-- What waits behind a recall (R642). -/
inductive Held where
  | read (mapping : W32) (offset len : Nat)
  | write (offset : Nat) (data : Bytes)
  | grant (line : Nat) (own : Own)
  | none
  deriving DecidableEq, Repr

/-- What left the device, newest first: the model's record of its outputs. -/
inductive Output where
  | vector (ring : Nat) (addr : W64) (data : W32)
  | heartbeat (restarts : List Nat)
  /-- a completion: not an unsupported-request response, the data, their poison mark -/
  | fyfoyx (ok : Bool) (data : Bytes) (poison : Bool)
  | recall (line : Nat)
  | snoopAnswer (line : Nat) (state : Nat) (data : Bytes)
  | grant (line : Nat) (state : Nat) (data : Bytes)
  | frame (lane : Nat) (bytes : Bytes)
  | eCpri5 (lane : Nat) (payload : Bytes)
  | ptp (lane : Nat) (domain kind : Nat) (time : Nat)
  | esmc (qualified : Bool)
  | identify (port : Nat) (uid : W64)
  | hello (port : Nat) (term : Nat) (bwUid : W64)
  | beacon (term fseq tableVersion epoch : Nat)
  | candidate (term fseq : Nat) (vote : W64)
  | linkReport (fseq : Nat) (links : List LinkInfo)
  | nodeTable (fseq version : Nat) (full : Bool) (entries : List NodeEntry)
  | routePlan (fseq epoch : Nat) (torus : Bool) (root : Nat) (shape : W32) (version : Nat)
  | planAck (epoch : Nat)
  | commit (fseq epoch : Nat)
  | refresh (node : Option Nat) (version : Nat)
  | forward (port : Nat) (msg : Nat) (origin : W64) (fseq : Nat)
  | nak (port : Nat) (cw : Nat)
  | creditReturn (port : Nat) (cw : Nat)
  /-- credits returned to the sender on a virtual channel (R468) -/
  | credits (port vc flits : Nat)
  | replayFrom (port : Nat) (cw : Nat)
  | packet (port : Nat) (p : Packet)
  | request (p : Packet)
  | response (p : Packet)
  /-- a message of the attestation protocol (Table 20-5) -/
  | mctp (message : Bytes)
  | engineDone (core : Nat)
  /-- a request to a unit that does not accept work, completed with NOT_READY at the unit's crossing (R26, R54) -/
  | notReady (u : UnitId)
  | jtag (value : W32)
  | image (inst buffer : Nat) (img : Image)
  | delivered (cell : Nat) (bytes : Nat) (late : Bool)
  deriving DecidableEq, Repr

/-- Message classes of the Fyfoyx link (Table 21-6). -/
inductive FyfClass where
  | request | snoop | response | data
  deriving DecidableEq, Repr

/-- A message that waits for credits of its class (R640): how many it takes. -/
structure FyfMsg where
  cls : FyfClass
  takes : Nat
  out : Output
  deriving DecidableEq, Repr

/-- Power and Fyfoyx registers (Table 21-8). -/
structure Power where
  entering : Bool := false
  waking : Bool := false
  removalReady : Bool := false
  retFolds : W32 := 0
  retCommons : Nat := 0
  retRadio : Bool := false
  nightPorts : W32 := 0
  /-- selections in force since the last entry to NIGHT -/
  retFoldsIn : W32 := 0
  retCommonsIn : Nat := 0
  retRadioIn : Bool := false
  nightPortsIn : W32 := 0
  nightEntries : Nat := 0
  retZeroed : Nat := 0
  tMailboxUs : Nat := 0
  /-- device time at the release of reset -/
  releasedAt : Int := 0
  tFirstHbmUs : Nat := 0
  tAllReadyUs : Nat := 0
  fyf : FyfState := .down
  width : Nat := 0
  fyfDegraded : Bool := false
  fyfAgreed : Nat := 0
  fyfReplays : Nat := 0
  fyfRecoveries : Nat := 0
  fyfDrops : Nat := 0
  /-- credits the device holds for sending, and the messages that wait for some, oldest first (R640) -/
  credits : FyfCredits := {}
  msgs : List FyfMsg := []
  sfRecalls : Nat := 0
  sfPoisoned : Nat := 0
  event : Nat := 0
  flitFails : List Nat := []
  /-- the snoop filter: line, state, order of entry -/
  filter : List (Nat × (LineState × Nat)) := []
  filterOrder : Nat := 0
  /-- recalls outstanding: line and what waits -/
  recalls : List (Nat × List Held) := []
  /-- T2 lines held in the commons, with their bytes (R644) -/
  t2Lines : List (Nat × (LineState × Bytes)) := []
  /-- retained regions' checksums taken at sleep entry: space code, chunk, sum -/
  retainedSums : List (Nat × List (Nat × Nat)) := []
  /-- entry to NIGHT under way: mailbox, SEQ; the POWER_SET full commands that wait for its end (R634) -/
  nightCmd : Option (Nat × Nat) := none
  wakeAfter : List (Nat × Nat) := []
  /-- PREPARE_REMOVAL under way: mailbox, SEQ, evacuate, target, deadline of the drain, of the evacuation -/
  removal : Option (Nat × Nat × Bool × Nat × Nat × Nat) := none
  removing : Bool := false
  deriving DecidableEq, Repr

/-- Pins and supplies (ch 22). -/
structure Package where
  /-- BOARD_RESET_N is high -/
  resetHigh : Bool := false
  /-- the reset of R657, R658 or R664 holds until BOARD_RESET_N has been low -/
  latched : Bool := false
  brakeLow : Bool := false
  warnLow : Bool := false
  tripLow : Bool := false
  flashAsked : Bool := false
  flashGranted : Bool := false
  /-- fold derating in kHz below the nominal clock, by temperature (R664) -/
  derate : Nat := 0
  /-- the part is of grade 1400 (R1), and the fold derating in kHz that holds it within 1,400 W (R3, R28) -/
  grade1400 : Bool := false
  gradeDerate : Nat := 0
  readings : Readings := []
  /-- the operation in the boundary-scan register -/
  jtag : Option Jtag := none
  hotInsertion : Bool := false
  /-- power was applied since the last bring-up; BOARD_RESET_N was released since then (R635, R649) -/
  powerUp : Bool := true
  bringUp : Bool := false
  /-- seconds in each 5 °C band from 20 °C to 120 °C by die and stack, kept in ns, and the time of the last sample + 1
  (Table 19-5) -/
  hist : List (Nat × List (Nat × Nat)) := []
  sampledAt : Nat := 0
  /-- ns above a junction limit towards the next unit of evidence (Table 19-1, code 17) -/
  hotFor : Nat := 0
  deriving DecidableEq, Repr

/-- The device state machine and what belongs to the whole device. -/
structure Dev where
  dstate : DState := .rom
  /-- the state from which FENCED was entered -/
  fencedFrom : DState := .serving
  debugAccess : Bool := false
  cores : List (Nat × CtlCore) := []
  islands : List (Nat × Island) := []
  /-- mailbox served last by cores 2 and 3, and whether core 2's last command was of mailbox 0 (R85) -/
  last2 : Nat := 7
  last3 : Nat := 15
  lastWas0 : Bool := false
  /-- fuses pending at the first DEV_CONFIGURE after this boot are burned -/
  configured : Bool := false
  deriving DecidableEq, Repr

end Sys2Proof.Machine
end

