-- ==== Sys2Proof/Machine/Formats.lean ====
section
/-! DEFINITION. Number formats and narrow arithmetic (chapter 04): decoding of every element and scale format to
exact dyadic numbers, rounding and encoding, the block conversions, stochastic rounding. -/

namespace Sys2Proof.Machine

/-! ## Exact numbers -/

/-- 2 to an integer power, 0 below 1. -/
def pow2 (e : Int) : Nat := if e < 0 then 0 else 2 ^ e.toNat

/-- `n * 2 ^ k` rounded towards zero. -/
def shiftN (n : Nat) (k : Int) : Nat := if k < 0 then n / 2 ^ (-k).toNat else n * 2 ^ k.toNat

/-- Floor of log2 of a positive number. -/
def log2N (n : Nat) : Nat := Nat.log2 n

/-- The sum of two dyadic numbers, exactly. -/
def dyAdd (s1 e1 s2 e2 : Int) : Int × Int :=
  let e := min e1 e2
  (s1 * (pow2 (e1 - e) : Nat) + s2 * (pow2 (e2 - e) : Nat), e)

/-- The comparison of two dyadic numbers: the first is below the second. -/
def dyLt (s1 e1 s2 e2 : Int) : Bool :=
  let e := min e1 e2
  decide (s1 * (pow2 (e1 - e) : Nat) < s2 * (pow2 (e2 - e) : Nat))

/-! ## Binary formats -/

/-- What the all-ones exponent means. -/
inductive Specials where
  | ieee | e4m3 | none
  deriving DecidableEq, Repr

/-- A binary floating-point format: exponent bits, mantissa bits, bias, specials (R117, Table 04-2). -/
structure BFmt where
  ebits : Nat
  mbits : Nat
  bias : Int
  spec : Specials
  deriving DecidableEq, Repr

def fmtBf16 : BFmt := ⟨8, 7, 127, .ieee⟩
def fmtFp16 : BFmt := ⟨5, 10, 15, .ieee⟩
def fmtFp32 : BFmt := ⟨8, 23, 127, .ieee⟩
def fmtFp64 : BFmt := ⟨11, 52, 1023, .ieee⟩
def fmtE4m3 : BFmt := ⟨4, 3, 7, .e4m3⟩
def fmtE5m2 : BFmt := ⟨5, 2, 15, .ieee⟩
def fmtE2m3 : BFmt := ⟨2, 3, 1, .none⟩
def fmtE3m2 : BFmt := ⟨3, 2, 3, .none⟩
def fmtE2m1 : BFmt := ⟨2, 1, 1, .none⟩

/-- Magnitude code of the largest finite number. -/
def BFmt.maxCode (f : BFmt) : Nat :=
  match f.spec with
  | .ieee => (2 ^ f.ebits - 1) * 2 ^ f.mbits - 1
  | .e4m3 => 2 ^ (f.ebits + f.mbits) - 2
  | .none => 2 ^ (f.ebits + f.mbits) - 1

/-- Decode a code of the format (R117, R118: subnormals at their value). -/
def BFmt.decode (f : BFmt) (v : Nat) : Num :=
  let neg := bitOf v (f.ebits + f.mbits)
  let mag := v % 2 ^ (f.ebits + f.mbits)
  let e := mag / 2 ^ f.mbits
  let m := mag % 2 ^ f.mbits
  if f.maxCode < mag then
    (match f.spec with
     | .ieee => if m = 0 then .inf neg else .nan
     | _ => .nan)
  else
    let sig : Int := if e = 0 then (m : Int) else ((m + 2 ^ f.mbits : Nat) : Int)
    let x : Int := (if e = 0 then 1 else (e : Int)) - f.bias - f.mbits
    .fin (if neg then -sig else sig) x

/-- How a discarded part rounds: to nearest with ties to even, or with a random word (R134). -/
inductive Rounding where
  | nearest
  | stochastic (u : Nat)
  deriving DecidableEq, Repr

/-- `n / 2 ^ s` rounded. -/
def roundShift (r : Rounding) (n s : Nat) : Nat :=
  let q := n / 2 ^ s
  let d := n % 2 ^ s
  match r with
  | .nearest => if 2 * d < 2 ^ s then q else if 2 ^ s < 2 * d then q + 1 else q + q % 2
  | .stochastic u => if 2 ^ 32 ≤ d * 2 ^ 32 / 2 ^ s + u then q + 1 else q

/-- The magnitude code of `n * 2 ^ x`, rounded, with no bound on the exponent. -/
def BFmt.roundMag (f : BFmt) (r : Rounding) (n : Nat) (x : Int) : Nat :=
  if n = 0 then 0
  else
    let e := max (x + (log2N n : Int)) (1 - f.bias)
    let k := x - (e - f.mbits)
    let q := if k < 0 then roundShift r n (-k).toNat else n * 2 ^ k.toNat
    (e + f.bias - 1).toNat * 2 ^ f.mbits + q

/-- A sign bit above a magnitude code. -/
def BFmt.withSign (f : BFmt) (neg : Bool) (mag : Nat) : Nat := mag + 2 ^ (f.ebits + f.mbits) * b2n neg

/-- The canonical NaN of a format. -/
def BFmt.nanCode (f : BFmt) : Nat :=
  match f.spec with
  | .ieee => (2 ^ f.ebits - 1) * 2 ^ f.mbits + 2 ^ (f.mbits - 1)
  | _ => 2 ^ (f.ebits + f.mbits) - 1

/-- Encode by IEEE 754 with round to nearest even: overflow gives an infinity (vector arithmetic, R215). -/
def BFmt.encode (f : BFmt) : Num → Nat
  | .nan => f.nanCode
  | .inf neg => f.withSign neg (f.maxCode + 1)
  | .fin sig x =>
    let m := f.roundMag .nearest sig.natAbs x
    f.withSign (decide (sig < 0)) (if f.maxCode < m then f.maxCode + 1 else m)

/-- Output conversion (R131): saturates at the largest finite magnitude; a zero result is +0. Answers the code and
whether it saturated: SAT is set where the rounded magnitude lies beyond the largest finite one (log entry 86). -/
def BFmt.convert (f : BFmt) (r : Rounding) (sig x : Int) : Nat × Bool :=
  let m := f.roundMag r sig.natAbs x
  if f.maxCode < m then (f.withSign (decide (sig < 0)) f.maxCode, true)
  else (if m = 0 then 0 else f.withSign (decide (sig < 0)) m, false)

/-- Output conversion into INT8 (R131): −127 to +127. -/
def convertInt8 (r : Rounding) (sig x : Int) : Nat × Bool :=
  let m := if x < 0 then roundShift r sig.natAbs (-x).toNat else sig.natAbs * 2 ^ x.toNat
  let (m, sat) := if 127 < m then (127, true) else (m, false)
  (ofInt 8 (if sig < 0 then -(m : Int) else m), sat)

/-! ## Format codes (R116, Table 04-1) -/

/-- The code names a format. -/
def fmtValid (c : Nat) : Bool := decide (1 ≤ c ∧ c ≤ 0x10)

/-- Element width in bits. -/
def fmtWidth : Nat → Nat
  | 0x01 | 0x02 => 16
  | 0x03 | 0x04 | 0x05 | 0x06 | 0x07 | 0x0A => 8
  | 0x08 | 0x09 => 6
  | 0x0B | 0x0C => 4
  | 0x0D => 3
  | 0x0E | 0x0F => 2
  | 0x10 => 32
  | _ => 8

/-- Block size, 0 for formats without block scales. -/
def fmtBlock : Nat → Nat
  | 0x06 | 0x07 | 0x08 | 0x09 | 0x0A | 0x0B => 32
  | 0x0D | 0x0E | 0x0F => 16
  | _ => 0

/-- K per weight row. -/
def fmtK : Nat → Nat
  | 0x01 | 0x02 => 16
  | 0x03 | 0x04 | 0x05 | 0x06 | 0x07 | 0x08 | 0x09 | 0x0A => 64
  | 0x0B | 0x0C => 128
  | 0x0D | 0x0E | 0x0F => 256
  | _ => 16

/-- A weight format (Table 04-1). -/
def weightFmt (c : Nat) : Bool := decide (1 ≤ c ∧ c ≤ 0x0F)

/-- Glint lanes apply (R136). -/
def glintFmt (c : Nat) : Bool := decide (c = 0x0B ∨ c = 0x0C ∨ c = 0x0D ∨ c = 0x0E ∨ c = 0x0F)

/-- Allowed pairs of weight and stationary format (R124, Table 04-6). -/
def pairOk (w st : Nat) : Bool :=
  match w with
  | 0x01 => st == 0x01
  | 0x02 => st == 0x02
  | 0x03 | 0x04 => st == 0x03 || st == 0x04
  | 0x05 | 0x0C => st == 0x05
  | 0x06 | 0x07 | 0x08 | 0x09 | 0x0B => st == 0x06 || st == 0x07
  | 0x0A => st == 0x0A
  | 0x0D | 0x0E | 0x0F => st == 0x03 || st == 0x05 || st == 0x06
  | _ => false

/-- Output formats of the array's conversion (R131). -/
def outputFmt (c : Nat) : Bool :=
  decide (c = 0x01 ∨ c = 0x02 ∨ c = 0x03 ∨ c = 0x04 ∨ c = 0x05 ∨ c = 0x10)

/-- The element of a format code (Tables 04-2 to 04-5, R120, R121, R129) before its block scale. -/
def elemVal (c v : Nat) : Num :=
  match c with
  | 0x01 => fmtBf16.decode v
  | 0x02 => fmtFp16.decode v
  | 0x03 | 0x06 => fmtE4m3.decode v
  | 0x04 | 0x07 => fmtE5m2.decode v
  | 0x05 => .fin (toInt 8 v) 0
  | 0x08 => fmtE2m3.decode v
  | 0x09 => fmtE3m2.decode v
  | 0x0A => .fin (toInt 8 v) (-6)
  | 0x0B => fmtE2m1.decode v
  | 0x0C => .fin (toInt 4 v) 0
  | 0x0D => .fin ((if bitOf v 2 then -1 else 1) *
      (match v % 4 with | 0 => 0 | 1 => 1 | 2 => 2 | _ => 4)) 0
  | 0x0E => .fin (match v % 4 with | 0 => -2 | 1 => -1 | 2 => 1 | _ => 2) (-1)
  | 0x0F => .fin (match v % 4 with | 1 => 1 | 3 => -1 | _ => 0) 0
  | 0x10 => fmtFp32.decode v
  | _ => .nan

/-- A block scale: E8M0 for the MX formats, FP8 E4M3 for the Merven formats, 1 for the others (R120, R121). -/
def scaleVal (c v : Nat) : Num :=
  if fmtBlock c = 32 then (if v = 255 then .nan else .fin 1 ((v : Int) - 127))
  else if fmtBlock c = 16 then fmtE4m3.decode v
  else .fin 1 0

/-- The product of two decoded numbers; a NaN or an infinity of either makes it a NaN of the sum (R119). -/
def numMul : Num → Num → Num
  | .fin a x, .fin b y => .fin (a * b) (x + y)
  | _, _ => .nan

/-- The exact sum of two numbers. -/
def numAdd : Num → Num → Num
  | .fin a x, .fin b y => let r := dyAdd a x b y; .fin r.1 r.2
  | _, _ => .nan

/-- The exact sum of a list (R128). -/
def numSum (l : List Num) : Num := l.foldl numAdd (.fin 0 0)

/-- Bit field `w` wide at bit `i` of a byte string (R123). -/
def bitField (bs : Bytes) (i w : Nat) : Nat := fieldAt bs (i / 8) ((i % 8 + w + 7) / 8) / 2 ^ (i % 8) % 2 ^ w

/-- Element `i` of a packed tensor row (R123). -/
def elemCode (fmt : Nat) (row : Bytes) (i : Nat) : Nat := bitField row (i * fmtWidth fmt) (fmtWidth fmt)

/-! ## Glint records (R136, R137) -/

/-- The used slots of a glint record: INDEX and VALUE. -/
def glintSlots (g : Nat) : List (Nat × Nat) :=
  ((List.range 4).map (fun j => (bitsOf g (16 * j) 8, bitsOf g (16 * j + 8) 8))).filter (fun p => p.2 != 0)

/-- A record with an INDEX at or beyond K, or with two used slots naming one INDEX (R137). -/
def glintMalformed (k g : Nat) : Bool :=
  let sl := glintSlots g
  sl.any (fun p => decide (k ≤ p.1)) || (sl.map (fun p => p.1)).eraseDups.length != sl.length

/-- The weights of one weight row as the array takes them: each element's value times its block scale, with glint
values in place (R137). `elems` are the codes, `scales` one byte per block, `glint` the record. -/
def weightRow (fmt : Nat) (elems : List Nat) (scales : List Nat) (glint : Nat) : List Num :=
  let b := fmtBlock fmt
  let sl := if glintFmt fmt then glintSlots glint else []
  elems.zipIdx.map (fun p =>
    let sc := if b = 0 then Num.fin 1 0 else scaleVal fmt (scales.getD (p.2 / b) 0)
    let gs := sl.filter (fun q => q.1 == p.2)
    if gs.isEmpty then numMul (elemVal fmt p.1) sc
    else numSum (gs.map (fun q => numMul (fmtE4m3.decode q.2) sc)))

/-! ## Tensor layout (R125 to R127) -/

/-- Row strides of the element, scale and glint planes (R126). -/
def elemStride (fmt k : Nat) : Nat := ceilDiv (k * fmtWidth fmt) 512 * 64
def scaleStride (fmt k : Nat) : Nat := if fmtBlock fmt = 0 then 0 else ceilDiv (k / fmtBlock fmt) 64 * 64
def glintStride (fmt k : Nat) : Nat := ceilDiv (k / fmtK fmt * 8) 64 * 64

/-- Row stride of the master copy (R126): each row starts on a 64-byte boundary. -/
def masterStride (fmt k : Nat) : Nat := ceilDiv (k * fmtWidth fmt) 512 * 64

/-- Read the weight tensor header. -/
def parseWHeader (b : Bytes) : WHeader :=
  { fmt := byteAt b 0, glint := bitOf (byteAt b 1) 0, master := bitOf (byteAt b 1) 1,
    sampleLog2 := byteAt b 2 % 32, masterFmt := byteAt b 3, guardMin := toInt 8 (byteAt b 4),
    guardMax := toInt 8 (byteAt b 5), rows := fieldAt b 8 4, k := fieldAt b 12 4, elemOff := fieldAt b 16 8,
    scaleOff := fieldAt b 24 8, glintOff := fieldAt b 32 8, masterHandle := fieldAt b 40 8,
    reportHandle := fieldAt b 48 8 }

/-- The header is bad for an object of `size` bytes (R127). -/
def WHeader.bad (h : WHeader) (size : Nat) : Bool :=
  !weightFmt h.fmt || decide (21 ≤ h.sampleLog2 ∧ h.sampleLog2 ≤ 30) ||
  (h.master && !(h.masterFmt == 1 || h.masterFmt == 2 || h.masterFmt == 0x10)) ||
  h.k % fmtK h.fmt != 0 ||
  h.elemOff % 64 != 0 || decide (size < h.elemOff + h.rows * elemStride h.fmt h.k) ||
  (fmtBlock h.fmt != 0 && (h.scaleOff % 64 != 0 || decide (size < h.scaleOff + h.rows * scaleStride h.fmt h.k))) ||
  (h.glint && (h.glintOff % 64 != 0 || decide (size < h.glintOff + h.rows * glintStride h.fmt h.k)))

/-! ## The scale-range guard (R138) -/

/-- What the guard finds in a chunk, to be added to the report area (Table 04-9). -/
structure Guard where
  below : Nat := 0
  above : Nat := 0
  zero : Nat := 0
  nan : Nat := 0
  malformed : Nat := 0
  invalid : Nat := 0
  /-- index of the first block outside the window -/
  first : Option Nat := none
  deriving DecidableEq, Repr

/-- The exponent of a scale (R138): `e − 127` for E8M0, the floor of log2 for a nonzero E4M3 scale. -/
def scaleExp (fmt v : Nat) : Option Int :=
  match scaleVal fmt v with
  | .fin s x => if s = 0 then none else some (x + (log2N s.natAbs : Int))
  | _ => none

/-- One block scale seen by the guard; `i` is its block index. -/
def Guard.scale (g : Guard) (h : WHeader) (v i : Nat) : Guard :=
  match scaleVal h.fmt v with
  | .fin s _ =>
    if s = 0 then { g with zero := g.zero + 1 }
    else
      match scaleExp h.fmt v with
      | some e =>
        if e < h.guardMin then { g with below := g.below + 1, first := some (g.first.getD i) }
        else if h.guardMax < e then { g with above := g.above + 1, first := some (g.first.getD i) }
        else g
      | none => g
  | _ => { g with nan := g.nan + 1 }

/-! ## Conversion into block formats (R132, R133) -/

/-- The element format of an MX code and its largest element exponent E. -/
def mxElem : Nat → Option (BFmt × Int)
  | 0x06 => some (fmtE4m3, 8)
  | 0x07 => some (fmtE5m2, 15)
  | 0x08 => some (fmtE2m3, 2)
  | 0x09 => some (fmtE3m2, 4)
  | 0x0B => some (fmtE2m1, 2)
  | _ => none

/-- The largest magnitude of a list of finite numbers, as a dyadic number. -/
def maxMag (l : List (Int × Int)) : Nat × Int :=
  l.foldl (fun a p => if dyLt a.1 a.2 p.1.natAbs p.2 then (p.1.natAbs, p.2) else a) (0, 0)

/-- The finite parts of a list of numbers, none if one is a NaN or an infinity. -/
def allFinite : List Num → Option (List (Int × Int))
  | [] => some []
  | .fin s x :: r => (allFinite r).map (fun l => (s, x) :: l)
  | _ :: _ => none

/-- One element of an MX block: the quotient by the scale, rounded under R131 and saturated. -/
def mxCode (fmt : Nat) (r : Rounding) (sig x scaleExp : Int) : Nat :=
  match mxElem fmt with
  | some (f, _) => (f.convert r sig (x - scaleExp)).1
  | none => (convertInt8 r sig (x - scaleExp + 6)).1

/-- Conversion into an MX format: the E8M0 scale and the element codes (R132); `rs` rounds each element. -/
def toMxBlock (fmt : Nat) (rs : List Rounding) (vs : List Num) : Nat × List Nat :=
  match allFinite vs with
  | none => (255, vs.map (fun _ => 0))
  | some l =>
    let a := maxMag l
    let e := (mxElem fmt).elim 0 (fun p => p.2)
    let s : Int := if a.1 = 0 then -127 else max (a.2 + (log2N a.1 : Int) - e) (-127)
    ((s + 127).toNat, l.zipIdx.map (fun p => mxCode fmt (rs.getD p.2 .nearest) p.1.1 p.1.2 s))

/-- L max of a Merven format. -/
def lmax (fmt : Nat) : Nat := if fmt = 0x0D then 4 else 1

/-- Twice the levels of a Merven format with their codes; M3 lists the zero the device writes (R122). -/
def levels2 : Nat → List (Int × Nat)
  | 0x0D => [(0, 0), (2, 1), (4, 2), (8, 3), (-2, 5), (-4, 6), (-8, 7)]
  | 0x0E => [(-2, 0), (-1, 1), (1, 2), (2, 3)]
  | _ => [(0, 0), (2, 1), (-2, 3)]

/-- The smallest non-negative E4M3 code whose value is not below `a / L max`, none above 448 (R133). -/
def mervenScale (fmt : Nat) (a : Nat) (x : Int) : Option Nat :=
  (List.range 127).find? (fun c =>
    match fmtE4m3.decode c with
    | .fin s y => !dyLt (s * lmax fmt) y a x
    | _ => false)

/-- The code of the level nearest to `sig * 2 ^ x / (s * 2 ^ y)`; a tie goes to the even code (R133). -/
def mervenCode (fmt : Nat) (sig x s y : Int) : Nat :=
  -- distances are compared as |2 v - L s| over a common exponent
  let e := min (x + 1) y
  let v := sig * (pow2 (x + 1 - e) : Nat)
  let sc := s * (pow2 (y - e) : Nat)
  let best := (levels2 fmt).foldl (fun (b : Option (Nat × Nat)) p =>
    let d := (v - p.1 * sc).natAbs
    match b with
    | none => some (d, p.2)
    | some (d', c') => if d < d' ∨ (d = d' ∧ p.2 % 2 = 0 ∧ c' % 2 = 1) then some (d, p.2) else b) none
  (best.getD (0, 0)).2

/-- The code that a zero quotient takes. -/
def zeroCode (fmt : Nat) : Nat := if fmt = 0x0E then 2 else 0

/-- Conversion into a Merven format: the E4M3 scale and the codes, none where it is refused with BAD_ARG (R133). A
block with a NaN or an infinity has no largest magnitude, and is refused too (log entry 9). -/
def toMervenBlock (fmt : Nat) (vs : List Num) (glints : List Nat) : Option (Nat × List Nat) :=
  match allFinite ((vs.zipIdx.filter (fun p => !glints.contains p.2)).map (fun p => p.1)) with
  | none => none
  | some l =>
    let a := maxMag l
    match mervenScale fmt a.1 a.2 with
    | none => none
    | some c =>
      let code := fun (n : Num) =>
        match n, fmtE4m3.decode c with
        | .fin s x, .fin sc y => if sc = 0 then zeroCode fmt else mervenCode fmt s x sc y
        | _, _ => zeroCode fmt
      some (c, vs.zipIdx.map (fun p => if glints.contains p.2 then zeroCode fmt else code p.1))

/-- Pack element codes without gaps (R123). -/
def packCodes (fmt : Nat) (codes : List Nat) : Bytes :=
  let w := fmtWidth fmt
  leBytes ((codes.length * w + 7) / 8) ((codes.zipIdx.map (fun p => p.1 % 2 ^ w * 2 ^ (p.2 * w))).sum)

/-! ## Seeded stochastic rounding (R134, R135) -/

/-- The function mix of R135. -/
def mix (z : W64) : W64 :=
  let z := (z ^^^ (z >>> 30)) * 0xBF58476D1CE4E5B9#64
  let z := (z ^^^ (z >>> 27)) * 0x94D049BB133111EB#64
  z ^^^ (z >>> 31)

/-- SEED of a task: from its program digest and tile coordinates. -/
def roundingSeed (digest coords : Bytes) : W64 :=
  BitVec.ofNat 64 (leNat (shakeTag 8 [0x4D, 0x56, 0x4E, 0x2D, 0x53, 0x52] (digest ++ coords)))

/-- The random word of element `i`. -/
def randomWord (seed : W64) (i : Nat) : Nat :=
  (mix (seed + BitVec.ofNat 64 (i * 0x9E3779B97F4A7C15))).toNat / 2 ^ 32

/-! ## IEEE arithmetic of the vector cores (R215) -/

/-- Integer square root by binary digits, `n` digits. -/
def isqrtFrom : Nat → Nat → Nat → Nat
  | 0, _, r => r
  | n + 1, v, r => let r' := r + 2 ^ n; isqrtFrom n v (if r' * r' ≤ v then r' else r)

def isqrt (v : Nat) : Nat := isqrtFrom (Nat.log2 v / 2 + 1) v 0

/-- The sign of a zero or nonzero code. -/
def BFmt.negCode (f : BFmt) (v : Nat) : Bool := bitOf v (f.ebits + f.mbits)

/-- A finite result with the sign an exact zero takes. -/
def BFmt.encodeZ (f : BFmt) (negZero : Bool) (n : Num) : Nat :=
  match n with
  | .fin 0 _ => f.withSign negZero 0
  | n => f.encode n

/-- IEEE 754 addition, round to nearest even. -/
def BFmt.add (f : BFmt) (a b : Nat) : Nat :=
  match f.decode a, f.decode b with
  | .nan, _ | _, .nan => f.nanCode
  | .inf s, .inf t => if s = t then a else f.nanCode
  | .inf _, _ => a
  | _, .inf _ => b
  | .fin s x, .fin t y =>
    let r := dyAdd s x t y
    f.encodeZ (f.negCode a && f.negCode b) (.fin r.1 r.2)

/-- Negation of a code. -/
def BFmt.neg (f : BFmt) (a : Nat) : Nat := f.withSign (!f.negCode a) (a % 2 ^ (f.ebits + f.mbits))

/-- IEEE 754 multiplication. -/
def BFmt.mul (f : BFmt) (a b : Nat) : Nat :=
  let neg := xor (f.negCode a) (f.negCode b)
  match f.decode a, f.decode b with
  | .nan, _ | _, .nan => f.nanCode
  | .inf _, .fin t _ | .fin t _, .inf _ => if t = 0 then f.nanCode else f.encode (.inf neg)
  | .inf _, .inf _ => f.encode (.inf neg)
  | .fin s x, .fin t y => f.encodeZ neg (.fin (s * t) (x + y))

/-- Fused multiply-add, one rounding. -/
def BFmt.fma (f : BFmt) (a b c : Nat) : Nat :=
  let neg := xor (f.negCode a) (f.negCode b)
  match f.decode a, f.decode b, f.decode c with
  | .nan, _, _ | _, .nan, _ | _, _, .nan => f.nanCode
  | .fin s x, .fin t y, .fin u z =>
    let r := dyAdd (s * t) (x + y) u z
    f.encodeZ (neg && f.negCode c) (.fin r.1 r.2)
  | .fin _ _, .fin _ _, .inf _ => c
  | .inf _, .fin t _, z | .fin t _, .inf _, z =>
    if t = 0 then f.nanCode
    else (match z with | .inf w => if w = neg then c else f.nanCode | _ => f.encode (.inf neg))
  | .inf _, .inf _, z => (match z with | .inf w => if w = neg then c else f.nanCode | _ => f.encode (.inf neg))

/-- A quotient or root with a sticky bit below it, enough digits for any format here. -/
def BFmt.div (f : BFmt) (a b : Nat) : Nat :=
  let neg := xor (f.negCode a) (f.negCode b)
  match f.decode a, f.decode b with
  | .nan, _ | _, .nan => f.nanCode
  | .inf _, .inf _ => f.nanCode
  | .inf _, _ => f.encode (.inf neg)
  | _, .inf _ => f.withSign neg 0
  | .fin s x, .fin t y =>
    if t = 0 then (if s = 0 then f.nanCode else f.encode (.inf neg))
    else
      let n := s.natAbs * 2 ^ 128
      let q := 2 * (n / t.natAbs) + b2n (n % t.natAbs != 0)
      f.withSign neg (f.encode (.fin q (x - y - 129)))

/-- IEEE 754 square root. -/
def BFmt.sqrt (f : BFmt) (a : Nat) : Nat :=
  match f.decode a with
  | .nan => f.nanCode
  | .inf neg => if neg then f.nanCode else a
  | .fin s x =>
    if s = 0 then a
    else if s < 0 then f.nanCode
    else
      let k : Nat := if x % 2 = 0 then 256 else 257
      let n := s.natAbs * 2 ^ k
      let r := isqrt n
      f.encode (.fin (2 * r + b2n (r * r != n) : Nat) ((x - k) / 2 - 1))

/-- `a < b` on finite or infinite codes. -/
def numLt : Num → Num → Bool
  | .fin s x, .fin t y => dyLt s x t y
  | .inf true, .fin _ _ | .inf true, .inf false | .fin _ _, .inf false => true
  | _, _ => false

/-- Minimum and maximum; a NaN gives the canonical NaN. -/
def BFmt.min (f : BFmt) (a b : Nat) : Nat :=
  match f.decode a, f.decode b with
  | .nan, _ | _, .nan => f.nanCode
  | x, y => if numLt y x then b else a

def BFmt.max (f : BFmt) (a b : Nat) : Nat :=
  match f.decode a, f.decode b with
  | .nan, _ | _, .nan => f.nanCode
  | x, y => if numLt x y then b else a

end Sys2Proof.Machine
end

