-- ==== Sys2Proof/Machine/Flags.lean ====
section
/-! DEFINITION. Accumulators: the one rounding rule of R182 and R183, their flags (R184, R185), addition, the
comparisons of MAX and MIN (R204), output conversion (R131, R205) and the spill record (Table 06-8). -/

namespace Sys2Proof.Machine

/-! ## Alignment (R182, R183) -/

/-- The smallest `q` at which the floor of `sig * 2 ^ exp / 2 ^ q` fits 64 bits, for a nonzero value. -/
def alignQ (sig exp : Int) : Int :=
  let n := sig.natAbs
  let l : Int := (log2N n : Int)
  if sig < 0 ∧ n = 2 ^ log2N n then l + exp - 63 else l + exp - 62

/-- The exponent R182 keeps. -/
def keptQ (sig exp : Int) : Int := max (alignQ sig exp) (-2048)

/-- The R182 value of an exact sum, or the saturated one of R183. -/
def alignVal (sig exp : Int) : Val :=
  if sig = 0 then {}
  else
    let q := keptQ sig exp
    if 2047 < q then { sig := if 0 < sig then 2 ^ 63 - 1 else -2 ^ 63, exp := 2047, sat := true }
    else if q ≤ exp then { sig := sig * (2 ^ (exp - q).toNat : Nat), exp := q }
    else
      let d : Int := (2 ^ (q - exp).toNat : Nat)
      { sig := sig / d, exp := q, inexact := decide (sig % d ≠ 0) }

/-- An alignment node of a tree (R196): the R182 value of the sum of its two inputs, with their flags. -/
def Val.node (a b : Val) : Val :=
  let s := dyAdd a.sig a.exp b.sig b.exp
  let v := alignVal s.1 s.2
  { v with nan := a.nan || b.nan, sat := v.sat || a.sat || b.sat, inexact := v.inexact || a.inexact || b.inexact }

/-- The weight of the lowest bit an alignment node keeps: 2 to its `q`, nothing for a zero sum (R170, R201). -/
def nodeWeight (a b : Val) : Int × Int :=
  let s := dyAdd a.sig a.exp b.sig b.exp
  if s.1 = 0 then (0, 0) else (1, keptQ s.1 s.2)

/-! ## Accumulators (R181, R183, R184, R197) -/

/-- A value enters an accumulator (R197): the R182 value of the sum; a saturated accumulator keeps its value, and
so does one whose value a NaN has left undefined. -/
def Acc.add (x : Acc) (v : Val) (poison : Bool) : Acc :=
  let s := dyAdd x.sig x.exp v.sig v.exp
  let r := alignVal s.1 s.2
  let keep := x.sat || x.nan || v.nan
  { x with
      sig := if keep then x.sig else r.sig
      exp := if keep then x.exp else r.exp
      sat := x.sat || v.sat || (!keep && r.sat)
      poison := x.poison || poison
      nan := x.nan || v.nan
      inexact := x.inexact || v.inexact || (!keep && r.inexact) }

/-- An accumulator's content as a value. -/
def Acc.val (x : Acc) : Val := { sig := x.sig, exp := x.exp, nan := x.nan, sat := x.sat, inexact := x.inexact }

/-- Merging and the SUM combination of ranks (R192, R226): the R182 value of the sum, flags ORed. -/
def Acc.merge (x y : Acc) : Acc := x.add y.val y.poison

/-- The flags of an accumulator, in the order of FLAGS of Table 07-5. -/
def Acc.flags (x : Acc) : Nat := b2n x.sat + 2 * b2n x.poison + 4 * b2n x.nan + 8 * b2n x.inexact

/-- The OR of the flags of a group's accumulators (R185). -/
def groupFlags (accs : List (Nat × Acc)) : Nat := accs.foldl (fun f p => f ||| p.2.flags) 0

/-- Another accumulator's flags ORed in (R204). -/
def Acc.orFlags (x y : Acc) : Acc :=
  { x with sat := x.sat || y.sat, poison := x.poison || y.poison, nan := x.nan || y.nan,
           inexact := x.inexact || y.inexact }

/-! ## Maximum and minimum (R202 to R204) -/

def modeIdx (mode : Nat) : Bool := mode == 3 || mode == 4
def modeMax (mode : Nat) : Bool := mode == 1 || mode == 3

/-- The value of `x` takes an entry that holds `e` at a position: strictly better, or equal and earlier. -/
def betterThan (mode : Nat) (x e : Acc) (pos held : Nat) : Bool :=
  let lt := dyLt x.sig x.exp e.sig e.exp
  let gt := dyLt e.sig e.exp x.sig x.exp
  if modeMax mode then gt || (!lt && !gt && modeIdx mode && decide (pos < held))
  else lt || (!lt && !gt && modeIdx mode && decide (pos < held))

/-- Fold one source accumulator with its position into the entry `b` of a target group (R204); a saturated entry keeps
its value (R183). -/
def foldEntry (mode b pos : Nat) (x : Acc) (t : List (Nat × Acc)) : List (Nat × Acc) :=
  let ei := if modeIdx mode then 2 * b else b
  let e := tget {} t ei
  let held := (tget {} t (ei + 1)).sig.toNat
  let takes := !e.sat && (!e.taken || betterThan mode x e pos held)
  let e' : Acc := if takes then { e with sig := x.sig, exp := x.exp, taken := true } else e
  let t := tset {} t ei (e'.orFlags x)
  if modeIdx mode && takes then tmod {} t (ei + 1) (fun p => { p with sig := (pos : Int), exp := 0, taken := true }) else t

/-- The combination of two ranks' entries of a group that is not in SUM mode (R226): R204 with the lower position
winning a tie, over whole groups. -/
def combineEntry (mode : Nat) (t u : List (Nat × Acc)) (i : Nat) : List (Nat × Acc) :=
  let ei := if modeIdx mode then 2 * i else i
  let y := tget {} u ei
  if y = {} then t
  else if !y.taken then tset {} t ei ((tget {} t ei).orFlags y)
  else foldEntry mode i (tget {} u (ei + 1)).sig.toNat y t

/-- The groups of rank r with those of rank r + 2^l taken in, for ascending index (R226). -/
def combineGroups (mode : Nat) (t u : List (Nat × Acc)) : List (Nat × Acc) :=
  if mode = 0 then u.foldl (fun t p => tset {} t p.1 ((tget {} t p.1).merge p.2)) t
  else (u.map (fun p => if modeIdx mode then p.1 / 2 else p.1)).eraseDups.foldl (fun t i => combineEntry mode t u i) t

/-! ## Output conversion (R131, R134, R205) -/

/-- The binary format of an output code; INT8 has none. -/
def outputBFmt : Nat → Option BFmt
  | 0x01 => some fmtBf16 | 0x02 => some fmtFp16 | 0x03 => some fmtE4m3 | 0x04 => some fmtE5m2
  | 0x10 => some fmtFp32
  | _ => none

/-- Convert one accumulator (R131): the code and whether it went beyond the output range. -/
def Acc.convert (fmt : Nat) (r : Rounding) (x : Acc) : Nat × Bool :=
  match outputBFmt fmt with
  | some f => if x.nan then (f.nanCode, false) else f.convert r x.sig x.exp
  | none => if x.nan then (0, false) else convertInt8 r x.sig x.exp

/-- The rounding of output element `i`: stochastic with the task's seed, or to nearest (R134, R135). -/
def rounding (seed : Option W64) (i : Nat) : Rounding :=
  match seed with
  | some z => .stochastic (randomWord z i)
  | none => .nearest

/-- Convert accumulators `lo` to `lo + n - 1` of a group whose first output element is number `base`: the bytes
and whether any saturated. -/
def convertRange (fmt : Nat) (seed : Option W64) (accs : List (Nat × Acc)) (base n : Nat) : Bytes × Bool :=
  (List.range n).foldl (fun (o : Bytes × Bool) i =>
    let c := (tget ({} : Acc) accs i).convert fmt (rounding seed (base + i))
    (o.1 ++ leBytes (fmtWidth fmt / 8) c.1, o.2 || c.2)) ([], false)

/-- Convert an index-mode target: 2,048 records of a value in FP32 and a position (R205). -/
def convertIndexed (seed : Option W64) (accs : List (Nat × Acc)) : Bytes × Bool :=
  (List.range 2048).foldl (fun (o : Bytes × Bool) i =>
    let e := tget ({} : Acc) accs (2 * i)
    let p := tget ({} : Acc) accs (2 * i + 1)
    if !e.taken || e.nan then (o.1 ++ leBytes 4 0x7FC00000 ++ leBytes 4 0xFFFFFFFF, o.2)
    else
      let c := e.convert 0x10 (rounding seed i)
      (o.1 ++ leBytes 4 c.1 ++ leBytes 4 p.sig.toNat, o.2 || c.2)) ([], false)

/-- Convert a target group (R205). Its elements have no place in the tile, and their index for R135 is the number of the
entry (log entry 86). -/
def convertTarget (fmt mode : Nat) (seed : Option W64) (accs : List (Nat × Acc)) : Bytes × Bool :=
  if modeIdx mode then convertIndexed seed accs else convertRange fmt seed accs 0 4096

/-! ## Spill records (R209, Table 06-8) -/

/-- The 16 bytes of an accumulator: bits 79 to 0 of Table 06-1, VALID, zeros. `free` stands for the significand and
exponent that a NaN leaves undefined. -/
def Acc.record (x : Acc) (mode : Nat) (free : BitVec 76) : Bytes :=
  let v := if x.nan then free.toNat else ofInt 64 x.sig + 2 ^ 64 * ofInt 12 x.exp
  leBytes 10 (v + 2 ^ 76 * x.flags) ++ [BitVec.ofNat 8 (b2n (mode == 0 || x.taken))] ++ List.replicate 5 0#8

/-- The accumulator a spill record holds. -/
def accOfRecord (b : Bytes) (mode : Nat) : Acc :=
  let v := fieldAt b 0 10
  { sig := toInt 64 v, exp := toInt 12 (v / 2 ^ 64), sat := bitOf v 76, poison := bitOf v 77, nan := bitOf v 78,
    inexact := bitOf v 79, taken := mode != 0 && bitOf (byteAt b 10) 0 }

end Sys2Proof.Machine
end

