-- ==== Sys2Proof/Config.lean ====
section
/-! DEFINITION. What an implementation of the Chelos M16 fixes and the spec leaves open: named constants the
model chose (each in the assumption log) and free values, which are opaque: nothing can evaluate them. -/

namespace Sys2Proof.Config

/-! ## Free values -/

/-- The fresh free value number `n` (log entry 1): read at the counter `State.fresh`. -/
opaque freeValue : Nat → BitVec 64

/-- The signature the security block makes with signing index `i` of the key that `key` names over a byte
string (R613 to R617): the algorithm is a published standard and its bytes depend on secrets. -/
opaque sign (key : Nat) (index : Nat) (message : Bytes) : Bytes

/-- The public key of a key of the security block (R604): 68 bytes that depend on secrets. -/
opaque publicKey (key : Nat) : Bytes

/-- Whether a byte string verifies under a vendor key hash (R606): the published algorithm's verdict. -/
opaque verify (keyHash : Bytes) (message signature : Bytes) : Bool

/-- The digest of the boot ROM (R611, M0): 32 bytes that silicon fixes. -/
opaque romDigest : Bytes

/-- The reciprocal RCP and the inverse square root RSQ of a signal core (Table 08-3): a result of 24 bits, whose value the
spec does not state. -/
opaque scRcp : BitVec 32 → BitVec 24
opaque scRsq : BitVec 32 → BitVec 24

/-- What the 48-bit slots of a bundle in program memory say (Table 08-2); none for a reserved or illegal encoding. The
encodings belong to the Obesk image (R246), and no rule states one. -/
opaque slotC : BitVec 48 → Option COp
opaque slotA : BitVec 48 → Option AOp
opaque slotM : BitVec 48 → Option MOp
opaque slotL0 : BitVec 48 → Option LOp
opaque slotL1 : BitVec 48 → Option LOp

/-- One output sample, in 24-bit internal precision, of the transform of a block of samples (R291): the manual gives the
precision and not the arithmetic between. -/
opaque dft (inverse : Bool) (block : List (Int × Int)) (i : Nat) : BitVec 24 × BitVec 24

/-- The symbols of an inverse transform overlapped over a raised-cosine window (Table 09-11). -/
opaque window (length cyclic : Nat) (symbols : List (List (Int × Int))) : List (Int × Int)

/-- Of a cell, by its bandwidth in 100 kHz and its subcarrier spacing in kHz: the points of its transform, which with the
spacing give its sample rate (R404, R405), whether a bin of it lies in the channel, and the samples of its windowing
overlap (R406); the manual gives none of them (log entry 91). -/
opaque cellPoints (bw scs : Nat) : Nat
opaque channelBin (bw scs bin : Nat) : Bool
opaque cellOverlap (bw scs : Nat) : Nat

/-- What R290 takes from TS 38.212, TS 36.212 and TS 38.211 (log entry 89): the LLR at a place of a circular buffer after
descrambling and rate recovery, the length that limited buffer rate matching leaves, the shift of a base graph at a lifting
size, row and column, the place of a turbo stream in a circular buffer, the two factors of its interleaver, and the output
of an encoder other than the convolutional one. -/
opaque recovered (job input : Bytes) (block i : Nat) : BitVec 8
opaque lbrmSize (job : Bytes) : Nat
opaque baseEntry (graph lift row column : Nat) : Option Nat
opaque turboPlace (k stream i : Nat) : Nat
opaque qpp (k : Nat) : Nat × Nat
opaque encoded (job input : Bytes) : Bytes

/-- A path that survives a polar decoder's list: its metric, and its bits (R291). -/
opaque polarPath (job input : Bytes) (path : Nat) : Nat × (Nat → Bool)

/-- CRC_OK of a convolutional decode of a block that carries no CRC (Table 09-10): the manual states none. -/
opaque crcOkWithout : Bool

/-- Where in radio memory the firmware keeps its copy of a fold's share of the radio context (R66). -/
opaque radioCopy : Nat

/-- The decay of a health deficit over `dt` nanoseconds (R582): the spec gives the half-life and no rounding of
the exponential. -/
opaque decay (deficit : BitVec 32) (dt : Nat) : BitVec 32

/-- The row of a stack that holds a byte of HBM, and the bank of a row (R369): the spec gives no geometry. -/
opaque hbmRow (address : Nat) : Nat
opaque hbmBank (row : Nat) : Nat

/-- The 64 KiB chunks of HBM that a row serves (R369). -/
opaque rowChunks (row : Nat) : List Nat

/-- What Obesk sets for DMA channel `c` of engine `e` (R374, R382): the manual leaves it to Obesk. Class (of the firmware
channels of engines 0 to 31) and pacing, priority, ring address and size, watermarks. -/
opaque dmaRadio (e c : Nat) : Bool
opaque dmaPace (e c : Nat) : Bool
opaque dmaPrio (e c : Nat) : Nat
opaque dmaRing (e c : Nat) : Nat
opaque dmaLog2 (e c : Nat) : Nat
opaque dmaHigh (e c : Nat) : Nat
opaque dmaLow (e c : Nat) : Nat

/-- Bytes of an instance image beyond those the manual sizes (Table 18-6): contexts, tasks and lists of poisoned lines,
by the numbers of contexts, tasks and poisoned lines. -/
opaque imageRest (contexts tasks lines : Nat) : Nat

/-- CLASS_STRING of the device (R67, R670): "BIC 3.1/A", NUL-padded to 16 bytes, first byte lowest. -/
def classString : BitVec 128 := 0x412F312E3320434942

/-- Where a device places the register block of a unit, by its key: the first 4 KiB page among the unit register blocks of
the control window (R34). The Peloth table of a device gives the places, the manual none (log entry 3). -/
opaque regPlace : Nat → Nat

/-- Bytes from one vector instruction to the next (Table 07-10): the manual gives no instruction encoding. -/
opaque vecInstrBytes : Nat

/-! ## Constants the model names (DESIGN CHOICE, each in the log) -/

/-- The Fyfoyx requester identity of the manager (log entry 2). -/
def managerMapping : BitVec 32 := 0x0100#32

/-- The identity under which the firmware writes doorbell page 0 (R112; log entry 32). -/
def firmwareMapping : BitVec 32 := 0xFFFFFFFF#32

/-- Which of the 34 fold sites, groups and so on a device has is fixed by Table 02-2. -/
def numberedFolds : Nat := 32

end Sys2Proof.Config
end

