-- ==== Sys2Proof/Machine/State.lean ====
section
/-! DEFINITION. The state of the device, as plain data, the reasons a step could stop for, and the state right
after reset. -/

namespace Sys2Proof.Machine

/-- Faults. The spec gives every command of the table an effect, so nothing raises a fault and this type has no
constructor: safe. -/
inductive Fault where
  deriving DecidableEq, Repr

/-- Refusals. -/
inductive Refusal where
  /-- The command has no meaning in this model. Raised by an arm of `exec` that rejects its command by name.
  Safe: a run stops. -/
  | notModelled (mnemonic : String)
  deriving DecidableEq, Repr

/-- The whole state of the device, with the companion's memory it reads and writes, and the queue of commands
that wait. -/
structure State where
  /-- the commands waiting, first in, first out -/
  pending : List Instr := []
  /-- device state machine, control cores, clock islands -/
  dev : Dev := {}
  /-- the Peloth table's own part -/
  units : Peloth := {}
  mboxes : List (Nat × Mailbox) := []
  rings : List (Nat × EventRing) := []
  evPages : List (Nat × EvPage) := []
  dbPages : List (Nat × DbPage) := []
  insts : List (Nat × Inst) := []
  spoof : Spoof := {}
  tiers : Tiers := {}
  /-- HBM, commons, fold SRAM, radio memory and companion memory -/
  mem : Mem := Mem.empty
  folds : List (Nat × Fold) := []
  disp : Dispatch := {}
  queues : Queues := {}
  radio : Radio := {}
  shep : Shepherd := {}
  settings : Settings := {}
  dma : List (Nat × DmaEngine) := []
  fh : Fronthaul := {}
  time : TimeBlk := {}
  fab : Fabric := {}
  fabMem : FabMem := {}
  prov : Prov := {}
  health : Health := {}
  flash : Flash := {}
  fuses : Fuses := {}
  sec : Sec := {}
  power : Power := {}
  pkg : Package := {}
  /-- what has left the device, newest first -/
  out : List Output := []
  /-- the counter that free values are read at: the model's own field, not the spec's -/
  fresh : Nat := 0
  deriving DecidableEq, Repr

/-- Mailbox 0 as reset leaves it: the manager's, for ever (Table 03-2, R78). -/
def managerMailbox : Mailbox := { role := .manager, mapping := Config.managerMapping }

/-- The mailboxes after reset: MBX_ID reads 0x10 on mailbox 0 and `m` on mailbox `m`. -/
def resetMailboxes : List (Nat × Mailbox) := [(0, managerMailbox)]

/-- The state right after a cold reset (R12): BOARD_RESET_N is asserted, the device is in ROM, every field holds
its Reset value and every memory reads as unwritten. -/
def State.reset : State := { mboxes := resetMailboxes }

/-- The outcome of a command. -/
abbrev Outcome := Host.Outcome State Fault Refusal

end Sys2Proof.Machine
end

