-- ==== Sys2Proof/Machine/Ops.lean ====
section
/-! DEFINITION. The named operations every meaning is made of: keyed components, memory by space, events and
vectors, the life ledger, unit and device states, mailbox responses. -/

namespace Sys2Proof.Machine

/-! ## Small combinators -/

/-- Apply `f` when `b` holds. -/
def State.onlyIf (b : Bool) (f : State → State) (s : State) : State := if b then f s else s

/-- Apply the operations of a list in order. -/
def State.forEach {α : Type} (l : List α) (f : α → State → State) (s : State) : State :=
  l.foldl (fun s a => f a s) s

/-- The bytes of a string of `n` bytes, cut or padded with zeros. -/
def fixLen (n : Nat) (b : Bytes) : Bytes := b.take n ++ List.replicate (n - b.length) 0#8

/-- A fresh free value of `w` bits (log entry 1) and the state with the counter advanced. -/
def State.takeFree (w : Nat) (s : State) : BitVec w × State :=
  ((Config.freeValue s.fresh).setWidth w, { s with fresh := s.fresh + 1 })

/-! ## Components by number -/

def State.mbox (s : State) (m : Nat) : Mailbox := tget {} s.mboxes m
def State.modMbox (s : State) (m : Nat) (f : Mailbox → Mailbox) : State :=
  { s with mboxes := tmod {} s.mboxes m f }
def State.ring (s : State) (k : Nat) : EventRing := tget {} s.rings k
def State.modRing (s : State) (k : Nat) (f : EventRing → EventRing) : State :=
  { s with rings := tmod {} s.rings k f }
def State.evPage (s : State) (k : Nat) : EvPage := tget {} s.evPages k
def State.dbPage (s : State) (k : Nat) : DbPage := tget {} s.dbPages k
def State.modDbPage (s : State) (k : Nat) (f : DbPage → DbPage) : State :=
  { s with dbPages := tmod {} s.dbPages k f }
def State.inst (s : State) (i : Nat) : Inst := tget {} s.insts i
def State.modInst (s : State) (i : Nat) (f : Inst → Inst) : State := { s with insts := tmod {} s.insts i f }
def State.obj (s : State) (e : Nat) : Obj := tget {} s.tiers.objs e
def State.modObj (s : State) (e : Nat) (f : Obj → Obj) : State :=
  { s with tiers := { s.tiers with objs := tmod {} s.tiers.objs e f } }
def State.mover (s : State) (h : Nat) : Mover := tget {} s.tiers.movers h
def State.modMover (s : State) (h : Nat) (f : Mover → Mover) : State :=
  { s with tiers := { s.tiers with movers := tmod {} s.tiers.movers h f } }
def State.stackCtl (s : State) (k : Nat) : StackCtl := tget {} s.tiers.stackCtls k
def State.modStackCtl (s : State) (k : Nat) (f : StackCtl → StackCtl) : State :=
  { s with tiers := { s.tiers with stackCtls := tmod {} s.tiers.stackCtls k f } }
def State.fold (s : State) (f : Nat) : Fold := tget {} s.folds f
def State.modFold (s : State) (f : Nat) (g : Fold → Fold) : State := { s with folds := tmod {} s.folds f g }
def Fold.slot (x : Fold) (k : Nat) : Ctx := tget {} x.slots k
def Fold.modSlot (x : Fold) (k : Nat) (g : Ctx → Ctx) : Fold := { x with slots := tmod {} x.slots k g }
def Fold.group (x : Fold) (k : Nat) : PGroup := tget {} x.groups k
def Fold.modGroup (x : Fold) (k : Nat) (g : PGroup → PGroup) : Fold := { x with groups := tmod {} x.groups k g }
def State.task (s : State) (t : Nat) : Option Task := tget none s.disp.tasks t
def State.setTask (s : State) (t : Nat) (x : Option Task) : State :=
  { s with disp := { s.disp with tasks := tset none s.disp.tasks t x } }
def State.barrier (s : State) (b : Nat) : Barrier := tget {} s.disp.barriers b
def State.modBarrier (s : State) (b : Nat) (f : Barrier → Barrier) : State :=
  { s with disp := { s.disp with barriers := tmod {} s.disp.barriers b f } }
def State.sigCore (s : State) (c : Nat) : SigCore := tget {} s.radio.sigCores c
def State.modSigCore (s : State) (c : Nat) (f : SigCore → SigCore) : State :=
  { s with radio := { s.radio with sigCores := tmod {} s.radio.sigCores c f } }
def State.engine (s : State) (e : Nat) : Engine := tget {} s.radio.engines e
def State.modEngine (s : State) (e : Nat) (f : Engine → Engine) : State :=
  { s with radio := { s.radio with engines := tmod {} s.radio.engines e f } }
def State.cell (s : State) (c : Nat) : Cell := tget {} s.radio.cells c
def State.modCell (s : State) (c : Nat) (f : Cell → Cell) : State :=
  { s with radio := { s.radio with cells := tmod {} s.radio.cells c f } }
def State.modNrx (s : State) (f : Nrx → Nrx) : State :=
  { s with radio := { s.radio with nrx := f s.radio.nrx } }
def State.dmaEng (s : State) (e : Nat) : DmaEngine := tget {} s.dma e
def State.modDma (s : State) (e : Nat) (f : DmaEngine → DmaEngine) : State := { s with dma := tmod {} s.dma e f }
def State.lane (s : State) (l : Nat) : Lane := tget {} s.fh.lanes l
def State.modLane (s : State) (l : Nat) (f : Lane → Lane) : State :=
  { s with fh := { s.fh with lanes := tmod {} s.fh.lanes l f } }
def State.fhPort (s : State) (p : Nat) : FhPort := tget {} s.fh.ports p
def State.modFhPort (s : State) (p : Nat) (f : FhPort → FhPort) : State :=
  { s with fh := { s.fh with ports := tmod {} s.fh.ports p f } }
def State.fport (s : State) (p : Nat) : FabPort := tget {} s.fab.ports p
def State.modFport (s : State) (p : Nat) (f : FabPort → FabPort) : State :=
  { s with fab := { s.fab with ports := tmod {} s.fab.ports p f } }
def State.node (s : State) (n : Nat) : Node := tget {} s.fab.nodes n
def State.region (s : State) (r : Nat) : Region := tget {} s.fabMem.regions r
def State.modRegion (s : State) (r : Nat) (f : Region → Region) : State :=
  { s with fabMem := { s.fabMem with regions := tmod {} s.fabMem.regions r f } }
def State.core (s : State) (c : Nat) : CtlCore := tget {} s.dev.cores c
def State.modCore (s : State) (c : Nat) (f : CtlCore → CtlCore) : State :=
  { s with dev := { s.dev with cores := tmod {} s.dev.cores c f } }
def State.modTime (s : State) (f : TimeBlk → TimeBlk) : State := { s with time := f s.time }
def State.modShep (s : State) (f : Shepherd → Shepherd) : State := { s with shep := f s.shep }
def State.modFab (s : State) (f : Fabric → Fabric) : State := { s with fab := f s.fab }
def State.modFabMem (s : State) (f : FabMem → FabMem) : State := { s with fabMem := f s.fabMem }
def State.modProv (s : State) (f : Prov → Prov) : State := { s with prov := f s.prov }
def State.modHealth (s : State) (f : Health → Health) : State := { s with health := f s.health }
def State.modSec (s : State) (f : Sec → Sec) : State := { s with sec := f s.sec }
def State.modPower (s : State) (f : Power → Power) : State := { s with power := f s.power }
def State.modPkg (s : State) (f : Package → Package) : State := { s with pkg := f s.pkg }
def State.modDisp (s : State) (f : Dispatch → Dispatch) : State := { s with disp := f s.disp }
def State.modTiers (s : State) (f : Tiers → Tiers) : State := { s with tiers := f s.tiers }
def State.modDev (s : State) (f : Dev → Dev) : State := { s with dev := f s.dev }
def State.emit (s : State) (o : Output) : State := { s with out := o :: s.out }

/-- Device time moves to `now`, never back (R427). -/
def State.at (now : Nat) (s : State) : State := { s with time := { s.time with now := max s.time.now now } }

/-! ## Memory by space -/

def State.rd (s : State) (sp : Space) (a n : Nat) : Bytes := s.mem.rdN (key sp a) n

/-- The Fyfoyx link carries messages, or holds them while it recovers (Table 21-5). -/
def Power.carries (p : Power) : Bool :=
  match p.fyf with | .active | .night | .recovery => true | .down | .training => false
def State.carries (s : State) : Bool := s.power.carries

/-- A write to companion memory that cannot cross the link is dropped and counted (R645). -/
def State.dropWrite (s : State) : State := s.modPower (fun p => { p with fyfDrops := satInc 32 p.fyfDrops })

/-- Write a byte string to a memory of the device or, over the link, of the companion. -/
def State.wr (s : State) (sp : Space) (a : Nat) (b : Bytes) : State :=
  if sp = .companion && !s.carries then s.dropWrite else { s with mem := s.mem.store (key sp a) (clip a b) }
def State.zeroMem (s : State) (sp : Space) (a n : Nat) : State := { s with mem := s.mem.zero (key sp a) n }
/-- A little-endian field of `n` bytes. -/
def State.rdField (s : State) (sp : Space) (a n : Nat) : Nat := leNat (s.rd sp a n)

/-! ## Units (R50, R51, Table 02-2, Table 01-1) -/

/-- TYPE of Table 02-2. -/
def typeCode : UnitType → Nat
  | .device => 1 | .die => 2 | .stack => 3 | .fold => 4 | .sigCore => 5 | .sigGroup => 6 | .engine => 7
  | .ctlCore => 8 | .stackCtl => 9 | .fabPort => 10 | .fhPort => 11 | .dma => 12 | .commons => 13
  | .collector => 14

/-- The unit types by TYPE. -/
def typeOfCode : Nat → Option UnitType
  | 1 => some .device | 2 => some .die | 3 => some .stack | 4 => some .fold | 5 => some .sigCore
  | 6 => some .sigGroup | 7 => some .engine | 8 => some .ctlCore | 9 => some .stackCtl | 10 => some .fabPort
  | 11 => some .fhPort | 12 => some .dma | 13 => some .commons | 14 => some .collector
  | _ => none

/-- First INDEX and count of each unit type (Table 02-2; stacks carry their die numbers 16 to 31). -/
def typeRange : UnitType → Nat × Nat
  | .device => (0, 1) | .die => (0, 5) | .stack => (16, 16) | .fold => (0, 34) | .sigCore => (0, 384)
  | .sigGroup => (0, 48) | .engine => (0, 100) | .ctlCore => (0, 8) | .stackCtl => (0, 16)
  | .fabPort => (0, 32) | .fhPort => (0, 8) | .dma => (0, 64) | .commons => (0, 2) | .collector => (0, 2)

/-- All unit types in the order of the table (R50). -/
def unitTypes : List UnitType :=
  [.device, .die, .stack, .fold, .sigCore, .sigGroup, .engine, .ctlCore, .stackCtl, .fabPort, .fhPort, .dma,
   .commons, .collector]

/-- The unit exists (Table 02-2). -/
def unitExists (u : UnitId) : Bool :=
  decide ((typeRange u.ty).1 ≤ u.idx ∧ u.idx < (typeRange u.ty).1 + (typeRange u.ty).2)

/-- Key of a unit in the tables kept by unit. -/
def unitKey (u : UnitId) : Nat := typeCode u.ty * 65536 + u.idx

/-- Every unit of the device, in ascending key. -/
def allUnits : List UnitId :=
  unitTypes.flatMap (fun t => (List.range (typeRange t).2).map (fun i => ⟨t, (typeRange t).1 + i⟩))

/-- DIE: the die a unit lies on (Tables 01-1 and 02-3). -/
def unitDie (u : UnitId) : Nat :=
  match u.ty with
  | .die | .stack => u.idx
  | .fold => if u.idx < 32 then u.idx / 16 else u.idx - 32
  | .stackCtl => u.idx / 8
  | .fabPort => 3 + u.idx / 16
  | .fhPort => 3 + u.idx / 4
  | .dma => if u.idx < 16 then 3 else if u.idx < 32 then 4 else if u.idx < 48 then 0 else 1
  | .commons | .collector => u.idx
  | .device | .sigCore | .sigGroup | .engine | .ctlCore => 2

/-- SUBTYPE: 0 FFT, 1 LDPC decode, 2 LDPC encode, 3 polar, 4 turbo, 5 convolutional, for radio engines (R21). -/
def engineSubtype (e : Nat) : Nat :=
  if e < 64 then 0 else if e < 80 then 1 else if e < 84 then 2 else if e < 92 then 3 else if e < 96 then 4 else 5

def State.unit (s : State) (u : UnitId) : UnitEntry := tget {} s.units.entries (unitKey u)

/-- The unit serves by its own state. -/
def State.ownServes (s : State) (u : UnitId) : Bool := (s.unit u).state.accepts

/-- The die, the stack or the signal-core group that a unit depends on serves (R55, R247). -/
def State.ownersServe (s : State) (u : UnitId) : Bool :=
  match u.ty with
  | .device | .die | .stack => true
  | .sigCore => s.ownServes ⟨.die, 2⟩ && s.ownServes ⟨.sigGroup, u.idx / 8⟩
  | _ => s.ownServes ⟨.die, unitDie u⟩

/-- STATE as the table shows it (R55): a unit that would serve shows FENCED while its die, stack or group does
not. -/
def State.shown (s : State) (u : UnitId) : UState :=
  if (s.unit u).state.accepts && !s.ownersServe u then .fenced else (s.unit u).state

/-- The unit accepts work (R52, R54). -/
def State.accepts (s : State) (u : UnitId) : Bool := (s.shown u).accepts

/-- The units whose shown state may follow that of a die or a group. -/
def dependents (u : UnitId) : List UnitId :=
  match u.ty with
  | .die => allUnits.filter (fun v => decide (v ≠ u ∧ v.ty ≠ .device ∧ v.ty ≠ .stack ∧ v.ty ≠ .die ∧
      unitDie v = u.idx))
  | .sigGroup => (List.range 8).map (fun i => ⟨.sigCore, 8 * u.idx + i⟩)
  | _ => []

/-- Transitions of Table 02-5. -/
def legalTransition : UState → UState → Bool
  | .initialising, .ready | .initialising, .degraded | .initialising, .failed | .initialising, .fenced => true
  | .ready, .degraded | .degraded, .ready => true
  | .ready, .fenced | .degraded, .fenced | .ready, .failed | .degraded, .failed => true
  | .ready, .sleeping | .degraded, .sleeping => true
  | .fenced, .ready | .fenced, .degraded | .fenced, .initialising | .failed, .initialising => true
  | .fenced, .retired | .failed, .retired => true
  | .sleeping, .initialising => true
  | _, _ => false

/-! ## Events (R106 to R111, R672) -/

/-- Bytes of a record with its PHASE (Table 03-11). -/
def recordBytes (r : EvRecord) (phase : Bool) : Bytes :=
  leBytes 2 r.code ++ leBytes 1 r.inst ++ leBytes 1 (128 * b2n phase) ++ leBytes 2 r.srcType ++
    leBytes 2 r.srcIdx ++ leBytes 8 r.time ++ leBytes 16 r.payload

/-- A ring is enabled (EVR_CFG ENABLED). -/
def EventRing.enabled (r : EventRing) : Bool := decide (r.log2 ≠ 0)

/-- EVR_TAIL − EVR_HEAD, modulo 2^32. -/
def EventRing.used (r : EventRing) : Nat := (r.tail + 2 ^ 32 - r.head % 2 ^ 32) % 2 ^ 32

/-- The ring is full (R109). -/
def EventRing.full (r : EventRing) : Bool := decide (2 ^ r.log2 ≤ r.used)

/-- PHASE of the next record: 1 on the first pass, inverted on each later pass. -/
def EventRing.phase (r : EventRing) : Bool := r.tail / 2 ^ r.log2 % 2 == 0

/-- Write one record into ring `k` in full, advance EVR_TAIL, then send the vector if armed (R108). -/
def State.putRecord (k : Nat) (ev : EvRecord) (s : State) : State :=
  let r := s.ring k
  let s := s.wr .companion (r.base + r.tail % 2 ^ r.log2 * 32) (recordBytes ev r.phase)
  let s := s.modRing k (fun r => { r with tail := (r.tail + 1) % 2 ^ 32, arm := false })
  if r.arm then s.emit (.vector k r.vecAddr r.vecData) else s

/-- An event for ring `k`: written, held, or discarded and counted (R108, R109). -/
def State.postRecord (k : Nat) (ev : EvRecord) (s : State) : State :=
  let r := s.ring k
  if r.full || !r.held.isEmpty then
    if r.held.length < 16 then s.modRing k (fun r => { r with held := r.held ++ [ev] })
    else s.modRing k (fun r => { r with lost := satInc 32 r.lost, dropped := r.dropped + 1 })
  else s.putRecord k ev

/-- The EVENT_OVERFLOW record of ring `k` (R109). -/
def State.overflowRecord (s : State) (k : Nat) : EvRecord :=
  { code := 14, inst := 0, srcType := 1, srcIdx := 0, time := s.time.now, payload := (s.ring k).dropped % 2 ^ 32 }

/-- Space has returned in ring `k`: the held records are written in order, then one EVENT_OVERFLOW record if any
were discarded (R109) and EVR_MASK lets it (R107). `n` bounds the records written. -/
def State.flushRing (k : Nat) : Nat → State → State
  | 0, s => s
  | n + 1, s =>
    let r := s.ring k
    if r.full || !r.enabled then s
    else
      match r.held with
      | ev :: rest => State.flushRing k n ((s.modRing k (fun r => { r with held := rest })).putRecord k ev)
      | [] =>
        if r.dropped = 0 then s
        else if !bitOf r.mask 14 then s.modRing k (fun r => { r with dropped := 0 })
        else
          let ev := s.overflowRecord k
          (s.modRing k (fun r => { r with dropped := 0 })).putRecord k ev

/-- An owner of Table 03-12 by role and instance. -/
def ownerIs (r : EventRing) (role : Role) (inst : Nat) : Bool := decide (r.ownerRole = role ∧ r.ownerInst = inst)

/-- The owners entitled to an event of Table 03-12: `inst` is the record's INSTANCE, `holder` the role and
instance of the mailbox of a COMMAND_DONE. -/
def entitled (code inst : Nat) (holder : Role × Nat) (r : EventRing) : Bool :=
  match code with
  | 2 => ownerIs r holder.1 holder.2
  | 3 | 4 | 5 | 9 | 11 => decide (r.ownerRole = .manager ∨ r.ownerRole = .group)
  | 6 => if inst = 0 then decide (r.ownerRole = .radio) else ownerIs r .tenant inst
  | 7 | 12 => decide (r.ownerRole = .manager) || ownerIs r .tenant inst
  | 8 => decide (r.ownerRole = .radio ∨ r.ownerRole = .manager ∨ r.ownerRole = .group)
  | 10 | 13 | 15 => decide (r.ownerRole = .manager)
  | _ => false

/-- Write an event to every enabled ring whose owner is entitled and whose EVR_MASK has its code (R107). -/
def State.raiseTo (code inst srcType srcIdx payload : Nat) (holder : Role × Nat) (s : State) : State :=
  s.forEach (s.rings.map (fun p => p.1)) (fun k s =>
    let r := s.ring k
    if r.enabled && entitled code inst holder r && bitOf r.mask code then
      s.postRecord k { code, inst, srcType, srcIdx, time := s.time.now, payload }
    else s)

/-- Raise an event whose source is a unit. -/
def State.raise (code inst : Nat) (u : UnitId) (payload : Nat) (s : State) : State :=
  s.raiseTo code inst (typeCode u.ty) u.idx payload (.unassigned, 0)

/-- The device as a source. -/
def theDevice : UnitId := ⟨.device, 0⟩

/-! ## The life ledger (R577 to R580) -/

/-- The words of a record's body: the manual gives the content and no layout, so each item is one 64-bit word
(log entry 4). -/
def bodyWords : LBody → List Nat
  | .incReserve f c => [f, c]
  | .unitState o n i => [o, n, i]
  | .retire => []
  | .fence m t a => [m, t, a]
  | .mismatch l c => [l, c]
  | .deadlineMiss p => [p % 2 ^ 64, p / 2 ^ 64]
  | .nrx cs sl r => [sl, b2n r] ++ cs
  | .coreRestart c e => [c, b2n e]
  | .memError t a k => [t, a, k]
  | .link p r l => [p, r] ++ l
  | .patrol p => [b2n p]
  | .health sc o n p => [sc, o, n, p]
  | .deficits d fs => d :: fs.map (·.2)
  | .thermalHist l => l
  | .hbmHist a b l => [a, b] ++ l
  | .power e c => [e, c]
  | .progress fs => fs
  | .certificate b | .margin b => b.map (·.toNat)
  | .assume n m cs => [n, m] ++ cs

/-- Bytes of a record: the header of Table 19-4 and its body. -/
def ledgerBytes (r : LRecord) : Bytes :=
  let ws := bodyWords r.body
  let sn := r.snapshot.getD []
  leBytes 2 r.type ++ leBytes 2 (24 + 8 * ws.length + sn.length) ++ leBytes 2 r.srcType ++ leBytes 2 r.srcIdx ++
    leBytes 4 r.seq ++ leBytes 8 r.time ++ leBytes 4 (b2n r.timeValid + 2 * b2n r.stress) ++
    ws.flatMap (leBytes 8) ++ sn

/-- Bytes of a batch before its signature (Table 19-3). -/
def batchBytes (uid : W64) (b : LBatch) : Bytes :=
  let body := b.records.flatMap ledgerBytes
  leBytes 4 0x47444C4D ++ leBytes 2 0x0101 ++ leBytes 2 (match b.signature with | none => 2692 | some g => g.length) ++ leBytes 8 uid.toNat ++
    leBytes 4 b.devInc ++ leBytes 4 b.seq ++ leBytes 4 ((b.records.headD ⟨0, 0, 0, 0, 0, false, false, .retire, none⟩).seq) ++
    leBytes 4 body.length ++ fixLen 32 b.prev ++ List.replicate 32 0#8 ++ body

/-- The whole of a written batch, its signature included. -/
def batchWhole (uid : W64) (b : LBatch) : Bytes := batchBytes uid b ++ b.signature.getD []

/-- PREV_DIGEST of the next batch (Table 19-3): over "MVN-LG" and the whole previous batch, 0 for batch 0. -/
def nextPrevDigest (s : State) : Bytes :=
  match s.flash.batches with
  | [] => List.replicate 32 0#8
  | b :: _ => shakeTag 32 [0x4D, 0x56, 0x4E, 0x2D, 0x4C, 0x47] (batchWhole s.fuses.uid b)

/-- Size of the ledger region (Table 22 flash map) and what is free of it. -/
def ledgerSize : Nat := 256 * 2 ^ 20
def State.ledgerFree (s : State) : Nat := ledgerSize - s.flash.bytesUsed

/-- The class of a record type (Table 19-5): 0 K, 1 S, 2 E. -/
def ledgerClass : Nat → Nat
  | 5 | 6 | 7 | 9 | 10 | 11 => 2
  | 13 | 14 | 15 | 17 => 1
  | _ => 0

/-- The ledger takes a record of this class with what is free (R580). -/
def State.ledgerTakes (s : State) (cls : Nat) : Bool :=
  if s.ledgerFree < 2 ^ 20 then cls == 0 else if s.ledgerFree < 16 * 2 ^ 20 then cls != 2 else true

/-- The device entry's INCARNATION. -/
def State.deviceInc (s : State) : Nat := (s.unit theDevice).incarnation

/-- The identity key's reserve and the last session key are used up, so nothing more is signed (R617). -/
def Sec.spent (x : Sec) : Bool := x.idExhausted && decide (65536 ≤ x.sessionNext) && x.nextCert.isNone

/-! ## The provenance log and the signing queue (R546, R617 to R619) -/

/-- The log has room for one more record. -/
def Prov.room (p : Prov) : Bool := decide ((p.tail + 2 ^ 32 - p.head % 2 ^ 32) % 2 ^ 32 < 2 ^ p.log2)

/-- Write one 128-byte record to the log ring in companion memory. -/
def State.provWrite (b : Bytes) (s : State) : State :=
  let p := s.prov
  (s.wr .companion (p.logBase + p.tail % 2 ^ p.log2 * 128) (fixLen 128 b)).modProv
    (fun p => { p with tail := (p.tail + 1) % 2 ^ 32 })

/-- Write a record, or hold it behind those held already (R546). -/
def State.provPut (b : Bytes) (s : State) : State :=
  if s.prov.room && s.prov.heldRecords.isEmpty then s.provWrite b
  else s.modProv (fun p => { p with heldRecords := p.heldRecords ++ [b] })

/-- A signature record of R619. -/
def sigRecord (interval part parts : Nat) (b : Bytes) : Bytes :=
  leBytes 1 3 ++ List.replicate 7 0#8 ++ fixLen 16 (b.take 16) ++ leBytes 4 interval ++ leBytes 1 part ++
    leBytes 1 parts ++ leBytes 2 0 ++ fixLen 96 (b.drop 16)

/-- A root stays unsigned (R618). -/
def State.rootUnsigned (interval : Nat) (s : State) : State :=
  (s.provPut (sigRecord interval 0 0 [])).modSec
    (fun x => { x with rootsUnsigned := satInc 32 x.rootsUnsigned, event := x.event ||| 16 })

def SignReq.isRoot : SignReq → Bool
  | .root .. => true
  | _ => false

/-- A signing request takes its place among those that wait (R618). -/
def State.enqueue (r : SignReq) (s : State) : State :=
  if s.sec.queue.length < 1024 then s.modSec (fun x => { x with queue := x.queue ++ [r] })
  else
    match r, s.sec.queue.find? SignReq.isRoot with
    | .root i .., _ => s.rootUnsigned i
    | _, some (.root i a b c d e) =>
      (s.modSec (fun x => { x with queue := x.queue.erase (.root i a b c d e) ++ [r] })).rootUnsigned i
    | _, _ => s.modSec (fun x => { x with queue := x.queue ++ [r] })

/-! ## Batches -/

/-- Write one batch of records to flash (R577, R578); while the card holds the flash it waits (R662). -/
def State.writeBatch (rs : List LRecord) (s : State) : State :=
  if rs.isEmpty then s
  else if s.pkg.flashGranted then { s with health := { s.health with heldBatches := s.health.heldBatches ++ [rs] } }
  else
    let b : LBatch := { seq := s.flash.batches.length, devInc := s.deviceInc, prev := nextPrevDigest s, records := rs,
                        signature := if s.sec.spent then some [] else none }
    let n := 96 + (rs.map (fun r => (ledgerBytes r).length)).sum + (if s.sec.spent then 0 else 2692)
    let s := { s with flash := { s.flash with batches := b :: s.flash.batches, bytesUsed := s.flash.bytesUsed + n } }
    let s := if s.ledgerFree < 16 * 2 ^ 20 then { s with health := { s.health with event := s.health.event ||| 8 } } else s
    if s.sec.spent then s else s.enqueue (.batch b.seq)

/-- Close and write the waiting batch. -/
def State.closeBatch (s : State) : State :=
  ({ s with health := { s.health with waiting := [] } }).writeBatch s.health.waiting

/-- The record of an event, numbered and timed (Table 19-4). -/
def State.mkRecord (s : State) (type : Nat) (src : UnitId) (body : LBody) (stress : Bool) : LRecord :=
  { type, srcType := typeCode src.ty, srcIdx := src.idx, seq := s.health.ledgerSeq, time := s.time.now,
    timeValid := s.time.everLocked, stress, body }

/-- Events of this source are stress, not evidence (R575): a retest or a margin sweep runs, or the source is a
FENCED fold. -/
def State.stressed (s : State) (src : UnitId) : Bool :=
  !s.health.retests.isEmpty || !s.health.sweeps.isEmpty || (decide (src.ty = .fold) && decide (s.shown src = .fenced))

/-- Bytes of ledger batches held while the card has the flash (R662). -/
def State.heldLedgerBytes (s : State) : Nat :=
  ((s.health.heldBatches.flatten ++ s.health.waiting).map (fun r => (ledgerBytes r).length)).sum

/-- The ledger takes a record of this type now (R580, R662). -/
def State.ledgerAccepts (s : State) (type : Nat) : Bool :=
  s.ledgerTakes (ledgerClass type) &&
    (ledgerClass type == 0 || !s.pkg.flashGranted || decide (s.heldLedgerBytes < 8 * 2 ^ 20))

/-- Add a record to the batch that waits, with a snapshot where it carries one; a record of a class the ledger does
not take is counted in LEDGER_DROPPED (R577, R580). -/
def State.ledgerWith (type : Nat) (src : UnitId) (body : LBody) (snap : Option Bytes) (s : State) : State :=
  if s.ledgerAccepts type then
    let r := { s.mkRecord type src body (s.stressed src) with snapshot := snap }
    { s with health := { s.health with
        waiting := s.health.waiting ++ [r]
        ledgerSeq := s.health.ledgerSeq + 1
        waitingSince := if s.health.waiting.isEmpty then s.time.now else s.health.waitingSince } }
  else { s with health := { s.health with ledgerDropped := satInc 32 s.health.ledgerDropped } }

/-- Add a record with no snapshot. -/
def State.ledger (type : Nat) (src : UnitId) (body : LBody) (s : State) : State := s.ledgerWith type src body none

/-- An incarnation reservation can be written now (R59, R580): the ledger has room and the card does not hold the
flash. -/
def State.canReserve (s : State) : Bool := decide (4096 ≤ s.ledgerFree) && !s.pkg.flashGranted

/-- Reserve the next 1,024 incarnation numbers of a unit, in a batch of its own after the one that waits (R59,
R577). -/
def State.reserveInc (u : UnitId) (s : State) : State :=
  let top := tget 0 s.flash.reserved (unitKey u)
  let s := s.closeBatch
  let r := s.mkRecord 1 u (.incReserve (top + 1) 1024) false
  let s := { s with health := { s.health with ledgerSeq := s.health.ledgerSeq + 1 } }
  let s := s.writeBatch [r]
  { s with flash := { s.flash with reserved := tset 0 s.flash.reserved (unitKey u) (top + 1024) } }

/-! ## Changes of unit state (R49, R51, R55 to R60) -/

/-- Close an update of the table: CHANGE_COUNT passes through odd to the next even value, and TABLE_CHANGE is
raised (R49). -/
def State.tableChange (s : State) : State :=
  let c := (s.units.changeCount + 2) % 2 ^ 64
  ({ s with units := { s.units with changeCount := c } }).raise 3 0 theDevice c

/-- Time a fold spends FENCED counts for PROGRESS (R601). -/
def State.fenceClock (u : UnitId) (old new : UState) (s : State) : State :=
  if u.ty ≠ .fold then s
  else if new = .fenced then
    { s with health := { s.health with fencedSince := tset 0 s.health.fencedSince u.idx (s.time.now + 1) } }
  else if old = .fenced then
    let t := tget 0 s.health.fencedSince u.idx
    { s with health := { s.health with fencedSince := tset 0 s.health.fencedSince u.idx 0,
                                       fencedFoldUs := s.health.fencedFoldUs + (s.time.now + 1 - t) } }
  else s

/-- Announce a unit whose shown state went from `old` to `new`: UNIT_STATE, and the ledger record (R56). -/
def State.announce (u : UnitId) (old new : UState) (s : State) : State :=
  if old = new then s
  else
    let i := (s.unit u).incarnation
    let s := s.fenceClock u old new
    (s.raise 4 0 u (old.code + 16 * new.code + 2 ^ 32 * (i % 2 ^ 32))).ledger 2 u
      (.unitState old.code new.code i)

/-- Change a unit's entry as one update of the table: STATE_CHANGE of every unit whose shown state changed takes
the count that closes the update (R49, R51, R55). -/
def State.setEntry (u : UnitId) (f : UnitEntry → UnitEntry) (s : State) : State :=
  let watch := u :: dependents u
  let before := watch.map (fun v => (v, s.shown v))
  let s := { s with units := { s.units with entries := tmod {} s.units.entries (unitKey u) f } }
  let c := (s.units.changeCount + 2) % 2 ^ 64
  let changed := before.filter (fun p => decide (s.shown p.1 ≠ p.2))
  let stamped := changed.foldl (fun t p => tmod ({} : UnitEntry) t (unitKey p.1) (fun e => { e with stateChange := c })) s.units.entries
  let s := { s with units := { s.units with entries := stamped } }
  let s := s.tableChange
  s.forEach changed (fun p s => s.announce p.1 p.2 (s.shown p.1))

/-- A unit takes a new state along Table 02-5; any other change is not made. -/
def State.setUnit (u : UnitId) (new : UState) (s : State) : State :=
  if legalTransition (s.unit u).state new then s.setEntry u (fun e => { e with state := new }) else s

/-- A unit that has no number since the reset of the device takes the first one above the highest reservation, once its
reservation can be written (R58, R59). -/
def State.firstNumber (u : UnitId) (s : State) : State :=
  if s.canReserve then
    let n := tget 0 s.flash.reserved (unitKey u) + 1
    (s.reserveInc u).setEntry u (fun e => { e with incarnation := n, waitsReserve := false })
  else s

/-- A unit enters INITIALISING with its next incarnation number (R58, R60), reserving a further block before its
last number; where the reservation cannot be written it waits in its present state (R59). -/
def State.initialise (u : UnitId) (s : State) : State :=
  let e := s.unit u
  if e.waitsReserve && e.incarnation == 0 then s.firstNumber u
  else if !legalTransition e.state .initialising then s
  else if e.incarnation + 1 < tget 0 s.flash.reserved (unitKey u) then
    s.setEntry u (fun e => { e with state := .initialising, incarnation := e.incarnation + 1, waitsReserve := false })
  else if s.canReserve then
    (s.reserveInc u).setEntry u (fun e =>
      { e with state := .initialising, incarnation := e.incarnation + 1, waitsReserve := false })
  else
    let waits := tmod {} s.units.entries (unitKey u) (fun e => { e with waitsReserve := true })
    { s with units := { s.units with entries := waits } }

/-! ## Device states (R97, R98) -/

/-- Transitions of Table 03-6 with the states FENCED returns to; ROM is reached from every state. -/
def legalDevice : DState → DState → Bool
  | _, .rom => true
  | .rom, .loaded | .loaded, .configuring | .configuring, .serving | .configuring, .standby => true
  | .serving, .standby | .standby, .serving | .serving, .watched | .watched, .serving => true
  | .serving, .dusk | .dusk, .serving | .dusk, .night | .standby, .night | .night, .serving => true
  | .serving, .draining | .dusk, .draining | .standby, .draining | .watched, .draining => true
  | .draining, .night => true
  | .serving, .fenced | .dusk, .fenced | .draining, .fenced | .standby, .fenced | .watched, .fenced => true
  | .loaded, .fenced | .configuring, .fenced | .night, .fenced => true
  | .fenced, .serving | .fenced, .loaded | .fenced, .configuring | .fenced, .night => true
  | _, _ => false

/-- The device enters a state, with the DEVICE_STATE record of R98. -/
def State.setDevice (new : DState) (s : State) : State :=
  if legalDevice s.dev.dstate new then
    let old := s.dev.dstate
    ({ s with dev := { s.dev with dstate := new } }).raise 5 0 theDevice (old.code + 256 * new.code)
  else s

/-! ## Mailbox responses (R83, R86 to R93) -/

/-- The control core that serves a mailbox (R85). -/
def serverOf (m : Nat) : Nat := if m < 8 then 2 else 3

/-- Bytes of a response (Table 03-4), its 32-byte header and its result. -/
def responseBytes (r : Response) (replay : Bool) : Bytes :=
  leBytes 2 r.opcode ++ leBytes 2 r.status.code ++ leBytes 4 r.seq ++ leBytes 1 r.instId ++
    leBytes 1 (b2n r.pending + 2 * b2n replay) ++ leBytes 2 r.result.length ++ leBytes 1 r.dstate ++
    List.replicate 19 0#8 ++ r.result

/-- MBX_RESPONSE, to the one ring RESP_EVENT names and only where R107 lets it. -/
def State.raiseResponse (m : Nat) (s : State) : State :=
  let b := s.mbox m
  let r := s.ring b.respRing
  if b.respOn && r.enabled && ownerIs r b.role b.inst && bitOf r.mask 1 then
    s.postRecord b.respRing { code := 1, inst := b.inst, srcType := 1, srcIdx := 0, time := s.time.now,
                              payload := m + 2 ^ 16 * b.head }
  else s

/-- ENABLE goes from 0 to 1 (R80, R81). -/
def Mailbox.turnOn (tail : Nat) (b : Mailbox) : Mailbox :=
  { b with enable := true, stopped := false, tail, taken := 0, head := 0, first := true, session := b.session + 1 }

/-- ENABLE goes from 1 to 0 (R80). -/
def Mailbox.turnOff (b : Mailbox) : Mailbox :=
  { b with enable := false, tail := 0, taken := 0, head := 0, session := b.session + 1 }

/-- The command taken up has been answered: a write of 0 to ENABLE that waited for it takes effect, and a write of 1 after
it (R80). -/
def Mailbox.settle (b : Mailbox) : Mailbox :=
  match b.closing with
  | none => b
  | some (on, tail) =>
    let b := { b.turnOff with closing := none }
    if on then { b.turnOn (tail % 65536) with stopped := decide (tail = 65536) } else b

/-- The mailbox once the response is in its slot, or once its write has failed on the link, which sets FETCH_FAULT and stops
the mailbox (R81, R83, Table 03-1). HEAD counts only in the enabling under which the command was taken up (R80). -/
def Mailbox.written (c : Cmd) (ok : Bool) (b : Mailbox) : Mailbox :=
  { b with head := if ok && decide (b.session = c.session) then (b.head + 1) % 65536 else b.head
           fetchFault := b.fetchFault || !ok, stopped := b.stopped || !ok, current := none, heldAnswer := false }

/-- Write a response into its slot, advance HEAD, raise MBX_RESPONSE (R83); then a waiting write to ENABLE takes effect. -/
def State.writeResponse (m : Nat) (c : Cmd) (bs : Bytes) (s : State) : State :=
  let ok := s.carries
  let s := (s.wr .companion c.slot bs).modMbox m (Mailbox.written c ok)
  (if ok then s.raiseResponse m else s).modMbox m Mailbox.settle

/-- The response to a command with its status, result and PENDING bit. -/
def State.mkResponse (s : State) (c : Cmd) (st : Status) (result : Bytes) (pending : Bool) : Response :=
  { opcode := c.opcode, status := st, seq := c.seq, instId := c.instId, pending, result,
    dstate := s.dev.dstate.code }

/-- End the command taken up from mailbox `m`: its response is stored (R93) and written. -/
def State.respond (m : Nat) (c : Cmd) (st : Status) (result : Bytes) (pending : Bool) (s : State) : State :=
  let r := s.mkResponse c st result pending
  let s := s.modMbox m (fun b => { b with stored := some r })
  s.writeResponse m c (responseBytes r false)

/-- COMMAND_DONE for a long command of mailbox `m` (R95). -/
def State.commandDone (m seq opcode : Nat) (st : Status) (s : State) : State :=
  let b := s.mbox m
  if b.long.any (fun l => l.seq == seq && l.opcode == opcode) then
    let s := s.modMbox m (fun b => { b with long := b.long.erase { opcode, seq } })
    s.raiseTo 2 b.inst 1 0 (m + 2 ^ 16 * opcode + 2 ^ 32 * seq + 2 ^ 64 * st.code) (b.role, b.inst)
  else s

/-- The cells that an ASSUME under way has taken are given up. -/
def State.dropAssumed (cells : List Nat) (s : State) : State :=
  s.forEach cells (fun c s => s.modCell c (fun x => { x with state := .removing, assumed := false, next := none }))

/-- What a long command of mailbox `m` does goes no further: its RETEST, MARGIN_SWEEP, ASSUME, NRX_LOAD or LEDGER_READ is
given up (R82, R91). -/
def State.stopLong (m seq : Nat) (s : State) : State :=
  let h := s.health
  let mine := fun (p : Nat × Nat) => p.1 == m && p.2 == seq
  let s := s.forEach (h.certifying.filter (fun p => mine (p.1, p.2.1))) (fun p s =>
    s.modSec (fun x => { x with queue := x.queue.filter (fun r => decide (r ≠ .certificate p.2.2)) }))
  let s := s.forEach (h.assuming.filter (fun a => mine (a.1, a.2.1))) (fun a s => s.dropAssumed a.2.2.2.2)
  let s := s.modHealth (fun h => { h with
    retests := h.retests.filter (fun r => !mine (r.1, r.2.1))
    certifying := h.certifying.filter (fun p => !mine (p.1, p.2.1))
    sweeps := h.sweeps.filter (fun r => !mine (r.1, r.2.1))
    assuming := h.assuming.filter (fun a => !mine (a.1, a.2.1))
    reads := h.reads.filter (fun r => !mine (r.1, r.2.1)) })
  match s.radio.nrx.pending with
  | some (_, _, m', q) => if mine (m', q) then s.modNrx (fun n => { n with pending := none }) else s
  | none => s

/-- End every pending long command of mailbox `m` with CANCELLED (R82, R96). -/
def State.cancelLong (m : Nat) (s : State) : State :=
  s.forEach (s.mbox m).long (fun l s => (s.stopLong m l.seq).commandDone m l.seq l.opcode .cancelled)

/-! ## Health evidence and snapshots (R574 to R576) -/

/-- Weight of an evidence code (Table 19-1). -/
def evidenceWeight : Nat → Nat
  | 1 => 40 | 2 => 150 | 3 => 200 | 4 => 20 | 5 => 5 | 6 => 30 | 7 => 1 | 8 => 1 | 9 => 100 | 10 => 1 | 11 => 100
  | 12 => 10 | 13 => 1 | 14 => 5 | 15 => 80 | 16 => 50 | 17 => 10
  | _ => 0

/-- A scope with the weight of one event added, for the next evaluation. -/
def Scope.hit (x : Scope) (w : Nat) : Scope := { x with fresh := x.fresh + w, sinceEvent := true }

/-- Count one unit of evidence of a code in a fold's scope, or in the device's (R574, R575). -/
def State.evidence (code : Nat) (fold : Option Nat) (s : State) : State :=
  let src : UnitId := match fold with | some f => ⟨.fold, f⟩ | none => theDevice
  if s.stressed src then s
  else
    match fold with
    | some f => { s with health := { s.health with
        folds := tmod {} s.health.folds f (fun x => x.hit (evidenceWeight code)) } }
    | none => { s with health := { s.health with device := s.health.device.hit (evidenceWeight code) } }

/-- Count corrected SRAM words (code 8: one unit of evidence per 10^6). -/
def State.sramCorrectedEv (s : State) : State :=
  let n := s.health.sramWords + 1
  let s := { s with health := { s.health with sramWords := n % 1000000 } }
  if n % 1000000 = 0 then s.evidence 8 none else s

/-- Count HBM codewords corrected with 2 symbols (code 10: one unit per 10^5). -/
def State.hbm2Ev (s : State) : State :=
  let n := s.health.hbm2 + 1
  let s := { s with health := { s.health with hbm2 := n % 100000 } }
  if n % 100000 = 0 then s.evidence 10 none else s

/-- Nominal clock of an island in kHz (Table 01-3). A port island runs at the clock of its link, for which the model holds 0
(DESIGN CHOICE, log entry 84). -/
def nominalKhz : IslandKind → Nat
  | .fold => 2250000 | .group => 1800000 | .engine => 1800000 | .noc => 2000000 | .ctlCore => 1500000
  | .stackCtl => 1500000 | .port => 0

/-- Key of a clock island. -/
def islandKey (k : IslandKind) (i : Nat) : Nat :=
  (match k with | .fold => 0 | .group => 1 | .engine => 2 | .noc => 3 | .ctlCore => 4 | .stackCtl => 5 | .port => 6) *
    1000 + i

def State.island (s : State) (k : IslandKind) (i : Nat) : Island := tget {} s.dev.islands (islandKey k i)

/-- The clock an island runs at, in kHz. -/
def State.clockKhz (s : State) (k : IslandKind) (i : Nat) : Nat := (s.island k i).clock.getD (nominalKhz k)

/-- The last sensor reading of a die, 0 before the first. -/
def State.dieTemp (s : State) (d : Nat) : Int := ((s.pkg.readings.find? (fun p => p.1 == d)).map (fun p => p.2)).getD 0

/-- The operating-point snapshot of a unit (R576, Table 19-2): the supply, droop and neighbour activity that sensors
measure are free values (log entry 11). `cls` is CLASS; `shape`, `fmt` and `bin` belong to a fold. -/
def State.snapshot (s : State) (u : UnitId) (clock shape fmt cls bin : Nat) : Bytes × State :=
  let t := leBytes 2 (ofInt 16 (s.dieTemp (unitDie u)))
  let (sup, s) := s.takeFree 16
  let (droop, s) := s.takeFree 16
  let (act, s) := s.takeFree 8
  (t ++ t ++ t ++ t ++ leBytes 2 sup.toNat ++ leBytes 2 droop.toNat ++ leBytes 4 clock ++ leBytes 1 act.toNat ++
    leBytes 1 shape ++ leBytes 1 fmt ++ leBytes 1 cls ++ leBytes 2 bin ++ List.replicate 10 0#8, s)

/-- A ledger record with the snapshot of a unit that is no fold. -/
def State.ledgerSnap (type : Nat) (u : UnitId) (body : LBody) (s : State) : State :=
  let (sn, s) := s.snapshot u 0 0xFF 0 0 0xFFFF
  s.ledgerWith type u body (some sn)

/-- The tile running on a fold ends without results with a status (R174); the first one stays. -/
def State.endTile (f : Nat) (st : Status) (s : State) : State :=
  s.modFold f (fun x => { x with tile := x.tile.map (fun t => if t.ended.isNone then { t with ended := some st } else t) })

/-- Base of an LDM in radio memory (Table 09-8). -/
def ldmBase (core : Nat) : Nat := 0x14000000 + core * 524288

/-- Raise an interrupt source of a core. -/
def State.raiseIrq (core k : Nat) (s : State) : State :=
  s.modSigCore core (fun c => if bitOf c.pending k then c else { c with pending := c.pending + 2 ^ k })

/-- A DMA run that stops with a status moves nothing more. -/
def DmaRun.stop (st : Status) (r : DmaRun) : DmaRun :=
  { r with stopped := true, status := if r.status = .ok then st else r.status }

/-- A read that waited for a repair ends with a status (R362): that of the tile on a fold, or, by a number from 64 up,
that of a DMA engine's descriptor, radio class before grazing; the descriptor then delivers the data with their mark
(R390). -/
def State.endWaiter (w : Nat) (st : Status) (s : State) : State :=
  if w < 64 then s.endTile w st
  else
    let mark := fun (r : DmaRun) => ({ r with status := if r.status = .ok then st else r.status } : DmaRun)
    s.modDma ((w - 64) / 2) (fun x =>
      if w % 2 = 0 then { x with radioRun := x.radioRun.map mark } else { x with grazingRun := x.grazingRun.map mark })

/-- Set the pages' bits of the dirty bitmaps of every instance whose window holds the address (R566, R567). -/
def State.logDirty (a n : Nat) (s : State) : State :=
  s.forEach (s.insts.filter (fun p => p.2.bitmap != 0 && decide (p.2.grant.t2Base ≤ a ∧
      a < p.2.grant.t2Base + p.2.grant.t2Size)) |>.map (fun p => p.1)) (fun i s =>
    let x := s.inst i
    let lo := (a - x.grant.t2Base) / 4096
    let hi := (a + n - 1 - x.grant.t2Base) / 4096
    s.forEach ((List.range (hi - lo + 1)).map (fun k => lo + k)) (fun p s =>
      let b := x.bitmap + p / 8
      let v := s.rdField .companion b 1
      if bitOf v (p % 8) then s
      else (s.wr .companion b [BitVec.ofNat 8 (v + 2 ^ (p % 8))]).modInst i
        (fun x => { x with dirtyPages := satInc 32 x.dirtyPages })))

/-- A write to companion memory on the instances' behalf, logged before it is made (R567). -/
def State.wrCompanion (a : Nat) (bs : Bytes) (s : State) : State :=
  if bs.isEmpty then s else (s.logDirty a bs.length).wr .companion a bs

/-- The instance is ACTIVE; instance 0, the radio, always is. -/
def State.active (s : State) (i : Nat) : Bool := i == 0 || decide ((s.inst i).state = .active)

/-! ## Spoof counters (R556, R558) -/

/-- A source check of kind `k` failed (Table 18-5): SPOOF_TOTAL, SPOOF_KIND and the instance's SPOOF_COUNT each
count it, and the SPOOF event for the kind is raised at most once in 100 ms. -/
def State.countSpoof (k : Nat) (inst : Option Nat) (s : State) : State :=
  let s := match inst with
    | none => s
    | some i => s.modInst i (fun x => { x with spoofCount := satInc 32 x.spoofCount })
  let (n, since, last) := tget (0, 0, none) s.spoof.kinds k
  let due := match last with | none => true | some t => decide (t + 100000000 ≤ s.time.now)
  let e := if due then (satInc 32 n, 0, some s.time.now) else (satInc 32 n, since + 1, last)
  let s := { s with spoof := { s.spoof with total := satInc 64 s.spoof.total, event := s.spoof.event ||| 1,
                                            kinds := tset (0, 0, none) s.spoof.kinds k e } }
  if due then s.raise 15 0 theDevice (k + 2 ^ 32 * ((since + 1) % 2 ^ 32)) else s

/-- A record, write-back or event of work started under an earlier generation is discarded and counted (R561). -/
def State.staleDiscard (i : Nat) (s : State) : State :=
  let s := s.modInst i (fun x => { x with staleDiscards := satInc 32 x.staleDiscards })
  { s with spoof := { s.spoof with event := s.spoof.event ||| 2 } }

/-- A version is outside an agreement (R76): another major, or a minor above the agreed one. -/
def versionRefused (agreed v : Nat) : Bool := v / 256 != agreed / 256 || decide (agreed % 256 < v % 256)

/-! ## Commands of the mailbox interface (R90, R91, R95, R100, R102) -/

/-- The end of a command that fails a check: its status and result. -/
abbrev Err := Option (Status × Bytes)

/-- A check that fails with a status and no result. -/
def failIf (b : Bool) (st : Status) : Err := if b then some (st, []) else none

/-- The first check of a list that fails. -/
def firstErr : List Err → Err
  | [] => none
  | some e :: _ => some e
  | none :: r => firstErr r

/-- LEGAL: a bit for each state code that would allow the command. -/
def legalMask (l : List Nat) : Nat := (l.map (fun n => 2 ^ n)).sum

/-- STATE_CONFLICT with the result of Table 03-7. -/
def conflict (domain current legal object : Nat) : Status × Bytes :=
  (.stateConflict, leBytes 1 domain ++ leBytes 1 current ++ leBytes 2 0 ++ leBytes 4 legal ++ leBytes 8 object)

/-- A STATE_CONFLICT check. -/
def conflictIf (b : Bool) (domain current legal object : Nat) : Err :=
  if b then some (conflict domain current legal object) else none

/-- An instance whose state is not among those of Table 18-2 (R550). -/
def State.instConflict (s : State) (i : Nat) (legal : List Nat) : Err :=
  conflictIf (i != 0 && !legal.contains (s.inst i).state.code) 2 (s.inst i).state.code (legalMask legal) i

/-- OBJECT of a unit in Table 03-7. -/
def unitObject (u : UnitId) : Nat := typeCode u.ty + 65536 * u.idx

/-- One row of Table 03-9: opcode, roles M G R T, device states, long. -/
structure CmdRow where
  op : Nat
  roles : List Role
  states : List Nat
  long : Bool := false
  deriving DecidableEq, Repr

def rolesAll : List Role := [.manager, .group, .radio, .tenant]

/-- Table 03-9, first half. -/
def catalogueA : List CmdRow :=
  [⟨0x0001, rolesAll, [0, 1, 2, 3, 4, 5, 6, 7, 8, 9], false⟩,
   ⟨0x0002, [.manager], [1, 2, 3, 4, 5, 6, 7, 8, 9], false⟩,
   ⟨0x0003, rolesAll, [0, 1, 2, 3, 4, 5, 6, 7, 8, 9], false⟩,
   ⟨0x0004, [.manager], [1], false⟩,
   ⟨0x0005, [.manager], [2], false⟩,
   ⟨0x0006, [.manager], [0, 1, 2, 3, 4, 5, 6, 7, 8, 9], false⟩,
   ⟨0x0007, [.manager], [1, 2, 3, 4, 5, 6, 7, 8, 9], false⟩,
   ⟨0x0008, [.manager], [1, 2, 3, 4, 5, 6, 7, 8, 9], false⟩,
   ⟨0x0101, [.manager], [2, 3, 4, 7, 8], false⟩,
   ⟨0x0102, [.manager], [2, 3, 4, 7, 8, 9], false⟩,
   ⟨0x0103, [.manager, .tenant], [3, 4, 7, 8, 9], false⟩,
   ⟨0x0104, [.manager], [3, 4, 7, 8], false⟩,
   ⟨0x0105, [.manager], [3, 4, 7, 8], true⟩,
   ⟨0x0106, [.manager], [2, 3, 4, 7, 8], true⟩,
   ⟨0x0107, [.manager], [3, 4, 7, 8], false⟩,
   ⟨0x0108, [.manager], [3, 4, 7, 8], false⟩,
   ⟨0x0109, [.manager], [2, 3, 4, 7, 8], false⟩,
   ⟨0x0201, [.radio], [2, 3, 4, 8], false⟩,
   ⟨0x0202, [.radio], [2, 3, 4, 6, 8], false⟩,
   ⟨0x0203, [.radio], [3, 4, 8], false⟩,
   ⟨0x0204, [.manager], [2, 3, 4, 8], false⟩,
   ⟨0x0205, [.manager], [2, 3, 4, 8], false⟩,
   ⟨0x0206, [.radio], [2, 3, 4, 8], true⟩,
   ⟨0x0301, [.tenant, .radio], [2, 3, 4, 7, 8], false⟩,
   ⟨0x0302, [.tenant, .radio], [2, 3, 4, 7, 8], false⟩,
   ⟨0x0303, [.tenant, .radio], [2, 3, 4, 7, 8], false⟩,
   ⟨0x0304, [.tenant, .radio], [2, 3, 4, 7, 8], false⟩,
   ⟨0x0305, [.tenant, .radio], [2, 3, 4, 7, 8], false⟩,
   ⟨0x0306, [.tenant, .radio], [2, 3, 4, 7, 8], false⟩]

/-- Table 03-9, second half. -/
def catalogueB : List CmdRow :=
  [⟨0x0401, [.manager, .tenant, .radio], [2, 3, 4, 7, 8], false⟩,
   ⟨0x0402, [.manager], [2, 3, 4, 7, 8], false⟩,
   ⟨0x0403, [.manager], [2, 3, 4, 5, 6, 7, 8, 9], false⟩,
   ⟨0x0404, [.manager, .group], [1, 2, 3, 4, 5, 6, 7, 8, 9], false⟩,
   ⟨0x0501, [.manager], [1, 2, 3, 4, 5, 6, 7, 8, 9], false⟩,
   ⟨0x0502, [.manager], [1, 2, 3, 4, 5, 6, 7, 8, 9], false⟩,
   ⟨0x0503, [.manager], [1, 2, 3, 4, 5, 6, 7, 8, 9], false⟩,
   ⟨0x0601, [.manager, .group], [3, 8], false⟩,
   ⟨0x0602, [.group], [7, 9], true⟩,
   ⟨0x0603, [.group], [3, 7, 8, 9], true⟩,
   ⟨0x0604, [.group], [3, 4, 6, 7, 8], false⟩,
   ⟨0x0605, [.group], [9], false⟩,
   ⟨0x0606, [.manager, .group], [3, 4, 7, 8, 9], false⟩,
   ⟨0x0607, [.manager, .group], [3, 4, 7, 8, 9], false⟩,
   ⟨0x0608, [.group], [2, 3], false⟩,
   ⟨0x0609, [.group], [7], true⟩,
   ⟨0x060A, [.manager, .group], [1, 2, 3, 4, 5, 6, 7, 8, 9], true⟩,
   ⟨0x060B, [.manager, .group], [1, 2, 3, 4, 5, 6, 7, 8, 9], false⟩,
   ⟨0x0701, [.manager], [2, 3, 4, 8], false⟩,
   ⟨0x0702, [.manager, .group], [1, 2, 3, 4, 5, 6, 7, 8, 9], false⟩,
   ⟨0x07F0, [.manager], [0], true⟩,
   ⟨0x0801, [.manager], [3, 4, 5, 7], true⟩,
   ⟨0x0802, [.manager], [3, 4, 7, 8], true⟩,
   ⟨0x0803, [.manager], [2, 3, 4, 7], false⟩,
   ⟨0x0901, [.manager], [3, 4, 7, 8, 9], false⟩,
   ⟨0x0902, [.manager], [3, 4, 7, 8, 9], false⟩,
   ⟨0x0903, [.manager], [3, 4, 7, 8, 9], false⟩]

/-- Table 03-9. -/
def catalogue : List CmdRow := catalogueA ++ catalogueB

def catalogueRow (op : Nat) : Option CmdRow := catalogue.find? (fun r => r.op == op)

/-- The role may issue the opcode (R102): the manager also every TENANT and RADIO command. -/
def CmdRow.allows (r : CmdRow) (role : Role) : Bool :=
  r.roles.contains role || (decide (role = .manager) && (r.roles.contains .tenant || r.roles.contains .radio))

/-- An argument byte string's field: argument offset `i` counts from byte 0x20 of the slot. -/
def Cmd.arg (c : Cmd) (i n : Nat) : Nat := fieldAt c.args (i - 0x20) n

/-- Check 5 of R90, its part that is the same for every command (R81): a misaligned ARG_POINTER, an ARG_LENGTH
above 224 with INDIRECT 0. -/
def Cmd.shapeOk (c : Cmd) : Bool :=
  if c.indirect then c.argPointer % 64 == 0 else decide (c.argLength ≤ 224)

/-- ARG_LENGTH is the one the command takes (R673). -/
def Cmd.lenIs (c : Cmd) (n : Nat) : Err := failIf (c.argLength != n) .badArg

/-- What the checks say of the command with this opcode that waits on mailbox `m` while its control core runs: the
command and the first check that fails. `early` holds the checks up to 5 that belong to the command, `states` the
device states that allow it with these arguments (check 6), `late` checks 7 to 11 in their order (R90). -/
def State.verdict (m op : Nat) (early : Cmd → State → List Err) (states : Cmd → List Nat)
    (late : Cmd → State → List Err) (s : State) : Option (Cmd × Err) :=
  match (s.mbox m).current with
  | none => none
  | some c =>
    if c.opcode != op || (s.core (serverOf m)).restarting then none
    else
      let long := match catalogueRow op with | none => false | some r => r.long
      some (c, firstErr (early c s ++ [failIf (!c.shapeOk) .badArg,
          conflictIf (!(states c).contains s.dev.dstate.code) 0 s.dev.dstate.code (legalMask (states c)) 0] ++
          late c s ++ [failIf (long && decide (4 ≤ (s.mbox m).long.length)) .capacity]))

/-- Run the command taken up from mailbox `m`: nothing happens unless one with this opcode waits there and its control
core runs; a check that fails ends it with that status; else `effect` answers the new state, the result and PENDING
(R90, R91, R95). -/
def State.runCommand (m op : Nat) (early : Cmd → State → List Err) (states : Cmd → List Nat)
    (late : Cmd → State → List Err) (effect : Cmd → State → State × Bytes × Bool) (s : State) : State :=
  match s.verdict m op early states late with
  | none => s
  | some (c, some e) => s.respond m c e.1 e.2 false
  | some (c, none) =>
    let (s', result, pending) := effect c s
    let s' := if pending then s'.modMbox m (fun b => { b with long := b.long ++ [⟨op, c.seq⟩] }) else s'
    s'.respond m c .ok result pending

/-- The device states of Table 03-9 for an opcode. -/
def statesOf (op : Nat) : List Nat := match catalogueRow op with | none => [] | some r => r.states

/-- The long command named is pending on its mailbox. -/
def State.longPending (s : State) (m opcode : Nat) : Option LongCmd :=
  (s.mbox m).long.find? (fun l => l.opcode == opcode)

/-! ## HBM lines that the companion holds (R641 to R643) -/

/-- Lines that `n` bytes of HBM touch and the companion holds: exclusively, or with `any` at all. -/
def State.linesHeld (s : State) (a n : Nat) (any : Bool) : List Nat :=
  (s.power.filter.filter (fun p => decide (n ≠ 0 ∧ a / 64 ≤ p.1 ∧ p.1 ≤ (a + n - 1) / 64) &&
    (any || decide (p.2.1 ≠ .sharedClean)))).map (fun p => p.1)

/-- What the snoop filter says of a line (Table 21-7), with its order of entry. -/
def State.lineState (s : State) (line : Nat) : LineState := (tget (.invalid, 0) s.power.filter line).1

/-- A line leaves the filter. -/
def State.dropLine (line : Nat) (s : State) : State := s.modPower (fun p => { p with filter := tdel p.filter line })

/-! ## Messages of the Fyfoyx link (R640) -/

def creditsOf (x : FyfCredits) : FyfClass → Nat
  | .request => x.request | .snoop => x.snoop | .response => x.response | .data => x.data

def takeCredits (c : FyfClass) (n : Nat) (x : FyfCredits) : FyfCredits :=
  match c with
  | .request => { x with request := x.request - n }
  | .snoop => { x with snoop := x.snoop - n }
  | .response => { x with response := x.response - n }
  | .data => { x with data := x.data - n }

/-- Initial credits each way (Table 21-6). -/
def initialCredits : FyfCredits := ⟨512, 256, 1024, 2048⟩

/-- A message leaves on credits of its class, behind those of its class that wait (R640); a transfer of more lines than the
class has credits leaves on all of them. -/
def State.sendMsg (cls : FyfClass) (n : Nat) (o : Output) (s : State) : State :=
  let k := min n (creditsOf initialCredits cls)
  if s.power.msgs.any (fun m => m.cls == cls) || decide (creditsOf s.power.credits cls < k) then
    s.modPower (fun p => { p with msgs := p.msgs ++ [⟨cls, k, o⟩] })
  else (s.modPower (fun p => { p with credits := takeCredits cls k p.credits })).emit o

/-- A completion without data, or one that carries the lines its bytes touch. -/
def State.complete (lines : Nat) (o : Output) (s : State) : State :=
  if lines = 0 then s.sendMsg .response 1 o else s.sendMsg .data lines o

/-- A recall leaves for the companion (R642). -/
def State.sendRecall (line : Nat) (s : State) : State :=
  (s.modPower (fun p => { p with sfRecalls := satInc 32 p.sfRecalls })).sendMsg .snoop 1 (.recall line)

/-- A recall of the lines that an access needs, answered within the step: what the companion wrote into a line it held
exclusively is a free value, and the credit of the recall is back with the answer (log entries 45, 93). Only the accesses of R642 that have a step of their own wait. -/
def State.recallNow (a n : Nat) (any : Bool) (s : State) : State :=
  s.forEach (s.linesHeld a n any) (fun l s =>
    let excl := decide (s.lineState l ≠ .sharedClean)
    let s := ((s.modPower (fun p => { p with sfRecalls := satInc 32 p.sfRecalls })).emit (.recall l)).dropLine l
    if excl then (let (b, s) := s.takeFree 512; s.wr .hbm (64 * l) (leBytes 64 b.toNat)) else s)

/-- An access waits for the recall of a line, which leaves unless it is under way. -/
def State.startRecall (w : Held) (line : Nat) (s : State) : State :=
  let ws := match w with | .none => [] | w => [w]
  match s.power.recalls.find? (fun p => p.1 == line) with
  | some _ => s.modPower (fun p => { p with recalls := p.recalls.map (fun q => if q.1 = line then (q.1, q.2 ++ ws) else q) })
  | none => (s.modPower (fun p => { p with recalls := p.recalls ++ [(line, ws)] })).sendRecall line

end Sys2Proof.Machine
end

