-- ==== Sys2Proof/Machine/TierOps.lean ====
section
/-! DEFINITION. Objects, copies, tier references, charges, allocation, poison and repair: the operations of
chapter 11 that commands, tiles and DMA share. A copy is unique in its tier (R347). -/

namespace Sys2Proof.Machine

/-- A chunk of the tier mover (R339). -/
def chunkSize : Nat := 65536

/-! ## Handles (R340, R341) -/

/-- The handle of entry `e` for an instance. -/
def State.handleOf (s : State) (e inst : Nat) : Nat :=
  e + 2 ^ 20 * (s.obj e).refGen + 2 ^ 32 * inst + 2 ^ 48 * (s.deviceInc % 65536)

def hdlEntry (h : Nat) : Nat := bitsOf h 0 20
def hdlGen (h : Nat) : Nat := bitsOf h 20 8
def hdlInst (h : Nat) : Nat := bitsOf h 32 8
def hdlInc (h : Nat) : Nat := bitsOf h 48 16

/-- The handle is stale (R341): another device incarnation, another use of the entry, or no reference held. -/
def State.stale (s : State) (h : Nat) : Bool :=
  let o := s.obj (hdlEntry h)
  hdlInc h != s.deviceInc % 65536 || !o.live || o.refGen != hdlGen h || !o.holders.contains (hdlInst h)

/-- What R341 answers for a handle used by an instance. -/
def State.handleStatus (s : State) (h inst : Nat) : Option Status :=
  if hdlInst h ≠ inst then some .badArg else if s.stale h then some .staleHandle else none

/-! ## Objects and copies -/

def Obj.chunks (o : Obj) : Nat := o.size / chunkSize
def Obj.copy (o : Obj) (t : Nat) : Option Copy := o.copies.find? (fun c => c.tier == t)
def Obj.setCopy (o : Obj) (t : Nat) (c : Option Copy) : Obj :=
  let rest := o.copies.filter (fun x => x.tier != t)
  match c with
  | none => { o with copies := rest }
  | some c => { o with copies := rest.filter (fun x => x.tier < t) ++ [c] ++ rest.filter (fun x => t < x.tier) }
def Obj.modCopy (o : Obj) (t : Nat) (f : Copy → Copy) : Obj :=
  { o with copies := o.copies.map (fun c => if c.tier = t then f c else c) }
def State.modCopy (s : State) (e t : Nat) (f : Copy → Copy) : State := s.modObj e (fun o => o.modCopy t f)

/-- The residency state in a tier (R347): a home range outside the device is RESIDENT. -/
def Obj.stateIn (o : Obj) (t : Nat) : CState :=
  match o.copy t with
  | some c => c.state
  | none => if 2 ≤ t ∧ o.home = t then .resident else .absent

/-- An instance holds a tier reference. -/
def Obj.refIn (o : Obj) (inst t : Nat) : Bool := o.refs.any (fun r => r.inst == inst && r.tier == t)

/-- Number of chunk moves of a whole copy: each part takes each chunk. -/
def Copy.moves (c : Copy) (o : Obj) : Nat := o.chunks * c.parts.length

def Copy.movePart (c : Copy) (mv : Nat) : Nat := mv % c.parts.length
def Copy.moveChunk (c : Copy) (mv : Nat) : Nat := mv / c.parts.length

/-- Where chunk `k` of part `p` lies. -/
def Copy.place' (c : Copy) (p k : Nat) : Option (Space × Nat) :=
  match c.parts[p]? with
  | none => none
  | some x => match x.chunks[k]? with | none => none | some a => some (x.space, a)

/-- The line or chunk at an address carries poison. -/
def State.chunkPoisoned (s : State) (sp : Space) (a : Nat) : Bool := s.mem.poisoned (key sp a) chunkSize

/-- Chunk `k` of part `p` of a copy is clean. -/
def State.partClean (s : State) (c : Copy) (p k : Nat) : Bool :=
  match c.place' p k with
  | none => false
  | some (sp, a) => !s.chunkPoisoned sp a

/-- The array die on which a space lies (R338); none for what lies on neither. -/
def spaceDie (sp : Space) (a : Nat) : Option Nat :=
  match sp with
  | .hbm => some (if a < 0xC000000000 then 0 else 1)
  | .commons d => some d
  | .sram f => some (f / 16)
  | .radio | .companion | .port _ => none

/-- The stack a byte of HBM lies on (R338): 0 to 15. -/
def stackOf (a : Nat) : Nat := 8 * (if a < 0xC000000000 then 0 else 1) + a / 256 % 8

/-- Poisoned moves of a copy. -/
def State.poisonedMoves (s : State) (o : Obj) (c : Copy) : List Nat :=
  (List.range (c.moves o)).filter (fun mv => !s.partClean c (c.movePart mv) (c.moveChunk mv))

/-! ## Allocation (R339, R343) -/

/-- The first `n` chunk numbers from `k`, below `hi`, that are not in use; `fuel` bounds the search. -/
def firstFree (used : List Nat) (hi : Nat) : Nat → Nat → Nat → List Nat → Option (List Nat)
  | _, _, 0, acc => some acc.reverse
  | 0, _, _ + 1, _ => none
  | fuel + 1, k, n + 1, acc =>
    if hi ≤ k then none
    else if used.contains k then firstFree used hi fuel (k + 1) (n + 1) acc
    else firstFree used hi fuel (k + 1) n (k :: acc)

/-- `n` free chunk bases of a space between two bounds, lowest first (log entry 12). -/
def allocChunks (used : List Nat) (lo hi n : Nat) : Option (List Nat) :=
  let us := used.map (fun a => a / chunkSize)
  (firstFree us (hi / chunkSize) (us.length + n) (lo / chunkSize) n []).map (fun l => l.map (fun k => k * chunkSize))

/-- Chunk bases in use in a space by any copy. -/
def State.usedChunks (s : State) (sp : Space) : List Nat :=
  s.tiers.objs.flatMap (fun p => p.2.copies.flatMap (fun c =>
    c.parts.flatMap (fun x => if x.space = sp then x.chunks else [])))

/-- Free T1 chunks of a die; the first 4 GiB of each half are Obesk's, retired chunks are never used (R339, R369). -/
def State.allocHbm (s : State) (d n : Nat) : Option (List Nat) :=
  allocChunks (s.usedChunks .hbm ++ s.tiers.retired.map (fun p => p.1))
    (d * 0xC000000000 + 4 * 2 ^ 30) ((d + 1) * 0xC000000000) n

/-- Interleave two lists, the first first. -/
def interleave : List Nat → List Nat → List Nat
  | [], b => b
  | a :: as, [] => a :: as
  | a :: as, b :: bs => a :: b :: interleave as bs

/-- The chunks of a T1 copy by PLACE_T1. -/
def State.allocT1 (s : State) (place n : Nat) : Option (List Nat) :=
  if place = 1 then s.allocHbm 0 n
  else if place = 2 then s.allocHbm 1 n
  else
    match s.allocHbm 0 (ceilDiv n 2), s.allocHbm 1 (n / 2) with
    | some a, some b => some (interleave a b)
    | _, _ => none

/-- Chunks of a commons. -/
def State.allocCommons (s : State) (d n : Nat) : Option (List Nat) :=
  allocChunks (s.usedChunks (.commons d)) 0 (384 * 2 ^ 20) n

/-- The folds and slots on which a context is resident. -/
def State.residence (s : State) (inst ctx : Nat) : List (Nat × Nat) :=
  s.folds.flatMap (fun p => (p.2.slots.filter (fun q =>
    decide (q.2.state ≠ .empty ∧ q.2.state ≠ .releasing) && q.2.inst == inst && q.2.ctxId == ctx)).map (fun q => (p.1, q.1)))

/-- Chunks of a context's share on a fold, outside its spill area. -/
def State.allocShare (s : State) (f slot n : Nat) : Option (List Nat) :=
  let x := (s.fold f).slot slot
  allocChunks (s.usedChunks (.sram f)) x.shareBase x.spillBase n

/-- Chunks of an instance's T2 region. -/
def State.allocT2 (s : State) (inst n : Nat) : Option (List Nat) :=
  let g := (s.inst inst).grant
  allocChunks (s.usedChunks .companion) (ceilDiv g.t2Base chunkSize * chunkSize) (g.t2Base + g.t2Size) n

/-- Options of a list, all or none. -/
def allSome {α : Type} : List (Option α) → Option (List α)
  | [] => some []
  | none :: _ => none
  | some a :: r => (allSome r).map (fun l => a :: l)

/-- The parts of a new copy (R352), none where its tier has no room. -/
def State.newParts (s : State) (tier place inst ctx n : Nat) : Option (List Part) :=
  match tier with
  | 0 =>
    if place = 3 then
      allSome ((s.residence inst ctx).map (fun p => (s.allocShare p.1 p.2 n).map (fun l => ⟨.sram p.1, l⟩)))
    else
      allSome (((if place = 0 then [0, 1] else [place - 1]).map
        (fun d => (s.allocCommons d n).map (fun l => ⟨.commons d, l⟩))))
  | 1 => (s.allocT1 place n).map (fun l => [⟨.hbm, l⟩])
  | _ => (s.allocT2 inst n).map (fun l => [⟨.companion, l⟩])

/-! ## Charges (R356, Table 11-7) -/

/-- Bytes of fold shares of an instance's resident contexts. -/
def State.shareBytes (s : State) (inst : Nat) : Nat :=
  (s.folds.flatMap (fun p => p.2.slots.map (fun q =>
    if q.2.state ≠ .empty ∧ q.2.inst = inst then q.2.shareSize else 0))).sum

/-- Charge of one copy. -/
def Copy.charge (c : Copy) (o : Obj) : Nat :=
  match c.place with
  | .share _ _ => 0
  | _ => o.size * c.parts.length

/-- An instance's charge in a tier. -/
def State.charge (s : State) (inst tier : Nat) : Nat :=
  (if tier = 0 then s.shareBytes inst else 0) +
  (s.tiers.objs.map (fun p =>
    match p.2.copy tier with
    | some c => if p.2.refIn inst tier then c.charge p.2 else 0
    | none => 0)).sum

/-- An instance's quota in a tier. -/
def State.quota (s : State) (inst tier : Nat) : Nat :=
  let g := (s.inst inst).grant
  match tier with | 0 => g.quotaT0 | 1 => g.quotaT1 | _ => g.quotaT2

/-- `n` more bytes do not fit the quota; instance 0 has none. -/
def State.overQuota (s : State) (inst tier n : Nat) : Bool :=
  inst != 0 && decide (s.quota inst tier < s.charge inst tier + n)

/-! ## Freeing (R346, R351, R353) -/

/-- A tile or a DMA descriptor under way reads or writes the object: it keeps the copies it uses until it completes
(R346). -/
def State.inUse (s : State) (e : Nat) : Bool :=
  let side := fun (d : Bytes) (sp h : Nat) => byteAt d sp / 16 == 3 && hdlEntry (fieldAt d h 8) == e
  let run := fun (r : DmaRun) => side r.desc 23 64 || side r.desc 31 72
  s.folds.any (fun p => match p.2.tile with
    | some t => hdlEntry t.entry.weight == e && decide (t.entry.weight ≠ 0)
    | none => false) ||
  s.dma.any (fun p => p.2.radioRun.any run || p.2.grazingRun.any run)

/-- Free the entry of an object that nothing refers to and nothing uses any more, advancing REF_GEN (R340, R346). -/
def State.settleEntry (e : Nat) (s : State) : State :=
  let o := s.obj e
  if !s.inUse e && o.live && o.holders.isEmpty && o.refs.isEmpty && (o.copies.filter (fun c => decide (c.tier < 2))).isEmpty then
    s.modObj e (fun o => { refGen := if o.refGen = 255 then 1 else o.refGen + 1 })
  else s

/-- The copy in a tier becomes ABSENT. -/
def State.dropCopy (e t : Nat) (s : State) : State :=
  (s.modObj e (fun o => o.setCopy t none)).settleEntry e

/-- Copies that are drained in full and were kept for a reader become ABSENT once it has completed, and entries that waited
for one are freed (R346, R348). -/
def State.settleDrained (s : State) : State :=
  s.forEach (s.tiers.objs.map (fun p => p.1)) (fun e s =>
    let o := s.obj e
    if s.inUse e then s
    else
      (s.forEach ((o.copies.filter (fun c => decide (c.state = .draining ∧ c.moves o ≤ c.filled.length))).map (fun c => c.tier))
        (State.dropCopy e)).settleEntry e)

/-- A chunk of the copy is in transit. -/
def State.inTransit (s : State) (e t : Nat) : Bool :=
  s.tiers.movers.any (fun p => p.2.chans.any (fun q =>
    match q.2 with | some x => x.obj == e && x.tier == t | none => false))

/-- The next number of acceptance (R354). -/
def State.nextOrder (s : State) : Nat × State :=
  (s.tiers.accepted, { s with tiers := { s.tiers with accepted := s.tiers.accepted + 1 } })

/-- The half that counts what concerns a copy: that of its first part's die. -/
def Copy.half (c : Copy) : Nat :=
  match c.parts with
  | x :: _ => (spaceDie x.space (x.chunks.headD 0)).getD 0
  | [] => 0

/-- What becomes of a copy that no reference covers any more (R348, R353). -/
def State.unreferenced (e t : Nat) (s : State) : State :=
  let o := s.obj e
  match o.copy t with
  | none => s.settleEntry e
  | some c =>
    if o.refs.any (fun r => r.tier == t) then s
    else
      match c.state with
      | .filling =>
        let s := s.modMover c.half (fun m => { m with cancelled := satInc 32 m.cancelled })
        if s.inTransit e t then s.modCopy e t (fun c => { c with cancelled := true }) else s.dropCopy e t
      | .poisoned | .repair =>
        if o.readonly then s.dropCopy e t
        else
          let (n, s) := s.nextOrder
          s.modCopy e t (fun c => { c with state := .draining, filled := [], order := n })
      | .resident =>
        let (n, s) := s.nextOrder
        s.modCopy e t (fun c => { c with state := .draining, filled := [], order := n })
      | .draining => s
      | .absent => s.dropCopy e t

/-- An instance's tier reference goes, with its charge (R351). -/
def State.dropRef (e inst t : Nat) (s : State) : State :=
  (s.modObj e (fun o => { o with refs := o.refs.filter (fun r => !(r.inst == inst && r.tier == t)) })).unreferenced e t

/-! ## Sources (R349, R354, R361) -/

/-- The other clean places on the device that hold a chunk, lowest tier first; the part being filled is left out. -/
def State.cleanPlaces (s : State) (o : Obj) (tier part k : Nat) : List (Space × Nat) :=
  o.copies.flatMap (fun c =>
    if c.state = .filling ∨ c.state = .absent then []
    else if 2 ≤ c.tier then []
    else ((List.range c.parts.length).filterMap (fun p =>
      if c.tier = tier ∧ p = part then none
      else if s.partClean c p k then c.place' p k else none)))

/-- A companion or rack address by the form of OBJ_ALTERNATE: bit 63 selects T3. -/
def rangeSource (a k : Nat) : Option (Space × Nat) :=
  if bitOf a 63 then none else some (.companion, a + k * chunkSize)

/-- The home range outside the device, as a source; the SOURCE of a HOME 1 object during its one fill. -/
def Obj.homeSource (o : Obj) (k : Nat) : List (Option (Space × Nat)) :=
  if o.home = 2 then [some (.companion, o.source + k * chunkSize)]
  else if o.home = 3 then [none]
  else []

/-- T2 copies as sources. -/
def State.t2Places (_s : State) (o : Obj) (tier k : Nat) : List (Option (Space × Nat)) :=
  if tier = 2 then []
  else
    match o.copy 2 with
    | some c => if c.state = .resident ∨ c.state = .draining then [c.place' 0 k] else []
    | none => []

/-- The sources of a repair, in the order of R361; a KIND 3 object is repaired only on the device. -/
def State.repairSources (s : State) (o : Obj) (tier part k : Nat) : List (Option (Space × Nat)) :=
  (s.cleanPlaces o tier part k).map some ++
    (if o.kind = 3 then []
     else s.t2Places o tier k ++ o.homeSource k ++ o.alternates.map (fun a => rangeSource a k))

/-- The source of a chunk of a fill (R354), and whether it lies in T2 or T3 or is the SOURCE of a HOME 1 object. -/
def State.fillSource (s : State) (o : Obj) (tier part k : Nat) : Option (Space × Nat) × Bool :=
  match s.cleanPlaces o tier part k with
  | p :: _ => (some p, false)
  | [] =>
    match s.t2Places o tier k ++ o.homeSource k with
    | r :: _ => (r, true)
    | [] =>
      -- no clean source: a HOME 1 object's SOURCE, or the poisoned chunk of the next copy with its mark
      if o.home = 1 ∧ tier = 1 then (some (.companion, o.source + k * chunkSize), true)
      else
        match (o.copies.filter (fun c => c.tier != tier)).head? with
        | some c => ((c.place' 0 k), false)
        | none => (some (.companion, o.source + k * chunkSize), true)

/-! ## Poison (R360 to R363) -/

/-- Start the repair of a poisoned copy of a READONLY object where every poisoned chunk has a source (R361). -/
def State.startRepair (e t : Nat) (s : State) : State :=
  let o := s.obj e
  match o.copy t with
  | some c =>
    if c.state = .poisoned ∧ o.readonly then
      let todo := s.poisonedMoves o c
      if todo.any (fun mv => !(s.repairSources o t (c.movePart mv) (c.moveChunk mv)).isEmpty) then
        let (n, s) := s.nextOrder
        s.modCopy e t (fun c => { c with state := .repair, repairTodo := todo.map (fun mv => (mv, 0)), order := n,
                                         radio := decide (o.kind = 3) })
      else s
    else s
  | none => s

/-- TIER_ERROR to every instance with a reference (R360). -/
def State.tierError (e : Nat) (st : Status) (s : State) : State :=
  s.forEach (s.obj e).holders (fun i s => s.raise 12 i theDevice (s.handleOf e i + 2 ^ 64 * st.code))

/-- What follows when a chunk of a copy holds poison (R360): the copy changes state, TIER_ERROR is raised, an error
just detected counts as evidence, and a repair starts where it can. -/
def State.notePoison (e t part k : Nat) (detected : Bool) (s : State) : State :=
  let o := s.obj e
  match o.copy t with
  | none => s
  | some c =>
    match c.place' part k with
    | none => s
    | some (sp, a) =>
      let s := s.modMover ((spaceDie sp a).getD 0) (fun m =>
        { m with poisoned := satInc 32 m.poisoned, event := m.event ||| 1 })
      let mv := k * c.parts.length + part
      let s := s.modCopy e t (fun c =>
        match c.state with
        | .filling => { c with fillPoisoned := true }
        | .repair =>
          { c with repairTodo := if c.repairTodo.any (fun q => q.1 == mv) then c.repairTodo else c.repairTodo ++ [(mv, 0)] }
        | _ => { c with state := .poisoned })
      let s := s.tierError e (if o.readonly then .tierUncorrectable else .poisoned)
      let s := s.ledgerSnap 9 theDevice (.memError t a 1)
      let s := if detected then
          (match sp with
           | .sram f => s.evidence 9 (some f)
           | .commons _ => s.evidence 9 none
           | .hbm => s.evidence 11 none
           | _ => s)
        else s
      s.startRepair e t

/-- The word or codeword of an address: 64 bits of SRAM (R365), 32 bytes of T1 (R366). -/
def protUnit (sp : Space) (a : Nat) : Nat × Nat := if sp = .hbm then (a / 32 * 32, 32) else (a / 8 * 8, 8)

/-- A chunk of a copy is poisoned (R360): all of it is marked, or the word or codeword named by its offset in the
chunk. -/
def State.poisonChunk (e t part k : Nat) (line : Option Nat) (detected : Bool) (s : State) : State :=
  match (s.obj e).copy t with
  | none => s
  | some c =>
    match c.place' part k with
    | none => s
    | some (sp, a) =>
      let r := match line with | none => (a, chunkSize) | some l => protUnit sp (a + l)
      ({ s with mem := s.mem.markN (key sp r.1) r.2 }).notePoison e t part k detected

/-- After whole lines were written: a writable copy with no poisoned chunk left is RESIDENT (R363). -/
def State.cleanCopy (e t : Nat) (s : State) : State :=
  let o := s.obj e
  match o.copy t with
  | some c =>
    if c.state = .poisoned ∧ !o.readonly ∧ (s.poisonedMoves o c).isEmpty then
      s.modCopy e t (fun c => { c with state := .resident })
    else s
  | none => s

/-! ## Reads and writes by handle (R349, R350, R362, R363) -/

/-- What a read of a chunk by handle meets. -/
inductive ReadPlan where
  /-- served from this address; the flag says that it lies in T2 -/
  | at' (sp : Space) (a : Nat) (low : Bool)
  /-- served from the rack window (T3) -/
  | remote
  /-- waits for the chunk of a fill (R349) -/
  | waitFill
  /-- waits for the chunk of a repair (R362) -/
  | waitRepair
  /-- ends with this status: the chunk is poisoned, or the object has no content -/
  | ends (st : Status)
  deriving DecidableEq, Repr

/-- The part of a copy that a reader on fold `f` (of the baseband or of an I/O die, none) takes. -/
def Copy.partFor (c : Copy) (f : Option Nat) : Nat :=
  let want := fun (x : Part) =>
    match f, x.space with
    | some f, .sram g => f == g
    | some f, .commons d => f / 16 == d
    | none, .sram _ => false
    | _, _ => true
  match c.parts.findIdx? want with
  | some i => i
  | none => 0

/-- A fold-share copy serves only the folds it lies on. -/
def Copy.serves (c : Copy) (f : Option Nat) : Bool :=
  match c.place with
  | .share _ _ => (match f with | some f => c.parts.any (fun x => x.space == .sram f) | none => false)
  | _ => true

/-- A copy from which reads are served at all (Table 11-4). -/
def CState.readable : CState → Bool
  | .resident | .draining | .poisoned | .repair => true
  | _ => false

/-- The copies a read may be served from, lowest tier first (R349, R350): of a writable object only the uppermost;
while a READONLY object is in REPAIR none below T1. -/
def Obj.servers (o : Obj) (f : Option Nat) : List Copy :=
  let l := o.copies.filter (fun c => c.state.readable && c.serves f)
  if !o.readonly then l.take 1
  else if o.copies.any (fun c => decide (c.state = .repair)) then l.filter (fun c => decide (c.tier ≤ 1))
  else l

/-- Where a read of chunk `k` by a reader on fold `f` is served (R349, R362, R363). -/
def State.readPlan (s : State) (e k : Nat) (f : Option Nat) : ReadPlan :=
  let o := s.obj e
  let sv := o.servers f
  match sv.findSome? (fun c => if s.partClean c (c.partFor f) k then (c.place' (c.partFor f) k).map (fun p => (p, c.tier)) else none) with
  | some ((sp, a), t) => .at' sp a (decide (2 ≤ t))
  | none =>
    let repairing := o.copies.any (fun c => decide (c.state = .repair))
    let homeOut := decide (2 ≤ o.home) && (o.readonly && !repairing || (!o.readonly && sv.isEmpty))
    if homeOut then (if o.home = 2 then .at' .companion (o.source + k * chunkSize) true else .remote)
    else if repairing then .waitRepair
    else if !sv.isEmpty then .ends (if o.readonly then .tierUncorrectable else .poisoned)
    else
      match o.copies.find? (fun c => decide (c.state = .filling) && c.serves f) with
      | some c =>
        let mv := k * c.parts.length + c.partFor f
        if c.filled.contains mv then
          (match c.place' (c.partFor f) k with
           | some (sp, a) =>
             if s.chunkPoisoned sp a then .ends (if o.readonly then .tierUncorrectable else .poisoned) else .at' sp a false
           | none => .waitFill)
        else .waitFill
      | none => .ends .staleHandle

/-- The uppermost copy that takes writes (R350). -/
def Obj.writer (o : Obj) : Option Copy :=
  o.copies.find? (fun c => decide (c.state = .resident ∨ c.state = .draining ∨ c.state = .poisoned))

/-- A write over FIRST_BLOCK of a report area starts the search for a first block anew (R143). -/
def Obj.noteWrite (o : Obj) (off n : Nat) : Obj :=
  if off < 0x20 ∧ 0x18 < off + n then { o with firstIsZero := false } else o

/-- Write bytes at an offset of a writable object by its handle: into every part of the uppermost copy, whose chunk
is dirty until it is written back, or into its home range in T2 (R350, R363). -/
def State.objWrite (e off : Nat) (bs : Bytes) (s : State) : State :=
  let s := if (s.obj e).firstIsZero then s.modObj e (fun o => o.noteWrite off bs.length) else s
  let o := s.obj e
  match o.writer with
  | some c =>
    let k := off / chunkSize
    let s := s.forEach (List.range c.parts.length) (fun p s =>
      match c.place' p k with
      | some (sp, a) =>
        (if sp = .hbm then s.recallNow (a + off % chunkSize) bs.length true else s).wr sp (a + off % chunkSize) bs
      | none => s)
    let s := s.modCopy e c.tier (fun c =>
      { c with dirty := if c.dirty.contains k then c.dirty else c.dirty ++ [k]
               filled := if c.state = .draining then c.filled.filter (fun mv => mv / c.parts.length != k) else c.filled })
    s.cleanCopy e c.tier
  | none => if o.home = 2 then s.wrCompanion (o.source + off) bs else s

/-- Read bytes of an object at an offset within one chunk where they are served; none where the read is not served
from memory. -/
def State.objRead (s : State) (e off n : Nat) (f : Option Nat) : Option Bytes :=
  match s.readPlan e (off / chunkSize) f with
  | .at' sp a _ => some (s.rd sp (a + off % chunkSize) n)
  | _ => none

/-- Mark the line of an object's uppermost copy poisoned: poisoned data were written there. -/
def State.objPoison (e off n : Nat) (s : State) : State :=
  let o := s.obj e
  match o.writer with
  | some c =>
    let k := off / chunkSize
    let s := s.forEach (List.range c.parts.length) (fun p s =>
      match c.place' p k with
      | some (sp, a) => { s with mem := s.mem.markN (key sp (a + off % chunkSize)) n }
      | none => s)
    s.modCopy e c.tier (fun c => { c with state := if c.state = .filling then .filling else .poisoned
                                          dirty := if c.dirty.contains k then c.dirty else c.dirty ++ [k] })
  | none => s

/-! ## Loss of a unit (R370) -/

/-- A copy that is lost becomes ABSENT with its references; what it had written and not written back is poisoned in
the next lower copy (R351, R370). -/
def State.loseCopy (e t : Nat) (s : State) : State :=
  let o := s.obj e
  match o.copy t with
  | none => s
  | some c =>
    let s := s.modObj e (fun o => { o with refs := o.refs.filter (fun r => r.tier != t) })
    let s := s.modObj e (fun o => o.setCopy t none)
    let s := if o.readonly then s
      else
        match ((s.obj e).copies.filter (fun x => decide (t < x.tier))).head? with
        | some x => s.forEach c.dirty (fun k s => s.forEach (List.range x.parts.length) (fun p s =>
            s.poisonChunk e x.tier p k none false))
        | none => s
    s.settleEntry e

/-- Every T0 copy with a part in a space is lost. -/
def State.loseSpace (sp : Space) (s : State) : State :=
  s.forEach ((s.tiers.objs.filter (fun p => p.2.copies.any (fun c => c.tier == 0 && c.parts.any (fun x => x.space == sp)))).map
    (fun p => p.1)) (fun e s => s.loseCopy e 0)

/-- A stack leaves service: T1 copies outside their home tier become ABSENT, home copies have every chunk with a
stripe there poisoned (a chunk spans the eight stacks of its die). -/
def State.loseStack (k : Nat) (s : State) : State :=
  s.forEach (s.tiers.objs.map (fun p => p.1)) (fun e s =>
    let o := s.obj e
    match o.copy 1 with
    | some c =>
      let hit := (List.range o.chunks).filter (fun i =>
        match c.place' 0 i with | some (_, a) => (if a < 0xC000000000 then 0 else 1) == k / 8 | none => false)
      if hit.isEmpty then s
      else if o.home = 1 then s.forEach hit (fun i s => s.poisonChunk e 1 0 i none false)
      else s.loseCopy e 1
    | none => s)

end Sys2Proof.Machine
end

