-- ==== Sys2Proof/Machine/Operands.lean ====
section
/-! DEFINITION. The operands of an array pass: tile and pass entries (Tables 07-3, 07-4), tile shapes (Table 05-4),
weight rows as they are streamed from their object (R125, R126, R137, R174), stationary columns (R156), and what a
column makes of a weight row (R147, R196, R197). -/

namespace Sys2Proof.Machine

/-! ## Shapes and entries -/

/-- Weight rows per issue, n of W*n*B*m*, and stationary columns, m (Table 05-4). -/
def shapeN (shape : Nat) : Nat := 2 ^ shape
def shapeM (shape : Nat) : Nat := 64 / 2 ^ shape

def parseTile (b : Bytes) : TileEntry :=
  let w0 := fieldAt b 0 8
  { shape := bitsOf w0 0 3, xred := bitOf w0 3, start := bitsOf w0 4 1, endAt := bitsOf w0 5 2, report := bitOf w0 7,
    wfmt := bitsOf w0 8 8, sfmt := bitsOf w0 16 8, ofmt := bitsOf w0 24 8, rows := bitsOf w0 32 16,
    lgroup := bitsOf w0 48 4, mode := bitsOf w0 52 3, target := bitsOf w0 56 4, passes := fieldAt b 8 2,
    entryBase := fieldAt b 10 2, posBase := fieldAt b 12 4, weight := fieldAt b 16 8, output := fieldAt b 24 8,
    outOffset := fieldAt b 32 8, passOffset := fieldAt b 40 8, wk := fieldAt b 48 4 }

def parsePass (b : Bytes) : PassEntry :=
  { wrow := fieldAt b 0 6, chunk := fieldAt b 6 2, statOffset := fieldAt b 8 4, swap := bitOf (byteAt b 12) 0,
    fromCommons := bitOf (byteAt b 12) 1 }

/-- k of R190: the logical groups a tile names. -/
def TileEntry.k (t : TileEntry) : Nat := ceilDiv (t.rows * shapeM t.shape) 4096

/-- END is FOLD or FOLD_CONVERT. -/
def TileEntry.folds (t : TileEntry) : Bool := decide (2 ≤ t.endAt)

/-- The chunk indices do not strictly ascend (R199). -/
def chunksBad : List PassEntry → Bool
  | a :: b :: r => decide (b.chunk ≤ a.chunk) || chunksBad (b :: r)
  | _ => false

/-- The rules of chapters 05 and 06 on a tile's entries that depend on nothing else (R124, R131, R190, R199, R202,
R203, Table 07-4). -/
def tileBad (t : TileEntry) (ps : List PassEntry) : Bool :=
  decide (4 < t.shape) || !pairOk t.wfmt t.sfmt || t.rows == 0 || decide (4 < t.k) || ps.isEmpty || chunksBad ps ||
  ps.any (fun p => p.statOffset % 64 != 0) ||
  ((t.endAt == 0 || (t.endAt == 3 && !modeIdx t.mode)) && !outputFmt t.ofmt) ||
  (t.folds && (t.mode == 0 || decide (4 < t.mode) ||
    decide ((if modeIdx t.mode then 2048 else 4096) < t.entryBase + shapeM t.shape) ||
    decide (2 ^ 32 - 1 < t.posBase + t.rows - 1) ||
    decide (t.lgroup ≤ t.target ∧ t.target < t.lgroup + t.k)))

/-! ## Stationary operands (R156) -/

/-- S: the bytes of one stationary column for a weight format's K. -/
def statSize (wfmt sfmt : Nat) : Nat :=
  fmtK wfmt * fmtWidth sfmt / 8 + (if fmtBlock sfmt = 32 then fmtK wfmt / 32 else 0)

/-- The stationary operands of one column: K elements, then its scales in block order. -/
def statColumn (wfmt sfmt : Nat) (b : Bytes) : List Num :=
  let k := fmtK wfmt
  (List.range k).map (fun i =>
    let e := elemVal sfmt (elemCode sfmt b i)
    if fmtBlock sfmt = 32 then numMul e (scaleVal sfmt (byteAt b (k * fmtWidth sfmt / 8 + i / 32))) else e)

/-- Fold cycles of a load (R156). -/
def loadCycles (t : TileEntry) : Nat := 4 + ceilDiv (shapeM t.shape * statSize t.wfmt t.sfmt) 512

/-- Issue cycles of a pass (R176): M3 at W16B4 issues in two of every three. -/
def issueCycles (t : TileEntry) : Nat :=
  let c := ceilDiv t.rows (shapeN t.shape)
  if t.wfmt = 0x0D ∧ t.shape = 4 then ceilDiv (3 * c) 2 else c

/-- The bound of a grazing tile (R176). -/
def tileBound (t : TileEntry) : List PassEntry → Nat
  | [] => 0
  | [_] => let c := issueCycles t; c + ceilDiv c 16
  | p :: r => (let c := issueCycles t; max (c + ceilDiv c 16) (if p.swap then loadCycles t else 0)) + tileBound t r

/-- A grazing tile is over the cap of R176. -/
def overCap (t : TileEntry) (ps : List PassEntry) : Bool := decide (3600 < loadCycles t + 7 + tileBound t ps)

/-- The passes that need a load: the first, and each whose predecessor ends with SWAP 1 (R157). -/
def loadPasses (ps : List PassEntry) : List Nat :=
  (List.range ps.length).filter (fun p => p == 0 || (match ps[p - 1]? with | some q => q.swap | none => false))

/-! ## Reading an object for a tile (R174, R360) -/

/-- What a read of an object's bytes gives: bytes with a poison mark, a wait for a chunk, or the status that ends the
request. -/
inductive Fetch where
  | bytes (b : Bytes) (poison : Bool)
  | wait (k : Nat)
  | ends (st : Status)
  deriving DecidableEq, Repr

/-- `n` free bytes: data of another device that no command carries (log entry 17). -/
def State.freeBytes : Nat → State → Bytes × State
  | 0, s => ([], s)
  | n + 1, s =>
    let (b, s) := s.takeFree 8
    let (r, s) := State.freeBytes n s
    (b :: r, s)

/-- Read `n` bytes that lie in one chunk. -/
def State.fetchPart (e off n : Nat) (f : Option Nat) (s : State) : Fetch × State :=
  let k := off / chunkSize
  match s.readPlan e k f with
  | .at' sp a low =>
    let at' := a + off % chunkSize
    let s := if sp = .hbm then s.recallNow at' n false else s
    -- R359: a read of T2 while the link is down returns an error
    if low && !s.carries then (if (s.obj e).readonly then (.ends .tierUncorrectable, s) else (.bytes (s.rd sp at' n) true, s))
    else (.bytes (s.rd sp at' n) false, s)
  | .remote => let (b, s) := s.freeBytes n; (.bytes b false, s)
  | .waitFill | .waitRepair => (.wait k, s)
  | .ends .poisoned =>
    -- a writable object: the data are delivered with their mark (R360 step 2)
    (match ((s.obj e).servers f).head? with
     | some c =>
       match c.place' (c.partFor f) k with
       | some (sp, a) =>
         (.bytes (s.rd sp (a + off % chunkSize) n) (s.mem.poisoned (key sp (a + off % chunkSize)) n), s)
       | none => (.ends .poisoned, s)
     | none => (.ends .poisoned, s))
  | .ends st => (.ends st, s)

/-- Read `n` bytes of an object, at most 64 KiB, across a chunk boundary where they cross one. -/
def State.fetch (e off n : Nat) (f : Option Nat) (s : State) : Fetch × State :=
  let room := chunkSize - off % chunkSize
  if n ≤ room then s.fetchPart e off n f
  else
    match s.fetchPart e off room f with
    | (.bytes b p, s) =>
      (match s.fetchPart e (off + room) (n - room) f with
       | (.bytes b' p', s) => (.bytes (b ++ b') (p || p'), s)
       | r => r)
    | r => r

/-! ## Weight rows (R125, R126, R137) -/

/-- The header of a headerless weight object as WK of the tile gives it (R125). -/
def headerlessOf (o : Obj) (t : TileEntry) : WHeader :=
  { fmt := t.wfmt, glint := false, master := false, sampleLog2 := 31, masterFmt := 0, guardMin := 0, guardMax := 0,
    rows := if elemStride t.wfmt t.wk = 0 then 0 else o.size / elemStride t.wfmt t.wk, k := t.wk, elemOff := 0,
    scaleOff := 0, glintOff := 0, masterHandle := 0, reportHandle := 0 }

/-- Weight rows per tensor row. -/
def WHeader.per (h : WHeader) : Nat := h.k / fmtK h.fmt

/-- Read `n` bytes of a plane that the header may leave out: nothing is read of one that is not there. -/
def State.fetchPlane (e off n : Nat) (f : Option Nat) (s : State) : Fetch × State :=
  if n = 0 then (.bytes [] false, s) else s.fetch e off n f

/-- Weight row number `w` of an object: its elements, scales and glint record read and decoded. -/
def State.weightRowAt (e : Nat) (h : WHeader) (w : Nat) (f : Option Nat) (s : State) : Fetch × List Num × State :=
  let r := w / h.per
  let c := w % h.per
  let kw := fmtK h.fmt
  let wb := kw * fmtWidth h.fmt / 8
  let sb := if fmtBlock h.fmt = 0 then 0 else kw / fmtBlock h.fmt
  match s.fetch e (h.elemOff + r * elemStride h.fmt h.k + c * wb) wb f with
  | (.bytes eb p1, s) =>
    (match s.fetchPlane e (h.scaleOff + r * scaleStride h.fmt h.k + c * sb) sb f with
     | (.bytes scb p2, s) =>
       (match s.fetchPlane e (h.glintOff + r * glintStride h.fmt h.k + c * 8) (if h.glint && glintFmt h.fmt then 8 else 0) f with
        | (.bytes gb p3, s) =>
          let elems := (List.range kw).map (fun i => elemCode h.fmt eb i)
          let scales := scb.map (fun b => b.toNat)
          (.bytes [] (p1 || p2 || p3), weightRow h.fmt elems scales (leNat gb), s)
        | (r, s) => (r, [], s))
     | (r, s) => (r, [], s))
  | (r, s) => (r, [], s)

/-! ## Columns (R147, R196, R197, R169, R170) -/

/-- Products per exact unit (Table 06-5). -/
def unitSize (wfmt : Nat) : Nat :=
  match wfmt with
  | 0x01 | 0x02 => 1
  | 0x06 | 0x07 | 0x08 | 0x09 | 0x0B => 32
  | 0x0D | 0x0E | 0x0F => 16
  | _ => fmtK wfmt

/-- Exact sums of the consecutive units of a list of products. -/
def unitSums (size n : Nat) (l : List Num) : List Num :=
  (List.range n).map (fun i => numSum ((l.drop (i * size)).take size))

/-- A unit's exact value at the foot of the tree. -/
def unitVal : Num → Val
  | .fin s x => { sig := s, exp := x }
  | _ => { nan := true }

/-- One level of alignment nodes, with the weights of the bits they keep. -/
def treeLevel : List Val → List Val × (Int × Int)
  | a :: b :: r =>
    let (l, t) := treeLevel r
    let w := nodeWeight a b
    (a.node b :: l, dyAdd t.1 t.2 w.1 w.2)
  | l => (l, (0, 0))

/-- The tree above the exact units: `n` levels. -/
def treeSum : Nat → List Val → Val × (Int × Int)
  | 0, l => (l.headD {}, (0, 0))
  | n + 1, l =>
    let (l, t) := treeLevel l
    let (v, u) := treeSum n l
    (v, dyAdd t.1 t.2 u.1 u.2)

/-- The exponent that an injected array error counts in: the command's error `d` is `d * 2 ^ errExp`. -/
def errExp : Int := -512

/-- BF16 and FP16 round at every node (Table 04-8). -/
def roundsInTree (wfmt : Nat) : Bool := wfmt == 1 || wfmt == 2

/-- What a column makes of a weight row: the tree of R196 with an error `d` at its exact-unit output, or at its top
for BF16 and FP16. A column whose products hold a NaN has no value to compare (log entry 86). -/
def colVal (wfmt : Nat) (w st : List Num) (d : Int) : ColVal :=
  let prods := List.zipWith numMul w st
  let size := unitSize wfmt
  let n := fmtK wfmt / size
  let units := unitSums size n prods
  match numSum units with
  | .fin es ee =>
    let bad := dyAdd es ee d errExp
    let leaves := units.map unitVal
    if roundsInTree wfmt then
      let (v, t) := treeSum (log2N n) leaves
      let v' := dyAdd v.sig v.exp d errExp
      { v := if d = 0 then v else { v with sig := v'.1, exp := v'.2 },
        main := if d = 0 then (v.sig, v.exp) else v', exact := (es, ee), tau := t }
    else
      let leaves := match leaves with
        | a :: r => if d = 0 then a :: r else (let x := dyAdd a.sig a.exp d errExp; { a with sig := x.1, exp := x.2 } :: r)
        | [] => []
      { v := (treeSum (log2N n) leaves).1, main := bad, exact := (es, ee), tau := (0, 0) }
  | _ => { v := { nan := true }, main := (0, 0), exact := (0, 0), tau := (0, 0) }

/-- Two sides of a comparison differ by more than a tolerance (R169, R170). -/
def differ (a b tau : Int × Int) : Bool :=
  let d := dyAdd a.1 a.2 (-b.1) b.2
  dyLt tau.1 tau.2 (d.1.natAbs : Int) d.2

/-- The sum of two dyadic pairs. -/
def dySum (a b : Int × Int) : Int × Int := dyAdd a.1 a.2 b.1 b.2

/-! ## Reading the objects a task names -/

/-- Read `n` bytes of an object over any number of chunks; `fuel` bounds them. -/
def State.fetchAll (e : Nat) : Nat → Nat → Nat → State → Fetch × State
  | 0, _, _, s => (.bytes [] false, s)
  | fuel + 1, off, n, s =>
    if n = 0 then (.bytes [] false, s)
    else
      let k := min n (chunkSize - off % chunkSize)
      match s.fetchPart e off k none with
      | (.bytes b p, s) =>
        (match State.fetchAll e fuel (off + k) (n - k) s with
         | (.bytes b' p', s) => (.bytes (b ++ b') (p || p'), s)
         | r => r)
      | r => r

/-- Read a range of an object by its handle; beyond its end there is nothing to read. -/
def State.fetchObj (h off n : Nat) (s : State) : Fetch × State :=
  if (s.obj (hdlEntry h)).size < off + n then (.ends .badArg, s)
  else s.fetchAll (hdlEntry h) (n / chunkSize + 2) off n

/-- A poisoned read ends a task with POISONED. -/
def Fetch.clean : Fetch → Fetch
  | .bytes _ true => .ends .poisoned
  | f => f

/-- The tiles of a tile list with their passes, in execution order, and the bytes that item 4 of Table 17-3 takes. -/
def State.readTiles (h : Nat) : Nat → Nat → State → Fetch × List (TileEntry × List PassEntry) × State
  | 0, _, s => (.bytes [] false, [], s)
  | n + 1, j, s =>
    match s.fetchObj h (64 * j) 64 with
    | (f, s) =>
      match f.clean with
      | .bytes tb _ =>
        let t := parseTile tb
        (match s.fetchObj h t.passOffset (16 * t.passes) with
         | (f, s) =>
           match f.clean with
           | .bytes pb _ =>
             let ps := (List.range t.passes).map (fun i => parsePass ((pb.drop (16 * i)).take 16))
             let own := tb.take 16 ++ List.replicate 16 0#8 ++ tb.drop 32 ++ pb
             if tileBad t ps then (.ends .badArg, [], s)
             else
               (match State.readTiles h n (j + 1) s with
                | (.bytes b q, l, s) => (.bytes (own ++ b) q, (t, ps) :: l, s)
                | r => r)
           | f => (f, [], s))
      | f => (f, [], s)

end Sys2Proof.Machine
end

