-- ==== Sys2Proof/Machine/Tiers.lean ====
section
/-! DEFINITION. The object commands, the tier mover and the scrubbers (chapter 11). -/

namespace Sys2Proof.Machine

/-- ARG_LENGTH covers the fields a command uses (log entry 14). -/
def Cmd.lenAtLeast (c : Cmd) (n : Nat) : Err := failIf (decide (c.argLength < n)) .badArg

/-- A companion range lies in the window of an instance (R555); instance 0 has none. -/
def State.inWindow (s : State) (inst a n : Nat) : Bool :=
  let g := (s.inst inst).grant
  inst == 0 || (decide (g.t2Base ≤ a) && decide (a + n ≤ g.t2Base + g.t2Size))

/-- The HBM4 stack controllers that a PLACE_T1 uses all accept work (R343, R352). -/
def State.stacksServe (s : State) (place : Nat) : Bool :=
  (List.range 16).all (fun k =>
    (place == 1 && decide (8 ≤ k)) || (place == 2 && decide (k < 8)) || s.accepts ⟨.stackCtl, k⟩)

/-! ## OBJ_CREATE (R340, R342, R343, R345) -/

def ocKind (c : Cmd) : Nat := c.arg 0x20 1
def ocFlags (c : Cmd) : Nat := c.arg 0x21 1
def ocReadonly (c : Cmd) : Bool := bitOf (ocFlags c) 0
def ocShared (c : Cmd) : Bool := bitOf (ocFlags c) 1
def ocPin (c : Cmd) : Bool := bitOf (ocFlags c) 2
def ocHeaderless (c : Cmd) : Bool := bitOf (ocFlags c) 3
def ocHome (c : Cmd) : Nat := c.arg 0x22 1
def ocPlace (c : Cmd) : Nat := c.arg 0x23 1
def ocSize (c : Cmd) : Nat := c.arg 0x24 8
def ocSource (c : Cmd) : Nat := c.arg 0x2C 8
def ocDigest (c : Cmd) : Bytes := (c.args.drop 32).take 32

/-- The fields of OBJ_CREATE are in range and go together (R343, Table 11-3). -/
def objCreateArgs (c : Cmd) : Bool :=
  decide (ocKind c ≤ 3) && decide (1 ≤ ocHome c ∧ ocHome c ≤ 3) && decide (ocPlace c ≤ 2) &&
  ocSize c % 65536 == 0 && decide (65536 ≤ ocSize c ∧ ocSize c ≤ 2 ^ 38) && ocSource c % 65536 == 0 &&
  decide (c.arg 0x34 4 ≤ 1000000) && decide (c.arg 0x38 4 ≤ 10000) &&
  (!ocShared c || (ocReadonly c && ocKind c == 1)) && (!ocHeaderless c || ocKind c == 1) &&
  (c.instId == 0 || (ocKind c != 3 && !ocPin c)) && (ocKind c != 3 || ocHome c == 1) &&
  (ocHome c != 3 || ocReadonly c)

/-- The range that SOURCE names lies in the instance's T2 window where the object has one (R555), check 10 of R90. -/
def State.sourceOk (s : State) (c : Cmd) : Bool :=
  (!(ocHome c == 2 || (ocHome c == 1 && ocSource c != 0)) || s.inWindow c.instId (ocSource c) (ocSize c))

/-- The joinable object that an OBJ_CREATE would join (R345). -/
def State.joinOf (s : State) (c : Cmd) : Option Nat :=
  if ocShared c then
    (s.tiers.objs.find? (fun p => p.2.live && p.2.joinable && p.2.shared && p.2.kind == ocKind c && p.2.size == ocSize c &&
      p.2.digest == ocDigest c)).map (fun p => p.1)
  else none

/-- The lowest-numbered free entry of the object table (R340). -/
def freeEntryFrom : List (Nat × Obj) → Nat → Nat
  | [], k => k
  | (k', o) :: r, k => if k < k' then k else if !o.live then k else freeEntryFrom r (k + 1)

def State.freeEntry (s : State) : Nat := freeEntryFrom s.tiers.objs 0

/-- The chunks of the copy that OBJ_CREATE makes: in T1 for HOME 1. -/
def State.createChunks (s : State) (c : Cmd) : Option (List Nat) :=
  if ocHome c = 1 then s.allocT1 (ocPlace c) (ocSize c / chunkSize) else some []

/-- The new object of OBJ_CREATE (R342 to R345). -/
def newObj (c : Cmd) (refGen order : Nat) (chunks : List Nat) : Obj :=
  { live := true, refGen, kind := ocKind c, readonly := ocReadonly c, shared := ocShared c, pin := ocPin c,
    headerless := ocHeaderless c, home := ocHome c, place1 := ocPlace c, size := ocSize c, source := ocSource c,
    lateUs := if c.arg 0x34 4 = 0 then (if ocHome c = 3 then 2000 else 500) else c.arg 0x34 4,
    repairMs := if c.arg 0x38 4 = 0 then 50 else c.arg 0x38 4, digest := ocDigest c,
    copies := if ocHome c = 1 then
        [{ tier := 1, place := .plain, state := if ocSource c = 0 then .resident else .filling,
           parts := [⟨.hbm, chunks⟩], order, radio := c.instId == 0 || ocKind c == 3 }]
      else [],
    refs := [⟨c.instId, ocHome c, .plain⟩], holders := [c.instId] }

/-- Create a new object: its chunks are zeroed where it has no SOURCE. -/
def State.createObj (c : Cmd) (s : State) : Nat × State :=
  let e := s.freeEntry
  let chunks := (s.createChunks c).getD []
  let g := if (s.obj e).refGen = 0 then 1 else (s.obj e).refGen
  let (n, s) := s.nextOrder
  let s := s.forEach chunks (fun a s => s.zeroMem .hbm a chunkSize)
  (e, { s with tiers := { s.tiers with objs := tset {} s.tiers.objs e (newObj c g n chunks) } })

/-- Join an object: a handle and a reference in its home tier (R345). -/
def State.joinObj (e inst : Nat) (s : State) : State :=
  if (s.obj e).holders.contains inst then s
  else s.modObj e (fun o => { o with holders := o.holders ++ [inst], refs := o.refs ++ [⟨inst, o.home, .plain⟩] })

/-- OBJ_CREATE (R342). -/
def execObjCreate (m : Fin 16) (s : State) : Outcome :=
  .next (s.runCommand m 0x0301
    (fun c _ => [c.lenAtLeast (if ocShared c then 64 else 32), failIf (!objCreateArgs c) .badArg])
    (fun _ => statesOf 0x0301)
    (fun c s =>
      let i := c.instId
      let join := s.joinOf c
      [s.instConflict i [1],
       failIf (join.isNone && ocHome c == 1 && !s.stacksServe (ocPlace c)) .notReady,
       failIf (!s.sourceOk c) .badArg,
       failIf (join.isNone && (decide (2 ^ 20 ≤ s.freeEntry) || (s.createChunks c).isNone)) .capacity,
       match join with
       | some e => failIf (!(s.obj e).holders.contains i && (s.obj e).home == 1 && s.overQuota i 1 (s.obj e).size) .quota
       | none => failIf (ocHome c == 1 && s.overQuota i 1 (ocSize c)) .quota])
    (fun c s =>
      match s.joinOf c with
      | some e =>
        let s := s.joinObj e c.instId
        (s, leBytes 8 (s.handleOf e c.instId) ++ [1#8], false)
      | none =>
        let (e, s) := s.createObj c
        (s, leBytes 8 (s.handleOf e c.instId) ++ [0#8], false)))

/-! ## OBJ_PROMOTE and OBJ_EVICT (R351 to R355) -/

/-- The handle named in bytes 0x20 to 0x27. -/
def hArg (c : Cmd) : Nat := c.arg 0x20 8
def tierArg (c : Cmd) : Nat := c.arg 0x28 1
def placeArg (c : Cmd) : Nat := c.arg 0x29 1

/-- Check 9 for the handle: the checks after it do not look at a handle it refuses (R90). -/
def State.handleErr (s : State) (c : Cmd) : Err := failIf (s.stale (hArg c)) .staleHandle

/-- The units a promotion needs accept work. -/
def State.promoteServes (s : State) (o : Obj) (t place : Nat) : Bool :=
  (o.copy t).isSome || (match t with
    | 1 => s.stacksServe place
    | 0 => place == 3 || ([0, 1].filter (fun d => place == 0 || place == d + 1)).all (fun d => s.accepts ⟨.commons, d⟩)
    | _ => true)

/-- Bytes that a promotion would charge. -/
def State.promoteCharge (_s : State) (o : Obj) (t place : Nat) : Nat :=
  match o.copy t with
  | some c => c.charge o
  | none => if t = 0 then (if place = 3 then 0 else if place = 0 then 2 * o.size else o.size)
            else if t = 2 ∧ o.home = 2 then 0 else o.size

/-- The new copy of an accepted promotion starts its fill; an existing one that drains returns to RESIDENT, or to
POISONED where it still holds poison (R348, R352, Table 11-6). -/
def State.promote (e inst t place ctx : Nat) (s : State) : State :=
  let o := s.obj e
  let pl : Place := if t = 0 then (if place = 3 then .share inst ctx else .commons place) else .plain
  let s := s.modObj e (fun o => { o with refs := o.refs ++ [⟨inst, t, pl⟩] })
  match o.copy t with
  | some c =>
    if c.state = .draining then
      s.modCopy e t (fun c => { c with state := if (s.poisonedMoves o c).isEmpty then .resident else .poisoned })
    else s
  | none =>
    if o.home = t ∧ 2 ≤ t then s
    else
      let parts := (s.newParts t place inst ctx o.chunks).getD []
      let (n, s) := s.nextOrder
      s.modObj e (fun o => o.setCopy t (some { tier := t, place := pl, state := .filling, parts, order := n,
                                               radio := inst == 0 || o.kind == 3 }))

/-- A second copy above the home of a writable object (R350, log entry 13). -/
def Obj.secondUpper (o : Obj) (t : Nat) : Bool :=
  !o.readonly && (o.copy t).isNone && decide (t < o.home) && o.copies.any (fun c => decide (c.tier < o.home ∧ c.tier ≠ t))

/-- OBJ_PROMOTE (R352). -/
def execObjPromote (m : Fin 16) (s : State) : Outcome :=
  .next (s.runCommand m 0x0302
    (fun c _ => [c.lenAtLeast 11, failIf (hdlInst (hArg c) != c.instId || decide (2 < tierArg c)) .badArg,
                 failIf (decide ((if tierArg c = 0 then 3 else if tierArg c = 1 then 2 else 255) < placeArg c)) .badArg])
    (fun _ => statesOf 0x0302)
    (fun c s =>
      let e := hdlEntry (hArg c)
      let o := s.obj e
      let i := c.instId
      let t := tierArg c
      [s.instConflict i [1], s.handleErr c,
       conflictIf (o.refIn i t) 4 (o.stateIn t).code 0 (hArg c),
       conflictIf (o.secondUpper t) 4 (o.stateIn t).code 0 (hArg c),
       failIf (!s.promoteServes o t (placeArg c)) .notReady,
       failIf (t == 2 && o.kind == 3) .badArg,
       failIf (t == 0 && placeArg c == 3 && ((s.residence i (c.arg 0x2A 1)).isEmpty ||
         ((o.copy 0).isNone && (s.newParts 0 3 i (c.arg 0x2A 1) o.chunks).isNone))) .badArg,
       failIf (decide (t < o.home ∨ (t = 2 ∧ o.home ≠ 2)) && (o.copy t).isNone &&
         (s.newParts t (placeArg c) i (c.arg 0x2A 1) o.chunks).isNone) .capacity,
       failIf (decide (t ≤ 2) && s.overQuota i t (s.promoteCharge o t (placeArg c))) .quota])
    (fun c s => (s.promote (hdlEntry (hArg c)) c.instId (tierArg c) (placeArg c) (c.arg 0x2A 1), [], false)))

/-- The copy of the tier is the only one a writable object has, on the device or as its home range. -/
def Obj.onlyCopy (o : Obj) (t : Nat) : Bool :=
  !o.readonly && (o.copies.filter (fun c => c.tier != t)).isEmpty && (decide (o.home = t) || decide (o.home < 2))

/-- OBJ_EVICT (R353). -/
def execObjEvict (m : Fin 16) (s : State) : Outcome :=
  .next (s.runCommand m 0x0303
    (fun c _ => [c.lenAtLeast 9, failIf (hdlInst (hArg c) != c.instId || decide (3 < tierArg c)) .badArg])
    (fun _ => statesOf 0x0303)
    (fun c s =>
      let o := s.obj (hdlEntry (hArg c))
      let t := tierArg c
      [s.instConflict c.instId [1], s.handleErr c,
       conflictIf (!o.refIn c.instId t) 4 (o.stateIn t).code 0 (hArg c),
       conflictIf (o.onlyCopy t || o.pin) 4 (o.stateIn t).code 0 (hArg c)])
    (fun c s => (s.dropRef (hdlEntry (hArg c)) c.instId (tierArg c), [], false)))

/-! ## OBJ_ALTERNATE, OBJ_DESTROY, OBJ_QUERY -/

/-- The alternates named. -/
def altArgs (c : Cmd) : List Nat := (List.range (c.arg 0x28 1)).map (fun i => c.arg (0x30 + 8 * i) 8)

/-- OBJ_ALTERNATE (R364): replaces the alternates and starts the repair of a POISONED copy again (R361). -/
def execObjAlternate (m : Fin 16) (s : State) : Outcome :=
  .next (s.runCommand m 0x0304
    (fun c _ => [c.lenAtLeast (if c.arg 0x28 1 = 2 then 32 else 24),
                 failIf (hdlInst (hArg c) != c.instId || decide (c.arg 0x28 1 = 0 ∨ 2 < c.arg 0x28 1)) .badArg])
    (fun _ => statesOf 0x0304)
    (fun c s =>
      let o := s.obj (hdlEntry (hArg c))
      [s.instConflict c.instId [1], s.handleErr c, failIf (!o.readonly) .badArg,
       failIf ((altArgs c).any (fun a => !bitOf a 63 && !s.inWindow c.instId a o.size)) .badArg])
    (fun c s =>
      let e := hdlEntry (hArg c)
      let s := s.modObj e (fun o => { o with alternates := altArgs c })
      (s.forEach [0, 1] (fun t s => s.startRepair e t), [], false)))

/-- Drop every reference and the handle of an instance (R346). -/
def State.destroyHandle (e inst : Nat) (s : State) : State :=
  let s := s.modObj e (fun o => { o with holders := o.holders.filter (fun i => i != inst) })
  let ts := ((s.obj e).refs.filter (fun r => r.inst == inst)).map (fun r => r.tier)
  (s.forEach ([0, 1, 2, 3].filter (fun t => ts.contains t)) (fun t s => s.dropRef e inst t)).settleEntry e

/-- OBJ_DESTROY (R346). -/
def execObjDestroy (m : Fin 16) (s : State) : Outcome :=
  .next (s.runCommand m 0x0305
    (fun c _ => [c.lenAtLeast 8, failIf (hdlInst (hArg c) != c.instId) .badArg])
    (fun _ => statesOf 0x0305)
    (fun c s => [s.instConflict c.instId [1], s.handleErr c])
    (fun c s => (s.destroyHandle (hdlEntry (hArg c)) c.instId, [], false)))

/-- Chunks filled in the lowest FILLING copy. -/
def Obj.filledCount (o : Obj) : Nat :=
  match o.copies.find? (fun c => decide (c.state = .filling)) with
  | some c => c.filled.length / max 1 c.parts.length
  | none => 0

/-- Result of OBJ_QUERY (R371, Table 11-9). -/
def State.queryResult (s : State) (e inst : Nat) : Bytes :=
  let o := s.obj e
  (List.range 4).flatMap (fun t => leBytes 1 (o.stateIn t).code) ++
    leBytes 1 (b2n o.readonly + 2 * b2n (o.shared && o.joinable) + 4 * b2n o.digestFailed + 8 * b2n o.pin +
      16 * b2n o.headerless) ++
    leBytes 1 (((List.range 4).map (fun t => if o.refIn inst t then 2 ^ t else 0)).sum) ++ leBytes 2 o.holders.length ++
    leBytes 4 o.filledCount ++ leBytes 4 ((o.copies.map (fun c => (s.poisonedMoves o c).length)).sum) ++
    leBytes 1 o.alternates.length ++ List.replicate 15 0#8

/-- OBJ_QUERY (R371). -/
def execObjQuery (m : Fin 16) (s : State) : Outcome :=
  .next (s.runCommand m 0x0306
    (fun c _ => [c.lenAtLeast 8, failIf (hdlInst (hArg c) != c.instId) .badArg])
    (fun _ => statesOf 0x0306)
    (fun c s => [s.instConflict c.instId [1], s.handleErr c])
    (fun c s => (s, s.queryResult (hdlEntry (hArg c)) c.instId, false)))

/-! ## The tier mover (R354) -/

/-- A tier-mover channel is of the radio class (Table 12-1: channels 4 and 5 of each engine, here 0 and 1 of four). -/
def chanRadio (chan : Nat) : Bool := decide (chan % 4 < 2)

/-- A space takes traffic now. -/
def State.spaceServes (s : State) (sp : Space) (a : Nat) : Bool :=
  match sp with
  | .hbm => (List.range 8).all (fun k => s.accepts ⟨.stackCtl, 8 * (if a < 0xC000000000 then 0 else 1) + k⟩)
  | .commons d => s.accepts ⟨.commons, d⟩
  | .sram f => s.accepts ⟨.fold, f⟩
  | .companion => decide (s.power.fyf = .active)
  | .radio => if a < 0x14000000 then s.accepts ⟨.die, 2⟩ else s.accepts ⟨.sigCore, (a - 0x14000000) / 524288⟩
  | .port l => s.accepts ⟨.fhPort, l / 4⟩

/-- The moves of a copy's running operation, in order. -/
def State.opMoves (_s : State) (o : Obj) (c : Copy) : List Nat :=
  match c.state with
  | .filling => if c.cancelled then [] else (List.range (c.moves o)).filter (fun mv => !c.filled.contains mv)
  | .draining => (List.range (c.moves o)).filter (fun mv => !c.filled.contains mv)
  | .repair => c.repairTodo.map (fun p => p.1)
  | _ => []

/-- The move is in transit on some channel. -/
def State.moving (s : State) (e t mv : Nat) : Bool :=
  s.tiers.movers.any (fun p => p.2.chans.any (fun q =>
    match q.2 with | some x => x.obj == e && x.tier == t && x.move == mv | none => false))

/-- The source of a move, and whether it lies low (R354, R361); a drain reads the copy itself. -/
def State.moveSource (s : State) (o : Obj) (c : Copy) (mv : Nat) : Option (Option (Space × Nat) × Bool) :=
  let p := c.movePart mv
  let k := c.moveChunk mv
  match c.state with
  | .filling => some (s.fillSource o c.tier p k)
  | .draining => (c.place' p k).map (fun x => (some x, false))
  | .repair =>
    let tried := ((c.repairTodo.find? (fun q => q.1 == mv)).map (fun q => q.2)).getD 0
    ((s.repairSources o c.tier p k)[tried]?).map (fun x => (x, true))
  | _ => none

/-- The kind of a copy's operation. -/
def Copy.moveKind (c : Copy) : MoveKind :=
  match c.state with | .draining => .drain | .repair => .repair | _ => .fill

/-- The next move of a copy that a half can start (R354, R372). -/
def State.nextMove (s : State) (half e : Nat) (o : Obj) (c : Copy) : Option Nat :=
  (s.opMoves o c).find? (fun mv =>
    match c.place' (c.movePart mv) (c.moveChunk mv) with
    | none => false
    | some (sp, a) =>
      (spaceDie sp a).getD 0 == half && !s.moving e c.tier mv && s.spaceServes sp a &&
        (match s.moveSource o c mv with
         | some (some (sp', a'), _) => s.spaceServes sp' a'
         | some (none, _) => true
         | none => false))

/-- The operations a channel of a half can serve, as (order, object, tier, move). -/
def State.moverOps (s : State) (half : Nat) (radio : Bool) : List (Nat × Nat × Nat × Nat) :=
  s.tiers.objs.flatMap (fun p => p.2.copies.filterMap (fun c =>
    if c.radio = radio then (s.nextMove half p.1 p.2 c).map (fun mv => (c.order, p.1, c.tier, mv)) else none))

/-- The first operation in order of acceptance. -/
def firstOp : List (Nat × Nat × Nat × Nat) → Option (Nat × Nat × Nat × Nat)
  | [] => none
  | a :: r => match firstOp r with | none => some a | some b => if b.1 < a.1 then some b else some a

/-- A channel of a tier-mover half. -/
def Mover.chan (m : Mover) (k : Nat) : Option Transit := tget none m.chans k

def State.setChan (h k : Nat) (x : Option Transit) (s : State) : State :=
  s.modMover h (fun m => { m with chans := tset none m.chans k x })

/-- CHUNK_START (R354): a free channel takes the next chunk of the first active operation of its class. Nothing happens while control core 4 restarts (R39). -/
def execChunkStart (half : Fin 2) (chan : Fin 64) (s : State) : Outcome :=
  .next (
    if (s.core 4).restarting then s else
    let s := s.settleDrained
    if ((s.mover half).chan chan).isSome || s.dev.dstate = .rom || s.dev.dstate = .night then s
    else
      match firstOp (s.moverOps half (chanRadio chan)) with
      | none => s
      | some (_, e, t, mv) =>
        let o := s.obj e
        match o.copy t with
        | none => s
        | some c =>
          match s.moveSource o c mv with
          | none => s
          | some (src, low) =>
            s.setChan half chan (some { obj := e, place := c.place, tier := t, kind := c.moveKind, move := mv, src,
                                        lowTier := low, started := s.time.now }))

/-- The report area of a weight object (R143): the first 64 bytes of the object named by REPORT_HANDLE. -/
def State.reportObj (s : State) (h : WHeader) : Option Nat :=
  if h.reportHandle = 0 ∨ s.stale h.reportHandle then none else some (hdlEntry h.reportHandle)

/-- Add to a counter of the report area, held at all-ones. -/
def State.reportAdd (e off n w : Nat) (s : State) : State :=
  if w = 0 then s
  else
    match s.objRead e off n none with
    | some b => s.objWrite e off (leBytes n (satAdd (8 * n) (leNat b) w))
    | none => s

/-- Block scales, glint records and T elements that lie in chunk `k` of a weight object, whose bytes are `b` (R138).
Blocks are numbered over the whole plane: tensor row times the blocks of a row, plus the block in the row (log entry
86). -/
def guardChunk (h : WHeader) (k : Nat) (b : Bytes) : Guard :=
  let lo := k * chunkSize
  let blk := fmtBlock h.fmt
  let ss := scaleStride h.fmt h.k
  let gs := glintStride h.fmt h.k
  let es := elemStride h.fmt h.k
  (List.range chunkSize).foldl (fun g i =>
    let o := lo + i
    let g := if blk ≠ 0 ∧ h.scaleOff ≤ o ∧ o < h.scaleOff + h.rows * ss ∧ (o - h.scaleOff) % ss < h.k / blk then
        g.scale h (byteAt b i) ((o - h.scaleOff) / ss * (h.k / blk) + (o - h.scaleOff) % ss)
      else g
    let g := if h.glint ∧ o % 8 = 0 ∧ h.glintOff ≤ o ∧ o < h.glintOff + h.rows * gs ∧
          (o - h.glintOff) % gs < h.k / fmtK h.fmt * 8 ∧ glintMalformed (fmtK h.fmt) (fieldAt b i 8) then
        { g with malformed := g.malformed + 1 }
      else g
    if h.fmt = 0x0F ∧ h.elemOff ≤ o ∧ o < h.elemOff + h.rows * es ∧ (o - h.elemOff) % es < h.k / 4 then
      { g with invalid := g.invalid + ((List.range 4).filter (fun j => bitsOf (byteAt b i) (2 * j) 2 == 2)).length }
    else g) {}

/-- The guard's findings go to the report area (R138, R143, Table 04-9). -/
def State.reportGuard (e : Nat) (g : Guard) (s : State) : State :=
  let s := (((((s.reportAdd e 0 4 g.below).reportAdd e 4 4 g.above).reportAdd e 8 4 g.zero).reportAdd e 12 2 g.nan).reportAdd
    e 14 2 g.malformed).reportAdd e 16 4 g.invalid
  match g.first, s.objRead e 0x18 8 none with
  | some i, some b =>
    if leNat b = 0 ∧ !(s.obj e).firstIsZero then
      (s.objWrite e 0x18 (leBytes 8 i)).modObj e (fun o => { o with firstIsZero := decide (i = 0) })
    else s
  | _, _ => s

/-- FILLS of the report area: a guarded fill completed. -/
def State.reportFill (e : Nat) (s : State) : State :=
  match s.objRead e 0x14 4 none with
  | some b =>
    let v := leNat b
    s.objWrite e 0x14 (leBytes 4 (v / 2 ^ 31 * 2 ^ 31 + satInc 31 (v % 2 ^ 31)))
  | none => s

/-- HEADER_BAD of the report area (R127): only the host resets it (R143). -/
def State.reportHeader (e : Nat) (s : State) : State :=
  match s.objRead e 0x14 4 none with
  | some b => s.objWrite e 0x14 (leBytes 4 (leNat b % 2 ^ 31 + 2 ^ 31))
  | none => s

/-- A move of a copy goes through the guard with a valid header, whose report area is `r` (R138). -/
def State.guardMove (e t mv : Nat) (h : WHeader) (r : Nat) (s : State) : State :=
  match (s.obj e).copy t with
  | none => s
  | some c =>
    match c.place' (c.movePart mv) (c.moveChunk mv) with
    | some (sp, a) => s.reportGuard r (guardChunk h (c.moveChunk mv) (s.rd sp a chunkSize))
    | none => s

/-- The header chunk has just been filled: the header is checked (R127). -/
def State.checkHeader (e : Nat) (h : WHeader) (s : State) : State :=
  let bad := h.bad (s.obj e).size
  let s := s.modObj e (fun o => { o with headerBad := bad })
  if bad then (match s.reportObj h with | some r => s.reportHeader r | none => s) else s

/-- Header check and guard on a move into T0 or T1 that has just been filled (R125, R127, R138). What is filled before
the header chunk is examined once that is there; of an object whose header is bad nothing is (log entry 86). -/
def State.guardFill (e t mv : Nat) (s : State) : State :=
  let o := s.obj e
  if o.kind ≠ 1 ∨ o.headerless ∨ 2 ≤ t then s
  else
    match o.copy t with
    | none => s
    | some c =>
      let heads := c.filled.filter (fun m => c.moveChunk m == 0)
      let isHead := c.moveChunk mv == 0
      match (if isHead then some mv else heads.head?) with
      | none => s
      | some hm =>
        match c.place' (c.movePart hm) 0 with
        | none => s
        | some (sp, a) =>
          let h := parseWHeader (s.rd sp a 64)
          let s := if isHead then s.checkHeader e h else s
          if h.bad o.size then s
          else
            match s.reportObj h with
            | none => s
            | some r => s.forEach (if isHead && heads.isEmpty then c.filled ++ [mv] else [mv]) (fun m s => s.guardMove e t m h r)

/-- CHUNK_SUM: bits [63:0] of SHAKE256 over the chunk (R344). -/
def chunkSum (b : Bytes) : Nat := leNat (shake256 8 b)

/-- The content of a whole copy. -/
def State.copyBytes (s : State) (o : Obj) (c : Copy) : Bytes :=
  (List.range o.chunks).flatMap (fun k => match c.place' 0 k with | some (sp, a) => s.rd sp a chunkSize | none => [])

/-- After the first complete fill of a READONLY object into T1: CHUNK_SUMs, CONTENT_DIGEST, and for a SHARED object
the digest check that makes it joinable (R344, R345, R540). -/
def State.recordSums (e : Nat) (c : Copy) (s : State) : State :=
  let o := s.obj e
  if c.tier ≠ 1 ∨ !o.readonly ∨ o.summed then s
  else
    let content := s.copyBytes o c
    let ok := shake256 32 content == o.digest
    s.modObj e (fun o => { o with
      summed := true
      chunkSums := (List.range o.chunks).map (fun k =>
        match c.place' 0 k with | some (sp, a) => chunkSum (s.rd sp a chunkSize) | none => 0)
      contentDigest := shakeTag 32 [0x4D, 0x56, 0x4E, 0x2D, 0x4F, 0x42] content
      joinable := o.shared && ok
      shared := o.shared && ok
      digestFailed := o.shared && !ok })

/-- The last chunk of a fill is filled (R348). -/
def State.endFill (e t : Nat) (s : State) : State :=
  let o := s.obj e
  match o.copy t with
  | none => s
  | some c =>
    let bad := c.fillPoisoned
    let s := s.modCopy e t (fun c => { c with state := if bad then .poisoned else .resident, filled := [], fillPoisoned := false })
    let s := if bad then s else s.recordSums e c
    let s := if o.kind = 1 ∧ !o.headerless ∧ t ≤ 1 then
        (match c.place' 0 0 with
         | some (sp, a) =>
           match s.reportObj (parseWHeader (s.rd sp a 64)) with | some r => s.reportFill r | none => s
         | none => s)
      else s
    if bad then s.startRepair e t else s

/-- Which copy of which object holds an address: object, tier, part, chunk. -/
def State.ownerOf (s : State) (sp : Space) (a : Nat) : Option (Nat × Nat × Nat × Nat) :=
  s.tiers.objs.findSome? (fun p => p.2.copies.findSome? (fun c =>
    c.parts.zipIdx.findSome? (fun q => if q.1.space = sp then
      (q.1.chunks.findIdx? (fun b => b == a / chunkSize * chunkSize)).map (fun k => (p.1, c.tier, q.2, k)) else none)))

/-- Place a chunk read from its source at its destination, with poison marks; a source that failed gives a chunk
poisoned whole. Answers whether the destination holds poison. -/
def State.placeChunk (src : Option (Space × Nat)) (dst : Space × Nat) (failed : Bool) (remote : Bytes) (s : State) :
    State × Bool :=
  let lost := decide (dst.1 = .companion) && !s.carries
  if lost then (s.dropWrite, false)
  else
  let s := if dst.1 = .hbm then s.recallNow dst.2 chunkSize true else s
  let s := match src with
    | some (.hbm, a) => s.recallNow a chunkSize false
    | _ => s
  let s := match src with
    | some (sp, a) => { s with mem := s.mem.copy (key sp a) (key dst.1 dst.2) chunkSize }
    | none => { s with mem := (s.mem.zero (key dst.1 dst.2) chunkSize).wrN (key dst.1 dst.2) (fixLen chunkSize remote) }
  let s := if dst.1 = .companion then s.logDirty dst.2 chunkSize else s
  let s := if failed then { s with mem := s.mem.markN (key dst.1 dst.2) chunkSize } else s
  (s, s.chunkPoisoned dst.1 dst.2)

/-- An uncorrectable error was just detected in the copy that served as source. -/
def State.poisonSource (src : Option (Space × Nat)) (s : State) : State :=
  match src with
  | some (sp, a) =>
    if sp = .companion then s
    else match s.ownerOf sp a with | some (e, t, p, k) => s.poisonChunk e t p k none true | none => s
  | none => s

/-- A chunk of a fill is complete. -/
def State.fillDone (half : Nat) (x : Transit) (finding : ReadFinding) (remote : Bytes) (s : State) : State :=
  let o := s.obj x.obj
  match o.copy x.tier with
  | none => s
  | some c =>
    if c.cancelled then s.dropCopy x.obj x.tier
    else
      let p := c.movePart x.move
      let k := c.moveChunk x.move
      match c.place' p k with
      | none => s
      | some dst =>
        -- R343: a late read of the SOURCE of a HOME 1 object poisons its chunk
        let failed := finding == .uncorrectable || ((finding == .late || x.late) && o.home == 1 && x.tier == 1)
        let s := if finding == .uncorrectable then s.poisonSource x.src else s
        let (s, bad) := s.placeChunk x.src dst failed remote
        let s := s.modMover half (fun m => { m with filled := satInc 64 m.filled })
        let s := if bad then s.notePoison x.obj x.tier p k false else s
        let s := s.guardFill x.obj x.tier x.move
        let s := s.modCopy x.obj x.tier (fun c => { c with filled := c.filled ++ [x.move] })
        match (s.obj x.obj).copy x.tier with
        | some c => if c.moves o ≤ c.filled.length then s.endFill x.obj x.tier else s
        | none => s

/-- Where a dirty chunk of a draining copy is written back: the next lower copy, or the home range in T2 (R353). -/
def Obj.drainTo (o : Obj) (t k : Nat) : Option (Option (Nat × Nat) × Space × Nat) :=
  match (o.copies.filter (fun c => decide (t < c.tier) && decide (c.state ≠ .absent))).head? with
  | some c => (c.place' 0 k).map (fun p => (some (c.tier, 0), p.1, p.2))
  | none => if o.home = 2 ∧ t < 2 then some (none, .companion, o.source + k * chunkSize) else none

/-- A chunk of a drain is complete: written back where it is dirty, released otherwise (R348, R353). -/
def State.drainDone (half : Nat) (x : Transit) (s : State) : State :=
  let o := s.obj x.obj
  match o.copy x.tier with
  | none => s
  | some c =>
    let k := c.moveChunk x.move
    let s := s.modMover half (fun m => { m with drained := satInc 64 m.drained })
    let s := if c.dirty.contains k && c.movePart x.move == 0 then
        (match o.drainTo x.tier k with
         | none => s
         | some (low, sp, a) =>
           let (s, bad) := s.placeChunk x.src (sp, a) false []
           let s := s.modCopy x.obj x.tier (fun c => { c with dirty := c.dirty.filter (fun i => i != k) })
           match low with
           | some (t, p) => if bad then s.notePoison x.obj t p k false else s
           | none => s)
      else s
    if c.state = .draining then
      let s := s.modCopy x.obj x.tier (fun c => { c with filled := c.filled ++ [x.move] })
      match (s.obj x.obj).copy x.tier with
      | some c => if c.moves o ≤ c.filled.length && !s.inUse x.obj then s.dropCopy x.obj x.tier else s
      | none => s
    else s

/-- The reads waiting for an object's chunks end with a status, or go on (none) (R362). -/
def State.wake (e : Nat) (k : Option Nat) (st : Option Status) (s : State) : State :=
  let hit := fun (w : Waiter) => w.obj == e && (match k with | some k => w.chunk == k | none => true)
  let ws := s.tiers.waiters.filter hit
  let s := { s with tiers := { s.tiers with waiters := s.tiers.waiters.filter (fun w => !hit w) } }
  match st with
  | some st => s.forEach ws (fun w s => s.endWaiter w.task st)
  | none => s

/-- A chunk of a repair arrives (R361): accepted only if its CHUNK_SUM matches the recorded one, otherwise the next
source is tried; when none is left the copy returns to POISONED. -/
def State.repairDone (half : Nat) (x : Transit) (finding : ReadFinding) (remote : Bytes) (s : State) : State :=
  let o := s.obj x.obj
  match o.copy x.tier with
  | none => s
  | some c =>
    let p := c.movePart x.move
    let k := c.moveChunk x.move
    if c.state ≠ .repair then s
    else
      match c.place' p k with
      | none => s
      | some dst =>
        let data := match x.src with | some (sp, a) => s.rd sp a chunkSize | none => fixLen chunkSize remote
        let srcBad := finding == .uncorrectable || (match x.src with | some (sp, a) => s.chunkPoisoned sp a | none => false)
        let sumBad := o.summed && o.chunkSums.getD k 0 != chunkSum data
        if srcBad || sumBad then
          let s := if sumBad && !srcBad then s.modMover half (fun m => { m with sumRejects := satInc 32 m.sumRejects }) else s
          let s := s.modCopy x.obj x.tier (fun c =>
            { c with repairTodo := c.repairTodo.map (fun q => if q.1 = x.move then (q.1, q.2 + 1) else q) })
          let tried := ((c.repairTodo.find? (fun q => q.1 == x.move)).map (fun q => q.2)).getD 0 + 1
          if tried < (s.repairSources o x.tier p k).length then s
          else
            let s := s.modMover half (fun m => { m with repairFailed := satInc 32 m.repairFailed, event := m.event ||| 2 })
            let s := s.modCopy x.obj x.tier (fun c => { c with state := .poisoned, repairTodo := [] })
            s.wake x.obj none (some .tierUncorrectable)
        else
          let s := if dst.1 = .hbm then s.recallNow dst.2 chunkSize true else s
          let s := { s with mem := (s.mem.zero (key dst.1 dst.2) chunkSize).wrN (key dst.1 dst.2) data }
          let s := s.modMover half (fun m => { m with repaired := satInc 32 m.repaired })
          let s := s.modCopy x.obj x.tier (fun c =>
            let todo := c.repairTodo.filter (fun q => q.1 != x.move)
            { c with repairTodo := todo, state := if todo.isEmpty then .resident else .repair })
          s.wake x.obj (some k) none

/-- The chunk in transit on a channel arrives. -/
def State.chunkArrives (half chan : Nat) (finding : ReadFinding) (remote : Bytes) (s : State) : State :=
  match (s.mover half).chan chan with
  | none => s
  | some x =>
    let s := s.setChan half chan none
    match x.kind with
    | .fill => s.fillDone half x finding remote
    | .drain => s.drainDone half x
    | .repair => s.repairDone half x finding remote

/-- CHUNK_DONE (R354). -/
def execChunkDone (half : Fin 2) (chan : Fin 64) (finding : ReadFinding) (remote : Bytes) (s : State) : Outcome :=
  .next (s.chunkArrives half chan finding remote)

/-- TIER_LATE_EXPIRY (R358): the chunk in transit from T2 or T3 has not arrived within LATE_US; the tiles that read it
end with TIER_LATE, and the chunk still arrives. -/
def execTierLateExpiry (now : Nat) (half : Fin 2) (chan : Fin 64) (s : State) : Outcome :=
  .next (
    let s := s.at now
    match (s.mover half).chan chan with
    | none => s
    | some x =>
      if !x.lowTier || x.late || decide (s.time.now < x.started + 1000 * (s.obj x.obj).lateUs) then s
      else
        let s := s.setChan half chan (some { x with late := true })
        let k := ((s.obj x.obj).copy x.tier).map (fun c => c.moveChunk x.move)
        let ends := (s.folds.filter (fun p =>
            match p.2.tile with
            | some t => hdlEntry t.entry.weight == x.obj && !(s.stale t.entry.weight) && t.waits.isSome && t.waits == k
            | none => false)).map (fun p => p.1)
        (s.modMover half (fun m => { m with late := satAdd 32 m.late ends.length })).forEach ends (fun f s => s.endTile f .tierLate))

/-- REPAIR_WAIT_EXPIRY (R362): a read that has waited REPAIR_WAIT_MS ends with TIER_UNCORRECTABLE. -/
def execRepairWaitExpiry (now : Nat) (s : State) : Outcome :=
  .next (
    let s := s.at now
    let due := s.tiers.waiters.filter (fun w => decide (w.until' ≤ s.time.now))
    let s := { s with tiers := { s.tiers with waiters := s.tiers.waiters.filter (fun w => decide (s.time.now < w.until')) } }
    s.forEach due (fun w s => s.endWaiter w.task .tierUncorrectable))

/-! ## Scrubbing (R368, R369) -/

/-- Move every copy held in a chunk of HBM elsewhere on its die and retire the chunk (R369). -/
def State.retireChunk (k a : Nat) (s : State) : State :=
  let base := a / chunkSize * chunkSize
  let s := { s with tiers := { s.tiers with retired := tput s.tiers.retired base () } }
  let s := s.modStackCtl k (fun c => { c with chunksRetired := satInc 32 c.chunksRetired, event := c.event ||| 4 })
  match s.ownerOf .hbm base, s.allocHbm (k / 8) 1 with
  | some (e, t, p, i), some [b] =>
    let s := { s with mem := s.mem.copy (key .hbm base) (key .hbm b) chunkSize }
    s.modCopy e t (fun c =>
      let ps := c.parts.zipIdx.map (fun q => if q.2 = p then { q.1 with chunks := q.1.chunks.set i b } else q.1)
      { c with parts := ps })
  | _, _ => s

/-- A row needed correction (R369): on the fourth distinct read within 24 h it is remapped, or its chunks retired. -/
def State.rowHit (k a : Nat) (s : State) : State :=
  let row := Config.hbmRow a
  let day := 86400 * 10 ^ 9
  let c := s.stackCtl k
  let hits := (tget [] c.rowHits row).filter (fun t => decide (s.time.now < t + day)) ++ [s.time.now]
  if hits.length < 4 then s.modStackCtl k (fun c => { c with rowHits := tset [] c.rowHits row hits })
  else
    let bank := Config.hbmBank row
    let used := tget 0 c.sparesUsed bank
    let s := s.modStackCtl k (fun c => { c with rowHits := tset [] c.rowHits row [] })
    if used < 16 then
      let s := s.modStackCtl k (fun c =>
        { c with sparesUsed := tset 0 c.sparesUsed bank (used + 1), rowsRemapped := satInc 32 c.rowsRemapped,
                 event := c.event ||| 2 })
      (s.evidence 12 none).ledger 9 ⟨.stackCtl, k⟩ (.memError 1 a 2)
    else s.forEach ((a / chunkSize) :: Config.rowChunks row).eraseDups (fun c s => s.retireChunk k (c * chunkSize))

/-- The word or codeword of an address carries poison already: the scrubber recognises the mark and counts nothing (R365). -/
def State.knownPoison (s : State) (sp : Space) (a : Nat) : Bool := s.mem.poisoned (key sp a) 1

/-- An uncorrectable word or codeword found at an address (R368, R360). -/
def State.scrubBad (sp : Space) (a : Nat) (s : State) : State :=
  match s.ownerOf sp a with
  | some (e, t, p, k) => s.poisonChunk e t p k (some (a % chunkSize)) true
  | none =>
    let u := protUnit sp a
    let s := { s with mem := s.mem.markN (key sp u.1) u.2 }
    match sp with
    | .hbm => s.evidence 11 none
    | .sram f => s.evidence 9 (some f)
    | _ => s.evidence 9 none

/-- CHUNK_SUM of a READONLY object's chunk, checked once per pass as its last word is read (R368). -/
def State.scrubSum (sp : Space) (a : Nat) (s : State) : State :=
  if a % chunkSize < chunkSize - 32 then s
  else
    match s.ownerOf sp a with
    | some (e, t, p, k) =>
      let o := s.obj e
      let base := a / chunkSize * chunkSize
      if o.readonly && o.summed && !s.chunkPoisoned sp base && o.chunkSums.getD k 0 != chunkSum (s.rd sp base chunkSize) then
        let s := s.modMover ((spaceDie sp a).getD 0) (fun m => { m with sumRejects := satInc 32 m.sumRejects })
        s.poisonChunk e t p k none false
      else s
    | none => s

/-- What a scrubber reads: a stack controller its HBM, a commons and a fold their SRAM. -/
def scrubSpace (u : UnitId) : Option Space :=
  match u.ty with
  | .stackCtl => some .hbm
  | .commons => some (.commons u.idx)
  | .fold => some (.sram u.idx)
  | _ => none

/-- SCRUB_STEP (R368): a word or codeword is read; a corrected one is written back, an uncorrectable one poisoned. Nothing happens while control core 4 restarts (R39). -/
def execScrubStep (u : UnitId) (address : Nat) (finding : ScrubFinding) (lastOfPass : Bool) (s : State) : Outcome :=
  .next (
    if (s.core 4).restarting then s else
    match scrubSpace u with
    | none => s
    | some sp =>
      if !s.accepts u then s
      else
        let s := match finding, sp with
          | .clean, _ => s
          | .corrected1, .hbm =>
            (s.modStackCtl u.idx (fun c => { c with corrected1 := satInc 64 c.corrected1 })).rowHit u.idx address
          | .corrected2, .hbm =>
            ((s.modStackCtl u.idx (fun c => { c with corrected2 := satInc 64 c.corrected2 })).hbm2Ev).rowHit u.idx address
          | .uncorrectable, .hbm =>
            if s.knownPoison sp address then s
            else (s.modStackCtl u.idx (fun c => { c with uncorrectable := satInc 32 c.uncorrectable, event := c.event ||| 1 })).scrubBad
              sp address
          | .uncorrectable, .commons d =>
            if s.knownPoison sp address then s
            else (s.modMover d (fun m => { m with sramUncorrectable := satInc 32 m.sramUncorrectable, event := m.event ||| 4 })).scrubBad
              sp address
          | .uncorrectable, _ => if s.knownPoison sp address then s else s.scrubBad sp address
          | _, .commons d => (s.modMover d (fun m => { m with sramCorrected := satInc 64 m.sramCorrected })).sramCorrectedEv
          | _, _ => s.sramCorrectedEv
        let s := s.scrubSum sp address
        match sp with
        | .hbm => s.modStackCtl u.idx (fun c =>
            { c with scrubActive := !lastOfPass, scrubPasses := if lastOfPass then satInc 32 c.scrubPasses else c.scrubPasses })
        | .commons d => if lastOfPass then s.modMover d (fun m => { m with scrubPasses := satInc 32 m.scrubPasses }) else s
        | _ => s)

end Sys2Proof.Machine
end

