-- ==== Sys2Proof/Machine/FoldOps.lean ====
section
/-! DEFINITION. What the commands of a fold share: group states and ports (R189 to R193, R208 to R211), completion
records (R230 to R232), the end of tiles and ranks (R185, R186, R226, R231), mismatches (R173, R593). -/

namespace Sys2Proof.Machine

/-! ## Groups -/

def Fold.lgroup (x : Fold) (slot j : Nat) : LGroup := tget {} (x.slot slot).groups j
def Fold.modLgroup (x : Fold) (slot j : Nat) (g : LGroup → LGroup) : Fold :=
  x.modSlot slot (fun c => { c with groups := tmod {} c.groups j g })

/-- The physical group that holds a logical group. -/
def Fold.physOf (x : Fold) (slot j : Nat) : Nat := ((x.lgroup slot j).phys).getD 0

/-- Physical groups of a context that hold nothing. -/
def Fold.freePhys (x : Fold) (slot : Nat) : List Nat :=
  (List.range 8).filter (fun p => (x.group p).owner == some slot && !(x.group p).used)

/-- A logical group takes a state, shown by its physical group too. -/
def Fold.setGState (slot j : Nat) (st : GState) (x : Fold) : Fold :=
  let x := x.modLgroup slot j (fun g => { g with state := st })
  match (x.lgroup slot j).phys with
  | some p => x.modGroup p (fun g => { g with state := st })
  | none => x

/-- A physical group holds nothing again. -/
def Fold.freePhysGroup (p : Nat) (x : Fold) : Fold := x.modGroup p (fun g => { owner := g.owner })

/-- A logical group becomes UNUSED. -/
def Fold.freeGroup (slot j : Nat) (x : Fold) : Fold :=
  let x := match (x.lgroup slot j).phys with | some p => x.freePhysGroup p | none => x
  x.modLgroup slot j (fun _ => {})

/-- A logical group is given a physical group. -/
def Fold.holdGroup (slot j p : Nat) (st : GState) (mode : Nat) (x : Fold) : Fold :=
  let x := x.modGroup p (fun g => { g with used := true, working := false, logical := j, state := st, mode, accs := [] })
  x.modLgroup slot j (fun g => { g with state := st, mode, phys := some p })

/-- A physical group becomes a working group of a CONTINUE tile (R191). -/
def Fold.takeWorking (p j : Nat) (x : Fold) : Fold :=
  x.modGroup p (fun g => { g with used := true, working := true, logical := j, state := .unused, mode := 0, accs := [] })

def Fold.port (x : Fold) (p : Nat) : Option PortJob := tget none x.ports p
def Fold.setPort (p : Nat) (j : Option PortJob) (x : Fold) : Fold := { x with ports := tset none x.ports p j }

/-- The logical groups a tile names, its fold target included. -/
def TileEntry.named (t : TileEntry) : List Nat :=
  (List.range t.k).map (fun i => t.lgroup + i) ++ (if t.folds then [t.target] else [])

/-- A fold target that the tile had only been promised a group for gives it back. -/
def Fold.freeTarget (slot : Nat) (t : TileEntry) (x : Fold) : Fold :=
  if t.folds && decide ((x.lgroup slot t.target).state = .unused) then x.freeGroup slot t.target else x

/-- Clear what a tile accumulated into (R194): working groups are freed, FRESH named groups become UNUSED; a target
that the tile had only been promised a group for gives it back. -/
def Fold.clearTile (t : Tile) (x : Fold) : Fold :=
  let x := if t.entry.start = 1 then t.into.foldl (fun x p => x.freePhysGroup p) x
    else (List.range t.entry.k).foldl (fun x i => x.freeGroup t.slot (t.entry.lgroup + i)) x
  x.freeTarget t.slot t.entry

/-- HELD groups of a context other than the named ones, least recently used first, ties to the lower (R210). -/
def Fold.spillOrder (x : Fold) (slot : Nat) (named : List Nat) : List Nat :=
  let l := (List.range 16).filter (fun j => !named.contains j && decide ((x.lgroup slot j).state = .held))
  l.foldl (fun acc j =>
    let u := (x.lgroup slot j).lastUse
    acc.filter (fun i => decide ((x.lgroup slot i).lastUse ≤ u)) ++ [j] ++
      acc.filter (fun i => decide (u < (x.lgroup slot i).lastUse))) []

/-- The spill area of a context (R208): its base in fold SRAM; records of logical group `j`. -/
def Ctx.spillRecords (c : Ctx) (j : Nat) : Nat := c.spillBase + 1024 + j * 65536
def Ctx.spillDir (c : Ctx) (j : Nat) : Nat := c.spillBase + j * 64

/-- Accumulators of a group (R193). -/
def groupAccs : Nat := 4096

/-- Records `lo` to `lo + n - 1` of a group, each NAN one with a free significand and exponent. -/
def State.accRecords (accs : List (Nat × Acc)) (mode : Nat) : Nat → Nat → State → Bytes × State
  | _, 0, s => ([], s)
  | lo, n + 1, s =>
    let x := tget ({} : Acc) accs lo
    let f := if x.nan then
        (let (a, s) := s.takeFree 64; let (b, s) := s.takeFree 12; (b ++ a, s)) else (0#76, s)
    let r := State.accRecords accs mode (lo + 1) n f.2
    (x.record mode f.1 ++ r.1, r.2)

/-- Bytes reach the digest unit of a fold (R542). -/
def State.digests (f n : Nat) (s : State) : State := s.modFold f (fun x => { x with digestDue := x.digestDue + n })

/-! ## Seeds and sampling (R134, R135, R140 to R142, R145, R224) -/

/-- The tile coordinates of tile `j` (R224). -/
def coordsOf (d : TaskDesc) (j : Nat) : Bytes :=
  let c := fixLen 16 d.coords
  c.take 12 ++ leBytes 4 ((fieldAt c 12 4 + j) % 2 ^ 32)

/-- The seed of a tile's stochastic rounding, where the task selects it. -/
def seedOf (d : TaskDesc) (j : Nat) : Option W64 :=
  if d.sr then some (roundingSeed d.digest (coordsOf d j)) else none

/-- The tile is selected for error sampling (R141). -/
def sampled (d : TaskDesc) (h : WHeader) (j : Nat) : Bool :=
  d.inst != 0 && h.master && h.sampleLog2 != 31 &&
  leNat (shakeTag 8 [0x4D, 0x56, 0x4E, 0x2D, 0x45, 0x53] (fixLen 32 d.digest ++ coordsOf d j)) % 2 ^ h.sampleLog2 == 0

/-- The capabilities of a fold show its error sampler (R145). -/
def State.samplerThere (s : State) (f : Nat) : Bool :=
  match (s.unit ⟨.fold, f⟩).capsDegraded with
  | none => true
  | some c => bitOf c.toNat 7

/-- Weight row `w` of the master copy (R126), none where a chunk of it that the row needs is not resident on the
device, POISONED or late (R142). -/
def State.masterRow (s : State) (h : WHeader) (f w : Nat) : Option (List Num) :=
  let e := hdlEntry h.masterHandle
  let kw := fmtK h.fmt
  let n := kw * fmtWidth h.masterFmt / 8
  let off := w / h.per * masterStride h.masterFmt h.k + w % h.per * n
  let there := fun (o : Nat) => match s.readPlan e (o / chunkSize) (some f) with | .at' _ _ low => !low | _ => false
  if s.stale h.masterHandle || decide ((s.obj e).size < off + n) || !there off || !there (off + n - 1) then none
  else
    let room := min n (chunkSize - off % chunkSize)
    let b := (s.objRead e off room (some f)).getD [] ++ (s.objRead e (off + room) (n - room) (some f)).getD []
    some ((List.range kw).map (fun i => elemVal h.masterFmt (elemCode h.masterFmt b i)))

/-- Σ(y − ym)² and Σym² of the pairs (y, ym), in FP64 in ascending order, and the largest of |y − ym| / max(|ym|,
2^-126) in FP32 (R140, log entry 20). -/
def sampleSums (l : List (Num × Num)) : Nat × Nat × Nat :=
  l.foldl (fun a p =>
    let y := fmtFp64.encode p.1
    let m := fmtFp64.encode p.2
    let d := fmtFp64.add y (fmtFp64.neg m)
    let abs := fun (v : Nat) => fmtFp32.encode (fmtFp64.decode (v % 2 ^ 63))
    let q := fmtFp32.div (abs d) (fmtFp32.max (abs m) 0x00800000)
    (fmtFp64.add a.1 (fmtFp64.mul d d), fmtFp64.add a.2.1 (fmtFp64.mul m m), fmtFp32.max a.2.2 q)) (0, 0, 0)

/-- A sampled tile has been accumulated: its sums join the report area of its weight object; an abandoned sample is
counted as skipped (R140, R142, R143). -/
def State.sampleTile (f : Nat) (t : Tile) (s : State) : State :=
  match t.sample, s.reportObj t.header with
  | some ref, some e =>
    if t.sampleLost then s.reportAdd e 0x24 4 1
    else
      let val := fun (a : Nat) =>
        let x := tget ({} : Acc) ((s.fold f).group (t.into.getD (a / 4096) 0)).accs (a % 4096)
        if x.nan then Num.nan else Num.fin x.sig x.exp
      let r := sampleSums ((List.range (t.entry.rows * shapeM t.entry.shape)).map (fun a => (val a, tget (.fin 0 0) ref a)))
      let s := s.reportAdd e 0x20 4 1
      match s.objRead e 0x28 20 none with
      | some b =>
        s.objWrite e 0x28 (leBytes 8 (fmtFp64.add (fieldAt b 0 8) r.1) ++ leBytes 8 (fmtFp64.add (fieldAt b 8 8) r.2.1) ++
          leBytes 4 (fmtFp32.max (fieldAt b 16 4) r.2.2))
      | none => s
  | _, _ => s

/-! ## Completion buffer (R230 to R232) -/

/-- Completion buffer entries in use: records that wait and entries reserved. -/
def Fold.cmpUsed (x : Fold) : Nat := x.cmp.length + x.cmpReserved

/-- Grazing task records with OK and with JOB_LOST are counted for PROGRESS (Table 19-11). -/
def State.countTask (r : CmpRec) (s : State) : State :=
  if r.kind ≠ 2 ∨ r.inst = 0 then s
  else if r.status = .ok then s.modHealth (fun h => { h with grazingTasks := satInc 64 h.grazingTasks })
  else if r.status = .jobLost then s.modHealth (fun h => { h with grazingLost := satInc 64 h.grazingLost })
  else s

/-- A record takes the entry reserved for it. -/
def State.putCmp (f : Nat) (r : CmpRec) (s : State) : State :=
  (s.countTask r).modFold f (fun x => { x with cmp := x.cmp ++ [r], cmpReserved := x.cmpReserved - 1 })

/-- The task whose rank runs in a slot. -/
def State.slotTask (s : State) (f slot : Nat) : Option (Nat × Task) :=
  match ((s.fold f).slot slot).task with
  | some n => (s.task n).map (fun t => (n, t))
  | none => none

/-- A completion record of a rank (Table 07-5). -/
def State.cmpRec (s : State) (t : Task) (kind flags : Nat) (st : Status) (f rank tile : Nat) : CmpRec :=
  { kind, flags, status := st, inst := t.desc.inst, fold := f, ctxId := t.desc.ctxId,
    generation := t.desc.generation, issued := t.desc.generation, rank, tile, tag := t.desc.tag, time := s.time.now, queue := t.desc.cq }

/-! ## Provenance of a task (R541) -/

/-- The CONTENT_DIGEST of a tile's weights as Table 17-3 takes it; free where the object was never filled into T1. -/
def State.weightDigest (h : Nat) (s : State) : Bytes × State :=
  let o := s.obj (hdlEntry h)
  if !o.readonly then (List.replicate 32 0xFF#8, s)
  else if o.summed then (fixLen 32 o.contentDigest, s)
  else s.freeBytes 32

/-- The status of tile `j` over its ranks: the first in rank order that is not OK. -/
def Task.tileStatus (t : Task) (j : Nat) : Status :=
  match t.outputs.find? (fun o => o.tile == j && decide (o.status ≠ .ok)) with
  | some o => o.status
  | none => .ok

/-- The converted bytes of tile `j` in ascending accumulator order, then ascending rank within it. -/
def Task.tileBytes (t : Task) (j : Nat) : Bytes :=
  (List.range 4).flatMap (fun g => (List.range t.ranks.length).flatMap (fun r =>
    (t.outputs.filter (fun o => o.tile == j && o.rank == r)).flatMap (fun o =>
      (o.bytes.filter (fun p => p.1 == g)).flatMap (fun p => p.2))))

/-- Item 8 of Table 17-3 for the tiles from `j` on. -/
def State.tileItems (t : Task) : List (TileEntry × List PassEntry) → Nat → State → Bytes × State
  | [], _, s => ([], s)
  | (e, _) :: r, j, s =>
    if t.outputs.all (fun o => o.tile != j) then State.tileItems t r (j + 1) s
    else
      let (d, s) := s.weightDigest e.weight
      let st := t.tileStatus j
      let o := if st = .ok then shakeTag 32 [0x4D, 0x56, 0x4E, 0x2D, 0x4F, 0x54] (t.tileBytes j) else List.replicate 32 0#8
      let (rest, s) := State.tileItems t r (j + 1) s
      (d ++ leBytes 2 st.code ++ o ++ rest, s)

/-- The stationary bytes of every plane load, in pass order and ascending rank within each pass. -/
def Task.stationary (t : Task) : Bytes :=
  t.tiles.zipIdx.flatMap (fun p => (List.range p.1.2.length).flatMap (fun q =>
    (List.range t.ranks.length).flatMap (fun r =>
      (t.inputs.filter (fun i => i.tile == p.2 && i.pass == q && i.rank == r)).flatMap (fun i => i.bytes))))

/-- PV (Table 17-3). -/
def State.provDigest (t : Task) (s : State) : Bytes × State :=
  let (items, s) := State.tileItems t t.tiles 0 s
  let input := shakeTag 32 [0x4D, 0x56, 0x4E, 0x2D, 0x49, 0x4E] (t.argBytes ++ t.stationary)
  (shakeTag 32 [0x4D, 0x56, 0x4E, 0x2D, 0x50, 0x56]
    (leBytes 16 Config.classString.toNat ++ fixLen 32 t.desc.digest ++ fixLen 32 t.listDigest ++
      leBytes 1 t.desc.ranks ++ leBytes 1 (b2n t.desc.sr) ++ fixLen 16 t.desc.coords ++ items ++ input), s)

/-! ## The end of ranks and tasks (R186, R231, R236) -/

def State.modTask (n : Nat) (f : Task → Task) (s : State) : State := s.setTask n ((s.task n).map f)

/-- The first status that is not OK stays. -/
def worse (a b : Status) : Status := if a = .ok then b else a

/-- A task has ended: its barrier addition queues up (R236) and it is forgotten. -/
def State.taskEnded (n : Nat) (s : State) : State :=
  match s.task n with
  | some t =>
    let s := if t.desc.barrierEn then s.modDisp (fun d => { d with adds := d.adds ++ [t.desc.barrier] }) else s
    s.setTask n none
  | none => s

/-- The task records of a task whose every rank has ended are written where they waited for PV, which goes with the
first of them (R541). -/
def State.flushRecords (n : Nat) (s : State) : State :=
  match s.task n with
  | none => s
  | some t =>
    match t.records with
    | [] => s
    | r :: rest =>
      let (pv, s) := s.provDigest t
      let done := fun (r : CmpRec) => ({ r with time := s.time.now, status := t.status } : CmpRec)
      s.forEach ({ done r with pv := some (pv, t.desc.digest, t.desc.ranks) } :: rest.map done)
        (fun r s => s.putCmp r.fold r)

/-- Provenance seals the tasks of this instance now (R539, R541). -/
def State.seals (s : State) (inst : Nat) : Bool := s.prov.enabled && inst != 0 && bitOf s.prov.instances inst

/-- A rank ends (R231): its task record is written with the task's status, its slot is idle again; the last rank
ends the task. -/
def State.endRank (f slot tile : Nat) (s : State) : State :=
  match s.slotTask f slot with
  | none => s
  | some (n, t) =>
    let c := (s.fold f).slot slot
    let r := s.cmpRec t 2 c.flags t.status f c.rank tile
    let s := s.modFold f (fun x => (x.modSlot slot (fun c =>
      { c with state := if c.releasing then .releasing else .idle, task := none, flags := 0 })))
    let s := s.modFold f (fun x => { x with tasksDone := satInc 64 x.tasksDone })
    let s := if s.seals t.desc.inst then s.modTask n (fun t => { t with records := t.records ++ [r] }) else s.putCmp f r
    let s := s.modTask n (fun t => { t with done := t.done ++ [c.rank] })
    if t.ranks.length ≤ t.done.length + 1 then (s.flushRecords n).taskEnded n else s

/-- A rank whose tiles are through, or whose task has a status that ends it, ends once nothing of it is left on the
fold. -/
def State.settleRank (f slot : Nat) (s : State) : State :=
  let x := s.fold f
  let c := x.slot slot
  match s.slotTask f slot with
  | none => s
  | some (_, t) =>
    let idle := (match x.tile with | some q => q.slot != slot | none => true) && x.closing.all (fun q => q.slot != slot)
    if idle && decide (c.state = .running) && (decide (t.status ≠ .ok) || decide (t.desc.tileCount ≤ c.nextTile)) then
      s.endRank f slot (c.nextTile - 1)
    else s

/-- What a tile leaves for provenance. -/
def State.noteTile (n tile rank : Nat) (st : Status) (bytes : List (Nat × Bytes)) (s : State) : State :=
  s.modTask n (fun t => if t.sealed then { t with outputs := t.outputs ++ [{ tile, rank, status := st, bytes }] } else t)

/-- A tile of a slot is over with a status and flags: its record where one is due, the task's status, the counters of
Table 06-10 (R185, R186, R231). -/
def State.tileOver (f slot index : Nat) (st : Status) (flags : Nat) (reserved : Bool) (bytes : List (Nat × Bytes))
    (s : State) : State :=
  match s.slotTask f slot with
  | none => s
  | some (n, t) =>
    let c := (s.fold f).slot slot
    let s := s.modFold f (fun x => { x with
      satTiles := if bitOf flags 0 then satInc 32 x.satTiles else x.satTiles
      poisonTiles := if bitOf flags 1 then satInc 32 x.poisonTiles else x.poisonTiles
      nanTiles := if bitOf flags 2 then satInc 32 x.nanTiles else x.nanTiles
      inexactTiles := if bitOf flags 3 then satInc 32 x.inexactTiles else x.inexactTiles
      accEvent := x.accEvent ||| b2n (bitOf flags 0) ||| 2 * b2n (bitOf flags 2) })
    let s := s.modFold f (fun x => x.modSlot slot (fun c => { c with flags := c.flags ||| flags }))
    let s := if reserved then s.putCmp f (s.cmpRec t 1 flags st f c.rank index) else s
    let s := s.noteTile n index c.rank st bytes
    s.modTask n (fun t => { t with status := worse t.status st })

/-- Ranks of a task whose status ends it stop waiting for a cross-rank reduction. -/
def State.releaseReducers (n : Nat) (s : State) : State :=
  match s.task n with
  | none => s
  | some t =>
    if t.status = .ok then s
    else s.forEach t.ranks (fun p s =>
      let x := s.fold p.1
      match x.closing.find? (fun q => q.slot == p.2 && decide (q.phase = .reducing)) with
      | none => s
      | some q =>
        let s := s.modFold p.1 (fun x =>
          let x := ((List.range q.entry.k).foldl (fun x i => x.freeGroup p.2 (q.entry.lgroup + i)) x).freeTarget p.2 q.entry
          { x with closing := x.closing.filter (fun y => !(y.slot == q.slot && y.index == q.index)) })
        (s.tileOver p.1 p.2 q.index t.status q.flags q.reserved []).settleRank p.1 p.2)

/-- A tile is over; whatever may follow from it follows. -/
def State.finishTile (f slot index : Nat) (st : Status) (flags : Nat) (reserved : Bool) (bytes : List (Nat × Bytes))
    (s : State) : State :=
  let n := (((s.fold f).slot slot).task).getD 0
  let s := s.tileOver f slot index st flags reserved bytes
  (s.releaseReducers n).settleRank f slot

/-! ## Mismatches (R173, R592, R593) -/

/-- Temperature and activity bands of Table 19-9; temperature in 1/16 °C. -/
def tempBand (t : Int) : Nat := if t < 45 * 16 then 0 else min 7 (((t - 45 * 16) / 160).toNat + 1)
def actBand (a : Nat) : Nat := min 3 (a / 25)

/-- Format class of Table 19-9. -/
def formatClass (fmt : Nat) : Nat :=
  if fmt = 1 ∨ fmt = 2 then 0
  else if fmt = 0x0B ∨ fmt = 0x0C then 2
  else if fmt = 0x0D ∨ fmt = 0x0E ∨ fmt = 0x0F then 3
  else 1

/-- Bin index of R592. -/
def binIndex (tb ab shape cls : Nat) : Nat := ((tb * 4 + ab) * 5 + shape) * 4 + cls

/-- The snapshot of a fold with its bin (Table 19-2): the neighbours' activity is a free value (log entry 11). -/
def State.foldSnapshot (f shape fmt cls : Nat) (s : State) : Bytes × Nat × State :=
  let temp := s.dieTemp (f / 16)
  let t := leBytes 2 (ofInt 16 temp)
  let (sup, s) := s.takeFree 16
  let (droop, s) := s.takeFree 16
  let (act, s) := s.takeFree 8
  let a := act.toNat % 101
  let bin := binIndex (tempBand temp) (actBand a) shape (formatClass fmt)
  (t ++ t ++ t ++ t ++ leBytes 2 sup.toNat ++ leBytes 2 droop.toNat ++ leBytes 4 (s.clockKhz .fold f) ++
    leBytes 1 a ++ leBytes 1 shape ++ leBytes 1 fmt ++ leBytes 1 cls ++ leBytes 2 bin ++ List.replicate 10 0#8, bin, s)

/-- The standing fences of a unit. -/
def State.fencesOf (s : State) (u : UnitId) : List FenceMode := tget [] s.flash.fences (unitKey u)
def State.setFences (u : UnitId) (l : List FenceMode) (s : State) : State :=
  { s with flash := { s.flash with fences := tset [] s.flash.fences (unitKey u) l } }

/-- A conditional fence is placed on a fold for the temperature band and the activity band of a bin (R593, R594). -/
def State.placeCond (f bin : Nat) (s : State) : State :=
  let u : UnitId := ⟨.fold, f⟩
  let tb := bin / 80
  let ab := bin / 20 % 4
  if (s.fencesOf u).contains (.cond tb ab) then s
  else
    let s := s.setFences u (s.fencesOf u ++ [.cond tb ab])
    let s := { s with health := { s.health with
      condFenced := if s.health.condFenced.contains f then s.health.condFenced else s.health.condFenced ++ [f]
      foldHealth := tmod {} s.health.foldHealth f (fun h => { h with condBin := bin })
      event := s.health.event ||| 2 } }
    s.ledger 4 u (.fence 2 tb ab)

/-- Firmware considers a fold's mismatches over its last 10^12 checked passes (R593). -/
def State.condCheck (f : Nat) (s : State) : State :=
  let x := s.fold f
  let l := x.bins.filter (fun p => decide (x.checkedPasses < p.2 + 1000000000000))
  match l with
  | p :: r => if 3 ≤ l.length ∧ r.all (fun q => q.1 == p.1) then s.placeCond f p.1 else s
  | [] => s

/-- One failed comparison (R173): `side` is 1 for a row comparison. -/
def State.mismatch (f side group : Nat) (s : State) : State :=
  match (s.fold f).tile with
  | none => s
  | some t =>
    let last := side + 2 * group + 256 * t.entry.wfmt + 65536 * t.entry.shape + 524288 * t.slot
    let cls := b2n ((s.fold f).slot t.slot).radio
    let (sn, bin, s) := s.foldSnapshot f t.entry.shape t.entry.wfmt cls
    let s := s.modFold f (fun x => { x with
      mismatches := satInc 32 x.mismatches
      lastMismatch := last
      arrEvent := x.arrEvent ||| 1
      bins := x.bins ++ [(bin, x.checkedPasses)]
      tile := some { t with failed := true } })
    let s := s.ledgerWith 5 ⟨.fold, f⟩ (.mismatch last (s.fold f).checkedPasses) (some sn)
    s.condCheck f

/-- Long commands that a state change makes impossible to finish end with CANCELLED (R96). -/
def State.cancelAt (m seq op : Nat) (s : State) : State := s.commandDone m seq op .cancelled

/-- Every ASSUME under way is given up: the cells it has taken are removed. -/
def State.cancelAssume (s : State) : State :=
  s.forEach s.health.assuming (fun a s =>
    ((s.dropAssumed a.2.2.2.2).modHealth (fun h => { h with assuming := h.assuming.erase a })).cancelAt a.1 a.2.1 0x0609)

/-- A PREPARE_REMOVAL under way is given up. -/
def State.cancelRemoval (s : State) : State :=
  match s.power.removal with
  | none => s
  | some (m, q, _) => (s.modPower (fun p => { p with removal := none })).cancelAt m q 0x0802

/-- An entry to NIGHT under way is given up, and every wake that was to follow it. -/
def State.cancelNight (s : State) : State :=
  let s := match s.power.nightCmd with
    | none => s
    | some (m, q) => (s.cancelAt m q 0x0801).cancelAt m q 0x0802
  let s := s.forEach s.power.wakeAfter (fun p s => s.cancelAt p.1 p.2 0x0801)
  s.modPower (fun p => { p with nightCmd := none, wakeAfter := [], entering := false, removing := false })

/-- The device enters FENCED by a fatal error or DEV_FENCE (R241, Table 03-6). -/
def State.enterFenced (s : State) : State :=
  if s.dev.dstate = .rom ∨ s.dev.dstate = .fenced then s
  else
    let s := { s with dev := { s.dev with fencedFrom := s.dev.dstate },
                      health := { s.health with fencedAt := s.time.now } }
    (s.setDevice .fenced).cancelAssume.cancelRemoval.cancelNight

end Sys2Proof.Machine
end

