-- ==== Sys2Proof/Machine/Array.lean ====
section
/-! DEFINITION. The input-stationary array of a fold (chapter 05): tile start, activity ramp, plane loads, issue
cycles with checksums, abandonment at the penumbra. -/

namespace Sys2Proof.Machine

/-! ## Starting a tile (R150, R157, R162, R175, R176, R190, R191, R199, R202, R203, R210, R211, R232) -/

/-- A tile's status, where the objects it names do not allow it (R63, R125, R127, R341, R344). -/
def State.objectsBad (t : TileEntry) (inst : Nat) (s : State) : Option Status :=
  match s.handleStatus t.weight inst with
  | some st => some st
  | none =>
    let o := s.obj (hdlEntry t.weight)
    if o.kind ≠ 1 then some .badArg
    else if o.headerBad then some .badArg
    else if o.headerless ∧ !(roundsInTree t.wfmt) then some .badArg
    else if o.headerless ∧ (t.wk = 0 ∨ t.wk % 16 ≠ 0) then some .badArg
    else none

/-- Bytes a tile's conversion writes. -/
def TileEntry.outSize (t : TileEntry) : Nat :=
  if t.endAt = 0 then t.rows * shapeM t.shape * (fmtWidth t.ofmt / 8)
  else if t.endAt = 3 then (if modeIdx t.mode then 2048 * 8 else 4096 * (fmtWidth t.ofmt / 8))
  else 0

/-- The status of a tile whose output object does not take its results (R341, R344, log entry 18). -/
def State.outputBad (t : TileEntry) (inst : Nat) (s : State) : Option Status :=
  if t.outSize = 0 then none
  else
    match s.handleStatus t.output inst with
    | some st => some st
    | none =>
      let o := s.obj (hdlEntry t.output)
      if o.readonly then some .denied
      else if o.size < t.outOffset + t.outSize then some .badArg
      else none

/-- A tile's rows or columns reach outside its weight object, its share or the commons (log entry 18). -/
def reachBad (t : TileEntry) (ps : List PassEntry) (h : WHeader) (share : Nat) : Bool :=
  h.fmt != t.wfmt || h.per == 0 ||
  ps.any (fun p => decide (h.rows ≤ (p.wrow + (t.rows - 1) * h.per) / h.per) ||
    decide ((if p.fromCommons then 384 * 2 ^ 20 else share) < p.statOffset + shapeM t.shape * statSize t.wfmt t.sfmt))

/-- A group the tile names is at work, or is named by a tile whose results are still leaving (R191). -/
def groupsBusy (x : Fold) (slot : Nat) (t : TileEntry) : Bool :=
  t.named.any (fun j =>
    (match (x.lgroup slot j).state with
     | .unused | .held | .spilled => false
     | _ => true) ||
    x.closing.any (fun q => q.slot == slot && q.entry.named.contains j))

/-- The fold target of a tile holds nothing yet. -/
def Fold.newTarget (x : Fold) (slot : Nat) (t : TileEntry) : Bool :=
  t.folds && decide ((x.lgroup slot t.target).state = GState.unused)

/-- Physical groups that a tile and its fold target take together; a new target of a CONTINUE tile takes the first working
group that its merge frees. -/
def groupsTaken (x : Fold) (slot : Nat) (t : TileEntry) : Nat :=
  if t.start = 0 then t.k + (if t.folds then 1 else 0)
  else 2 * t.k + (if t.folds && !x.newTarget slot t then 1 else 0)

/-- The ranges of R190 that a tile's groups break, and its fold target (R203). -/
def rangeBad (logical phys : Nat) (t : TileEntry) : Bool :=
  decide (logical < t.lgroup + t.k) || decide (phys < (if t.start = 0 then t.k else 2 * t.k)) ||
  (t.folds && decide (logical ≤ t.target))

/-- What the groups of the context do not allow (R190, R191, R202, R203, log entry 19). -/
def groupsBad (x : Fold) (slot : Nat) (t : TileEntry) : Bool :=
  let c := x.slot slot
  let states := (List.range t.k).map (fun i => (x.lgroup slot (t.lgroup + i)))
  rangeBad c.logical c.phys t || decide (c.phys < groupsTaken x slot t) ||
  (if t.start = 0 then states.any (fun (g : LGroup) => decide (g.state ≠ GState.unused))
   else states.any (fun (g : LGroup) => decide (g.state = GState.unused) || g.mode != 0)) ||
  (t.folds && decide ((x.lgroup slot t.target).state ≠ GState.unused) && (x.lgroup slot t.target).mode != t.mode)

/-- Physical groups that a tile must still be given: restores, new named groups or working groups, a new target of a FRESH
tile. -/
def groupsNeeded (x : Fold) (slot : Nat) (t : TileEntry) : Nat :=
  (t.named.filter (fun j => decide ((x.lgroup slot j).state = .spilled))).length + t.k +
  (if x.newTarget slot t && t.start == 0 then 1 else 0)

/-- Physical groups of a slot that a spill under way will free. -/
def Fold.spilling (x : Fold) (slot : Nat) : Nat :=
  ((List.range 8).filter (fun p => match x.port p with
    | some j => j.slot == slot && decide (j.action = .spill)
    | none => false)).length

/-- Spill or restore what the tile needs; answers none where nothing is needed (R210, R211). A radio context never
spills (R188). -/
def spillRestore (slot : Nat) (t : TileEntry) (x : Fold) : Option Fold :=
  let spilled := t.named.filter (fun j => decide ((x.lgroup slot j).state = .spilled))
  let free := x.freePhys slot
  let need := groupsNeeded x slot t
  if free.length < need then
    let order := if (x.slot slot).radio then [] else x.spillOrder slot t.named
    some ((order.take (need - (free.length + x.spilling slot))).foldl (fun x j =>
      let p := x.physOf slot j
      (x.setGState slot j .spilling).setPort p (some ⟨slot, j, .spill⟩)) x)
  else if spilled.isEmpty then none
  else some ((spilled.zip free).foldl (fun x q =>
      let mode := (x.lgroup slot q.1).mode
      (x.holdGroup slot q.1 q.2 .restoring mode).setPort q.2 (some ⟨slot, q.1, .restore⟩)) x)

/-- No group that the tile lacks will ever be freed: a radio context, which never spills, holds them with totals of its own
(log entry 19). -/
def groupsStuck (x : Fold) (slot : Nat) (t : TileEntry) : Bool :=
  (x.slot slot).radio && decide ((x.freePhys slot).length < groupsNeeded x slot t) &&
  x.closing.all (fun q => q.slot != slot)

/-- Neither plane holds anything for the tiles to come, and nothing is loaded ahead. -/
def Fold.dropPlanes (x : Fold) : Fold :=
  { x with planes0 := { x.planes0 with complete := false }, planes1 := { x.planes1 with complete := false }, ahead := none }

/-- The tile is given its groups and put on the array. A switch of context leaves both planes to the newcomer (R162,
R191, R221); the next tile of the same context finds its first load where that was done ahead (R157). -/
def placeTile (slot index : Nat) (t : TileEntry) (ps : List PassEntry) (h : WHeader) (reserve sample : Bool) (now : Nat)
    (x : Fold) : Fold :=
  let free := x.freePhys slot
  let into := free.take t.k
  let x := if t.start = 1 then (into.zip (List.range t.k)).foldl (fun x q => x.takeWorking q.1 (t.lgroup + q.2)) x
    else (into.zip (List.range t.k)).foldl (fun x q => x.holdGroup slot (t.lgroup + q.2) q.1 .unused 0) x
  let x := match (free.drop t.k).head? with
    | some p => if x.newTarget slot t && t.start == 0 then x.holdGroup slot t.target p .unused t.mode else x
    | none => x
  let x := t.named.foldl (fun x j => x.modLgroup slot j (fun g => { g with lastUse := x.tilesStarted + 1 })) x
  let switch := x.lastCtx != some slot
  let loaded := !switch && x.ahead == some (slot, index)
  let x := if loaded then { x with ahead := none } else x.dropPlanes
  { x with
      tile := some { slot, index, entry := t, passes := ps, into, header := h, reserved := reserve, since := now,
                     rerun := (x.slot slot).secondRun, loads := if loaded then 1 else 0,
                     sample := if sample then some [] else none }
      tilesStarted := x.tilesStarted + 1
      switches := if switch && x.lastCtx.isSome then satInc 64 x.switches else x.switches
      lastCtx := some slot
      context := slot
      shape := t.shape
      stalled := false
      cmpReserved := if reserve then x.cmpReserved + 1 else x.cmpReserved }

/-- Grazing work may run in this device state (Table 03-5); DUSK gates it. -/
def State.grazingRuns (s : State) : Bool :=
  match s.dev.dstate with | .serving | .watched | .standby | .draining => true | _ => false

/-- Radio work may run in this device state (Table 03-5). -/
def State.radioRuns (s : State) : Bool :=
  match s.dev.dstate with | .serving | .watched | .dusk | .draining => true | _ => false

/-- The sequencer may take a tile of the slot now, but for the digest unit. -/
def State.tileReady (s : State) (f slot : Nat) : Bool :=
  let x := s.fold f
  let c := x.slot slot
  x.tile.isNone && x.holdAsked.isNone && !c.paused && decide (c.state = .running) && s.accepts ⟨.fold, f⟩ &&
  (if c.radio then s.radioRuns
   else s.grazingRuns && x.penumbra == 0 && s.disp.resetting.isEmpty && s.health.retests.isEmpty)

/-- The sequencer may take a tile of the slot now: the digest unit holds grazing tiles while it is behind (R542). -/
def State.tileMayStart (s : State) (f slot : Nat) : Bool :=
  s.tileReady f slot && (((s.fold f).slot slot).radio || (s.fold f).digestDue == 0)

/-- The weight header of a tile: read from its object, or given by WK. -/
def State.tileHeader (t : TileEntry) (f : Nat) (s : State) : Fetch × WHeader × State :=
  let e := hdlEntry t.weight
  let o := s.obj e
  if o.headerless then (.bytes [] false, headerlessOf o t, s)
  else
    match s.fetch e 0 64 (some f) with
    | (.bytes b p, s) => (.bytes b p, parseWHeader b, s)
    | (r, s) => (r, parseWHeader [], s)

/-- The tile does not run: it ends with a status, its index counted as run. -/
def State.refuseTile (f slot index : Nat) (st : Status) (s : State) : State :=
  let s := s.modFold f (fun x => x.modSlot slot (fun c => { c with nextTile := index + 1 }))
  s.finishTile f slot index st 0 false []

/-- Start tile `index` of the rank in a slot, whose entries are given. -/
def State.startTile (f slot index : Nat) (d : TaskDesc) (t : TileEntry) (ps : List PassEntry) (s : State) : State :=
  let x := s.fold f
  let c := x.slot slot
  match s.objectsBad t d.inst, s.outputBad t d.inst with
  | some st, _ | none, some st => s.refuseTile f slot index st
  | none, none =>
    match s.tileHeader t f with
    | (.wait _, _, s) => s
    | (.ends st, _, s) => s.refuseTile f slot index st
    | (.bytes _ _, h, s) =>
      if reachBad t ps h c.shareSize || (!c.radio && overCap t ps) then s.refuseTile f slot index .badArg
      else if groupsBusy x slot t then s
      else if t.start = 0 && t.named.any (fun j => j != t.target && decide ((x.lgroup slot j).state = .spilled)) then
        s.refuseTile f slot index .badArg
      else if groupsBad x slot t || groupsStuck x slot t then s.refuseTile f slot index .badArg
      else
        let record := t.report || d.reportAll
        if 64 ≤ x.cmpUsed then s.modFold f (fun x => { x with vecEvent := x.vecEvent ||| 2 })
        else
          match spillRestore slot t x with
          | some x' => s.modFold f (fun _ => x')
          | none =>
            s.modFold f (placeTile slot index t ps h record (sampled d h index && s.samplerThere f) s.time.now)

/-- A task restored by INST_IMPORT reads its tile list anew before its next tile (R570, R571). -/
def State.loadTiles (n : Nat) (t : Task) (s : State) : State :=
  match s.handleStatus t.desc.tileList t.desc.inst with
  | some st => s.modTask n (fun t => { t with status := st })
  | none =>
    match s.readTiles t.desc.tileList t.desc.tileCount 0 with
    | (.wait _, _, _) => s
    | (.ends st, _, s) => s.modTask n (fun t => { t with status := st })
    | (.bytes _ _, tiles, s) => s.modTask n (fun t => { t with tiles })

/-- TILE_START (R191). -/
def execTileStart (fold : Fin 32) (slot : Fin 8) (s : State) : Outcome :=
  .next (
    if !s.tileMayStart fold slot then s
    else
      match s.slotTask fold slot with
      | none => s
      | some (n, t) =>
        let j := ((s.fold fold).slot slot).nextTile
        if t.status ≠ .ok then s.settleRank fold slot
        else if t.tiles.isEmpty then s.loadTiles n t
        else
          match t.tiles[j]? with
          | none => s.settleRank fold slot
          | some (e, ps) => s.startTile fold slot j t.desc e ps)

/-! ## Activity ramp (R163 to R165) -/

def Fold.active (x : Fold) : Plane := if x.activePlane then x.planes1 else x.planes0
def Fold.shadow (x : Fold) : Plane := if x.activePlane then x.planes0 else x.planes1
def Fold.setShadow (p : Plane) (x : Fold) : Fold :=
  if x.activePlane then { x with planes0 := p } else { x with planes1 := p }

/-- A weight row is ready to issue: a tile is there, its stream is there, and its next pass does not wait for its load
once rows have been broadcast (R162: the first load runs during the ramp). -/
def Fold.rowReady (x : Fold) : Bool :=
  match x.tile with
  | some t => t.ended.isNone && !t.endSent && !x.stalled && (!t.begun || t.swapped || x.shadow.complete)
  | none => false

/-- One ramp step: up by one octet while a row is ready, down by one while ramping down. -/
def Fold.rampStep (x : Fold) : Fold :=
  if x.rowReady then
    (if x.octets < 8 then { x with octets := x.octets + 1, rampingDown := false } else { x with rampingDown := false })
  else if x.rampingDown then
    (if x.octets ≤ 1 then { x with octets := 0, rampingDown := false } else { x with octets := x.octets - 1 })
  else x

/-- RAMP_STEP (R164, R165). -/
def execRampStep (fold : Fin 32) (s : State) : Outcome := .next (s.modFold fold Fold.rampStep)

/-- ARRAY_IDLE_TIMEOUT (R165): 32 fold cycles without a broadcast. -/
def execArrayIdleTimeout (fold : Fin 32) (s : State) : Outcome :=
  .next (s.modFold fold (fun x =>
    if 32 ≤ x.idle ∧ 0 < x.octets ∧ !x.rowReady then { x with rampingDown := true } else x))

/-! ## Plane loads (R155 to R157, R166) -/

/-- A load that the sequencer has requested: for pass `pass` of a tile of a slot. -/
structure LoadReq where
  slot : Nat
  index : Nat
  entry : TileEntry
  pass : Nat
  what : PassEntry
  /-- the first load of the tile that follows the one on the array -/
  ahead : Bool
  deriving DecidableEq, Repr

/-- The load that is due (R157): the next one of the tile on the array, then the first one of the next tile of its task. -/
def State.loadDue (s : State) (f : Nat) : Option LoadReq :=
  match (s.fold f).tile with
  | none => none
  | some t =>
    if t.ended.isSome then none
    else
      match (loadPasses t.passes)[t.loads]? with
      | some p => (t.passes[p]?).map (fun q => ⟨t.slot, t.index, t.entry, p, q, false⟩)
      | none =>
        if (s.fold f).ahead.isSome then none
        else
          match s.slotTask f t.slot with
          | some (_, k) =>
            (match k.tiles[t.index + 1]? with
             | some (e, q :: _) => some ⟨t.slot, t.index + 1, e, 0, q, true⟩
             | _ => none)
          | none => none

/-- A load that is due is held while the shadow plane holds a complete load (R157). -/
def State.loaderHeld (s : State) (f : Nat) : Bool := (s.loadDue f).isSome && (s.fold f).shadow.complete

/-- The stationary columns of a load as the loader reads them, with the poison of their words, and what that poison makes of
the tile's status (R360): the words belong to a READONLY T0 copy, or to something that can be written. -/
def State.readColumns (s : State) (f : Nat) (r : LoadReq) : List (Bytes × Bool × Status) :=
  let size := statSize r.entry.wfmt r.entry.sfmt
  let sp : Space := if r.what.fromCommons then .commons (f / 16) else .sram f
  let base := (if r.what.fromCommons then 0 else ((s.fold f).slot r.slot).shareBase) + r.what.statOffset
  (List.range (shapeM r.entry.shape)).map (fun c =>
    let a := base + c * size
    let bad := s.mem.poisoned (key sp a) size
    let readonly := fun (a : Nat) => match s.ownerOf sp a with | some (e, _) => (s.obj e).readonly | none => false
    (s.rd sp a size, bad, if !bad then .ok else if readonly a || readonly (a + size - 1) then .tierUncorrectable else .poisoned))

/-- The checksum cells of a load: the exact sum of the columns at each element position (R156, R166). -/
def checkCells (wfmt sfmt : Nat) (cols : List Bytes) : List Num :=
  let l := cols.map (statColumn wfmt sfmt)
  (List.range (fmtK wfmt)).map (fun i => numSum (l.map (fun c => c.getD i (.fin 0 0))))

/-- PLANE_LOAD_DONE (R156): the shadow plane holds the columns of the next pass that needs a load, with their checksum
cells. -/
def execPlaneLoadDone (fold : Fin 32) (s : State) : Outcome :=
  .next (
    let x := s.fold fold
    match s.loadDue fold with
    | none => s
    | some r =>
      if x.shadow.complete then s
      else
        let cols := s.readColumns fold r
        let bytes := cols.map (fun c => c.1)
        let plane : Plane := { cols := bytes, poison := cols.map (fun c => c.2.1),
                               sums := checkCells r.entry.wfmt r.entry.sfmt bytes,
                               st := cols.foldl (fun a c => worse a c.2.2) .ok, complete := true }
        let s := s.modFold fold (fun x =>
          let x := x.setShadow plane
          if r.ahead then { x with ahead := some (r.slot, r.index) }
          else { x with tile := x.tile.map (fun t => { t with loads := t.loads + 1 }) })
        match (x.slot r.slot).task with
        | some n => s.modTask n (fun k =>
            if !k.sealed then k
            else
              let e : PlaneIn := ⟨r.index, r.pass, (x.slot r.slot).rank, bytes.flatten⟩
              { k with inputs := k.inputs.filter (fun i =>
                  !(i.tile == e.tile && i.pass == e.pass && i.rank == e.rank)) ++ [e] })
            |>.digests fold (match s.task n with | some k => if k.sealed then bytes.flatten.length else 0 | none => 0)
        | none => s)

/-! ## Issue cycles (R147, R148, R151 to R153, R158 to R161, R167 to R170, R173, R182, R197, R198) -/

/-- Tree levels and pass latency (Table 05-3). -/
def passLatency (wfmt : Nat) : Nat := 3 + ceilDiv (if roundsInTree wfmt then 6 else log2N (fmtK wfmt)) 2

/-- The product of a row with a column, formed exactly. -/
def dot (w st : List Num) : Num := numSum (List.zipWith numMul w st)

/-- The rows of an entry meet the active plane and its checksum cells in their multiply stage (R155, R161, R166). -/
def multiply (t : TileEntry) (p : Plane) (i : InFlight) : InFlight :=
  let cols := p.cols.map (statColumn t.wfmt t.sfmt)
  { i with rows := i.rows.map (fun r =>
      { r with weights := [], colPoison := p.poison, check := dot r.weights p.sums, ref := [],
               refVals := if r.ref.isEmpty then [] else cols.map (dot r.ref),
               vals := cols.zipIdx.map (fun c =>
                 colVal t.wfmt r.weights c.1 (((r.errors.filter (fun e => e.1 == c.2)).map (fun e => e.2)).sum)) }) }

/-- Every entry of the pipeline is one cycle older; what was broadcast last is multiplied. -/
def Fold.advance (x : Fold) : Fold :=
  match x.tile with
  | none => { x with pipe := [] }
  | some t => { x with pipe := x.pipe.map (fun i =>
      let i := if i.age = 0 then multiply t.entry x.active i else i
      { i with age := i.age + 1 }) }

/-- At the tile's first accumulate its groups are cleared and become OPEN (R191). -/
def openGroups (x : Fold) (t : Tile) : Fold :=
  if t.opened then x
  else
    let x := t.into.foldl (fun x p => x.modGroup p (fun g => { g with accs := [], state := .open' })) x
    let x := if t.entry.start = 0 then
        (List.range t.entry.k).foldl (fun x i => x.setGState t.slot (t.entry.lgroup + i) .open') x
      else x
    { x with tile := some { t with opened := true } }

/-- One row enters its accumulators (R197, R198). -/
def accumulateRow (x : Fold) (t : Tile) (r : RowInFlight) : Fold :=
  let m := shapeM t.entry.shape
  r.vals.zipIdx.foldl (fun x v =>
    let a := r.row * m + v.2
    let p := t.into.getD (a / 4096) 0
    let poison := r.poison || r.colPoison.getD v.2 false
    x.modGroup p (fun g => { g with accs := tmod {} g.accs (a % 4096) (fun acc => acc.add v.1.v poison) })) x

/-- The column comparison of one row with its group's checksum column (R166, R169, R170); an error in the checksum column
is one at column m. There is nothing to compare where a NaN or an infinity entered (log entry 86). -/
def columnFails (t : TileEntry) (r : RowInFlight) : Bool :=
  let m := shapeM t.shape
  let main := r.vals.foldl (fun a v => dySum a v.main) (0, 0)
  let tau := r.vals.foldl (fun a v => dySum a v.tau) (0, 0)
  let e := ((r.errors.filter (fun e => decide (m ≤ e.1))).map (fun e => e.2)).sum
  match r.check with
  | .fin s x => differ main (if e = 0 then (s, x) else dySum (s, x) (e, errExp)) tau
  | _ => false

/-- One row of the master copy enters the recomputed values of a sampled tile (R140). -/
def sampleRow (t : Tile) (r : RowInFlight) : Tile :=
  match t.sample with
  | none => t
  | some l =>
    let m := shapeM t.entry.shape
    { t with sample := some (r.refVals.zipIdx.foldl (fun l v =>
        tmod (.fin 0 0) l (r.row * m + v.2) (fun y => numAdd y v.1)) l) }

/-- What the row comparison gathers from one row. -/
def gather (t : Tile) (r : RowInFlight) : Tile :=
  { t with checks := r.vals.zipIdx.foldl (fun c v =>
      tmod {} c (r.group * 64 + v.2) (fun k =>
        { main := dySum k.main v.1.main, exact := dySum k.exact v.1.exact, tau := dySum k.tau v.1.tau })) t.checks }

/-- The row comparison of a group and column (R169) with an error of the checksum row's tree. -/
def rowFails (t : Tile) (errors : List (Nat × Nat × Int)) (g c : Nat) : Bool :=
  let k := tget ({} : RowCheck) t.checks (g * 64 + c)
  let e := ((errors.filter (fun e => e.1 == g && e.2.1 == c)).map (fun e => e.2.2)).sum
  differ k.main (if e = 0 then k.exact else dySum k.exact (e, errExp)) k.tau

/-- The rows of a cycle reach the accumulators, and their comparisons are made. -/
def State.retireRows (f : Nat) (i : InFlight) (s : State) : State :=
  s.forEach i.rows (fun r s =>
    match (s.fold f).tile with
    | none => s
    | some t =>
      let s := s.modFold f (fun x => { accumulateRow x t r with tile := some (sampleRow t r) })
      if !i.checked then s
      else
        let s := s.modFold f (fun x => { x with tile := x.tile.map (fun t => gather t r) })
        if columnFails t.entry r then s.mismatch f 0 r.group else s)

/-- A checksum cycle reaches the tree outputs: every row comparison is made, ascending group, then column. -/
def State.retireCheck (f : Nat) (i : InFlight) (s : State) : State :=
  match (s.fold f).tile with
  | none => s
  | some t =>
    let fails := (List.range (shapeN t.entry.shape)).flatMap (fun g =>
      ((List.range (shapeM t.entry.shape)).filter (fun c => rowFails t i.errors g c)).map (fun _ => g))
    let s := s.forEach fails (fun g s => s.mismatch f 1 g)
    s.modFold f (fun x => { x with tile := x.tile.map (fun t => { t with checks := [] }) })

/-- One cycle of the stream leaves the pipeline. -/
def State.retire (f : Nat) (i : InFlight) (s : State) : State :=
  match (s.fold f).tile with
  | none => s
  | some t =>
    let s := s.modFold f (fun x => openGroups x t)
    let s := if i.check then s.retireCheck f i else s.retireRows f i
    let s := if i.passEnd then s.modFold f (fun x => { x with
        passes := satInc 64 x.passes
        checkedPasses := if i.checked then satInc 64 x.checkedPasses else x.checkedPasses }) else s
    if i.tileEnd then s.modFold f (fun x => { x with tile := x.tile.map (fun t => { t with endDone := true }) }) else s

/-- Everything that has reached its latency leaves the pipeline, oldest first. -/
def State.retireDue (f : Nat) (s : State) : State :=
  let x := s.fold f
  match x.tile with
  | none => s
  | some t =>
    let lat := passLatency t.entry.wfmt
    let due := x.pipe.filter (fun i => decide (lat ≤ i.age + 1))
    let s := s.modFold f (fun x => { x with pipe := x.pipe.filter (fun i => decide (i.age + 1 < lat)) })
    s.forEach due (fun i s => s.retire f i)

/-- The weight rows of one issue cycle, read for groups `gs`: none while a read waits, or the status that ends the
tile. -/
def State.readRows (f : Nat) (t : Tile) (p : PassEntry) (errors : List (Nat × Nat × Int)) :
    List Nat → State → Fetch × List RowInFlight × State
  | [], s => (.bytes [] false, [], s)
  | g :: gs, s =>
    let r := t.cycle * shapeN t.entry.shape + g
    if t.entry.rows ≤ r then (.bytes [] false, [], s)
    else
      match s.weightRowAt (hdlEntry t.entry.weight) t.header (p.wrow + r * t.header.per) (some f) with
      | (.bytes _ bad, w, s) =>
        let row : RowInFlight := { row := r, group := g, poison := bad, weights := w,
                                   ref := if t.sample.isSome && !t.sampleLost then
                                       (s.masterRow t.header f (p.wrow + r * t.header.per)).getD [] else []
                                   errors := (errors.filter (fun e => e.1 == g)).map (fun e => e.2) }
        (match State.readRows f t p errors gs s with
         | (.bytes b q, l, s) => (.bytes b (q || bad), row :: l, s)
         | r => r)
      | (q, _, s) => (q, [], s)

/-- The tile's weight stream waits for chunk `k` of its object; where a repair is under way the wait has its bound
(R362). -/
def State.noteWait (f k : Nat) (t : Tile) (s : State) : State :=
  let e := hdlEntry t.entry.weight
  let o := s.obj e
  let s := s.modFold f (fun x => { x with tile := x.tile.map (fun t => { t with waits := some k }) })
  if o.copies.any (fun c => decide (c.state = .repair)) && s.tiers.waiters.all (fun q => q.task != f) then
    s.modTiers (fun x => { x with waiters := x.waiters ++ [⟨e, k, s.time.now + 1000000 * o.repairMs, f⟩] })
  else s

/-- The tile has issue cycles left in its pass. -/
def Tile.passCycles (t : Tile) : Nat := ceilDiv t.entry.rows (shapeN t.entry.shape)

/-- A checksum cycle is due: 16 issue cycles since the last, or the pass is through (R168). -/
def Tile.checkDue (t : Tile) : Bool :=
  t.checked && decide (0 < t.sinceCheck) && (t.sinceCheck == 16 || decide (t.passCycles ≤ t.cycle))

/-- The tile as it stands after the last cycle of a pass (R153, R160). -/
def Tile.nextPass (t : Tile) : Tile :=
  if t.cycle < t.passCycles ∨ (t.checked ∧ 0 < t.sinceCheck) then t
  else
    let swap := match t.passes[t.pass]? with | some p => p.swap | none => false
    if t.passes.length ≤ t.pass + 1 then { t with endSent := true }
    else { t with pass := t.pass + 1, cycle := 0, sinceCheck := 0, checked := false, swapped := !swap }

/-- One cycle in which nothing is broadcast. -/
def Fold.idleCycle (held : Bool) (x : Fold) : Fold :=
  { x with idle := x.idle + 1, issueHeld := held
           issueHeldCycles := if x.octets = 8 then satInc 64 x.issueHeldCycles else x.issueHeldCycles }

/-- A broadcast cycle: the entry enters the pipeline, the tile moves on, and the planes swap at the end of the cycle of
a pass's first row where that pass has a plane of its own (R158). -/
def Fold.broadcast (i : InFlight) (t : Tile) (swap : Bool) (x : Fold) : Fold :=
  let x := { x with pipe := x.pipe ++ [i], idle := 0, issueHeld := false, stalled := false, issueCycles := satInc 64 x.issueCycles,
                    tile := some t }
  if swap then { x.setShadow { x.shadow with complete := true } with activePlane := !x.activePlane } else x

/-- After a swap the plane left behind is free for the next load. -/
def Fold.freeShadow (swap : Bool) (x : Fold) : Fold :=
  if swap then x.setShadow { x.shadow with complete := false } else x

/-- Broadcast the next cycle of the tile where its rows are there. -/
def State.issue (f : Nat) (buffered : Bool) (errors : List (Nat × Nat × Int)) (t : Tile) (s : State) : State :=
  let x := s.fold f
  match t.passes[t.pass]? with
  | none => s
  | some p =>
    if t.checkDue then
      let t' := ({ t with sinceCheck := 0 } : Tile).nextPass
      s.modFold f (Fold.broadcast { check := true, checked := true, errors } t' false)
    else if !t.begun && !(x.slot t.slot).radio && decide (0 < x.penumbra) then s.modFold f (Fold.idleCycle true)
    else if !t.swapped && !x.shadow.complete then s.modFold f (Fold.idleCycle true)
    else if !buffered then s.modFold f (fun x => { x.idleCycle true with stalled := true })
    else if t.entry.wfmt == 0x0D && t.entry.shape == 4 && t.slotPhase == 2 then
      (s.modFold f (Fold.idleCycle true)).modFold f (fun x => { x with tile := some { t with slotPhase := 0 } })
    else
      match s.readRows f t p errors (List.range (shapeN t.entry.shape)) with
      | (.wait k, _, s) => (s.modFold f (fun x => { x.idleCycle true with stalled := true })).noteWait f k t
      | (.ends st, _, s) => (s.modFold f (Fold.idleCycle true)).endTile f st
      | (.bytes _ bad, rows, s) =>
        let first := t.cycle == 0
        let n := x.passesStarted + 1
        let checked := if first then decide (s.dev.dstate = .watched) || t.rerun || n % 8 == 0 else t.checked
        let last := decide (t.passCycles ≤ t.cycle + 1)
        let t1 : Tile := { t with
          begun := true, cycle := t.cycle + 1, checked, swapped := true,
          sinceCheck := t.sinceCheck + 1, slotPhase := t.slotPhase + 1, waits := none,
          sampleLost := t.sampleLost || (t.sample.isSome && rows.any (fun r => r.ref.isEmpty)),
          poisonSt := worse (worse t.poisonSt (if t.swapped then .ok else x.shadow.st)) (if bad then .poisoned else .ok) }
        let i : InFlight := { rows, checked, passEnd := last, tileEnd := last && decide (t.passes.length ≤ t.pass + 1) }
        let s := s.modFold f (fun x => { x with passesStarted := if first then n else x.passesStarted })
        let s := s.modFold f (Fold.broadcast i t1.nextPass (!t.swapped))
        s.modFold f (Fold.freeShadow (!t.swapped))

/-- Grazing issue cycles are counted for PROGRESS (R601). -/
def State.countIssue (f before : Nat) (s : State) : State :=
  let x := s.fold f
  if before < x.issueCycles then
    (match x.tile with
     | some t => if (x.slot t.slot).radio then s
                 else s.modHealth (fun h => { h with grazingIssue := satInc 64 h.grazingIssue })
     | none => s)
  else s

/-- A tile of some slot could start but for the completion buffer (R232). -/
def State.cmpStalls (s : State) (f : Nat) : Bool :=
  decide (64 ≤ (s.fold f).cmpUsed) && (List.range 8).any (fun k => s.tileMayStart f k &&
    (match s.slotTask f k with | some (_, t) => decide (((s.fold f).slot k).nextTile < t.tiles.length) | none => false))

/-- A grazing tile could start but for the digest unit (R542). -/
def State.digestHolds (s : State) (f : Nat) : Bool :=
  decide (0 < (s.fold f).digestDue) && (List.range 8).any (fun k => !((s.fold f).slot k).radio && s.tileReady f k &&
    (match s.slotTask f k with | some (_, t) => decide (((s.fold f).slot k).nextTile < t.tiles.length) | none => false))

/-- One cycle of the digest unit of a fold: 256 bytes (R542). -/
def State.digestCycle (f : Nat) (s : State) : State :=
  let s := if s.digestHolds f then s.modProv (fun p => { p with holdCycles := satInc 64 p.holdCycles }) else s
  s.modFold f (fun x => { x with digestDue := x.digestDue - 256 })

/-- ISSUE_CYCLE (R147): one fold cycle. -/
def execIssueCycle (fold : Fin 32) (buffered : Bool) (errors : List (Nat × Nat × Int)) (s : State) : Outcome :=
  .next (
    let before := (s.fold fold).issueCycles
    let held := s.loaderHeld fold
    let stall := s.cmpStalls fold
    let s := s.digestCycle fold
    let s := s.modFold fold (fun x =>
      { x.advance with loaderHeldCycles := if held then satInc 64 x.loaderHeldCycles else x.loaderHeldCycles
                       cmpStall := if stall then satInc 64 x.cmpStall else x.cmpStall })
    let s := s.retireDue fold
    let x := s.fold fold
    match x.tile with
    | none => s.modFold fold (Fold.idleCycle false)
    | some t =>
      if t.ended.isSome || t.endSent then s.modFold fold (Fold.idleCycle false)
      else if x.octets < 8 then s.modFold fold (fun x => { x.idleCycle true with stalled := !buffered })
      else (s.issue fold buffered errors t).countIssue fold before)

/-! ## The penumbra on the array (R175, R177) -/

/-- Take the running tile off the array, its groups cleared; the rank will start it again from its first pass, as its
second run where it was one (R171). -/
def Fold.returnTile (t : Tile) (x : Fold) : Fold :=
  let x := ((x.clearTile t).modSlot t.slot (fun c => { c with secondRun := t.rerun })).dropPlanes
  { x with tile := none, pipe := [], issueHeld := false, stalled := false,
           cmpReserved := if t.reserved then x.cmpReserved - 1 else x.cmpReserved }

/-- The penumbra opens: a grazing tile whose first row has not been broadcast is returned unrun (R175). -/
def Fold.penumbraOpens (now : Nat) (x : Fold) : Fold :=
  let x' := match x.tile with
    | some t => if !t.begun && !(x.slot t.slot).radio then x.returnTile t else x
    | none => x
  { x' with penumbra := x.penumbra + 1, penumbraAt := if x.penumbra = 0 then now else x.penumbraAt }

/-- The TILE_END row has been broadcast. -/
def Tile.endBroadcast (t : Tile) : Bool :=
  t.endSent || (decide (t.passes.length ≤ t.pass + 1) && decide (t.passCycles ≤ t.cycle))

/-- The running tile is abandoned where it has begun, has not broadcast its TILE_END row, and the penumbra has been open for
2 µs (R177, R178). -/
def State.abandonTile (f : Nat) (s : State) : State :=
  let x := s.fold f
  match x.tile with
  | some t =>
    if t.begun && !t.endBroadcast && !(x.slot t.slot).radio && decide (0 < x.penumbra) &&
        decide (x.penumbraAt + 2000 ≤ s.time.now) then
      let s := s.modHealth (fun h => { h with recoveryFoldUs := h.recoveryFoldUs + (s.time.now - t.since) })
      s.modFold f (fun x => { x.returnTile t with
        tilesAbandoned := satInc 32 x.tilesAbandoned, arrEvent := x.arrEvent ||| 4 })
    else s
  | none => s

end Sys2Proof.Machine
end

