-- ==== Sys2Proof/Machine/SecOps.lean ====
section
/-! DEFINITION. Shared operations of the security block (chapter 20): measurement registers, the identity key's
reserve, session certificates, signatures. -/

namespace Sys2Proof.Machine

/-! ## Measurement registers (R610 to R612) -/

def State.measure (s : State) (i : Nat) : Bytes := tget (List.replicate 32 0#8) s.sec.measures i

/-- Extend a measurement register by a digest; M8, M9 and M10 count their extensions. -/
def State.extend (i : Nat) (d : Bytes) (s : State) : State :=
  let v := shakeTag 32 [0x4D, 0x56, 0x4E, 0x2D, 0x4D, 0x58] (s.measure i ++ fixLen 32 d)
  s.modSec (fun x => { x with
    measures := tset (List.replicate 32 0#8) x.measures i v
    ext8 := if i = 8 then min 255 (x.ext8 + 1) else x.ext8
    ext9 := if i = 9 then min 255 (x.ext9 + 1) else x.ext9
    ext10 := if i = 10 then min 255 (x.ext10 + 1) else x.ext10 })

/-- Registers `lo` to `lo + n - 1`, 32 bytes each. -/
def State.measuresFrom (s : State) (lo n : Nat) : Bytes := (List.range n).flatMap (fun k => s.measure (lo + k))

/-! ## Keys (R604, R613 to R616) -/

/-- Numbers of the keys in `Config`: the identity key, and the session keys of a device incarnation. -/
def identityKey : Nat := 0
def sessionKey (inc seq : Nat) : Nat := 1 + inc * 2 ^ 32 + seq

/-- Burn the next identity step (R614), raising ID_LOW below 256 steps. -/
def State.burnStep (s : State) : State :=
  let s := { s with fuses := { s.fuses with idSteps := s.fuses.idSteps + 1 } }
  if 16384 - s.fuses.idSteps < 256 then s.modSec (fun x => { x with event := x.event ||| 2 }) else s

/-- The identity key can sign nothing more: ID_EXHAUSTED (R615). -/
def State.exhaust (s : State) : State :=
  if s.sec.idExhausted then s else s.modSec (fun x => { x with idExhausted := true, event := x.event ||| 4 })

/-- Take the next identity index (R614): none once the reserve is used up. -/
def State.identityIndex (s : State) : Option Nat × State :=
  if s.sec.idExhausted then (none, s)
  else if !s.sec.idUsed && decide (16384 ≤ s.fuses.idSteps) then (none, s.exhaust)
  else
    let s := if s.sec.idUsed then s
      else s.burnStep.modSec (fun x => { x with idUsed := true, idNext := s.fuses.idSteps * 64 })
    let i := s.sec.idNext
    let s := if i % 64 = 63 ∧ s.fuses.idSteps < 16384 then s.burnStep else s
    let s := s.modSec (fun x => { x with idNext := i + 1 })
    (some i, if i + 1 = 16384 * 64 then s.exhaust else s)

/-- A session certificate (Table 20-4, KIND 2) before its signature. -/
def State.certBody (s : State) (seq index : Nat) : Bytes :=
  leBytes 4 0x434E564D ++ leBytes 2 0x0100 ++ leBytes 1 2 ++ leBytes 1 0xFF ++ leBytes 8 s.fuses.uid.toNat ++
    leBytes 4 s.deviceInc ++ leBytes 4 index ++ leBytes 8 (if s.time.everLocked then s.time.now else 0) ++
    fixLen 68 (Config.publicKey (sessionKey s.deviceInc seq)) ++ leBytes 4 seq ++
    shakeTag 32 [0x4D, 0x56, 0x4E, 0x2D, 0x42, 0x4D] (s.measuresFrom 0 8) ++ leBytes 8 0 ++ leBytes 2 2820

/-- Certify the session key number `seq` with the identity key (R613, R616): none where the reserve is used up. -/
def State.certify (seq : Nat) (s : State) : Option Bytes × State :=
  match s.identityIndex with
  | (none, s) => (none, s)
  | (some i, s) =>
    let b := s.certBody seq i
    (some (b ++ fixLen 2820 (Config.sign identityKey i b)), s)

/-- The session key is used up and the next one is ready: the device switches to it (R616). -/
def State.switchKey (s : State) : State :=
  match s.sec.nextCert with
  | some c =>
    if s.sec.sessionNext < 65536 then s
    else s.modSec (fun x => { x with sessionSeq := x.sessionSeq + 1, sessionNext := 0, sessionCert := c, nextCert := none,
                                     renewing := false, event := x.event ||| 1 })
  | none => s

/-- Sign with the current session key (R616, R617): none before the first key exists, while renewal waits, and once
nothing more can be signed. -/
def State.sessionSign (msg : Bytes) (s : State) : Option (Bytes × State) :=
  let s := s.switchKey
  if !s.sec.sessionReady || decide (65536 ≤ s.sec.sessionNext) then none
  else
    let i := s.sec.sessionNext
    let sig := fixLen 2692 (Config.sign (sessionKey s.deviceInc s.sec.sessionSeq) i msg)
    let s := s.modSec (fun x => { x with
      sessionNext := i + 1
      signatures := satInc 64 x.signatures
      renewing := x.renewing || (decide (65536 - (i + 1) ≤ 4096) && x.nextCert.isNone && !x.idExhausted) })
    some (sig, s.switchKey)

end Sys2Proof.Machine
end

