-- ==== Sys2Proof/Machine/Accum.lean ====
section
/-! DEFINITION. What happens to a tile's results (chapters 04, 06, 07): TILE_END with its merge and END action, group
ports, and the cross-rank reduction. -/

namespace Sys2Proof.Machine

/-! ## Closing tiles -/

def Fold.findClosing (x : Fold) (slot index : Nat) : Option Closing :=
  x.closing.find? (fun q => q.slot == slot && q.index == index)
def Fold.modClosing (slot index : Nat) (g : Closing → Closing) (x : Fold) : Fold :=
  { x with closing := x.closing.map (fun q => if q.slot == slot && q.index == index then g q else q) }
def Fold.dropClosing (slot index : Nat) (x : Fold) : Fold :=
  { x with closing := x.closing.filter (fun q => !(q.slot == slot && q.index == index)) }

/-- The flags of the groups a tile names (R185). -/
def Fold.namedFlags (x : Fold) (slot : Nat) (t : TileEntry) : Nat :=
  (List.range t.k).foldl (fun a i => a ||| groupFlags (x.group (x.physOf slot (t.lgroup + i))).accs) 0

/-- The closing tile is through: sampling, its record, whatever follows. -/
def State.closeTile (f slot index : Nat) (s : State) : State :=
  match (s.fold f).findClosing slot index, s.slotTask f slot with
  | some q, some _ =>
    let s := s.modFold f (fun x => x.dropClosing slot index)
    s.finishTile f slot index q.status q.flags q.reserved q.outBytes
  | some _, none => s.modFold f (fun x => x.dropClosing slot index)
  | _, _ => s

/-- Start the END action of a tile (R192 step 2, Table 06-4). -/
def State.startEnd (f slot index : Nat) (s : State) : State :=
  match (s.fold f).findClosing slot index with
  | none => s
  | some q =>
    let t := q.entry
    let ks := (List.range t.k).map (fun i => (i, t.lgroup + i))
    if t.endAt = 1 then
      (s.modFold f (fun x => ks.foldl (fun x p => x.setGState slot p.2 .held) x)).closeTile f slot index
    else
      s.modFold f (fun x =>
        let x := if t.folds && decide ((x.lgroup slot t.target).state = GState.unused) then x.setGState slot t.target .held else x
        let x := ks.foldl (fun x p => (x.setGState slot p.2 .converting).setPort (x.physOf slot p.2)
          (some ⟨slot, index, if t.endAt = 0 then .convert p.1 else .fold p.1⟩)) x
        x.modClosing slot index (fun q => { q with phase := .ending, left := t.k }))

/-- The status of a tile whose flags hold POISON and that nothing else gave a status (R186). -/
def poisonStatus (st : Status) (flags : Nat) : Status := if st = .ok ∧ bitOf flags 1 then .poisoned else st

/-- The named groups are whole: the tile flags are taken (R185). -/
def State.takeFlags (f slot index : Nat) (s : State) : State :=
  s.modFold f (fun x => x.modClosing slot index (fun q =>
    let fl := q.flags ||| x.namedFlags slot q.entry
    { q with flags := fl, status := poisonStatus q.status fl }))

/-- Every rank of a task waits with this tile for the reduction. -/
def State.allReducing (s : State) (t : Task) (index : Nat) : Bool :=
  t.ranks.all (fun p => match (s.fold p.1).findClosing p.2 index with
    | some q => decide (q.phase = .reducing)
    | none => false)

/-- Rank `r` takes the named groups of rank `r + 2^l` into its own (R226). -/
def State.takeRank (t : Task) (e : TileEntry) (r r' : Nat) (s : State) : State :=
  match t.ranks[r]?, t.ranks[r']? with
  | some a, some b =>
    s.forEach (List.range e.k) (fun i s =>
      let src := ((s.fold b.1).group ((s.fold b.1).physOf b.2 (e.lgroup + i))).accs
      s.modFold a.1 (fun x =>
        x.modGroup (x.physOf a.2 (e.lgroup + i)) (fun g => { g with accs := combineGroups g.mode g.accs src })))
  | _, _ => s

/-- The tree over logical ranks, level by level (R226). -/
def State.reduceLevels (t : Task) (e : TileEntry) : Nat → Nat → State → State
  | 0, _, s => s
  | n + 1, l, s =>
    let rs := (List.range t.ranks.length).filter (fun r => r % 2 ^ (l + 1) == 0 && decide (r + 2 ^ l < t.ranks.length))
    State.reduceLevels t e n (l + 1) (s.forEach rs (fun r s => s.takeRank t e r (r + 2 ^ l)))

/-- The groups of a rank other than 0 become UNUSED, a new fold target's among them, and its tile is over. -/
def State.leaveReduction (t : Task) (index r : Nat) (s : State) : State :=
  match t.ranks[r]? with
  | none => s
  | some p =>
    match (s.fold p.1).findClosing p.2 index with
    | none => s
    | some q =>
      (s.modFold p.1 (fun x =>
        ((List.range q.entry.k).foldl (fun x i => x.freeGroup p.2 (q.entry.lgroup + i)) x).freeTarget p.2 q.entry)).closeTile
        p.1 p.2 index

/-- Combine the ranks where all of them wait (R226), then rank 0 performs the END action. -/
def State.tryReduce (n index : Nat) (s : State) : State :=
  match s.task n with
  | none => s
  | some t =>
    match t.tiles[index]?, t.ranks[0]? with
    | some (e, _), some p =>
      if s.allReducing t index then
        let s := State.reduceLevels t e 5 0 s
        let s := s.forEach ((List.range t.ranks.length).drop 1) (fun r s => s.leaveReduction t index r)
        (s.takeFlags p.1 p.2 index).startEnd p.1 p.2 index
      else s
    | _, _ => s

/-- After the merge, or at once for FRESH: flags, then the reduction or the END action. -/
def State.afterMerge (f slot index : Nat) (s : State) : State :=
  let s := s.takeFlags f slot index
  match (s.fold f).findClosing slot index, ((s.fold f).slot slot).task with
  | some q, some n =>
    let ranks := match s.task n with | some t => t.ranks.length | none => 1
    if q.entry.xred && decide (1 < ranks) then
      let s := s.modFold f (fun x => x.modClosing slot index (fun q => { q with phase := .reducing }))
      (s.tryReduce n index).releaseReducers n
    else s.startEnd f slot index
  | _, _ => s

/-! ## TILE_END (R154, R171, R172, R185, R192, R194) -/

/-- Every output of a tile is marked poisoned (R172). -/
def markPoison (t : Tile) (x : Fold) : Fold :=
  let n := t.entry.rows * shapeM t.entry.shape
  (List.range n).foldl (fun x a =>
    x.modGroup (t.into.getD (a / 4096) 0) (fun g =>
      { g with accs := tmod {} g.accs (a % 4096) (fun c => { c with poison := true }) })) x

/-- The tile runs again from its first pass with every pass checked, its own groups cleared (R171, R194); while the
penumbra is open a grazing tile is returned to its task first (R175). -/
def rerunTile (t : Tile) (now : Nat) (x : Fold) : Fold :=
  if 0 < x.penumbra ∧ !(x.slot t.slot).radio then x.returnTile { t with rerun := true }
  else
    let x := (t.into.foldl (fun x p => x.modGroup p (fun g => { g with accs := [] })) x).dropPlanes
    { x with pipe := []
             tile := some { t with pass := 0, cycle := 0, sinceCheck := 0, checked := false, checks := [], rerun := true,
                                   failed := false, begun := false, endSent := false, endDone := false, loads := 0,
                                   swapped := false, slotPhase := 0, waits := none, sample := t.sample.map (fun _ => []),
                                   sampleLost := false, since := now } }

/-- The tile leaves the array without results, with a status (R174, R194). -/
def State.endWithout (f : Nat) (t : Tile) (st : Status) (s : State) : State :=
  let s := s.modFold f (fun x => (x.returnTile { t with reserved := false }).modSlot t.slot
    (fun c => { c with nextTile := t.index + 1, secondRun := false }))
  s.finishTile f t.slot t.index st 0 t.reserved []

/-- The array is done with the tile; its results start to leave. -/
def leaveArray (t : Tile) (st : Status) (x : Fold) : Fold :=
  let x := x.modSlot t.slot (fun c => { c with nextTile := t.index + 1, secondRun := false })
  let q : Closing := { slot := t.slot, index := t.index, entry := t.entry, phase := .merging, left := t.entry.k,
                       status := st, reserved := t.reserved, header := t.header }
  { x with tile := none, pipe := [], closing := x.closing ++ [q], issueHeld := false }

/-- Merge each working group into its named group on that group's port (R192 step 1, R193). -/
def startMerge (t : Tile) (x : Fold) : Fold :=
  (t.into.zip (List.range t.entry.k)).foldl (fun x p =>
    let j := t.entry.lgroup + p.2
    let x := x.setGState t.slot j .merging
    let x := x.modGroup p.1 (fun g => { g with state := .merging })
    x.setPort (x.physOf t.slot j) (some ⟨t.slot, t.index, .merge p.1⟩)) x

/-- The results of a tile whose comparisons have held, or failed twice, start to leave. -/
def State.leaveTile (f : Nat) (t : Tile) (s : State) : State :=
  let twice := t.failed && t.rerun
  let s := if t.rerun then
      s.modHealth (fun h => { h with recoveryFoldUs := h.recoveryFoldUs + (s.time.now - t.since) }) else s
  let s := if twice then
      ((s.modFold f (fun x => { markPoison t x with
        poisonedTiles := satInc 32 x.poisonedTiles, arrEvent := x.arrEvent ||| 2 })).evidence 2 (some f))
    else if t.rerun then
      (s.modFold f (fun x => { x with recovered := satInc 32 x.recovered })).evidence 1 (some f)
    else s
  let st : Status := worse t.poisonSt (if twice then .poisoned else .ok)
  let s := (s.sampleTile f t).modFold f (leaveArray t st)
  if t.entry.start = 1 then s.modFold f (startMerge t) else s.afterMerge f t.slot t.index

/-! ## Group ports (R193, R204, R205, R209 to R211) -/

/-- Write converted bytes of `n` accumulators at an offset of the output object, with the poison marks of those that
carry one (R184). -/
def State.writeOut (e off w : Nat) (bs : Bytes) (poisoned : List Nat) (s : State) : State :=
  let room := chunkSize - off % chunkSize
  let s := if bs.length ≤ room then s.objWrite e off bs
    else (s.objWrite e off (bs.take room)).objWrite e (off + room) (bs.drop room)
  s.forEach poisoned (fun i s => s.objPoison e (off + i * w) w)

/-- The output leaves for its object, unless that no longer takes it. -/
def State.deliver (f slot index part off w : Nat) (bs : Bytes) (sat : Bool) (poisoned : List Nat) (s : State) : State :=
  match (s.fold f).findClosing slot index, s.slotTask f slot with
  | some q, some (_, t) =>
    let bad := s.outputBad q.entry t.desc.inst
    let s := match bad with | some _ => s | none => s.writeOut (hdlEntry q.entry.output) off w bs poisoned
    s.modFold f (fun x => x.modClosing slot index (fun q =>
      { q with status := worse q.status (bad.getD .ok)
               flags := if sat then q.flags ||| 1 else q.flags
               outBytes := if t.sealed then q.outBytes ++ [(part, bs)] else q.outBytes }))
      |>.digests f (if t.sealed then bs.length else 0)
  | _, _ => s

/-- One action of a closing tile is through; the last one of its phase leads on. -/
def State.actionThrough (f slot index : Nat) (s : State) : State :=
  let s := s.modFold f (fun x => x.modClosing slot index (fun q => { q with left := q.left - 1 }))
  match (s.fold f).findClosing slot index with
  | none => s
  | some q =>
    if q.left ≠ 0 then s
    else
      match q.phase with
      | .merging => s.afterMerge f slot index
      | .ending =>
        if q.entry.endAt = 3 then
          s.modFold f (fun x =>
            let x := (x.setGState slot q.entry.target .converting).setPort (x.physOf slot q.entry.target)
              (some ⟨slot, index, .convertTarget⟩)
            x.modClosing slot index (fun q => { q with phase := .target, left := 1 }))
        else s.closeTile f slot index
      | .reducing => s
      | .target => s.closeTile f slot index

/-- Indices of accumulators below `n` that carry POISON. -/
def poisonedOf (accs : List (Nat × Acc)) (n : Nat) : List Nat :=
  (accs.filter (fun p => p.2.poison && decide (p.1 < n))).map (fun p => p.1)

/-- A working group that has been merged is freed; the first one goes to a fold target of the tile that is UNUSED and has
no group yet (R192, R202). -/
def giveWorking (w : Nat) (j : PortJob) (x : Fold) : Fold :=
  match x.findClosing j.slot j.index with
  | some q =>
    let g := x.lgroup j.slot q.entry.target
    if q.entry.folds && decide (g.state = GState.unused) && g.phys.isNone then
      x.holdGroup j.slot q.entry.target w .unused q.entry.mode
    else x.freePhysGroup w
  | none => x.freePhysGroup w

/-- A merge completes (R192). -/
def State.mergeDone (f p w : Nat) (j : PortJob) (s : State) : State :=
  let s := s.modFold f (fun x =>
    let src := (x.group w).accs
    let x := x.modGroup p (fun g => { g with accs := combineGroups 0 g.accs src })
    let x := giveWorking w j (x.setGState j.slot (x.group p).logical .held)
    { x with merges := satInc 64 x.merges })
  s.actionThrough f j.slot j.index

/-- The conversion of one group completes (R131, R205). -/
def State.convertDone (f p part : Nat) (j : PortJob) (s : State) : State :=
  match (s.fold f).findClosing j.slot j.index, s.slotTask f j.slot with
  | some q, some (_, t) =>
    let n := min 4096 (q.entry.rows * shapeM q.entry.shape - 4096 * part)
    let accs := ((s.fold f).group p).accs
    let w := fmtWidth q.entry.ofmt / 8
    let (bs, sat) := convertRange q.entry.ofmt (seedOf t.desc j.index) accs (4096 * part) n
    let s := s.deliver f j.slot j.index part (q.entry.outOffset + 4096 * part * w) w bs sat (poisonedOf accs n)
    let s := s.modFold f (fun x => x.freeGroup j.slot (q.entry.lgroup + part))
    s.actionThrough f j.slot j.index
  | _, _ => s

/-- The flags of the entries of a fold target that a tile has changed, of the m entries from its entry base (R185). -/
def changedFlags (t : TileEntry) (old new : List (Nat × Acc)) : Nat :=
  (List.range (shapeM t.shape)).foldl (fun a c =>
    let i := if modeIdx t.mode then 2 * (t.entryBase + c) else t.entryBase + c
    let same := fun (i : Nat) => tget ({} : Acc) old i == tget ({} : Acc) new i
    if same i && (!modeIdx t.mode || same (i + 1)) then a else a ||| (tget ({} : Acc) new i).flags) 0

/-- The fold of one group into its target completes (R203, R204). -/
def State.foldDone (f p part : Nat) (j : PortJob) (s : State) : State :=
  match (s.fold f).findClosing j.slot j.index with
  | none => s
  | some q =>
    let t := q.entry
    let m := shapeM t.shape
    let n := min 4096 (t.rows * m - 4096 * part)
    let s := s.modFold f (fun x =>
      let src := (x.group p).accs
      let to' := x.physOf j.slot t.target
      let old := (x.group to').accs
      let new := (List.range n).foldl (fun a i =>
        let k := 4096 * part + i
        foldEntry t.mode (t.entryBase + k % m) (t.posBase + k / m) (tget {} src i) a) old
      let fl := changedFlags t old new
      ((x.modGroup to' (fun g => { g with accs := new })).freeGroup j.slot (t.lgroup + part)).modClosing j.slot j.index (fun q =>
        { q with flags := q.flags ||| fl, status := poisonStatus q.status (q.flags ||| fl) }))
    s.actionThrough f j.slot j.index

/-- The conversion of a fold target completes (R205). -/
def State.targetDone (f p : Nat) (j : PortJob) (s : State) : State :=
  match (s.fold f).findClosing j.slot j.index, s.slotTask f j.slot with
  | some q, some (_, t) =>
    let accs := ((s.fold f).group p).accs
    let (bs, sat) := convertTarget q.entry.ofmt q.entry.mode (seedOf t.desc j.index) accs
    let w := if modeIdx q.entry.mode then 8 else fmtWidth q.entry.ofmt / 8
    let bad := if modeIdx q.entry.mode then (poisonedOf accs 4096).map (fun i => i / 2) else poisonedOf accs 4096
    let s := s.deliver f j.slot j.index 0 q.entry.outOffset w bs sat bad
    let s := s.modFold f (fun x => x.freeGroup j.slot q.entry.target)
    s.actionThrough f j.slot j.index
  | _, _ => s

/-- A spill completes (R208 to R210): records and directory entry are written to the spill area. -/
def State.spillDone (f p : Nat) (j : PortJob) (s : State) : State :=
  let x := s.fold f
  let c := x.slot j.slot
  let g := x.group p
  let r := State.accRecords g.accs g.mode 0 groupAccs s
  let seq := c.spillSeq + 1
  let dir := leBytes 1 j.index ++ leBytes 1 g.mode ++ leBytes 1 6 ++ leBytes 1 0 ++
    leBytes 4 (s.unit ⟨.fold, f⟩).incarnation ++ leBytes 8 seq ++ List.replicate 48 0#8
  let s := (r.2.wr (.sram f) (c.spillRecords j.index) r.1).wr (.sram f) (c.spillDir j.index) dir
  s.modFold f (fun x =>
    let x := x.freePhysGroup p
    let x := x.modLgroup j.slot j.index (fun l => { l with state := .spilled, phys := none })
    let x := x.modSlot j.slot (fun c => { c with spillSeq := seq })
    { x with spills := satInc 64 x.spills })

/-- One record restored: a word of it that cannot be read sets POISON (R211). -/
def State.restoreRecord (s : State) (f base mode i : Nat) : Acc × Bool :=
  let a := accOfRecord (s.rd (.sram f) (base + 16 * i) 16) mode
  if s.mem.poisoned (key (.sram f) (base + 16 * i)) 16 then ({ a with poison := true }, true) else (a, false)

/-- A restore completes (R210, R211). -/
def State.restoreDone (f p : Nat) (j : PortJob) (s : State) : State :=
  let c := (s.fold f).slot j.slot
  let mode := ((s.fold f).group p).mode
  let l := (List.range 4096).map (fun i => (i, s.restoreRecord f (c.spillRecords j.index) mode i))
  let bad := (l.filter (fun q => q.2.2)).length
  let accs := l.foldl (fun t q => tset ({} : Acc) t q.1 q.2.1) []
  let s := s.wr (.sram f) (c.spillDir j.index + 2) [0#8]
  s.modFold f (fun x =>
    let x := x.modGroup p (fun g => { g with accs })
    let x := x.setGState j.slot j.index .held
    { x with restores := satInc 64 x.restores, spillEcc := satAdd 32 x.spillEcc bad
             accEvent := if bad = 0 then x.accEvent else x.accEvent ||| 4 })

end Sys2Proof.Machine
end

