-- ==== Sys2Proof/Machine/DmaOps.lean ====
section
/-! DEFINITION. DMA channels and descriptors (chapter 12): binding, readiness, fields of a descriptor, notification and
completion. -/

namespace Sys2Proof.Machine

/-! ## Channels (R374, R375, Tables 12-1 and 12-10) -/

/-- A channel as Obesk binds it at DEV_CONFIGURE; context channels are enabled by residency (log entry 31). -/
def bindChan (e c : Nat) : DmaChan :=
  let fw := decide (e < 32 ∨ c < 4)
  let ctx := decide (32 ≤ e ∧ 8 ≤ c)
  let pace := fw && Config.dmaPace e c
  let low := max 64 (min 16777216 (Config.dmaLow e c))
  { enable := !ctx, pace, radio := if e < 32 then Config.dmaRadio e c else decide (c < 6),
    prio := Config.dmaPrio e c % 16, log2 := 4 + Config.dmaLog2 e c % 9, context := if ctx then c - 8 else 0,
    ownerKind := if fw then 0 else if ctx then 2 else 1, ringAddr := Config.dmaRing e c / 128 * 128,
    lowWm := low, highWm := max low (min 16777216 (Config.dmaHigh e c)), paused := pace }

/-- Every channel is bound (R374). -/
def State.bindDma (s : State) : State :=
  s.forEach (List.range 64) (fun e s => s.modDma e (fun x =>
    { x with chans := (List.range 16).foldl (fun t c => tset {} t c (bindChan e c)) x.chans }))

/-- The fold of an array-die engine. -/
def engineFold (e : Nat) : Option Nat := if e < 32 then none else some (e - 32)

/-- The channel as it stands: that of a context slot is enabled while the slot is resident, in the class of its
context. -/
def State.chan (s : State) (e c : Nat) : DmaChan :=
  let x : DmaChan := tget {} (s.dmaEng e).chans c
  if e < 32 ∨ c < 8 then x
  else
    let k := (s.fold (e - 32)).slot (c - 8)
    { x with enable := decide (k.state = .idle ∨ k.state = .running ∨ k.state = .releasing), radio := k.radio,
             ownerInst := k.inst }

def State.modChan (e c : Nat) (f : DmaChan → DmaChan) (s : State) : State :=
  s.modDma e (fun x => { x with chans := tmod {} x.chans c f })

/-- R378: enabled, with a posted descriptor, and not PAUSED. -/
def DmaChan.ready (x : DmaChan) : Bool := x.enable && !x.ring.isEmpty && !x.paused

/-! ## Descriptors (Table 12-2) -/

def dShuffle (d : Bytes) : Nat := byteAt d 0 % 16
def dBit (d : Bytes) (i : Nat) : Bool := bitOf (fieldAt d 0 4) i
def dLength (d : Bytes) : Nat := fieldAt d 32 4 % 2 ^ 25
def dStride (d : Bytes) : Nat := fieldAt d 36 4
def dSrc (d : Bytes) : Nat := fieldAt d 16 8 % 2 ^ 60
def dDst (d : Bytes) : Nat := fieldAt d 24 8 % 2 ^ 60
def dSrcSpace (d : Bytes) : Nat := byteAt d 23 / 16
def dDstSpace (d : Bytes) : Nat := byteAt d 31 / 16
def dSrcHandle (d : Bytes) : Nat := fieldAt d 64 8
def dDstHandle (d : Bytes) : Nat := fieldAt d 72 8
def dNotify (d : Bytes) : Nat := byteAt d 40 % 4
def dCore (d : Bytes) : Nat := fieldAt d 42 2 % 512
def dNotifyAddr (d : Bytes) : Nat := fieldAt d 48 8
def dSw (d : Bytes) : Nat := byteAt d 1 % 64 + 1
def dDw (d : Bytes) : Nat := byteAt d 2 % 64 + 1
def dVersion (d : Bytes) : Nat := fieldAt d 6 2

/-- Planes of a shuffle mode: N streams, two for I and Q, B bit planes, one line of nibbles. -/
def dPlanes (d : Bytes) : Nat :=
  match dShuffle d with
  | 1 | 2 => byteAt d 3 % 64 + 1
  | 3 | 4 => 2
  | 5 | 6 => byteAt d 4 % 8 + 1
  | _ => 1

/-- Bits of the unit that a shuffle mode moves. -/
def dUnitBits (d : Bytes) : Nat :=
  match dShuffle d with
  | 1 | 2 | 3 | 4 => 8 * 2 ^ (byteAt d 3 / 64)
  | _ => 1

/-- Block of a shuffle mode (Table 12-4); 1 byte for SHUFFLE 0. -/
def dBlock (d : Bytes) : Nat := if dShuffle d = 0 then 1 else 64 * dPlanes d

/-- The source side, or the destination side, lies in planes. -/
def dPlanar (d : Bytes) (src : Bool) : Bool :=
  match dShuffle d with
  | 1 | 4 | 6 => src
  | 2 | 3 | 5 => !src
  | _ => false

/-- H of R388. -/
def dHalf (d : Bytes) : Nat := dLength d / 2 / dBlock d * dBlock d

/-! ## Sides -/

/-- A place a side of a descriptor names. -/
inductive Loc where
  | mem (sp : Space) (a : Nat)
  | obj (e off : Nat)
  deriving DecidableEq, Repr

/-- The place of byte offset `off` of a side (Table 12-3), whatever lies there. -/
def State.loc (s : State) (e c : Nat) (space handle off : Nat) : Loc :=
  match space with
  | 1 => let f := (engineFold e).getD 0; .mem (.sram f) (((s.fold f).slot (c - 8)).shareBase + off)
  | 2 => .mem (.commons ((engineFold e).getD 0 / 16)) off
  | 3 => .obj (hdlEntry handle) off
  | 4 => .mem .hbm off
  | 5 => .mem .companion off
  | 6 => .mem (.port (off / 2 ^ 32 % 32)) (off % 2 ^ 32)
  | _ => .mem .radio off

def State.srcLoc (s : State) (e c : Nat) (d : Bytes) (off : Nat) : Loc := s.loc e c (dSrcSpace d) (dSrcHandle d) (dSrc d + off)
def State.dstLoc (s : State) (e c : Nat) (d : Bytes) (off : Nat) : Loc := s.loc e c (dDstSpace d) (dDstHandle d) (dDst d + off)

/-- The memory in which a channel's ring lies. -/
def State.ringLoc (s : State) (e c : Nat) (x : DmaChan) (n : Nat) : Space × Nat :=
  let off := x.ringAddr + n % 2 ^ x.log2 * 128
  if x.ownerKind = 2 then
    let f := (engineFold e).getD 0
    (.sram f, ((s.fold f).slot (c - 8)).shareBase + off)
  else (.radio, off)

/-! ## Notification and completion (R388, R389) -/

/-- HALF (`k` 4) or FULL (`k` 3) as NOTIFY directs. -/
def State.dmaNotify (e c k : Nat) (d : Bytes) (s : State) : State :=
  match dNotify d with
  | 1 => s.raiseIrq (dCore d) k
  | 3 =>
    let (sp, a) := if (s.chan e c).ownerKind = 2 then
        (let f := (engineFold e).getD 0; (Space.sram f, ((s.fold f).slot (c - 8)).shareBase + dNotifyAddr d))
      else (Space.radio, dNotifyAddr d)
    s.wr sp a (leBytes 8 ((s.rdField sp a 8 + 1) % 2 ^ 64))
  | _ => s

/-- Statuses that come of poison. -/
def Status.poison : Status → Bool
  | .tierUncorrectable | .poisoned => true
  | _ => false

/-- The head descriptor of a channel completes with a status and a count of bytes (R388): a repeating one stays while no
later one is posted (R389). -/
def State.dmaDone (e c : Nat) (st : Status) (bytes : Nat) (s : State) : State :=
  let x := s.chan e c
  match x.ring with
  | [] => s
  | d :: rest =>
    let (sp, a) := s.ringLoc e c x x.head
    let s := s.wr sp (a + 120) (leBytes 2 st.code ++ [1#8, 0#8] ++ leBytes 4 bytes)
    let stays := dBit d 6 && rest.isEmpty
    let s := s.modChan e c (fun x => { x with
      ring := if stays then x.ring else rest
      head := if stays then x.head else (x.head + 1) % 65536
      lastStatus := st.code
      paused := x.pace && decide (x.level < x.lowWm)
      pauses := if x.pace && decide (x.level < x.lowWm) then satInc 32 x.pauses else x.pauses })
    let s := s.modDma e (fun x => { x with
      descriptorsDone := satInc 64 x.descriptorsDone
      errorCount := if st = .ok then x.errorCount else satInc 32 x.errorCount
      event := x.event ||| (b2n (st ≠ .ok) + 2 * b2n st.poison + 4 * b2n (st = .tierLate)) })
    if dBit d 5 then s.dmaNotify e c 3 d else s

/-- A descriptor in progress on one of the channels of an engine ends at once. -/
def DmaEngine.drop (c : Nat) (x : DmaEngine) : DmaEngine :=
  { x with radioRun := x.radioRun.filter (fun r => r.chan != c)
           grazingRun := x.grazingRun.filter (fun r => r.chan != c)
           grazingHeld := x.grazingHeld && !(x.grazingRun.any (fun r => r.chan == c)) }

/-- Bytes that the descriptor in progress on a channel has written. -/
def DmaEngine.writtenOn (x : DmaEngine) (c : Nat) : Nat :=
  match x.radioRun.filter (fun r => r.chan == c), x.grazingRun.filter (fun r => r.chan == c) with
  | some r, _ => r.written
  | none, some r => r.written
  | none, none => 0

/-- Complete every descriptor of a channel with a status; `n` bounds them. -/
def State.dmaFlush (e c : Nat) (st : Status) : Nat → State → State
  | 0, s => s
  | n + 1, s =>
    let k := (s.dmaEng e).writtenOn c
    let s := s.modDma e (DmaEngine.drop c)
    State.dmaFlush e c st n (s.dmaDone e c st k)

/-- The context of a slot loses its work: every descriptor posted on its channel completes with JOB_LOST, a repeating one
too (R392). -/
def State.dmaLose (f slot : Nat) (s : State) : State :=
  let e := 32 + f
  let n := (s.chan e (8 + slot)).ring.length
  if 32 ≤ f ∨ n = 0 then s
  else (s.dmaFlush e (8 + slot) .jobLost n).modChan e (8 + slot) (fun x => { x with ring := [] })

/-- No descriptor is posted on the context's channels (R392). -/
def State.dmaIdle (s : State) (l : List (Nat × Nat)) : Bool :=
  l.all (fun p => decide (32 ≤ p.1) || (s.chan (32 + p.1) (8 + p.2)).ring.isEmpty)

end Sys2Proof.Machine
end

