-- ==== Sys2Proof/Machine/Queues.lean ====
section
/-! DEFINITION. Queues (chapters 03 and 13): ownership, contexts and their cache, shapers, ring entries, completion
queues, doorbells and eviction. -/

namespace Sys2Proof.Machine

/-! ## Ownership (R408, R549) -/

/-- Instance 0 holds queues 0 to 65,535; every other queue belongs to the instance whose grant covers it. -/
def State.queueOwner (s : State) (q : Nat) : Option Nat :=
  if q < 65536 then some 0
  else (s.insts.find? (fun p => p.1 != 0 && decide (p.2.state ≠ .unused ∧ p.2.grant.queueFirst ≤ q ∧
      q < p.2.grant.queueFirst + p.2.grant.queueCount))).map (fun p => p.1)

/-- First queue, queue count, first group and group count of an instance. -/
def State.queueRange (s : State) (i : Nat) : Nat × Nat × Nat × Nat :=
  if i = 0 then (0, 65536, 0, 1024)
  else
    let g := (s.inst i).grant
    (g.queueFirst, g.queueCount, g.groupFirst, g.groupCount)

/-! ## The queue table (R409, R410) -/

/-- Read bytes of an instance's queue table; that of instance 0 lies at the start of Obesk's half of HBM (log entry
21). -/
def State.tableRead (s : State) (i off n : Nat) : Option Bytes :=
  if i = 0 then some (s.rd .hbm off n)
  else match (s.inst i).queueTable with | some e => s.objRead e off n none | none => none

/-- Write bytes of an instance's queue table. -/
def State.tableWrite (i off : Nat) (b : Bytes) (s : State) : State :=
  if i = 0 then s.wr .hbm off b
  else match (s.inst i).queueTable with | some e => s.objWrite e off b | none => s

/-- Offset of a queue's and of a group's context in its owner's table. -/
def State.queueOff (s : State) (i q : Nat) : Nat := (q - (s.queueRange i).1) * 64
def State.groupOff (s : State) (i g : Nat) : Nat := ((s.queueRange i).2.1 + (g - (s.queueRange i).2.2.1)) * 64

/-- A queue or group context (Table 13-7). -/
def parseQCtx (b : Bytes) : QCtx :=
  let w := fieldAt b 0 8
  { type := bitsOf w 0 3, enable := bitOf w 3, err := bitsOf w 5 3, log2 := bitsOf w 8 5, group := bitsOf w 16 16,
    lane := bitsOf w 32 5, cls := bitsOf w 37 3, ring := fieldAt b 8 8, ringOff := fieldAt b 16 8,
    producer := fieldAt b 24 4, consumer := fieldAt b 28 4, rate := fieldAt b 32 4, burst := fieldAt b 36 3,
    weight := fieldAt b 39 2, buf := fieldAt b 48 8 }

/-- Bytes of a ring entry by TYPE (Table 13-6). -/
def entrySize (type : Nat) : Nat := match type with | 1 | 4 => 128 | _ => 32

/-- Entries of the ring. -/
def QCtx.size (c : QCtx) : Nat := 2 ^ c.log2

/-- Largest frame plus largest OVERHEAD (R412). -/
def minBurst : Nat := 9279

/-- The error of a queue context (R412): 1 malformed, 2 group outside the range, 3 burst too small. A context is
malformed where its TYPE or LOG2_ENTRIES is out of range, its ring does not lie in a T1 object of the instance on a
64-byte boundary, or an egress field is out of range (log entry 22). -/
def State.ctxError (s : State) (i : Nat) (c : QCtx) : Nat :=
  let (_, _, gf, gn) := s.queueRange i
  let ringBad := (s.handleStatus c.ring i).isSome || c.ringOff % 64 != 0 ||
    decide ((s.obj (hdlEntry c.ring)).size < c.ringOff + entrySize c.type * c.size)
  if 4 < c.type ∨ c.log2 < 4 ∨ 16 < c.log2 then 1
  else if c.type ≠ 0 ∧ ringBad then 1
  else if c.type = 3 ∧ (c.weight = 0 ∨ (i ≠ 0 ∧ c.cls = 7)) then 1
  else if c.type = 3 ∧ !(decide (gf ≤ c.group ∧ c.group < gf + gn)) then 2
  else if c.type = 3 ∧ c.rate ≠ 0 ∧ c.burst < minBurst then 3
  else 0

/-! ## Shapers (R419): buckets in 10^-6 bit, filled at RATE kb/s -/

def QCtx.full (c : QCtx) : Nat := c.burst * 8 * 1000000

/-- The bucket filled up to `now`. -/
def QCtx.fill (now : Nat) (c : QCtx) : QCtx :=
  { c with tokens := min c.full (c.tokens + c.rate * (now - c.filledAt)), filledAt := now }

/-- The bucket holds a counted length of `n` bytes. -/
def QCtx.holds (n : Nat) (c : QCtx) : Bool := c.rate == 0 || decide (n * 8000000 ≤ c.tokens)

/-- Starting a frame takes its counted length. -/
def QCtx.take (n : Nat) (c : QCtx) : QCtx := if c.rate = 0 then c else { c with tokens := c.tokens - n * 8000000 }

/-! ## The state cache (R410, R411) -/

def State.queue (s : State) (q : Nat) : Option QCtx := tget none s.queues.cached q
def State.setQueue (q : Nat) (c : Option QCtx) (s : State) : State :=
  { s with queues := { s.queues with cached := tset none s.queues.cached q c } }
def State.modQueue (q : Nat) (f : QCtx → QCtx) (s : State) : State := s.setQueue q ((s.queue q).map f)

/-- The consumer index: of a COMPLETION queue the host's, read from its context (R413). -/
def State.consumer (s : State) (q : Nat) (c : QCtx) : Nat :=
  if c.type = 2 then
    match s.queueOwner q with
    | some i => ((s.tableRead i (s.queueOff i q + 28) 4).map leNat).getD c.consumer
    | none => c.consumer
  else c.consumer

/-- Entries in use, modulo 2^32. -/
def State.queueUsed (s : State) (q : Nat) (c : QCtx) : Nat := (c.producer + 2 ^ 32 - s.consumer q c % 2 ^ 32) % 2 ^ 32

def State.queueEmpty (s : State) (q : Nat) (c : QCtx) : Bool := s.queueUsed q c == 0

/-- Write CACHED and CTX_ERROR into a context (byte 0 bits 7 to 3). -/
def State.markCached (i off : Nat) (c : QCtx) (cached : Bool) (s : State) : State :=
  s.tableWrite i off [BitVec.ofNat 8 (c.type + 8 * b2n c.enable + 16 * b2n cached + 32 * c.err)]

/-- Evict a queue with its write-back (R410). -/
def State.evict (q : Nat) (s : State) : State :=
  match s.queue q, s.queueOwner q with
  | some c, some i =>
    let c := c.fill s.time.now
    let off := s.queueOff i q
    let s := s.markCached i off c false
    let s := s.tableWrite i (off + 24) (leBytes 4 c.producer)
    let s := if c.type = 2 then s else s.tableWrite i (off + 28) (leBytes 4 c.consumer)
    let s := s.tableWrite i (off + 56) (leBytes 8 c.tokens)
    let s := s.setQueue q none
    { s with queues := { s.queues with evicted := tset 0 s.queues.evicted q (s.time.now + 1) } }
  | _, _ => s.setQueue q none

/-- The empty queue of an instance other than 0 that has been idle longest. -/
def State.victim (s : State) : Option Nat :=
  (s.queues.cached.foldl (fun (b : Option (Nat × Nat)) p =>
    match p.2 with
    | none => b
    | some c =>
      if p.1 < 65536 ∨ !s.queueEmpty p.1 c then b
      else match b with
        | none => some (p.1, c.usedAt)
        | some v => if c.usedAt < v.2 then some (p.1, c.usedAt) else b) none).map (fun v => v.1)

/-- Make room in a full cache (R411); none while no empty queue is left. -/
def State.makeRoom (s : State) : Option State :=
  if s.queues.cached.length < 65536 then some s
  else s.victim.map (fun v => s.evict v)

/-- Bring a queue into the cache (R410, R412): none while it must wait for room. -/
def State.bringIn (q : Nat) (s : State) : Option State :=
  match s.queue q, s.queueOwner q with
  | some _, _ | none, none => some s
  | none, some i =>
    match s.tableRead i (s.queueOff i q) 64 with
    | none => some s
    | some b =>
      s.makeRoom.map (fun s =>
        let c := parseQCtx b
        let c := { c with err := s.ctxError i c, usedAt := s.time.now, filledAt := s.time.now }
        let gone := tget 0 s.queues.evicted q
        let c := { c with tokens := if gone = 0 then c.full
                                    else min c.full (fieldAt b 56 8 + c.rate * (s.time.now - (gone - 1))) }
        (s.markCached i (s.queueOff i q) c true).setQueue q (some c))

/-- A cached queue that is served. -/
def State.served (s : State) (q : Nat) : Option QCtx :=
  match s.queue q with
  | some c => if c.enable ∧ c.err = 0 then some c else none
  | none => none

/-! ## Groups (R409, R417) -/

def State.groupCtx (s : State) (g : Nat) : Option QCtx := tget none s.queues.groups g
def State.setGroup (g : Nat) (c : Option QCtx) (s : State) : State :=
  { s with queues := { s.queues with groups := tset none s.queues.groups g c } }

/-- Bring an instance's group context in; its shaper starts full. -/
def State.bringGroup (i g : Nat) (s : State) : State :=
  match s.groupCtx g with
  | some _ => s
  | none =>
    match s.tableRead i (s.groupOff i g) 64 with
    | none => s
    | some b =>
      let c := parseQCtx b
      let err := if c.weight = 0 ∨ (i ≠ 0 ∧ c.cls = 7) then 1 else if c.rate ≠ 0 ∧ c.burst < minBurst then 3 else 0
      let c := { c with err, tokens := c.full, filledAt := s.time.now, usedAt := s.time.now }
      (s.markCached i (s.groupOff i g) c true).setGroup g (some c)

/-! ## Ring entries -/

/-- The ring entry an index names: the object and the offset in it. -/
def QCtx.slotOff (c : QCtx) (idx : Nat) : Nat := c.ringOff + idx % c.size * entrySize c.type

/-- Read a ring entry. -/
def State.ringRead (s : State) (c : QCtx) (idx : Nat) : Option Bytes :=
  s.objRead (hdlEntry c.ring) (c.slotOff idx) (entrySize c.type) none

/-- Write bytes into a ring entry at an offset. -/
def State.ringWrite (c : QCtx) (idx off : Nat) (b : Bytes) (s : State) : State :=
  s.objWrite (hdlEntry c.ring) (c.slotOff idx + off) b

/-- PHASE of an entry: 1 on the first pass around the queue (Table 07-5). -/
def QCtx.phase (c : QCtx) (idx : Nat) : Bool := idx / c.size % 2 == 0

/-- The descriptor at the head of a queue the host produces into. -/
def State.head (s : State) (q : Nat) : Option (QCtx × Bytes) :=
  match s.served q with
  | some c => if s.queueEmpty q c then none else (s.ringRead c c.consumer).map (fun b => (c, b))
  | none => none

/-- Take the head off. -/
def State.popHead (q : Nat) (s : State) : State :=
  s.modQueue q (fun c => { c with consumer := (c.consumer + 1) % 2 ^ 32, usedAt := s.time.now })

/-! ## Completion queues (R107, R111, R413) -/

/-- What a completion queue makes of a record: taken, held back while it is full, or discarded because the queue is no
enabled completion queue of the instance (log entry 22). -/
inductive CqState where
  | takes | full | bad
  deriving DecidableEq, Repr

/-- What a completion queue makes of a record before which `ahead` others will be written to it. -/
def State.cqRoom (s : State) (inst q ahead : Nat) : CqState :=
  if s.queueOwner q ≠ some inst then .bad
  else
    match s.bringIn q with
    | none => .full
    | some s =>
      match s.served q with
      | some c => if c.type ≠ 2 then .bad else if c.size ≤ s.queueUsed q c + ahead then .full else .takes
      | none => .bad

/-- What a completion queue makes of the next record. -/
def State.cqState (s : State) (inst q : Nat) : CqState := s.cqRoom inst q 0

/-- Add a record to a completion queue: its bytes with PHASE in bit 2, the producer index, QUEUE_COMPLETION where the
host has consumed since the last one (R111) or none has been raised yet (log entry 87). -/
def State.addCompletion (inst q : Nat) (bytes : Bytes) (s : State) : State :=
  match s.bringIn q with
  | none => s
  | some s =>
    match s.served q with
    | none => s
    | some c =>
      let b := match bytes with
        | x :: r => (x ||| (if c.phase c.producer then 4#8 else 0#8)) :: r
        | [] => []
      let s := s.ringWrite c c.producer 0 b
      let cons := s.consumer q c
      let due := match c.announced with | none => true | some v => v != cons
      let s := s.modQueue q (fun c => { c with producer := (c.producer + 1) % 2 ^ 32, usedAt := s.time.now,
                                               announced := if due then some cons else c.announced })
      if due then s.raiseTo 6 inst 1 0 q (.unassigned, 0) else s

/-! ## Doorbells (R112 to R115) -/

/-- TAIL of a doorbell against a cached queue (R114). -/
def State.ringTail (page q tail : Nat) (s : State) : State :=
  match s.queue q with
  | none => s
  | some c =>
    let d := (tail + 2 ^ 32 - c.producer % 2 ^ 32) % 2 ^ 32
    if c.err ≠ 0 then s.modDbPage page (fun p => { p with malformed := satInc 32 p.malformed })
    else if d = 0 then s
    else if c.size < d then s.modDbPage page (fun p => { p with stale := satInc 32 p.stale })
    else (s.modQueue q (fun c => { c with producer := tail, usedAt := s.time.now })).modDbPage page
      (fun p => { p with accepted := satInc 32 p.accepted })

/-- A doorbell that names a queue outside the range or of a type that takes none is a spoof (R113). -/
def State.doorbellSpoof (page : Nat) (s : State) : State :=
  (s.modDbPage page (fun p => { p with spoof := satInc 32 p.spoof })).countSpoof 1 (some page)

/-- Serve one doorbell write; `none` while it waits for room in the cache. -/
def State.serveDoorbell (page q tail : Nat) (s : State) : Option State :=
  if s.queueOwner q ≠ some page then some (s.doorbellSpoof page)
  else
    (s.bringIn q).map (fun s =>
      match s.queue q with
      | none => s
      | some c => if c.type = 1 ∨ c.type = 3 ∨ c.type = 4 then s.ringTail page q tail else s.doorbellSpoof page)

/-- A doorbell takes its place behind those that wait. -/
def State.waitDoorbell (d : Nat × Nat × Nat) (s : State) : State :=
  { s with queues := { s.queues with doorbells := s.queues.doorbells ++ [d] } }

/-- Serve a doorbell, or let it wait: for room in the cache (R411), or behind one of its page that waits (R115). -/
def State.takeDoorbell (d : Nat × Nat × Nat) (s : State) : State :=
  if s.queues.doorbells.any (fun w => w.1 == d.1) then s.waitDoorbell d
  else
    match s.serveDoorbell d.1 d.2.1 d.2.2 with
    | some s => s
    | none => s.waitDoorbell d

/-- Doorbells that waited take effect in the order of their page once there is room. -/
def State.retryDoorbells (s : State) : State :=
  ({ s with queues := { s.queues with doorbells := [] } } : State).forEach s.queues.doorbells State.takeDoorbell

/-- The mapping that a doorbell page accepts writes from (R36): that granted to its instance; page 0 is the firmware's
(R112). -/
def State.pageMaps (s : State) (page : Nat) (mapping : W32) : Bool :=
  if page = 0 then decide (mapping = Config.firmwareMapping)
  else decide ((s.inst page).state ≠ .unused ∧ (s.inst page).grant.mapping = mapping)

/-- A write to doorbell page `page` (R113). -/
def State.doorbellWrite (page : Nat) (mapping : W32) (offset : Nat) (aligned64 : Bool) (value : W64) (s : State) : State :=
  if !s.pageMaps page mapping || decide (0x800 ≤ offset) then s
  else if !aligned64 then s.modDbPage page (fun p => { p with malformed := satInc 32 p.malformed })
  else
    s.takeDoorbell (page, bitsOf value.toNat 0 20, bitsOf value.toNat 32 32)

/-- DOORBELL (R113). -/
def execDoorbell (page : Fin 256) (mapping : W32) (offset : Nat) (aligned64 : Bool) (value : W64) (s : State) : Outcome :=
  .next (s.doorbellWrite page mapping offset aligned64 value)

/-- QUEUE_EVICT (R411): a queue that is empty and has been idle for 100 µs; queues of instance 0 stay. -/
def execQueueEvict (now queue : Nat) (s : State) : Outcome :=
  .next (
    let s := s.at now
    match s.queue queue with
    | some c =>
      if 65536 ≤ queue ∧ s.queueEmpty queue c ∧ c.usedAt + 100000 ≤ s.time.now then
        (s.evict queue).retryDoorbells
      else s
    | none => s)

end Sys2Proof.Machine
end

