-- ==== Sys2Proof/Machine/Tasks.lean ====
section
/-! DEFINITION. Tasks (chapter 07): the descriptor and its checks, residency, placement, and how contexts and ranks
leave a fold. -/

namespace Sys2Proof.Machine

/-! ## The task descriptor (Table 07-2) -/

def parseTask (b : Bytes) : TaskDesc :=
  let w := fieldAt b 0 8
  let r := fieldAt b 114 2
  { kind := bitsOf w 0 8, sr := bitOf w 8, barrierEn := bitOf w 9, reportAll := bitOf w 10, version := bitsOf w 16 16,
    inst := bitsOf w 32 8, ctxId := bitsOf w 40 8, generation := bitsOf w 48 16, foldMask := fieldAt b 8 4,
    ranks := byteAt b 12, barrier := byteAt b 13, cq := bitsOf (fieldAt b 16 3) 0 20, tileCount := fieldAt b 20 4,
    tag := fieldAt b 24 8, digest := (b.drop 32).take 32, coords := (b.drop 64).take 16, tileList := fieldAt b 80 8,
    entry := fieldAt b 88 4, args := fieldAt b 96 8, program := fieldAt b 104 8, share := fieldAt b 112 2,
    physGroups := bitsOf r 0 4, logGroups := bitsOf r 4 5, bundles := byteAt b 116 }

/-- The spill area of a context (R208): 64 KiB aligned, at the top of its share. -/
def TaskDesc.spillSize (d : TaskDesc) : Nat := if d.physGroups < d.logGroups then (d.logGroups + 1) * 65536 else 0

/-- A RESIDE field is out of range (Table 07-2), the spill area does not fit the share, or a radio context asks for more
logical than physical groups (R188). -/
def TaskDesc.resideBad (d : TaskDesc) : Bool :=
  decide (d.share < 1 ∨ 640 < d.share ∨ d.physGroups < 1 ∨ 8 < d.physGroups ∨ d.logGroups < d.physGroups ∨
    16 < d.logGroups ∨ (d.inst = 0 ∧ d.logGroups ≠ d.physGroups) ∨ d.bundles % 8 ≠ 0 ∨ d.bundles < 8 ∨ 128 < d.bundles ∨ d.share * 65536 < d.spillSize)

/-- The BAD_ARG conditions of R223 step 2 that lie in the descriptor itself. -/
def TaskDesc.bad (d : TaskDesc) : Bool :=
  decide (d.kind < 1 ∨ 3 < d.kind ∨ d.ranks = 0 ∨ 32 < d.ranks ∨ (d.kind = 1 ∧ d.tileCount = 0)) ||
  (d.barrierEn && d.inst != 0) || (d.kind == 2 && d.resideBad)

/-! ## Digests -/

/-- The digest of a program object (R537). -/
def programDigest (content : Bytes) : Bytes := shakeTag 32 [0x4D, 0x56, 0x4E, 0x2D, 0x50, 0x44] content

/-- The tile list digest (Table 17-3). -/
def listDigest (b : Bytes) : Bytes := shakeTag 32 [0x4D, 0x56, 0x4E, 0x2D, 0x54, 0x4C] b

/-! ## Completion records that no fold writes -/

/-- Bytes of a completion record but for its PHASE (Table 07-5). -/
def cmpBytes (r : CmpRec) : Bytes :=
  leBytes 1 r.kind ++ leBytes 1 r.flags ++ leBytes 2 r.status.code ++ leBytes 1 r.inst ++ leBytes 1 r.fold ++
    leBytes 1 r.ctxId ++ leBytes 1 0 ++ leBytes 2 r.generation ++ leBytes 2 r.rank ++ leBytes 4 r.tile ++
    leBytes 8 r.tag ++ leBytes 8 r.time

/-- Write a record to its queue, or hold it while the queue is full; a queue that is no completion queue of the
instance takes none (log entry 22). -/
def State.putDirect (r : CmpRec) (s : State) : State :=
  let s := s.countTask r
  if !s.disp.direct.isEmpty then s.modDisp (fun d => { d with direct := d.direct ++ [r] })
  else
    match s.cqState r.inst r.queue with
    | .takes => s.addCompletion r.inst r.queue (cmpBytes r)
    | .full => s.modDisp (fun d => { d with direct := d.direct ++ [r] })
    | .bad => s

/-- The task record of a task that ran on no fold, written as for the owner of its queue (Table 18-5). -/
def State.directRec (owner : Nat) (d : TaskDesc) (st : Status) (s : State) : CmpRec :=
  { kind := 2, flags := 0, status := st, inst := owner, fold := 0xFF, ctxId := d.ctxId, generation := d.generation,
    rank := 0, tile := 0, tag := d.tag, time := s.time.now, queue := d.cq, issued := (s.inst owner).generation }

/-- A task ends without having run: its head leaves the queue, its record is written, its barrier addition queues up. -/
def State.endDirect (q owner : Nat) (d : TaskDesc) (st : Status) (s : State) : State :=
  let s := s.popHead q
  let s := s.putDirect (s.directRec owner d st)
  if d.barrierEn && owner == 0 then s.modDisp (fun x => { x with adds := x.adds ++ [d.barrier] }) else s

/-! ## Residency (R217 to R220) -/

/-- A context's own slot on a fold, whatever its state. -/
def Fold.slotOf (x : Fold) (inst ctx : Nat) : Option Nat :=
  (x.slots.find? (fun p => decide (p.2.state ≠ .empty) && p.2.inst == inst && p.2.ctxId == ctx)).map (fun p => p.1)

/-- Every fold and slot that holds a context, leaving ones included. -/
def State.slotsOf (s : State) (inst ctx : Nat) : List (Nat × Nat) :=
  s.folds.filterMap (fun p => (p.2.slotOf inst ctx).map (fun k => (p.1, k)))

def Fold.emptySlot? (x : Fold) : Option Nat := (List.range 8).find? (fun k => decide ((x.slot k).state = .empty))

def Fold.held (x : Fold) : List Ctx := (x.slots.map (fun p => p.2)).filter (fun c => decide (c.state ≠ .empty))

/-- CAPS of a READY fold (Table 05-2): five shapes, CHECKSUM, GLINT, SAMPLER, 8 slots, 16 vector cores, 8 groups,
40 MiB. -/
def foldCaps : W64 := 0x28081008FF

/-- CAPS that a fold shows: a DEGRADED one those of its self-test (R145). -/
def State.capsOf (s : State) (f : Nat) : W64 := ((s.unit ⟨.fold, f⟩).capsDegraded).getD foldCaps

/-- The share of slot `k` in the addresses of fold SRAM: 64 MiB apart, since a share is at most 40 MiB and no rule gives a
share an address (log entry 23). -/
def shareAt (k : Nat) : Nat := k * 2 ^ 26

/-- Addresses that the shares of a fold span. -/
def sramSpan : Nat := shareAt 8

/-- Bundles of a vector core that no context holds. -/
def Fold.freeBundles (x : Fold) : List Nat := (List.range 128).filter (fun b => x.held.all (fun c => !c.bundleSet.contains b))

/-- Where a new context goes on a fold with the capabilities shown: its slot, share base and bundles, the lowest that are
free; none where something does not fit (R145, R217, R218). -/
def Fold.roomFor (x : Fold) (caps : W64) (d : TaskDesc) : Option (Nat × Nat × List Nat) :=
  let c := fun lo w => bitsOf caps.toNat lo w
  if c 24 8 < (x.held.map (fun c => c.phys)).sum + d.physGroups then none
  else if c 32 16 * 2 ^ 20 < (x.held.map (fun c => c.shareSize)).sum + d.share * 65536 then none
  else if c 8 8 < x.held.length + 1 ∨ c 16 8 = 0 ∨ x.freeBundles.length < d.bundles then none
  else x.emptySlot?.map (fun k => (k, shareAt k, x.freeBundles.take d.bundles))

/-- The allowed set of an instance for RESIDE: its grant, or every fold for instance 0. -/
def State.allowedFolds (s : State) (i : Nat) : List Nat :=
  (List.range 32).filter (fun f => i == 0 || bitOf (s.inst i).grant.folds f)

def maskAllows (m f : Nat) : Bool := m == 0 || bitOf m f

/-- The folds a RESIDE takes (R218, R145). -/
def State.resideFolds (s : State) (d : TaskDesc) : List (Nat × Nat × Nat × List Nat) :=
  ((s.allowedFolds d.inst).filterMap (fun f =>
    if maskAllows d.foldMask f && s.accepts ⟨.fold, f⟩ && (d.inst != 0 || s.capsOf f == foldCaps) then
      ((s.fold f).roomFor (s.capsOf f) d).map (fun p => (f, p))
    else none)).take d.ranks

/-- Slots an instance holds. -/
def State.slotsHeld (s : State) (i : Nat) : Nat :=
  (s.folds.map (fun p => (p.2.held.filter (fun c => c.inst == i)).length)).sum

/-- Put a context into a slot: RESIDING, its physical groups its own, its bundles in their initial state. -/
def Fold.takeSlot (d : TaskDesc) (n slot base : Nat) (bundles : List Nat) (x : Fold) : Fold :=
  let free := ((List.range 8).filter (fun p => (x.group p).owner.isNone)).take d.physGroups
  let x := free.foldl (fun x p => x.modGroup p (fun _ => { owner := some slot })) x
  x.modSlot slot (fun _ =>
    { state := .residing, radio := d.inst == 0, inst := d.inst, ctxId := d.ctxId, phys := d.physGroups,
      logical := d.logGroups, bundleSet := bundles, shareBase := base, shareSize := d.share * 65536,
      spillBase := base + d.share * 65536 - d.spillSize, digest := d.digest,
      program := hdlEntry d.program, task := some n })

/-- A context becomes RESIDING on the folds chosen; its shares are zeroed (R219). -/
def State.startReside (d : TaskDesc) (q : Nat) (fs : List (Nat × Nat × Nat × List Nat)) (s : State) : State :=
  let n := s.disp.nextTask
  let s := s.popHead q
  let s := s.modDisp (fun x => { x with nextTask := n + 1 })
  let s := s.setTask n (some { desc := d, queue := q, tiles := [], ranks := fs.map (fun p => (p.1, p.2.1)) })
  s.forEach fs (fun p s => (s.modFold p.1 (Fold.takeSlot d n p.2.1 p.2.2.1 p.2.2.2)).zeroMem (.sram p.1) p.2.2.1
    (d.share * 65536))

/-- A RESIDE at the head of a queue (R218, R223, R538, R554). -/
def State.actReside (q : Nat) (d : TaskDesc) (s : State) : Option State :=
  if !(s.slotsOf d.inst d.ctxId).isEmpty then some (s.endDirect q d.inst d .badArg)
  else
    match s.handleStatus d.program d.inst with
    | some st => some (s.endDirect q d.inst d st)
    | none =>
      match s.fetchObj d.program 0 (s.obj (hdlEntry d.program)).size with
      | (f, s) =>
        match f.clean with
        | .wait _ => none
        | .ends st => some (s.endDirect q d.inst d st)
        | .bytes b _ =>
          let fs := s.resideFolds d
          if programDigest b ≠ fixLen 32 d.digest then some (s.endDirect q d.inst d .badArg)
          else if d.inst ≠ 0 ∧ (s.inst d.inst).grant.contextSlots < s.slotsHeld d.inst + d.ranks then
            some (s.endDirect q d.inst d .quota)
          else if s.overQuota d.inst 0 (d.ranks * d.share * 65536) then some (s.endDirect q d.inst d .quota)
          else if fs.length < d.ranks then some (s.endDirect q d.inst d .capacity)
          else some (s.startReside d q fs)

/-- RESIDE_DONE (R219): once its share is ready the context is resident on all its folds together. -/
def execResideDone (fold : Fin 32) (slot : Fin 8) (s : State) : Outcome :=
  .next (
    let c := (s.fold fold).slot slot
    if c.state ≠ .residing then s
    else
      match s.slotTask fold slot with
      | none => s
      | some (n, t) =>
        let s := s.forEach t.ranks (fun p s => s.modFold p.1 (fun x => x.modSlot p.2 (fun c =>
          if c.state = .residing then { c with state := .idle, task := none } else c)))
        let s := s.putDirect (s.directRec t.desc.inst t.desc .ok)
        s.taskEnded n)

/-- Nothing of a context is left on a fold: its groups and slot are free (R195, R220). If its tile was the last on the
array, the next one is a switch whatever slot it runs in. -/
def Fold.vacate (slot : Nat) (x : Fold) : Fold :=
  let c := x.slot slot
  let x := (List.range 8).foldl (fun x p =>
    if (x.group p).owner = some slot then (x.modGroup p (fun _ => {})).setPort p none else x) x
  let clear := fun (v : VCore) => { v with
    bundles := v.bundles.filter (fun b => !c.bundleSet.contains b.1)
    icache := v.icache.filter (fun l => l.1 != slot) }
  let x := { x with vcores := (List.range 16).foldl (fun t k => tmod {} t k clear) x.vcores
                    lastCtx := if x.lastCtx = some slot then some 8 else x.lastCtx }
  x.modSlot slot (fun _ => {})

/-- A RELEASE at the head of a queue (R220): the context takes no further task, and its share's copies are evicted. -/
def State.actRelease (q : Nat) (d : TaskDesc) (s : State) : Option State :=
  let l := s.residence d.inst d.ctxId
  if l.isEmpty || l.any (fun p => let c := (s.fold p.1).slot p.2; c.releasing || decide (c.state = .residing)) then
    some (s.endDirect q d.inst d .badArg)
  else
    let n := s.disp.nextTask
    let s := s.popHead q
    let s := s.modDisp (fun x => { x with nextTask := n + 1 })
    let s := s.setTask n (some { desc := d, queue := q, tiles := [], ranks := l })
    let s := s.forEach l (fun p s => s.modFold p.1 (fun x => x.modSlot p.2 (fun c =>
      { c with releasing := true, relTask := some n, state := if c.state = .idle then .releasing else c.state })))
    some (s.forEach (s.tiers.objs.filter (fun p => p.2.refs.any (fun r =>
        r.tier == 0 && decide (r.place = .share d.inst d.ctxId))) |>.map (fun p => p.1))
      (fun e s => s.dropRef e d.inst 0))

/-- Copies that still lie in a context's share. -/
def State.shareCopies (s : State) (inst ctx : Nat) : Bool :=
  s.tiers.objs.any (fun p => p.2.copies.any (fun c => decide (c.place = .share inst ctx)))

/-- RELEASE_DONE (R220): its running tasks have completed and its share holds no copy any more. -/
def execReleaseDone (inst ctx : Fin 256) (s : State) : Outcome :=
  .next (
    let l := s.slotsOf inst ctx
    if l.isEmpty || l.any (fun p => decide (((s.fold p.1).slot p.2).state ≠ .releasing)) || s.shareCopies inst ctx || !s.dmaIdle l then s
    else
      let rel := l.findSome? (fun p => ((s.fold p.1).slot p.2).relTask)
      let s := s.forEach l (fun p s => s.modFold p.1 (Fold.vacate p.2))
      match rel with
      | none => s
      | some n =>
        match s.task n with
        | none => s
        | some t => (s.putDirect (s.directRec t.desc.inst t.desc .ok)).taskEnded n)

/-- A task that runs on no fold, asking for a context or giving one up, ends with a status. -/
def State.failTask (st : Status) (n : Nat) (s : State) : State :=
  match s.task n with
  | some t => (s.putDirect (s.directRec t.desc.inst t.desc st)).taskEnded n
  | none => s

/-! ## Ranks and contexts that leave at once (R177, R195, R238, R560) -/

/-- Whatever a slot's rank has under way on the fold is abandoned, its groups at work cleared (R194), its reserved
entries released but for that of its task record. -/
def Fold.abandon (slot : Nat) (x : Fold) : Fold :=
  let x := match x.tile with
    | some t => if t.slot = slot then x.returnTile t else x
    | none => x
  let gone := x.closing.filter (fun q => q.slot == slot)
  let held := (gone.filter (fun q => q.reserved)).length
  let x := { x with closing := x.closing.filter (fun q => q.slot != slot), cmpReserved := x.cmpReserved - held }
  let x := gone.foldl (fun x q =>
    ((List.range q.entry.k).foldl (fun x i => x.freeGroup slot (q.entry.lgroup + i)) x).freeTarget slot q.entry) x
  let x := (List.range 8).foldl (fun x p =>
    if (x.group p).working && (x.group p).owner == some slot then x.freePhysGroup p else x) x
  (List.range 8).foldl (fun x p =>
    match x.port p with
    | some j => if j.slot = slot then x.setPort p none else x
    | none => x) x

/-- Every group of a context becomes UNUSED, its bundles return to their initial state (R195, R238 step 2). -/
def Fold.resetContext (slot : Nat) (x : Fold) : Fold :=
  let c := x.slot slot
  let x := (List.range 8).foldl (fun x p =>
    if (x.group p).owner = some slot then (x.modGroup p (fun _ => { owner := some slot })).setPort p none else x) x
  let clear := fun (v : VCore) => { v with
    bundles := v.bundles.filter (fun b => !c.bundleSet.contains b.1)
    icache := v.icache.filter (fun l => l.1 != slot) }
  let x := { x with vcores := (List.range 16).foldl (fun t k => tmod {} t k clear) x.vcores }
  x.modSlot slot (fun c => { c with groups := [], spillSeq := 0 })

/-- The slot's rank is gone: the slot is idle, or leaves with its context. -/
def Fold.dropRank (slot : Nat) (x : Fold) : Fold :=
  x.modSlot slot (fun c => { c with
    task := none, nextTile := 0, flags := 0, paused := false
    state := if c.state = .running then (if c.releasing then .releasing else .idle) else c.state })

/-- A task dies without records (R560, R561): its ranks leave their folds, their entries are released. -/
def State.killTask (n : Nat) (s : State) : State :=
  match s.task n with
  | none => s
  | some t =>
    let s := s.forEach t.ranks.zipIdx (fun p s =>
      let c := (s.fold p.1.1).slot p.1.2
      if c.task = some n ∧ c.state = .running then
        s.modFold p.1.1 (fun x => let x := (x.abandon p.1.2).dropRank p.1.2; { x with cmpReserved := x.cmpReserved - 1 })
      else s)
    let s := s.forEach t.records (fun r s => s.modFold r.fold (fun x => { x with cmpReserved := x.cmpReserved - 1 }))
    s.setTask n none

/-- A task that was placed and has not completed ends with a status (R238 step 3, R626, R647): each rank that runs
writes its task record. -/
def State.loseTask (n : Nat) (st : Status) (s : State) : State :=
  match s.task n with
  | none => s
  | some t =>
    let s := s.modTask n (fun t => { t with status := st })
    let s := s.forEach t.ranks (fun p s =>
      let c := (s.fold p.1).slot p.2
      if c.task = some n ∧ c.state = .running then
        let r := s.cmpRec t 2 c.flags st p.1 c.rank (c.nextTile - 1)
        let s := s.modFold p.1 (fun x => let x := (x.abandon p.2).dropRank p.2; { x with tasksDone := satInc 64 x.tasksDone })
        if t.sealed then s.modTask n (fun t => { t with records := t.records ++ [r] }) else s.putCmp p.1 r
      else s)
    (s.flushRecords n).taskEnded n

/-- A context leaves residency at once (R238 step 4, R560 step 2): its groups and bundles are gone, and its slots are
empty as soon as no copy lies in its share. -/
def State.leaveNow (inst ctx : Nat) (s : State) : State :=
  let l := s.slotsOf inst ctx
  let s := s.forEach l (fun p s =>
    match ((s.fold p.1).slot p.2).task with
    | some n => if ((s.fold p.1).slot p.2).state = .residing then s.setTask n none else s
    | none => s)
  let s := s.forEach l (fun p s => s.dmaLose p.1 p.2)
  let s := s.forEach l (fun p s => s.modFold p.1 (fun x => ((x.abandon p.2).resetContext p.2).modSlot p.2 (fun c =>
    { c with state := .releasing, releasing := true, task := none })))
  let s := s.forEach (s.tiers.objs.filter (fun p => p.2.refs.any (fun r =>
      r.tier == 0 && decide (r.place = .share inst ctx))) |>.map (fun p => p.1))
    (fun e s => s.dropRef e inst 0)
  if s.shareCopies inst ctx then s else s.forEach l (fun p s => s.modFold p.1 (Fold.vacate p.2))

/-! ## Placement (R227, R228) -/

/-- A tile needs a shape, and perhaps GLINT, that a DEGRADED fold's CAPS do not show (R145, Table 05-2). -/
def capsShow (caps : W64) (t : TileEntry) (glint : Bool) : Bool :=
  decide (t.shape < 5) && bitOf caps.toNat t.shape && (!glint || bitOf caps.toNat 6)

/-- The fold accepts the task's work (Table 02-4, R145). -/
def State.acceptsTask (s : State) (f : Nat) (tiles : List (TileEntry × List PassEntry)) : Bool :=
  s.accepts ⟨.fold, f⟩ &&
  tiles.all (fun t => capsShow (s.capsOf f) t.1 (glintFmt t.1.wfmt))

/-- The allowed set of a RUN: an instance's grant; for a radio task the set S_w of its window, which its barrier
names, else every fold that holds a radio context (R227, R316, log entry 24). -/
def State.runFolds (s : State) (d : TaskDesc) : List Nat :=
  let base := if d.inst = 0 then
      (match s.shep.sets.find? (fun p => d.barrierEn && p.1 % 256 == d.barrier) with
       | some p => p.2
       | none => (List.range 32).filter (fun f => ((s.fold f).slotOf 0 d.ctxId).isSome))
    else s.allowedFolds d.inst
  (List.range 32).filter (fun f => base.contains f && maskAllows d.foldMask f)

/-- A slot of the fold holds the context and no task of it runs there. -/
def Fold.idleSlot (x : Fold) (inst ctx : Nat) : Option Nat :=
  match x.slotOf inst ctx with
  | some k => if (x.slot k).state = .idle ∧ !(x.slot k).releasing then some k else none
  | none => none

/-- The folds and slots of the ranks, in fold order (R227); fewer than RANKS where the task must wait. -/
def State.chooseFolds (s : State) (d : TaskDesc) (tiles : List (TileEntry × List PassEntry)) : List (Nat × Nat) :=
  ((s.runFolds d).filterMap (fun f =>
    let x := s.fold f
    if s.acceptsTask f tiles && x.holdAsked.isNone && decide (x.cmpUsed < 64) && (d.inst == 0 || x.penumbra == 0) then
      (x.idleSlot d.inst d.ctxId).map (fun k => (f, k))
    else none)).take d.ranks

/-- Bundles of a context start at the task's ENTRY. -/
def Fold.startBundles (slot entry : Nat) (x : Fold) : Fold :=
  let c := x.slot slot
  let go := fun (v : VCore) => c.bundleSet.foldl (fun (v : VCore) b =>
    { v with bundles := tset {} v.bundles b { pc := entry, ready := true } }) v
  { x with vcores := (List.range 16).foldl (fun t k => tmod {} t k go) x.vcores }

/-- Rank `r` of task `n` starts in a slot. -/
def Fold.startRank (d : TaskDesc) (n r slot now : Nat) (x : Fold) : Fold :=
  let x := (x.startBundles slot d.entry).modSlot slot (fun c =>
    { c with state := .running, task := some n, rank := r, nextTile := 0, flags := 0, paused := false })
  { x with cmpReserved := x.cmpReserved + 1,
           dispatchTrace := ((d.inst, d.ctxId, r, fieldAt (fixLen 16 d.coords) 12 4, now) :: x.dispatchTrace).take 256 }

/-- Place a RUN on the folds chosen. -/
def State.place (q : Nat) (d : TaskDesc) (tiles : List (TileEntry × List PassEntry)) (fs : List (Nat × Nat))
    (digest args : Bytes) (s : State) : State :=
  let n := s.disp.nextTask
  let s := s.popHead q
  let s := s.modDisp (fun x => { x with nextTask := n + 1 })
  let s := s.setTask n (some { desc := d, queue := q, tiles, ranks := fs, sealed := s.seals d.inst, listDigest := digest,
                               argBytes := args })
  s.forEach fs.zipIdx (fun p s => s.modFold p.1.1 (Fold.startRank d n p.2 p.1.2 s.time.now))

/-- The content of ARGS where the task is sealed. -/
def State.readArgsObj (d : TaskDesc) (s : State) : Fetch × State :=
  if s.seals d.inst && d.args != 0 then s.fetchObj d.args 0 (s.obj (hdlEntry d.args)).size else (.bytes [] false, s)

/-- The first handle of a RUN that does not stand; ARGS 0 names no object (log entry 24). -/
def State.runHandles (s : State) (d : TaskDesc) : Option Status :=
  match s.handleStatus d.tileList d.inst with
  | some st => some st
  | none => if d.args = 0 then none else s.handleStatus d.args d.inst

/-- The context of a RUN as it is resident somewhere does not allow a tile, or a grazing tile is over the cap of R176: what
R223 step 2 can tell before placement (log entry 88). -/
def State.tilesBad (s : State) (d : TaskDesc) (tiles : List (TileEntry × List PassEntry)) (res : List (Nat × Nat)) : Bool :=
  tiles.any (fun t => (d.inst != 0 && overCap t.1 t.2) ||
    (match res.head? with
     | some p => let c := (s.fold p.1).slot p.2; rangeBad c.logical c.phys t.1
     | none => false))

/-- A RUN at the head of a queue (R223, R227, R228, R538); none while it waits. -/
def State.actRun (q : Nat) (d : TaskDesc) (s : State) : Option State :=
  match s.runHandles d with
  | some st => some (s.endDirect q d.inst d st)
  | none =>
    match s.readTiles d.tileList d.tileCount 0 with
    | (.wait _, _, _) => none
    | (.ends st, _, s) => some (s.endDirect q d.inst d st)
    | (.bytes lb _, tiles, s) =>
      let res := s.residence d.inst d.ctxId
      let home := (s.runFolds d).filter (fun f => res.any (fun p => p.1 == f && decide (((s.fold f).slot p.2).state ≠ .residing)))
      if s.tilesBad d tiles res then some (s.endDirect q d.inst d .badArg)
      else if home.length < d.ranks then some (s.endDirect q d.inst d .notReady)
      else if res.any (fun p => let g := ((s.fold p.1).slot p.2).digest; !g.isEmpty && g != fixLen 32 d.digest) then
        some (s.endDirect q d.inst d .badArg)
      else
        match s.readArgsObj d with
        | (f, s) =>
          match f.clean with
          | .wait _ => none
          | .ends st => some (s.endDirect q d.inst d st)
          | .bytes ab _ =>
            let fs := s.chooseFolds d tiles
            if fs.length < d.ranks then none else some (s.place q d tiles fs (listDigest lb) ab)

/-- The window whose tasks a barrier counts has its penumbra open and has not started (R319, R321). -/
def State.windowWaits (s : State) (b : Nat) : Bool :=
  s.shep.sets.any (fun p => p.1 % 256 == b && decide ((s.barrier b).action ≠ .slotEnd p.1))

/-- What the dispatcher does with the head of a task queue: none where it waits. -/
def State.act (q : Nat) (s : State) : Option State :=
  match s.queueOwner q, s.head q with
  | some i, some (c, b) =>
    let d := parseTask b
    if c.type ≠ 1 ∨ s.disp.gated.contains q ∨ !s.active i then none
    else if d.inst ≠ i then some ((s.endDirect q i d .spoof).countSpoof 3 (some i))
    else if i ≠ 0 ∧ versionRefused (s.inst i).grant.descVersion d.version = true then some (s.endDirect q i d .version)
    else if i ≠ 0 ∧ d.generation ≠ (s.inst i).generation then some (s.endDirect q i d .staleGeneration)
    else if d.bad then some (s.endDirect q i d .badArg)
    else if i = 0 ∧ (!s.radioRuns || (d.barrierEn && s.windowWaits d.barrier)) then none
    else if i ≠ 0 ∧ !(decide (s.dev.dstate = .serving ∨ s.dev.dstate = .watched ∨ s.dev.dstate = .standby) &&
        s.disp.resetting.isEmpty && s.health.retests.isEmpty) then none
    else if d.kind = 1 then s.actRun q d
    else if d.kind = 2 then s.actReside q d
    else s.actRelease q d
  | _, _ => none

/-- The task queues that have something to offer, of instance 0 or of the others, with their owners. -/
def State.offers (s : State) (radio : Bool) : List (Nat × Nat) :=
  s.queues.cached.filterMap (fun p =>
    if (p.1 < 65536) == radio && (s.act p.1).isSome then (s.queueOwner p.1).map (fun i => (i, p.1)) else none)

/-- The instance to be offered next among those listed: the first above the one served last, wrapping. -/
def nextInst (l : List (Nat × Nat)) (last : Nat) : Option Nat :=
  match ((List.range 256).map (fun k => (last + 1 + k) % 256)).find? (fun i => l.any (fun p => p.1 == i)) with
  | some i => some i
  | none => none

/-- The dispatcher offers placement to this queue now (R228). -/
def State.offered (s : State) (q : Nat) : Bool :=
  if q < 65536 then true
  else if !(s.offers true).isEmpty then false
  else decide (nextInst (s.offers false) s.disp.lastInst = s.queueOwner q)

/-- TASK_PLACE (R227, R228). -/
def execTaskPlace (queue : Nat) (s : State) : Outcome :=
  .next (
    if !s.offered queue then s
    else
      match s.act queue with
      | none => s
      | some s' =>
        if queue < 65536 then s'
        else s'.modDisp (fun d => { d with lastInst := (s.queueOwner queue).getD 0 }))

end Sys2Proof.Machine
end

