-- ==== Sys2Proof/Machine/Cells.lean ====
section
/-! DEFINITION. Cells (R273 to R280), their fronthaul settings (R395, R400, R404), the cost tables and admission of the
shepherd (R305, R308 to R313), and the commands on cells. -/

namespace Sys2Proof.Machine

/-! ## Configuration (Tables 09-3 and 13-3) -/

/-- A configuration out of its 64 or 96 bytes, the first at argument byte 0x20. -/
def parseCell (b : Bytes) : CellCfg :=
  let ext := decide (96 ≤ b.length)
  let x := fun (i n d : Nat) => if ext then fieldAt b i n else d
  { lte := byteAt b 0 == 1, tdd := byteAt b 1 == 1, mu := byteAt b 2, split := byteAt b 3, bw := fieldAt b 4 2,
    tx := byteAt b 6, rx := byteAt b 7, dlLayers := byteAt b 8, ulLayers := byteAt b 9, extendedCp := byteAt b 10 == 1,
    fhPort := byteAt b 11 % 32, arfcn := fieldAt b 12 4, pci := fieldAt b 16 2, shaping := byteAt b 18,
    tddPeriod := byteAt b 19, sDl := byteAt b 20, sGuard := byteAt b 21, harqMib := fieldAt b 22 2,
    tddPattern := fieldAt b 32 20, portMode := x 0x40 1 0, udWidth := if x 0x41 1 9 = 0 then 9 else x 0x41 1 9,
    udComp := x 0x42 1 0, eaxcBase := x 0x44 2 0, vlan := x 0x46 2 0, ruMac := x 0x48 6 0xFFFFFFFFFFFF,
    shapingTable := x 0x50 8 0 }

/-- An ARFCN of FR2-1, and one beyond it (3GPP 38.104; log entry 26). -/
def fr2 (c : CellCfg) : Bool := !c.lte && decide (2016667 ≤ c.arfcn)
def arfcnBad (c : CellCfg) : Bool := if c.lte then decide (262143 < c.arfcn) else decide (2489165 < c.arfcn)

/-- The channel bandwidths, in 100 kHz, of a RAT, range and numerology (Table 09-1; 38.104 for NR, log entry 26). -/
def bandwidths (c : CellCfg) : List Nat :=
  if c.lte then [14, 30, 50, 100, 150, 200]
  else if fr2 c then (if c.mu = 2 then [500, 1000, 2000] else if c.mu = 3 then [500, 1000, 2000, 4000] else [])
  else match c.mu with
    | 0 => [50, 100, 150, 200, 250, 300, 350, 400, 450, 500]
    | 1 => [50, 100, 150, 200, 250, 300, 350, 400, 450, 500, 600, 700, 800, 900, 1000]
    | 2 => [100, 150, 200, 250, 300, 350, 400, 450, 500, 600, 700, 800, 900, 1000]
    | _ => []

/-- U in quarter units (R275). -/
def quarterUnits (c : CellCfg) : Nat :=
  let p := max c.tx c.rx
  let f := if p ≤ 4 then 1 else if p ≤ 8 then 2 else if p ≤ 16 then 3 else if p ≤ 32 then 5 else 8
  max 1 (ceilDiv (4 * c.bw * f) 1000)

/-- HARQ_MIB in force (R292). -/
def harqMib (c : CellCfg) : Nat := if c.harqMib = 0 then 16 * quarterUnits c else c.harqMib

/-- Lanes in service in a port mode (Table 13-1), and their rate in Gb/s. -/
def modeLanes (mode : Nat) : Nat := if mode = 2 then 2 else if mode = 3 then 4 else 1
def modeRate (mode : Nat) : Nat := if mode = 2 then 200 else if mode = 3 then 100 else 400

/-- A configuration is malformed or exceeds Table 09-1 (R274, R277, R292, R400). -/
def cellBad (b : Bytes) : Bool :=
  let c := parseCell b
  let ports := if c.lte then [1, 2, 4, 8] else if fr2 c then [1, 2, 4] else [1, 2, 4, 8, 16, 32, 64]
  let q := quarterUnits c
  decide (1 < byteAt b 0 ∨ 1 < byteAt b 1 ∨ 2 < c.split ∨ 1 < byteAt b 10 ∨ 1 < c.shaping ∨ 3 < c.portMode ∨
    2 < c.udComp ∨ 16 < c.udWidth) || arfcnBad c || (c.lte && c.mu != 0) ||
  !(bandwidths c).contains c.bw || !ports.contains c.tx || !ports.contains c.rx ||
  c.dlLayers == 0 || decide (min c.tx (if c.lte then 8 else 16) < c.dlLayers) ||
  c.ulLayers == 0 || decide (min c.rx (if c.lte then 4 else 8) < c.ulLayers) ||
  (c.extendedCp && !c.lte && c.mu != 2) || decide ((if c.lte then 503 else 1007) < c.pci) ||
  (if c.tdd then decide (c.tddPeriod < 1 ∨ 80 < c.tddPeriod ∨ 14 < c.sDl + c.sGuard) ||
      (List.range c.tddPeriod).any (fun k => bitsOf c.tddPattern (2 * k) 2 == 3)
    else c.tddPeriod != 0) ||
  (c.harqMib != 0 && decide (c.harqMib < 4 * q ∨ 128 * q < c.harqMib)) ||
  (c.split == 2 && c.shaping == 1 && !c.tdd)

/-- Lane number of a cell, port × 4 + lane. -/
def cellLane (c : CellCfg) : Nat := c.fhPort % 8 * 4 + c.fhPort / 8

/-! ## Symbols of a cell in samples (TS 38.211 and TS 36.211; log entry 91) -/

/-- Subcarrier spacing in kHz, symbols of a slot, and points of the transform. -/
def CellCfg.scs (c : CellCfg) : Nat := 15 * 2 ^ (if c.lte then 0 else c.mu)
def CellCfg.symbols (c : CellCfg) : Nat := if c.extendedCp then 12 else 14
def CellCfg.points (c : CellCfg) : Nat := Config.cellPoints c.bw c.scs

/-- Samples of the cyclic prefix of a symbol of a subframe: 144 of 2,048, 16 × 2^µ more in the symbols that begin half a
millisecond; 512 of 2,048 where it is extended. -/
def CellCfg.prefixLen (c : CellCfg) (l : Nat) : Nat :=
  let m := 2 ^ (if c.lte then 0 else c.mu)
  if c.extendedCp then 512 * c.points / 2048
  else (144 + (if l % (7 * m) = 0 then 16 * m else 0)) * c.points / 2048

/-- Samples of symbol `k` of slot `n`. -/
def CellCfg.symLen (c : CellCfg) (n k : Nat) : Nat :=
  let m := 2 ^ (if c.lte then 0 else c.mu)
  c.points + c.prefixLen (n % m * c.symbols + k)

/-- Samples of the guard period of a special slot, its symbols all counted with the shorter prefix. -/
def CellCfg.guardLen (c : CellCfg) : Nat := c.sGuard * (c.points + c.prefixLen 1)

/-! ## Shaping tables (R404) -/

/-- The shaping table of a time-domain cell is absent, malformed, of the wrong MODE, or its ramps do not fit. -/
def State.shapingBad (s : State) (c : CellCfg) : Bool :=
  if c.split ≠ 2 then false
  else
    let o := s.obj (hdlEntry c.shapingTable)
    if (s.handleStatus c.shapingTable 0).isSome || !o.readonly || o.kind != 3 then true
    else
      match s.objRead (hdlEntry c.shapingTable) 0 0x280 none with
      | none => true
      | some b =>
        let taps := fieldAt b 2 2
        let ramp := fieldAt b 4 2
        byteAt b 0 != c.shaping ||
        (if c.shaping = 0 then decide (taps % 2 = 0 ∨ 63 < taps ∨ 10 < fieldAt b 6 2)
         else decide (ramp < 16 ∨ 4096 < ramp) || (List.range 64).any (fun k => decide (0x8000 < fieldAt b (0x40 + 2 * k) 2)) ||
           decide (c.guardLen < 2 * ramp))

/-! ## Cost tables (R308, R309): each resource in a unit that keeps its costs exact -/

/-- A cell as admission sees it: its configuration and, with the neural receiver, C_PRB in 10^-6 fold-µs and
W_SLOT. -/
structure Costed where
  cfg : CellCfg
  nrx : Option (Nat × Nat)
  deriving DecidableEq, Repr

/-- Slot class: the numerology of an NR cell, 4 for LTE. -/
def slotClass (c : CellCfg) : Nat := if c.lte then 4 else c.mu

/-- N of R309. -/
def prbs (c : CellCfg) : Nat := 273 * c.bw * 2 / (1000 * 2 ^ c.mu)

/-- Width of a U-plane sample (R401). -/
def costWidth (c : CellCfg) : Nat := if c.udComp = 1 then 16 else c.udWidth

/-- Streams of a direction: 0 downlink, 1 uplink. -/
def streams (c : CellCfg) (dir : Nat) : Nat :=
  if c.split = 1 then (if dir = 0 then c.dlLayers else c.ulLayers) else (if dir = 0 then c.tx else c.rx)

/-- FRONTHAUL cost of a direction in Gb/s × 10^5 × 224. -/
def fhCost (c : CellCfg) (dir : Nat) : Nat :=
  (if c.split = 2 then 89600 * c.bw * streams c dir else 195 * c.bw * streams c dir * (24 * costWidth c + 8)) + 4480000

/-- ARRAY cost in 10^-6 fold-µs per ms. -/
def arrayCost (x : Costed) : Nat :=
  900000 * quarterUnits x.cfg + (match x.nrx with | some (p, _) => p * prbs x.cfg | none => 0)

/-- Cost of a cell in a resource of Table 10-1 other than SIGNAL_CORES and FRONTHAUL, and the units in one unit of
Table 10-2. -/
def costOf (code idx : Nat) (x : Costed) : Nat :=
  let c := x.cfg
  match code with
  | 1 => if idx = 0 then quarterUnits c else 1
  | 3 => 3000 * c.bw * c.ulLayers + (if c.split = 2 then 12288 * c.bw * (c.tx + c.rx) else 0)
  | 4 => if c.lte then 0 else 55 * c.bw * c.ulLayers
  | 5 => if c.lte then 55 * c.bw * c.ulLayers else 0
  | 6 => 73 * c.bw * c.dlLayers
  | 7 => if c.lte then 0 else 128 * 2 ^ c.mu
  | 8 => if c.lte then 4 else 0
  | 9 => arrayCost x
  | 10 => 1360 * c.bw * c.ulLayers + (match x.nrx with | some (_, w) => w * 2 ^ c.mu | none => 0)
  | 12 => (if idx = 0 then 73 * c.bw * c.dlLayers else 55 * c.bw * c.ulLayers) + 8000
  | 13 => 4 + 7 * quarterUnits c
  | 14 => harqMib c
  | _ => 0

def costUnit : Nat → Nat
  | 3 => 100000000
  | 4 | 5 | 6 => 100000
  | 7 => 10
  | 9 | 10 => 1000000
  | 11 => 22400000
  | 12 => 800000
  | 13 => 32
  | _ => 1

/-- Whole cores over the slot classes (R308). -/
def coresNeeded (l : List Costed) : Nat :=
  ((List.range 5).map (fun k =>
    ceilDiv ((l.filter (fun x => slotClass x.cfg == k)).map (fun x => 1 + 20 * quarterUnits x.cfg)).sum 64)).sum

/-! ## Limits -/

/-- The radio context of a fold stands (R314, R316). -/
def Fold.holdsRadio (x : Fold) : Bool :=
  x.slots.any (fun p => p.2.radio && p.2.ctxId == 0 && decide (p.2.state = .idle ∨ p.2.state = .running))

/-- Eligible folds (R314). -/
def State.eligibleNow (s : State) : List Nat :=
  (List.range 32).filter (fun f =>
    (match s.shown ⟨.fold, f⟩ with
     | .ready => true
     | .degraded => (s.unit ⟨.fold, f⟩).capsDegraded.isNone
     | _ => false) && (s.fold f).holdsRadio)

/-- Units of a type that accept work, out of a range. -/
def State.countAccepting (s : State) (ty : UnitType) (lo n : Nat) : Nat :=
  ((List.range n).filter (fun i => s.accepts ⟨ty, lo + i⟩)).length

/-- Limit of a resource but FRONTHAUL, T1 and FOLD_RESOURCES, in its exact unit. With `live` the limits are those that
the units in service leave (R332): every capacity in proportion, and ARRAY at 50 %. -/
def State.limitOf (s : State) (live : Bool) (code idx : Nat) : Nat :=
  let part := fun (whole : Nat) (ty : UnitType) (lo n : Nat) =>
    if live then whole * s.countAccepting ty lo n / n else whole
  match code with
  | 1 => if idx = 0 then 1024 else 512
  | 2 => if live then 8 * s.countAccepting .sigGroup 0 48 else 384
  | 3 => part 41472000000 .engine 0 64
  | 4 => part 57600000 .engine 64 16
  | 5 => part 7200000 .engine 92 4
  | 6 => part 180000000 .engine 80 4
  | 7 => part 72000 .engine 84 8
  | 8 => part 3600 .engine 96 4
  | 9 => (if live then 50 else s.settings.share) * s.eligibleNow.length * 10000000
  | 10 => part 4915200000 .stack 16 16
  -- R637: the rates of the Fyfoyx link scale with its trained width
  | 12 => 92160000 * (if s.power.width = 0 then 32 else s.power.width) / 32
  | 13 => 9728
  | _ => 0

/-- Limit of a lane in its exact unit; with `live` a lane that is down carries nothing. -/
def State.laneLimit (s : State) (live : Bool) (mode lane : Nat) : Nat :=
  if live && !(s.lane lane).linkUp then 0 else modeRate mode * 21280000

/-- Chunks of T1 that are free, and that cell pools hold. -/
def State.freeT1 (s : State) : Nat :=
  2 * ((0xC000000000 - 4 * 2 ^ 30) / chunkSize) - (s.usedChunks .hbm).length - s.tiers.retired.length
def State.poolChunks (s : State) : Nat :=
  (s.radio.cells.map (fun p => match p.2.pool with | some e => (s.obj e).chunks | none => 0)).sum

/-- One comparison of admission: RESOURCE, INDEX, need and limit in the resource's exact unit. -/
structure Need where
  code : Nat
  idx : Nat
  need : Nat
  limit : Nat
  deriving DecidableEq, Repr

/-- Every comparison of R311 for a cell set, in the order of Table 10-1; `modes` gives the port modes. -/
def State.needs (s : State) (live : Bool) (modes : Nat → Nat) (cls : Nat) (l : List Costed) : List Need :=
  let sum := fun (code idx : Nat) => (l.map (costOf code idx)).sum
  let plain := fun (code idx : Nat) => (⟨code, idx, sum code idx, s.limitOf live code idx⟩ : Need)
  let lanes := (l.map (fun x => x.cfg.fhPort)).eraseDups
  let fh := ((List.range 32).filter (fun k => lanes.contains k)).flatMap (fun k =>
    [0, 1].map (fun d => (⟨11, k, ((l.filter (fun x => x.cfg.fhPort == k)).map (fun x => fhCost x.cfg d)).sum,
      s.laneLimit live (modes (k % 8)) (k % 8 * 4 + k / 8)⟩ : Need)))
  [plain 1 0, plain 1 1, ⟨2, cls, coresNeeded l, s.limitOf live 2 0⟩] ++
    [3, 4, 5, 6, 7, 8, 9, 10].map (fun k => plain k 0) ++ fh ++ [plain 12 0, plain 12 1, plain 13 0] ++
    (if live then [] else [⟨14, 0, sum 14 0, (s.freeT1 + s.poolChunks) / 16⟩])

/-- The first comparison that fails. -/
def firstOver (l : List Need) : Option Need := l.find? (fun n => decide (n.limit < n.need))

/-- A positive rational as FP32, rounded to nearest even. -/
def ratFp32 (n d : Nat) : Nat :=
  if n = 0 ∨ d = 0 then 0
  else
    let k := 64 + log2N d
    let q := n * 2 ^ k / d
    let sticky := if n * 2 ^ k % d = 0 then 0 else 1
    (fmtFp32.convert .nearest (2 * q + sticky : Nat) (-(k + 1 : Nat))).1

/-- The result of a CAPACITY refusal (R312). -/
def needResult (n : Need) : Status × Bytes :=
  (.capacity, leBytes 1 n.code ++ leBytes 1 n.idx ++ leBytes 2 0 ++ leBytes 4 (ratFp32 n.need (costUnit n.code)) ++
    leBytes 4 (ratFp32 n.limit (costUnit n.code)) ++ leBytes 4 0)

/-! ## The cell set -/

/-- The cell as admission sees it: the configuration it is reserved for. -/
def State.costed (s : State) (x : Cell) : Costed :=
  ⟨x.next.getD x.cfg, if x.nrx then some (s.radio.nrx.cPrb, s.radio.nrx.wSlot) else none⟩

/-- Cells whose cost is reserved (R305). -/
def State.reservedCells (s : State) : List (Nat × Cell) := s.radio.cells.filter (fun p => decide (p.2.state ≠ .unused))
def State.reservedSet (s : State) : List Costed := s.reservedCells.map (fun p => s.costed p.2)

/-- Cells of the set but one. -/
def State.reservedBut (s : State) (c : Nat) : List Costed :=
  (s.reservedCells.filter (fun p => p.1 != c)).map (fun p => s.costed p.2)

/-- The lowest free cell number. -/
def State.freeCell (s : State) : Nat :=
  ((List.range 512).find? (fun c => decide ((s.cell c).state = .unused))).getD 512

def State.portMode (s : State) (p : Nat) : Nat := (s.fhPort p).mode

/-- The mode a port has once a configuration is accepted. -/
def State.modeWith (s : State) (c : CellCfg) (p : Nat) : Nat :=
  if p = c.fhPort % 8 ∧ c.portMode ≠ 0 then c.portMode else s.portMode p

/-- The port carries an admitted cell or a tenant flow. -/
def State.portCarries (s : State) (p : Nat) : Bool :=
  s.reservedCells.any (fun q => q.2.cfg.fhPort % 8 == p) ||
  s.insts.any (fun q => decide (q.2.state ≠ .unused) && q.2.grant.flows.any (fun f => f.lane / 4 == p))

/-- Check 10 on a configuration: its port mode, its lane and its shaping table (R395, R404). -/
def State.cellArgBad (s : State) (c : CellCfg) (add : Bool) : Bool :=
  let p := c.fhPort % 8
  (c.portMode != 0 && c.portMode != s.portMode p && (!add || s.portCarries p)) ||
  decide (modeLanes (s.modeWith c p) ≤ c.fhPort / 8) || s.shapingBad c

/-- Commands that change the cell set are refused while a core with shepherd duties restarts (R42). -/
def State.changesBlocked (s : State) : Bool := (s.core 0).restarting || (s.core 1).restarting

/-! ## Pools, ports and policers of a cell -/

/-- Allocate a cell's soft buffer pool (R292): a pinned object of instance 0. -/
def State.makePool (mib : Nat) (s : State) : Nat × State :=
  let e := s.freeEntry
  let chunks := (s.allocT1 0 (16 * mib)).getD []
  let g := if (s.obj e).refGen = 0 then 1 else (s.obj e).refGen
  let (n, s) := s.nextOrder
  let s := s.forEach chunks (fun a s => s.zeroMem .hbm a chunkSize)
  let o : Obj := { live := true, refGen := g, pin := true, size := mib * 2 ^ 20, lateUs := 500, repairMs := 50,
                   copies := [{ tier := 1, place := .plain, state := .resident, parts := [⟨.hbm, chunks⟩], order := n, radio := true }],
                   refs := [⟨0, 1, .plain⟩], holders := [0] }
  (e, { s with tiers := { s.tiers with objs := tset {} s.tiers.objs e o } })

/-- Release a pool: its object and everything that refers to it are gone. -/
def State.dropPool (e : Nat) (s : State) : State :=
  let g := (s.obj e).refGen
  s.modObj e (fun _ => { refGen := if g = 255 then 1 else g + 1 })

/-- The pool of a cell becomes one of `mib` MiB, unless it has that size. -/
def State.setPool (c mib : Nat) (s : State) : State :=
  match (s.cell c).pool with
  | some e =>
    if (s.obj e).size = mib * 2 ^ 20 then s
    else
      let (n, s) := (s.dropPool e).makePool mib
      s.modCell c (fun x => { x with pool := some n })
  | none =>
    let (n, s) := s.makePool mib
    s.modCell c (fun x => { x with pool := some n })

/-- A port takes a mode: its lanes go down and train (R395). -/
def State.setPortMode (p mode : Nat) (s : State) : State :=
  if mode = 0 ∨ s.portMode p = mode then s
  else
    let s := s.modFhPort p (fun x => { x with mode })
    s.forEach (List.range 4) (fun l s => s.modLane (4 * p + l) (fun x =>
      { x with linkUp := false, training := decide (l < modeLanes mode) }))

/-- The policer of a cell's flows (R424): number `c mod 64` of its lane (log entry 27), CIR its uplink cost in kb/s. -/
def State.setCellPolicer (c : Nat) (x : CellCfg) (s : State) : State :=
  let cfg : PolicerCfg := { cir := ceilDiv (fhCost x 1 * 10) 224, cbs := 2 ^ 20, ebs := 2 ^ 20 }
  s.modLane (cellLane x) (fun l => { l with policers := tset {} l.policers (c % 64) { cfg } })

/-- Signal cores by slot class, cells in ascending number (R313): cell, first core in 1/64, demand. -/
def assignCores : List (Nat × CellCfg) → Nat → Nat → List (Nat × (Nat × Nat))
  | [], _, _ => []
  | (c, x) :: r, k, at' =>
    let start := if slotClass x = k then at' else ceilDiv at' 64 * 64
    let n := 1 + 20 * quarterUnits x
    (c, (start, n)) :: assignCores r (slotClass x) (start + n)

/-- Cells ordered by slot class, then number. -/
def byClass (l : List (Nat × CellCfg)) : List (Nat × CellCfg) :=
  (List.range 5).flatMap (fun k => l.filter (fun p => slotClass p.2 == k))

def State.reassign (s : State) : State :=
  let l := byClass (s.reservedCells.map (fun p => (p.1, p.2.cfg)))
  -- cells leave the cores of a lost group (R334)
  let cores := (List.range 384).filter (fun c => s.accepts ⟨.sigGroup, c / 8⟩)
  s.modShep (fun h => { h with assignment := assignCores l 0 0, cores })

/-- The signal cores that serve a cell. -/
def State.coresOf (s : State) (c : Nat) : List Nat :=
  match s.shep.assignment.find? (fun p => p.1 == c) with
  | some (_, first, n) => (s.shep.cores.drop (first / 64)).take ((first + n - 1) / 64 - first / 64 + 1)
  | none => []

/-- The shaping table that a configuration names, as it stands now; where it cannot be read, the copy held stays. -/
def State.readShape (s : State) (x : CellCfg) (old : Bytes) : Bytes :=
  if x.split = 2 then (s.objRead (hdlEntry x.shapingTable) 0 0x280 none).getD old else []

/-- A cell number is taken by a configuration: ADMITTED (R278, R280). -/
def State.admitCell (c inc notBefore : Nat) (x : CellCfg) (s : State) : State :=
  let s := s.modCell c (fun o => { state := .admitted, cfg := x, inc, notBefore, slotsServed := o.slotsServed,
                                   slotsMissed := o.slotsMissed, slotsSuspended := o.slotsSuspended,
                                   lastMissSlot := o.lastMissSlot, lastMissStage := o.lastMissStage,
                                   lastMissCause := o.lastMissCause, shape := s.readShape x [] })
  let s := s.setPool c (harqMib x)
  let s := s.setPortMode (x.fhPort % 8) x.portMode
  s.setCellPolicer c x

/-- A cell number becomes UNUSED: its reservation, pool and assignment are released; its counters and incarnation
stay. -/
def State.freeCellNo (c : Nat) (s : State) : State :=
  let s := match (s.cell c).pool with | some e => s.dropPool e | none => s
  let s := s.modLane (cellLane (s.cell c).cfg) (fun l => { l with policers := tset {} l.policers (c % 64) {} })
  let s := s.modNrx (fun n => { n with cells := n.cells.filter (fun k => k != c) })
  s.modCell c (fun o => { inc := o.inc, slotsServed := o.slotsServed, slotsMissed := o.slotsMissed,
                          slotsSuspended := o.slotsSuspended, lastMissSlot := o.lastMissSlot,
                          lastMissStage := o.lastMissStage, lastMissCause := o.lastMissCause })

/-! ## Commands -/

/-- CELL_ADD (R276, R277). -/
def execCellAdd (m : Fin 16) (s : State) : Outcome :=
  .next (s.runCommand m 0x0201
    (fun c _ => [failIf (c.argLength != 64 && decide (c.argLength < 96)) .badArg, failIf (cellBad c.args) .badArg])
    (fun _ => statesOf 0x0201)
    (fun c s =>
      let x := parseCell c.args
      [failIf (s.changesBlocked || !s.time.everLocked) .notReady,
       failIf (s.cellArgBad x true) .badArg,
       match firstOver (s.needs false (s.modeWith x) (slotClass x) (s.reservedSet ++ [⟨x, none⟩])) with
       | some n => some (needResult n)
       | none => failIf (s.allocT1 0 (16 * harqMib x)).isNone .capacity])
    (fun c s =>
      let x := parseCell c.args
      let n := s.freeCell
      let nb := if s.dev.dstate = .configuring then 0 else s.time.now + 2000000
      (s.admitCell n ((s.cell n).inc + 1) nb x, leBytes 2 n ++ leBytes 2 (quarterUnits x), false)))

/-- STATE_CONFLICT of a cell (Table 03-7, domain 3). -/
def State.cellConflict (s : State) (c : Nat) (legal : List Nat) : Err :=
  conflictIf (!legal.contains (s.cell c).state.code) 3 (s.cell c).state.code (legalMask legal) c

/-- CELL_REMOVE (R278): the cell stops at the next frame boundary. -/
def execCellRemove (m : Fin 16) (s : State) : Outcome :=
  .next (s.runCommand m 0x0202
    (fun c _ => [c.lenIs 2, failIf (decide (511 < c.arg 0x20 2)) .badArg])
    (fun _ => statesOf 0x0202)
    (fun c s => [s.cellConflict (c.arg 0x20 2) [1, 2, 3, 4], failIf s.changesBlocked .notReady])
    (fun c s => (s.modCell (c.arg 0x20 2) (fun x => { x with state := .removing, next := none }), [], false)))

/-- CELL_RECONFIGURE (R279). -/
def execCellReconfigure (m : Fin 16) (s : State) : Outcome :=
  .next (s.runCommand m 0x0203
    (fun c _ => [failIf (c.argLength != 66 && decide (c.argLength < 98)) .badArg,
      failIf (decide (511 < c.arg 0x20 2) || cellBad (c.args.drop 2)) .badArg])
    (fun _ => statesOf 0x0203)
    (fun c s =>
      let n := c.arg 0x20 2
      let x := parseCell (c.args.drop 2)
      let nrx := (s.costed (s.cell n)).nrx
      [s.cellConflict n [2], failIf s.changesBlocked .notReady, failIf (s.cellArgBad x false) .badArg,
       match firstOver (s.needs false (s.modeWith x) (slotClass x) (s.reservedBut n ++ [⟨x, nrx⟩])) with
       | some w => some (needResult w)
       | none => none])
    (fun c s =>
      (s.modCell (c.arg 0x20 2) (fun x => { x with
        state := .reconfiguring, next := some (parseCell (c.args.drop 2)), notBefore := s.time.now + 2000000 }), [], false)))

/-- RADIO_SHARE_SET (R335). -/
def execRadioShareSet (m : Fin 16) (s : State) : Outcome :=
  .next (s.runCommand m 0x0204
    (fun c _ => [c.lenAtLeast 1, failIf (decide (50 < c.arg 0x20 1)) .badArg])
    (fun _ => statesOf 0x0204)
    (fun c s =>
      let need := (s.reservedSet.map (costOf 9 0)).sum
      let limit := c.arg 0x20 1 * s.eligibleNow.length * 10000000
      [if limit < need then some (needResult ⟨9, 0, need, limit⟩) else none])
    (fun c s => ({ s with settings := { s.settings with shareNext := c.arg 0x20 1 } }, [], false)))

/-- PENUMBRA_SET (R322, R335). -/
def execPenumbraSet (m : Fin 16) (s : State) : Outcome :=
  .next (s.runCommand m 0x0205
    (fun c _ => [c.lenAtLeast 4, failIf (decide (c.arg 0x20 4 < 3000 ∨ 100000 < c.arg 0x20 4)) .badArg])
    (fun _ => statesOf 0x0205)
    (fun _ _ => [])
    (fun c s => ({ s with settings := { s.settings with penumbraNext := c.arg 0x20 4 } }, [], false)))

/-! ## The neural receiver's admission (R298, R317) -/

/-- The header of a neural receiver model: C_PRB in 10^-6 fold-µs, W_SLOT, share in 64 KiB units, weight format (log
entry 28: the manual gives its content and no layout). -/
def nrxHeader (b : Bytes) : Nat × Nat × Nat × Nat := (fieldAt b 0x24 4, fieldAt b 0x28 8, fieldAt b 0x30 2, byteAt b 0x20)

/-- Cells named by CELL_MAP. -/
def cellMap (c : Cmd) : List Nat := (List.range 512).filter (fun k => bitOf (c.arg 0x20 64) k)

/-- The model header of an NRX_LOAD. -/
def State.modelHeader (s : State) (h : Nat) : Nat × Nat × Nat × Nat :=
  nrxHeader ((s.objRead (hdlEntry h) 0 64 none).getD [])

/-- The second radio context as RESIDE would describe it (R317). -/
def nrxDesc (share : Nat) : TaskDesc :=
  { kind := 2, sr := false, barrierEn := false, reportAll := false, version := 0, inst := 0, ctxId := 1, generation := 0,
    foldMask := 0, ranks := 32, barrier := 0, cq := 0, tileCount := 0, tag := 0, digest := [], coords := [],
    tileList := 0, entry := 0, args := 0, program := 0, share, physGroups := 2, logGroups := 2, bundles := 8 }

/-- The context placed at once on a fold. -/
def Fold.placeRadio (d : TaskDesc) (x : Fold) : Fold :=
  match x.roomFor foldCaps d with
  | none => x
  | some (k, b, n) =>
    (x.takeSlot d 0 k b n).modSlot k (fun c => { c with state := .idle, task := none, radio := true, digest := [], program := 0 })

/-- The set as admission sees it once the named cells use a model and every other cell has left it, or once the named
cells have returned to the conventional receiver. -/
def State.nrxSet (s : State) (cells : List Nat) (hdr : Option (Nat × Nat)) : List Costed :=
  s.reservedCells.map (fun p =>
    match hdr with
    | some h => ⟨p.2.next.getD p.2.cfg, if cells.contains p.1 then some h else none⟩
    | none => if cells.contains p.1 then ⟨p.2.next.getD p.2.cfg, none⟩ else s.costed p.2)

/-- NRX_LOAD (R298, R311, R317). -/
def execNrxLoad (m : Fin 16) (s : State) : Outcome :=
  .next (s.runCommand m 0x0206
    (fun c _ => [c.lenAtLeast 88, failIf (decide (1 < c.arg 0x68 1)) .badArg])
    (fun _ => statesOf 0x0206)
    (fun c s =>
      let cells := cellMap c
      let h := c.arg 0x60 8
      let (cp, ws, share, fmt) := s.modelHeader h
      let firstBad := cells.find? (fun k => !(decide ((s.cell k).state = .admitted ∨ (s.cell k).state = .active)))
      let mus := (cells.map (fun k => (s.cell k).cfg.mu)).eraseDups
      let need := firstOver (s.needs false s.portMode 0 (s.nrxSet cells (if h = 0 then none else some (cp, ws))))
      [match firstBad with | some k => s.cellConflict k [1, 2] | none => none,
       failIf s.changesBlocked .notReady,
       failIf (h != 0 && s.stale h) .staleHandle,
       failIf (decide (1 < mus.length) || (h != 0 && (hdlInst h != 0 || decide (160 < share) || decide (share = 0) ||
         !(fmt == 1 || fmt == 3 || fmt == 5) || cells.any (fun k => (s.cell k).cfg.lte)))) .badArg,
       match need with | some n => some (needResult n) | none => none,
       if h != 0 && s.eligibleNow.any (fun f => ((s.fold f).slotOf 0 1).isNone && ((s.fold f).roomFor foldCaps (nrxDesc share)).isNone) then
         some (needResult ⟨15, 0, share, 0⟩) else none])
    (fun c s =>
      let h := c.arg 0x60 8
      let (_, _, share, _) := s.modelHeader h
      let s := if h = 0 then s
        else s.forEach s.eligibleNow (fun f s =>
          if ((s.fold f).slotOf 0 1).isSome then s else s.modFold f (Fold.placeRadio (nrxDesc share)))
      let s := s.modNrx (fun n => { n with
        pending := some (cellMap c, if h = 0 then none else some (hdlEntry h), m.val, c.seq)
        pendingArgs := (c.arg 0x68 1 == 1, BitVec.ofNat 32 (c.arg 0x6C 4), BitVec.ofNat 32 (c.arg 0x70 4),
                        BitVec.ofNat 32 (c.arg 0x74 4), (s.modelHeader h).1, (s.modelHeader h).2.1) })
      let s := if h = 0 then s else s.extend 9 ((s.objRead (hdlEntry h) 0 32 none).getD (List.replicate 32 0#8))
      (s, [], true)))

end Sys2Proof.Machine
end

