-- ==== Sys2Proof/Machine/RadioOps.lean ====
section
/-! DEFINITION. Radio contexts and radio tasks as folds leave and enter service (R66, R302, R315 to R317, R334). -/

namespace Sys2Proof.Machine

/-- The radio context of a fold as RESIDE would describe it (R315): 2 physical groups and a 6 MiB share. -/
def radioDesc : TaskDesc := { nrxDesc 96 with ctxId := 0 }

/-- The share in 64 KiB units that the neural receiver's model in use names (R317). -/
def State.nrxShare (s : State) : Option Nat :=
  s.radio.nrx.model.map (fun e => (nrxHeader ((s.objRead e 0 64 none).getD [])).2.2.1)

/-- The share of a radio context at an address of a fold is rebuilt from its copy (R66, R302): that of context 0 from radio
memory, that of the neural receiver from the T1 copy of its model, chunk by chunk (log entry 90). -/
def State.rebuildShare (f ctx base n : Nat) (s : State) : State :=
  let s := s.zeroMem (.sram f) base n
  if ctx = 0 then { s with mem := s.mem.copy (key .radio Config.radioCopy) (key (.sram f) base) n }
  else
    match s.radio.nrx.model.bind (fun e => ((s.obj e).copy 1).map (fun c => (e, c))) with
    | some (e, c) => s.forEach (List.range (min (s.obj e).chunks (n / chunkSize))) (fun k s =>
        match c.place' 0 k with
        | some (sp, a) => { s with mem := s.mem.copy (key sp a) (key (.sram f) (base + k * chunkSize)) chunkSize }
        | none => s)
    | none => s

/-- Place a radio context on a fold that has none, its share rebuilt from the copy the firmware keeps (R66). -/
def State.placeRadioOn (f : Nat) (d : TaskDesc) (s : State) : State :=
  let x := s.fold f
  match x.roomFor foldCaps d with
  | some (_, b, _) =>
    if (x.slotOf 0 d.ctxId).isSome then s
    else (s.modFold f (Fold.placeRadio d)).rebuildShare f d.ctxId b (d.share * 65536)
  | none => s

/-- The radio contexts are resident on every fold that accepts work with the CAPS of a READY fold (R145, R316, R317). -/
def State.ensureRadio (f : Nat) (s : State) : State :=
  if !s.dev.configured || decide (32 ≤ f) || !s.accepts ⟨.fold, f⟩ || s.capsOf f != foldCaps then s
  else
    let s := s.placeRadioOn f radioDesc
    match s.nrxShare with
    | some n => s.placeRadioOn f (nrxDesc n)
    | none => s

/-- A fold of the task's set that can take a rank which another fold loses. -/
def State.otherFold (s : State) (f : Nat) (t : Task) : Option (Nat × Nat) :=
  (s.runFolds t.desc).findSome? (fun g =>
    if g ≠ f ∧ s.acceptsTask g t.tiles && (s.fold g).holdAsked.isNone && decide ((s.fold g).cmpUsed < 64) then
      ((s.fold g).idleSlot t.desc.inst t.desc.ctxId).map (fun k => (g, k))
    else none)

/-- The rank of a radio task in a slot runs again from its first tile on another fold (R334); it stays where there is
none. -/
def State.moveRank (f slot : Nat) (s : State) : State :=
  match s.slotTask f slot with
  | none => s
  | some (n, t) =>
    match s.otherFold f t with
    | none => s
    | some (g, k) =>
      let r := ((s.fold f).slot slot).rank
      let s := s.modFold f (fun x => let x := (x.abandon slot).dropRank slot; { x with cmpReserved := x.cmpReserved - 1 })
      let s := s.modTask n (fun t => { t with
        ranks := t.ranks.zipIdx.map (fun p => if p.2 = r then (g, k) else p.1)
        outputs := t.outputs.filter (fun o => o.rank != r), inputs := t.inputs.filter (fun i => i.rank != r) })
      s.modFold g (Fold.startRank t.desc n r k s.time.now)

/-- Radio work leaves a fold that is out of service (R334). -/
def State.moveRadio (f : Nat) (s : State) : State :=
  s.forEach (List.range 8) (fun k s =>
    let c := (s.fold f).slot k
    if c.radio && decide (c.state = .running) then s.moveRank f k else s)

/-- A numbered fold in or out of service: its radio contexts stand, or its radio work goes elsewhere. -/
def State.radioOn (f : Nat) (s : State) : State :=
  if 32 ≤ f then s else if s.accepts ⟨.fold, f⟩ then s.ensureRadio f else s.moveRadio f

end Sys2Proof.Machine
end

