-- ==== Sys2Proof/Machine/FoldCmds.lean ====
section
/-! DEFINITION. The commands that end what a fold has under way (TILE_END, GROUP_ACTION_DONE, TILE_ABANDON) and the debug hold
that waits for it (R206, R207), with the radio work that follows a fold out of service and back (R334). -/

namespace Sys2Proof.Machine

/-! ## Fences and the debug hold (R56, R206, R593) -/

/-- A standing fence holds its unit now: a conditional one from the moment both conditions lie in its bands until it lets
go (R593). -/
def State.fenceHolds (s : State) (u : UnitId) : FenceMode → Bool
  | .cond tb ab => (tget {} s.health.foldHealth u.idx).holding.contains (tb * 4 + ab)
  | _ => true

/-- A standing fence of the unit holds it. -/
def State.held (s : State) (u : UnitId) : Bool := (s.fencesOf u).any (s.fenceHolds u)

/-- The debug hold of a fold ends, in one update of the table (R49): it returns to service, DEGRADED where capabilities are
lost, unless a fence of its own holds it (R56). -/
def State.endDebug (u : UnitId) (s : State) : State :=
  let h := s.held u
  let s := s.setEntry u (fun e => { e with
    debug := false, state := if h || e.state != .fenced then e.state else if e.capsDegraded.isSome then .degraded else .ready })
  if u.ty = .fold then s.radioOn u.idx else s

/-- The fold held for debug comes to rest (R206): no tile runs and no group is at work. -/
def Fold.atRest (x : Fold) : Bool := x.tile.isNone && x.ports.isEmpty

/-- The command FOLD_DEBUG_HOLD takes its effect and is answered once the fold is at rest (R206). A fold that has left
service by itself meanwhile cannot be held, and the answer is NOT_READY (log entry 88). -/
def State.settleHold (f : Nat) (s : State) : State :=
  let x := s.fold f
  match x.holdAsked with
  | none => s
  | some m =>
    if !x.atRest then s
    else
      let s := s.modFold f (fun x => { x with holdAsked := none })
      let held := (s.unit ⟨.fold, f⟩).state.accepts
      let s := if held then
          (s.setEntry ⟨.fold, f⟩ (fun e => { e with state := .fenced, debug := true })).radioOn f
        else s
      match (s.mbox m).current with
      | some c =>
        if (s.core (serverOf m)).restarting then s.modMbox m (fun b => { b with heldAnswer := held })
        else s.respond m c (if held then .ok else .notReady) [] false
      | none => s

/-- Every fold that was asked to hold and has come to rest is held. -/
def State.settleHolds (s : State) : State :=
  s.forEach ((s.folds.filter (fun p => p.2.holdAsked.isSome)).map (fun p => p.1)) State.settleHold

/-! ## The end of tiles and of group actions -/

/-- TILE_END (R192). -/
def execTileEnd (fold : Fin 32) (s : State) : Outcome :=
  .next (
    match (s.fold fold).tile with
    | none => s
    | some t =>
      match t.ended with
      | some st => ((s.endWithout fold t st).settleHold fold).settleDrained
      | none =>
        if !t.endDone || !(s.fold fold).pipe.isEmpty then s
        else if t.failed && !t.rerun then s.modFold fold (rerunTile t s.time.now)
        else ((s.leaveTile fold t).settleHold fold).settleDrained)

/-- TILE_ABANDON (R177, R178): 2 µs after the penumbra opened. -/
def execTileAbandon (fold : Fin 32) (now : Nat) (s : State) : Outcome :=
  .next (((s.at now).abandonTile fold).settleHold fold)

/-- GROUP_ACTION_DONE (R193): the action on a physical group's port completes. -/
def execGroupActionDone (fold : Fin 32) (group : Fin 8) (s : State) : Outcome :=
  .next (
    match (s.fold fold).port group with
    | none => s
    | some j =>
      let s := s.modFold fold (fun x => x.setPort group none)
      let s := match j.action with
        | .merge w => s.mergeDone fold group w j
        | .convert part => s.convertDone fold group part j
        | .fold part => s.foldDone fold group part j
        | .convertTarget => s.targetDone fold group j
        | .spill => s.spillDone fold group j
        | .restore => s.restoreDone fold group j
      s.settleHold fold)

/-! ## Folds under debug (R104, R206, R207) -/

/-- The fold a debug command names. -/
def fdFold (c : Cmd) : Nat := c.arg 0x20 2

/-- R104: DENIED while debug access is disabled, check 3 of R90. -/
def State.debugDenied (s : State) : Err := failIf (!s.dev.debugAccess) .denied

/-- STATE_CONFLICT of a unit (Table 03-7, domain 1). -/
def State.unitConflict (s : State) (b : Bool) (u : UnitId) (legal : List Nat) : Err :=
  conflictIf b 1 (s.shown u).code (legalMask legal) (unitObject u)

/-- STATE_CONFLICT of a debug command of a fold that is not FENCED, or that is FENCED with DEBUG clear: that refusal turns on
something other than the state code, so LEGAL is 0 (R100). -/
def State.debugConflict (s : State) (u : UnitId) : Err :=
  if (s.unit u).debug then s.unitConflict (decide (s.shown u ≠ .fenced)) u [5]
  else s.unitConflict true u (if s.shown u = .fenced then [] else [5])

/-- FOLD_DEBUG_HOLD (R206): the response is written once the fold is FENCED with DEBUG set. -/
def execFoldDebugHold (m : Fin 16) (s : State) : Outcome :=
  .next (
    match s.verdict m 0x0901
      (fun c s => [s.debugDenied, c.lenIs 2, failIf (decide (31 < fdFold c)) .badArg])
      (fun _ => statesOf 0x0901)
      (fun c s => [s.unitConflict (!s.accepts ⟨.fold, fdFold c⟩) ⟨.fold, fdFold c⟩ [3, 4]]) with
    | none => s
    | some (c, some e) => if (s.fold (fdFold c)).holdAsked = some m.val then s else s.respond m c e.1 e.2 false
    | some (c, none) =>
      let f := fdFold c
      (s.modFold f (fun x => { x with holdAsked := some m.val })).settleHold f)

/-- FOLD_DEBUG_READ (R207, Table 06-7). -/
def execFoldDebugRead (m : Fin 16) (s : State) : Outcome :=
  .next (s.runCommand m 0x0902
    (fun c s => [s.debugDenied, c.lenIs 16, failIf (decide (31 < fdFold c)) .badArg,
      failIf (decide (7 < c.arg 0x22 1)) .badArg, failIf (decide (15 < c.arg 0x23 1)) .badArg,
      failIf (c.arg 0x26 2 == 0 || decide (4096 < c.arg 0x24 2 + c.arg 0x26 2)) .badArg,
      failIf (c.arg 0x28 8 % 64 != 0) .badArg])
    (fun _ => statesOf 0x0902)
    (fun c s =>
      let u : UnitId := ⟨.fold, fdFold c⟩
      let x := (s.fold (fdFold c)).slot (c.arg 0x22 1)
      [s.debugConflict u,
       failIf (decide (x.state = .empty ∨ x.state = .residing) || decide (x.logical ≤ c.arg 0x23 1)) .badArg])
    (fun c s =>
      let f := fdFold c
      let x := s.fold f
      let slot := c.arg 0x22 1
      let j := c.arg 0x23 1
      let first := c.arg 0x24 2
      let n := c.arg 0x26 2
      let g := x.lgroup slot j
      match g.state with
      | .unused => (s.wrCompanion (c.arg 0x28 8) (List.replicate (16 * n) 0#8), [], false)
      | .spilled =>
        (s.wrCompanion (c.arg 0x28 8) (s.rd (.sram f) ((x.slot slot).spillRecords j + 16 * first) (16 * n)), [], false)
      | _ =>
        let (rs, s) := State.accRecords (x.group (x.physOf slot j)).accs g.mode first n s
        (s.wrCompanion (c.arg 0x28 8) rs, [], false)))

/-- FOLD_DEBUG_RELEASE (R207): the fold returns, unless a fence of its own stands. -/
def execFoldDebugRelease (m : Fin 16) (s : State) : Outcome :=
  .next (s.runCommand m 0x0903
    (fun c s => [s.debugDenied, c.lenIs 2, failIf (decide (31 < fdFold c)) .badArg])
    (fun _ => statesOf 0x0903)
    (fun c s =>
      let u : UnitId := ⟨.fold, fdFold c⟩
      [s.debugConflict u])
    (fun c s => (s.endDebug ⟨.fold, fdFold c⟩, [], false)))

end Sys2Proof.Machine
end

