-- ==== Sys2Proof/Machine/ProvOps.lean ====
section
/-! DEFINITION. The provenance log (chapter 17): leaf and interval records, the Merkle root, intervals. -/

namespace Sys2Proof.Machine

/-- A leaf record (Table 17-4), 96 bytes before its reserved tail. -/
def leafBytes (p : Prov) (r : CmpRec) (pv digest : Bytes) (ranks index : Nat) : Bytes :=
  leBytes 1 1 ++ leBytes 1 r.inst ++ leBytes 1 r.ctxId ++ leBytes 1 ranks ++ leBytes 2 r.generation ++
    leBytes 2 r.status.code ++ leBytes 8 r.tag ++ leBytes 8 r.time ++ leBytes 4 p.interval ++ leBytes 4 index ++
    fixLen 32 digest ++ fixLen 32 pv

/-- A task record reaches the provenance unit (R546). -/
def State.addLeaf (r : CmpRec) (pv digest : Bytes) (ranks : Nat) (s : State) : State :=
  let p := s.prov
  if !(p.enabled && bitOf p.instances r.inst) then s
  else if p.room && p.heldRecords.isEmpty then
    let b := leafBytes p r pv digest ranks p.hashes.length
    (s.provWrite b).modProv (fun p => { p with
      leaves := satInc 64 p.leaves
      hashes := p.hashes ++ [shakeTag 32 [0x4D, 0x56, 0x4E, 0x2D, 0x4C, 0x46] b] })
  else s.modProv (fun p => { p with dropped := satInc 32 p.dropped, droppedNow := p.droppedNow + 1,
                                    event := p.event ||| 1 })

/-- One level of the tree of R544. -/
def merkleLevel : List Bytes → List Bytes
  | a :: b :: r => shakeTag 32 [0x4D, 0x56, 0x4E, 0x2D, 0x4E, 0x44] (a ++ b) :: merkleLevel r
  | l => l

/-- Levels until one node remains; `n` bounds them. -/
def merkleUp : Nat → List Bytes → Bytes
  | 0, l => l.headD []
  | n + 1, l => match l with | [a] => a | l => merkleUp n (merkleLevel l)

/-- ROOT of an interval (R544). -/
def merkleRoot (interval : Nat) (l : List Bytes) : Bytes :=
  if l.isEmpty then shakeTag 32 [0x4D, 0x56, 0x4E, 0x2D, 0x45, 0x4D] (leBytes 4 interval) else merkleUp l.length l

/-- The interval record (Table 17-4). -/
def intervalBytes (p : Prov) (endAt devInc : Nat) : Bytes :=
  leBytes 1 2 ++ List.replicate 7 0#8 ++ leBytes 8 p.start ++ leBytes 8 endAt ++ leBytes 4 p.interval ++
    leBytes 4 p.hashes.length ++ merkleRoot p.interval p.hashes ++ leBytes 4 p.droppedNow ++ leBytes 4 devInc

/-- Write the held interval records that the log has room for, oldest first; `n` bounds them. -/
def State.provFlush : Nat → State → State
  | 0, s => s
  | n + 1, s =>
    match s.prov.heldRecords with
    | [] => s
    | b :: r =>
      if s.prov.room then State.provFlush n ((s.provWrite b).modProv (fun p => { p with heldRecords := r })) else s

/-- The current interval closes at `endAt` (R545, R546): its record is written or held, its root goes to the security
block, and the next interval begins; a 65th interval record that would be held disables provenance. -/
def State.closeInterval (endAt : Nat) (s : State) : State :=
  let p := s.prov
  let b := intervalBytes p endAt s.deviceInc
  let root := merkleRoot p.interval p.hashes
  let s := if s.sec.spent then s else s.enqueue (.root p.interval p.start endAt p.hashes.length p.droppedNow root)
  let full := !(p.room && p.heldRecords.isEmpty) && decide (64 ≤ (p.heldRecords.filter (fun r => byteAt r 0 == 2)).length)
  let s := if full then s else s.provPut b
  s.modProv (fun p => { p with
    interval := (p.interval + 1) % 2 ^ 32
    start := endAt
    hashes := []
    droppedNow := 0
    enabled := p.enabled && !full
    event := p.event ||| (if full then 6 else 4) })

/-- When the current interval ends. -/
def Prov.endsAt (p : Prov) : Nat := p.start + p.intervalMs * 1000000

/-- Every interval that has ended by `t` closes (R543, R545); `n` bounds them. -/
def State.closeEnded (t : Nat) : Nat → State → State
  | 0, s => s
  | n + 1, s =>
    if s.prov.enabled && decide (s.prov.endsAt ≤ t) then State.closeEnded t n (s.closeInterval s.prov.endsAt) else s

/-- A task record reaches the provenance unit: its leaf belongs to the interval in which its TIME falls (R543). -/
def State.provLeaf (r : CmpRec) (pv digest : Bytes) (ranks : Nat) (s : State) : State :=
  (s.closeEnded r.time ((r.time - s.prov.start) / (s.prov.intervalMs * 1000000))).addLeaf r pv digest ranks

end Sys2Proof.Machine
end

