-- ==== Sys2Proof/Machine/Vector.lean ====
section
/-! DEFINITION. Vector cores (R213 to R216), contained faults and the reset of the grazing partition (R237 to R240),
completion collectors (R233, R234) and hardware barriers (R235, R236). -/

namespace Sys2Proof.Machine

/-! ## Bundles and registers -/

def Fold.vcore (x : Fold) (k : Nat) : VCore := tget {} x.vcores k
def Fold.modBundle (k b : Nat) (g : VBundle → VBundle) (x : Fold) : Fold :=
  { x with vcores := tmod {} x.vcores k (fun v => { v with bundles := tmod {} v.bundles b g }) }

/-- The slot a bundle belongs to. -/
def Fold.bundleSlot (x : Fold) (b : Nat) : Option Nat :=
  (x.slots.find? (fun p => decide (p.2.state ≠ .empty) && p.2.bundleSet.contains b)).map (fun p => p.1)

/-- Ready bundles of a class on a core, in ascending number. -/
def Fold.readyBundles (x : Fold) (k : Nat) (radio : Bool) : List Nat :=
  ((x.vcore k).bundles.filter (fun p => p.2.ready && !p.2.stopped &&
    (match x.bundleSlot p.1 with | some c => (x.slot c).radio == radio | none => false))).map (fun p => p.1)

/-- The first of a list after `last`, wrapping. -/
def firstAfter (l : List Nat) (last : Nat) : Option Nat :=
  match l.find? (fun b => decide (last < b)) with
  | some b => some b
  | none => l.head?

/-- The bundle a core issues from (R214), with its class: radio first. -/
def Fold.chooseBundle (x : Fold) (k : Nat) : Option (Nat × Bool) :=
  match firstAfter (x.readyBundles k true) (x.vcore k).lastRadio with
  | some b => some (b, true)
  | none => (firstAfter (x.readyBundles k false) (x.vcore k).lastGrazing).map (fun b => (b, false))

def VBundle.reg (v : VBundle) (r lane : Nat) : W32 := tget 0#32 v.regs (32 * r + lane)
def VBundle.setReg (r : Nat) (vs : List W32) (v : VBundle) : VBundle :=
  { v with regs := vs.zipIdx.foldl (fun t p => tset 0#32 t (32 * r + p.2) p.1) v.regs }

/-- The 32 lanes of a register. -/
def VBundle.lanes (v : VBundle) (r : Nat) : List W32 := (List.range 32).map (fun i => v.reg r i)

/-! ## Arithmetic (R215) -/

/-- One arithmetic operation on codes of a binary format. -/
def vArith (f : BFmt) (op : VArith) (a b c : Nat) : Nat :=
  match op with
  | .add => f.add a b
  | .sub => f.add a (f.neg b)
  | .mul => f.mul a b
  | .fma => f.fma a b c
  | .div => f.div a b
  | .sqrt => f.sqrt a
  | .min => f.min a b
  | .max => f.max a b

def fp32Lane (op : VArith) (a b c : W32) : W32 := BitVec.ofNat 32 (vArith fmtFp32 op a.toNat b.toNat c.toNat)

/-- Both halves of a lane. -/
def bf16Lane (op : VArith) (a b c : W32) : W32 :=
  let half := fun (i : Nat) => vArith fmtBf16 op (bitsOf a.toNat (16 * i) 16) (bitsOf b.toNat (16 * i) 16) (bitsOf c.toNat (16 * i) 16)
  BitVec.ofNat 32 (half 0 + 65536 * half 1)

/-- One level of the cross-lane tree: node `j` combines nodes `2j` and `2j + 1`. -/
def sumLevel (f : BFmt) : List Nat → List Nat
  | a :: b :: r => f.add a b :: sumLevel f r
  | l => l

/-- The cross-lane sum of 2^n lanes. -/
def laneSum (f : BFmt) : Nat → List Nat → Nat
  | 0, l => l.headD 0
  | n + 1, l => laneSum f n (sumLevel f l)

/-- The lanes of a register as a conversion reads them: 32 of FP32, or 64 halves in ascending order. -/
def VBundle.codes (v : VBundle) (src : VSrc) (r : Nat) : List Nat :=
  match src with
  | .fp32 => (v.lanes r).map (fun x => x.toNat)
  | _ => (v.lanes r).flatMap (fun x => [x.toNat % 65536, x.toNat / 65536])

/-- The binary format of a conversion's source. -/
def srcFmt : VSrc → BFmt
  | .fp32 => fmtFp32
  | .fp16 => fmtFp16
  | .bf16 => fmtBf16

/-- Three operands lane by lane. -/
def lanes3 (f : W32 → W32 → W32 → W32) (a b c : List W32) : List W32 :=
  (a.zip (b.zip c)).map (fun p => f p.1 p.2.1 p.2.2)

/-! ## Fatal and contained faults (R237, R238, R241) -/

def containedCode : ContainedCode → Nat
  | .illegal => 1 | .outside => 2 | .misaligned => 3 | .fetch => 4 | .registerEcc => 5 | .sequencerEcc => 6

/-- A fold stops its grazing work: grazing tiles are abandoned, grazing bundles stopped (R238 step 1). -/
def Fold.stopGrazing (x : Fold) : Fold :=
  let x := match x.tile with
    | some t => if (x.slot t.slot).radio then x else x.returnTile t
    | none => x
  let graze := fun (b : Nat) => match x.bundleSlot b with | some c => !(x.slot c).radio | none => false
  let halt := fun (b : Nat) (v : VBundle) => if graze b then { v with stopped := true } else v
  let core := fun (v : VCore) => { v with bundles := v.bundles.map (fun q => (q.1, halt q.1 q.2)) }
  { x with vcores := x.vcores.map (fun p => (p.1, core p.2)) }

/-- A contained fault in the context of a slot (R237, R238 step 1): it is logged, every fold stops its grazing work,
and the reset of the grazing partition begins. `at'` is the faulting bundle and address. -/
def State.containedIn (f slot core bundle addr : Nat) (code : ContainedCode) (s : State) : State :=
  let c := (s.fold f).slot slot
  let s := s.modFold f (fun x => { x with
    containedFaults := satInc 32 x.containedFaults
    lastFault := (containedCode code) + 16 * slot + 256 * c.inst + 65536 * core
    vecEvent := x.vecEvent ||| 1
    faultLog := (((containedCode code), core, bundle, addr % 2 ^ 48, s.time.now) :: x.faultLog).take 64 })
  let s := if 5 ≤ (containedCode code) then s.evidence 6 (some f) else s
  let s := (s.forEach (s.folds.map (fun p => p.1)) (fun g s => s.modFold g Fold.stopGrazing)).settleHolds
  let here := (c.inst, c.ctxId)
  if s.disp.resetting.contains here then s
  else s.modDisp (fun d => { d with resetting := d.resetting ++ [here],
                                    resetSince := if d.resetting.isEmpty then s.time.now else d.resetSince })

/-- A fault of a context on a fold: contained for a grazing one, fatal for a radio one (R237, R241). -/
def State.contextFault (f slot core bundle addr : Nat) (code : ContainedCode) (s : State) : State :=
  let c := (s.fold f).slot slot
  if c.state = .empty then s
  else if c.radio then s.enterFenced
  else s.containedIn f slot core bundle addr code

/-- CONTAINED_FAULT (R238). -/
def execContainedFault (fold : Fin 32) (slot : Fin 8) (place : FaultPlace) (code : ContainedCode) (s : State) : Outcome :=
  .next (s.contextFault fold slot place.core place.bundle place.address.toNat code)

/-- The grazing partition of a fold (R238 step 2). -/
def Fold.resetPartition (x : Fold) : Fold :=
  x.slots.foldl (fun x p => if p.2.radio then x else x.resetContext p.1) x

/-- The placed grazing tasks that have not completed. -/
def State.grazingTasks (s : State) : List Nat :=
  (s.disp.tasks.filter (fun p => match p.2 with
    | some t => t.desc.inst != 0 && t.desc.kind == 1
    | none => false)).map (fun p => p.1)

/-- Instances 1 to 255 that exist. -/
def State.tenants (s : State) : List Nat :=
  (s.insts.filter (fun p => p.1 != 0 && decide (p.2.state ≠ .unused))).map (fun p => p.1)

/-- JOB_LOST to an instance, with its current generation. -/
def State.jobLost (i : Nat) (s : State) : State := s.raise 7 i theDevice (s.inst i).generation

/-- The RESIDE or RELEASE of a context under way ends with JOB_LOST (R238 step 3). -/
def State.dropContext (inst ctx : Nat) (s : State) : State :=
  let ns := (s.slotsOf inst ctx).flatMap (fun p =>
    let c := (s.fold p.1).slot p.2
    (if c.state = .residing then c.task.toList else []) ++ c.relTask.toList)
  s.forEach ns.eraseDups (State.failTask .jobLost)

/-- PARTITION_RESET_DONE (R238 steps 2 to 5). -/
def execPartitionResetDone (s : State) : Outcome :=
  .next (
    if s.disp.resetting.isEmpty then s
    else
      let tasks := s.grazingTasks
      let s := s.modHealth (fun h => { h with
        recoveryFoldUs := h.recoveryFoldUs + (s.time.now - s.disp.resetSince) * s.folds.length })
      let s := s.forEach tasks (fun n s => s.loseTask n .jobLost)
      let s := s.forEach (s.folds.map (fun p => p.1)) (fun f s => s.modFold f Fold.resetPartition)
      let s := s.forEach s.disp.resetting (fun p s => (s.dropContext p.1 p.2).leaveNow p.1 p.2)
      let s := (s.forEach s.tenants State.jobLost).settleHolds
      s.modDisp (fun d => { d with resetting := [] }))

/-! ## Vector instructions (R214 to R216) -/

/-- The share addresses of 32 lanes, in order. -/
def VBundle.addresses (v : VBundle) (r : Nat) : List Nat := (v.lanes r).map (fun a => a.toNat)

/-- The fault of accesses of `n` bytes at a list of share addresses (Table 07-7). -/
def accessFault (share n align : Nat) (as : List Nat) : Option (ContainedCode × Nat) :=
  match as.find? (fun a => decide (share < a + n)) with
  | some a => some (.outside, a)
  | none => (as.find? (fun a => a % align != 0)).map (fun a => (.misaligned, a))

/-- The format code of a vector conversion into an MX block is one of Table 04-1's MX codes. -/
def mxFmt (c : Nat) : Bool := (mxElem c).isSome || c == 0x0A

/-- A share write of one context (R216). -/
def State.shareWrite (f slot a : Nat) (b : Bytes) (s : State) : State :=
  s.wr (.sram f) (((s.fold f).slot slot).shareBase + a) b

/-- How the elements of a conversion round: with random words where the slot's task selects stochastic rounding (R131, R134).
R135 numbers a word by an element's place in its tile, which a vector conversion has not: each word is a free value (log
entry 86). -/
def State.roundings (f slot : Nat) : Nat → State → List Rounding × State
  | 0, s => ([], s)
  | n + 1, s =>
    let (r, s) := match s.slotTask f slot with
      | some (_, t) => if t.desc.sr then (let (w, s) := s.takeFree 32; (Rounding.stochastic w.toNat, s)) else (.nearest, s)
      | none => (.nearest, s)
    let (l, s) := State.roundings f slot n s
    (r :: l, s)

/-- The bytes of an MX block, its scale byte right behind its elements (log entry 86); under the NaN scale the elements are
free values. -/
def State.mxBytes (code : Nat) (blk : Nat × List Nat) (s : State) : Bytes × State :=
  let (es, s) := if blk.1 = 255 then s.freeBytes (32 * fmtWidth code / 8) else (packCodes code blk.2, s)
  (es ++ leBytes 1 blk.1, s)

/-- What an instruction does besides advancing the program counter: the new bundle, or a fault. A conversion
stores each block's packed elements with the scale byte right behind them (log entry 86). -/
def State.vectorOp (f slot : Nat) (op : VOp) (v : VBundle) (s : State) : State × VBundle × Option (ContainedCode × Nat) :=
  let c := (s.fold f).slot slot
  match op with
  | .fp32 o d a b e => (s, v.setReg d (lanes3 (fp32Lane o) (v.lanes a) (v.lanes b) (v.lanes e)), none)
  | .bf16 o d a b e => (s, v.setReg d (lanes3 (bf16Lane o) (v.lanes a) (v.lanes b) (v.lanes e)), none)
  | .reduce d a =>
    (s, { v with regs := tset 0#32 v.regs (32 * d.val) (BitVec.ofNat 32 (laneSum fmtFp32 5 (v.codes .fp32 a))) }, none)
  | .reduceBf16 d a =>
    let r := (v.reg d 0).toNat / 65536 * 65536 + laneSum fmtBf16 6 (v.codes .bf16 a)
    (s, { v with regs := tset 0#32 v.regs (32 * d.val) (BitVec.ofNat 32 r) }, none)
  | .load d a =>
    let as := v.addresses a
    (match accessFault c.shareSize 4 4 as with
     | some e => (s, v, some e)
     | none => (s, v.setReg d (as.map (fun x => BitVec.ofNat 32 (s.rdField (.sram f) (c.shareBase + x) 4))), none))
  | .store r a =>
    let as := v.addresses a
    (match accessFault c.shareSize 4 4 as with
     | some e => (s, v, some e)
     | none => (s.forEach (as.zip (v.lanes r)) (fun p s => s.shareWrite f slot p.1 (leBytes 4 p.2.toNat)), v, none))
  | .imm d x => (s, v.setReg d (List.replicate 32 x), none)
  | .toMx fmt src r a =>
    let code := fmt.toNat
    let at' := (v.reg a 0).toNat
    let l := v.codes src r
    let n := 32 * fmtWidth code / 8 + 1
    if !mxFmt code then (s, v, some (.illegal, 0))
    else
      (match accessFault c.shareSize (l.length / 32 * n) 1 [at'] with
       | some e => (s, v, some e)
       | none =>
         let blk := fun (k : Nat) (s : State) =>
           let (rs, s) := s.roundings f slot 32
           let (es, s) := s.mxBytes code (toMxBlock code rs (((l.drop (32 * k)).take 32).map (srcFmt src).decode))
           s.shareWrite f slot (at' + k * n) es
         (s.forEach (List.range (l.length / 32)) blk, v, none))
  | .toMerven fmt src r a gl =>
    let code := fmt.toNat
    let at' := (v.reg a 0).toNat
    let n := 16 * fmtWidth code / 8
    if code < 0x0D ∨ 0x0F < code then (s, v, some (.illegal, 0))
    else
      (match accessFault c.shareSize (n + 1) 1 [at'] with
       | some e => (s, v, some e)
       | none =>
         match toMervenBlock code (((v.codes src r).take 16).map (srcFmt src).decode) (gl.map (fun g => g.val)) with
         | some blk => (s.shareWrite f slot at' (packCodes code blk.2 ++ leBytes 1 blk.1), v, none)
         | none =>
           -- the conversion is refused with BAD_ARG (R133): nothing is written, the task takes the status
           (match c.task with
            | some n => s.modTask n (fun t => { t with status := worse t.status .badArg })
            | none => s, v, none))
  | .barrier => (s, v, none)
  | .jump t => (s, { v with pc := t.toNat }, none)
  | .halt => (s, { v with ready := false }, none)
  | .illegal => (s, v, some (.illegal, 0))

/-- Where the bundle goes on. -/
def nextPc (op : VOp) (v : VBundle) : VBundle :=
  match op with
  | .jump _ | .halt => v
  | _ => { v with pc := v.pc + Config.vecInstrBytes }

/-- The line of a bundle's program counter comes into the instruction cache from the context's share (R213), in place of
the oldest line of a full one (log entry 88). -/
def State.fillIcache (f core slot line : Nat) (s : State) : State :=
  let x := s.fold f
  if (x.vcore core).icache.any (fun l => l.1 == slot && l.2.1 == line) then s
  else
    let b := s.rd (.sram f) ((x.slot slot).shareBase + 64 * line) 64
    s.modFold f (fun x => { x with vcores := tmod {} x.vcores core (fun v =>
      { v with icache := (if v.icache.length < 1024 then v.icache else v.icache.drop 1) ++ [(slot, line, b)] }) })

/-- The core issues `op` from bundle `b` of a slot. -/
def State.issueVector (f core b slot : Nat) (radio : Bool) (op : VOp) (s : State) : State :=
  let c := (s.fold f).slot slot
  let v := tget ({} : VBundle) ((s.fold f).vcore core).bundles b
  let s := s.modFold f (fun x => { x with vcores := tmod {} x.vcores core (fun k =>
    if radio then { k with lastRadio := b } else { k with lastGrazing := b }) })
  let s := s.fillIcache f core slot (v.pc / 64)
  let stop := fun (s : State) => s.modFold f (Fold.modBundle core b (fun v => { v with stopped := true }))
  if (s.obj c.program).size ≤ v.pc then (stop s).contextFault f slot core b v.pc .fetch
  else
    match s.vectorOp f slot op v with
    | (s, _, some (code, a)) => (stop s).contextFault f slot core b a code
    | (s, v', none) => s.modFold f (Fold.modBundle core b (fun _ => nextPc op v'))

/-- VECTOR_ISSUE (R214): the instruction issued is that of the bundle R214 chooses. -/
def execVectorIssue (fold : Fin 32) (core : Fin 16) (radio : Bool) (op : VOp) (s : State) : Outcome :=
  .next (
    match (s.fold fold).chooseBundle core with
    | none => s
    | some (b, r) =>
      if r ≠ radio then s
      else match (s.fold fold).bundleSlot b with
        | none => s
        | some slot => s.issueVector fold core b slot radio op)

/-! ## Collectors (R233, R234, R243, R543, R561) -/

def State.collector (s : State) (d : Nat) : Collector := tget {} s.disp.collectors d
def State.modCollector (d : Nat) (f : Collector → Collector) (s : State) : State :=
  s.modDisp (fun x => { x with collectors := tmod {} x.collectors d f })

/-- The folds of a die in the order the collector visits them. -/
def State.visitOrder (s : State) (d : Nat) : List Nat :=
  (List.range 16).map (fun k => 16 * d + ((s.collector d).last + 1 + k) % 16)

/-- The folds a collector takes from in one cycle, at most two, visited in order, and whether it passed over one whose
queue is full (R233, R234, R243); `l` are the queues of the records taken already. -/
def State.collect (s : State) : List Nat → Nat → List (Nat × Nat) → List Nat × Bool
  | [], _, _ => ([], false)
  | _, 0, _ => ([], false)
  | f :: r, n + 1, l =>
    match (s.fold f).cmp with
    | [] => State.collect s r (n + 1) l
    | c :: _ =>
      let q := (c.inst, c.queue)
      if s.cqRoom c.inst c.queue (l.count q) = .full then ((State.collect s r (n + 1) l).1, true)
      else
        let x := State.collect s r n (q :: l)
        (f :: x.1, x.2)

/-- A record taken is written to its queue; one started under an earlier generation of its instance is discarded and
counted (R561), and so is one whose queue takes none. A sealed task record leaves its leaf. -/
def State.writeRecord (r : CmpRec) (s : State) : State :=
  if r.inst ≠ 0 ∧ r.issued ≠ (s.inst r.inst).generation then
    s.staleDiscard r.inst
  else
    let s := match r.pv with
      | some (pv, digest, ranks) => s.provLeaf r pv digest ranks
      | none => s
    s.addCompletion r.inst r.queue (cmpBytes r)

/-- Take the oldest record of a fold. -/
def State.takeFrom (d f : Nat) (s : State) : State :=
  match (s.fold f).cmp with
  | [] => s
  | r :: rest =>
    let s := s.modFold f (fun x => { x with cmp := rest })
    let s := s.modCollector d (fun c => { c with taken := satInc 64 c.taken })
    s.writeRecord r

/-- Records held because their queue was full are written in their order. -/
def State.flushDirect : List CmpRec → State → State
  | [], s => s
  | r :: rest, s =>
    match s.cqState r.inst r.queue with
    | .full => s.modDisp (fun d => { d with direct := r :: rest })
    | .takes => State.flushDirect rest ((s.modDisp (fun d => { d with direct := rest })).writeRecord r)
    | .bad => State.flushDirect rest (s.modDisp (fun d => { d with direct := rest }))

/-- Records that wait in the buffers of a die. -/
def State.backlog (s : State) (d : Nat) : Nat :=
  ((List.range 16).map (fun k => (s.fold (16 * d + k)).cmp.length)).sum

/-- The last of a list. -/
def lastOf (l : List Nat) (d : Nat) : Nat := l.foldl (fun _ x => x) d

/-- COLLECTOR_CYCLE (R233): records taken are written in ascending fold order. -/
def execCollectorCycle (die : Fin 2) (s : State) : Outcome :=
  .next (
    let s := State.flushDirect s.disp.direct s
    let (l, passed) := s.collect (s.visitOrder die) 2 []
    let s := s.modCollector die (fun c => { c with
      maxBacklog := min 1023 (max c.maxBacklog (s.backlog die))
      queueFull := if passed then satInc 64 c.queueFull else c.queueFull
      last := lastOf l (16 * die.val + c.last) % 16 })
    let asc := match l with | [a, b] => if a < b then [a, b] else [b, a] | l => l
    s.forEach asc (fun f s => s.takeFrom die f))

/-! ## Barriers (R235, R236, R321) -/

/-- The penumbra of one window closes on a fold; the time it was open counts once the last one closes. -/
def State.closePenumbra (f : Nat) (s : State) : State :=
  let x := s.fold f
  if x.penumbra = 0 then s
  else
    let s := s.modFold f (fun x => { x with penumbra := x.penumbra - 1 })
    if x.penumbra = 1 then
      s.modShep (fun h => { h with penumbraFoldUs := h.penumbraFoldUs + (s.time.now - x.penumbraAt) })
    else s

/-- The barrier of a window has fired (R321): its penumbra closes on every fold of its set. -/
def State.endWindow (w : Nat) (s : State) : State :=
  match s.shep.sets.find? (fun p => p.1 == w) with
  | none => s
  | some (_, fs) =>
    let s := s.forEach fs State.closePenumbra
    s.modShep (fun h => { h with sets := h.sets.filter (fun p => p.1 != w) })

/-- The ACTION of a barrier. -/
def State.fire (a : BarrierAction) (s : State) : State :=
  match a with
  | .none => s
  | .releaseQueue q => s.modDisp (fun d => { d with gated := d.gated.filter (fun x => x != q) })
  | .slotEnd w => s.endWindow w

/-- One addition to a barrier (R236). -/
def State.barrierCount (b : Nat) (s : State) : State :=
  let x := s.barrier b
  if x.count + 1 = x.target then
    (s.modBarrier b (fun x => { x with count := 0, target := x.nextTarget })).fire x.action
  else s.modBarrier b (fun x => { x with count := x.count + 1 })

/-- BARRIER_ADD (R236): the additions are applied in order of arrival, one per dispatcher cycle. -/
def execBarrierAdd (b : Fin 256) (s : State) : Outcome :=
  .next (
    match s.disp.adds with
    | [] => s
    | a :: rest => if a ≠ b.val then s else (s.modDisp (fun d => { d with adds := rest })).barrierCount b)

end Sys2Proof.Machine
end

