-- ==== Sys2Proof/Machine/Shepherd.lean ====
section
/-! DEFINITION. The shepherd's timeline (R305 to R334): release windows and their fold sets, the penumbra, slot and
frame boundaries, the neural receiver's weights (R298 to R301) and deadline misses. -/

namespace Sys2Proof.Machine

/-! ## Radio frames (R429) -/

/-- ns since the start of a radio frame SFN 0, in its span of 1,024 frames. -/
def State.sinceSfn0 (s : State) (t : Nat) : Nat :=
  (((t : Int) - (315964819000000000 : Nat) - s.time.frameOffset) % (10240000000 : Nat)).toNat

/-- Slot duration in ns; LTE uses µ = 0. -/
def slotNs (c : CellCfg) : Nat := if c.lte then 1000000 else 1000000 / 2 ^ c.mu

/-- Number of the slot that holds a device time: SFN × slots per frame + slot index. -/
def State.slotAt (s : State) (c : CellCfg) (t : Nat) : Nat := s.sinceSfn0 t / slotNs c

def State.frameStarts (s : State) : Bool := s.sinceSfn0 s.time.now % 10000000 == 0
def State.slotStarts (s : State) (c : CellCfg) : Bool := s.sinceSfn0 s.time.now % slotNs c == 0

/-! ## Deadline misses (R327 to R331) -/

def stageCode : Stage → Nat
  | .array => 1 | .engine => 2 | .signalCore => 3 | .dlEgress => 4 | .ulDelivery => 5 | .nrxUpdate => 6

/-- The cell transmits and receives. -/
def CellState.onAir : CellState → Bool
  | .active | .reconfiguring | .removing => true
  | _ => false

/-- Payload of DEADLINE_MISS (Table 10-6), from bit 128. -/
def missPayload (cell stage cause slot inc late : Nat) : Nat :=
  cell + 2 ^ 16 * stage + 2 ^ 24 * cause + 2 ^ 32 * (slot % 2 ^ 32) + 2 ^ 64 * (inc % 2 ^ 32) +
    2 ^ 96 * min late (2 ^ 32 - 1)

/-- Record a miss, once for each cell, slot and stage (R331); a suspended cell misses nothing (R333). -/
def State.miss (cell slot stage cause late : Nat) (s : State) : State :=
  let x := s.cell cell
  if !x.state.onAir || x.missed.contains (slot, stage) then s
  else
    let first := !x.missed.any (fun p => p.1 == slot)
    let pay := missPayload cell stage cause slot x.inc late
    let s := s.modCell cell (fun c => { c with
      missed := c.missed ++ [(slot, stage)]
      slotsMissed := if first then satInc 64 c.slotsMissed else c.slotsMissed
      lastMissSlot := slot
      lastMissStage := stage
      lastMissCause := cause })
    let s := s.modShep (fun h => { h with
      slotsMissed := if first then satInc 64 h.slotsMissed else h.slotsMissed
      missCause := tmod 0 h.missCause (cause - 1) (satInc 32)
      event := h.event ||| (if cause = 5 then 5 else 1) })
    let s := s.raise 8 0 theDevice pay
    let s := s.ledgerSnap 6 theDevice (.deadlineMiss pay)
    if cause = 5 then s.evidence 15 none else s

/-- The cause of Table 10-5 that applies first. -/
def missCause (stage : Stage) (inputLate unitLost rerun : Bool) : Nat :=
  if inputLate then 1 else if unitLost then 2 else if rerun then 3
  else if stage = .nrxUpdate then 4 else 5

/-- STAGE_DEADLINE (R327, R328, R320). -/
def execStageDeadline (now : Nat) (cell : Fin 512) (slot : W32) (stage : Stage) (lateNs : Nat)
    (inputLate unitLost rerun : Bool) (s : State) : Outcome :=
  .next (
    let s := s.at now
    let lost := unitLost || s.changesBlocked || (decide (stage = .array) && s.eligibleNow.isEmpty)
    s.miss cell slot.toNat (stageCode stage) (missCause stage inputLate lost rerun) lateNs)

/-! ## Suspension (R332, R333) -/

/-- The set fits the limits that the units in service leave. -/
def State.fitsLive (s : State) (l : List (Nat × Cell)) : Bool :=
  (firstOver (s.needs true s.portMode 0 (l.map (fun p => s.costed p.2)))).isNone

/-- Cells to suspend, from the highest number down, until the rest fit; the list is given in descending order. -/
def toSuspend (fits : List (Nat × Cell) → Bool) : List (Nat × Cell) → List Nat
  | [] => []
  | p :: r => if fits (p :: r) then [] else p.1 :: toSuspend fits r

/-- Cells on air, ascending. -/
def State.onAir (s : State) : List (Nat × Cell) := s.radio.cells.filter (fun p => p.2.state.onAir)

/-- The limits are recomputed and the cells that no longer fit are marked (R332). -/
def State.recheck (s : State) : State :=
  let out := toSuspend s.fitsLive s.onAir.reverse
  s.forEach (s.onAir.map (fun p => p.1)) (fun c s => s.modCell c (fun x => { x with suspendDue := out.contains c }))

/-! ## Release windows (R318 to R321) -/

/-- The summed charge of the tasks of a window, in 1/16,000,000 fold-µs (R318). -/
def State.windowCharge (s : State) : Nat := (s.onAir.map (fun p => arrayCost (s.costed p.2))).sum

/-- S_w out of the eligible folds (R319). -/
def foldSet (eligible : List Nat) (charge w : Nat) : List Nat :=
  let e := eligible.length
  if e = 0 then []
  else
    let n := min e (max 1 (ceilDiv charge 500000000))
    (List.range n).map (fun k => eligible.getD ((w + k) % e) 0)

/-- Window numbers run from 0 in each span of 1,024 frames. -/
def windowSpan : Nat := 163840

/-- The penumbra of a window opens on its set (R321). -/
def State.openWindow (w : Nat) (s : State) : State :=
  let fs := foldSet s.eligibleNow s.windowCharge w
  if fs.isEmpty || s.shep.sets.any (fun p => p.1 == w) then s
  else
    let s := s.modShep (fun h => { h with sets := (w, fs) :: h.sets })
    (s.forEach fs (fun f s => s.modFold f (Fold.penumbraOpens s.time.now))).settleHolds

/-- PENUMBRA_OPEN (R321): PENUMBRA before the start of a window. -/
def execPenumbraOpen (now : Nat) (s : State) : Outcome :=
  .next (
    let s := s.at now
    let t := s.time.now + s.settings.penumbra
    if s.radioRuns && s.sinceSfn0 t % 62500 == 0 then s.openWindow (s.sinceSfn0 t / 62500) else s)

/-- A radio task descriptor counts on a barrier. -/
def TaskDesc.countsOn (d : TaskDesc) (b : Nat) : Bool := d.inst == 0 && d.barrierEn && d.barrier == b

/-- Radio tasks posted and not yet placed that count on a barrier. -/
def State.postedTasks (s : State) (b : Nat) : Nat :=
  (s.queues.cached.map (fun p =>
    match p.2 with
    | some c =>
      if p.1 < 65536 && c.type == 1 then
        ((List.range (min c.size (s.queueUsed p.1 c))).filter (fun k =>
          match s.ringRead c (c.consumer + k) with | some e => (parseTask e).countsOn b | none => false)).length
      else 0
    | none => 0)).sum

/-- Radio tasks placed that count on a barrier. -/
def State.placedTasks (s : State) (b : Nat) : Nat :=
  (s.disp.tasks.filter (fun p => match p.2 with | some t => t.desc.countsOn b | none => false)).length

/-- Window `w` starts: its barrier counts its radio tasks (R319, R321). -/
def State.startWindow (w : Nat) (s : State) : State :=
  let s := s.openWindow w
  if s.shep.sets.any (fun p => p.1 == w) then
    let b := w % 256
    let n := s.postedTasks b + s.placedTasks b
    let s := s.modBarrier b (fun x => { x with count := 0, target := n, action := .slotEnd w })
    if n = 0 then s.endWindow w else s
  else s

/-- Settings accepted before take effect (R335). -/
def Settings.advance (x : Settings) : Settings := { x with share := x.shareNext, penumbra := x.penumbraNext }

/-- WINDOW_BOUNDARY (R314, R316, R319, R332, R334, R335). -/
def execWindowBoundary (now : Nat) (s : State) : Outcome :=
  .next (
    let s := s.at now
    if s.sinceSfn0 s.time.now % 62500 ≠ 0 ∨ s.dev.dstate = .rom then s
    else
      let s := { s with settings := s.settings.advance }
      let s := s.forEach (List.range 32) State.radioOn
      let e := s.eligibleNow
      let s := s.modShep (fun h => { h with windows := satInc 64 h.windows, eligible := e })
      let s := s.recheck
      let reserved := (s.reservedSet.map arrayCost).sum
      let used := if e.isEmpty then 0 else s.windowCharge
      let s := s.modShep (fun h => { h with lentFoldUs := h.lentFoldUs + (reserved - used) })
      if s.radioRuns then s.startWindow (s.sinceSfn0 s.time.now / 62500) else s)

/-! ## Frame boundaries (R278, R279, R313, R332, R333) -/

/-- The cell starts to serve. -/
def State.startCell (c : Nat) (s : State) : State :=
  let ok := s.fitsLive (s.onAir ++ [(c, s.cell c)])
  let s := s.modCell c (fun x => { x with state := if ok then .active else .suspended, notBefore := 0 })
  if ok then s else s.modShep (fun h => { h with event := h.event ||| 2 })

/-- One cell at a radio frame boundary. -/
def State.cellFrame (c : Nat) (s : State) : State :=
  let x := s.cell c
  match x.state with
  | .admitted => if x.notBefore ≠ 0 ∧ x.notBefore ≤ s.time.now ∧ !x.assumed then s.startCell c else s
  | .reconfiguring =>
    if x.suspendDue then
      (s.modCell c (fun x => { x with state := .suspended, suspendDue := false, next := none, cfg := x.next.getD x.cfg,
                                      inc := (x.inc + 1) % 2 ^ 32, shape := s.readShape (x.next.getD x.cfg) x.shape,
                                      shaping := [] })).modShep (fun h => { h with event := h.event ||| 2 })
    else if x.notBefore ≤ s.time.now then
      let n := x.next.getD x.cfg
      let s := s.modLane (cellLane x.cfg) (fun l => { l with policers := tset {} l.policers (c % 64) {} })
      let s := s.modCell c (fun x => { x with state := .active, cfg := n, next := none, notBefore := 0,
                                              inc := (x.inc + 1) % 2 ^ 32, shape := s.readShape n x.shape, shaping := [] })
      (s.setPool c (harqMib n)).setCellPolicer c n
    else s
  | .removing => s.freeCellNo c
  | .active =>
    if x.suspendDue then
      (s.modCell c (fun x => { x with state := .suspended, suspendDue := false })).modShep
        (fun h => { h with event := h.event ||| 2 })
    else s
  | .suspended =>
    if s.fitsLive (s.onAir ++ [(c, x)]) then s.modCell c (fun x => { x with state := .active }) else s
  | .unused => s

/-- While PREPARE_REMOVAL hands cells over, each leaves at a frame boundary that its new device chooses (R600, R647): a
free value (log entry 47). -/
def State.handOver (s : State) : State :=
  match s.power.removal with
  | some (_, _, true, _) => s.forEach (s.reservedCells.map (fun p => p.1)) (fun c s =>
      let (k, s) := s.takeFree 1
      if k = 1#1 then s.freeCellNo c else s)
  | _ => s

/-- FRAME_BOUNDARY: cells change in ascending number, then signal cores are assigned (R313). -/
def execFrameBoundary (now : Nat) (s : State) : Outcome :=
  .next (
    let s := s.at now
    if s.frameStarts then ((s.forEach (s.reservedCells.map (fun p => p.1)) State.cellFrame).handOver).reassign else s)

/-! ## Slots -/

/-- SLOT_TICK (Table 08-6, source 0) at the signal cores that serve a cell. -/
def State.slotTick (c : Nat) (s : State) : State :=
  s.forEach (s.coresOf c) (fun k s => s.raiseIrq k 0)

/-- A slot of a cell begins: one that is suspended counts at once, one on air counts as served or missed five slots
later, when its last stage is over (R331, R333; log entry 30). -/
def State.cellSlot (c : Nat) (s : State) : State :=
  let x := s.cell c
  if !s.slotStarts x.cfg then s
  else
    let s := if x.state = .suspended then
        (s.modCell c (fun x => { x with slotsSuspended := satInc 64 x.slotsSuspended })).modShep
          (fun h => { h with slotsSuspended := satInc 64 h.slotsSuspended })
      else if x.state.onAir then (s.modCell c (fun x => { x with open' := x.open' ++ [s.slotAt x.cfg s.time.now] })).slotTick c
      else s
    match (s.cell c).open' with
    | [] => s
    | o :: r =>
      if r.length < 5 ∧ x.state ≠ .suspended then s
      else
        let good := !x.missed.any (fun p => p.1 == o)
        let s := s.modCell c (fun x => { x with
          open' := r
          missed := x.missed.filter (fun p => p.1 != o)
          held := x.held.filter (fun h => h.1 != o % (2560000000 / slotNs x.cfg))
          slotsServed := if good then satInc 64 x.slotsServed else x.slotsServed })
        if good then s.modShep (fun h => { h with slotsServed := satInc 64 h.slotsServed }) else s

/-- A cell that ASSUME took over serves from its first slot 2 ms after the command (R599); the slots up to it are gap
slots (R601). -/
def State.assumedSlot (c : Nat) (s : State) : State :=
  let x := s.cell c
  if x.state = .admitted && x.assumed && s.slotStarts x.cfg then
    if x.notBefore ≤ s.time.now then (s.startCell c).modCell c (fun x => { x with assumed := false })
    else s.modHealth (fun h => { h with assumeGap := satInc 64 h.assumeGap })
  else s

/-! ## The neural receiver's weights (R298 to R301) -/

/-- Elements of a model object's weights, as FP32: those behind its 64-byte header, in the header's format. -/
def modelWeights (fmt : Nat) (b : Bytes) : List W32 :=
  let body := b.drop 64
  (List.range (body.length * 8 / fmtWidth fmt)).map (fun i =>
    BitVec.ofNat 32 (match elemVal fmt (elemCode fmt body i) with
      | .fin sg e => (fmtFp32.convert .nearest sg e).1
      | n => fmtFp32.encode n))

/-- The working copy of a master weight (R131, to nearest). -/
def workingOf (fmt : Nat) (w : W32) : W16 :=
  BitVec.ofNat 16 (match fmtFp32.decode w.toNat with
    | .fin sg e => (({ sig := sg, exp := e } : Acc).convert fmt .nearest).1
    | .inf neg => (({ sig := if neg then -1 else 1, exp := 200 } : Acc).convert fmt .nearest).1
    | .nan => (({ nan := true } : Acc).convert fmt .nearest).1)

/-- The sum of a list through the tree of R215; `n` bounds its levels. -/
def treeAdd : Nat → List Nat → Nat
  | 0, l => l.headD 0
  | n + 1, l => match l with | [] => 0 | [a] => a | l => treeAdd n (sumLevel fmtFp32 l)

/-- m − η × g × min(1, CLIP / ‖g‖₂) in FP32 (R299). -/
def updateWeights (rate clip : W32) (m g : List W32) : List W32 :=
  let norm := fmtFp32.sqrt (treeAdd g.length (g.map (fun x => fmtFp32.mul x.toNat x.toNat)))
  let k := fmtFp32.min 0x3F800000 (fmtFp32.div clip.toNat norm)
  (m.zip g).map (fun p =>
    BitVec.ofNat 32 (fmtFp32.add p.1.toNat (fmtFp32.neg (fmtFp32.mul (fmtFp32.mul rate.toNat p.2.toNat) k))))

/-- More than the fraction REVERT_BLER of the blocks of the last 2,000 slots failed (R301). -/
def Nrx.revertDue (n : Nrx) : Bool :=
  if n.revert = 0#32 then false
  else
    let blocks := (n.history.map (fun p => p.1)).sum
    let fails := (n.history.map (fun p => p.2)).sum
    match fmtFp32.decode n.revert.toNat with
    | .fin sg e => decide (0 < blocks) && dyLt (sg * blocks) e fails 0
    | _ => false

/-- The weights become `m`, with their working copy. -/
def Nrx.setMaster (m : List W32) (n : Nrx) : Nrx := { n with master := m, working := m.map (workingOf n.fmt) }

/-- A loaded model is resident in T1 and its contexts are placed (R298); returning cells to the conventional receiver
waits for nothing. -/
def State.nrxReady (s : State) (model : Option Nat) : Bool :=
  match model with
  | none => true
  | some e => decide ((s.obj e).stateIn 1 = .resident) &&
      s.eligibleNow.all (fun f => ((s.fold f).slotOf 0 1).isSome)

/-- The pending NRX_LOAD takes effect (R298, R317): the whole set changes together. -/
def State.applyNrx (s : State) : State :=
  match s.radio.nrx.pending with
  | none => s
  | some (cells, model, m, seq) =>
    let base := s.radio.nrx
    let mark := fun (set : List Nat) (s : State) =>
      s.forEach (s.reservedCells.map (fun p => p.1)) (fun c s => s.modCell c (fun x => { x with nrx := set.contains c }))
    let s := match model with
      | none =>
        let set := base.cells.filter (fun c => !cells.contains c)
        let s := mark set (s.modNrx (fun n => { n with cells := set, pending := none }))
        if set.isEmpty then
          let s := s.modNrx (fun _ => { skips := base.skips, reverts := base.reverts })
          s.forEach (List.range 32) (fun f s =>
            match (s.fold f).slotOf 0 1 with | some k => s.modFold f (Fold.vacate k) | none => s)
        else s
      | some e =>
        let (_, _, _, fmt) := nrxHeader ((s.objRead e 0 64 none).getD [])
        let w := modelWeights fmt ((s.objRead e 0 (s.obj e).size none).getD [])
        let (adapt, rate, clip, revert, cPrb, wSlot) := base.pendingArgs
        mark cells (s.modNrx (fun _ => Nrx.setMaster w
          { cells, model := some e, adapt, rate, clip, revert, cPrb, wSlot, loaded := w, fmt,
            skips := base.skips, reverts := base.reverts }))
    s.commandDone m seq 0x0206 .ok

/-- The configuration whose slots time the set. -/
def State.nrxCfg (s : State) : CellCfg := (s.cell (s.radio.nrx.cells.headD 0)).cfg
def State.pendingCfg (s : State) : CellCfg :=
  match s.radio.nrx.pending with
  | some (c :: _, _, _, _) => (s.cell c).cfg
  | _ => {}

/-- The weights at a slot boundary of the set: updated with the gradient of two slots before, or that update skipped
(R299, R300); then restored where too many blocks failed (R301). -/
def State.nrxSlot (gradient : Option (List W32)) (blocks failures : Nat) (s : State) : State :=
  let n := s.radio.nrx
  if n.model.isNone || n.cells.isEmpty || !s.slotStarts s.nrxCfg then s
  else
    let dur := slotNs s.nrxCfg
    let slot := s.slotAt s.nrxCfg (s.time.now + 10240000000 - 2 * dur)
    let s := s.modNrx (fun n => { n with history := ((blocks, failures) :: n.history).take 2000 })
    let whole := match gradient with | some g => g.length == n.master.length | none => false
    let s := if !n.adapt || decide (s.radio.nrx.history.length < 2) then s
      else if whole then s.modNrx (fun n => n.setMaster (updateWeights n.rate n.clip n.master (gradient.getD [])))
      else
        let s := s.modNrx (fun n => { n with skips := n.skips + 1 })
        let s := s.ledger 7 theDevice (.nrx n.cells slot false)
        s.forEach n.cells (fun c s => s.miss c slot 6 4 0)
    if s.radio.nrx.revertDue then
      let s := s.modNrx (fun n => { n.setMaster n.loaded with reverts := n.reverts + 1 })
      s.ledger 7 theDevice (.nrx n.cells (s.slotAt s.nrxCfg s.time.now) true)
    else s

/-- SLOT_BOUNDARY: `gradient` is that of the slot two before the one that starts, absent where it is not complete. -/
def execSlotBoundary (now : Nat) (gradient : Option (List W32)) (blocks failures : Nat) (s : State) : Outcome :=
  .next (
    let s := s.at now
    if s.sinceSfn0 s.time.now % 125000 ≠ 0 then s
    else
      let s := s.nrxSlot gradient blocks failures
      let s := match s.radio.nrx.pending with
        | some (_, model, _, _) => if s.slotStarts s.pendingCfg && s.nrxReady model then s.applyNrx else s
        | none => s
      let cells := s.reservedCells.map (fun p => p.1)
      (s.forEach cells State.assumedSlot).forEach cells State.cellSlot)

end Sys2Proof.Machine
end

