-- ==== Sys2Proof/Machine/Dma.lean ====
section
/-! DEFINITION. The DMA engines (chapter 12): posting, arbitration, the line accesses of a descriptor and its end. -/

namespace Sys2Proof.Machine

/-! ## Checks of a descriptor (R385 to R387, R390) -/

/-- Byte ranges of a side: offset from its address, and length of each plane. -/
def dRanges (d : Bytes) (src : Bool) : List (Nat × Nat) :=
  if dPlanar d src then (List.range (dPlanes d)).map (fun k => (k * dStride d, dLength d / dPlanes d))
  else [(0, dLength d)]

/-- Two ranges meet. -/
def meet (a b : Nat × Nat) : Bool := decide (a.1 < b.1 + b.2 ∧ b.1 < a.1 + a.2)

/-- Some two ranges of a list meet. -/
def anyMeet : List (Nat × Nat) → Bool
  | [] => false
  | a :: r => r.any (meet a) || anyMeet r

/-- A space is allowed for an owner (Table 12-3). -/
def spaceAllowed (e : Nat) (kind space : Nat) : Bool :=
  match space with
  | 0 => kind == 0
  | 1 => kind == 2
  | 2 | 4 | 5 => kind != 2 && (space != 2 || decide (32 ≤ e))
  | 3 => true
  | 6 => kind == 0 && decide (e < 32)
  | _ => false

/-- Bytes of a space from its start (Table 12-3). -/
def State.spaceSize (s : State) (e c space handle : Nat) : Nat :=
  match space with
  | 0 => 0x20000000
  | 1 => ((s.fold ((engineFold e).getD 0)).slot (c - 8)).shareSize
  | 2 => 384 * 2 ^ 20
  | 3 => (s.obj (hdlEntry handle)).size
  | 4 => 0x18000000000
  | 6 => 2 ^ 37
  | _ => 2 ^ 60

/-- A handle of a side does not stand for the owner. -/
def State.sideStale (s : State) (inst space handle : Nat) : Bool := space == 3 && (s.handleStatus handle inst).isSome

/-- The fields that break a rule whatever the spaces hold (R385, R387). -/
def dBadFields (e : Nat) (x : DmaChan) (d : Bytes) : Bool :=
  let sh := dShuffle d
  let dst := (dRanges d false).map (fun r => (dDst d + r.1, r.2))
  decide (7 < sh) || !spaceAllowed e x.ownerKind (dSrcSpace d) || !spaceAllowed e x.ownerKind (dDstSpace d) ||
  decide (dLength d = 0 ∨ 16777216 < dLength d) ||
  (sh != 0 && decide (dSrc d % 64 ≠ 0 ∨ dDst d % 64 ≠ 0 ∨ dStride d % 64 ≠ 0 ∨ dLength d % dBlock d ≠ 0)) ||
  anyMeet dst || (dNotify d == 1 && decide (383 < dCore d)) ||
  ((dNotify d == 1 || dNotify d == 2) && x.ownerKind != 0) || (dNotify d == 3 && dNotifyAddr d % 8 != 0) ||
  (x.pace && decide (x.lowWm < dLength d))

/-- A range lies outside its space, or a read range overlaps a write range. -/
def State.dBadRange (s : State) (e c : Nat) (d : Bytes) : Bool :=
  let src := (dRanges d true).map (fun r => (dSrc d + r.1, r.2))
  let dst := (dRanges d false).map (fun r => (dDst d + r.1, r.2))
  let same := dSrcSpace d == dDstSpace d && (dSrcSpace d != 3 || hdlEntry (dSrcHandle d) == hdlEntry (dDstHandle d))
  src.any (fun r => decide (s.spaceSize e c (dSrcSpace d) (dSrcHandle d) < r.1 + r.2)) ||
  dst.any (fun r => decide (s.spaceSize e c (dDstSpace d) (dDstHandle d) < r.1 + r.2)) ||
  (same && src.any (fun a => dst.any (meet a)))

/-- The unit a side lies on accepts work. -/
def State.locServes (s : State) : Loc → Bool
  | .mem sp a => s.spaceServes sp a
  | .obj _ _ => true

/-- The place lies in companion memory. -/
def Loc.onCompanion : Loc → Bool
  | .mem sp _ => decide (sp = .companion)
  | .obj .. => false

/-- Units are power-gated: all that can sleep do so together in NIGHT (Table 21-5). -/
def State.locGated (s : State) : Bool := decide (s.dev.dstate = .night)

/-- The status a descriptor ends with before it moves a byte (R385, R390), in the order VERSION, BAD_ARG of its fields,
STALE_HANDLE, BAD_ARG of its ranges, DENIED, NOT_READY; OK where it runs. -/
def State.dmaCheck (s : State) (e c : Nat) (d : Bytes) : Status :=
  let x := s.chan e c
  let i := x.ownerInst
  if i ≠ 0 ∧ versionRefused (s.inst i).grant.descVersion (dVersion d) = true then .version
  else if dBadFields e x d then .badArg
  else if s.sideStale i (dSrcSpace d) (dSrcHandle d) || s.sideStale i (dDstSpace d) (dDstHandle d) then .staleHandle
  else if s.dBadRange e c d then .badArg
  else if dDstSpace d == 3 && (s.obj (hdlEntry (dDstHandle d))).readonly then .denied
  else if !(s.locServes (s.srcLoc e c d 0) && s.locServes (s.dstLoc e c d 0)) then .notReady
  else .ok

/-! ## Posting and LEVEL (R376, R382, R383) -/

/-- DMA_DESCRIPTOR_POST: the owner writes a descriptor in full and advances CH_TAIL; one for a channel that is not
enabled or whose ring is full is not posted, and one for an engine that accepts no work completes with NOT_READY (R54). -/
def execDmaDescriptorPost (engine : Fin 64) (chan : Fin 16) (d : Bytes) (s : State) : Outcome :=
  .next (
    let x := s.chan engine chan
    if !s.accepts ⟨.dma, engine⟩ then s.emit (.notReady ⟨.dma, engine⟩)
    else if !x.enable || decide (2 ^ x.log2 ≤ x.ring.length) then s
    else
      let b := fixLen 128 d
      let (sp, a) := s.ringLoc engine chan x x.tail
      let s := s.wr sp a b
      s.modChan engine chan (fun x => { x with ring := x.ring ++ [b], tail := (x.tail + 1) % 65536 }))

/-- LEVEL grows; a PAUSED channel becomes ARMED at HIGH_WM (R382). -/
def DmaChan.addLevel (n : Nat) (x : DmaChan) : DmaChan :=
  let l := min (2 ^ 25 - 1) (x.level + n)
  { x with level := l, paused := x.paused && decide (l < x.highWm) }

/-- DMA_LEVEL_ADD (R383). -/
def execDmaLevelAdd (engine : Fin 64) (chan : Fin 16) (bytes : Nat) (s : State) : Outcome :=
  .next (s.modChan engine chan (DmaChan.addLevel bytes))

/-! ## Arbitration (R378 to R380) -/

/-- Ready channels of a class. -/
def State.readyChans (s : State) (e : Nat) (radio : Bool) : List Nat :=
  (List.range 16).filter (fun c => (s.chan e c).ready && s.active (s.chan e c).ownerInst && (s.chan e c).radio == radio)

/-- The first of them: lowest PRIO, then lowest number. -/
def State.firstReady (s : State) (e : Nat) (radio : Bool) : Option Nat :=
  (s.readyChans e radio).foldl (fun (b : Option Nat) c =>
    match b with
    | none => some c
    | some k => if (s.chan e c).prio < (s.chan e k).prio then some c else b) none

/-- The descriptor at the head of a channel starts: its checks, and LEVEL loses its LENGTH. -/
def State.dmaStart (e c : Nat) (s : State) : State :=
  let x := s.chan e c
  match x.ring with
  | [] => s
  | d :: _ =>
    let st := s.dmaCheck e c d
    let run : DmaRun := { chan := c, desc := d, status := st, stopped := decide (st ≠ .ok) }
    let s := if x.pace && decide (st = .ok) then s.modChan e c (fun x => { x with level := x.level - dLength d }) else s
    s.modDma e (fun y =>
      if x.radio then
        { y with radioRun := some run, grazingHeld := y.grazingRun.isSome,
                 heldCount := if y.grazingRun.isSome && !y.grazingHeld then satInc 32 y.heldCount else y.heldCount }
      else { y with grazingRun := some run })

/-- DMA_DESCRIPTOR_START (R378, R380): at a descriptor boundary, or for the radio class while a grazing descriptor is in
progress. -/
def execDmaDescriptorStart (engine : Fin 64) (s : State) : Outcome :=
  .next (
    let y := s.dmaEng engine
    if y.radioRun.isSome || !s.accepts ⟨.dma, engine⟩ then s
    else
      match s.firstReady engine true with
      | some c => s.dmaStart engine c
      | none =>
        if y.grazingRun.isSome then s
        else match s.firstReady engine false with | some c => s.dmaStart engine c | none => s)

/-! ## Line accesses (R386, R387, R390) -/

/-- What a read of a line gives: bytes and the status its poison gives the descriptor, a wait, or an end. -/
inductive LineRead where
  | bytes (b : Bytes) (poison : Option Status)
  | wait
  | ends (st : Status)
  deriving DecidableEq, Repr

/-- Bytes of a poisoned chunk of an object as its uppermost copy holds them. -/
def State.markedBytes (s : State) (e off n : Nat) (f : Option Nat) : Bytes :=
  match ((s.obj e).servers f).head? with
  | some c =>
    (match c.place' (c.partFor f) (off / chunkSize) with
     | some (sp, a) => s.rd sp (a + off % chunkSize) n
     | none => List.replicate n 0#8)
  | none => List.replicate n 0#8

/-- A DMA access waits for the recall of the lines it needs (R642). -/
def State.recallAll (l : List Nat) (s : State) : State := s.forEach l (fun x s => s.startRecall .none x)

/-- A line read from T2 may stay in the commons (R644): which do, the manual leaves to the device (log entry 46). -/
def State.keepT2 (a : Nat) (s : State) : State :=
  if !s.carries then s
  else
    let (k, s) := s.takeFree 1
    let x := (LineState.sharedClean, s.rd .companion (a / 64 * 64) 64)
    if k = 1#1 then s.modPower (fun p => { p with t2Lines := tput p.t2Lines (a / 64) x }) else s

/-- Lines of a destination that the companion holds (R642). -/
def State.writeHeld (s : State) (l : Loc) (n : Nat) : List Nat :=
  match l with
  | .mem sp a => if sp = .hbm then s.linesHeld a n true else []
  | .obj o off =>
    match (s.obj o).writer with
    | none => []
    | some c => (List.range c.parts.length).flatMap (fun p =>
        match c.place' p (off / chunkSize) with
        | some (sp, a) => if sp = .hbm then s.linesHeld (a + off % chunkSize) n true else []
        | none => [])

/-- Read bytes of one line for engine `e`; `w` is the number a read that waits for a repair is noted under (R362), and
`noted` says that its wait has ended. -/
def State.dmaRead (e w : Nat) (noted : Bool) (l : Loc) (n : Nat) (finding : ReadFinding) (s : State) : LineRead × State :=
  match l with
  | .mem sp a =>
    let hold := if sp = .hbm then s.linesHeld a n false else []
    if finding = .late ∧ sp = .companion then (.ends .tierLate, s)
    else if !hold.isEmpty then (.wait, s.recallAll hold)
    else
      let bad := decide (finding = .uncorrectable) || (sp == .companion && !s.carries)
      let s := if bad && sp != .companion then s.scrubBad sp a else s
      let p := bad || s.mem.poisoned (key sp a) n
      (.bytes (s.rd sp a n) (if p then some .poisoned else none), s)
  | .obj o off =>
    let f := engineFold e
    let mark : Status := if (s.obj o).readonly then .tierUncorrectable else .poisoned
    match s.readPlan o (off / chunkSize) f with
    | .at' sp a low =>
      let hold := if sp = .hbm then s.linesHeld (a + off % chunkSize) n false else []
      if low ∧ finding = .late then (.ends .tierLate, s)
      else if !hold.isEmpty then (.wait, s.recallAll hold)
      else
        let bs := s.rd sp (a + off % chunkSize) n
        if finding = .uncorrectable ∨ (low && !s.carries) = true then
          (.bytes bs (some mark), if low then s else s.scrubBad sp (a + off % chunkSize))
        else (.bytes bs none, if sp = .companion then s.keepT2 a else s)
    | .remote =>
      if finding = .late then (.ends .tierLate, s)
      else
        let (b, s) := s.freeBytes n
        (.bytes b (if finding = .uncorrectable then some mark else none), s)
    | .waitFill => (.wait, s)
    | .waitRepair =>
      if noted then (.bytes (s.markedBytes o off n f) (some mark), s)
      else if s.tiers.waiters.any (fun q => q.task == w) then (.wait, s)
      else (.wait, s.modTiers (fun x =>
        { x with waiters := x.waiters ++ [⟨o, off / chunkSize, s.time.now + 1000000 * (s.obj o).repairMs, w⟩] }))
    | .ends st => if st.poison then (.bytes (s.markedBytes o off n f) (some st), s) else (.ends st, s)

/-- Write bytes of one line, with their poison mark. -/
def State.dmaWrite (l : Loc) (b : Bytes) (poison : Bool) (s : State) : State :=
  match l with
  | .mem sp a =>
    let s := if sp = .companion then s.wrCompanion a b else s.wr sp a b
    if poison then { s with mem := s.mem.markN (key sp a) b.length } else s
  | .obj o off =>
    let s := s.objWrite o off b
    if poison then s.objPoison o off b.length else s

/-- Bytes from an offset to the end of its 64-byte line, at most `n`. -/
def inLine (a n : Nat) : Nat := min n (64 - a % 64)

/-- Offset within a side of line `l` of block `k` (R387). -/
def lineOff (d : Bytes) (src : Bool) (k l : Nat) : Nat :=
  if dPlanar d src then l * dStride d + k * 64 else (k * dPlanes d + l) * 64

/-- The source bit of destination bit `q` of a block, both counted in the order in which its lines are read and written
(Table 12-4). -/
def sourceBit (d : Bytes) (q : Nat) : Nat :=
  let n := dPlanes d
  let u := dUnitBits d
  match dShuffle d with
  | 2 | 3 | 5 => (q % 512 / u * n + q / 512) * u + q % 512 % u
  | 1 | 4 | 6 => q / u % n * 512 + q / u / n * u + q % u
  | _ => q / 64 * 64 + 4 * bitsOf (fieldAt d 8 8) (4 * (q % 64 / 4)) 4 + q % 4

/-- Destination line `l` of a block out of its source bytes, and whether one of its bits comes from a poisoned line. -/
def blockLine (d : Bytes) (block : Bytes) (poison : List Bool) (l : Nat) : Bytes × Bool :=
  let bits := fun (i : Nat) => (List.range 8).map (fun b => sourceBit d ((64 * l + i) * 8 + b))
  ((List.range 64).map (fun i => BitVec.ofNat 8
      (((bits i).zipIdx.map (fun p => b2n (bitOf (byteAt block (p.1 / 8)) (p.1 % 8)) * 2 ^ p.2)).sum)),
    (List.range 64).any (fun i => (bits i).any (fun q => poison.getD (q / 512) false)))

/-- The status after poison was read. -/
def DmaRun.taint (p : Option Status) (r : DmaRun) : DmaRun :=
  match p with
  | none => r
  | some st => { r with status := if r.status = .ok then st else r.status }

/-- The next line access of a descriptor: whether it writes, its offset on its side, its bytes, and how many bytes of its
width stay for the accesses after it. -/
structure LineMove where
  write : Bool
  off : Nat
  n : Nat
  left : Nat
  deriving DecidableEq, Repr

/-- The next access of a descriptor with SHUFFLE 0 (R386). -/
def DmaRun.plainMove (r : DmaRun) : Option LineMove :=
  let d := r.desc
  let full := if 0 < r.dstLeft then r.dstLeft
    else if dDw d ≤ r.buffer.length then dDw d
    else if r.read = dLength d then r.buffer.length else 0
  if r.srcLeft = 0 ∧ 0 < full then
    let n := inLine (dDst d + r.written) full
    some ⟨true, r.written, n, full - n⟩
  else
    let want := if 0 < r.srcLeft then r.srcLeft else min (dSw d) (dLength d - r.read)
    if want = 0 ∨ (r.srcLeft = 0 ∧ 64 < r.buffer.length + want) then none
    else
      let n := inLine (dSrc d + r.read) want
      some ⟨false, r.read, n, want - n⟩

/-- The next access of a shuffling descriptor (R387): a block is read as whole lines, then written as whole lines. -/
def DmaRun.blockMove (r : DmaRun) : Option LineMove :=
  let d := r.desc
  let n := dBlock d
  if r.read < dLength d ∧ r.read < r.written / n * n + n then
    some ⟨false, lineOff d true (r.read / n) (r.read % n / 64), 64, 0⟩
  else if r.written < r.read then some ⟨true, lineOff d false (r.written / n) (r.written % n / 64), 64, 0⟩
  else none

def DmaRun.move (r : DmaRun) : Option LineMove := if dShuffle r.desc = 0 then r.plainMove else r.blockMove

/-- The place of a line access. -/
def State.moveLoc (s : State) (e : Nat) (r : DmaRun) (m : LineMove) : Loc :=
  if m.write then s.dstLoc e r.chan r.desc m.off else s.srcLoc e r.chan r.desc m.off

/-- The bytes that a write of a descriptor stores, and whether they carry poison. -/
def DmaRun.outBytes (r : DmaRun) (m : LineMove) : Bytes × Bool :=
  if dShuffle r.desc = 0 then (r.buffer.take m.n, (r.poison.take m.n).contains true)
  else blockLine r.desc r.buffer r.poison (r.written % dBlock r.desc / 64)

/-- The descriptor after a write. -/
def DmaRun.wrote (m : LineMove) (r : DmaRun) : DmaRun :=
  if dShuffle r.desc = 0 then
    { r with written := r.written + m.n, buffer := r.buffer.drop m.n, poison := r.poison.drop m.n, dstLeft := m.left }
  else { r with written := r.written + m.n }

/-- The descriptor after a read. -/
def DmaRun.took (m : LineMove) (b : Bytes) (poison : Bool) (r : DmaRun) : DmaRun :=
  if dShuffle r.desc = 0 then
    { r with read := r.read + m.n, buffer := r.buffer ++ b, poison := r.poison ++ List.replicate m.n poison, srcLeft := m.left }
  else
    let fresh := r.read % dBlock r.desc = 0
    { r with read := r.read + m.n, buffer := (if fresh then [] else r.buffer) ++ b
             poison := (if fresh then [] else r.poison) ++ [poison] }

/-- One line access of a descriptor; `w` is the number its wait for a repair is noted under. A place whose unit accepts no
work ends the descriptor with NOT_READY, and one whose unit is gated holds it (R24 to R26, R54); an access that the unit's
crossing holds already is delivered (`held`). -/
def State.accessLine (e w : Nat) (r : DmaRun) (finding : ReadFinding) (held : Bool) (s : State) : DmaRun × State :=
  match r.move with
  | none => (r, s)
  | some m =>
    let l := s.moveLoc e r m
    if !held && !l.onCompanion && !s.locServes l then (if s.locGated then r else r.stop .notReady, s)
    else if m.write then
      let hold := s.writeHeld l m.n
      if !hold.isEmpty then (r, s.recallAll hold)
      else (r.wrote m, s.dmaWrite l (r.outBytes m).1 (r.outBytes m).2)
    else
      match s.dmaRead e w r.status.poison l m.n finding with
      | (.bytes b p, s) => ((r.taint p).took m b p.isSome, s)
      | (.wait, s) => (r, s)
      | (.ends st, s) =>
        -- a request ended under R358 counts at the half of the engine's die (R372)
        (r.stop st, if st = .tierLate then s.modMover ((engineFold e).getD 0 / 16) (fun m => { m with late := satInc 32 m.late })
          else s)

/-- HALF is due (R388). -/
def DmaRun.halfDue (r : DmaRun) : Bool := dBit r.desc 4 && !r.halfDone && !r.stopped && decide (dHalf r.desc ≤ r.written)

/-- The descriptor has nothing left to do. -/
def DmaRun.over (r : DmaRun) : Bool := r.stopped || decide (dLength r.desc ≤ r.written)

/-- Put a run back into its class slot of an engine. -/
def DmaEngine.setRun (radio : Bool) (r : DmaRun) (x : DmaEngine) : DmaEngine :=
  if radio then { x with radioRun := some r } else { x with grazingRun := some r }

/-- One line access of the descriptor in progress. -/
def State.access (e : Nat) (radio : Bool) (r : DmaRun) (finding : ReadFinding) (held : Bool) (s : State) : State :=
  if r.over then s
  else
    let w := 64 + 2 * e + b2n (!radio)
    let (r', s) := s.accessLine e w r finding held
    let moved := r'.written - r.written
    let half := r'.halfDue
    let s := s.modDma e (fun x => { DmaEngine.setRun radio { r' with halfDone := r'.halfDone || half } x with
      bytesMoved := satAdd 64 x.bytesMoved moved
      lineAccesses := if r' = r then x.lineAccesses else satInc 64 x.lineAccesses })
    let s := s.modChan e r.chan (fun x => { x with bytes := satAdd 64 x.bytes moved })
    if half then s.dmaNotify e r.chan 4 r.desc else s

/-- The signal core whose LDM the next line access of a descriptor reaches. -/
def State.ldmCore (s : State) (e : Nat) (r : DmaRun) : Option Nat :=
  match r.move with
  | some m =>
    (match s.moveLoc e r m with
     | .mem sp a => if sp = .radio ∧ 0x14000000 ≤ a ∧ a < 0x20000000 then some ((a - 0x14000000) / 524288) else none
     | .obj .. => none)
  | none => none

/-- The inbound crossing of a signal-core group, and its depth (Table 01-4). -/
def State.crossing (s : State) (g : Nat) : List ExtAccess := tget [] s.radio.crossings g
def State.modCrossing (g : Nat) (f : List ExtAccess → List ExtAccess) (s : State) : State :=
  { s with radio := { s.radio with crossings := tmod [] s.radio.crossings g f } }
def groupDepth : Nat := 16

/-- An external access to an LDM is presented to the crossing of its group: a full crossing leaves it with its sender
(R24), as does one of a gated group (R25). -/
def State.present (core : Nat) (src : ExtSource) (s : State) : State :=
  let q := s.crossing (core / 8)
  if q.any (fun x => decide (x.core = core ∧ x.src = src)) || decide (groupDepth ≤ q.length) ||
      decide (s.shown ⟨.sigGroup, core / 8⟩ = .sleeping) then s
  else s.modCrossing (core / 8) (fun q => q ++ [{ core := core, src := src }])

/-- One line access of the descriptor of a class: an access to an LDM goes through the crossing of the group and waits for
a phase (R257); a group that accepts no work completes it with NOT_READY (R26). -/
def State.lineAccess (e : Fin 64) (radio : Bool) (r : DmaRun) (finding : ReadFinding) (s : State) : State :=
  match if r.over then none else s.ldmCore e r with
  | some c => if s.accepts ⟨.sigCore, c⟩ then s.present c (.dma e radio) else s.access e radio r finding false
  | none => s.access e radio r finding false

/-- DMA_LINE_ACCESS: the descriptor in progress makes one line access; a grazing one is held where a radio-class channel
is ready, and resumes when none is (R380). -/
def execDmaLineAccess (engine : Fin 64) (finding : ReadFinding) (s : State) : Outcome :=
  .next (
    let y := s.dmaEng engine
    match y.radioRun, y.grazingRun with
    | some r, _ => s.lineAccess engine true r finding
    | none, some r =>
      if (s.readyChans engine true).isEmpty then
        (s.modDma engine (fun x => { x with grazingHeld := false })).lineAccess engine false r finding
      else s.modDma engine (fun x =>
        { x with grazingHeld := true, heldCount := if x.grazingHeld then x.heldCount else satInc 32 x.heldCount })
    | none, none => s)

/-! ## Completion (R379, R388, R389) -/

/-- A descriptor in progress completes; with CHAIN the channel's next one starts at once (R379). -/
def State.dmaFinish (e : Nat) (radio : Bool) (r : DmaRun) (s : State) : State :=
  let s := s.modDma e (fun x => if radio then { x with radioRun := none } else { x with grazingRun := none, grazingHeld := false })
  let later := 1 < (s.chan e r.chan).ring.length
  let s := s.dmaDone e r.chan r.status r.written
  if dBit r.desc 7 && later then s.dmaStart e r.chan else s

/-- DMA_DESCRIPTOR_COMPLETE (R388). -/
def execDmaDescriptorComplete (engine : Fin 64) (s : State) : Outcome :=
  .next (
    let y := s.dmaEng engine
    match y.radioRun, y.grazingRun with
    | some r, _ => if r.over then (s.dmaFinish engine true r).settleDrained else s
    | none, some r => if r.over then (s.dmaFinish engine false r).settleDrained else s
    | none, none => s)

end Sys2Proof.Machine
end

