-- ==== Sys2Proof/Machine/SignalCores.lean ====
section
/-! DEFINITION. Signal cores (chapter 08): one core cycle of the exposed pipeline, external LDM accesses and program
loading. -/

namespace Sys2Proof.Machine

/-! ## Registers -/

def SigCore.xReg (c : SigCore) (i : Nat) : List (Int × Int) :=
  let l := tget [] c.x i
  if l.isEmpty then List.replicate 16 (0, 0) else l
def SigCore.sReg (c : SigCore) (i : Nat) : W32 := tget 0#32 c.s i
def SigCore.pReg (c : SigCore) (i : Nat) : W32 := tget 0#32 c.p i

/-- The lanes of an accumulator. -/
def YReg.all (y : YReg) : List (Int × Int) := if y.lanes.isEmpty then List.replicate 16 (0, 0) else y.lanes

/-- Add to a 40-bit lane: the nearer limit where it would leave the range, and whether it did (R251). -/
def addY (a b : Int) : Int × Bool :=
  if 2 ^ 39 - 1 < a + b then (2 ^ 39 - 1, true) else if a + b < -2 ^ 39 then (-2 ^ 39, true) else (a + b, false)

/-- Products reach an accumulator. -/
def YReg.accumulate (y : YReg) (v : List (Int × Int)) : YReg :=
  let l := (y.all.zip v).map (fun p => (addY p.1.1 p.2.1, addY p.1.2 p.2.2))
  { lanes := l.map (fun p => (p.1.1, p.2.1)), sat := y.sat || l.any (fun p => p.1.2 || p.2.2) }

/-- A result reaches its register. -/
def SigCore.write (c : SigCore) (r : SReg) (v : SVal) : SigCore :=
  match r, v with
  | .x i, .lanes l => { c with x := tset [] c.x i l }
  | .y i, .mac l => { c with y := tmod {} c.y i (fun y => y.accumulate l) }
  | .y i, .lanes _ => { c with y := tset {} c.y i {} }
  | .s i, .word w => { c with s := tset 0#32 c.s i w }
  | .p i, .word w => { c with p := tset 0#32 c.p i w }
  | .n i, .word w => { c with n := tset 0#32 c.n i w }
  | .cb i, .word w => { c with cb := tset 0#32 c.cb i w }
  | .cl i, .word w => { c with cl := tset 0#32 c.cl i w }
  | _, _ => c

/-- An issue cycle begins: every outstanding result is one cycle nearer, and those that arrive are written in the order
of issue and slots (R249, R250). -/
def SigCore.arrive (c : SigCore) : SigCore :=
  let l := c.outstanding.map (fun o => { o with left := o.left - 1 })
  let c := (l.filter (fun o => o.left == 0)).foldl (fun c o => c.write o.reg o.val) c
  { c with outstanding := l.filter (fun o => o.left != 0) }

/-- A result will reach a register `lat` issue cycles on. -/
def SigCore.push (r : SReg) (v : SVal) (lat : Nat) (c : SigCore) : SigCore :=
  { c with outstanding := c.outstanding ++ [{ reg := r, val := v, left := lat, long := decide (1 < lat) }] }

/-! ## Complex arithmetic (R251, R252) -/

def cmulI (a b : Int × Int) : Int × Int := (a.1 * b.1 - a.2 * b.2, a.1 * b.2 + a.2 * b.1)
def conjI (b : Int × Int) : Int × Int := (b.1, -b.2)

/-- Round a component by a shift. -/
def roundBy (s : Nat) (v : Int) : Int := if s = 0 then v else (v + 2 ^ (s - 1)) / 2 ^ s

/-- Clamp to 16 bits, and whether it did. -/
def clamp16 (v : Int) : Int × Bool :=
  if 32767 < v then (32767, true) else if v < -32768 then (-32768, true) else (v, false)

/-- Shifted, rounded and clamped lanes, and whether any clamped. -/
def extract (s : Nat) (l : List (Int × Int)) : List (Int × Int) × Bool :=
  let r := l.map (fun p => (clamp16 (roundBy s p.1), clamp16 (roundBy s p.2)))
  (r.map (fun p => (p.1.1, p.2.1)), r.any (fun p => p.1.2 || p.2.2))

/-- A clamp sets SAT_STICKY and SAT of SC_EVENT. -/
def SigCore.sticky (b : Bool) (c : SigCore) : SigCore :=
  if b then { c with satSticky := true, event := c.event ||| 2 } else c

/-- The M slot (Table 08-4). -/
def SigCore.mSlot (op : MOp) (r c : SigCore) : SigCore :=
  let prod := fun (a b : Fin 16) (f : Int × Int → Int × Int) => ((r.xReg a).zip (r.xReg b)).map (fun p => cmulI p.1 (f p.2))
  match op with
  | .nop => c
  | .cmac y a b => c.push (.y y) (.mac (prod a b id)) 4
  | .cmacj y a b => c.push (.y y) (.mac (prod a b conjI)) 4
  | .cmsc y a b => c.push (.y y) (.mac ((prod a b id).map (fun p => (-p.1, -p.2)))) 4
  | .cmul d a b s => let e := extract s (prod a b id); (c.push (.x d) (.lanes e.1) 4).sticky e.2
  | .cmulj d a b s => let e := extract s (prod a b conjI); (c.push (.x d) (.lanes e.1) 4).sticky e.2

/-! ## The vector ALU slot -/

/-- A 16-bit component: the value where it fits, else a free value: the spec states no result beyond the range (log
entry 25). -/
def State.fit16 (v : Int) (s : State) : Int × State :=
  if -32768 ≤ v ∧ v ≤ 32767 then (v, s) else (let (b, s) := s.takeFree 16; (b.toInt, s))

/-- A free 16-bit component. -/
def State.free16 (s : State) : Int × State := let (b, s) := s.takeFree 16; (b.toInt, s)

/-- The exact result of a lane operation; none for the compare, whose result the spec does not state. -/
def laneExact (op : LaneOp) (a b : Int × Int) : Option (Int × Int) :=
  match op with
  | .add => some (a.1 + b.1, a.2 + b.2)
  | .sub => some (a.1 - b.1, a.2 - b.2)
  | .conj => some (conjI a)
  | .shl s => some (a.1 * 2 ^ s.val, a.2 * 2 ^ s.val)
  | .shr s => some (a.1 / 2 ^ s.val, a.2 / 2 ^ s.val)
  | .min => some (min a.1 b.1, min a.2 b.2)
  | .max => some (max a.1 b.1, max a.2 b.2)
  | .cmp => none

/-- Lanes of a lane operation. -/
def State.laneOps (op : LaneOp) : List ((Int × Int) × (Int × Int)) → State → List (Int × Int) × State
  | [], s => ([], s)
  | p :: r, s =>
    let (i, s) := match laneExact op p.1 p.2 with | some v => s.fit16 v.1 | none => s.free16
    let (q, s) := match laneExact op p.1 p.2 with | some v => s.fit16 v.2 | none => s.free16
    let (l, s) := State.laneOps op r s
    ((i, q) :: l, s)

/-- The A slot. -/
def SigCore.aSlot (op : AOp) (r c : SigCore) (s : State) : SigCore × State :=
  match op with
  | .nop => (c, s)
  | .yext d y sh => let e := extract sh (tget {} r.y y.val).all; ((c.push (.x d) (.lanes e.1) 2).sticky e.2, s)
  | .yclr y => (c.push (.y y) (.lanes []) 1, s)
  | .lane o d a b => let (l, s) := State.laneOps o ((r.xReg a).zip (r.xReg b)) s; (c.push (.x d) (.lanes l) 1, s)
  | .perm d a p =>
    (c.push (.x d) (.lanes ((List.range 16).map (fun i => (r.xReg a).getD (match p[i]? with | some k => k.val | none => i) (0, 0)))) 2, s)
  | .csum d a =>
    let t := (r.xReg a).foldl (fun (t : Int × Int) p => (t.1 + p.1, t.2 + p.2)) (0, 0)
    let (i, s) := s.fit16 t.1
    let (q, s) := s.fit16 t.2
    (c.push (.x d) (.lanes ((i, q) :: (r.xReg d).drop 1)) 3, s)

/-! ## The control slot -/

/-- A scalar operation; a shift by 32 or more has no stated result. -/
def State.scalar (op : SAlu) (a b : W32) (s : State) : W32 × State :=
  let wide := decide (32 ≤ b.toNat)
  match op with
  | .add => (a + b, s)
  | .sub => (a - b, s)
  | .and => (a &&& b, s)
  | .or => (a ||| b, s)
  | .xor => (a ^^^ b, s)
  | .shl => if wide then s.takeFree 32 else (a <<< b.toNat, s)
  | .shr => if wide then s.takeFree 32 else (a >>> b.toNat, s)
  | .asr => if wide then s.takeFree 32 else (a.sshiftRight b.toNat, s)

def SigCore.readC (c : SigCore) : CReg → W32
  | .p k => c.pReg k
  | .n k => tget 0#32 c.n k
  | .cb j => tget 0#32 c.cb j
  | .cl j => tget 0#32 c.cl j
  | .lcnt k => BitVec.ofNat 32 (tget 0 c.lcnt k.val)
  | .lbeg k => BitVec.ofNat 32 (tget 0 c.lbeg k.val)
  | .lend k => BitVec.ofNat 32 (tget 0 c.lend k.val)
  | .ipc => BitVec.ofNat 32 c.ipc
  | .istat => BitVec.ofNat 32 c.istat

/-- A register of the control slot takes a word, for the next bundle. -/
def SigCore.writeC (r : CReg) (w : W32) (c : SigCore) : SigCore :=
  match r with
  | .p k => c.push (.p k) (.word w) 1
  | .n k => c.push (.n k) (.word w) 1
  | .cb j => c.push (.cb j) (.word w) 1
  | .cl j => c.push (.cl j) (.word w) 1
  | .lcnt k => { c with lcnt := tset 0 c.lcnt k.val (w.toNat % 65536) }
  | .lbeg k => { c with lbeg := tset 0 c.lbeg k.val (w.toNat % 4096) }
  | .lend k => { c with lend := tset 0 c.lend k.val (w.toNat % 4096) }
  | .ipc => { c with ipc := w.toNat % 4096 }
  | .istat => { c with istat := w.toNat % 65536 }

/-- A branch is taken: its target issues after two more bundles. -/
def SigCore.branchTo (t : Nat) (c : SigCore) : SigCore := { c with branches := c.branches ++ [(t % 4096, 3)] }

/-- The C slot of the bundle at address `a` of a core; `r` holds the registers the bundle reads. The 24-bit results of RCP
and RSQ stand in bits 23 to 0 (Table 08-3; log entry 25). -/
def SigCore.cSlot (core : Nat) (op : COp) (a : Nat) (r c : SigCore) (s : State) : SigCore × State :=
  match op with
  | .nop => (c, s)
  | .alu o d x y => let (w, s) := s.scalar o (r.sReg x) (r.sReg y); (c.push (.s d) (.word w) 1, s)
  | .imm d v => (c.push (.s d) (.word v) 1, s)
  | .toReg g x => (c.writeC g (r.sReg x), s)
  | .fromReg d g => (c.push (.s d) (.word (r.readC g)) 1, s)
  | .rcp d x => (c.push (.s d) (.word ((Config.scRcp (r.sReg x)).setWidth 32)) 8, s)
  | .rsq d x => (c.push (.s d) (.word ((Config.scRsq (r.sReg x)).setWidth 32)) 8, s)
  | .loop k n e => ({ c with lbeg := tset 0 c.lbeg k.val (a + 1), lend := tset 0 c.lend k.val e.toNat,
                             lcnt := tset 0 c.lcnt k.val n.toNat }, s)
  | .brk k => ({ c with lcnt := (List.range (k.val + 1)).foldl (fun t i => tset 0 t i 0) c.lcnt }, s)
  | .branch t => (c.branchTo t.toNat, s)
  | .branchIf x t => (if r.sReg x = 0 then c else c.branchTo t.toNat, s)
  | .call d t => ((c.push (.s d) (.word (BitVec.ofNat 32 ((a + 3) % 4096))) 3).branchTo t.toNat, s)
  | .ret x => (c.branchTo (r.sReg x).toNat, s)
  | .reti => ({ (c.branchTo r.ipc) with ie := true, frozen := false, run := .running }, s)
  | .lthaw => ({ c with frozen := false }, s)
  | .lfreeze => ({ c with frozen := true }, s)
  | .setIe on => ({ c with ie := on }, s)
  | .signal k =>
    let o := core / 8 * 8 + k.val
    (c, if o = core then s else s.raiseIrq o 5)
  | .wait => ({ c with run := .waiting }, s)
  | .stop => ({ c with run := .halted }, s)

/-! ## Loads and stores (R253 to R256) -/

/-- An access: pointer, mode, whether it is a vector access, the value stored where it stores, or the register it
loads. -/
structure Access where
  p : Nat
  mode : AddrMode
  vector : Bool
  load : Option SReg
  store : Bytes
  deriving DecidableEq, Repr

/-- Bytes of 16 lanes. -/
def laneBytes (l : List (Int × Int)) : Bytes := l.flatMap (fun p => leBytes 2 (ofInt 16 p.1) ++ leBytes 2 (ofInt 16 p.2))

/-- 16 lanes of bytes. -/
def bytesLanes (b : Bytes) : List (Int × Int) :=
  (List.range 16).map (fun i => (toInt 16 (fieldAt b (4 * i) 2), toInt 16 (fieldAt b (4 * i + 2) 2)))

def accessOf (r : SigCore) : LOp → Option Access
  | .nop => none
  | .vload d p m => some ⟨p, m, true, some (.x d), []⟩
  | .sload d p m => some ⟨p, m, false, some (.s d), []⟩
  | .vstore a p m => some ⟨p, m, true, none, laneBytes (r.xReg a)⟩
  | .sstore a p m => some ⟨p, m, false, none, leBytes 4 (r.sReg a).toNat⟩

/-- CL of a circular or bit-reversed mode is invalid (R253). -/
def modeBad (r : SigCore) : AddrMode → Bool
  | .circ j => let l := (tget 0#32 r.cl j.val).toNat; l == 0 || l % 64 != 0 || decide (524288 < l)
  | .bitRev j => let l := (tget 0#32 r.cl j.val).toNat; decide (l < 64 ∨ 524288 < l ∨ 2 ^ log2N l ≠ l)
  | _ => false

/-- Reverse the low `w` bits of a number. -/
def revBits : Nat → Nat → Nat
  | 0, _ => 0
  | w + 1, v => v % 2 * 2 ^ w + revBits w (v / 2)

/-- The pointer after an access (Table 08-5). -/
def nextPointer (r : SigCore) (k : Nat) : AddrMode → Option W32
  | .plain => none
  | .postInc => some (r.pReg k + tget 0#32 r.n k)
  | .circ j =>
    let b := tget 0#32 r.cb j.val
    let l : Int := (tget 0#32 r.cl j.val).toNat
    some (b + BitVec.ofInt 32 (((r.pReg k - b).toInt + (tget 0#32 r.n k).toInt) % l))
  | .bitRev j =>
    let b := tget 0#32 r.cb j.val
    let w := log2N (tget 0#32 r.cl j.val).toNat - 6
    let o := (r.pReg k - b).toNat
    let f := bitsOf o 6 w
    let f' := revBits w ((revBits w f + 1) % 2 ^ w)
    some (b + BitVec.ofNat 32 (o - f * 64 + f' * 64))

/-- The fault of an access (Table 08-9): code and LDM address. -/
def accessBad (r : SigCore) (x : Access) : Option (Nat × Nat) :=
  let a := (r.pReg x.p).toNat
  if modeBad r x.mode then some (6, 0)
  else if 2 ^ 19 ≤ a then some (3, a)
  else if a % (if x.vector then 64 else 4) ≠ 0 then some (2, a)
  else none

/-- The value of a register loaded from an address of the LDM as it stands. -/
def State.ldmValue (s : State) (core a : Nat) (vector : Bool) : SVal :=
  let b := s.rd .radio (ldmBase core + a) (if vector then 64 else 4)
  if vector then .lanes (bytesLanes b) else .word (BitVec.ofNat 32 (leNat b))

/-- A load reads the LDM as it stands before this cycle's phase 1 store (R255); a store waits for the next cycle. A load
that a bank conflict delays is read in the stall cycle (`later`, R256). -/
def SigCore.access (core : Nat) (r : SigCore) (s : State) (later : Bool) (x : Access) (c : SigCore) : SigCore :=
  let a := (r.pReg x.p).toNat
  let c := match nextPointer r x.p x.mode with | some w => c.push (.p x.p) (.word w) 1 | none => c
  match x.load with
  | some g => if later then { c with late := some (g, a, x.vector) } else c.push g (s.ldmValue core a x.vector) 3
  | none => { c with store := some (a, x.store) }

/-- L0 and L1 address different lines of one bank (R256). -/
def bankConflict (r : SigCore) (a b : Option Access) : Bool :=
  match a, b with
  | some a, some b =>
    let x := (r.pReg a.p).toNat
    let y := (r.pReg b.p).toNat
    decide (x / 64 ≠ y / 64) && bitsOf x 6 4 == bitsOf y 6 4
  | _, _ => false

/-! ## Loops and interrupts (R258 to R268) -/

/-- Evaluate the levels from `k` on for the bundle at `x` (R259): the next address. -/
def SigCore.evalLoops (x : Nat) : List Nat → SigCore → Nat × SigCore
  | [], c => ((x + 1) % 4096, c)
  | k :: r, c =>
    let n := tget 0 c.lcnt k
    if n = 0 ∨ tget 0 c.lend k ≠ x then SigCore.evalLoops x r c
    else if 1 < n then (tget 0 c.lbeg k, { c with lcnt := tset 0 c.lcnt k (n - 1) })
    else SigCore.evalLoops x r { c with lcnt := tset 0 c.lcnt k 0 }

/-- The address that follows bundle `x`. -/
def SigCore.follow (x : Nat) (c : SigCore) : Nat × SigCore :=
  if c.frozen then ((x + 1) % 4096, c) else c.evalLoops x [0, 1, 2]

/-- Branches move on by one bundle; one that is through gives the next address. -/
def SigCore.stepBranches (next : Nat) (c : SigCore) : Nat × SigCore :=
  let l := c.branches.map (fun b => (b.1, b.2 - 1))
  let next := match l.find? (fun b => b.2 == 0) with | some b => b.1 | none => next
  (next, { c with branches := l.filter (fun b => b.2 != 0) })

/-- The lowest pending source (Table 08-6). -/
def SigCore.source (c : SigCore) : Option Nat := (List.range 7).find? (fun k => bitOf c.pending k)

/-- A long-latency result is outstanding (R263). -/
def SigCore.longOut (c : SigCore) : Bool := c.outstanding.any (fun o => o.long) || c.late.isSome

/-- Take the interrupt of a source (R264): IE in bit 3 of ISTAT, the source in bits 2 to 0 (log entry 25). -/
def SigCore.takeIrq (k : Nat) (c : SigCore) : SigCore :=
  { c with ipc := c.next, istat := k + 8, ie := false, frozen := true, next := k, run := .inHandler, entry := 2,
           pending := c.pending - 2 ^ k, interrupts := satInc 64 c.interrupts }

/-- The safe point of a bundle (R263). `ie` is IE as the bundle issued; a branch whose delay bundles are not through when
the bundle issues is outstanding (`branching`). -/
def SigCore.safePoint (sp ie branching : Bool) (c : SigCore) : SigCore :=
  match c.source with
  | some k =>
    if !sp || !ie || !(decide (c.run = .running) || decide (c.run = .waiting)) then c
    else if c.longOut || branching then { c with spDeferred := satInc 32 c.spDeferred }
    else c.takeIrq k
  | none => c

/-! ## One core cycle -/

/-- A fault stops the core (R270); it is not contained (R241). -/
def State.coreFault (core code addr : Nat) (s : State) : State :=
  let s := s.modSigCore core (fun c =>
    { c with run := .faulted, lastFault := code + 16 * c.next, faultAddr := addr, event := c.event ||| 1 })
  (s.setUnit ⟨.sigCore, core⟩ .failed).enterFenced

/-- The store of the previous bundle is written in phase 1 (R255). -/
def State.writeStore (core : Nat) (s : State) : State :=
  let c := s.sigCore core
  match c.store with
  | some (a, b) => (s.wr .radio (ldmBase core + a) b).modSigCore core (fun c => { c with store := none })
  | none => s

/-- The bundle in program memory at an address, as its slots decode (Table 08-2). -/
def SigCore.bundleAt (c : SigCore) (a : Nat) : Bundle :=
  let w := leNat ((List.range 32).map (fun i => tget 0#8 c.pm (32 * a + i)))
  let f := fun (i : Nat) => BitVec.ofNat 48 (bitsOf w i 48)
  let (x, y, m, l0, l1) :=
    (Config.slotC (f 8), Config.slotA (f 56), Config.slotM (f 104), Config.slotL0 (f 152), Config.slotL1 (f 200))
  { sp := bitOf w 0, c := x.getD .nop, a := y.getD .nop, m := m.getD .nop, l0 := l0.getD .nop, l1 := l1.getD .nop
    illegal := x.isNone || y.isNone || m.isNone || l0.isNone || l1.isNone }

/-- The fault of a bundle at address `a` (Table 08-9), its LDM address. A loaded word with a poison mark is uncorrectable
(log entry 25). -/
def bundleFault (a : Nat) (b : Bundle) (ecc : ScEcc) (bad : Nat → Bool → Bool) (r : SigCore) : Option (Nat × Nat) :=
  let l0 := accessOf r b.l0
  let l1 := accessOf r b.l1
  let loopBad := match b.c with | .loop _ _ e => decide (e.toNat < a + 1) | _ => false
  let storeInL0 := match l0 with | some x => x.load.isNone | none => false
  if ecc = .pm then some (5, 0)
  else if b.illegal || storeInL0 then some (1, 0)
  else if loopBad then some (6, 0)
  else
    match l0.bind (accessBad r), l1.bind (accessBad r) with
    | some f, _ | none, some f => some f
    | none, none =>
      let loads := [l0, l1].filterMap (fun x => x.bind (fun x =>
        if x.load.isSome then some ((r.pReg x.p).toNat, x.vector) else none))
      match if ecc = .ldm then loads.head? else loads.find? (fun p => bad p.1 p.2) with
      | some p => some (4, p.1)
      | none => none

/-- A bundle reads phase 0 or phase 1 of the LDM. -/
def Access.loads (x : Option Access) : Bool := match x with | some x => x.load.isSome | none => false

/-- Issue a bundle on a core (R248 to R266); `taken` says that an external access has phase 0 of the cycle. -/
def State.issueBundle (core : Nat) (b : Bundle) (ecc : ScEcc) (taken : Bool) (s : State) : State :=
  let r := (s.sigCore core).arrive
  let a := r.next
  let bad := fun (x : Nat) (v : Bool) => s.mem.poisoned (key .radio (ldmBase core + x)) (if v then 64 else 4)
  match bundleFault a b ecc bad r with
  | some (code, x) => ((s.writeStore core).modSigCore core (fun _ => { r with store := none })).coreFault core code x
  | none =>
    let l0 := accessOf r b.l0
    let l1 := accessOf r b.l1
    let clash := bankConflict r l0 l1
    let c := { r with
      pc := a
      issueCycles := satInc 64 r.issueCycles
      used0 := taken || Access.loads l0
      used1 := r.store.isSome || (Access.loads l1 && !clash)
      store := none }
    let (next, c) := c.follow a
    let c := SigCore.mSlot b.m r c
    let (c, s) := SigCore.aSlot b.a r c s
    let (c, s) := SigCore.cSlot core b.c a r c s
    let c := match l0 with | some x => SigCore.access core r s false x c | none => c
    let c := match l1 with | some x => SigCore.access core r s clash x c | none => c
    let next := match b.c with | .loop _ n e => if n = 0 then (e.toNat + 1) % 4096 else next | _ => next
    let branching := !c.branches.isEmpty
    let (next, c) := c.stepBranches next
    let c := { c with next }
    let c := if clash then { c with stall := c.stall + 1, bankStalls := satInc 64 c.bankStalls } else c
    let c := c.safePoint b.sp r.ie branching
    let s := s.writeStore core
    s.modSigCore core (fun _ => c)

/-- A core cycle without an issue: the pending store is written, and a delayed load read, in phase 1 (R255, R256). -/
def State.idleCycle (core : Nat) (taken : Bool) (f : SigCore → SigCore) (s : State) : State :=
  let c := s.sigCore core
  let v := c.late.map (fun p => (p.1, s.ldmValue core p.2.1 p.2.2))
  let stored := c.store.isSome
  (s.writeStore core).modSigCore core (fun c =>
    let c := match v with | some (g, v) => c.push g v 3 | none => c
    f { c with used0 := taken, used1 := v.isSome || stored, late := none })

/-- Words corrected in the cycle (Table 08-11). -/
def SigCore.corrected (ecc : ScEcc) (c : SigCore) : SigCore :=
  match ecc with
  | .ldmCorrected => { c with ldmCorrected := satInc 32 c.ldmCorrected }
  | .pmCorrected => { c with pmCorrected := satInc 32 c.pmCorrected }
  | .clean | .ldm | .pm => c

/-- A core that runs issues the bundle at its address in program memory, unless an external access has taken the phase that
the bundle needs (R257). -/
def State.runBundle (core : Nat) (ecc : ScEcc) (taken : Bool) (s : State) : State :=
  let c := s.sigCore core
  let b := c.bundleAt c.next
  if taken && Access.loads (accessOf c b.l0) then
    s.idleCycle core true (fun c => { c with extStalls := satInc 64 c.extStalls })
  else (s.modSigCore core (SigCore.corrected ecc)).issueBundle core b ecc taken

/-- BUNDLE_ISSUE (R248): one core cycle: a stall cycle, a cycle of interrupt entry, a wait, or an issue. External accesses
that wait for the LDM wait one cycle more (R257). -/
def execBundleIssue (core : Fin 384) (irq : ScIrq) (ecc : ScEcc) (s : State) : Outcome :=
  .next (
    let s := if irq.job then s.raiseIrq core 1 else s
    let s := if irq.firmware then s.raiseIrq core 6 else s
    let s := s.modCrossing (core / 8) (fun q =>
      q.map (fun x => if x.core = core.val then { x with waited := x.waited + 1 } else x))
    let c := s.sigCore core
    let taken := c.forced
    let s := s.modSigCore core (fun c => { c with forced := false })
    if !s.accepts ⟨.sigCore, core⟩ then s.idleCycle core taken id
    else if 0 < c.stall then s.idleCycle core taken (fun c => { c with stall := c.stall - 1 })
    else if 0 < c.entry then s.idleCycle core taken (fun c => { c with entry := c.entry - 1 })
    else
      match c.run with
      | .running | .inHandler => s.runBundle core ecc taken
      | .waiting =>
        if c.source.isSome then (s.modSigCore core (fun c => { c with run := .running })).runBundle core ecc taken
        else s.idleCycle core taken id
      | .halted | .faulted => s.idleCycle core taken id)

/-! ## External accesses and program loading -/

/-- The access that the crossing of a group holds first for a core is made and leaves it; that of a DMA descriptor moves
its line. -/
def State.serveExt (core : Nat) (x : ExtAccess) (finding : ReadFinding) (s : State) : State :=
  let s := s.modCrossing (core / 8) (fun q => q.erase x)
  match x.src with
  | .dma e radio =>
    let y := s.dmaEng e
    (match if radio then y.radioRun else y.grazingRun with
     | some r => if s.ldmCore e r = some core then s.access e radio r finding true else s
     | none => s)
  | .engine _ | .loader => s

/-- The phase that an external access may take: 0 or 1 left unused by a core that runs, any of a core that does not, or
after 64 core cycles phase 0 of the next cycle (R257). -/
def SigCore.freePhase (waited : Nat) (c : SigCore) : Option SigCore :=
  if !(decide (c.run = .running) || decide (c.run = .inHandler)) then some c
  else if !c.used0 then some { c with used0 := true }
  else if !c.used1 then some { c with used1 := true }
  else if 64 ≤ waited && !c.forced then some { c with forced := true }
  else none

/-- LDM_EXT_ACCESS (R257): an access of an engine or of the loader may arrive at the crossing, and the oldest access to the
core's LDM takes a phase that the core leaves unused, or forces one. -/
def execLdmExtAccess (core : Fin 384) (arrives : Option ExtSource) (finding : ReadFinding) (s : State) : Outcome :=
  .next (
    let s := match arrives with
      | some (.dma _ _) | none => s
      | some src => s.present core src
    match (s.crossing (core / 8)).find? (fun x => x.core == core.val) with
    | none => s
    | some x =>
      if s.shown ⟨.sigGroup, core / 8⟩ = .sleeping then s
      else
        match (s.sigCore core).freePhase x.waited with
        | some c => (s.modSigCore core (fun _ => c)).serveExt core x finding
        | none => s)

/-- A loaded core starts (R269). -/
def SigCore.load (image : Bytes) (start : BitVec 12) (c : SigCore) : SigCore :=
  { c with pm := image.zipIdx.foldl (fun t p => tset 0#8 t p.2 p.1) c.pm
           ie := false, frozen := false, lcnt := [], run := .running, next := start.toNat, branches := [],
           outstanding := [], stall := 0, entry := 0, late := none }

/-- PROGRAM_LOAD (R269): the group's loader writes the image that lies at an address of radio memory into cores that are
HALTED; a core that accepts no work completes it with NOT_READY (R26). -/
def execProgramLoad (group : Fin 48) (cores : List (Fin 8)) (image : ImageRange) (start : BitVec 12) (s : State) : Outcome :=
  .next (
    if 131072 < image.size ∨ 0x20000000 < image.start + image.size then s
    else
      let bytes := s.rd .radio image.start image.size
      s.forEach cores (fun k s =>
        let n := 8 * group.val + k.val
        if !s.accepts ⟨.sigCore, n⟩ then s.emit (.notReady ⟨.sigCore, n⟩)
        else if (s.sigCore n).run = .halted then s.modSigCore n (SigCore.load bytes start) else s))

end Sys2Proof.Machine
end

