-- ==== Sys2Proof/Machine/EngineMath.lean ====
section
/-! DEFINITION. What the radio engines compute (R291, Tables 09-11 and 09-12): the transform's scaling, LDPC and turbo
decoding, the choice of a polar path, the convolutional code. What R290 leaves to TS 38.212 and TS 36.212 stands here from
those documents, or is opaque in Config (log entry 89). -/

namespace Sys2Proof.Machine

/-! ## The job (Tables 09-9 and 09-11) -/

def jobOp (b : Bytes) : Nat := byteAt b 0
def jobClass (b : Bytes) : Nat := bitsOf (byteAt b 1) 0 3
def jobCell (b : Bytes) : Nat := bitsOf (fieldAt b 2 2) 0 9
def jobBarrierEn (b : Bytes) : Bool := bitOf (byteAt b 3) 1
def jobNotify (b : Bytes) : Bool := bitOf (byteAt b 3) 2
def jobBarrier (b : Bytes) : Nat := byteAt b 4
def jobSource (b : Bytes) : Nat := fieldAt b 6 2
def jobIn (b : Bytes) : Nat := fieldAt b 8 4
def jobInLen (b : Bytes) : Nat := fieldAt b 12 4
def jobOut (b : Bytes) : Nat := fieldAt b 16 4
def jobOutLen (b : Bytes) : Nat := fieldAt b 20 4
def jobDeadline (b : Bytes) : Nat := fieldAt b 24 4
def jobStatusAddr (b : Bytes) : Nat := fieldAt b 28 4
def jobHarq (b : Bytes) : Nat := fieldAt b 48 8
def jobNew (b : Bytes) : Bool := bitOf (fieldAt b 32 4) 25

/-- The parameters of a job (Table 09-11), as a number whose bit 0 is bit 256 of the job. -/
def jobParams (b : Bytes) : Nat := leNat ((b.drop 32).take 32)

/-! ## Bits and CRCs -/

/-- Bits of bytes, first bit most significant, as in TS 38.212 (log entry 89). -/
def bytesBits (b : Bytes) : List Bool := b.flatMap (fun x => (List.range 8).map (fun i => x.getLsbD (7 - i)))

/-- Whole bytes of bits, the last one filled with zeros; `fuel` bounds them. -/
def bitsBytes : Nat → List Bool → Bytes
  | 0, _ => []
  | n + 1, l => BitVec.ofNat 8 (((List.range 8).map (fun i => b2n (l.getD i false) * 2 ^ (7 - i))).sum) :: bitsBytes n (l.drop 8)

def packBits (l : List Bool) : Bytes := bitsBytes (ceilDiv l.length 8) l

/-- The number that bits spell, the first most significant. -/
def bitsNat (l : List Bool) : Nat := l.foldl (fun n b => 2 * n + b2n b) 0
def natBits (w n : Nat) : List Bool := (List.range w).map (fun i => bitOf n (w - 1 - i))

/-- Remainder of a bit string by a generator of degree `w` whose lower coefficients are `poly`. -/
def crcOf (w poly : Nat) (l : List Bool) : Nat :=
  (l ++ List.replicate w false).foldl (fun r b =>
    let v := 2 * r + b2n b
    if v < 2 ^ w then v else (v - 2 ^ w) ^^^ poly) 0

/-- The generators of TS 38.212 and TS 36.212: length and lower coefficients. -/
def crc24a : Nat × Nat := (24, 0x864CFB)
def crc24b : Nat × Nat := (24, 0x800063)
def crc24c : Nat × Nat := (24, 0xB2B117)
def crc16 : Nat × Nat := (16, 0x1021)
def crc11 : Nat × Nat := (11, 0x621)
def crc8 : Nat × Nat := (8, 0x9B)
def crc6 : Nat × Nat := (6, 0x21)

/-- A bit string ends with its CRC: received exclusive-or computed. -/
def crcResidue (c : Nat × Nat) (l : List Bool) : Nat :=
  bitsNat (l.drop (l.length - c.1)) ^^^ crcOf c.1 c.2 (l.take (l.length - c.1))

/-! ## FFT and DFT -/

/-- The exponent s of the output scale: half of log2 N, rounded up. -/
def fftShift (n : Nat) : Nat := ((List.range 8).find? (fun s => decide (n ≤ 4 ^ s))).getD 8

/-- One block: the transform in 24-bit internal precision (`Config.dft`), scaled, rounded half up, saturated; with the
number of samples that saturated. -/
def fftBlock (inverse : Bool) (x : List (Int × Int)) : List (Int × Int) × Nat :=
  let n := x.length
  let y := (List.range n).map (fun i => let p := Config.dft inverse x i; (p.1.toInt, p.2.toInt))
  let r := y.map (fun p => (clamp16 (roundBy (fftShift n) p.1), clamp16 (roundBy (fftShift n) p.2)))
  (r.map (fun p => (p.1.1, p.2.1)), r.countP (fun p => p.1.2 || p.2.2))

/-- Samples of 16-bit I and Q. -/
def samplesOf (b : Bytes) : List (Int × Int) :=
  (List.range (b.length / 4)).map (fun i => (toInt 16 (fieldAt b (4 * i) 2), toInt 16 (fieldAt b (4 * i + 2) 2)))

/-- Output bytes and saturated samples of an FFT or DFT job: SYMBOLS × ANTENNAS blocks one behind the other; a forward
transform removes, an inverse one inserts, the cyclic prefix, and WINDOW overlaps the symbols. -/
def fftJob (b input : Bytes) : Bytes × Nat :=
  let p := jobParams b
  let n := bitsOf p 0 13
  let inverse := bitOf p 13
  let cp := if jobOp b = 1 ∧ bitOf p 14 = true then bitsOf p 16 16 else 0
  let skip := if inverse then 0 else cp
  let x := samplesOf input
  let blocks := (List.range (bitsOf p 32 8 * bitsOf p 48 7)).map (fun k =>
    fftBlock inverse ((List.range n).map (fun i => x.getD (k * (n + skip) + skip + i) (0, 0))))
  let out := blocks.map (fun y => if inverse then y.1.drop (n - cp) ++ y.1 else y.1)
  let flat := if jobOp b = 1 && inverse && bitOf p 15 then Config.window (bitsOf p 40 8) cp out else out.flatten
  (laneBytes flat, (blocks.map (fun y => y.2)).sum)

/-! ## Code blocks of a transport block (TS 38.212 section 5.2.2, TS 36.212 section 5.1.2) -/

/-- The 51 lifting sizes. -/
def liftSizes : List Nat :=
  (List.range 385).filter (fun z => decide (2 ≤ z) && [2, 3, 5, 7, 9, 11, 13, 15].any (fun a =>
    (List.range 8).any (fun j => a * 2 ^ j == z)))

/-- The 188 interleaver sizes. -/
def turboSizes : List Nat :=
  (List.range 60).map (fun i => 40 + 8 * i) ++ (List.range 32).map (fun i => 528 + 16 * i) ++
  (List.range 32).map (fun i => 1056 + 32 * i) ++ (List.range 64).map (fun i => 2112 + 64 * i)

/-- How a transport block is cut: the code blocks' sizes K with their filler bits, their circular buffers' lengths NCB, and
the lifting size of LDPC. -/
structure Cut where
  blocks : List (Nat × Nat)
  ncb : Nat
  z : Nat
  deriving DecidableEq, Repr

/-- The CRC of a transport block. -/
def tbCrc (turbo : Bool) (tbs : Nat) : Nat × Nat := if turbo || decide (3824 < tbs) then crc24a else crc16

def ldpcCut (tbs bg : Nat) : Cut :=
  let b := tbs + (tbCrc false tbs).1
  let kcb := if bg = 0 then 8448 else 3840
  let c := if b ≤ kcb then 1 else ceilDiv b (kcb - 24)
  let k' := ceilDiv (if c = 1 then b else b + 24 * c) c
  let kb := if bg = 0 then 22 else if 640 < b then 10 else if 560 < b then 9 else if 192 < b then 8 else 6
  let z := (liftSizes.find? (fun z => decide (k' ≤ kb * z))).getD 384
  let k := (if bg = 0 then 22 else 10) * z
  ⟨List.replicate c (k, k - k'), (if bg = 0 then 66 else 50) * z, z⟩

def turboCut (tbs : Nat) : Cut :=
  let b := tbs + 24
  let c := if b ≤ 6144 then 1 else ceilDiv b 6120
  let b' := if c = 1 then b else b + 24 * c
  let kp := (turboSizes.find? (fun k => decide (b' ≤ c * k))).getD 6144
  let km := ((turboSizes.filter (fun k => decide (k < kp))).getLast?).getD kp
  let cm := if c = 1 ∨ km = kp then 0 else (c * kp - b') / (kp - km)
  let sizes := List.replicate cm km ++ List.replicate (c - cm) kp
  ⟨sizes.zipIdx.map (fun p => (p.1, if p.2 = 0 then sizes.sum - b' else 0)), 3 * (32 * ceilDiv (kp + 4) 32), 0⟩

/-- The cut of a decode job; limited buffer rate matching shortens its buffers. -/
def jobCut (b : Bytes) : Cut :=
  let p := jobParams b
  let x := if jobClass b = 4 then turboCut (bitsOf p 0 24) else ldpcCut (bitsOf p 0 24) (bitsOf p 24 1)
  if bitOf p 39 then { x with ncb := min x.ncb (Config.lbrmSize b) } else x

/-- The received LLRs of every circular buffer after descrambling and rate recovery, 0 where no bit was received. -/
def receivedLlrs (b input : Bytes) : List Bytes :=
  let x := jobCut b
  (List.range x.blocks.length).map (fun c => (List.range x.ncb).map (fun i => Config.recovered b input c i))

/-- Signed 8-bit LLR: −128 is read as −127 (R290). -/
def llrOf (b : Byte) : Int := max (-127) b.toInt

/-! ## LDPC decoding: layered offset min-sum -/

/-- Two's complement saturation to `w` bits. -/
def satBits (w : Nat) (v : Int) : Int := max (-(2 ^ (w - 1) : Nat)) (min ((2 ^ (w - 1) : Nat) - 1) v)

/-- A row of the base graph: its columns in ascending order with their shifts. -/
def graphRow (bg z row : Nat) : List (Nat × Nat) :=
  (List.range (if bg = 0 then 68 else 52)).filterMap (fun c => (Config.baseEntry bg z row c).map (fun s => (c, s)))

/-- Posteriors by bit, and messages by row, edge and lane. -/
structure Ldpc where
  post : List Int
  msgs : List (Nat × Int)
  deriving DecidableEq, Repr

/-- The sign product of a list of messages, and its two smallest magnitudes. -/
def minSum (l : List Int) : Bool × Nat × Nat :=
  l.foldl (fun (t : Bool × Nat × Nat) v =>
    let a := v.natAbs
    (xor t.1 (decide (v < 0)), min t.2.1 a, if a < t.2.1 then t.2.1 else min t.2.2 a)) (false, 2 ^ 20, 2 ^ 20)

/-- One check of a row at lane `k`: 7-bit messages in, offset 1, new messages and 10-bit posteriors out. -/
def Ldpc.check (z row k : Nat) (edges : List (Nat × Nat)) (x : Ldpc) : Ldpc :=
  let at' := fun (e : Nat × Nat) => e.1 * z + (k + e.2) % z
  let key := fun (e : Nat × Nat) => (row * 128 + e.1) * 512 + k
  let q := edges.map (fun e => satBits 7 (x.post.getD (at' e) 0 - tget 0 x.msgs (key e)))
  let (sg, m1, m2) := minSum q
  let firstMin := q.findIdx (fun v => v.natAbs == m1)
  (edges.zip q).zipIdx.foldl (fun x p =>
    let mag : Int := ((if p.2 = firstMin then m2 else m1) - 1 : Nat)
    let r := satBits 7 (if xor sg (decide (p.1.2 < 0)) then -mag else mag)
    { post := x.post.set (at' p.1.1) (satBits 10 (p.1.2 + r)), msgs := tset 0 x.msgs (key p.1.1) r }) x

/-- One full iteration: the layers in ascending row order, the columns of a layer in ascending order. -/
def Ldpc.iterate (bg z : Nat) (x : Ldpc) : Ldpc :=
  (List.range (if bg = 0 then 46 else 42)).foldl (fun x row =>
    (List.range z).foldl (fun x k => x.check z row k (graphRow bg z row)) x) x

/-- Hard decisions: positive values favour bit 0. -/
def Ldpc.bits (n : Nat) (x : Ldpc) : List Bool := (x.post.take n).map (fun v => decide (v < 0))

/-- Every parity check holds. -/
def Ldpc.holds (bg z : Nat) (x : Ldpc) : Bool :=
  (List.range (if bg = 0 then 46 else 42)).all (fun row => (List.range z).all (fun k =>
    ((graphRow bg z row).countP (fun e => decide (x.post.getD (e.1 * z + (k + e.2) % z) 0 < 0))) % 2 == 0))

/-- Iterate until the stop of R291 or the limit: the decoder and the iterations made. -/
def iterate {α : Type} (f : α → α) (stop : α → Bool) : Nat → Nat → α → α × Nat
  | 0, n, x => (x, n)
  | k + 1, n, x => let y := f x; if stop y then (y, n + 1) else iterate f stop k (n + 1) y

/-- One LDPC code block out of its circular buffer: its bits without filler, and the iterations. The first 2 Z bits are not
sent, and filler bits are known to be 0. -/
def ldpcBlock (b : Bytes) (x : Cut) (k filler : Nat) (buffer : Bytes) : List Bool × Nat :=
  let p := jobParams b
  let bg := bitsOf p 24 1
  let z := x.z
  let n := (if bg = 0 then 68 else 52) * z
  let start : Ldpc := ⟨(List.range n).map (fun v =>
    if v < 2 * z then 0 else if k - filler ≤ v ∧ v < k then 511 else (buffer[v - 2 * z]?.map llrOf).getD 0), []⟩
  let cut := fun (y : Ldpc) => y.bits (k - filler)
  let stop := fun (y : Ldpc) => bitOf p 38 && y.holds bg z &&
    (decide (x.blocks.length ≤ 1) || decide (crcResidue crc24b (cut y) = 0))
  let (y, it) := iterate (Ldpc.iterate bg z) stop (bitsOf p 32 6) 0 start
  (cut y, it)

/-! ## Turbo decoding: max-log-MAP -/

/-- The next state and parity bit of the constituent encoder (TS 36.212) from state s1 s2 s3. -/
def turboStep (s : Nat) (u : Bool) : Nat × Bool :=
  let (a, b, c) := (bitOf s 2, bitOf s 1, bitOf s 0)
  let f := xor u (xor b c)
  (b2n f * 4 + b2n a * 2 + b2n b, xor f (xor a c))

/-- The value of a bit in a metric. -/
def sgn (b : Bool) (v : Int) : Int := if b then -v else v

/-- One step of the forward metrics: for every state the larger of those that reach it; none where none does. -/
def forward (sys par : Int) (m : List (Option Int)) : List (Option Int) :=
  (List.range 8).map (fun t =>
    ((List.range 8).flatMap (fun s => [false, true].filterMap (fun u =>
      let r := turboStep s u
      if r.1 = t then (m.getD s none).map (fun v => v + sgn u sys + sgn r.2 par) else none))).max?)

/-- One step of the backward metrics. -/
def backward (sys par : Int) (m : List (Option Int)) : List (Option Int) :=
  (List.range 8).map (fun s =>
    ([false, true].filterMap (fun u => let r := turboStep s u; (m.getD r.1 none).map (fun v => v + sgn u sys + sgn r.2 par))).max?)

def zeroState : List (Option Int) := some 0 :: List.replicate 7 none

/-- The input bit that ends the trellis from a state. -/
def tailBit (s : Nat) : Bool := xor (bitOf s 1) (bitOf s 0)

/-- Backward metrics of a tail step: only the input that shifts a zero in. -/
def backTail (sys par : Int) (m : List (Option Int)) : List (Option Int) :=
  (List.range 8).map (fun s =>
    let u := tailBit s
    let r := turboStep s u
    (m.getD r.1 none).map (fun v => v + sgn u sys + sgn r.2 par))

/-- The LLRs that one constituent decoder gives: twice the metrics' difference, halved. -/
def siso (steps tail : List (Int × Int)) : List Int :=
  let ends := tail.foldr (fun p m => backTail p.1 p.2 m) zeroState
  let back := steps.foldr (fun p (l : List (List (Option Int))) => backward p.1 p.2 (l.headD ends) :: l) []
  let after := back.drop 1 ++ [ends]
  let fwd := (steps.foldl (fun (t : List (List (Option Int)) × List (Option Int)) p =>
    (t.1 ++ [t.2], forward p.1 p.2 t.2)) ([], zeroState)).1
  (List.range steps.length).map (fun i =>
    let p := steps.getD i (0, 0)
    let best := fun (u : Bool) => ((List.range 8).filterMap (fun s =>
      let r := turboStep s u
      match (fwd.getD i []).getD s none, (after.getD i []).getD r.1 none with
      | some a, some b => some (a + b + sgn u p.1 + sgn r.2 p.2)
      | _, _ => none)).max?
    match best false, best true with
    | some a, some b => (a - b) / 2
    | _, _ => 0)

/-- The LLR at a place of a turbo code block: stream 0 to 2, step; tails follow the K steps. -/
def turboLlr (k : Nat) (buffer : Bytes) (stream i : Nat) : Int := (buffer[Config.turboPlace k stream i]?.map llrOf).getD 0

/-- One turbo code block: its bits without filler and the full iterations. The extrinsic values are scaled by 3/4 rounded
towards minus infinity. -/
def turboBlock (b : Bytes) (x : Cut) (k filler : Nat) (buffer : Bytes) : List Bool × Nat :=
  let p := jobParams b
  let l := turboLlr k buffer
  let sys := (List.range k).map (fun i => if i < filler then 512 else l 0 i)
  let par := fun (st : Nat) => (List.range k).map (l st)
  let tails := fun (e : Nat) => (List.range 3).map (fun i => (l 3 (2 * (3 * e + i)), l 3 (2 * (3 * e + i) + 1)))
  let perm := (List.range k).map (fun i => let q := Config.qpp k; (q.1 * i + q.2 * i * i) % k)
  let scale := fun (v : Int) => 3 * v / 4
  let once := fun (t : List Int × List Int) =>
    let a1 := sys.zipWith (fun s a => s + a) t.1
    let e1 := ((siso (a1.zip (par 1)) (tails 0)).zipWith (fun v a => v - a) a1).map scale
    let a2 := perm.map (fun j => sys.getD j 0 + e1.getD j 0)
    let out := siso (a2.zip (par 2)) (tails 1)
    let e2 := (out.zipWith (fun v a => v - a) a2).map scale
    let place := fun (v : List Int) => (perm.zip v).foldl (fun (r : List Int) q => r.set q.1 q.2) (List.replicate k 0)
    (place e2, place out)
  let cut := fun (t : List Int × List Int) => (t.2.drop filler).map (fun v => decide (v < 0))
  let crc := if x.blocks.length ≤ 1 then crc24a else crc24b
  let (y, it) := iterate once (fun t => bitOf p 38 && decide (crcResidue crc (cut t) = 0)) (bitsOf p 32 6) 0
    (List.replicate k 0, [])
  (cut y, it)

/-! ## A decode job of transport blocks -/

/-- What a decode of a transport block gives. -/
structure Decoded where
  crcOk : Bool
  iters : Nat
  itersAll : Nat
  failing : Nat
  output : Bytes
  deriving DecidableEq, Repr

/-- LDPC or turbo decoding of the circular buffers of a transport block. -/
def decodeBlocks (b : Bytes) (buffers : List Bytes) : Decoded :=
  let x := jobCut b
  let turbo := jobClass b == 4
  let tbs := bitsOf (jobParams b) 0 24
  let many := decide (1 < x.blocks.length)
  let d := (x.blocks.zip buffers).map (fun q => if turbo then turboBlock b x q.1.1 q.1.2 q.2 else ldpcBlock b x q.1.1 q.1.2 q.2)
  let tb := d.flatMap (fun q => if many then q.1.take (q.1.length - 24) else q.1)
  let ok := decide (crcResidue (tbCrc turbo tbs) tb = 0)
  { crcOk := ok, iters := (d.map (fun q => q.2)).foldl max 0, itersAll := (d.map (fun q => q.2)).sum
    failing := if many then d.countP (fun q => decide (crcResidue crc24b q.1 ≠ 0)) else b2n (!ok)
    output := packBits (tb.take tbs) }

/-! ## Polar decoding -/

/-- The CRC of a polar block: that of Table 09-11 for its channel and payload. -/
def polarCrc (channel k : Nat) : Nat × Nat :=
  if channel = 1 then (if k < 20 then crc6 else crc11) else crc24c

/-- The 8 paths that survive (`Config.polarPath`): metric and payload with CRC, by path index; a DCI's CRC begins with 24
ones. -/
def polarPaths (b input : Bytes) : List (Nat × List Bool) :=
  let p := jobParams b
  let n := bitsOf p 0 11 + (polarCrc (bitsOf p 11 2) (bitsOf p 0 11)).1
  (List.range 8).map (fun i => let q := Config.polarPath b input i; (q.1, (List.range n).map q.2))

/-- Received exclusive-or computed CRC of a path, before the mask. -/
def polarResidue (b : Bytes) (bits : List Bool) : Nat :=
  let p := jobParams b
  let c := polarCrc (bitsOf p 11 2) (bitsOf p 0 11)
  let ones := if bitsOf p 11 2 = 0 then List.replicate 24 true else []
  crcResidue c (ones ++ bits)

/-- The path of least metric, the lowest index where metrics are equal. -/
def bestPath (l : List (Nat × List Bool)) : Option (Nat × List Bool) :=
  l.foldl (fun (o : Option (Nat × List Bool)) q =>
    match o with
    | none => some q
    | some r => if q.1 < r.1 then some q else o) none

/-- A decoded block: its payload bytes, CRC_OK, residue, metric, CONSISTENT. -/
structure BlockDecoded where
  output : Bytes
  crcOk : Bool
  residue : Nat
  metric : Nat
  consistent : Bool := false
  deriving DecidableEq, Repr

/-- The surviving path with the lowest metric that passes the CRC; where none does, the lowest-metric path with CRC_OK 0. -/
def polarDecode (b input : Bytes) : BlockDecoded :=
  let p := jobParams b
  let paths := polarPaths b input
  let passes := fun (q : Nat × List Bool) => decide (polarResidue b q.2 = bitsOf p 32 16)
  let good := bestPath (paths.filter passes)
  let q := (good.or (bestPath paths)).getD (0, [])
  { output := packBits (q.2.take (bitsOf p 0 11)), crcOk := good.isSome, residue := polarResidue b q.2, metric := q.1 % 65536 }

/-! ## The convolutional code -/

/-- The outputs of the generators 133, 171 and 165 for a bit entering a state: the newest bit of a state is its most
significant one (log entry 89). -/
def convOut (s : Nat) (u : Bool) : List Bool :=
  let r := b2n u * 64 + s
  [0o133, 0o171, 0o165].map (fun g => decide (((List.range 7).countP (fun i => bitOf r i && bitOf g i)) % 2 = 1))

def convNext (s : Nat) (u : Bool) : Nat := (b2n u * 64 + s) / 2

/-- The state that the last 6 bits form. -/
def convStart (l : List Bool) : Nat := (l.drop (l.length - 6)).foldl convNext 0

/-- The three output streams of a tail-biting block. -/
def convEncode (l : List Bool) : List (List Bool) :=
  let (_, o) := l.foldl (fun (t : Nat × List (List Bool)) u => (convNext t.1 u, t.2 ++ [convOut t.1 u])) (convStart l, [])
  (List.range 3).map (fun k => o.map (fun x => x.getD k false))

/-- The column permutation of the sub-block interleaver for this code (TS 36.212). -/
def convColumns : List Nat :=
  [1, 17, 9, 25, 5, 21, 13, 29, 3, 19, 11, 27, 7, 23, 15, 31, 0, 16, 8, 24, 4, 20, 12, 28, 2, 18, 10, 26, 6, 22, 14, 30]

/-- The circular buffer of a block of `d` steps: (stream, step) of each place that holds a bit. -/
def convBuffer (d : Nat) : List (Nat × Nat) :=
  let rows := ceilDiv d 32
  let pad := rows * 32 - d
  (List.range 3).flatMap (fun st => convColumns.flatMap (fun c => (List.range rows).filterMap (fun r =>
    if pad ≤ r * 32 + c then some (st, r * 32 + c - pad) else none)))

/-- The CRC of a convolutional job; none for CRC 0. -/
def convCrc (b : Bytes) : Option (Nat × Nat) :=
  match bitsOf (jobParams b) 11 2 with
  | 1 => some crc8 | 2 => some crc16 | _ => none

/-- Bits of the coded block: payload and CRC. -/
def convLength (b : Bytes) : Nat := bitsOf (jobParams b) 0 11 + ((convCrc b).map (fun c => c.1)).getD 0

/-- Encode: CRC with its mask, the code, the circular buffer read E bits long. -/
def convEncodeJob (b input : Bytes) : Bytes :=
  let p := jobParams b
  let payload := (bytesBits input ++ List.replicate (bitsOf p 0 11) false).take (bitsOf p 0 11)
  let bits := match convCrc b with
    | some c => payload ++ natBits c.1 (crcOf c.1 c.2 payload ^^^ (bitsOf p 16 16 % 2 ^ c.1))
    | none => payload
  let o := convEncode bits
  let buf := convBuffer bits.length
  packBits ((List.range (bitsOf p 32 16)).map (fun i =>
    let q := buf.getD (i % buf.length) (0, 0)
    (o.getD q.1 []).getD q.2 false))

/-- Rate recovery: LLRs by (stream, step); repeated positions add with saturation to ±127. -/
def convRecover (b input : Bytes) : List (Nat × Int) :=
  let buf := convBuffer (convLength b)
  (input.take (bitsOf (jobParams b) 32 16)).zipIdx.foldl (fun t q =>
    let x := buf.getD (q.2 % buf.length) (0, 0)
    tmod 0 t (3 * x.2 + x.1) (fun v => max (-127) (min 127 (v + llrOf q.1)))) []

/-- A 16-bit path metric is larger, by the sign of the difference modulo 2^16. -/
def metricLess (a b : Nat) : Bool := decide (sdiff 16 a b < 0)

/-- One step of the decoder: the new metrics and the predecessor of every state. -/
def viterbiStep (l : List Int) (m : List Nat) : List Nat × List Nat :=
  let r := (List.range 64).map (fun t =>
    let u := bitOf t 5
    let cand := [2 * (t % 32), 2 * (t % 32) + 1].map (fun s =>
      (s, (((m.getD s 0 : Nat) : Int) + ((convOut s u).zipWith (fun c v => sgn c v) l).sum)))
    let x := cand.getD 0 (0, 0)
    let y := cand.getD 1 (0, 0)
    let (xm, ym) := (ofInt 16 x.2, ofInt 16 y.2)
    if metricLess xm ym then (ym, y.1) else (xm, x.1))
  (r.map (fun q => q.1), r.map (fun q => q.2))

/-- The largest of the metrics with its state, the lowest state number on ties. -/
def bestState (m : List Nat) : Nat × Nat :=
  m.zipIdx.foldl (fun (t : Nat × Nat) q => if metricLess t.2 q.1 then (q.2, q.1) else t) (0, m.getD 0 0)

/-- Table 09-12: W steps before the block, the block, W steps behind it; the survivors traced back from the best state. -/
def convDecode (b input : Bytes) : BlockDecoded :=
  let p := jobParams b
  let n := convLength b
  let w := bitsOf p 48 7
  let llr := convRecover b input
  let steps := (List.range w).map (fun i => (i + n * w - w) % n) ++ List.range n ++ (List.range w).map (fun i => i % n)
  let (ms, ps) := steps.foldl (fun (t : List (List Nat) × List (List Nat)) i =>
    let r := viterbiStep ((List.range 3).map (fun k => tget 0 llr (3 * i + k))) (t.1.headD [])
    (r.1 :: t.1, r.2 :: t.2)) ([List.replicate 64 0], [])
  let (last, final) := bestState (ms.headD [])
  -- the states along the survivor, first step first, ending with the last state
  let path := ps.foldl (fun (t : List Nat) prev => prev.getD (t.headD 0) 0 :: t) [last]
  let bits := (List.range n).map (fun i => bitOf (path.getD (w + i + 1) 0) 5)
  let start := (bestState (ms.reverse.getD w [])).2
  let a := bitsOf p 0 11
  let residue := match convCrc b with | some c => crcResidue c bits | none => 0
  { output := packBits (bits.take a)
    crcOk := match convCrc b with | some c => decide (residue = bitsOf p 16 16 % 2 ^ c.1) | none => Config.crcOkWithout
    residue, metric := (final + 65536 - start) % 65536, consistent := decide (path.getD w 0 = path.getD (w + n) 0) }

end Sys2Proof.Machine
end

