-- ==== Sys2Proof/Machine/Engines.lean ====
section
/-! DEFINITION. Radio engines and HARQ soft buffers (R282 to R295): a job's limits, the queue, the front stage of decode
jobs, and a job's completion. -/

namespace Sys2Proof.Machine

/-! ## Limits -/

/-- A decode job of an LDPC or turbo engine, which names a soft buffer. -/
def jobSoft (b : Bytes) : Bool := jobClass b == 1 || jobClass b == 4

/-- A decode job of any engine. -/
def jobDecode (b : Bytes) : Bool := jobSoft b || ((jobClass b == 3 || jobClass b == 5) && jobOp b == 2)

/-- An address of a job outside radio memory, or misaligned (R283). -/
def jobAddrBad (a : Nat) : Bool := decide (0x20000000 ≤ a) || a % 64 != 0

/-- `n` bytes from an address of a job pass the end of radio memory (R283; log entry 25). -/
def jobRunsOut (a n : Nat) : Bool := decide (0x20000000 < a + n)

/-- Sizes of a DFT: 12 times a product of powers of 2, 3 and 5. -/
def dftSize (n : Nat) : Bool :=
  n % 12 == 0 && decide (0 < n ∧ n ≤ 3240) &&
  (List.range 9).any (fun a => (List.range 6).any (fun b => (List.range 4).any (fun c => 12 * 2 ^ a * 3 ^ b * 5 ^ c == n)))

/-- The limits of Tables 09-7 and 09-11 on a job's parameters. -/
def jobLimits (b : Bytes) : Bool :=
  let p := jobParams b
  let op := jobOp b
  match jobClass b with
  | 0 =>
    let n := bitsOf p 0 13
    (op == 1 && [128, 256, 512, 1024, 2048, 4096, 1536, 3072].contains n || op == 2 && dftSize n) &&
      decide (bitsOf p 16 16 ≤ 1024 ∧ 1 ≤ bitsOf p 32 8 ∧ bitsOf p 32 8 ≤ 28 ∧ 1 ≤ bitsOf p 48 7 ∧ bitsOf p 48 7 ≤ 64)
  | 1 | 4 =>
    let it := bitsOf p 32 6
    op == 1 && decide (0 < bitsOf p 0 24 ∧ bitsOf p 0 24 ≤ 1277992) && [1, 2, 4, 6, 8, 10].contains (bitsOf p 28 4) &&
      decide (1 ≤ it ∧ it ≤ (if jobClass b = 1 then 32 else 8)) && decide (1 ≤ bitsOf p 104 8 ∧ bitsOf p 104 8 ≤ 4)
  | 2 =>
    (op == 1 || op == 2) && decide (0 < bitsOf p 0 24 ∧ bitsOf p 0 24 ≤ 1277992) &&
      [1, 2, 4, 6, 8, 10].contains (bitsOf p 28 4) && decide (1 ≤ bitsOf p 104 8 ∧ bitsOf p 104 8 ≤ 4)
  | 3 =>
    (op == 1 || op == 2) && decide (1 ≤ bitsOf p 0 11 ∧ bitsOf p 0 11 ≤ 1706 ∧ bitsOf p 11 2 ≤ 2 ∧ bitsOf p 48 16 ≤ 8192)
  | 5 =>
    (op == 1 || op == 2) && decide (8 ≤ bitsOf p 0 11 ∧ bitsOf p 0 11 ≤ 1024 ∧ bitsOf p 11 2 ≤ 2 ∧ bitsOf p 32 16 ≤ 16384 ∧
      bitsOf p 48 7 ≤ 96)
  | _ => false

/-! ## Soft buffers (R292 to R295, Table 09-13) -/

def harqOffset (h : Nat) : Nat := bitsOf h 0 32 * 64
def harqCell (h : Nat) : Nat := bitsOf h 32 9
def harqInc (h : Nat) : Nat := bitsOf h 48 16

/-- Bytes of one circular buffer with its padding to whole lines. -/
def ncbStride (n : Nat) : Nat := ceilDiv n 64 * 64

/-- The pool of a decode job's cell, where the entry that its handle names lies inside it (R293). -/
def State.harqPool (s : State) (b : Bytes) : Option Nat :=
  let h := jobHarq b
  let x := jobCut b
  match (s.cell (harqCell h)).pool with
  | some e => if harqOffset h + 64 + x.blocks.length * ncbStride x.ncb ≤ (s.obj e).size then some e else none
  | none => none

/-- The entry header. -/
def State.harqHeader (s : State) (e off : Nat) : Nat := leNat ((s.objRead e off 64 none).getD [])

/-- A decode job's soft buffer does not allow it (R293, R294 step 2, R295). -/
def State.harqBad (s : State) (b : Bytes) : Option Status :=
  if !jobSoft b then none
  else
    let h := jobHarq b
    let p := jobParams b
    match s.harqPool b with
    | none => some .badArg
    | some e =>
      if harqInc h ≠ (s.cell (harqCell h)).inc % 65536 then some .staleHandle
      else if jobNew b then none
      else
        let w := s.harqHeader e (harqOffset h)
        if bitOf w 25 && bitsOf w 0 24 == bitsOf p 0 24 && bitOf w 24 == bitOf p 24 then none else some .badArg

/-- Why a job ends without running (R282, R283, R284, R293 to R295). -/
def State.jobBad (s : State) (e : Nat) (b : Bytes) : Option Status :=
  if jobClass b ≠ engineSubtype e ∨ jobAddrBad (jobIn b) ∨ jobAddrBad (jobOut b) ∨ jobAddrBad (jobStatusAddr b) ∨
      jobRunsOut (jobIn b) (jobInLen b) ∨ jobRunsOut (jobOut b) (jobOutLen b) ∨ !jobLimits b then some .badArg
  else s.harqBad b

/-- Two LLRs added, saturating at ±127. -/
def addLlr (a b : Byte) : Byte := BitVec.ofInt 8 (max (-127) (min 127 (llrOf a + llrOf b)))

/-- The stored LLRs of a buffer, 0 in the chunks that are lost (R294 step 3). -/
def State.softRead (s : State) (e off n : Nat) (lost : List Nat) : Bytes :=
  (List.range n).map (fun i =>
    if lost.contains ((off + i) / chunkSize) then 0#8 else ((s.objRead e (off + i) 1 none).getD []).headD 0#8)

/-- Chunks of an entry that a stored LLR lies in and that are poisoned. -/
def State.softPoisoned (s : State) (e off n : Nat) : List Nat :=
  ((List.range (n / chunkSize + 2)).map (fun i => off / chunkSize + i)).filter (fun k =>
    match s.readPlan e k none with
    | .ends _ => decide (k * chunkSize < off + n)
    | _ => false)

/-- Write bytes of an object across chunk boundaries; `fuel` bounds the pieces. -/
def State.objWriteAll (e : Nat) : Nat → Nat → Bytes → State → State
  | 0, _, _, s => s
  | fuel + 1, off, b, s =>
    if b.isEmpty then s
    else
      let k := chunkSize - off % chunkSize
      State.objWriteAll e fuel (off + k) (b.drop k) (s.objWrite e off (b.take k))

/-- What the front stage of a decode job makes of its soft buffer (R294): the circular buffers to decode, the chunks whose
stored LLRs are replaced by 0 (`lost`: those that returned uncorrectable data), and the pool. -/
def State.softStage (s : State) (b input : Bytes) (lost : List Nat) : List Bytes × List Nat × Option Nat :=
  let new := receivedLlrs b input
  match s.harqPool b with
  | none => (new, [], none)
  | some e =>
    if jobNew b then (new, [], some e)
    else
      let off := harqOffset (jobHarq b)
      let ncb := (jobCut b).ncb
      let total := 64 + new.length * ncbStride ncb
      let lost := (lost.filter (fun k => decide (off / chunkSize ≤ k ∧ k * chunkSize < off + total)) ++
        s.softPoisoned e off total).eraseDups
      (new.zipIdx.map (fun q => (q.1.zip (s.softRead e (off + 64 + q.2 * ncbStride ncb) ncb lost)).map
        (fun r => addLlr r.1 r.2)), lost, some e)

/-- The soft buffer entry after the decode (R294): new data writes the header and every buffer; a transport block whose CRC
fails writes the combined LLRs back; one whose CRC passes clears VALID. -/
def State.softWrite (b : Bytes) (e : Nat) (comb : List Bytes) (crcOk : Bool) (s : State) : State :=
  let off := harqOffset (jobHarq b)
  let p := jobParams b
  let ncb := (jobCut b).ncb
  let w := s.harqHeader e off
  let n := if jobNew b then 1 else min 255 (bitsOf w 32 8 + 1)
  let valid := bitsOf p 0 24 + 2 ^ 24 * bitsOf p 24 1 + 2 ^ 25 + 2 ^ 32 * n + 2 ^ 40 * (comb.length % 256) + 2 ^ 64 * (ncb % 2 ^ 32)
  let head := if !crcOk then valid else if jobNew b then valid - 2 ^ 25 else w - 2 ^ 25 * b2n (bitOf w 25)
  let s := s.objWriteAll e 2 off (leBytes 64 head)
  if crcOk && !jobNew b then s
  else s.forEach comb.zipIdx (fun q s => s.objWriteAll e (q.1.length / chunkSize + 2) (off + 64 + q.2 * ncbStride ncb)
    (fixLen (ncbStride ncb) q.1))

/-! ## Posting, starting, completing -/

/-- ENGINE_DONE at the source of a job. -/
def State.engineDone (b : Bytes) (s : State) : State :=
  if !jobNotify b then s
  else if jobSource b < 384 then s.raiseIrq (jobSource b) 2 else s.emit (.engineDone (jobSource b))

/-- The status record of a job (Table 09-10). -/
def statusRecord (st : Status) (late lost crc cons : Bool) (iters time r0 r1 : Nat) : Bytes :=
  leBytes 2 st.code ++ leBytes 1 (b2n late + 2 * b2n lost + 4 * b2n crc + 8 * b2n cons) ++ leBytes 1 iters ++
    leBytes 4 time ++ leBytes 4 r0 ++ leBytes 4 r1 ++ List.replicate 16 0#8

/-- Write the status record where its address is good. -/
def State.putStatus (b r : Bytes) (s : State) : State :=
  if jobAddrBad (jobStatusAddr b) then s else s.wr .radio (jobStatusAddr b) r

/-- Jobs posted so far on all engines: the order of the next one. -/
def State.jobOrder (s : State) : Nat := (s.radio.engines.map (fun p => p.2.posted)).sum

/-- A job reaches the queue of an engine, or ends with CAPACITY where the queue is full (R285). -/
def State.queueJob (engine : Nat) (b : Bytes) (s : State) : State :=
  if 64 ≤ (s.engine engine).queue.length then
    let s := s.putStatus b (statusRecord .capacity false false false false 0 (s.time.now % 2 ^ 32) 0 0)
    let s := s.modEngine engine (fun x => { x with badJobs := satInc 32 x.badJobs, event := x.event ||| 4 })
    s.engineDone b
  else
    let n := s.jobOrder
    s.modEngine engine (fun x => { x with queue := x.queue ++ [⟨b, n⟩], posted := x.posted + 1 })

/-- The jobs that senders held at a gated engine's crossing reach it, in order, once it accepts work (R24, R25); an engine
that comes to serve no work completes them with NOT_READY (R26). -/
def State.releaseHeld (engine : Nat) (s : State) : State :=
  let u : UnitId := ⟨.engine, engine⟩
  let l := (s.engine engine).held
  if s.accepts u then
    (s.modEngine engine (fun x => { x with held := [] })).forEach l (fun b s => s.queueJob engine b)
  else if (s.unit u).state = .sleeping ∨ (s.unit u).state = .initialising then s
  else (s.modEngine engine (fun x => { x with held := [] })).forEach l (fun _ s => s.emit (.notReady u))

/-- JOB_POST (R284, R285): a sender holds its job while the engine's island is gated (R24, R25), and one that accepts no work
otherwise completes it with NOT_READY (R26, R54). -/
def execJobPost (engine : Fin 100) (fromWindow : Bool) (job : Bytes) (s : State) : Outcome :=
  .next (
    if fromWindow then s
    else
      let u : UnitId := ⟨.engine, engine⟩
      let b := fixLen 64 job
      if s.accepts u then s.queueJob engine b
      else if (s.unit u).state = .sleeping then s.modEngine engine (fun x => { x with held := x.held ++ [b] })
      else s.emit (.notReady u))

/-- Jobs posted and not completed, on every engine. -/
def State.openJobs (s : State) : List Job :=
  s.radio.engines.flatMap (fun p => p.2.queue ++ (match p.2.busy with | some j => [j] | none => []))

/-- A job's soft buffer is named by an earlier-posted job that has not completed (R286). -/
def State.softBusy (s : State) (j : Job) : Bool :=
  let h := jobHarq j.bytes
  jobSoft j.bytes && s.openJobs.any (fun k => decide (k.order < j.order) && jobSoft k.bytes &&
    harqOffset (jobHarq k.bytes) == harqOffset h && harqCell (jobHarq k.bytes) == harqCell h)

/-- Deadline `a` comes before `b`, by the sign of their difference modulo 2^32. -/
def deadlineBefore (a b : Nat) : Bool := decide (sdiff 32 a b < 0)

/-- The job an engine takes next. -/
def State.nextJob (s : State) (e : Nat) : Option Job :=
  ((s.engine e).queue.filter (fun j => !s.softBusy j)).foldl (fun (b : Option Job) j =>
    match b with
    | none => some j
    | some x => if deadlineBefore (jobDeadline j.bytes) (jobDeadline x.bytes) then some j else some x) none

/-- JOB_START (R286). -/
def execJobStart (engine : Fin 100) (s : State) : Outcome :=
  .next (
    if (s.engine engine).busy.isSome || !s.accepts ⟨.engine, engine⟩ then s
    else
      match s.nextJob engine with
      | none => s
      | some j => s.modEngine engine (fun x =>
          { x with queue := x.queue.filter (fun k => k.order != j.order), busy := some j, started := s.time.now }))

/-- What a job comes to: its status and fields of its status record, and its output bytes. -/
structure JobResult where
  status : Status
  output : Bytes := []
  lost : Nat := 0
  crcOk : Bool := false
  consistent : Bool := false
  iters : Nat := 0
  itersAll : Nat := 0
  result0 : Nat := 0
  metric : Nat := 0
  deriving DecidableEq, Repr

/-- A result whose output fits the output buffer; else BAD_ARG, nothing written (R282). -/
def JobResult.fit (b : Bytes) (r : JobResult) : JobResult :=
  if r.output.length ≤ jobOutLen b then r else { status := .badArg }

/-- The job as it is decoded: on a cell assumed without its HARQ state, a process that the pool does not hold is decoded
as NEW 1 (R599). -/
def State.asRun (s : State) (b : Bytes) : Bytes :=
  let h := jobHarq b
  match s.harqPool b with
  | some e =>
    if jobSoft b && (s.cell (harqCell h)).inherited && !bitOf (s.harqHeader e (harqOffset h)) 25 then
      b.take 35 ++ [b.getD 35 0#8 ||| 2#8] ++ b.drop 36
    else b
  | none => b

/-- The computation of a good job (R287, R291) on its input bytes, without its soft buffer. -/
def plainResult (b input : Bytes) : JobResult :=
  match jobClass b, jobOp b with
  | 0, _ => let r := fftJob b input; { status := .ok, output := r.1, result0 := r.2 }
  | 3, 2 =>
    let r := polarDecode b input
    { status := .ok, output := r.output, crcOk := r.crcOk, result0 := r.residue, metric := r.metric }
  | 5, 1 => { status := .ok, output := convEncodeJob b input }
  | 5, 2 =>
    let r := convDecode b input
    { status := .ok, output := r.output, crcOk := r.crcOk, result0 := r.residue, metric := r.metric, consistent := r.consistent }
  | _, _ => { status := .ok, output := Config.encoded b input }

/-- A job runs: its result, and the state with its soft buffer as the front stage leaves it (R294). -/
def State.runJob (b : Bytes) (lost : List Nat) (s : State) : JobResult × State :=
  let input := s.rd .radio (jobIn b) (jobInLen b)
  if jobSoft b then
    let (comb, gone, pool) := s.softStage b input lost
    let d := decodeBlocks b comb
    let r := JobResult.fit b { status := .ok, output := d.output, lost := gone.length, crcOk := d.crcOk, iters := d.iters,
                               itersAll := d.itersAll, result0 := d.failing }
    match r.status, pool with
    | .ok, some e => (r, s.softWrite b e comb d.crcOk)
    | _, _ => (r, s)
  else ((plainResult b input).fit b, s)

/-- The counters and events of a completed job. -/
def Engine.count (b : Bytes) (r : JobResult) (late : Bool) (cycles : Nat) (x : Engine) : Engine :=
  let ok := decide (r.status = .ok)
  { x with
    busy := none
    jobsDone := satInc 64 x.jobsDone
    busyCycles := satAdd 64 x.busyCycles cycles
    lateJobs := if late then satInc 32 x.lateJobs else x.lateJobs
    crcFails := if ok && jobDecode b && !r.crcOk then satInc 32 x.crcFails else x.crcFails
    iterations := satAdd 64 x.iterations r.itersAll
    softLost := satAdd 32 x.softLost r.lost
    badJobs := if ok then x.badJobs else satInc 32 x.badJobs
    event := x.event ||| b2n late ||| 2 * b2n (decide (r.lost ≠ 0)) ||| 4 * b2n (!ok) }

/-- The status record of a result (Table 09-10). -/
def JobResult.record (b : Bytes) (late : Bool) (time : Nat) (r : JobResult) : Bytes :=
  statusRecord r.status late (decide (r.lost ≠ 0)) r.crcOk r.consistent r.iters (time % 2 ^ 32) (r.result0 % 2 ^ 32)
    (if jobDecode b && !jobSoft b then r.metric else r.output.length)

/-- JOB_COMPLETE (R287 to R289, R294, R295): output, status record, and only then ENGINE_DONE and the barrier. `lost` are
the chunks of the soft buffer pool that returned uncorrectable data. -/
def execJobComplete (engine : Fin 100) (now : Nat) (lost : List Nat) (s : State) : Outcome :=
  .next (
    let s := s.at now
    let x := s.engine engine
    match x.busy with
    | none => s
    | some j =>
      let b := s.asRun j.bytes
      let t := s.time.now
      let late := decide (0 < sdiff 32 (t % 2 ^ 32) (jobDeadline b))
      let cycles := (t - x.started) * s.clockKhz .engine engine / 1000000
      let (r, s) : JobResult × State := match s.jobBad engine b with
        | some st => ({ status := st }, s)
        | none => s.runJob b lost
      let s := if r.status = .ok then s.wr .radio (jobOut b) r.output else s
      let s := s.putStatus b (r.record b late t)
      let s := s.modEngine engine (fun x => x.count b r late cycles)
      let s := s.engineDone b
      if jobBarrierEn b then s.modDisp (fun d => { d with adds := d.adds ++ [jobBarrier b] }) else s)

end Sys2Proof.Machine
end

