-- ==== Sys2Proof/Machine/Mailboxes.lean ====
section
/-! DEFINITION. Mailboxes, the command interface, event rings and control cores (chapters 01 and 03). -/

namespace Sys2Proof.Machine

/-! ## Writes to a mailbox page (R79 to R84) -/

/-- The mapping may write the page: the manager's for page 0, the holder's granted one for the others (R79). -/
def Mailbox.maps (b : Mailbox) (mapping : W32) : Bool := decide (b.role ≠ .unassigned ∧ b.mapping = mapping)

/-- A write from a mapping not granted sets FOREIGN_WRITE (R79). -/
def State.foreignWrite (m : Nat) (s : State) : State := s.modMbox m (fun b => { b with foreign := true })

/-- RING_CTRL takes a new ENABLE (R80, R81); a 0 waits until the command taken up has been answered, and what is written
after it takes its turn behind it. -/
def Mailbox.setEnable (b : Mailbox) (on : Bool) : Mailbox :=
  match b.closing with
  | some (was, tail) => { b with closing := some (on, if on && was then tail else 0) }
  | none =>
    if on && !b.enable then b.turnOn 0
    else if !on && b.enable then
      (if b.current.isSome then { b with closing := some (false, 0) } else b.turnOff)
    else b

/-- MBX_ENABLE_WRITE (R80). -/
def execMbxEnableWrite (m : Fin 16) (mapping : W32) (enable : Bool) (s : State) : Outcome :=
  .next (if (s.mbox m).maps mapping then s.modMbox m (fun b => b.setEnable enable) else s.foreignWrite m)

/-- A value written to TAIL (R80, R84): ignored while ENABLE is 0; more than 64 ahead of HEAD it sets OVERRUN and
STOPPED. -/
def Mailbox.setTail (b : Mailbox) (tail : W16) : Mailbox :=
  match b.closing with
  | some (on, old) =>
    if !on then b
    else if 64 < tail.toNat then { b with overrun := true, closing := some (true, 65536) }
    else if old = 65536 then b
    else { b with closing := some (true, tail.toNat) }
  | none =>
    if !b.enable then b
    else if 64 < (tail.toNat + 65536 - b.head) % 65536 then { b with overrun := true, stopped := true }
    else { b with tail := tail.toNat }

/-- MBX_TAIL_WRITE (R84). -/
def execMbxTailWrite (m : Fin 16) (mapping : W32) (tail : W16) (s : State) : Outcome :=
  .next (if (s.mbox m).maps mapping then s.modMbox m (fun b => b.setTail tail) else s.foreignWrite m)

/-! ## Taking up a command (R81, R85, R90 to R94) -/

/-- A command waits on mailbox `m`. -/
def State.mbxWaits (s : State) (m : Nat) : Bool :=
  let b := s.mbox m
  b.enable && b.closing.isNone && !b.stopped && decide (b.role ≠ .unassigned) && b.taken != b.tail &&
    (decide (s.dev.dstate ≠ .rom) || (m == 0 && s.pkg.resetHigh && !s.pkg.latched))

/-- The first of `n` mailboxes from `lo` after `last`, in ascending order and round-robin, that waits. -/
def State.nextMbx (s : State) (lo n last : Nat) : Option Nat :=
  ((List.range n).map (fun i => lo + (last + n - lo + 1 + i) % n)).find? s.mbxWaits

/-- The mailbox a control core takes a command from (R85). -/
def State.chooseMbx (s : State) (second : Bool) : Option Nat :=
  if second then s.nextMbx 8 8 s.dev.last3
  else if s.mbxWaits 0 && !(s.dev.lastWas0 && (List.range 7).any (fun i => s.mbxWaits (i + 1))) then some 0
  else s.nextMbx 1 7 s.dev.last2

/-- The control core has a command taken up (R87). -/
def State.coreBusy (s : State) (second : Bool) : Bool :=
  (List.range 8).any (fun i => (s.mbox (if second then 8 + i else i)).current.isSome)

/-- The turn passes to mailbox `m`. -/
def State.noteTurn (second : Bool) (m : Nat) (s : State) : State :=
  { s with dev := if second then { s.dev with last3 := m }
                  else { s.dev with last2 := if m = 0 then s.dev.last2 else m, lastWas0 := m == 0 } }

/-- The header of a slot (Table 03-3) as a command; `args` are its argument bytes. -/
def parseCmd (sl : Bytes) (slot session : Nat) (args : Bytes) : Cmd :=
  { opcode := fieldAt sl 0 2, version := fieldAt sl 2 2, seq := fieldAt sl 4 4, instId := byteAt sl 8,
    indirect := bitOf (byteAt sl 9) 0, argLength := fieldAt sl 10 2, argPointer := fieldAt sl 16 8, args, slot,
    session }

/-- The arguments of a command: in the slot, or at ARG_POINTER where it is aligned. -/
def State.readArgs (s : State) (sl : Bytes) : Bytes :=
  let n := fieldAt sl 10 2
  if bitOf (byteAt sl 9) 0 then
    (if fieldAt sl 16 8 % 64 = 0 then s.rd .companion (fieldAt sl 16 8) n else [])
  else (sl.drop 32).take n

/-- Check 1 of R90 (R94). -/
def versionCheck (b : Mailbox) (c : Cmd) : Bool :=
  if c.opcode = 1 then false
  else if b.agreed = 0 then c.opcode != 3
  else versionRefused b.agreed c.version

/-- Checks 1 to 4 of R90, made as the command is taken up, in ROM too before R103 refuses it (log entry 85). -/
def firstChecks (b : Mailbox) (c : Cmd) : Option Status :=
  if versionCheck b c then some .version
  else
    match catalogueRow c.opcode with
    | none => some .unknownOpcode
    | some r =>
      if !r.allows b.role then some .denied
      else if b.role = .tenant ∧ c.instId ≠ b.inst then some .spoof
      else if b.role = .radio ∧ c.instId ≠ 0 then some .spoof
      else none

/-- A command breaks the sequence rule (R92). -/
def seqBroken (b : Mailbox) (c : Cmd) : Bool :=
  !b.first && (match b.lastSeq with | none => false | some q => c.seq != (q + 1) % 2 ^ 32)

/-- The command just read repeats the one whose response is stored (R93). -/
def replayOf (b : Mailbox) (c : Cmd) : Option Response :=
  match b.stored with
  | some r => if r.seq = c.seq ∧ r.opcode = c.opcode then some r else none
  | none => none

/-- What a control core does with a command it has read: R93, then R92, then checks 1 to 4 of R90; a command that
passes waits in `current` for its own step. A failed read of arguments is answered before checks 1 to 4 (log entry 85). -/
def State.judge (m : Nat) (c : Cmd) (argsOk : Bool) (s : State) : State :=
  let b := s.mbox m
  match replayOf b c with
  | some r => (s.modMbox m (fun b => { b with first := false })).writeResponse m c (responseBytes r true)
  | none =>
    if seqBroken b c then s.writeResponse m c (responseBytes (s.mkResponse c .badArg [] false) false)
    else
      let s := s.modMbox m (fun b => { b with first := false, lastSeq := some c.seq })
      if !argsOk && c.indirect && c.argPointer % 64 == 0 then
        ((s.modMbox m (fun b => { b with fetchFault := true })).respond m c .badArg [] false).modMbox m
          (fun b => { b with stopped := true })
      else
        match firstChecks b c with
        | some .spoof => (s.countSpoof 2 (some b.inst)).respond m c .spoof [] false
        | some st => s.respond m c st [] false
        | none => s.modMbox m (fun b => { b with current := some c })

/-- Take up the next command of mailbox `m`. A slot that cannot be read sets FETCH_FAULT and stops the mailbox
(R81, log entry 6). -/
def State.takeUp (m : Nat) (slotOk argsOk : Bool) (s : State) : State :=
  let b := s.mbox m
  if !slotOk then s.modMbox m (fun b => { b with fetchFault := true, stopped := true })
  else
    let slot := b.ringBase + b.taken % 64 * 256
    let sl := s.rd .companion slot 256
    let c := parseCmd sl slot b.session (s.readArgs sl)
    (s.modMbox m (fun b => { b with taken := (b.taken + 1) % 65536 })).judge m c argsOk

/-- COMMAND_TAKE_UP (R85). -/
def execCommandTakeUp (second slotOk argsOk : Bool) (s : State) : Outcome :=
  .next (
    if s.coreBusy second || (s.core (if second then 3 else 2)).restarting then s
    else
      match s.chooseMbx second with
      | none => s
      | some m => (s.noteTurn second m).takeUp m slotOk argsOk)

/-! ## Commands of chapter 03 -/

/-- The version slots that the device offers for IFACE_ID 1 (Table 02-7), and the boot ROM (R103). -/
def State.mbxOffer (s : State) : List Nat := if s.dev.dstate = .rom then [0x0100] else [0x0103]

/-- The highest major both lists offer, with the lower of the two minors (R73). -/
def agreeVersion (ours theirs : List Nat) : Option Nat :=
  (ours.filterMap (fun v =>
    match theirs.find? (fun w => w / 256 == v / 256 && w != 0) with
    | some w => some (v / 256 * 256 + min (v % 256) (w % 256))
    | none => none)).head?

/-- The four offered slots of MBX_VERSION. -/
def offeredSlots (c : Cmd) : List Nat := (List.range 4).map (fun i => c.arg (0x20 + 2 * i) 2)

/-- Result of MBX_VERSION (Table 03-9a). -/
def State.versionResult (s : State) (agreed : Nat) : Bytes :=
  leBytes 2 agreed ++ leBytes 2 0 ++ ((s.mbxOffer ++ [0, 0, 0]).take 4).flatMap (leBytes 2)

/-- MBX_VERSION (R94). -/
def execMbxVersion (m : Fin 16) (s : State) : Outcome :=
  .next (s.runCommand m 0x0001
    (fun c _ => [c.lenIs 8])
    (fun _ => statesOf 0x0001)
    (fun c s => [if (agreeVersion s.mbxOffer (offeredSlots c)).isNone then some (.version, s.versionResult 0) else none])
    (fun c s =>
      let v := (agreeVersion s.mbxOffer (offeredSlots c)).getD 0
      (s.modMbox m (fun b => { b with agreed := v }), s.versionResult v, false)))

/-- Roles by code (Table 03-2). -/
def roleOfCode : Nat → Option Role
  | 0 => some .unassigned | 1 => some .manager | 2 => some .group | 3 => some .radio | 4 => some .tenant
  | _ => none

/-- A pairing of ROLE and INSTANCE that MBX_ASSIGN accepts (R82). -/
def assignable (role : Option Role) (inst : Nat) : Bool :=
  match role with
  | some .unassigned | some .group | some .radio => inst == 0
  | some .tenant => decide (1 ≤ inst ∧ inst ≤ 255)
  | _ => false

/-- The mailbox as MBX_ASSIGN leaves it: a new holder with no history (R82). -/
def assigned (b : Mailbox) (role : Role) (inst : Nat) (mapping : W32) : Mailbox :=
  { role, inst, mapping, session := b.session + 1 }

/-- MBX_ASSIGN (R82): it waits until a command taken up from the named mailbox has been answered. -/
def execMbxAssign (m : Fin 16) (s : State) : Outcome :=
  let busy := match (s.mbox m).current with
    | some c => c.opcode == 2 && c.arg 0x20 1 != m.val && (s.mbox (c.arg 0x20 1)).current.isSome
    | none => false
  .next (if busy then s else s.runCommand m 0x0002
    (fun c _ => [c.lenIs 8, failIf (c.arg 0x20 1 = 0 || decide (15 < c.arg 0x20 1)) .badArg,
                 failIf (!assignable (roleOfCode (c.arg 0x21 1)) (c.arg 0x22 1)) .badArg])
    (fun _ => statesOf 0x0002)
    (fun _ _ => [])
    (fun c s =>
      let t := c.arg 0x20 1
      let s := s.cancelLong t
      (s.modMbox t (fun b => assigned b ((roleOfCode (c.arg 0x21 1)).getD .unassigned) (c.arg 0x22 1)
        (BitVec.ofNat 32 (c.arg 0x24 4))), [], false)))

/-- DEV_QUERY. -/
def execDevQuery (m : Fin 16) (s : State) : Outcome :=
  .next (s.runCommand m 0x0003
    (fun c _ => [c.lenIs 0])
    (fun _ => statesOf 0x0003)
    (fun _ _ => [])
    (fun _ s => (s, leBytes 1 s.dev.dstate.code ++ leBytes 3 0 ++ leBytes 4 s.deviceInc ++
      leBytes 2 (s.mbox m).agreed ++ leBytes 2 0, false)))

/-! ## Event rings (R106 to R109) -/

/-- The rings of the page of ring `k`, but for `k`. -/
def pageMates (k : Nat) : List Nat := ((List.range 16).map (fun i => k / 16 * 16 + i)).filter (fun j => j != k)

/-- LOG2_ENTRIES is 0 or 6 to 16. -/
def log2Ok (n : Nat) : Bool := n == 0 || decide (6 ≤ n ∧ n ≤ 16)

/-- The ring as EVR_CONFIGURE leaves it (R106, Table 03-9a). -/
def configuredRing (c : Cmd) (role : Role) : EventRing :=
  { base := c.arg 0x28 8 / 64 * 64
    log2 := c.arg 0x22 1, ownerRole := role, ownerInst := c.arg 0x24 1,
    vecAddr := BitVec.ofNat 64 (c.arg 0x38 8), vecData := BitVec.ofNat 32 (c.arg 0x40 4), mask := c.arg 0x30 8 }

/-- The page as EVR_CONFIGURE names it. -/
def configuredPage (c : Cmd) : EvPage :=
  { mapping := BitVec.ofNat 32 (c.arg 0x44 4), role := (roleOfCode (c.arg 0x23 1)).getD .unassigned,
    inst := c.arg 0x24 1 }

/-- EVR_CONFIGURE (R106). -/
def execEvrConfigure (m : Fin 16) (s : State) : Outcome :=
  .next (s.runCommand m 0x0007
    (fun c _ => [c.lenIs 40, failIf (decide (4095 < c.arg 0x20 2)) .badArg, failIf (!log2Ok (c.arg 0x22 1)) .badArg,
                 failIf (roleOfCode (c.arg 0x23 1)).isNone .badArg,
                 failIf (c.arg 0x22 1 != 0 && c.arg 0x28 8 % (32 * 2 ^ c.arg 0x22 1) != 0) .badArg])
    (fun _ => statesOf 0x0007)
    (fun c s => [failIf (decide (s.evPage (c.arg 0x20 2 / 16) ≠ configuredPage c) &&
      (pageMates (c.arg 0x20 2)).any (fun j => (s.ring j).enabled)) .badArg])
    (fun c s =>
      let k := c.arg 0x20 2
      let p := configuredPage c
      let s := if s.evPage (k / 16) = p then s
        else s.forEach (pageMates k) (fun j s => s.modRing j (fun r => { r with ownerRole := p.role, ownerInst := p.inst }))
      let s := { s with evPages := tset {} s.evPages (k / 16) p }
      (s.modRing k (fun _ => configuredRing c p.role), [], false)))

/-- The mapping may write the page of ring `k` (R106). -/
def State.ringMaps (s : State) (k : Nat) (mapping : W32) : Bool :=
  decide ((s.evPage (k / 16)).role ≠ .unassigned ∧ (s.evPage (k / 16)).mapping = mapping)

/-- A value written to EVR_HEAD (R109). -/
def State.evrHead (ring : Nat) (mapping : W32) (head : W32) (s : State) : State :=
  if s.ringMaps ring mapping then
    (s.modRing ring (fun r => { r with head := head.toNat })).flushRing ring 17
  else s

/-- EVR_HEAD_WRITE (R109). -/
def execEvrHeadWrite (ring : Fin 4096) (mapping : W32) (head : W32) (s : State) : Outcome :=
  .next (s.evrHead ring mapping head)

/-- A value written to EVR_ARM (R108). -/
def State.evrArm (ring : Nat) (mapping : W32) (arm : Bool) (s : State) : State :=
  if s.ringMaps ring mapping then
    let r := s.ring ring
    if arm && r.tail != r.head then
      (s.modRing ring (fun r => { r with arm := false })).emit (.vector ring r.vecAddr r.vecData)
    else s.modRing ring (fun r => { r with arm })
  else s

/-- EVR_ARM_WRITE (R108). -/
def execEvrArmWrite (ring : Fin 4096) (mapping : W32) (arm : Bool) (s : State) : Outcome :=
  .next (s.evrArm ring mapping arm)

/-! ## Control cores and clock islands (R27, R40 to R43, R89, R111) -/

/-- A control core halts (R40, R41). -/
def State.haltCore (core : Nat) (ecc : Bool) (s : State) : State :=
  if s.dev.dstate = .rom || (s.core core).restarting then s
  else s.modCore core (fun c => { c with restarting := true, byEcc := ecc })

/-- WATCHDOG_EXPIRY (R41). -/
def execWatchdogExpiry (core : Fin 8) (s : State) : Outcome := .next (s.haltCore core false)

/-- CORE_ECC_HALT (R40). -/
def execCoreEccHalt (core : Fin 8) (s : State) : Outcome := .next (s.haltCore core true)

/-- FOLD_DEBUG_HOLD of mailbox `m` has taken effect and waits for its fold to come to rest (R206). -/
def State.holdUnderWay (s : State) (m : Nat) : Bool := s.folds.any (fun p => decide (p.2.holdAsked = some m))

/-- The command a halted core had taken up: NOT_READY after the restart where it had taken no effect, its normal response
where it had (R89). Of the commands that stay taken up only FOLD_DEBUG_HOLD has an effect before its response (R206). -/
def State.answerHalted (m : Nat) (s : State) : State :=
  match (s.mbox m).current with
  | some c =>
    if (s.mbox m).heldAnswer then s.respond m c .ok [] false
    else if s.holdUnderWay m then s
    else s.respond m c .notReady [] false
  | none => s

/-- The control core that restarts a halted one (R41). -/
def State.supervisor (s : State) (core : Nat) : Nat :=
  if core ≠ 7 then 7 else if (s.unit ⟨.ctlCore, 0⟩).state = .sleeping then 6 else 0

/-- CORE_RESTART_DONE (R41, R89): nothing restarts a core while its supervisor is halted itself. -/
def execCoreRestartDone (core : Fin 8) (s : State) : Outcome :=
  .next (
    let c := s.core core
    if !c.restarting || (s.core (s.supervisor core)).restarting then s
    else
      let s := s.modCore core (fun c => { c with restarting := false, restarts := satInc 16 c.restarts })
      let s := (s.ledger 8 ⟨.ctlCore, core⟩ (.coreRestart core c.byEcc)).evidence 16 none
      s.forEach ((List.range 16).filter (fun m => serverOf m == core.val)) (fun m s => s.answerHalted m))

/-- The restart counts of the heartbeat, 16 bits each (R43, Table 03-12a). -/
def State.restartCounts (s : State) : List Nat := (List.range 8).map (fun k => (s.core k).restarts)

/-- HEARTBEAT_TICK (R43, R111). -/
def execHeartbeatTick (now : Nat) (s : State) : Outcome :=
  .next (
    let s := s.at now
    if s.dev.dstate = .rom then s
    else
      let rs := s.restartCounts
      (s.emit (.heartbeat rs)).raise 11 0 theDevice ((rs.zipIdx.map (fun p => p.1 * 2 ^ (16 * p.2))).sum))

/-- ISLAND_CLOCK_CHANGE (R27): the clock asked for takes effect only when no crossing of the island is in the middle
of a handshake; its crossings keep their entries. -/
def execIslandClockChange (kind : IslandKind) (idx : Nat) (midHandshake : Bool) (s : State) : Outcome :=
  .next (
    match (s.island kind idx).requested with
    | some c =>
      if midHandshake then s
      else { s with dev := { s.dev with islands := tset {} s.dev.islands (islandKey kind idx) { clock := c } } }
    | none => s)

end Sys2Proof.Machine
end

