-- ==== Sys2Proof/Machine/Routes.lean ====
section
/-! DEFINITION. The topology of a flock and the routes made from it (R476, R482, R484 to R488), the node table, and the
floods that every change of them sends. -/

namespace Sys2Proof.Machine

/-! ## Topology -/

/-- DEVICE_UID. -/
def State.uid (s : State) : W64 := s.fuses.uid

/-- The LIVE node of a UID. -/
def State.nodeOfUid (s : State) (uid : W64) : Option Nat :=
  (s.fab.nodes.find? (fun p => p.2.live && p.2.uid == uid)).map (fun p => p.1)

def State.liveNodes (s : State) : List Nat := (s.fab.nodes.filter (fun p => p.2.live)).map (fun p => p.1)

/-- A link of the topology: node, port, far node. -/
abbrev Edge := Nat × Nat × Nat

/-- The far end of a link reports it UP too (R476). -/
def farAgrees (reports : List Report) (uid : W64) (port : Nat) (l : LinkInfo) : Bool :=
  match reports.find? (fun r => r.uid == l.uid) with
  | none => false
  | some r =>
    match r.links[l.port]? with
    | none => false
    | some b => b.up && b.uid == uid && b.port == port

/-- The links that count, between LIVE nodes. -/
def State.edges (s : State) : List Edge :=
  s.fab.reports.flatMap (fun r =>
    match s.nodeOfUid r.uid with
    | none => []
    | some a =>
      (r.links.zipIdx).filterMap (fun (l, i) =>
        if l.up && farAgrees s.fab.reports r.uid i l then (s.nodeOfUid l.uid).map (fun b => (a, i, b)) else none))

/-- One round of relaxation: distances plus 1, 0 where none is known. -/
def relax (ok : Nat → Nat → Bool) (es : List Edge) (d : List (Nat × Nat)) : List (Nat × Nat) :=
  es.foldl (fun d e =>
    let k := tget 0 d e.2.2
    let own := tget 0 d e.1
    if ok e.1 e.2.2 && k != 0 && (own == 0 || decide (k + 1 < own)) then tput d e.1 (k + 1) else d) d

/-- Distances plus 1 over the links that `ok` allows, in `n` rounds. -/
def relaxN (ok : Nat → Nat → Bool) (es : List Edge) : Nat → List (Nat × Nat) → List (Nat × Nat)
  | 0, d => d
  | n + 1, d => relaxN ok es n (relax ok es d)

/-- Hop distance plus 1 of every node from a root. -/
def depths (es : List Edge) (n root : Nat) : List (Nat × Nat) := relaxN (fun _ _ => true) es n [(root, 1)]

/-- The link from `a` to `b` is up (R487). -/
def linkIsUp (dep : List (Nat × Nat)) (a b : Nat) : Bool :=
  let x := tget 0 dep a
  let y := tget 0 dep b
  decide (y < x) || (x == y && decide (b < a))

/-! ## Up/down routing (MODE 0) -/

/-- The two next-hop sets of a destination (R488). -/
def udRoute (es : List Edge) (n own : Nat) (dep : List (Nat × Nat)) (dst : Nat) : Route :=
  let down := relaxN (fun a b => !linkIsUp dep a b) es n [(dst, 1)]
  let legal := relaxN (linkIsUp dep) es n down
  let mine := es.filter (fun e => e.1 == own)
  let low := mine.filter (fun e =>
    if linkIsUp dep own e.2.2 then tget 0 legal e.2.2 != 0 && tget 0 legal own == tget 0 legal e.2.2 + 1
    else tget 0 down e.2.2 != 0 && tget 0 legal own == tget 0 down e.2.2 + 1)
  let high := mine.filter (fun e =>
    !linkIsUp dep own e.2.2 && tget 0 down e.2.2 != 0 && tget 0 down own == tget 0 down e.2.2 + 1)
  { low := (low.map (fun e => e.2.1)).take 4, high := (high.map (fun e => e.2.1)).take 4 }

/-! ## Dimension-order routing (MODE 1) -/

/-- Extents of a FAB_SHAPE. -/
def extents (shape : W32) : List Nat :=
  [bitsOf shape.toNat 0 6 + 1, bitsOf shape.toNat 8 6 + 1, bitsOf shape.toNat 16 6 + 1]

/-- Coordinates of a node (R484). -/
def coords (shape : W32) (n : Nat) : List Nat :=
  match extents shape with
  | [x, y, z] => [n % x, n / x % y, n / (x * y) % z]
  | _ => []

/-- The node at coordinates. -/
def nodeAt (shape : W32) : List Nat → Nat
  | [a, b, c] => match extents shape with | [x, y, _] => a + x * (b + y * c) | _ => 0
  | _ => 0

/-- The dimension in which two nodes are neighbours: they differ there by 1 modulo the extent and nowhere else. -/
def hopDim (shape : W32) (a b : Nat) : Option Nat :=
  let l := ((coords shape a).zip (coords shape b)).zip (extents shape)
  let diff := (l.zipIdx).filter (fun (x, _) => x.1.1 != x.1.2)
  match diff with
  | [((p, q), i)] => if (p.1 + 1) % q = p.2 ∨ (p.2 + 1) % q = p.1 then some i else none
  | _ => none

/-- The hop crosses its dimension's dateline, between coordinates extent − 1 and 0 (R486). -/
def crossesDateline (shape : W32) (a b dim : Nat) : Bool :=
  let p := (coords shape a).getD dim 0
  let q := (coords shape b).getD dim 0
  let e := (extents shape).getD dim 1
  decide (1 < e) && ((p == e - 1 && q == 0) || (p == 0 && q == e - 1))

/-- The neighbour of `a` in a dimension, one way or the other. -/
def stepTo (shape : W32) (a dim : Nat) (plus : Bool) : Nat :=
  let e := (extents shape).getD dim 1
  let c := coords shape a
  let p := c.getD dim 0
  nodeAt shape (c.set dim (if plus then (p + 1) % e else (p + e - 1) % e))

/-- The neighbour a packet goes to next (R485): x, then y, then z, the shorter way round, + where both are equal. -/
def doNext (shape : W32) (own dst : Nat) : Option Nat :=
  let a := coords shape own
  let b := coords shape dst
  let go := fun (dim : Nat) =>
    let e := (extents shape).getD dim 1
    let fwd := (b.getD dim 0 + e - a.getD dim 0) % e
    stepTo shape own dim (decide (2 * fwd ≤ e))
  ((List.range 3).find? (fun d => a.getD d 0 != b.getD d 0)).map go

def doRoute (es : List Edge) (shape : W32) (own dst : Nat) : Route :=
  match doNext shape own dst with
  | none => {}
  | some b =>
    let l := ((es.filter (fun e => e.1 == own && e.2.2 == b)).map (fun e => e.2.1)).take 4
    { low := l, high := l }

/-- The flock is the full torus of its shape (R484). -/
def State.torusFits (s : State) (es : List Edge) : Bool :=
  let shape := s.fab.shape
  let ex := extents shape
  let total := ex.foldl (· * ·) 1
  bitOf shape.toNat 31 && s.liveNodes.all (fun n => decide (n < total)) && es.all (fun e => (hopDim shape e.1 e.2.2).isSome) &&
    s.liveNodes.all (fun n => (List.range 3).all (fun d =>
      decide (ex.getD d 1 ≤ 1) || [true, false].all (fun w => es.any (fun e => e.1 == n && e.2.2 == stepTo shape n d w))))

/-! ## Route tables (R488, R490) -/

/-- The table of a plan, from the topology and the node table held. -/
def State.makeTable (s : State) (epoch : Nat) (torus : Bool) (root : Nat) (shape : W32) : RouteTable :=
  match s.fab.node with
  | none => { epoch, torus, routes := [] }
  | some own =>
    let es := s.edges
    let n := s.liveNodes.length
    let dep := depths es n root
    let mine := es.filter (fun e => e.1 == own)
    { epoch, torus
      routes := s.liveNodes.foldl (fun t d =>
        if d = own then t else tset {} t d (if torus then doRoute es shape own d else udRoute es n own dep d)) []
      hops := mine.foldl (fun t e =>
        let dim := (hopDim shape own e.2.2).getD 0
        let v := if torus then (dim, crossesDateline shape own e.2.2 dim) else (3, !linkIsUp dep own e.2.2)
        tput t e.2.1 v) [] }

/-- A port leaves every next-hop set of both tables (R493). -/
def State.unroute (p : Nat) (s : State) : State :=
  let cut := fun (r : Route) => ({ low := r.low.filter (fun q => q != p), high := r.high.filter (fun q => q != p) } : Route)
  s.modFab (fun f => { f with tables := f.tables.map (fun t =>
    { t with routes := (t.routes.map (fun x => (x.1, cut x.2))).filter (fun x => decide (x.2 ≠ {})) }) })

/-! ## Floods -/

/-- The next FSEQ of this device. -/
def State.nextFseq (s : State) : Nat × State :=
  let n := s.fab.fseq + 1
  (n, s.modFab (fun f => { f with fseq := n % 2 ^ 32 }))

def State.upPorts (s : State) : List Nat := (List.range 32).filter (fun p => decide ((s.fport p).link = .up))

/-- The link of port `p` as LINK_REPORT gives it. -/
def FabPort.info (x : FabPort) : LinkInfo :=
  { uid := x.neighbourUid, port := x.neighbourPort
    lanes := if x.link = .up then (if x.lanes = 255 then 8 else 4) else 0, up := decide (x.link = .up) && x.closing.isNone }

def State.ownLinks (s : State) : List LinkInfo := (List.range 32).map (fun p => (s.fport p).info)

/-- Keep the latest LINK_REPORT of an origin (R476). -/
def State.keepReport (uid : W64) (l : List LinkInfo) (s : State) : State :=
  s.modFab (fun f => { f with reports := f.reports.filter (fun r => r.uid != uid) ++ [⟨uid, l⟩] })

/-- Entries of NODE_TABLE for a list of numbers; a number that is free has no UID. -/
def State.nodeEntries (s : State) (l : List Nat) : List NodeEntry :=
  l.map (fun n => let x := s.node n; ⟨n, x.uid, x.inc, x.live, x.versions⟩)

/-- The bellwether floods a change of the node table under the next TABLE_VERSION (R480), and a plan is due. -/
def State.floodNodes (l : List Nat) (s : State) : State :=
  if l.isEmpty then s
  else
    let s := s.modFab (fun f => { f with tableVersion := (f.tableVersion + 1) % 2 ^ 32, planDue := true })
    let (n, s) := s.nextFseq
    s.emit (.nodeTable n s.fab.tableVersion false (s.nodeEntries l))

/-- The bellwether floods a FULL copy (R480). -/
def State.floodFull (s : State) : State :=
  let (n, s) := s.nextFseq
  s.emit (.nodeTable n s.fab.tableVersion true (s.nodeEntries (s.fab.nodes.map (fun p => p.1))))

def State.modNode (n : Nat) (f : Node → Node) (s : State) : State :=
  s.modFab (fun x => { x with nodes := tmod {} x.nodes n f })

/-- Mark nodes GONE (R482). -/
def State.goneNodes (l : List Nat) (s : State) : State :=
  (s.forEach l (fun n s => s.modNode n (fun x => { x with live := false, goneAt := some s.time.now }))).floodNodes l

/-- The bellwether marks GONE every node that no path of UP links joins to it (R482); a plan is due. -/
def State.topologyChanged (s : State) : State :=
  if !s.fab.bellwether then s
  else
    let s := s.modFab (fun f => { f with planDue := true })
    match s.fab.node with
    | none => s
    | some own =>
      let d := depths s.edges s.liveNodes.length own
      s.goneNodes (s.liveNodes.filter (fun n => tget 0 d n == 0))

/-- Flood LINK_REPORT (R476). -/
def State.floodLinks (s : State) : State :=
  let (n, s) := s.nextFseq
  ((s.keepReport s.uid s.ownLinks).emit (.linkReport n s.ownLinks)).topologyChanged

/-- REFRESH to the bellwether (R480, R481). -/
def State.sendRefresh (node : Option Nat) (s : State) : State := s.emit (.refresh node s.fab.tableVersion)

/-- NODE of a REFRESH that asks for no node: the hint, of a device that has no number and a valid one. -/
def State.hintNow (s : State) : Option Nat := if s.fab.node.isNone && s.fab.hintValid then some s.fab.hint else none

/-- HELLO on a port (R460). -/
def State.sendHello (p : Nat) (s : State) : State := s.emit (.hello p s.fab.term s.fab.bwUid)

/-! ## The device's own node number (R481, R483, R504) -/

/-- The device takes what the node table says of it. A number it did not have before `old` and that is not its valid hint
came by rule 3 of R481, and a change of number under R483; either sets NODE_CONFLICT, but not the number it assumes. -/
def State.ownNode (old : List (Nat × Node)) (s : State) : State :=
  let n := s.nodeOfUid s.uid
  if n = s.fab.node then s
  else
    let conflict := match n with
      | some k =>
        ((s.fab.hintValid && k != s.fab.hint && (tget ({} : Node) old k).uid != s.uid) || s.fab.node.isSome) &&
          !(s.health.assuming.any (fun a => a.2.2.1 == k))
      | none => false
    let s := s.modFab (fun f => { f with
      node := n, nodeConflict := f.nodeConflict || conflict
      event := f.event ||| 1 ||| (if conflict then 8 else 0) })
    (s.tableChange).forEach s.upPorts (fun p s => s.sendHello p)

/-- Versions of fabric protocol the device offers (Table 02-7). -/
def fabricOffer : List Nat := [0x0302, 0x0204]

/-- The fabric version used with a node (R473). -/
def Node.version (x : Node) : Option Nat := agreeVersion fabricOffer (x.versions.map (·.toNat))

end Sys2Proof.Machine
end

