-- ==== Sys2Proof/Machine/Fabric.lean ====
section
/-! DEFINITION. Fabric ports and the router (R453 to R473, R489, R493 to R499): training, codewords and credits, checks
of a header, the choice of a next hop, delivery. -/

namespace Sys2Proof.Machine

/-! ## Link states -/

/-- The unit of port `p`. -/
def fabUnit (p : Nat) : UnitId := ⟨.fabPort, p⟩

/-- Lanes in service: 8, 4, or 0 when not UP (Table 15-9). -/
def FabPort.inService (x : FabPort) : Nat := if x.link ≠ .up then 0 else if x.lanes = 255 then 8 else 4

/-- CAPS of the port's Peloth entry (Table 15-9). -/
def FabPort.caps (x : FabPort) : Nat :=
  x.inService + 16 * x.link.code + 128 * b2n x.timingMaster + 256 * x.neighbourNode.getD 0 + 2 ^ 20 * b2n x.neighbourNode.isSome +
    2 ^ 24 * x.agreed

/-- Change a port; a change of its CAPS is a table update (R496). -/
def State.modLink (p : Nat) (f : FabPort → FabPort) (s : State) : State :=
  let t := s.modFport p f
  if (t.fport p).caps = (s.fport p).caps then t else t.tableChange

/-- Eye and FEC readings that a LINK record carries (Table 19-5). -/
def FabPort.readings (x : FabPort) : List Nat :=
  [x.eye.height.toNat, x.eye.width.toNat, x.eye.echo.toNat, x.fecCorrected, x.fecUncorrectable]

/-- A LINK record of a port. -/
def State.linkRecord (p reason : Nat) (s : State) : State := s.ledger 10 (fabUnit p) (.link p reason (s.fport p).readings)

/-- Flits of a packet (R466). -/
def flitsOf (p : Packet) : Nat := 1 + ceilDiv (9 * p.h.codewords) 8

/-- The flits of a packet leave the buffer of the input port it came by, which returns their credits (R468). -/
def State.freeInput (e : Queued) (s : State) : State :=
  if 32 ≤ e.inPort ∨ (s.fport e.inPort).link ≠ .up then s else s.emit (.credits e.inPort e.inVc (flitsOf e.packet))

/-- A port starts DETECT and transmits IDENTIFY (R454). -/
def State.detect (p : Nat) (s : State) : State :=
  (s.modLink p (fun x => { x with link := .detect, phase := 0, heldReason := 0, timingMaster := false, waitUntil := 0 })).emit
    (.identify p s.uid)

/-- A port is HELD with a reason (Table 15-2), and retrains after 1 s (R461). -/
def State.holdPort (p reason : Nat) (s : State) : State :=
  (s.modLink p (fun x => { x with
    link := .held, heldReason := reason, lastStatus := if reason = 2 then Status.version.code else 0
    waitUntil := s.time.now + 1000000000, event := x.event ||| 8 })).linkRecord p reason

/-- Training failed: back to DETECT, to wait 1 to 8 ms before IDENTIFY is sent again (R455). -/
def State.trainFail (p : Nat) (s : State) : State :=
  let n := (s.fport p).trainFails
  (s.modLink p (fun x => { x with
    link := .detect, phase := 0, timingMaster := false, trainFails := satInc 32 x.trainFails
    waitUntil := s.time.now + 1000000 * (1 + (s.uid.toNat + n + 1) % 8) })).linkRecord p 5

/-- A port leaves UP (R493, R494): its routes go, what waits is dropped, LINK_REPORT is flooded; other than by command it
is evidence and a LINK record. -/
def State.leaveUp (p : Nat) (dst : LinkState) (byCommand : Bool) (s : State) : State :=
  let x := s.fport p
  if x.link ≠ .up then s
  else
    let s := (s.unroute p).forEach x.out State.freeInput
    let s := s.modFab (fun f => { f with linkLostDrops := satAdd 32 f.linkLostDrops (x.out.length + x.unacked.length) })
    let s := s.modLink p (fun x => { x with
      link := dst, phase := 0, linkDowns := satInc 32 x.linkDowns, event := x.event ||| 1, out := [], unacked := []
      neighbourNode := none, agreed := 0, lanes := 0, timingMaster := false, waitUntil := 0, closing := none })
    let u := fabUnit p
    let s := if (s.unit u).state = .degraded ∧ (s.unit u).capsDegraded = none then s.setUnit u .ready else s
    let s := if byCommand then s else (s.evidence 14 none).linkRecord p 0
    let s := if dst = .detect then s.emit (.identify p s.uid) else s
    s.floodLinks

/-- A port whose unit no longer accepts work is DISABLED; one that does again starts DETECT, unless FAB_PORT_SET has taken
it down (Table 15-2). -/
def State.portUnitChanged (p : Nat) (s : State) : State :=
  let x := s.fport p
  if s.accepts (fabUnit p) then (if x.link = .disabled ∧ !x.takenDown then s.detect p else s)
  else if x.link = .up then s.leaveUp p .disabled true
  else if x.link = .disabled then s
  else s.modLink p (fun x => { x with link := .disabled, phase := 0, heldReason := 0 })

/-- A port comes UP (R456, R462, R468). -/
def State.enterUp (p : Nat) (s : State) : State :=
  let s := s.modLink p (fun x => { x with
    link := .up, heldReason := 0, lastStatus := 0, credits := [2048, 2048, 2048, 2048], upAt := s.time.now, unacked := [], expected := 0
    awaiting := false, badTimes := [], out := [], event := x.event ||| 1 })
  let u := fabUnit p
  let s := if (s.fport p).lanes ≠ 255 then s.setUnit u .degraded
    else if (s.unit u).state = .degraded ∧ (s.unit u).capsDegraded = none then s.setUnit u .ready else s
  s.floodLinks

/-- IDENTIFY_RX (R454, R459): the lower UID is the timing master. -/
def execIdentifyRx (port : Fin 32) (uid : W64) (farPort : Fin 32) (s : State) : Outcome :=
  .next (
    if (s.fport port).link ≠ .detect then s
    else
      let s := s.modLink port (fun x => { x with neighbourUid := uid, neighbourPort := farPort.val })
      if uid = s.uid then s.holdPort port 1
      else s.modLink port (fun x => { x with link := .training, phase := 1, timingMaster := decide (s.uid.toNat < uid.toNat) }))

/-- Lanes that come into service (R456): all, or 0–3, or 4–7. -/
def lanesInService (ok : Nat) : Option Nat :=
  if ok = 255 then some 255 else if ok % 16 = 15 then some 15 else if ok / 16 = 15 then some 240 else none

/-- TRAIN_PHASE_DONE (R454, R456 to R458, R460). -/
def execTrainPhaseDone (port : Fin 32) (lanesOk : Byte) (offsetPpb : Int) (eye : EyeReading) (s : State) : Outcome :=
  .next (
    let x := s.fport port
    match x.link, x.phase with
    | .training, 1 => s.modLink port (fun x => { x with phase := 2 })
    | .training, 2 => s.modLink port (fun x => { x with phase := 3 })
    | .training, 3 =>
      if x.timingMaster then s.modLink port (fun x => { x with phase := 4, freqOffset := 0 })
      else if 200000 < offsetPpb.natAbs then s.holdPort port 3
      else s.modLink port (fun x => { x with phase := 4, freqOffset := offsetPpb })
    | .training, 4 =>
      (match lanesInService lanesOk.toNat with
       | none => (s.modFport port (fun x => { x with eye })).holdPort port 4
       | some l =>
         (s.modLink port (fun x => { x with eye, lanes := l, link := .check, phase := 5, agreed := 0 })).sendHello port)
    | .check, _ => if x.agreed = 0 then s else s.enterUp port
    | _, _ => s)

/-- TRAIN_PHASE_TIMEOUT (R455). -/
def execTrainPhaseTimeout (port : Fin 32) (s : State) : Outcome :=
  .next (match (s.fport port).link with | .training | .check => s.trainFail port | _ => s)

/-- DETECT_RETRY (R455): IDENTIFY again after the wait. -/
def execDetectRetry (now : Nat) (port : Fin 32) (s : State) : Outcome :=
  .next (
    let s := s.at now
    let x := s.fport port
    if x.link = .detect ∧ x.waitUntil ≤ s.time.now then s.detect port else s)

/-- HELD_RETRAIN (R461). -/
def execHeldRetrain (now : Nat) (port : Fin 32) (s : State) : Outcome :=
  .next (
    let s := s.at now
    let x := s.fport port
    if x.link = .held ∧ x.waitUntil ≤ s.time.now then s.detect port else s)

/-- LINK_LOSS (R458, R467, R494). -/
def execLinkLoss (port : Fin 32) (s : State) : Outcome := .next (s.leaveUp port .detect false)

/-- HELLO_RX (R460): in CHECK the link agrees its version, or the port is HELD; on a link that is UP it tells the
neighbour's number. -/
def execHelloRx (port : Fin 32) (uid : W64) (inc : Nat) (node : Option Nat) (versions : List W16) (_term : Nat) (_bwUid : W64)
    (s : State) : Outcome :=
  .next (
    match (s.fport port).link with
    | .check =>
      (match agreeVersion fabricOffer (versions.map (·.toNat)) with
       | none => s.holdPort port 2
       | some v => s.modLink port (fun x => { x with neighbourUid := uid, neighbourInc := inc, neighbourNode := node, agreed := v }))
    | .up =>
      if (s.fport port).neighbourUid = uid then s.modLink port (fun x => { x with neighbourInc := inc, neighbourNode := node }) else s
    | _ => s)

/-! ## Codewords and credits (R462 to R468) -/

/-- Codewords that a port has sent since it came UP: 5,440 line bits each at 112 Gb/s a lane (log entry 39). -/
def State.codewordsSent (s : State) (p : Nat) : Nat :=
  let x := s.fport p
  (s.time.now - x.upAt) * (112 * x.inService) / 5440

/-- A packet is of the response class (R469). -/
def isResponse (p : Packet) : Bool := decide (2 ≤ p.h.vc.val)

/-- The next packet an output starts (R468, R469): response class first, input ports in turn within a class, the packets
of one input and virtual channel in order, and only where the credits hold the whole packet. -/
def FabPort.pick (x : FabPort) : Option Queued :=
  let heads := x.out.foldl (fun (l : List Queued) e =>
    if l.any (fun h => h.inPort == e.inPort && h.packet.h.vc == e.packet.h.vc) then l else l ++ [e]) []
  let fits := heads.filter (fun e => decide (flitsOf e.packet ≤ x.credits.getD e.packet.h.vc.val 0))
  let turn := fun (last : Nat) (l : List Queued) =>
    ((List.range 33).map (fun i => (last + 1 + i) % 33)).findSome? (fun q => l.find? (fun e => e.inPort == q))
  match turn x.lastResp (fits.filter (fun e => isResponse e.packet)) with
  | some e => some e
  | none => turn x.lastReq (fits.filter (fun e => !isResponse e.packet))

/-- An output sends what its credits let it; `n` bounds the packets. -/
def State.pump (p : Nat) : Nat → State → State
  | 0, s => s
  | n + 1, s =>
    match (s.fport p).pick with
    | none => s
    | some e =>
      let k := e.packet
      let cw := s.codewordsSent p % 65536
      let s := s.modFport p (fun x => { x with
        out := x.out.erase e
        credits := lset x.credits k.h.vc.val (x.credits.getD k.h.vc.val 0 - flitsOf k)
        txFlits := satAdd 64 x.txFlits (flitsOf k)
        unacked := x.unacked ++ [cw]
        lastResp := if isResponse k then e.inPort else x.lastResp
        lastReq := if isResponse k then x.lastReq else e.inPort })
      State.pump p n ((s.emit (.packet p k)).freeInput e)

/-- A port that FAB_PORT_SET takes down enters DISABLED once its output queues are empty, or 100 µs have passed (R495). -/
def State.finishClose (p : Nat) (s : State) : State :=
  match (s.fport p).closing with
  | some t => if (s.fport p).out.isEmpty || decide (t ≤ s.time.now) then s.leaveUp p .disabled true else s
  | none => s

/-- CODEWORD_RX (R463, R467): an uncorrectable codeword and every later one are discarded until it arrives again. -/
def execCodewordRx (now : Nat) (port : Fin 32) (n : W16) (corrected : Nat) (uncorrectable : Bool) (flits : Nat) (s : State) :
    Outcome :=
  .next (
    let s := (s.at now).finishClose port
    let x := s.fport port
    if x.link ≠ .up then s
    else if uncorrectable then
      let bad := s.time.now :: x.badTimes.filter (fun t => decide (s.time.now < t + 1000000))
      let first := !x.awaiting
      let s := s.modFport port (fun x => { x with
        fecUncorrectable := satInc 32 x.fecUncorrectable, event := x.event ||| 2, badTimes := bad
        awaiting := true, expected := if first then n.toNat else x.expected })
      let s := s.evidence 13 none
      if 16 < bad.length then s.leaveUp port .detect false
      else if first ∨ n.toNat = x.expected then s.emit (.nak port n.toNat) else s
    else
      let s := s.modFport port (fun x => { x with fecCorrected := satAdd 64 x.fecCorrected corrected })
      if n.toNat ≠ x.expected then s
      else
        let s := s.modFport port (fun x => { x with
          expected := (x.expected + 1) % 65536, awaiting := false, rxFlits := satAdd 64 x.rxFlits flits })
        if n.toNat % 64 = 63 then s.emit (.creditReturn port n.toNat) else s)

/-- CREDIT_RX (R467, R468): credits come back; a NAK asks for a replay, and where its codeword is no longer held the port
leaves UP. -/
def execCreditRx (port : Fin 32) (cw : W16) (nak : Bool) (credits : List Nat) (s : State) : Outcome :=
  .next (
    let x := s.fport port
    if x.link ≠ .up then s
    else
      let s := s.modFport port (fun x => { x with
        credits := (List.range 4).map (fun v => min 2048 (x.credits.getD v 0 + credits.getD v 0)) })
      let s :=
        if nak then
          if 256 < (s.codewordsSent port + 65536 - cw.toNat) % 65536 ∧ (s.codewordsSent port + 65536 - cw.toNat) % 65536 < 32768 then
            s.leaveUp port .detect false
          else
            (s.modFport port (fun x => { x with replays := satInc 32 x.replays })).emit (.replayFrom port cw.toNat)
        else s.modFport port (fun x => { x with unacked := x.unacked.filter (fun c => decide (0 < sdiff 16 c cw.toNat)) })
      (s.pump port (s.fport port).out.length).finishClose port)

/-! ## The router -/

/-- HCRC (R465): CRC-32C over bits [223:0] with VC, HOPS and CE taken as 0. -/
def headerCrc (h : Header) : W32 :=
  crc32c (leBytes 28 (1 + 64 * h.epoch.val + 2 ^ 8 * h.op.val + 2 ^ 12 * (h.codewords % 16) + 2 ^ 16 * (h.dst % 4096) +
    2 ^ 28 * (h.src % 4096) + 2 ^ 40 * h.version.toNat + 2 ^ 64 * (h.srcInc % 2 ^ 32) + 2 ^ 96 * (h.seq % 2 ^ 24) +
    2 ^ 120 * b2n h.space + 2 ^ 121 * (h.rlen % 16) + 2 ^ 128 * (h.addr % 2 ^ 48) + 2 ^ 176 * (h.keyIndex % 65536) +
    2 ^ 192 * h.keyValue.toNat))

/-- The table that an epoch modulo 4 names (R491). -/
def State.tableFor (s : State) (e : Nat) : Option RouteTable := s.fab.tables.find? (fun t => t.epoch % 4 == e)

/-- The virtual channel of the hop over port `q` for a packet that came by `inPort` on `vc` (R486, R487). -/
def RouteTable.hopVc (t : RouteTable) (inPort vc q : Nat) : Nat :=
  let (dim, upper) := tget (3, false) t.hops q
  let stays := vc % 2 == 1 && (!t.torus || (inPort != 32 && (tget (3, false) t.hops inPort).1 == dim))
  vc / 2 * 2 + b2n (upper || stays)

/-- The port with the most free credits of its virtual channel, ties to the lower (R489). -/
def State.bestPort (s : State) (vcOf : Nat → Nat) : List Nat → Option Nat
  | [] => none
  | q :: r =>
    match s.bestPort vcOf r with
    | none => some q
    | some b => if (s.fport b).credits.getD (vcOf b) 0 ≤ (s.fport q).credits.getD (vcOf q) 0 then some q else some b

/-- Flits waiting at an output on a virtual channel. -/
def FabPort.waitingOn (x : FabPort) (vc : Nat) : Nat :=
  ((x.out.filter (fun e => e.packet.h.vc.val == vc)).map (fun e => flitsOf e.packet)).sum

/-- Send a packet on towards another node (R470, R486 to R491, R493); `inPort` 32 is this device. -/
def State.route (inPort : Nat) (k : Packet) (s : State) : State :=
  let e : Queued := ⟨inPort, k.h.vc.val, k⟩
  match s.tableFor k.h.epoch.val with
  | none => (s.modFab (fun f => { f with epochDrops := satInc 32 f.epochDrops })).freeInput e
  | some t =>
    let hops := if inPort = 32 then k.h.hops else k.h.hops + 1
    let r := tget {} t.routes k.h.dst
    let set := if k.h.vc.val % 2 = 1 then r.high else r.low
    if 63 < hops then (s.modFab (fun f => { f with hopLimitDrops := satInc 32 f.hopLimitDrops })).freeInput e
    else if !(s.node k.h.dst).live then (s.modFab (fun f => { f with unroutable := satInc 32 f.unroutable })).freeInput e
    else
      match s.bestPort (t.hopVc inPort k.h.vc.val) set with
      | none => (s.modFab (fun f => { f with unroutable := satInc 32 f.unroutable })).freeInput e
      | some q =>
        let vc := t.hopVc inPort k.h.vc.val q
        let mark := decide (1024 < (s.fport q).waitingOn vc)
        let k := { k with h := { k.h with hops, vc := Fin.ofNat 4 vc, ce := k.h.ce || mark } }
        let s := s.modFport q (fun x => { x with
          out := x.out ++ [{ e with packet := k }], ceMarks := if mark then satInc 32 x.ceMarks else x.ceMarks })
        s.pump q (s.fport q).out.length

/-- A packet this device sends (R491, R465): to itself it is handed over at once. -/
def State.sendPacket (k : Packet) (s : State) : State :=
  let h := { k.h with epoch := Fin.ofNat 4 s.fab.epoch, hops := 0, ce := k.h.ce, vc := if 8 ≤ k.h.op.val then 2 else 0 }
  let k := { k with h := { h with hcrc := headerCrc h } }
  if s.fab.node = some k.h.dst then s.modFab (fun f => { f with inbox := f.inbox ++ [k] }) else s.route 32 k

/-- A response to a packet. -/
def respTo (k : Packet) (op : Fin 16) (data : Bytes) (ce poison : Bool) : Packet :=
  { h := { k.h with op, codewords := data.length / 32, dst := k.h.src, src := k.h.dst, hops := 0, ce := k.h.ce || ce, rlen := 0, addr := 0,
                    keyIndex := 0, keyValue := 0 }
    data, poison }

/-- NAK with a status (Table 16-5). -/
def nakTo (k : Packet) (st : Status) (ce : Bool) : Packet := respTo k 11 (fixLen 32 (leBytes 2 st.code)) ce false

/-- The incarnation that this device puts in SRC_INC towards a node: 0 at major 2 (R473). -/
def State.ownIncFor (s : State) (n : Nat) : Nat := if ((s.node n).version.getD 0) / 256 = 2 then 0 else s.deviceInc

/-- Send a response with this device's own incarnation. -/
def State.sendResponse (k : Packet) (s : State) : State :=
  s.sendPacket { k with h := { k.h with srcInc := s.ownIncFor k.h.dst } }

/-- The checks of a header that arrives on a port (R465, R471): false where the packet is dropped. -/
def State.admitHeader (p : Nat) (k : Packet) (s : State) : Bool × State :=
  if (s.fport p).link ≠ .up then (false, s)
  else if k.h.hcrc ≠ headerCrc k.h then
    (false, (s.modFab (fun f => { f with hcrcErrors := satInc 32 f.hcrcErrors })).freeInput ⟨p, k.h.vc.val, k⟩)
  else if k.h.hops = 0 ∧ (s.fport p).neighbourNode ≠ some k.h.src then
    (false, ((s.modFport p (fun x => { x with spoofDrops := satInc 32 x.spoofDrops, event := x.event ||| 4 })).countSpoof 4 none).freeInput
      ⟨p, k.h.vc.val, k⟩)
  else (true, s)

/-- A packet's version is refused: outside the agreement (R76), or with a node with which no major is shared (R73). -/
def Node.refuses (n : Node) (v : Nat) : Bool := match n.version with | some a => versionRefused a v | none => true

/-- The source checks of a packet for the own node that came by port `port`, its version, and its handing over (R472, R73,
R76). -/
def State.takePacket (port : Nat) (k : Packet) (s : State) : State :=
  let n := s.node k.h.src
  let e : Queued := ⟨port, k.h.vc.val, k⟩
  match s.tableFor k.h.epoch.val with
  | none => (s.modFab (fun f => { f with epochDrops := satInc 32 f.epochDrops })).freeInput e
  | some _ =>
    if !n.live || k.h.srcInc != n.inc then
      let s := (s.modFab (fun f => { f with staleSource := satInc 32 f.staleSource })).freeInput e
      let last := tget 0 s.fab.refreshAt k.h.src
      if last ≠ 0 ∧ s.time.now + 1 < last + 1000000 then s
      else
        (s.modFab (fun f => { f with refreshAt := tset 0 f.refreshAt k.h.src (s.time.now + 1) })).sendRefresh s.hintNow
    else if n.refuses k.h.version.toNat then
      (if k.h.op.val < 8 then s.sendResponse (nakTo k .version false) else s).freeInput e
    else if k.h.op.val = 6 ∨ k.h.op.val = 7 ∨ 12 ≤ k.h.op.val then s.freeInput e
    else s.modFab (fun f => { f with inbox := f.inbox ++ [k], arrivals := f.arrivals ++ [e] })

/-- PACKET_FORWARD: a packet that arrives on a port and is not for this device. -/
def execPacketForward (port : Fin 32) (p : Packet) (s : State) : Outcome :=
  .next (
    if s.fab.node = some p.h.dst then s
    else match s.admitHeader port p with
      | (true, s) => s.route port p
      | (false, s) => s)

/-- PACKET_DELIVER: a packet that arrives on a port for this device. -/
def execPacketDeliver (port : Fin 32) (p : Packet) (s : State) : Outcome :=
  .next (
    if s.fab.node ≠ some p.h.dst then s
    else match s.admitHeader port p with
      | (true, s) => s.takePacket port p
      | (false, s) => s)

/-! ## Commands -/

/-- FAB_PORT_SET (R495). -/
def execFabPortSet (m : Fin 16) (s : State) : Outcome :=
  .next (s.runCommand m 0x0403
    (fun c _ => [c.lenAtLeast 2, failIf (decide (31 < c.arg 0x20 1 ∨ 1 < c.arg 0x21 1)) .badArg])
    (fun _ => statesOf 0x0403)
    (fun c s => [failIf (c.arg 0x21 1 == 1 && !s.accepts (fabUnit (c.arg 0x20 1))) .notReady])
    (fun c s =>
      let p := c.arg 0x20 1
      let x := s.fport p
      let s := s.modFport p (fun x => { x with takenDown := c.arg 0x21 1 == 0 })
      let s :=
        if c.arg 0x21 1 = 1 then (if x.link = .disabled ∧ s.accepts (fabUnit p) then s.detect p else s)
        else if x.link = .up then
          if x.closing.isSome then s
          else
            let s := ((s.modFport p (fun x => { x with closing := some (s.time.now + 100000) })).floodLinks).unroute p
            (s.pump p x.out.length).finishClose p
        else if x.link = .disabled then s
        else s.modLink p (fun x => { x with link := .disabled, phase := 0, heldReason := 0 })
      (s, [], false)))

/-- FAB_TOPOLOGY_GET (Table 15-12). -/
def execFabTopologyGet (m : Fin 16) (s : State) : Outcome :=
  .next (s.runCommand m 0x0404
    (fun _ _ => [])
    (fun _ => statesOf 0x0404)
    (fun _ _ => [])
    (fun _ s =>
      let f := s.fab
      let num := fun (n : Option Nat) => match n with | some k => leBytes 2 (k + 0x8000) | none => leBytes 2 0
      let up := ((List.range 32).map (fun p => 2 ^ p * b2n (decide ((s.fport p).link = .up)))).sum
      (s, num f.node ++ leBytes 2 0 ++ leBytes 4 f.term ++ leBytes 8 f.bwUid.toNat ++ leBytes 4 f.epoch ++ leBytes 4 up ++
        leBytes 8 0 ++ (List.range 32).flatMap (fun p => num (s.fport p).neighbourNode), false)))

end Sys2Proof.Machine
end

