-- ==== Sys2Proof/Machine/Shaping.lean ====
section
/-! DEFINITION. Transmit shaping of time-domain split cells (R402, R405 to R407): the FIR filter and the mask checker, the
ramps and the flags of a message. A downlink message is shaped as its frame leaves the egress queue (log entry 91). -/

namespace Sys2Proof.Machine

/-- The big-endian number a byte string spells (network byte order, R397). -/
def beNat (b : Bytes) : Nat := b.foldl (fun n x => n * 256 + x.toNat) 0

/-- `n` bytes of a number in network byte order. -/
def beBytes (n v : Nat) : Bytes := (leBytes n v).reverse

/-! ## Time-domain messages (Table 13-4); `p` starts with the eCPRI header -/

def tdEaxc (p : Bytes) : Nat := beNat ((p.drop 4).take 2)
def tdFrame (p : Bytes) : Nat := byteAt p 8
def tdSubframe (p : Bytes) : Nat := byteAt p 9 / 16
def tdSlot (p : Bytes) : Nat := byteAt p 9 % 16
def tdSymbol (p : Bytes) : Nat := byteAt p 10 % 16
def tdOffset (p : Bytes) : Nat := beNat ((p.drop 12).take 2)
def tdCount (p : Bytes) : Nat := beNat ((p.drop 14).take 2)

/-- The samples of a message. -/
def tdSamples (p : Bytes) : List (Int × Int) :=
  (List.range (tdCount p)).map (fun i =>
    (toInt 16 (beNat ((p.drop (16 + 4 * i)).take 2)), toInt 16 (beNat ((p.drop (18 + 4 * i)).take 2))))

/-- Samples in network byte order. -/
def tdBytes (l : List (Int × Int)) : Bytes :=
  l.flatMap (fun x => beBytes 2 (x.1 % 65536).toNat ++ beBytes 2 (x.2 % 65536).toNat)

/-- Slots of a subframe, and of the span of 1,024 frames. -/
def CellCfg.slotsPerMs (c : CellCfg) : Nat := if c.lte then 1 else 2 ^ c.mu
def CellCfg.spanSlots (c : CellCfg) : Nat := 10240 * c.slotsPerMs

/-- The slot of a message, in its span of 1,024 frames: the frame with its low 8 bits that lies nearest to the present
one. -/
def State.tdSlotNo (s : State) (c : CellCfg) (p : Bytes) : Nat :=
  let cur := s.sinceSfn0 s.time.now / 10000000
  let d := (tdFrame p + 256 - cur % 256) % 256
  let sfn := if d < 128 then (cur + d) % 1024 else (cur + 768 + d) % 1024
  (sfn * 10 + tdSubframe p) * c.slotsPerMs + tdSlot p

/-! ## Downlink symbols (Table 09-3) -/

/-- Symbol `k` of slot `n` is a downlink symbol; slot 0 of TDD_PATTERN is slot 0 of the span. -/
def CellCfg.symDl (c : CellCfg) (n k : Nat) : Bool :=
  !c.tdd ||
  match bitsOf c.tddPattern (2 * (n % c.tddPeriod)) 2 with
  | 0 => true
  | 2 => decide (k < c.sDl)
  | _ => false

/-- The symbol after and the symbol before. -/
def CellCfg.nextSym (c : CellCfg) (n k : Nat) : Nat × Nat :=
  if k + 1 < c.symbols then (n, k + 1) else ((n + 1) % c.spanSlots, 0)
def CellCfg.prevSym (c : CellCfg) (n k : Nat) : Nat × Nat :=
  if k = 0 then ((n + c.spanSlots - 1) % c.spanSlots, c.symbols - 1) else (n, k - 1)

/-- Samples from the start of symbol `k` of slot `n` to the first downlink symbol at or after it; `fuel` bounds the
symbols. -/
def CellCfg.untilDl (c : CellCfg) : Nat → Nat → Nat → Option Nat
  | 0, _, _ => none
  | fuel + 1, n, k =>
    if c.symDl n k then some 0
    else (c.untilDl fuel (c.nextSym n k).1 (c.nextSym n k).2).map (fun d => c.symLen n k + d)

/-- Samples from the end of the last downlink symbol before symbol `k` of slot `n` to its start. -/
def CellCfg.sinceDl (c : CellCfg) : Nat → Nat → Nat → Option Nat
  | 0, _, _ => none
  | fuel + 1, n, k =>
    let q := c.prevSym n k
    if c.symDl q.1 q.2 then some 0 else (c.sinceDl fuel q.1 q.2).map (fun d => c.symLen q.1 q.2 + d)

/-- The symbol in which a sample lies that is given by an offset from the start of symbol `k` of slot `n`. -/
def CellCfg.symAt (c : CellCfg) : Nat → Nat → Nat → Nat → Nat × Nat × Nat
  | 0, n, k, o => (n, k, o)
  | fuel + 1, n, k, o =>
    if o < c.symLen n k then (n, k, o)
    else c.symAt fuel (c.nextSym n k).1 (c.nextSym n k).2 (o - c.symLen n k)

/-- Symbols within which a ramp lies. -/
def rampFuel : Nat := 64

/-! ## Ramps (R406, R407) -/

/-- What a sample of a cell in ramp mode lies in: a downlink symbol or its windowing overlap, a place of a ramp, or a guard
or uplink period outside the ramps. -/
inductive RampPlace where
  | on | up (j : Nat) | down (j : Nat) | off
  deriving DecidableEq, Repr

/-- The place of the sample at offset `o` of symbol `k` of slot `n`: a ramp-up ends at the first sample of the first
downlink symbol, a ramp-down starts behind the overlap of the last one (R406). -/
def CellCfg.rampPlace (c : CellCfg) (len n k o : Nat) : RampPlace :=
  let at' := c.symAt rampFuel n k o
  let n := at'.1
  let k := at'.2.1
  let o := at'.2.2
  let q := c.prevSym n k
  if c.symDl n k then if o = 0 ∧ c.symDl q.1 q.2 = false then .up (len - 1) else .on
  else
    let over' := Config.cellOverlap c.bw c.scs
    let gone := (c.sinceDl rampFuel n k).map (fun d => d + o)
    let left := (c.untilDl rampFuel n k).map (fun d => d - o)
    match gone, left with
    | some g, l =>
      if g < over' then .on
      else if g < over' + len then .down (len - 1 - (g - over'))
      else (match l with | some d => if d < len then .up (len - 1 - d) else .off | none => .off)
    | none, some d => if d < len then .up (len - 1 - d) else .off
    | none, none => .off

/-- A sample times the gain at position j × 63 / (RAMP_LEN − 1), linearly interpolated; the exact product is rounded half
up. -/
def rampGain (shape : Bytes) (len j : Nat) (v : Int) : Int :=
  let g := fun i => fieldAt shape (0x40 + 2 * i) 2
  let i := j * 63 / (len - 1)
  let r := j * 63 % (len - 1)
  let w : Nat := g i * (len - 1 - r) + g (min 63 (i + 1)) * r
  let den : Nat := (len - 1) * 2 ^ 15
  (2 * v * w + den) / (2 * den)

/-- A sample in ramp mode. -/
def rampSample (shape : Bytes) (len : Nat) (x : Int × Int) : RampPlace → Int × Int
  | .up j | .down j => (rampGain shape len j x.1, rampGain shape len j x.2)
  | .on | .off => x

/-- RAMP of a message whose samples lie in these places (Table 13-4): PA_ON, RAMP_UP, RAMP_DOWN. -/
def rampFlags (l : List RampPlace) : Nat :=
  b2n (l.any (fun p => p != .off)) + 2 * b2n (l.any (fun p => match p with | .up _ => true | _ => false)) +
    4 * b2n (l.any (fun p => match p with | .down _ => true | _ => false))

/-! ## The FIR filter and the mask checker (R405) -/

/-- The coefficients of a mask table. -/
def firTaps (shape : Bytes) : List Int := (List.range (fieldAt shape 2 2)).map (fun k => toInt 18 (fieldAt shape (0x40 + 4 * k) 4))

/-- One output sample out of the newest input samples, newest first: the exact sum, rounded half up to 16 bits and
saturated. -/
def firSample (taps : List Int) (past : List (Int × Int)) : Int × Int :=
  let sum := fun (f : Int × Int → Int) => ((taps.zip past).map (fun p => p.1 * f p.2)).sum
  ((clamp16 (roundBy 16 (sum (fun x => x.1)))).1, (clamp16 (roundBy 16 (sum (fun x => x.2)))).1)

/-- Filter samples in order, starting from those before them, newest first; answers the output and the samples to keep. -/
def firRun (taps : List Int) : List (Int × Int) → List (Int × Int) → List (Int × Int) × List (Int × Int)
  | past, [] => ([], past)
  | past, x :: r =>
    let past := (x :: past).take taps.length
    let y := firRun taps past r
    (firSample taps past :: y.1, y.2)

/-- Sum of the powers of some bins of a spectrum. -/
def binPower (spec : List (Int × Int)) (bins : List Nat) : Nat :=
  (bins.map (fun i => let p := spec.getD i (0, 0); (p.1 * p.1 + p.2 * p.2).toNat)).sum

/-- The mean power `a` / `na` exceeds `b` / `nb` by more than `limit` tenths of a decibel. -/
def exceeds (a na b nb : Nat) (limit : Int) : Bool :=
  decide ((b * na) ^ 100 * 10 ^ limit.toNat < (a * nb) ^ 100 * 10 ^ (-limit).toNat)

/-- Enabled bands of a mask table that exceed their LIMIT in a symbol without its prefix (R405). A band without bins exceeds
none. -/
def bandsOver (c : CellCfg) (shape : Bytes) (x : List (Int × Int)) : Nat :=
  let spec := (List.range c.points).map (fun i => let p := Config.dft false x i; (p.1.toInt, p.2.toInt))
  let ch := (List.range c.points).filter (fun i => Config.channelBin c.bw c.scs i)
  (List.range 16).countP (fun b =>
    let e := 0x200 + 8 * b
    let bins := (List.range c.points).filter (fun i => decide (fieldAt shape e 2 ≤ i ∧ i ≤ fieldAt shape (e + 2) 2))
    fieldAt shape (e + 6) 2 != 0 && exceeds (binPower spec bins) bins.length (binPower spec ch) ch.length
      (toInt 16 (fieldAt shape (e + 4) 2)))

/-- The mask checker takes up the output samples of a message: one symbol of every 2^MASK_PERIOD that begin on the stream,
whole and in order. Answers the stream and, where the symbol is complete, its samples. -/
def Stream.takeUp (period n k o : Nat) (y : List (Int × Int)) (size : Nat) (x : Stream) : Stream × Option (List (Int × Int)) :=
  let x := if o = 0 then
      { x with begun := (x.begun + 1) % 2 ^ period
               taken := if x.begun = 0 then some { slot := n, symbol := k } else none }
    else x
  match x.taken with
  | none => (x, none)
  | some m =>
    if m.slot ≠ n ∨ m.symbol ≠ k ∨ m.samples.length ≠ o then ({ x with taken := none }, none)
    else
      let all := m.samples ++ y
      if all.length < size then ({ x with taken := some { m with samples := all } }, none)
      else ({ x with taken := none }, some (all.take size))

/-! ## Shaping a message -/

/-- What becomes of a downlink message: sent, with its bytes, or withheld (R407). -/
inductive Shaped where
  | send (p : Bytes)
  | withhold
  deriving DecidableEq, Repr

/-- A message with other samples, and with other flags in RAMP. -/
def tdReplace (p : Bytes) (flags : Option Nat) (y : List (Int × Int)) : Bytes :=
  let p := match flags with | some f => p.take 11 ++ [BitVec.ofNat 8 (byteAt p 11 / 8 * 8 + f)] ++ p.drop 12 | none => p
  p.take 16 ++ tdBytes y ++ p.drop (16 + 4 * y.length)

/-- A downlink message of a cell in mask mode (R405): it leaves filtered; a band that exceeds its LIMIT counts and sets
MASK, and alters no sample. -/
def State.maskShape (lane cell : Nat) (p : Bytes) (s : State) : Shaped × State :=
  let c := (s.cell cell).cfg
  let shape := (s.cell cell).shape
  let st := tget ({} : Stream) (s.cell cell).shaping (tdEaxc p)
  let y := firRun (firTaps shape) st.past (tdSamples p)
  let n := s.tdSlotNo c p
  let k := tdSymbol p
  let up := Stream.takeUp (fieldAt shape 6 2) n k (tdOffset p) y.1 (c.symLen n k) { st with past := y.2 }
  let s := s.modCell cell (fun x => { x with shaping := tset {} x.shaping (tdEaxc p) up.1 })
  let bad := match up.2 with | some all => bandsOver c shape (all.drop (c.symLen n k - c.points)) | none => 0
  let s := if bad = 0 then s else
    (s.modLane lane (fun l => { l with maskViolations := satAdd 32 l.maskViolations bad })).modFhPort (lane / 4)
      (fun q => { q with event := q.event ||| 16 })
  (.send (tdReplace p none y.1), s)

/-- A downlink message of a cell in ramp mode (R406, R407). -/
def State.rampShape (cell : Nat) (p : Bytes) (s : State) : Shaped :=
  let c := (s.cell cell).cfg
  let shape := (s.cell cell).shape
  let len := fieldAt shape 4 2
  let n := s.tdSlotNo c p
  let x := tdSamples p
  let places := (List.range x.length).map (fun i => c.rampPlace len n (tdSymbol p) (tdOffset p + i))
  if places.all (fun q => q == .off) then .withhold
  else .send (tdReplace p (some (rampFlags places)) ((x.zip places).map (fun q => rampSample shape len q.1 q.2)))

end Sys2Proof.Machine
end

