-- ==== Sys2Proof/Machine/Fronthaul.lean ====
section
/-! DEFINITION. Fronthaul lanes (chapter 13): classification and policing of received frames, their delivery, the
three-level egress scheduler, and links. -/

namespace Sys2Proof.Machine

/-- Bytes of a frame from its destination address to the byte before the FCS. -/
def frameBytes (f : Frame) : Bytes :=
  beBytes 6 f.dst.toNat ++ beBytes 6 f.src.toNat ++
    (if f.tagged then beBytes 2 0x8100 ++ beBytes 2 (f.pcp.toNat * 8192 + 4096 * b2n f.dei + f.vid.toNat) else []) ++
    beBytes 2 f.etherType.toNat ++ f.payload

/-! ## Colours (R424, R425) -/

/-- The pre-colour of a frame in colour-aware mode: 0 green, 1 yellow, 2 red. -/
def preColour (l : Lane) (c : PolicerCfg) (f : Frame) : Nat :=
  if c.colourSrc = 1 then
    (if f.tagged then bitsOf l.pcpDeiMap.toNat (2 * (f.pcp.toNat * 2 + b2n f.dei)) 2 else 0)
  else if c.colourSrc = 2 then
    (if f.etherType = 0x0800#16 then bitsOf l.dscpMap (2 * (byteAt f.payload 1 / 4)) 2
     else if f.etherType = 0x86DD#16 then bitsOf l.dscpMap (2 * (beNat (f.payload.take 2) / 64 % 64)) 2
     else 0)
  else 0

/-- Buckets filled up to `now`: RFC 2697 fills the committed bucket and passes its overflow to the excess one, RFC 2698
fills each at its own rate. Units are 10^-6 bit. -/
def Policer.fill (now : Nat) (p : Policer) : Policer :=
  let c := p.cfg.cbs * 8000000
  let e := p.cfg.ebs * 8000000
  if p.full then { p with tc := c, te := e, at' := now, full := false }
  else
    let t := p.tc + p.cfg.cir * (now - p.at')
    let te := if p.cfg.rfc2698 then p.te + p.cfg.pir * (now - p.at') else p.te + (t - c)
    { p with tc := min c t, te := min e te, at' := now }

/-- The colour of a frame of `n` bytes with a pre-colour, and the buckets after it (RFC 2697, RFC 2698). -/
def Policer.mark (pre n : Nat) (p : Policer) : Nat × Policer :=
  let b := n * 8000000
  if p.cfg.rfc2698 then
    if 2 ≤ pre ∨ p.te < b then (2, p)
    else if pre = 1 ∨ p.tc < b then (1, { p with te := p.te - b })
    else (0, { p with te := p.te - b, tc := p.tc - b })
  else if pre = 0 ∧ b ≤ p.tc then (0, { p with tc := p.tc - b })
  else if pre ≤ 1 ∧ b ≤ p.te then (1, { p with te := p.te - b })
  else (2, p)

/-- Police a frame: its colour counts on the lane; answers the colour and whether the frame passes. -/
def State.police (lane k n : Nat) (f : Frame) (s : State) : Nat × Bool × State :=
  let l := s.lane lane
  let p := (tget ({} : Policer) l.policers k).fill s.time.now
  let (c, p) := p.mark (preColour l p.cfg f) n
  let s := s.modLane lane (fun l => { l with
    policers := tset {} l.policers k p
    rxGreen := if c = 0 then satInc 64 l.rxGreen else l.rxGreen
    rxYellow := if c = 1 then satInc 64 l.rxYellow else l.rxYellow
    rxRed := if c = 2 then satInc 64 l.rxRed else l.rxRed })
  (c, c == 0 || (c == 1 && !p.cfg.yellowDrop), s)

/-! ## Radio flows (R397 to R403, R421, R422) -/

/-- The cell on a lane that has a stream with this eAxC ID (R421). -/
def State.flowCell (s : State) (lane eaxc : Nat) : Option Nat :=
  (s.reservedCells.find? (fun p =>
    let c := p.2.cfg
    cellLane c == lane && decide (c.eaxcBase ≤ eaxc ∧ eaxc < c.eaxcBase + max (streams c 0) (streams c 1)))).map (fun p => p.1)

/-- The width and method code that a cell's uplink messages carry (R401): method in bits 3:0, width in bits 7:4. -/
def compHdr (c : CellCfg) : Nat := if c.udComp = 1 then 0 else 1 + 16 * (c.udWidth % 16)

/-- A frame of a lane's radio flows goes to its port buffer, where the lane's DMA channel takes it; LEVEL grows (R422;
log entry 33). -/
def State.toPort (lane : Nat) (b : Bytes) (s : State) : State :=
  let s := s.wr (.port lane) ((s.lane lane).placed % 2 ^ 32) b
  let s := s.modLane lane (fun l => { l with placed := l.placed + b.length })
  s.modChan lane 0 (DmaChan.addLevel b.length)

/-- The symbol range of a time-domain message (Table 13-4): slot within 256 frames, symbol of a stream, offset, count. -/
def tdRange (c : CellCfg) (eaxc : Nat) (p : Bytes) : Nat × Nat × Nat × Nat :=
  let slots := 10000000 / slotNs c
  let sub := byteAt p 9 / 16
  (byteAt p 8 * slots + sub * (slots / 10) + byteAt p 9 % 16, eaxc * 16 + byteAt p 10 % 16,
    beNat ((p.drop 12).take 2), beNat ((p.drop 14).take 2))

/-- Samples of a message overlap samples already held (R403). -/
def Cell.overlaps (x : Cell) (r : Nat × Nat × Nat × Nat) : Bool :=
  x.held.any (fun h => h.1 == r.1 && h.2.1 == r.2.1 && meet (h.2.2.1, h.2.2.2) (r.2.2.1, r.2.2.2))

/-- A U-plane message of a cell that has passed policing (R399, R401, R403). -/
def State.uplane (lane cell : Nat) (f : Frame) (due : Int) (s : State) : State :=
  let x := s.cell cell
  let p := f.payload
  let eaxc := beNat ((p.drop 4).take 2)
  let td := x.cfg.split == 2
  if !x.state.onAir then s
  else if !td && byteAt p 16 != compHdr x.cfg then s.modLane lane (fun l => { l with upFormatErr := satInc 32 l.upFormatErr })
  else if due < s.time.now then
    let s := s.modLane lane (fun l => { l with upLate := satInc 32 l.upLate })
    let s := s.modFhPort (lane / 4) (fun q => { q with event := q.event ||| 32 })
    let start := (due - (slotNs x.cfg * 3 / 2 : Nat)).toNat
    s.miss cell (s.slotAt x.cfg start) 5 1 ((s.time.now : Int) - due).toNat
  else
    let r := tdRange x.cfg eaxc p
    if td && x.overlaps r then s.modLane lane (fun l => { l with upSeqGap := satInc 32 l.upSeqGap })
    else
      let sq := byteAt p 6
      let gap := match x.seqIds.find? (fun q => q.1 == eaxc) with | some q => q.2 != sq + 1 | none => false
      let s := if gap then s.modLane lane (fun l => { l with upSeqGap := satInc 32 l.upSeqGap }) else s
      let s := s.modCell cell (fun x => { x with
        seqIds := tset 0 x.seqIds eaxc ((sq + 1) % 256 + 1)
        held := if td then x.held ++ [r] else x.held })
      s.toPort lane (frameBytes f)

/-! ## Tenant flows (R421, R423, R563) -/

/-- The instance and flow a frame on a lane belongs to. -/
def State.flowOf (s : State) (lane : Nat) (f : Frame) : Option (Nat × Flow) :=
  s.insts.findSome? (fun p =>
    if p.1 = 0 ∨ p.2.state = .unused then none
    else (p.2.grant.flows.find? (fun w => w.lane == lane && w.mac == f.dst.toNat && w.tagged == f.tagged &&
      (!f.tagged || w.vid == f.vid.toNat))).map (fun w => (p.1, w)))

/-- A receive record (Table 13-9) but for its PHASE. -/
def rxRecord (colour lane len ts time : Nat) : Bytes :=
  leBytes 4 (3 + 8 * colour + 256 * lane + 65536 * len) ++ leBytes 4 0 ++ leBytes 4 (ts % 2 ^ 32) ++
    List.replicate 12 0#8 ++ leBytes 8 time

/-- The receive timestamp (R433). -/
def State.rxTime (s : State) (lane : Nat) : Nat := ((s.time.now : Int) + (s.lane lane).rxAdj).toNat

/-- Deliver a tenant's frame to the flow's COMPLETION queue (R423). -/
def State.deliverFrame (lane inst : Nat) (w : Flow) (colour : Nat) (b : Bytes) (s : State) : State :=
  let full := fun (s : State) => s.modLane lane (fun l => { l with rxQueueFull := satInc 32 l.rxQueueFull })
  match s.cqState inst w.rxQueue, s.bringIn w.rxQueue with
  | .takes, some s =>
    (match s.queue w.rxQueue with
     | some c =>
       let off := c.producer % c.size * 9216
       if (s.handleStatus c.buf inst).isSome || decide ((s.obj (hdlEntry c.buf)).size < off + 9216) then full s
       else
         let room := chunkSize - off % chunkSize
         let s := s.objWrite (hdlEntry c.buf) off (b.take room)
         let s := if room < b.length then s.objWrite (hdlEntry c.buf) (off + room) (b.drop room) else s
         s.addCompletion inst w.rxQueue (rxRecord colour lane b.length (s.rxTime lane) s.time.now)
     | none => full s)
  | _, _ => full s

/-- A frame of a tenant flow. -/
def State.tenantFrame (lane inst : Nat) (w : Flow) (n : Nat) (f : Frame) (s : State) : State :=
  if !s.active inst then
    { s.modInst inst (fun x => { x with frozenDrops := satInc 32 x.frozenDrops }) with
      spoof := { s.spoof with event := s.spoof.event ||| 4 } }
  else
    match s.police lane w.policer n f with
    | (c, pass, s) => if pass then s.deliverFrame lane inst w c (frameBytes f) else s

/-- Lanes whose PTP and ESMC frames go to the timing subsystem (R432; log entry 34). -/
def State.timeLane (s : State) (lane : Nat) : Bool :=
  bitOf (s.time.primary.slaveLanes ||| s.time.mirror.slaveLanes ||| s.time.masterLanes).toNat lane ||
    (s.time.synceEn && s.time.synceLane == lane)

def State.unmatched (lane : Nat) (s : State) : State := s.modLane lane (fun l => { l with rxUnmatched := satInc 32 l.rxUnmatched })

/-- Classification, policing and delivery of a frame whose FCS is good (R420 to R423). -/
def State.classify (lane n : Nat) (f : Frame) (due : Int) (s : State) : State :=
  let p := f.payload
  let tenant := fun (s : State) =>
    match s.flowOf lane f with | some (i, w) => s.tenantFrame lane i w n f | none => s.unmatched lane
  if f.etherType = 0xAEFE#16 then
    if bitOf (byteAt p 0) 0 || !(byteAt p 1 == 0 || byteAt p 1 == 5) then s.unmatched lane
    else if byteAt p 1 = 5 then s.emit (.eCpri5 lane p)
    else
      match s.flowCell lane (beNat ((p.drop 4).take 2)) with
      | some c =>
        (match s.police lane (c % 64) n f with
         | (_, pass, s) => if pass then s.uplane lane c f due else s)
      | none => tenant s
  else if s.timeLane lane && (f.etherType == 0x88F7#16 || (f.etherType == 0x8809#16 && byteAt p 0 == 0x0A)) then s
  else tenant s

/-- FH_RX_FRAME (R396, R420): `dueNs` is the due time of the slot that a U-plane message carries. -/
def execFhRxFrame (now : Nat) (lane : Fin 32) (f : Frame) (dueNs : Int) (s : State) : Outcome :=
  .next (
    let s := s.at now
    let n := (frameBytes f).length + 4
    if !(s.lane lane).linkUp || !s.accepts ⟨.fhPort, lane / 4⟩ || decide (n < 64 ∨ 9216 < n) then s
    else if !f.fcsOk then s.modLane lane (fun l => { l with rxFcsErr := satInc 32 l.rxFcsErr })
    else
      let s := s.modLane lane (fun l => { l with rxFrames := satInc 64 l.rxFrames, rxBytes := satAdd 64 l.rxBytes n })
      s.classify lane n f dueNs)

/-! ## Egress descriptors (Table 13-8) -/

def eAddr (d : Bytes) : Nat := fieldAt d 0 8 % 2 ^ 60
def eSpace (d : Bytes) : Nat := byteAt d 7 / 16
def eLength (d : Bytes) : Nat := fieldAt d 8 2 % 2 ^ 14
def eTsReq (d : Bytes) : Bool := bitOf (fieldAt d 8 4) 14
def eLaunchEn (d : Bytes) : Bool := bitOf (fieldAt d 8 4) 15
def eDeadlineEn (d : Bytes) : Bool := bitOf (fieldAt d 8 4) 16
def eLaunch (d : Bytes) : Nat := fieldAt d 12 4
def eDeadline (d : Bytes) : Nat := fieldAt d 16 4

/-- A time of a descriptor lies ahead, or behind, by the sign of the difference modulo 2^32 (R414). -/
def ahead (t now : Nat) : Bool := decide (0 < sdiff 32 t now)
def behind (t now : Nat) : Bool := decide (sdiff 32 t now < 0)

/-- The head of an egress queue completes: write-back, and the entry is consumed (R415, R416). -/
def State.endEgress (q : Nat) (c : QCtx) (st : Status) (sent late : Bool) (ts : Option Nat) (s : State) : State :=
  let s := match ts with | some t => s.ringWrite c c.consumer 20 (leBytes 4 (t % 2 ^ 32)) | none => s
  let s := s.ringWrite c c.consumer 24 (leBytes 2 st.code ++ [BitVec.ofNat 8 (1 + 2 * b2n sent + 4 * b2n late)])
  s.popHead q

/-- The counted length of a frame on a lane (R418). -/
def counted (l : Lane) (d : Bytes) : Nat := eLength d + 4 + l.overhead

/-- Fields of a descriptor out of range (R415): a tenant's frame lies in BUF. -/
def State.egressBad (s : State) (inst : Nat) (c : QCtx) (d : Bytes) : Bool :=
  decide (eLength d < 60 ∨ 9212 < eLength d) ||
  (match eSpace d with
   | 0 => inst != 0 || decide (0x20000000 < eAddr d + eLength d)
   | 3 => decide ((s.obj (hdlEntry c.buf)).size < eAddr d + eLength d)
   | _ => true)

/-- Flow ownership of a tenant's frame (R557). -/
def State.frameOwned (s : State) (inst lane : Nat) (b : Bytes) : Bool :=
  let tagged := beNat ((b.drop 12).take 2) == 0x8100
  let vid := beNat ((b.drop 14).take 2) % 4096
  let ty := beNat ((b.drop (if tagged then 16 else 12)).take 2)
  let src := beNat ((b.drop 6).take 6)
  ty != 0xAEFE && ty != 0x88F7 && ty != 0x8809 &&
    (s.inst inst).grant.flows.any (fun w => w.lane == lane && w.mac == src && w.tagged == tagged && (!tagged || w.vid == vid))

/-! ## The scheduler (R417 to R419) -/

/-- An egress queue of a lane that may start its head frame: its counted length (0 for a malformed descriptor, which
takes nothing). -/
def State.egressLen (s : State) (lane q : Nat) : Option Nat :=
  match s.head q, s.queueOwner q with
  | some (c, d), some i =>
    let now := s.time.now
    if c.type ≠ 3 ∨ c.lane ≠ lane ∨ !s.active i ∨ (eLaunchEn d ∧ ahead (eLaunch d) now) ∨
        (eDeadlineEn d ∧ behind (eDeadline d) now) then none
    else
      let n := if s.egressBad i c d then 0 else counted (s.lane lane) d
      let g := (s.groupCtx c.group).getD {}
      if g.enable && g.err == 0 && g.lane == lane && g.cls == c.cls && (c.fill now).holds n && (g.fill now).holds n then some n
      else none
  | _, _ => none

/-- Deficit round-robin: the item served last goes on while its deficit lasts, then the next gains its quantum; `n`
bounds the turns. Answers the item and the deficits. -/
def drr (need quantum : Nat → Nat) : Nat → Bool → List Nat → List (Nat × Nat) → Option (Nat × List (Nat × Nat))
  | 0, _, _, _ => none
  | _, _, [], _ => none
  | n + 1, fresh, x :: r, ds =>
    let d := tget 0 ds x + (if fresh then quantum x else 0)
    let ds := tset 0 ds x d
    if need x ≤ d then some (x, ds) else drr need quantum n true (r ++ [x]) ds

/-- Items in round-robin order from the one served last, and whether its turn is over. -/
def turnOrder (l : List Nat) (last : Nat) : Bool × List Nat :=
  let rest := l.filter (fun x => decide (last < x)) ++ l.filter (fun x => decide (x < last))
  if l.contains last then (false, last :: rest) else (true, rest)

/-- The choice within a class: group, queue and the deficits of both levels. -/
structure Choice where
  group : Nat
  queue : Nat
  queueDefs : List (Nat × Nat)
  groupDefs : List (Nat × Nat)

/-- Eligible queues of a lane with their counted lengths. -/
def State.eligibleQueues (s : State) (lane : Nat) : List (Nat × Nat) :=
  s.queues.cached.filterMap (fun p => (s.egressLen lane p.1).map (fun n => (p.1, n)))

def State.queueOf (s : State) (q : Nat) : QCtx := (s.queue q).getD {}

/-- Choose within a group (R417 step 3). -/
def State.pickQueue (s : State) (lane : Nat) (el : List (Nat × Nat)) (g : Nat) : Option (Nat × List (Nat × Nat)) :=
  let qs := (el.filter (fun p => (s.queueOf p.1).group == g)).map (fun p => p.1)
  let (fresh, order) := turnOrder qs (tget 0 (s.lane lane).lastQueue g)
  drr (fun q => tget 0 el q) (fun q => (s.queueOf q).weight * 256) (64 * qs.length) fresh order
    (qs.filterMap (fun q => if (s.queueOf q).deficit = 0 then none else some (q, (s.queueOf q).deficit)))

/-- Choose within a class (R417 step 2). -/
def State.pickGroup (s : State) (lane k : Nat) (el : List (Nat × Nat)) : Option Choice :=
  let el := el.filter (fun p => (s.queueOf p.1).cls == k)
  let gs := (el.map (fun p => (s.queueOf p.1).group)).foldl (fun t g => tput t g ()) ([] : List (Nat × Unit)) |>.map (fun p => p.1)
  let need := fun g => match s.pickQueue lane el g with | some (q, _) => tget 0 el q | none => 0
  let grp := fun g => (s.groupCtx g).getD {}
  let (fresh, order) := turnOrder gs (tget 0 (s.lane lane).lastGroup k)
  match drr need (fun g => (grp g).weight * 256) (64 * gs.length) fresh order
      (gs.filterMap (fun g => if (grp g).deficit = 0 then none else some (g, (grp g).deficit))) with
  | none => none
  | some (g, gd) => (s.pickQueue lane el g).map (fun p => ⟨g, p.1, p.2, gd⟩)

/-- The frame to start: the highest class with an eligible group (R417 step 1). -/
def State.pickFrame (s : State) (lane : Nat) : Option Choice :=
  let el := s.eligibleQueues lane
  ([7, 6, 5, 4, 3, 2, 1, 0].find? (fun k => el.any (fun p => (s.queueOf p.1).cls == k))).bind (fun k => s.pickGroup lane k el)

/-- The groups of a lane's queues enter the cache. -/
def State.bringGroups (lane : Nat) (s : State) : State :=
  s.forEach (s.queues.cached.filter (fun p => match p.2 with | some c => c.type == 3 && c.lane == lane | none => false))
    (fun p s => match p.2, s.queueOwner p.1 with | some c, some i => s.bringGroup i c.group | _, _ => s)

/-- Deficits after a choice, the frame's counted length charged to queue and group; an item left without frames keeps
none. -/
def State.charge' (lane n : Nat) (ch : Choice) (s : State) : State :=
  let now := s.time.now
  let s := s.forEach ch.queueDefs (fun p s => s.modQueue p.1 (fun c => { c with deficit := p.2 }))
  let s := s.forEach ch.groupDefs (fun p s => s.setGroup p.1 ((s.groupCtx p.1).map (fun g => { g with deficit := p.2 })))
  let k := (s.queueOf ch.queue).cls
  let last := decide (s.queueUsed ch.queue (s.queueOf ch.queue) ≤ 1)
  let s := s.modQueue ch.queue (fun c => { (c.fill now).take n with deficit := if last then 0 else c.deficit - n })
  let s := s.setGroup ch.group ((s.groupCtx ch.group).map (fun g => { (g.fill now).take n with deficit := g.deficit - n }))
  s.modLane lane (fun l => { l with lastGroup := tset 0 l.lastGroup k ch.group, lastQueue := tset 0 l.lastQueue ch.group ch.queue })

/-- The lane's settings written since its last frame boundary take effect (R426). -/
def Lane.boundary (l : Lane) : Lane :=
  { l with overhead := l.overheadNext.getD l.overhead, pcpDeiMap := l.pcpNext.getD l.pcpDeiMap,
           dscpMap := l.dscpNext.getD l.dscpMap, overheadNext := none, pcpNext := none, dscpNext := none }

/-- The bytes of a frame: from RADIO space, or from BUF. -/
def State.egressRead (c : QCtx) (d : Bytes) (s : State) : Fetch × State :=
  if eSpace d = 0 then
    (.bytes (s.rd .radio (eAddr d) (eLength d)) (s.mem.poisoned (key .radio (eAddr d)) (eLength d)), s)
  else s.fetch (hdlEntry c.buf) (eAddr d) (eLength d) none

/-- Where the eCPRI header of a frame lies: behind its EtherType. -/
def eCpriAt (b : Bytes) : Nat := if beNat ((b.drop 12).take 2) = 0x8100 then 18 else 14

/-- The cell in time-domain split mode whose downlink samples a frame of instance 0 carries on a lane (R402). -/
def State.tdCell (s : State) (lane : Nat) (b : Bytes) : Option Nat :=
  let p := b.drop (eCpriAt b)
  if beNat ((b.drop (eCpriAt b - 2)).take 2) = 0xAEFE ∧ byteAt p 1 = 0 then
    (s.flowCell lane (tdEaxc p)).filter (fun c => decide ((s.cell c).cfg.split = 2))
  else none

/-- Transmit shaping of a frame of instance 0 (R405 to R407); a frame of any other kind leaves as it is. -/
def State.shapeFrame (lane : Nat) (b : Bytes) (s : State) : Shaped × State :=
  match s.tdCell lane b with
  | none => (.send b, s)
  | some c =>
    let head := b.take (eCpriAt b)
    let p := b.drop (eCpriAt b)
    match if (s.cell c).cfg.shaping = 1 then (s.rampShape c p, s) else s.maskShape lane c p with
    | (.send q, s) => (.send (head ++ q), s)
    | (.withhold, s) => (.withhold, s)

/-- Start the frame of a choice, or complete its descriptor without sending (R415). A downlink message that ramp mode
withholds (R407) completes with OK and SENT 0 (log entry 91). -/
def State.startFrame (lane : Nat) (ch : Choice) (s : State) : State :=
  match s.head ch.queue, s.queueOwner ch.queue with
  | some (c, d), some i =>
    if s.egressBad i c d then s.endEgress ch.queue c .badArg false false none
    else
      match (if eSpace d = 3 then s.handleStatus c.buf i else none) with
      | some st => s.endEgress ch.queue c st false false none
      | none =>
        match s.egressRead c d with
        | (.wait _, _) => s
        | (.ends st, s) => s.endEgress ch.queue c st false false none
        | (.bytes b poison, s) =>
          if i ≠ 0 ∧ !s.frameOwned i lane b then (s.endEgress ch.queue c .spoof false false none).countSpoof 5 (some i)
          else if poison then
            s.endEgress ch.queue c (if (s.obj (hdlEntry c.buf)).readonly && eSpace d == 3 then .tierUncorrectable else .poisoned)
              false false none
          else
            match if i = 0 then s.shapeFrame lane b else (.send b, s) with
            | (.withhold, s) => s.endEgress ch.queue c .ok false false none
            | (.send b, s) =>
              let s := s.charge' lane (counted (s.lane lane) d) ch
              let t := ((s.time.now : Int) + (s.lane lane).txAdj).toNat
              s.modLane lane (fun l => { l with
                sending := some { queue := ch.queue, desc := d, frame := b, at' := t, issued := (s.inst i).generation } })
  | _, _ => s

/-- EGRESS_FRAME_START (R417): at a frame boundary of a lane. -/
def execEgressFrameStart (now : Nat) (lane : Fin 32) (s : State) : Outcome :=
  .next (
    let s := s.at now
    if (s.lane lane).sending.isSome || !(s.lane lane).linkUp || !s.accepts ⟨.fhPort, lane / 4⟩ then s
    else
      let s := (s.modLane lane Lane.boundary).bringGroups lane
      match s.pickFrame lane with
      | some ch => s.startFrame lane ch
      | none => s)

/-- EGRESS_FRAME_DONE: the frame has left; its descriptor completes, unless the instance's generation has moved on
(R561). -/
def execEgressFrameDone (now : Nat) (lane : Fin 32) (s : State) : Outcome :=
  .next (
    let s := s.at now
    match (s.lane lane).sending with
    | none => s
    | some x =>
      let s := s.modLane lane (fun l => { l with
        sending := none, txFrames := satInc 64 l.txFrames, txBytes := satAdd 64 l.txBytes (x.frame.length + 4) })
      let s := s.emit (.frame lane x.frame)
      match s.queueOwner x.queue with
      | none => s
      | some i =>
        if i ≠ 0 ∧ (s.inst i).generation ≠ x.issued then s.staleDiscard i
        else
          match s.queue x.queue with
          | some c => s.endEgress x.queue c .ok true false (if eTsReq x.desc then some x.at' else none)
          | none => s)

/-- The cell and slot of a downlink message whose egress deadline has passed: its deadline is 200 µs × 2^-µ before its
air time (R326, R416). -/
def State.dlSlot (s : State) (c : Nat) (deadline : Nat) : Nat :=
  let x := (s.cell c).cfg
  s.slotAt x (((s.time.now : Int) + sdiff 32 deadline s.time.now).toNat + slotNs x / 5)

/-- EGRESS_DEADLINE_EXPIRY (R416): the head descriptor's frame has not started by DEADLINE. A radio frame dropped so is a
DL_EGRESS miss; which cause of Table 10-5 but OWN_OVERRUN it has is a free value (log entry 35). -/
def execEgressDeadlineExpiry (now : Nat) (queue : Nat) (s : State) : Outcome :=
  .next (
    let s := s.at now
    match s.head queue, s.queueOwner queue with
    | some (c, d), some i =>
      let begun : Bool := match (s.lane c.lane).sending with | some x => x.queue == queue | none => false
      if c.type ≠ 3 ∨ !eDeadlineEn d ∨ !behind (eDeadline d) s.time.now ∨ !s.active i ∨ begun = true then s
      else
        let s := s.endEgress queue c .ok false true none
        let s := s.modLane c.lane (fun l => { l with txDeadlineDrop := satInc 32 l.txDeadlineDrop })
        let s := s.modFhPort (c.lane / 4) (fun p => { p with event := p.event ||| 64 })
        if i ≠ 0 ∨ eSpace d ≠ 0 then s
        else
          let b := s.rd .radio (eAddr d) (eLength d)
          match s.flowCell c.lane (tdEaxc (b.drop (eCpriAt b))) with
          | some k =>
            let (v, s) := s.takeFree 2
            let cause := match v.toNat with | 0 => 1 | 1 => 2 | 2 => 3 | _ => 5
            s.miss k (s.dlSlot k (eDeadline d)) 4 cause (-(sdiff 32 (eDeadline d) s.time.now)).toNat
          | none => s
    | _, _ => s)

/-- FH_LANE_LINK_CHANGE (R395): a lane trains up or goes down; leaving UP other than by command is evidence (Table 19-1
code 14) and a LINK record. -/
def execFhLaneLinkChange (lane : Fin 32) (up : Bool) (s : State) : Outcome :=
  .next (
    let l := s.lane lane
    let p := lane.val / 4
    let inMode := decide (lane.val % 4 < modeLanes (s.portMode p))
    if l.linkUp = up ∨ !inMode ∨ (up ∧ !s.accepts ⟨.fhPort, p⟩) then s
    else
      let s := s.modLane lane (fun l => { l with linkUp := up, training := !up })
      let s := s.modFhPort p (fun q => { q with event := q.event ||| 2 ^ (lane.val % 4) })
      if up then s else (s.evidence 14 none).ledger 10 ⟨.fhPort, p⟩ (.link lane 0 [l.fecUncorrectable, l.fecCorrected]))

end Sys2Proof.Machine
end

