-- ==== Sys2Proof/Machine/UnitOps.lean ====
section
/-! DEFINITION. What follows from a unit's change of state (R55, R316, R334, R370, Table 15-2), fences (R593 to R595) and
what a reset of a unit leaves (R60, R61, R64). -/

namespace Sys2Proof.Machine

/-! ## Changes of state -/

/-- The lanes of a fronthaul port go down with it, and look for their partners again once it serves (R395, R633). -/
def State.fhPortChanged (p : Nat) (s : State) : State :=
  let on := s.accepts ⟨.fhPort, p⟩
  s.forEach ((List.range 4).map (fun l => 4 * p + l)) (fun l s => s.modLane l (fun x =>
    if on then { x with training := x.training || (!x.linkUp && decide (l % 4 < modeLanes (s.portMode p))) }
    else { x with linkUp := false, training := false }))

/-- Jobs of an engine that has left service are posted again, by Obesk, on the first engine of its kind that serves (R334);
jobs held at its crossing reach it once it serves (R25). -/
def State.engineChanged (e : Nat) (s : State) : State :=
  let s := s.releaseHeld e
  if s.accepts ⟨.engine, e⟩ then s
  else
    match (List.range 100).find? (fun g => engineSubtype g == engineSubtype e && s.accepts ⟨.engine, g⟩) with
    | none => s
    | some g =>
      let x := s.engine e
      let s := s.modEngine e (fun x => { x with queue := [], busy := none })
      s.forEach (x.busy.toList ++ x.queue) (fun j s => s.queueJob g j.bytes)

/-- What follows once a unit has changed: `before` says whether it accepted work. -/
def State.afterUnit (u : UnitId) (before : Bool) (s : State) : State :=
  match u.ty with
  | .fold => s.radioOn u.idx
  | .fabPort => s.portUnitChanged u.idx
  | .fhPort => s.fhPortChanged u.idx
  | .stack => if before && !s.accepts u then s.loseStack (u.idx - 16) else s
  | .engine => s.engineChanged u.idx
  | .die =>
    if u.idx < 2 then s.forEach ((List.range 16).map (fun i => 16 * u.idx + i)) State.radioOn
    else if u.idx < 3 then s.forEach (List.range 100) State.engineChanged
    else s.forEach ((List.range 16).map (fun i => 16 * (u.idx - 3) + i)) State.portUnitChanged
  | _ => s

/-- A unit takes a state of Table 02-5, with what follows from it. -/
def State.changeUnit (u : UnitId) (new : UState) (s : State) : State :=
  let b := s.accepts u
  (s.setUnit u new).afterUnit u b

/-! ## Fences (R589, R593 to R595) -/

def State.foldHealth (s : State) (f : Nat) : FoldHealth := tget {} s.health.foldHealth f
def State.modFoldHealth (f : Nat) (g : FoldHealth → FoldHealth) (s : State) : State :=
  s.modHealth (fun h => { h with foldHealth := tmod {} h.foldHealth f g })

/-- A unit in service whose fences hold it is FENCED; a FENCED one that nothing holds returns without reset. -/
def State.applyFences (u : UnitId) (s : State) : State :=
  let e := s.unit u
  if s.held u then (if e.state.accepts then s.changeUnit u .fenced else s)
  else if e.state = .fenced && !e.debug then
    s.changeUnit u (if e.capsDegraded.isSome then .degraded else .ready)
  else s

/-- Set a fence of firmware or of the manager, with its FENCE record. -/
def State.fenceUnit (u : UnitId) (m : FenceMode) (s : State) : State :=
  let s := if (s.fencesOf u).contains m then s else s.setFences u (s.fencesOf u ++ [m])
  (s.ledger 4 u (.fence 1 0 0)).applyFences u

/-- Lift the fences of a unit that `gone` picks, with a FENCE record (R595). -/
def State.liftFences (u : UnitId) (gone : FenceMode → Bool) (s : State) : State :=
  let left := (s.fencesOf u).filter (fun m => !gone m)
  let s := s.setFences u left
  let cond := left.any (fun m => match m with | .cond .. => true | _ => false)
  let s := if u.ty = .fold ∧ !cond then
      ({ s with health := { s.health with condFenced := s.health.condFenced.filter (fun f => f != u.idx) } }).modFoldHealth u.idx
        (fun h => { h with holding := [], outs := [], condBin := 0 })
    else s
  (s.ledger 4 u (.fence 0 0 0)).applyFences u

/-! ## Reset of a unit (R61, R64, R370) -/

/-- RESIDE and RELEASE tasks that the fold's reset ends: a RESIDE under way, a RELEASE for which no other fold is left. -/
def State.endContexts (f : Nat) (s : State) : State :=
  s.forEach (List.range 8) (fun k s =>
    let c := (s.fold f).slot k
    match c.state, c.task, c.relTask with
    | .residing, some n, _ => (s.failTask .staleHandle n).leaveNow c.inst c.ctxId
    | .releasing, _, some n => if (s.slotsOf c.inst c.ctxId).all (fun p => p.1 == f) then s.failTask .staleHandle n else s
    | _, _, _ => s)

/-- Tasks with a rank running on a fold. -/
def State.tasksOn (s : State) (f : Nat) : List Nat :=
  (List.range 8).filterMap (fun k =>
    let c := (s.fold f).slot k
    if c.state = .running then c.task else none)

/-- Every descriptor of an engine ends with STALE_HANDLE (R64). -/
def State.dmaStale (e : Nat) (chans : List Nat) (s : State) : State :=
  s.forEach chans (fun c s =>
    let n := (s.chan e c).ring.length
    if n = 0 then s else (s.dmaFlush e c .staleHandle n).modChan e c (fun x => { x with ring := [] }))

/-- Descriptors under way with a side for which `hit` holds stop with STALE_HANDLE (R64). -/
def State.stopRuns (hit : Loc → Bool) (s : State) : State :=
  let bad := fun (e : Nat) (r : DmaRun) =>
    hit (s.srcLoc e r.chan r.desc 0) || hit (s.dstLoc e r.chan r.desc 0)
  let stop := fun (e : Nat) (r : DmaRun) => if bad e r then r.stop .staleHandle else r
  s.forEach (List.range 64) (fun e s => s.modDma e (fun x =>
    { x with radioRun := x.radioRun.map (stop e), grazingRun := x.grazingRun.map (stop e) }))

/-- The place lies in `n` bytes of a space. -/
def Loc.within (sp : Space) (a n : Nat) : Loc → Bool
  | .mem p x => decide (p = sp ∧ a ≤ x ∧ x < a + n)
  | .obj .. => false

/-- The place is an object of a list. -/
def Loc.ofObj (l : List Nat) : Loc → Bool
  | .mem .. => false
  | .obj o _ => l.contains o

/-- Objects with part of a T0 copy in a space. -/
def State.objsIn (s : State) (sp : Space) : List Nat :=
  (s.tiers.objs.filter (fun p => p.2.copies.any (fun c => c.tier == 0 && c.parts.any (fun x => x.space == sp)))).map (fun p => p.1)

/-- Tiles that stream a weight object of a list end with STALE_HANDLE (R370). -/
def State.endStreams (l : List Nat) (s : State) : State :=
  s.forEach ((s.folds.filter (fun p => match p.2.tile with | some t => l.contains (hdlEntry t.entry.weight) | none => false)).map
    (fun p => p.1)) (fun f s => s.endTile f .staleHandle)

/-- The content of a space is gone with its unit: requests that read it end with STALE_HANDLE (R64, R370), copies there
become ABSENT (R370), every word reads zero (R61). -/
def State.wipeSpace (sp : Space) (s : State) : State :=
  let l := s.objsIn sp
  let s := s.stopRuns (fun p => p.within sp 0 (2 ^ 64) || p.ofObj l)
  ((s.endStreams l).loseSpace sp).zeroMem sp 0 (2 ^ 40)

/-- The T2 lines that a commons holds go with its SRAM; which of the two holds a line, the manual leaves to the device (log
entry 46). They are clean, so nothing is lost. -/
def State.dropT2Lines (d : Nat) (s : State) : State :=
  s.forEach (s.power.t2Lines.map (fun p => p.1)) (fun l s =>
    let (k, s) := s.takeFree 1
    if k.toNat = d then s.modPower (fun p => { p with t2Lines := tdel p.t2Lines l }) else s)

/-- A fold comes out of reset: its work ended with STALE_HANDLE, its records still to be collected, all else zero. -/
def State.wipeFold (f : Nat) (s : State) : State :=
  let s := s.moveRadio f
  let s := s.forEach (s.tasksOn f) (fun n s => s.loseTask n .staleHandle)
  let s := s.endContexts f
  let s := if f < 32 then s.dmaStale (32 + f) ((List.range 8).map (fun k => 8 + k)) else s
  let s := s.wipeSpace (.sram f)
  -- records that its completion buffer held are the dispatcher's to write (R64); a debug hold waits no longer (R206)
  let s := s.modDisp (fun d => { d with direct := d.direct ++ (s.fold f).cmp })
  (s.modFold f (fun x => { holdAsked := x.holdAsked })).settleHold f

/-- The jobs of an engine end with STALE_HANDLE status records. -/
def State.wipeEngine (e : Nat) (s : State) : State :=
  let x := s.engine e
  let s := s.forEach (x.busy.toList ++ x.queue) (fun j s =>
    (s.putStatus j.bytes (statusRecord .staleHandle false false false false 0 (s.time.now % 2 ^ 32) 0 0)).engineDone j.bytes)
  s.modEngine e (fun _ => { posted := x.posted, held := x.held })

/-- Descriptors that reach radio memory in a range end with STALE_HANDLE, and its words read zero (R61, R64). -/
def State.wipeRadio (a n : Nat) (s : State) : State := (s.stopRuns (Loc.within .radio a n)).zeroMem .radio a n

/-- A signal core comes out of reset halted, its LDM zero, with no access waiting for it. -/
def State.wipeCore (c : Nat) (s : State) : State :=
  ((s.modSigCore c (fun _ => {})).modCrossing (c / 8) (fun q => q.filter (fun x => x.core != c))).wipeRadio (ldmBase c) 524288

/-- A fronthaul lane comes out of reset: down, its counters zero; what configuration set stays. -/
def Lane.afterReset (l : Lane) : Lane :=
  { pcpDeiMap := l.pcpDeiMap, dscpMap := l.dscpMap, overhead := l.overhead
    policers := l.policers.map (fun p => (p.1, { cfg := p.2.cfg })) }

/-- What a reset leaves of a unit (R61). -/
def State.wipeUnit (u : UnitId) (s : State) : State :=
  match u.ty with
  | .fold => s.wipeFold u.idx
  | .commons => ((s.wipeSpace (.commons u.idx)).dropT2Lines u.idx).modMover u.idx (fun _ => {})
  | .engine => s.wipeEngine u.idx
  | .sigCore => s.wipeCore u.idx
  | .sigGroup => s.forEach ((List.range 8).map (fun i => 8 * u.idx + i)) State.wipeCore
  | .dma =>
    let s := s.dmaStale u.idx (List.range 16)
    s.modDma u.idx (fun _ =>
      { chans := if s.dev.configured then (List.range 16).foldl (fun t c => tset {} t c (bindChan u.idx c)) [] else [] })
  | .fabPort => (s.leaveUp u.idx .disabled true).modLink u.idx (fun _ => {})
  | .fhPort => (s.modFhPort u.idx (fun p => { mode := p.mode })).forEach ((List.range 4).map (fun l => 4 * u.idx + l))
      (fun l s => s.modLane l Lane.afterReset)
  | .ctlCore => s.modCore u.idx (fun _ => {})
  | .stackCtl => s.modStackCtl u.idx (fun c => { sparesUsed := c.sparesUsed })
  | .stack => s.loseStack (u.idx - 16)
  | .collector => s.modDisp (fun d => { d with collectors := tset {} d.collectors u.idx {} })
  | .die => if u.idx = 2 then s.wipeRadio 0 0x14000000 else s
  | .device => s

/-! ## Wake with retention (R62, R633) -/

/-- The unit's SRAM was held in retention over the last NIGHT. -/
def State.retained (s : State) (u : UnitId) : Bool :=
  match u.ty with
  | .fold => decide (u.idx < 32) && s.power.retFoldsIn.getLsbD u.idx
  | .commons => bitOf s.power.retCommonsIn u.idx
  | .sigCore | .sigGroup => s.power.retRadioIn
  | .die => decide (u.idx = 2) && s.power.retRadioIn
  | _ => false

/-- A fold wakes with its SRAM and the grazing contexts that lie there; its radio contexts are to be rebuilt (R66), and
everything else of it is zero. -/
def Fold.wake (x : Fold) : Fold :=
  let y := x.slots.foldl (fun (y : Fold) p => if p.2.radio then y.vacate p.1 else (y.resetContext p.1).dropRank p.1) x
  { cmp := x.cmp, slots := y.slots, groups := y.groups }

/-- A unit wakes with its SRAM held in retention (R62). -/
def State.wakeRetained (u : UnitId) (s : State) : State :=
  let s := match u.ty with
    | .fold => s.modFold u.idx Fold.wake
    | .commons => s.modMover u.idx (fun m => { chans := m.chans })
    | .sigCore => s.modSigCore u.idx (fun _ => {})
    | _ => s
  if u.ty = .sigGroup then s else s.setEntry u (fun e => { e with retainedUnverified := true })

/-- A unit enters INITIALISING by reset or wake, where its incarnation number can be had (R58 to R62). -/
def State.startUnit (u : UnitId) (s : State) : State :=
  let old := (s.unit u).state
  let s := s.initialise u
  if (s.unit u).state ≠ .initialising ∨ old = .initialising then s
  else if old = .sleeping && s.retained u then s.wakeRetained u
  else s.wipeUnit u

/-- Units whose reset or wake waits for its reservation try again (R59). -/
def State.retryWaiting (s : State) : State :=
  s.forEach (allUnits.filter (fun u => (s.unit u).waitsReserve)) State.startUnit

/-- A unit wakes or is reset for repair; the cores of a sleeping signal-core group wake with it (R247). -/
def State.resetUnit (u : UnitId) (s : State) : State :=
  let cores := (List.range 8).map (fun i => (⟨.sigCore, 8 * u.idx + i⟩ : UnitId))
  let l := if u.ty = .sigGroup ∧ (s.unit u).state = .sleeping then
      cores.filter (fun c => decide ((s.unit c).state = .sleeping)) else []
  (s.startUnit u).forEach l State.startUnit

/-- Every sleeping unit wakes, and the link returns to its trained width (R633, Table 21-5). -/
def State.wakeAll (s : State) : State :=
  let s := s.modPower (fun p => { p with fyf := if p.fyf = .night then .active else p.fyf, waking := true })
  s.forEach (allUnits.filter (fun u => decide ((s.unit u).state = .sleeping))) State.startUnit

end Sys2Proof.Machine
end

