-- ==== Sys2Proof/Machine/Units.lean ====
section
/-! DEFINITION. Commands and events of units: reset, self-test, retention check (R56 to R66), fatal faults (R32, R241),
fences and retirement (R57, R595), patrol (R588, R589), conditional fences (R593). -/

namespace Sys2Proof.Machine

/-! ## Reset and self-test -/

/-- UNIT_RESET (R60, R98): a fenced or failed unit for repair, or a sleeping unit that wakes; a signal core wakes with its
group and not alone (R247). -/
def execUnitReset (u : UnitId) (s : State) : Outcome :=
  .next (
    let e := s.unit u
    let asleep := s.dev.dstate = .night ∨ (s.dev.dstate = .fenced ∧ s.dev.fencedFrom = .night)
    if !unitExists u ∨ u.ty = .device ∨ e.debug ∨ asleep ∨ !(e.state = .fenced ∨ e.state = .failed ∨ e.state = .sleeping) ∨
        (u.ty = .sigCore ∧ e.state = .sleeping) then s
    else s.resetUnit u)

/-- Every unit of the last milestone of Table 21-4 has left INITIALISING. -/
def State.allReady (s : State) : Bool :=
  allUnits.all (fun u => match u.ty with
    | .die | .stack | .fold | .sigCore | .engine | .ctlCore | .collector | .commons | .dma =>
      decide ((s.unit u).state ≠ .initialising)
    | _ => true)

/-- µs from the release of reset. -/
def State.sinceRelease (s : State) : Nat := ((s.time.now : Int) - s.power.releasedAt).toNat / 1000

/-- Milestones of Table 21-4 that a unit leaving INITIALISING reaches. -/
def State.milestones (u : UnitId) (s : State) : State :=
  let t := s.sinceRelease
  let hbm := u.ty = .stack ∧ s.accepts u ∧ s.power.tFirstHbmUs = 0
  let whole := s.power.tAllReadyUs = 0 ∧ s.allReady
  let a := if hbm then t else s.power.tFirstHbmUs
  let b := if whole then t else s.power.tAllReadyUs
  let awake := allUnits.all (fun v => decide ((s.unit v).state ≠ .initialising))
  s.modPower (fun p => { p with tFirstHbmUs := a, tAllReadyUs := b, waking := p.waking && !awake })

/-- The entry of a unit whose self-test passed, fully or in part; a standing fence applies again (Table 02-5). -/
def passed (caps : Option W64) (held : Bool) (e : UnitEntry) : UnitEntry :=
  { e with capsDegraded := caps, state := if held then .fenced else if caps.isSome then .degraded else .ready }

/-- UNIT_SELF_TEST_DONE (R56, R594, R632). -/
def execUnitSelfTestDone (u : UnitId) (r : SelfTest) (s : State) : Outcome :=
  .next (
    let e := s.unit u
    if e.state ≠ .initialising ∨ e.retainedUnverified ∨ e.waitsReserve then s
    else
      let s := match r with
        | .fail => s.setUnit u .failed
        | .pass => (s.setEntry u (passed none (s.held u))).afterUnit u false
        | .part caps => (s.setEntry u (passed (some caps) (s.held u))).afterUnit u false
      s.milestones u)

/-! ## The retention check (R62, R65) -/

/-- The space of a unit's retained SRAM with its first address and size. -/
def retainedSpace (u : UnitId) : Option (Space × Nat × Nat) :=
  match u.ty with
  | .fold => some (.sram u.idx, 0, sramSpan)
  | .commons => some (.commons u.idx, 0, 2 ^ 40)
  | .sigCore => some (.radio, ldmBase u.idx, 524288)
  | .die => if u.idx = 2 then some (.radio, 0, 0x14000000) else none
  | _ => none

/-- A retained chunk whose checksum differs is zeroed and counted, and copies that lie on it are lost (R62, R65). -/
def State.checkChunk (sp : Space) (a sum : Nat) (s : State) : State :=
  if chunkSum (s.rd sp a chunkSize) = sum then s
  else
    let s := s.zeroMem sp a chunkSize
    let s := s.forEach ((s.tiers.objs.filter (fun p => p.2.copies.any (fun c => c.tier == 0 && c.parts.any (fun x =>
      x.space == sp && x.chunks.contains a)))).map (fun p => p.1)) (fun e s => s.loseCopy e 0)
    s.modPower (fun p => { p with retZeroed := satInc 32 p.retZeroed, event := p.event ||| 2 })

/-- RETENTION_CHECK_DONE (R62, R65, R66): `decayed` are bytes that did not keep their value, by address. -/
def execRetentionCheckDone (u : UnitId) (decayed : List (Nat × Byte)) (s : State) : Outcome :=
  .next (
    match retainedSpace u with
    | none => s
    | some (sp, base, n) =>
      if !(s.unit u).retainedUnverified then s
      else
        let inside := fun (a : Nat) => decide (base ≤ a ∧ a < base + n)
        let s := s.forEach (decayed.filter (fun p => inside p.1)) (fun p s =>
          { s with mem := s.mem.wr (key sp p.1) p.2 })
        let sums := (tget [] s.power.retainedSums sp.code).filter (fun p => inside p.1)
        let s := s.forEach sums (fun p s => s.checkChunk sp p.1 p.2)
        s.setEntry u (fun e => { e with retainedUnverified := false }))

/-! ## Fatal faults -/

/-- NOC_INTEGRITY_ERROR (R32). -/
def execNocIntegrityError (s : State) : Outcome := .next s.enterFenced

/-- FATAL_FAULT (R241): an uncontained fault in a unit takes the unit to FAILED; the device's entry stays READY (R669). -/
def execFatalFault (cause : FatalCause) (s : State) : Outcome :=
  .next (
    if s.dev.dstate = .rom then s
    else
      match cause with
      | .unit u => (if u.ty = .device then s else s.changeUnit u .failed).enterFenced
      | .noc | .dispatcher | .collector | .barrier | .radioState => s.enterFenced)

/-! ## UNIT_FENCE and UNIT_RETIRE -/

/-- The unit that TYPE and INDEX of a command name. -/
def unitArg (c : Cmd) : Option UnitId :=
  match typeOfCode (c.arg 0x20 2) with
  | some t => if unitExists ⟨t, c.arg 0x22 2⟩ then some ⟨t, c.arg 0x22 2⟩ else none
  | none => none

/-- The arguments name a unit other than the device, whose entry no fence and no retirement reaches (R669). -/
def unitArgBad (c : Cmd) : Bool :=
  match unitArg c with
  | some u => decide (u.ty = .device)
  | none => true

/-- STATE_CONFLICT of the unit a command names, unless its shown state is among `legal`. -/
def State.unitArgConflict (s : State) (c : Cmd) (legal : List Nat) : Err :=
  match unitArg c with
  | some u => conflictIf (!legal.contains (s.shown u).code) 1 (s.shown u).code (legalMask legal) (unitObject u)
  | none => none

/-- UNIT_FENCE breaks a rule of R595. -/
def unitFenceBad (c : Cmd) : Bool :=
  unitArgBad c || decide (2 < c.arg 0x24 1) ||
    (c.arg 0x24 1 == 2 && (c.arg 0x20 2 != 4 || decide (31 < c.arg 0x22 2 ∨ 7 < c.arg 0x25 1 ∨ 3 < c.arg 0x26 1)))

/-- UNIT_FENCE (R595). -/
def execUnitFence (m : Fin 16) (s : State) : Outcome :=
  .next (s.runCommand m 0x0606
    (fun c _ => [c.lenAtLeast 7, failIf (unitFenceBad c) .badArg])
    (fun _ => statesOf 0x0606)
    (fun c s => if c.arg 0x24 1 = 1 then [s.unitArgConflict c [3, 4, 5]] else [])
    (fun c s =>
      match unitArg c with
      | none => (s, [], false)
      | some u =>
        (match c.arg 0x24 1 with
         | 0 => s.liftFences u (fun _ => true)
         | 1 => s.fenceUnit u .manager
         | _ => s.placeCond u.idx (binIndex (c.arg 0x25 1) (c.arg 0x26 1) 0 0), [], false)))

/-- UNIT_RETIRE (R57, Table 03-9a). -/
def execUnitRetire (m : Fin 16) (s : State) : Outcome :=
  .next (s.runCommand m 0x0607
    (fun c _ => [c.lenIs 4, failIf (unitArgBad c) .badArg])
    (fun _ => statesOf 0x0607)
    (fun c s =>
      match unitArg c with
      | some u => [conflictIf (!(s.shown u = .fenced ∨ s.shown u = .failed)) 1 (s.shown u).code
          (legalMask [5, 6]) (unitObject u)]
      | none => [])
    (fun c s =>
      match unitArg c with
      | none => (s, [], false)
      | some u =>
        let s := (s.setEntry u (fun e => { e with state := .retired, debug := false })).ledger 3 u .retire
        ({ s with flash := { s.flash with retired := tput s.flash.retired (unitKey u) () } }, [], false)))

/-! ## Patrol (R588, R589) -/

/-- Time between patrols of a unit: folds every 10 minutes, engines and the signal cores without an assignment every
hour, half of it while WATCHED (R587, R588). -/
def State.patrolPeriod (s : State) (u : UnitId) : Option Nat :=
  let half := if s.dev.dstate = .watched then 2 else 1
  match u.ty with
  | .fold => if u.idx < 32 then some (600000000000 / half) else none
  | .engine => some (3600000000000 / half)
  | .sigCore =>
    if s.shep.assignment.any (fun p => (s.coresOf p.1).contains u.idx) then none
    else some (3600000000000 / half)
  | _ => none

/-- PATROL_TICK (R588): the patrol of a unit in service starts once its time has come. Nothing happens while control core 6 restarts (R39). -/
def execPatrolTick (now : Nat) (u : UnitId) (s : State) : Outcome :=
  .next (
    let s := s.at now
    if (s.core 6).restarting then s else
    match s.patrolPeriod u with
    | none => s
    | some p =>
      let last := tget 0 s.health.lastPatrol (unitKey u)
      if !unitExists u || !s.accepts u || (decide (last ≠ 0) && decide (s.time.now + 1 < last + p)) then s
      else s.modHealth (fun h => { h with patrolRuns := satInc 64 h.patrolRuns
                                          lastPatrol := tset 0 h.lastPatrol (unitKey u) (s.time.now + 1) }))

/-- The snapshot of a patrol result (R576): class 2. -/
def State.patrolSnapshot (u : UnitId) (s : State) : Bytes × State :=
  if u.ty = .fold then (let (b, _, s) := s.foldSnapshot u.idx 0xFF 0 2; (b, s))
  else s.snapshot u 0 0xFF 0 2 0xFFFF

/-- A patrol that failed: its record, its evidence, its fence (R589). -/
def State.patrolFailed (u : UnitId) (s : State) : State :=
  let (sn, s) := s.patrolSnapshot u
  let s := s.ledgerWith 11 u (.patrol false) (some sn)
  let s := s.evidence 3 (if u.ty = .fold then some u.idx else none)
  let s := s.modHealth (fun h => { h with patrolFails := satInc 32 h.patrolFails, event := h.event ||| 4 })
  s.fenceUnit u .patrol

/-- PATROL_RESULT (R589): only a result that differs twice fences the unit. -/
def execPatrolResult (u : UnitId) (firstOk secondOk : Bool) (s : State) : Outcome :=
  .next (if !unitExists u || decide (u.ty = .device) || !(s.unit u).state.accepts || firstOk || secondOk then s else s.patrolFailed u)

/-! ## Conditional fences (R593) -/

/-- A temperature in 1/16 °C lies at least 2 °C beyond the edges of a band. -/
def beyondBand (tb : Nat) (t : Int) : Bool :=
  let lo : Int := (45 + 10 * (tb - 1 : Nat)) * 16
  let hi : Int := (45 + 10 * tb) * 16
  (decide (0 < tb) && decide (t ≤ lo - 32)) || (decide (tb < 7) && decide (hi + 32 ≤ t))

/-- Since when a condition has held (time + 1), 0 while it does not. -/
def since (on : Bool) (old now : Nat) : Nat := if on then (if old = 0 then now + 1 else old) else 0

/-- One conditional fence at a sample. -/
def sampleFence (now : Nat) (t : Int) (act tb ab : Nat) (h : FoldHealth) : FoldHealth :=
  let k := tb * 4 + ab
  let old := tget (0, 0) h.outs k
  let new := (since (beyondBand tb t) old.1 now, since (decide (actBand act ≠ ab)) old.2 now)
  let inside := decide (tempBand t = tb ∧ actBand act = ab)
  let elapsed := fun (x : Nat) => decide (x ≠ 0) && decide (x + 1000000000 ≤ now + 1)
  { h with
    inBands := h.inBands || inside
    outs := tset (0, 0) h.outs k new
    holding := if inside then (if h.holding.contains k then h.holding else h.holding ++ [k])
      else if elapsed new.1 || elapsed new.2 then h.holding.filter (fun x => x != k) else h.holding }

/-- COND_FENCE_SAMPLE (R593). Nothing happens while control core 6 restarts (R39). -/
def execCondFenceSample (now : Nat) (fold : Fin 32) (temp : Int) (activity : Nat) (s : State) : Outcome :=
  .next (
    let s := s.at now
    if (s.core 6).restarting then s else
    let u : UnitId := ⟨.fold, fold⟩
    let conds := (s.fencesOf u).filterMap (fun m => match m with | .cond tb ab => some (tb, ab) | _ => none)
    let s := s.modFoldHealth fold (fun h => { h with tempBand := tempBand temp, actBand := actBand activity, inBands := false })
    let s := s.forEach conds (fun p s => s.modFoldHealth fold (sampleFence s.time.now temp activity p.1 p.2))
    if conds.isEmpty then s else s.applyFences u)

end Sys2Proof.Machine
end

