-- ==== Sys2Proof/Machine/Health.lean ====
section
/-! DEFINITION. Health evidence and scores (R582 to R586), watched mode (R587), RETEST and its certificate (R590),
MARGIN_SWEEP (R596), STANDBY_ENTER and ASSUME (R597 to R600). -/

namespace Sys2Proof.Machine

/-! ## Scores and classes (R582 to R585) -/

/-- An FP32 deficit as a dyadic number; what is no number counts as 0. -/
def deficitOf (d : W32) : Int × Int :=
  match fmtFp32.decode d.toNat with
  | .fin sg e => (sg, e)
  | _ => (0, 0)

/-- A nonnegative dyadic number rounded to an integer, halves away from zero. -/
def roundAway (v : Int × Int) : Nat :=
  if 0 ≤ v.2 then (v.1 * 2 ^ v.2.toNat).toNat
  else
    let k := (-v.2).toNat
    (v.1.toNat * 2 + 2 ^ k) / (2 * 2 ^ k)

/-- max(0, 1000 − round(D)). -/
def scoreOf (v : Int × Int) : Nat := 1000 - roundAway v

def Scope.foldScore (x : Scope) : Nat := scoreOf (deficitOf x.deficit)

/-- The score of the device: its own deficit and an eighth of every fold's. -/
def Health.deviceScore (h : Health) : Nat :=
  scoreOf ((List.range 32).foldl (fun v f =>
    let d := deficitOf (tget ({} : Scope) h.folds f).deficit
    dyAdd v.1 v.2 d.1 (d.2 - 3)) (deficitOf h.device.deficit))

/-- A deficit decays over `dt` ns, then takes the weight of the new evidence, in FP32. -/
def Scope.decayAdd (dt : Nat) (x : Scope) : Scope :=
  let w := fmtFp32.encode (.fin x.fresh 0)
  { x with deficit := BitVec.ofNat 32 (fmtFp32.add (Config.decay x.deficit dt).toNat w), fresh := 0 }

/-- The class of a scope once its score is known (R584). -/
def classOf (cur score : Nat) : Nat :=
  match cur with
  | 0 => if score < 500 then 2 else if score < 800 then 1 else 0
  | 1 => if score < 500 then 2 else if 850 ≤ score then 0 else 1
  | _ => if 850 ≤ score then 0 else if 550 ≤ score then 1 else 2

/-- Payload of HEALTH_CLASS (R585), its bits counted from record bit 128. -/
def classPayload (scope cls score prev : Nat) : Nat :=
  scope + 2 ^ 16 * cls + 2 ^ 24 * b2n (cls == 2) + 2 ^ 32 * score + 2 ^ 48 * prev

def State.scope (s : State) : Option Nat → Scope
  | none => s.health.device
  | some f => tget {} s.health.folds f

def State.setScope (k : Option Nat) (x : Scope) (s : State) : State :=
  s.modHealth (fun h => match k with
    | none => { h with device := x }
    | some f => { h with folds := tset {} h.folds f x })

/-- A scope takes its new score and class; HEALTH_CLASS at every change, and again while it stays FAILING (R585). -/
def State.gradeScope (k : Option Nat) (score : Nat) (s : State) : State :=
  let x := s.scope k
  let cls := classOf x.cls score
  let again := cls == 2 && x.sinceEvent && decide (x.lastEvent + 600000000000 ≤ s.time.now)
  let tell := decide (cls ≠ x.cls) || again
  let s := s.setScope k { x with score, cls, lastEvent := if tell then s.time.now else x.lastEvent,
                                 sinceEvent := x.sinceEvent && !tell }
  if !tell then s
  else
    let id := match k with | none => 0xFFFF | some f => f
    let u : UnitId := match k with | none => theDevice | some f => ⟨.fold, f⟩
    let s := s.raise 9 0 theDevice (classPayload id cls score x.cls)
    let s := s.modHealth (fun h => { h with
      escalations := if cls = 2 then satInc 32 h.escalations else h.escalations
      event := if cls = x.cls then h.event else h.event ||| 1 })
    if cls = x.cls then s else s.ledger 12 u (.health id x.cls cls score)

/-- Droop detector trips, one unit of evidence per 1,000 (Table 19-1). -/
def State.addDroops (n : Nat) (s : State) : State :=
  let k := s.health.droopTrips + n
  (s.modHealth (fun h => { h with droopTrips := k % 1000 })).forEach (List.range (k / 1000)) (fun _ s => s.evidence 7 none)

/-- What the monitors of the dies have found since the last evaluation (Table 19-1, codes 4, 5 and 7): canary captures
by fold, folds whose path-delay monitor ended an hour below 8 %, droop trips. -/
def State.monitors (canary ageing : List (Fin 32)) (droops : Nat) (s : State) : State :=
  let s := s.forEach canary (fun f s => s.evidence 4 (some f))
  let s := s.forEach ageing (fun f s => s.evidence 5 (some f))
  s.addDroops droops

/-- HEALTH_EVALUATION (R574, R582, R584, R585): once per second. Nothing happens while control core 6 restarts (R39). -/
def execHealthEvaluation (found : MonitorReadings) (s : State) : Outcome :=
  .next (
    let s := s.at found.now
    if (s.core 6).restarting then s else
    let dt := s.time.now - s.health.lastEval
    if s.dev.dstate = .rom ∨ dt < 1000000000 then s
    else
      let s := s.monitors found.canary found.ageing found.droops
      let s := s.modHealth (fun h => { h with
        device := h.device.decayAdd dt
        folds := (List.range 32).foldl (fun t f => tmod {} t f (Scope.decayAdd dt)) h.folds
        lastEval := s.time.now })
      let s := s.forEach (List.range 32) (fun f s => s.gradeScope (some f) (s.scope (some f)).foldScore)
      s.gradeScope none s.health.deviceScore)

/-! ## WATCH_SET (R587) -/

/-- WATCH_SET: the device enters or leaves WATCHED. -/
def execWatchSet (m : Fin 16) (s : State) : Outcome :=
  .next (s.runCommand m 0x0601
    (fun c _ => [c.lenIs 1, failIf (decide (1 < c.arg 0x20 1)) .badArg])
    (fun _ => statesOf 0x0601) (fun _ _ => [])
    (fun c s => (if c.arg 0x20 1 = 1 then s.setDevice .watched else if s.dev.dstate = .watched then s.setDevice .serving else s,
                 [], false)))

/-! ## RETEST (R590) -/

/-- RETEST: a full patrol starts; a device fenced in NIGHT wakes its sleeping units (R98). -/
def execRetest (m : Fin 16) (s : State) : Outcome :=
  .next (s.runCommand m 0x0602 (fun _ _ => []) (fun _ => statesOf 0x0602) (fun _ _ => [])
    (fun c s =>
      let s := s.modHealth (fun h => { h with retests := h.retests ++ [(m.val, c.seq, s.time.now)] })
      (s.wakeAll, [], true)))

/-- The certificate of a RETEST before its signature (Table 19-8). -/
def State.certificate (s : State) (start : Nat) (failed : List UnitId) (heavy : Bool) (tested : Nat) (tempMin tempMax : Int)
    (supplyMin : Nat) : Bytes :=
  let lowest := (List.range 32).foldl (fun n f => min n (s.scope (some f)).foldScore) 1000
  leBytes 4 0x54434D4D ++ leBytes 2 0x0101 ++ leBytes 1 (b2n (failed.isEmpty && !heavy)) ++ leBytes 1 0 ++
    leBytes 8 s.fuses.uid.toNat ++ leBytes 4 s.deviceInc ++ leBytes 4 tested ++ leBytes 16 Config.classString.toNat ++
    leBytes 8 start ++ leBytes 8 s.time.now ++ leBytes 2 (ofInt 16 tempMin) ++ leBytes 2 (ofInt 16 tempMax) ++
    leBytes 2 supplyMin ++ leBytes 2 failed.length ++ leBytes 2 s.health.deviceScore ++ leBytes 2 lowest ++
    fixLen 60 ((failed.take 15).flatMap (fun u => leBytes 2 (typeCode u.ty) ++ leBytes 2 u.idx))

/-- Units that firmware fenced on a patrol and that passed this run return (R590). -/
def State.liftPatrol (failed : List UnitId) (s : State) : State :=
  s.forEach (allUnits.filter (fun u => (s.fencesOf u).contains .patrol && !failed.contains u))
    (fun u s => s.liftFences u (fun m => m == .patrol))

/-- RETEST_DONE (R590): failed units are fenced, passing ones return, the certificate waits for its signature; where
nothing more is signed the command ends with DENIED (R617). -/
def execRetestDone (now : Nat) (failed : List UnitId) (heavyEvidence : Bool) (unitsTested : Nat) (tempMin tempMax : Int)
    (supplyMin : Nat) (s : State) : Outcome :=
  .next (
    let s := s.at now
    match s.health.retests with
    | [] => s
    | (m, q, start) :: rest =>
      let bad := failed.eraseDups.filter (fun u => unitExists u && decide (u.ty ≠ .device))
      let s := s.forEach bad State.patrolFailed
      let s := s.liftPatrol bad
      let (sn, s) := s.patrolSnapshot theDevice
      let s := s.ledgerWith 11 theDevice (.patrol bad.isEmpty) (some sn)
      let cert := s.certificate start bad heavyEvidence unitsTested tempMin tempMax supplyMin
      let s := s.modHealth (fun h => { h with retests := rest })
      if s.sec.spent then s.commandDone m q 0x0602 .denied
      else (s.modHealth (fun h => { h with certifying := h.certifying ++ [(m, q, cert)] })).enqueue (.certificate cert))

/-! ## MARGIN_SWEEP (R596) -/

/-- A byte as two's complement. -/
def signedByte (n : Nat) : Int := if n < 128 then n else (n : Int) - 256

def sweepBad (c : Cmd) : Bool :=
  let trim := signedByte (c.arg 0x23 1)
  decide (31 < c.arg 0x20 1 ∨ 4 < c.arg 0x21 1 ∨ 3 < c.arg 0x22 1 ∨ trim < -60 ∨ -5 < trim) ||
    !(c.arg 0x24 1 == 5 || c.arg 0x24 1 == 10) || decide (15 < c.arg 0x25 1)

/-- MARGIN_SWEEP: refused unless the fold is FENCED. -/
def execMarginSweep (m : Fin 16) (s : State) : Outcome :=
  .next (s.runCommand m 0x0603
    (fun c _ => [c.lenAtLeast 6, failIf (sweepBad c) .badArg])
    (fun _ => statesOf 0x0603)
    (fun c s =>
      let u : UnitId := ⟨.fold, c.arg 0x20 1⟩
      [conflictIf (decide (s.shown u ≠ .fenced)) 1 (s.shown u).code (legalMask [5]) (unitObject u)])
    (fun c s => (s.modHealth (fun h => { h with sweeps := h.sweeps ++ [(m.val, c.seq, c.arg 0x20 1, c.args.take 6)] }), [], true)))

/-- Result of one activity band: the lowest trim without a mismatch and the highest temperature in °C. -/
def bandResult (mask : Nat) (lowest : List (Fin 4 × Int × Int)) (failed0 skipped : List (Fin 4)) (b : Fin 4) : Bytes :=
  if !bitOf mask b || skipped.contains b then [0x80#8, 0#8]
  else
    match lowest.find? (fun x => x.1 == b) with
    | some (_, trim, temp) => leBytes 1 (if failed0.contains b then 0x7F else ofInt 8 trim) ++ leBytes 1 (ofInt 8 temp)
    | none => leBytes 1 (if failed0.contains b then 0x7F else 0) ++ [0#8]

/-- MARGIN_SWEEP_DONE: the trim is restored, the result recorded (Table 19-5) and the command done. -/
def execMarginSweepDone (fold : Fin 32) (lowest : List (Fin 4 × Int × Int)) (failed0 skipped : List (Fin 4)) (s : State) :
    Outcome :=
  .next (
    match s.health.sweeps.find? (fun x => x.2.2.1 == fold.val) with
    | none => s
    | some w =>
      let res := [0, 1, 2, 3].flatMap (bandResult (byteAt w.2.2.2 5) lowest failed0 skipped)
      let s := s.ledger 19 ⟨.fold, fold⟩ (.margin (w.2.2.2 ++ res))
      (s.modHealth (fun h => { h with sweeps := h.sweeps.erase w })).commandDone w.1 w.2.1 0x0603 .ok)

/-! ## DEV_FENCE, STANDBY_ENTER (R97, R597) -/

/-- DEV_FENCE: the device enters FENCED. -/
def execDevFence (m : Fin 16) (s : State) : Outcome :=
  .next (s.runCommand m 0x0604 (fun _ _ => []) (fun _ => statesOf 0x0604) (fun _ _ => [])
    (fun _ s => (s.enterFenced, [], false)))

/-- A cell number in use stands in the way (Tables 03-6, 03-7). -/
def State.cellsInUse (s : State) : Err :=
  match s.reservedCells with
  | p :: _ => some (conflict 3 p.2.state.code (legalMask [0]) p.1)
  | [] => none

/-- STANDBY_ENTER (R597). -/
def execStandbyEnter (m : Fin 16) (s : State) : Outcome :=
  .next (s.runCommand m 0x0608
    (fun c _ => [c.lenAtLeast 5, failIf (decide (c.arg 0x24 1 < 8 ∨ 64 < c.arg 0x24 1)) .badArg])
    (fun _ => statesOf 0x0608)
    (fun _ s => [s.cellsInUse])
    (fun c s => ((s.modHealth (fun h => { h with group := some (c.arg 0x20 4, c.arg 0x24 1) })).setDevice .standby, [], false)))

/-! ## ASSUME (R598 to R600) -/

/-- An entry of ASSUME: cell, its incarnation on the failed device, its configuration block. -/
structure AssumeEntry where
  cell : Nat
  inc : Nat
  block : Bytes
  deriving DecidableEq, Repr

def assumeEntries (c : Cmd) : List AssumeEntry :=
  (List.range (c.arg 0x24 2)).map (fun i =>
    let o := 0x30 + 104 * i
    ⟨c.arg o 2, c.arg (o + 4) 4, (c.args.drop (o + 8 - 0x20)).take 96⟩)

/-- The arguments of ASSUME are malformed (R598). -/
def assumeBad (c : Cmd) : Bool :=
  let l := assumeEntries c
  !c.indirect || decide (c.argLength < 16 + 104 * c.arg 0x24 2) || decide (c.arg 0x24 2 < 1 ∨ 512 < c.arg 0x24 2) ||
    decide (1 < c.arg 0x22 1) || (c.arg 0x22 1 == 0 && !bitOf (c.arg 0x23 1) 0) ||
    decide ((l.map (fun e => e.cell)).eraseDups.length ≠ l.length) ||
    l.any (fun e => decide (511 < e.cell) || cellBad e.block)

/-- Admit every entry in order, none where a configuration cannot stand (check 10 of R90). -/
def State.assumeAll (planned : Bool) : List AssumeEntry → State → Option State
  | [], s => some s
  | e :: r, s =>
    let x := parseCell e.block
    if s.cellArgBad x true then none
    else
      let (k, s) := s.takeFree 32
      let nb := if planned then s.time.now + 1 + k.toNat % 980000000 else s.time.now + 2000000
      let s := (s.admitCell e.cell ((e.inc + 1) % 2 ^ 32) nb x).modCell e.cell (fun o => { o with assumed := !planned, inherited := !planned })
      State.assumeAll planned r s

/-- A pool that `assumeAll` could not allocate whole. -/
def State.poolShort (s : State) (c : Nat) : Bool :=
  match (s.cell c).pool with
  | some e => decide ((((s.obj e).copies.flatMap (fun x => x.parts)).flatMap (fun x => x.chunks)).length < (s.obj e).chunks)
  | none => true

/-- ASSUME's admission of the whole set (R311, R312, R598): the first resource that does not fit. -/
def assumeFits (l : List AssumeEntry) (t : State) : Err :=
  let cls := match l with | e :: _ => slotClass (t.cell e.cell).cfg | [] => 0
  match firstOver (t.needs false t.portMode cls t.reservedSet) with
  | some n => some (needResult n)
  | none => failIf (l.any (fun e => t.poolShort e.cell)) .capacity

/-- ASSUME. -/
def execAssume (m : Fin 16) (s : State) : Outcome :=
  .next (s.runCommand m 0x0609
    (fun c _ => [failIf (assumeBad c) .badArg])
    (fun _ => statesOf 0x0609)
    (fun c s =>
      let l := assumeEntries c
      let used := l.find? (fun e => decide ((s.cell e.cell).state ≠ .unused))
      [match used with | some e => s.cellConflict e.cell [0] | none => none,
       failIf (s.changesBlocked || !s.time.everLocked) .notReady,
       match s.assumeAll (c.arg 0x22 1 == 1) l with
       | none => some (.badArg, [])
       | some t => assumeFits l t])
    (fun c s =>
      let planned := c.arg 0x22 1 == 1
      let l := assumeEntries c
      let cells := l.map (fun e => e.cell)
      let node := c.arg 0x20 2
      let s := (s.assumeAll planned l).getD s
      let s := if planned then s else s.sendRefresh (some node)
      let s := s.ledger 20 theDevice (.assume node (b2n planned) cells)
      (s.modHealth (fun h => { h with assuming := h.assuming ++ [(m.val, c.seq, node, planned, cells)] }), [], true)))

/-- The cell has served its first slot, and is not given up. -/
def Cell.serves (x : Cell) : Bool := decide (x.state = .active ∨ x.state = .reconfiguring ∨ x.state = .suspended)

/-- ASSUME_DONE (R599): the last cell of an ASSUME serves; the device is SERVING. -/
def execAssumeDone (now : Nat) (s : State) : Outcome :=
  .next (
    let s := s.at now
    match s.health.assuming.find? (fun a => a.2.2.2.2.all (fun c => (s.cell c).serves)) with
    | none => s
    | some a =>
      let s := if s.dev.dstate = .standby then s.setDevice .serving else s
      (s.modHealth (fun h => { h with assuming := h.assuming.erase a })).commandDone a.1 a.2.1 0x0609 .ok)

end Sys2Proof.Machine
end

