-- ==== Sys2Proof/Machine/Boot.lean ====
section
/-! DEFINITION. Resets of the device (R12, R58, R96), the firmware image and its verification (R603 to R609), bring-up and
the publication of the Peloth table (R45, R57 to R59, R594, R635), recovery boot, DEV_CONFIGURE, DEV_COMMIT, DEV_RESET,
DEBUG_ACCESS. -/

namespace Sys2Proof.Machine

/-! ## Resets -/

/-- SEQ of the next ledger record: the one above the last written (R579). -/
def nextLedgerSeq (f : Flash) : Nat :=
  match f.batches with
  | [] => 0
  | b :: _ => ((b.records.getLast?.map (fun r => r.seq + 1)).getD 0)

/-- The memories that a reset of the device leaves as they are: only the companion's. -/
def keptMem (m : Mem) : Mem :=
  let inC := fun (a : Nat) => decide (a / 2 ^ 64 = Space.companion.code)
  { cells := m.cells.filter (fun p => inC p.1), poison := m.poison.filter (fun p => inC (p.1 * 8)) }

/-- The pins, and what the supplies' history says. -/
def Package.afterReset (p : Package) : Package :=
  { resetHigh := p.resetHigh, latched := p.latched, brakeLow := p.brakeLow, tripLow := p.tripLow, flashAsked := p.flashAsked,
    grade1400 := p.grade1400, flashGranted := p.flashGranted, hotInsertion := p.hotInsertion, powerUp := p.powerUp, bringUp := p.bringUp, jtag := p.jtag }

/-- The device is reset (R11, R12, R96): every register, FIFO and memory of it is as `State.reset` has it; flash, fuses,
pins, the companion's memory, the commands that wait and what has left the device stay. The transition to ROM is reported
as any other, before the rings are gone (R98). -/
def State.deviceReset (s : State) : State :=
  let s := s.setDevice .rom
  { State.reset with
    pending := s.pending, mem := keptMem s.mem, flash := s.flash, fuses := s.fuses, out := s.out, fresh := s.fresh,
    pkg := s.pkg.afterReset,
    health := { ledgerSeq := nextLedgerSeq s.flash } }

/-- The boot ROM starts: M0 is extended (R611). -/
def State.startRom (s : State) : State := if s.pkg.resetHigh && !s.pkg.latched then s.extend 0 Config.romDigest else s

/-- A reset that the device comes out of at once: DEV_RESET and the reset after recovery, the image copy kept. -/
def State.warmReset (copy : Option (Bytes × Bool)) (s : State) : State :=
  (s.deviceReset.modSec (fun x => { x with recoveryImage := copy })).startRom

/-- BOARD_RESET (R97): BOARD_RESET_N is low; records that wait are lost (R577). -/
def execBoardReset (s : State) : Outcome :=
  .next (({ s with pkg := { s.pkg with resetHigh := false, latched := false, hotInsertion := false, bringUp := false, jtag := none,
                                       tripLow := false } } : State).deviceReset)

/-- BOARD_RESET_RELEASE (R635, R646): bring-up starts. -/
def execBoardResetRelease (hotInsertion : Bool) (s : State) : Outcome :=
  .next (
    if s.pkg.resetHigh then s
    else (s.modPkg (fun p => { p with resetHigh := true, hotInsertion, bringUp := true, jtag := none })).startRom)

/-! ## The firmware image (R605, R606) -/

def imgMagic (b : Bytes) : Nat := fieldAt b 0 4
def imgVersion (b : Bytes) : Nat := fieldAt b 4 2
def imgSlot (b : Bytes) : Nat := byteAt b 6
def imgSvn (b : Bytes) : Nat := byteAt b 7
def imgRevoke (b : Bytes) : Nat := byteAt b 8
def imgLength (b : Bytes) : Nat := fieldAt b 0xC 4
def imgKey (b : Bytes) : Bytes := (b.drop 0x10).take 68
def imgSections (b : Bytes) : Nat := fieldAt b 0x54 2

/-- A section of the manifest: KIND, OFFSET, LENGTH, DIGEST. -/
structure ImgSection where
  kind : Nat
  offset : Nat
  length : Nat
  digest : Bytes
  deriving DecidableEq, Repr

def imgSection (b : Bytes) (i : Nat) : ImgSection :=
  let o := 0x60 + 48 * i
  ⟨byteAt b o, fieldAt b (o + 4) 4, fieldAt b (o + 8) 4, (b.drop (o + 16)).take 32⟩

def imgSectionList (b : Bytes) : List ImgSection := (List.range (imgSections b)).map (imgSection b)

/-- Bytes of the manifest with its signature. -/
def manifestSize : Nat := 0x664 + 2820

/-- Check 1 of R606. -/
def imgMalformed (b : Bytes) : Bool :=
  imgMagic b != 0x4D4E564D || imgVersion b != 0x0100 ||
    decide (imgLength b < manifestSize ∨ 64 * 2 ^ 20 < imgLength b ∨ b.length < imgLength b) ||
    decide (imgSections b < 1 ∨ 32 < imgSections b) ||
    (imgSectionList b).any (fun x => decide (x.offset < manifestSize ∨ x.offset % 4096 ≠ 0 ∨ imgLength b < x.offset + x.length))

/-- A vendor slot is revoked, or its key is not the one the fuses name. -/
def Fuses.slotBad (f : Fuses) (slot : Nat) (key : Bytes) : Bool :=
  decide (3 < slot) || f.revoked.getLsbD slot || f.keyHash.getD slot [] != shake256 32 key

/-- VERIFY_RESULT of an image (R606). -/
def verifyImage (f : Fuses) (b : Bytes) : Nat :=
  if imgMalformed b then 1
  else if f.slotBad (imgSlot b) (imgKey b) then 2
  else if fieldAt b 0x660 4 ≠ 2820 ∨ !Config.verify (imgKey b) (b.take 0x664) ((b.drop 0x664).take 2820) then 3
  else if imgSvn b < f.svn then 4
  else if (imgSectionList b).any (fun x =>
      x.digest != shakeTag 32 [0x4D, 0x56, 0x4E, 0x2D, 0x53, 0x43] ((b.drop x.offset).take x.length)) then 5
  else 0

/-! ## Bring-up -/

/-- M1 to M7 of Table 20-3 for an accepted image. -/
def State.measureBoot (b : Bytes) (recovered persist : Bool) (s : State) : State :=
  let fu := leBytes 1 s.fuses.revoked.toNat ++ leBytes 8 (2 ^ s.fuses.svn - 1) ++ leBytes 1 (imgSlot b)
  let s := s.extend 1 (shakeTag 32 [0x4D, 0x56, 0x4E, 0x2D, 0x46, 0x55] fu)
  let s := s.extend 2 (shake256 32 (b.take 0x664))
  let s := s.forEach (imgSectionList b) (fun x s =>
    if x.kind = 1 ∨ x.kind = 4 then s.extend 3 x.digest
    else if x.kind = 2 ∨ x.kind = 3 ∨ x.kind = 5 then s.extend 4 x.digest else s)
  let s := s.extend 5 (shakeTag 32 [0x4D, 0x56, 0x4E, 0x2D, 0x42, 0x53] (leBytes 1 (b2n recovered) ++ leBytes 1 (b2n persist)))
  let s := s.extend 6 (shake256 32 (Config.publicKey identityKey))
  s.extend 7 (shakeTag 32 [0x4D, 0x56, 0x4E, 0x2D, 0x43, 0x4C] (leBytes 16 Config.classString.toNat))

/-- Every record written to the ledger, newest first. -/
def Flash.recordsBack (f : Flash) : List LRecord := f.batches.flatMap (fun b => b.records.reverse)

/-- The deficits of the latest DEFICITS record (R583). -/
def State.restoreDeficits (s : State) : State :=
  match s.flash.recordsBack.findSome? (fun r => match r.body with
      | .deficits d fs => some (r.timeValid, r.time, d, fs)
      | _ => none) with
  | none => s
  | some (valid, t, d, fs) =>
    let scope := fun (d : Nat) => ({ deficit := BitVec.ofNat 32 d } : Scope)
    s.modHealth (fun h => { h with
      device := scope d
      folds := fs.foldl (fun l p => tset {} l p.1 (scope p.2)) h.folds
      restoredAt := if valid then some t else none })

/-- The state in which bring-up publishes a unit (R18, R57, R594, R635, R669). -/
def State.publishedState (s : State) (u : UnitId) : UState :=
  if u.ty = .device then .ready
  else if s.flash.retired.any (fun p => p.1 == unitKey u) then .retired
  else if u.ty = .fold ∧ 32 ≤ u.idx then .spare
  else if (s.fencesOf u).isEmpty then .initialising
  else .fenced

/-- The reservation of the next 1,024 numbers of a unit, and the first of them (R58, R59); where it cannot be written the
unit takes no number and waits for it, and DEV_CONFIGURE is refused (R59, R580). -/
def State.numberUnit (u : UnitId) (s : State) : Nat × State :=
  if s.canReserve then (tget 0 s.flash.reserved (unitKey u) + 1, s.reserveInc u) else (0, s)

/-- Bring-up writes the reservations and publishes the table (R45, R59), conditional fences in force again (R594). -/
def State.publish (s : State) : State :=
  let s := s.forEach allUnits (fun u s =>
    let (n, s) := s.numberUnit u
    let e : UnitEntry := { state := s.publishedState u, incarnation := n, stateChange := 2, waitsReserve := n == 0 }
    { s with units := { s.units with entries := tset {} s.units.entries (unitKey u) e } })
  let s := s.forEach (List.range 32) (fun f s =>
    let conds := (s.fencesOf ⟨.fold, f⟩).filterMap (fun m => match m with | .cond tb ab => some (tb * 4 + ab) | _ => none)
    match conds with
    | [] => s
    | k :: _ => (s.modHealth (fun h => { h with condFenced := h.condFenced ++ [f] })).modFoldHealth f
        (fun h => { h with holding := conds, condBin := k * 20 }))
  { s with units := { s.units with published := true, changeCount := 2 } }

/-- The POWER records of a bring-up from the board reset (R635, R646, R649): power-up, hot insertion, and a surprise removal
before it where power came back and the last POWER record was neither a power-down nor a prepared removal. -/
def State.powerRecords (s : State) : State :=
  if !s.pkg.bringUp then s
  else
    let last := s.flash.recordsBack.findSome? (fun r => match r.body with | .power e _ => some e | _ => none)
    let again := s.pkg.powerUp || s.pkg.hotInsertion
    let surprise := again && (match last with | some e => e != 2 && e != 5 | none => false)
    let s := { s with flash := { s.flash with powerCycles := s.flash.powerCycles + b2n again } }
    let s := if surprise then s.ledger 16 theDevice (.power 4 s.flash.powerCycles) else s
    let s := s.ledger 16 theDevice (.power (if s.pkg.hotInsertion then 3 else 1) s.flash.powerCycles)
    s.modPkg (fun p => { p with powerUp := false, bringUp := false, hotInsertion := false })

/-- An accepted image runs: measurements, Obesk, the table, LOADED (R607, R635). -/
def State.bootImage (b : Bytes) (recovered persist : Bool) (s : State) : State :=
  let s := s.measureBoot b recovered persist
  let s := s.modSec (fun x => { x with bootRecovery := recovered, slot := imgSlot b, manifestSvn := imgSvn b, manifestRevoke := imgRevoke b })
  let s := s.restoreDeficits.publish.powerRecords
  (s.modHealth (fun h => { h with lastEval := s.time.now })).setDevice .loaded

/-- IMAGE_VERIFY (R606, R607): of the copy after a recovery load, else of the flash image. -/
def execImageVerify (readOk : Bool) (s : State) : Outcome :=
  .next (
    if s.dev.dstate ≠ .rom ∨ !s.pkg.resetHigh ∨ s.pkg.latched ∨ s.sec.tried ∨ !s.sec.recovery.isEmpty then s
    else
      let (b, recovered, persist) := match s.sec.recoveryImage with
        | some (b, p) => (b, true, p)
        | none => (s.flash.image, false, false)
      let s := if readOk ∧ verifyImage s.fuses b = 0 then s.bootImage b recovered persist
        else s.modSec (fun x => { x with tried := true })
      -- R662: the image has been read, so the card gets the flash it asked for
      s.modPkg (fun p => { p with flashGranted := p.flashGranted || p.flashAsked }))

/-! ## Recovery (R608, R609) -/

/-- FW_RECOVERY_LOAD (R608). -/
def execFwRecoveryLoad (m : Fin 16) (s : State) : Outcome :=
  .next (s.runCommand m 0x07F0
    (fun c _ => [c.lenAtLeast 25, failIf (c.arg 0x20 8 % 4096 != 0 || c.arg 0x30 8 % 64 != 0) .badArg])
    (fun _ => statesOf 0x07F0) (fun _ _ => [])
    (fun c s => (s.modSec (fun x => { x with
      recovery := x.recovery ++ [(c.arg 0x20 8, c.arg 0x28 4, c.arg 0x30 8, bitOf (c.arg 0x38 1) 0, c.seq)] }), [], true)))

/-- The report of R608. -/
def recoveryReport (result : Nat) (b : Bytes) : Bytes :=
  leBytes 1 result ++ leBytes 1 (imgSlot b) ++ leBytes 1 (imgSvn b) ++ [1#8] ++
    leBytes 2 (if result = 0 then Status.ok.code else Status.denied.code) ++ List.replicate 26 0#8 ++ shake256 32 b

/-- FW_RECOVERY_VERIFIED (R608): the report is written; rejected, the device stays in ROM; accepted, it resets onto the
copy. -/
def execFwRecoveryVerified (transferOk : Bool) (s : State) : Outcome :=
  .next (
    match s.sec.recovery with
    | [] => s
    | (a, n, report, persist, seq) :: rest =>
      if s.dev.dstate ≠ .rom then s
      else
        let b := s.rd .companion a n
        let result := if transferOk then verifyImage s.fuses b else 6
        let s := s.wr .companion report (recoveryReport result b)
        if result = 0 then s.warmReset (some (b, persist))
        else
          (s.modSec (fun x => { x with recovery := rest })).modMbox 0 (fun x =>
            { x with long := x.long.filter (fun l => !(l.seq == seq && l.opcode == 0x07F0)) }))

/-- IMAGE_PERSIST_DONE (R609): the recovered image lies in flash, or a power loss leaves none that is valid. -/
def execImagePersistDone (powerLost : Bool) (s : State) : Outcome :=
  .next (
    match s.sec.recoveryImage with
    | some (b, true) =>
      if s.dev.dstate = .rom ∨ s.sec.persistDone ∨ s.pkg.flashGranted then s
      else if powerLost then { s with flash := { s.flash with image := [] } }
      else ({ s with flash := { s.flash with image := b } } : State).modSec (fun x => { x with persistDone := true })
    | _ => s)

/-! ## DEV_CONFIGURE, DEV_COMMIT, DEV_RESET, DEBUG_ACCESS (R97, R35) -/

/-- Fuses pending from the image that runs are burned (R609). -/
def State.burnFuses (s : State) : State :=
  let keep : BitVec 4 := ~~~(1#4 <<< s.sec.slot)
  { s with fuses := { s.fuses with svn := max s.fuses.svn s.sec.manifestSvn
                                   revoked := s.fuses.revoked ||| (BitVec.ofNat 4 s.sec.manifestRevoke &&& keep) } }

/-- A unit has no number that a written reservation covers (R580). -/
def State.unreserved (s : State) : Bool :=
  allUnits.any (fun u => decide (tget 0 s.flash.reserved (unitKey u) < (s.unit u).incarnation) ||
    ((s.unit u).waitsReserve && (s.unit u).incarnation == 0))

/-- DEV_CONFIGURE (R97, R315, R374, R580, R609). -/
def execDevConfigure (m : Fin 16) (s : State) : Outcome :=
  .next (s.runCommand m 0x0004
    (fun c _ => [c.lenIs 0]) (fun _ => statesOf 0x0004)
    (fun _ s => [failIf s.unreserved .capacity])
    (fun _ s =>
      let s := s.burnFuses.bindDma
      let s := ({ s with dev := { s.dev with configured := true } } : State).setDevice .configuring
      (s.forEach (List.range 32) State.ensureRadio, [], false)))

/-- DEV_COMMIT (R97, R278, R430): admitted cells start. -/
def execDevCommit (m : Fin 16) (s : State) : Outcome :=
  .next (s.runCommand m 0x0005
    (fun c _ => [c.lenIs 0]) (fun _ => statesOf 0x0005)
    (fun _ s => [failIf (!s.time.everLocked) .notReady])
    (fun _ s =>
      let s := s.forEach (s.reservedCells.map (fun p => p.1)) (fun k s =>
        s.modCell k (fun x => if x.state = .admitted then { x with notBefore := s.time.now + 2000000 } else x))
      (s.setDevice .serving, [], false)))

/-- DEV_RESET (R11, R96, R97, R577): the response is written, the waiting records are, then the device is reset. -/
def execDevReset (m : Fin 16) (s : State) : Outcome :=
  .next (
    let early : Cmd → State → List Err := fun c _ => [c.lenIs 0]
    match s.verdict m 0x0006 early (fun _ => statesOf 0x0006) (fun _ _ => []) with
    | none => s
    | some (c, some e) => s.respond m c e.1 e.2 false
    | some (c, none) =>
      let s := s.respond m c .ok [] false
      let s := if s.dev.dstate = .rom then s else s.closeBatch
      s.warmReset none)

/-- DEBUG_ACCESS (R35, R611). -/
def execDebugAccess (m : Fin 16) (s : State) : Outcome :=
  .next (s.runCommand m 0x0008
    (fun c _ => [c.lenIs 1, failIf (decide (1 < c.arg 0x20 1)) .badArg])
    (fun _ => statesOf 0x0008) (fun _ _ => [])
    (fun c s =>
      let s := s.extend 8 (shakeTag 32 [0x4D, 0x56, 0x4E, 0x2D, 0x44, 0x42] (leBytes 1 (c.arg 0x20 1)))
      ({ s with dev := { s.dev with debugAccess := c.arg 0x20 1 == 1 } }, [], false)))

end Sys2Proof.Machine
end

