-- ==== Sys2Proof/Machine/FabOps.lean ====
section
/-! DEFINITION. The requester of fabric memory (R502, R513 to R519, R522, R524, R526): descriptors, packets, the window of
each destination, responses and completion. -/

namespace Sys2Proof.Machine

/-! ## The descriptor (Tables 16-4 and 16-8) -/

def fOp (d : Bytes) : Nat := byteAt d 0 % 16
def fAop (d : Bytes) : Nat := byteAt d 0 / 16
def fSpace (d : Bytes) : Bool := bitOf (fieldAt d 0 4) 8
def fWide (d : Bytes) : Bool := bitOf (fieldAt d 0 4) 9
def fVersion (d : Bytes) : Nat := fieldAt d 2 2
def fNode (d : Bytes) : Nat := fieldAt d 4 2 % 4096
def fRemote (d : Bytes) : Nat := fieldAt d 8 6
def fKeyIndex (d : Bytes) : Nat := fieldAt d 14 2
def fKeyValue (d : Bytes) : Nat := fieldAt d 16 4
def fLength (d : Bytes) : Nat := fieldAt d 20 3
def fLocal (d : Bytes) : Nat := fieldAt d 24 8
def fLocalOff (d : Bytes) : Nat := fieldAt d 32 8
def fOperand (d : Bytes) : Nat := fieldAt d 40 8
def fOperand2 (d : Bytes) : Nat := fieldAt d 48 8
def fCounter (d : Bytes) : Nat := fieldAt d 56 6
def fCollId (d : Bytes) : Nat := fieldAt d 8 4
def fCkind (d : Bytes) : Nat := byteAt d 12 % 4
def fRop (d : Bytes) : Nat := byteAt d 12 / 4 % 8
def fBitId (d : Bytes) : Bool := bitOf (byteAt d 12) 5
def fEfmt (d : Bytes) : Nat := fieldAt d 12 2 / 64 % 8
def fResult (d : Bytes) : Nat := fieldAt d 40 8
def fParts (d : Bytes) : Nat := fieldAt d 48 8

/-- Bytes of an element of EFMT. -/
def efmtBytes (e : Nat) : Nat := match e with | 0 | 2 => 4 | 1 | 3 => 8 | _ => 2

/-- Last offset below the rack window's 1,536 GiB of a device (R501). -/
def rackTop : Nat := 0x18000000000

/-- The node a descriptor goes to (R500, R501). -/
def State.fabDst (s : State) (d : Bytes) : Nat :=
  if fSpace d ∧ fOp d ≠ 6 then 64 * (s.fab.node.getD 0 / 64) + bitsOf (fRemote d) 41 6 else fNode d

/-- Fields of a request out of range (R500 to R503, R514, R515): a copy starts on a 256-byte boundary, so that none of its
packets crosses one (log entry 92). -/
def fabBad (d : Bytes) : Bool :=
  let n := fLength d
  let a := fRemote d
  let off := if fSpace d then a % 2 ^ 41 else a
  let addrBad := if fSpace d then decide (2 ^ 47 ≤ a ∨ rackTop < off + max 1 n) else decide (2 ^ 40 < a + max 1 n)
  match fOp d with
  | 0 | 1 => addrBad || decide (n < 32 ∨ 256 < n ∨ n % 32 ≠ 0 ∨ off % 32 ≠ 0 ∨ 256 < off % 256 + n ∨ fLocalOff d % 32 ≠ 0)
  | 2 => addrBad || fSpace d || decide (n ≠ 8 ∨ off % 8 ≠ 0)
  | 3 => addrBad || fSpace d || decide (8 < fAop d) ||
      (if fWide d then decide (n ≠ 8 ∨ off % 8 ≠ 0) else decide (n ≠ 4 ∨ off % 4 ≠ 0))
  | 4 => addrBad || decide (n < 32 ∨ 16777216 < n ∨ n % 32 ≠ 0 ∨ off % 256 ≠ 0 ∨ fLocalOff d % 32 ≠ 0 ∨ 2 ^ 40 ≤ fCounter d ∨
      fCounter d % 8 ≠ 0)
  | 5 => addrBad || decide (n < 32 ∨ 16777216 < n ∨ n % 32 ≠ 0 ∨ off % 256 ≠ 0 ∨ fLocalOff d % 32 ≠ 0 ∨ fCounter d % 8 ≠ 0)
  | 6 => fSpace d || decide (2 < fCkind d ∨ 2 < fRop d ∨ 4 < fEfmt d ∨ n = 0 ∨ n % 32 ≠ 0 ∨ fLocalOff d % 32 ≠ 0)
  | _ => true

/-- Whether the operation reads LOCAL, or writes it. -/
def fReads (d : Bytes) : Bool := fOp d == 1 || fOp d == 4 || fOp d == 6
def fWrites (d : Bytes) : Bool := fOp d == 0 || fOp d == 5

/-- What R514 says of LOCAL and the other handles before anything is sent. -/
def State.fabHandles (s : State) (i : Nat) (d : Bytes) : Option Status :=
  let o := s.obj (hdlEntry (fLocal d))
  let bad := fun (b : Bool) => if b then some Status.badArg else none
  if !fReads d && !fWrites d then none
  else
    match s.handleStatus (fLocal d) i with
    | some st => some st
    | none =>
      match bad (decide (o.size < fLocalOff d + fLength d) || (fWrites d && o.readonly) ||
          (fOp d == 5 && decide (fCounter d ≠ 0 ∧ o.size < fCounter d + 8))) with
      | some st => some st
      | none =>
        if fOp d ≠ 6 then none
        else
          match s.handleStatus (fResult d) i, s.handleStatus (fParts d) i with
          | some st, _ | none, some st => some st
          | none, none => bad ((s.obj (hdlEntry (fResult d))).readonly)

/-! ## Bytes of objects across chunks -/

/-- Write bytes at an offset of an object, split at chunk boundaries; `n` bounds the pieces. -/
def State.objPutN (e : Nat) : Nat → Nat → Bytes → State → State
  | 0, _, _, s => s
  | n + 1, off, b, s =>
    if b.isEmpty then s
    else
      let room := chunkSize - off % chunkSize
      State.objPutN e n (off + room) (b.drop room) (s.objWrite e off (b.take room))

def State.objPut (e off : Nat) (b : Bytes) (s : State) : State := s.objPutN e (b.length / chunkSize + 2) off b

/-- Read `n` bytes, in pieces of at most 32 KiB. -/
def State.fetchN (e : Nat) : Nat → Nat → Nat → State → Fetch × State
  | 0, _, _, s => (.bytes [] false, s)
  | k + 1, off, n, s =>
    if n = 0 then (.bytes [] false, s)
    else
      match s.fetch e off (min n 32768) none with
      | (.bytes b p, s) =>
        (match State.fetchN e k (off + min n 32768) (n - min n 32768) s with
         | (.bytes b' p', s) => (.bytes (b ++ b') (p || p'), s)
         | r => r)
      | r => r

def State.fetchWhole (e off n : Nat) (s : State) : Fetch × State := s.fetchN e (n / 32768 + 1) off n

/-! ## Components -/

def State.fdesc (s : State) (id : Nat) : Option FabDesc := tget none s.fabMem.descs id
def State.setFdesc (id : Nat) (d : Option FabDesc) (s : State) : State :=
  s.modFabMem (fun m => { m with descs := tset none m.descs id d })
def State.modFdesc (id : Nat) (f : FabDesc → FabDesc) (s : State) : State := s.setFdesc id ((s.fdesc id).map f)
def State.dest (s : State) (n : Nat) : Dest := tget {} s.fabMem.dests n
def State.modDest (n : Nat) (f : Dest → Dest) (s : State) : State :=
  s.modFabMem (fun m => { m with dests := tmod {} m.dests n f })

/-- Requests outstanding to a node (R526). -/
def State.outstandingTo (s : State) (n : Nat) : Nat := (s.fabMem.requests.filter (fun r => r.packet.h.dst == n)).length

def State.windowOpen (s : State) (n : Nat) : Bool := decide (s.outstandingTo n < (s.dest n).window)

/-! ## Completion (R513, R517, R561) -/

/-- STORE, COPY_PUT and STORE_FLAG, which a later flag waits for. -/
def beforeFlag (op : Nat) : Bool := op == 1 || op == 2 || op == 4

/-- The descriptor's write-back: STATUS, SEQ, RESULT and TIME, then DONE. -/
def doneBytes (d : FabDesc) (now : Nat) : Bytes :=
  leBytes 2 d.status.code ++ [BitVec.ofNat 8 (1 + 2 * b2n d.ceSeen), 0#8] ++ leBytes 4 (d.firstSeq.getD 0) ++ leBytes 8 d.result ++
    leBytes 8 now

/-- A descriptor completes. -/
def State.finishDesc (id : Nat) (s : State) : State :=
  match s.fdesc id with
  | none => s
  | some d =>
    let s := s.setFdesc id none
    let k := d.queue * 4096 + d.node
    let s :=
      if beforeFlag (fOp d.bytes) && decide (d.status ≠ .ok) && !(fOp d.bytes == 4 && d.released) &&
          (d.inst == 0 || (s.inst d.inst).generation == d.generation) then
        match tget none s.fabMem.failed k with
        | some (o, _, _) =>
          if id < o then s.modFabMem (fun m => { m with failed := tset none m.failed k (some (id, d.firstSeq.getD 0, d.status)) }) else s
        | none => s.modFabMem (fun m => { m with failed := tset none m.failed k (some (id, d.firstSeq.getD 0, d.status)) })
      else s
    if d.inst ≠ 0 ∧ (s.inst d.inst).generation ≠ d.generation then s.staleDiscard d.inst
    else
      let s :=
        if fOp d.bytes = 5 ∧ d.status = .ok ∧ fCounter d.bytes ≠ 0 then
          let e := hdlEntry (fLocal d.bytes)
          match s.fetch e (fCounter d.bytes) 8 none with
          | (.bytes b _, s) => s.objPut e (fCounter d.bytes) (leBytes 8 ((leNat b + fLength d.bytes) % 2 ^ 64))
          | (_, s) => s
        else s
      s.objPut d.ringObj (d.entry + 64) (doneBytes d s.time.now)

/-- Bytes of RESULT that a collective places at this device. -/
def FabDesc.share (d : FabDesc) : Nat :=
  match fCkind d.bytes with
  | 0 => fLength d.bytes
  | 1 => fLength d.bytes / d.parts.length
  | _ => fLength d.bytes * d.parts.length

/-- Every request of a descriptor has its answer and nothing is left to send. -/
def State.descIdle (s : State) (id : Nat) (d : FabDesc) : Bool :=
  d.toSend.isEmpty && d.msgs.isEmpty && !s.fabMem.requests.any (fun r => r.desc == id)

/-- Complete a descriptor that has nothing left to wait for: a flag waits for its release, a COPY_PUT with a counter for
the counter addition where all went well, a collective for its result. -/
def State.settleDesc (id : Nat) (s : State) : State :=
  match s.fdesc id with
  | none => s
  | some d =>
    let waits :=
      match fOp d.bytes with
      | 2 => !d.released
      | 4 => fCounter d.bytes != 0 && decide (d.status = .ok) && !d.released
      | 6 => decide (d.status = .ok) && d.placed != d.share
      | _ => false
    if s.descIdle id d && !waits then s.finishDesc id else s

/-- Note what an answer says of a descriptor: the first failure stays (R513). -/
def FabDesc.note (st : Status) (seq : Nat) (d : FabDesc) : FabDesc :=
  if st = .ok ∨ d.status ≠ .ok then d else { d with status := st, firstSeq := some seq }

/-! ## Sending (R516, R519, R526) -/

/-- The header of a request to a node. -/
def State.reqHeader (s : State) (dst op : Nat) (space : Bool) (addr keyIndex keyValue rlen codewords : Nat) : Header :=
  { vc := 0, epoch := 0, op := Fin.ofNat 16 op, codewords, dst, src := s.fab.node.getD 0
    version := BitVec.ofNat 16 ((s.node dst).version.getD 0), hops := 0, ce := false, srcInc := s.ownIncFor dst, seq := 0, space, rlen
    addr, keyIndex := if ((s.node dst).version.getD 0) / 256 = 2 then 0 else keyIndex
    keyValue := if ((s.node dst).version.getD 0) / 256 = 2 then 0 else BitVec.ofNat 32 keyValue, hcrc := 0 }

/-- Send a request under the next SEQ to its node, and remember it. -/
def State.sendRequest (id off : Nat) (counter : Bool) (k : Packet) (s : State) : State :=
  let q := (s.dest k.h.dst).nextSeq
  let k := { k with h := { k.h with seq := q } }
  let s := s.modDest k.h.dst (fun x => { x with nextSeq := (x.nextSeq + 1) % 2 ^ 24 })
  let s := s.modFdesc id (fun d => { d with firstSeq := if d.firstSeq.isNone then some q else d.firstSeq })
  let s := s.modFabMem (fun m => { m with
    requests := m.requests ++ [{ packet := k, sentAt := s.time.now, resends := 0, capacity := 0, desc := id, offset := off, counter }] })
  s.sendPacket k

/-- Payload of an ATOMIC (Table 16-5; the layout is log entry 41). -/
def atomicBytes (aop : Nat) (wide : Bool) (x y : Nat) : Bytes :=
  fixLen 32 (leBytes 1 aop ++ leBytes 1 (b2n wide) ++ leBytes 6 0 ++ leBytes 8 x ++ leBytes 8 y)

/-- Bytes of the packet at an offset of a request. -/
def fPiece (d : Bytes) (off : Nat) : Nat := min 256 (fLength d - off)

/-- Send the packet at an offset; none while LOCAL cannot be read yet. -/
def State.sendPiece (id : Nat) (d : FabDesc) (off : Nat) (s : State) : Option State :=
  let b := d.bytes
  let n := fPiece b off
  let hd := fun (op rlen cw : Nat) =>
    s.reqHeader d.node op (fSpace b) (fRemote b + off) (fKeyIndex b) (fKeyValue b) rlen cw
  match fOp b with
  | 0 | 5 => some (s.sendRequest id off false ⟨hd 0 (n / 32) 0, [], false, none⟩)
  | 2 => some (s.sendRequest id off false ⟨hd 2 0 1, fixLen 32 (leBytes 8 (fOperand b)), false, none⟩)
  | 3 => some (s.sendRequest id off false ⟨hd 3 0 1, atomicBytes (fAop b) (fWide b) (fOperand b) (fOperand2 b), false, none⟩)
  | _ =>
    match s.fetch (hdlEntry (fLocal b)) (fLocalOff b + off) n none with
    | (.wait _, _) => none
    | (.ends st, s) => some (s.modFdesc id (FabDesc.note st (d.firstSeq.getD 0)))
    | (.bytes _ true, s) =>
      some (s.modFdesc id (FabDesc.note (if (s.obj (hdlEntry (fLocal b))).readonly then .tierUncorrectable else .poisoned)
        (d.firstSeq.getD 0)))
    | (.bytes x false, s) => some (s.sendRequest id off false ⟨hd 1 0 (n / 32), x, false, none⟩)

/-- Send what the windows let a descriptor send; `n` bounds the packets. -/
def State.pumpDesc (id : Nat) : Nat → State → State
  | 0, s => s
  | n + 1, s =>
    match s.fdesc id with
    | none => s
    | some d =>
      match d.msgs, d.toSend with
      | k :: r, _ =>
        if s.windowOpen k.h.dst then
          State.pumpDesc id n ((s.modFdesc id (fun d => { d with msgs := r })).sendRequest id 0 false k)
        else s
      | [], off :: r =>
        if s.windowOpen d.node && (fOp d.bytes != 2 || d.released) then
          match s.sendPiece id d off with
          | some s => State.pumpDesc id n (s.modFdesc id (fun d => { d with toSend := r }))
          | none => s
        else s
      | [], [] => s

/-- Send for every descriptor, in order of posting, what the windows allow. -/
def State.pumpAll (s : State) : State :=
  s.forEach (s.fabMem.descs.map (fun p => p.1)) (fun id s =>
    let n := match s.fdesc id with | some d => d.toSend.length + d.msgs.length | none => 0
    (s.pumpDesc id n).settleDesc id)

/-! ## Answers (R522, R524, R526) -/

/-- A request to a destination has completed: ACK_SEQ follows, and an ACK is due within 100 µs of a change (R522). -/
def Dest.complete (now seq : Nat) (x : Dest) : Dest :=
  let l := seq :: x.doneSeqs
  let next := match x.ackSeq with | none => 0 | some a => (a + 1) % 2 ^ 24
  let run := ((List.range l.length).map (fun i => (next + i) % 2 ^ 24)).takeWhile (fun q => l.contains q)
  match run.getLast? with
  | none => { x with doneSeqs := l }
  | some a => { x with doneSeqs := l.filter (fun q => !run.contains q), ackSeq := some a
                       ackDue := if x.ackDue.isNone then some (now + 100000) else x.ackDue }

/-- CE of a response against the window (R526). -/
def Dest.congestion (ce : Bool) (x : Dest) : Dest :=
  if ce then { x with window := max 4 (x.window / 2), clean := 0 }
  else if x.clean + 1 = 64 then { x with window := min 64 (x.window + 1), clean := 0 }
  else { x with clean := x.clean + 1 }

/-- A request ends with a status, by its answer or without one. -/
def State.endRequest (r : Request) (st : Status) (s : State) : State :=
  let s := s.modFabMem (fun m => { m with requests := m.requests.erase r })
  let s := s.modDest r.packet.h.dst (Dest.complete s.time.now r.packet.h.seq)
  let s := s.modFdesc r.desc (FabDesc.note st r.packet.h.seq)
  (s.settleDesc r.desc).pumpAll

/-- Status by code. -/
def statusOf (n : Nat) : Status :=
  ([.ok, .stateConflict, .capacity, .quota, .badArg, .version, .staleHandle, .staleGeneration, .tierUncorrectable, .tierLate,
    .outcomeUnknown, .keyMismatch, .spoof, .jobLost, .poisoned, .denied, .notReady, .unknownOpcode, .cancelled] : List Status).getD n .badArg

/-- Take a packet out of the inbox, and out of the buffer of the port it came by (R468). -/
def State.takeInbox (p : Packet) (s : State) : State :=
  let s := s.modFab (fun f => { f with inbox := f.inbox.erase p })
  match s.fab.arrivals.find? (fun e => e.packet == p) with
  | some e => (s.modFab (fun f => { f with arrivals := f.arrivals.erase e })).freeInput e
  | none => s

end Sys2Proof.Machine
end

