-- ==== Sys2Proof/Machine/Collective.lean ====
section
/-! DEFINITION. Collectives (R528 to R531): the rank tree, contributions and results. Combining in flight (R530) is
allowed to routers and not done by this one (log entry 42). -/

namespace Sys2Proof.Machine

/-! ## Elements (R529) -/

/-- Minimum and maximum with −0 below +0 (Table 16-6). -/
def fMin (f : BFmt) (a b : Nat) : Nat :=
  match f.decode a, f.decode b with
  | .fin 0 _, .fin 0 _ => if f.negCode b then b else a
  | _, _ => f.min a b

def fMax (f : BFmt) (a b : Nat) : Nat :=
  match f.decode a, f.decode b with
  | .fin 0 _, .fin 0 _ => if f.negCode a then b else a
  | _, _ => f.max a b

/-- Combine two elements, the own value on the left. -/
def combineElem (efmt rop a b : Nat) : Nat :=
  let w := 8 * efmtBytes efmt
  let int := fun (_ : Unit) =>
    match rop with
    | 0 => (a + b) % 2 ^ w
    | 1 => if toInt w b < toInt w a then b else a
    | _ => if toInt w a < toInt w b then b else a
  let flt := fun (f : BFmt) => match rop with | 0 => f.add a b | 1 => fMin f a b | _ => fMax f a b
  match efmt with
  | 0 | 1 => int ()
  | 2 => flt fmtFp32
  | 3 => flt fmtFp64
  | _ => flt fmtBf16

/-- Combine two byte strings element by element; `n` bounds the elements. -/
def combineBytes (efmt rop : Nat) : Nat → Bytes → Bytes → Bytes
  | 0, _, _ => []
  | n + 1, a, b =>
    let w := efmtBytes efmt
    leBytes w (combineElem efmt rop (leNat (a.take w)) (leNat (b.take w))) ++ combineBytes efmt rop n (a.drop w) (b.drop w)

/-! ## Ranks and segments -/

def FabDesc.n (d : FabDesc) : Nat := d.parts.length

/-- Bytes of a segment. -/
def FabDesc.segLen (d : FabDesc) : Nat := if fCkind d.bytes = 1 then fLength d.bytes / d.n else fLength d.bytes

/-- Offset of a segment's running value in `value`, and of its place in RESULT. -/
def FabDesc.segOff (d : FabDesc) (seg : Nat) : Nat := if fCkind d.bytes = 1 then seg * d.segLen else 0
def FabDesc.resultOff (d : FabDesc) (seg : Nat) : Nat := if fCkind d.bytes = 2 then seg * d.segLen else 0

/-- Own rank. -/
def State.rankOf (s : State) (d : FabDesc) : Nat := (d.parts.idxOf (s.fab.node.getD 0))

/-- Packets of one message of a collective: `data` for a segment, in pieces of 256 bytes. -/
def State.collPackets (s : State) (d : FabDesc) (dst seg level : Nat) (down : Bool) (data : Bytes) : List Packet :=
  (List.range (ceilDiv data.length 256)).map (fun i =>
    let x := (data.drop (256 * i)).take 256
    let c : Coll := { id := fCollId d.bytes, ckind := fCkind d.bytes, rop := fRop d.bytes, bitId := fBitId d.bytes,
                      efmt := fEfmt d.bytes, length := fLength d.bytes, segment := seg, level, offset := 256 * i, down }
    { h := s.reqHeader dst 5 false 0 (fKeyIndex d.bytes) (fKeyValue d.bytes) 0 (x.length / 32), data := x, poison := false, coll := some c })

/-- Place bytes of the result. -/
def State.placeResult (id off : Nat) (b : Bytes) (s : State) : State :=
  match s.fdesc id with
  | none => s
  | some d => (s.objPut (hdlEntry (fResult d.bytes)) off b).modFdesc id (fun d => { d with placed := d.placed + b.length })

/-- Send a result on to the ranks below `v` in the tree: those at levels below `top` (R529). -/
def State.sendDown (id seg v top : Nat) (b : Bytes) (s : State) : State :=
  match s.fdesc id with
  | none => s
  | some d =>
    let levels := ((List.range top).filter (fun l => decide (v + 2 ^ l < d.n))).reverse
    let ms := levels.flatMap (fun l => s.collPackets d (d.parts.getD ((v + 2 ^ l + seg) % d.n) 0) seg l true b)
    s.modFdesc id (fun d => { d with msgs := d.msgs ++ ms })

/-- Levels of a tree of `n` ranks. -/
def treeDepth (n : Nat) : Nat := Nat.log2 (n - 1) + 1

/-- The level at which rank `v` sends its value up: its lowest set bit. -/
def upLevel (n v : Nat) : Nat := ((List.range (treeDepth n)).find? (fun l => v % 2 ^ (l + 1) != 0)).getD (treeDepth n)

/-- The reduction of one segment goes as far as the contributions in hand let it; `fuel` bounds the levels. -/
def State.advanceSeg (id seg : Nat) : Nat → State → State
  | 0, s => s
  | fuel + 1, s =>
    match s.fdesc id with
    | none => s
    | some d =>
      let v := (s.rankOf d + d.n - seg % d.n) % d.n
      let l := tget 0 d.progress seg
      let own := (d.value.drop (d.segOff seg)).take d.segLen
      let next := fun (k : Nat) (s : State) => s.modFdesc id (fun d => { d with progress := tset 0 d.progress seg k })
      if 100 ≤ l then s
      else if d.n ≤ 2 ^ l then
        let s := (next 100 s).placeResult id (d.resultOff seg) own
        if fCkind d.bytes = 0 then s.sendDown id seg v (treeDepth d.n) own else s
      else if v % 2 ^ (l + 1) ≠ 0 then
        (next 100 s).modFdesc id (fun d => { d with
          msgs := d.msgs ++ s.collPackets d (d.parts.getD ((v - 2 ^ l + seg) % d.n) 0) seg l false own })
      else if d.n ≤ v + 2 ^ l then State.advanceSeg id seg fuel (next (l + 1) s)
      else
        match d.gathered.find? (fun g => g.1 == (seg, l)) with
        | some (_, b, offs) =>
          if offs.length < ceilDiv d.segLen 256 then s
          else
            let r := combineBytes (fEfmt d.bytes) (fRop d.bytes) (d.segLen / efmtBytes (fEfmt d.bytes)) own b
            let s := s.modFdesc id (fun d => { d with
              value := d.value.take (d.segOff seg) ++ r ++ d.value.drop (d.segOff seg + d.segLen) })
            State.advanceSeg id seg fuel (next (l + 1) s)
        | none => s

/-- Advance every segment of a reduction. -/
def State.advance (id : Nat) (s : State) : State :=
  match s.fdesc id with
  | none => s
  | some d =>
    match fCkind d.bytes with
    | 0 => s.advanceSeg id 0 (treeDepth d.n + 2)
    | 1 => s.forEach (List.range d.n) (fun g s => s.advanceSeg id g (treeDepth d.n + 2))
    | _ => s

/-- A collective begins with its input read: an all-gather sends its segment to every other rank. -/
def State.startColl (id : Nat) (s : State) : State :=
  match s.fdesc id with
  | none => s
  | some d =>
    if fCkind d.bytes ≠ 2 then s.advance id
    else
      let r := s.rankOf d
      let ms := (d.parts.filter (fun n => some n != s.fab.node)).flatMap (fun n => s.collPackets d n r 0 true d.value)
      (s.placeResult id (d.resultOff r) d.value).modFdesc id (fun d => { d with msgs := d.msgs ++ ms })

/-- The fields of a contribution are those of the receiver's descriptor (R528). -/
def collAgrees (d : FabDesc) (k : Packet) (c : Coll) : Bool :=
  c.ckind == fCkind d.bytes && c.rop == fRop d.bytes && c.bitId == fBitId d.bytes && c.efmt == fEfmt d.bytes &&
    c.length == fLength d.bytes && k.h.keyIndex == fKeyIndex d.bytes && k.h.keyValue.toNat == fKeyValue d.bytes &&
    d.parts.contains k.h.src

/-- Take a piece of a contribution or of a result: its slot and whether the last piece of it has now come. -/
def State.gather (id : Nat) (c : Coll) (data : Bytes) (s : State) : State :=
  s.modFdesc id (fun d =>
    let key := (c.segment, if c.down then 100 else c.level)
    let old := ((d.gathered.find? (fun g => g.1 == key)).map (fun g => g.2)).getD (List.replicate d.segLen 0#8, [])
    if old.2.contains c.offset then d
    else
      let b := (old.1.take c.offset ++ data ++ old.1.drop (c.offset + data.length)).take d.segLen
      { d with gathered := d.gathered.filter (fun g => g.1 != key) ++ [(key, b, c.offset :: old.2)] })

/-- A whole result that came down is placed and sent on, once. -/
def State.takeDown (id seg : Nat) (s : State) : State :=
  match s.fdesc id with
  | none => s
  | some d =>
    match d.gathered.find? (fun g => g.1 == (seg, 100)) with
    | some (_, b, offs) =>
      if offs.length ≠ ceilDiv d.segLen 256 then s
      else
        let s := s.placeResult id (d.resultOff seg) b
        if fCkind d.bytes = 0 then s.sendDown id seg (s.rankOf d) (upLevel d.n (s.rankOf d)) b else s
    | none => s

/-- A collective ends without its result; after NOT_READY the content of RESULT is undefined: free values (R531). -/
def State.failColl (id : Nat) (st : Status) (s : State) : State :=
  match s.fdesc id with
  | none => s
  | some d =>
    let s := if st = .notReady then
        let (b, s) := s.freeBytes d.share
        s.objPut (hdlEntry (fResult d.bytes)) 0 b
      else s
    let s := s.modFabMem (fun m => { m with requests := m.requests.filter (fun r => r.desc != id) })
    (s.modFdesc id (fun d => { d with status := st, msgs := [], toSend := [] })).finishDesc id

/-- FAB_COLL_RX (R529): a contribution is taken once the device has a descriptor for its collective. -/
def execFabCollRx (p : Packet) (s : State) : Outcome :=
  .next (
    match p.coll with
    | none => s
    | some c =>
      if !s.fab.inbox.contains p ∨ p.h.op ≠ 5 then s
      else if p.h.rlen ≠ 0 then (s.takeInbox p).sendResponse (nakTo p .badArg false)
      else
        match s.fabMem.descs.find? (fun x => match x.2 with | some d => fOp d.bytes == 6 && fCollId d.bytes == c.id | none => false) with
        | some (id, some d) =>
          let s := s.takeInbox p
          if !collAgrees d p c then (s.sendResponse (nakTo p .badArg false)).failColl id .badArg
          else
            let key := (c.segment, if c.down then 100 else c.level)
            let whole := fun (s : State) => match s.fdesc id with
              | some d => (match d.gathered.find? (fun g => g.1 == key) with
                           | some (_, _, offs) => offs.length == ceilDiv d.segLen 256
                           | none => false)
              | none => false
            let before := whole s
            let s := (s.gather id c p.data).sendResponse (respTo p 9 [] false false)
            let s := if c.down then (if whole s && !before then s.takeDown id c.segment else s) else s.advance id
            s.pumpAll
        | _ => s)

/-- COLLECTIVE_TIMEOUT (R531): a participant is GONE, or 100 ms have passed. -/
def execCollectiveTimeout (now : Nat) (id : Nat) (s : State) : Outcome :=
  .next (
    let s := s.at now
    match s.fdesc id with
    | some d =>
      if fOp d.bytes = 6 ∧ (d.parts.any (fun n => !(s.node n).live) = true ∨ d.postedAt + 100000000 ≤ s.time.now) then
        s.failColl id .notReady
      else s
    | none => s)

end Sys2Proof.Machine
end

