-- ==== Sys2Proof/Machine/FabMem.lean ====
section
/-! DEFINITION. Fabric memory (chapter 16): regions and their checks, the responder, the homes of lines and the replay
table, the requester's events. -/

namespace Sys2Proof.Machine

/-! ## FAB_REGION_SET and FAB_COMPAT_SET (R505 to R508, R512) -/

def rOpen (c : Cmd) : Bool := bitOf (c.arg 0x23 1) 3

/-- Regions of an instance (R549, Table 18-3). -/
def State.regionOwned (s : State) (i r : Nat) : Bool :=
  if i = 0 then decide (r < 256)
  else decide ((s.inst i).grant.regionFirst ≤ r ∧ r < (s.inst i).grant.regionFirst + (s.inst i).grant.regionCount)

/-- Arguments out of range in themselves, or a range outside its space (R506). -/
def regionBad (c : Cmd) : Bool :=
  decide (4095 < c.arg 0x20 2) ||
    (rOpen c && (decide (1 < c.arg 0x22 1 ∨ c.arg 0x24 2 = 0 ∨ c.arg 0x30 8 % 65536 ≠ 0 ∨ c.arg 0x38 8 % 65536 ≠ 0 ∨ c.arg 0x38 8 = 0 ∨
      c.arg 0x48 8 % 65536 ≠ 0 ∨ (if c.arg 0x22 1 = 1 then rackTop else 2 ^ 40) < c.arg 0x30 8 + c.arg 0x38 8)))

/-- The range overlaps another open region of the same space. -/
def State.regionOverlaps (s : State) (r : Nat) (space : Bool) (base len : Nat) : Bool :=
  s.fabMem.regions.any (fun p => p.1 != r && decide (p.2.state = .open') && p.2.space == space &&
    decide (base < p.2.base + p.2.length ∧ p.2.base < base + len))

/-- FAB_REGION_SET (R505 to R508, R554). -/
def execFabRegionSet (m : Fin 16) (s : State) : Outcome :=
  .next (s.runCommand m 0x0401
    (fun c _ => [c.lenAtLeast 48, failIf (regionBad c) .badArg])
    (fun _ => statesOf 0x0401)
    (fun c s =>
      let r := c.arg 0x20 2
      let x := s.region r
      let i := c.instId
      let o := s.obj (hdlEntry (c.arg 0x40 8))
      [failIf (!s.regionOwned i r || (decide (x.state ≠ .unused) && x.inst != i)) .denied,
       s.instConflict i [1],
       conflictIf (decide (x.state = .closing)) 5 2 3 r] ++
      (if rOpen c then
        [failIf (decide (s.handleStatus (c.arg 0x40 8) i = some .staleHandle)) .staleHandle,
         failIf (decide (s.handleStatus (c.arg 0x40 8) i = some .badArg) ||
           s.regionOverlaps r (c.arg 0x22 1 == 1) (c.arg 0x30 8) (c.arg 0x38 8) ||
           decide (o.size < c.arg 0x48 8 + c.arg 0x38 8) || o.kind == 3 ||
           (o.readonly && (bitOf (c.arg 0x23 1) 1 || bitOf (c.arg 0x23 1) 2))) .badArg]
       else []))
    (fun c s =>
      let r := c.arg 0x20 2
      let p := c.arg 0x23 1
      let h := c.arg 0x40 8
      let s :=
        if rOpen c then
          s.modRegion r (fun _ => {
            state := .open', inst := c.instId, space := c.arg 0x22 1 == 1, read := bitOf p 0, write := bitOf p 1, atomic := bitOf p 2
            keyIndex := c.arg 0x24 2, keyValue := BitVec.ofNat 32 (c.arg 0x28 4), base := c.arg 0x30 8, length := c.arg 0x38 8
            obj := hdlEntry h, objGen := hdlGen h, objOffset := c.arg 0x48 8 })
        else if (s.region r).state = .open' then s.modRegion r (fun x => { x with state := .closing, compat := false })
        else s
      (s, [], false)))

/-- FAB_COMPAT_SET (R105, R512, R611): DENIED comes before STATE_CONFLICT (log entry 85). -/
def execFabCompatSet (m : Fin 16) (s : State) : Outcome :=
  .next (s.runCommand m 0x0402
    (fun c _ => [c.lenAtLeast 3, failIf (decide (4095 < c.arg 0x20 2 ∨ 1 < c.arg 0x22 1)) .badArg])
    (fun _ => statesOf 0x0402)
    (fun c s =>
      let x := s.region (c.arg 0x20 2)
      [failIf (c.arg 0x22 1 == 1 && decide (x.state ≠ .unused) && x.inst != 0) .denied,
       conflictIf (decide (x.state ≠ .open')) 5 x.state.code 2 (c.arg 0x20 2)])
    (fun c s =>
      let s := s.modRegion (c.arg 0x20 2) (fun x => { x with compat := c.arg 0x22 1 == 1 })
      (s.extend 10 (shakeTag 32 [0x4D, 0x56, 0x4E, 0x2D, 0x46, 0x43] (leBytes 2 (c.arg 0x20 2) ++ leBytes 1 (c.arg 0x22 1))), [], false)))

/-- Updates of a region's object wait at their homes. -/
def State.regionBusy (s : State) (r : Nat) : Bool :=
  let x := s.region r
  s.fabMem.waiting.any (fun w => w.space == x.space && decide (x.base ≤ w.off ∧ w.off < x.base + x.length))

/-- REGION_CLOSE_DONE (R507): accesses being applied have completed; a region that INST_FREEZE closed waits for the thaw. -/
def execRegionCloseDone (region : Fin 4096) (s : State) : Outcome :=
  .next (
    let x := s.region region
    if x.state = .closing ∧ !x.frozen ∧ !s.regionBusy region then s.modRegion region (fun _ => {}) else s)

/-! ## The responder's checks (R509, R511) -/

/-- Offset of a request within its space, and whether its address is one of that space (R500, R501). -/
def reqOff (h : Header) : Nat := if h.space then h.addr % 2 ^ 41 else h.addr % 2 ^ 40
def reqAddrOk (h : Header) : Bool := if h.space then decide (h.addr < 2 ^ 47 ∧ reqOff h < rackTop) else decide (h.addr < 2 ^ 40)

/-- The open region of the request's space that covers `n` bytes of it. -/
def State.regionFor (s : State) (h : Header) (n : Nat) : Option (Nat × Region) :=
  if !reqAddrOk h then none
  else s.fabMem.regions.find? (fun p => decide (p.2.state = .open') && p.2.space == h.space &&
    decide (p.2.base ≤ reqOff h ∧ reqOff h + n ≤ p.2.base + p.2.length))

/-- What the checks 2 to 6 of R509 say of a request: the region, or the status that ends it. -/
def State.checkRequest (s : State) (k : Packet) (n : Nat) (perm : Region → Bool) (shape : Bool) : Region × Option Status :=
  match s.regionFor k.h n with
  | none => ({}, some .denied)
  | some (_, r) =>
    let major2 := k.h.version.toNat / 256 == 2
    let o := s.obj r.obj
    let bad :=
      if (if major2 then !r.compat else k.h.keyIndex != r.keyIndex || k.h.keyValue != r.keyValue) then some Status.keyMismatch
      else if !perm r then some .denied
      else if !shape then some .badArg
      else if !o.live || o.refGen != r.objGen then some .staleHandle
      else none
    (r, bad)

/-- Count the end of a request that a check refuses, and answer it. -/
def State.refuse (k : Packet) (st : Status) (s : State) : State :=
  let s := match st with
    | .keyMismatch => s.modFabMem (fun m => { m with keyMismatches := satInc 32 m.keyMismatches, event := m.event ||| 2 })
    | .denied => s.modFabMem (fun m => { m with accessDenied := satInc 32 m.accessDenied })
    | _ => s
  s.sendResponse (nakTo k st false)

/-- A major 2 request is served (R511). -/
def State.countCompat (k : Packet) (s : State) : State :=
  if k.h.version.toNat / 256 = 2 then s.modFabMem (fun m => { m with compatAccepts := satInc 32 m.compatAccepts }) else s

/-- The responder notes a source's incarnation: a newer one leaves the older entries 2 ms (R522). -/
def State.noteSource (k : Packet) (s : State) : State :=
  let x := tget {} s.fabMem.sources k.h.src
  if x.inc = k.h.srcInc then s
  else s.modFabMem (fun m => { m with sources := tset {} m.sources k.h.src { inc := k.h.srcInc, newSince := s.time.now } })

/-- A request that reaches a device in NIGHT applies nothing (R629). -/
def State.nightNak (k : Packet) (s : State) : State := ((s.takeInbox k).noteSource k).refuse k .notReady

/-- FAB_READ_RX (R509, R510, R519). -/
def execFabReadRx (p : Packet) (s : State) : Outcome :=
  .next (
    if !s.fab.inbox.contains p ∨ p.h.op ≠ 0 then s
    else if s.dev.dstate = .night then s.nightNak p
    else if p.h.rlen = 0 ∨ 8 < p.h.rlen then ((s.takeInbox p).noteSource p).refuse p .badArg
    else
      let n := p.h.rlen * 32
      match s.checkRequest p n (fun r => r.read) (reqOff p.h % 32 == 0 && decide (reqOff p.h % 256 + n ≤ 256)) with
      | (_, some st) => ((s.takeInbox p).noteSource p).refuse p st
      | (r, none) =>
        match s.fetch r.obj (r.objOffset + (reqOff p.h - r.base)) n none with
        | (.wait _, _) => s
        | (.ends st, s) => ((s.takeInbox p).noteSource p).refuse p st
        | (.bytes b poison, s) => (((s.takeInbox p).noteSource p).countCompat p).sendResponse (respTo p 8 b false poison))

/-! ## Homes of lines (R525, R527) -/

/-- Bytes an update touches. -/
def updLen (k : Packet) : Nat := if k.h.op = 1 then 32 * k.h.codewords else if k.h.op = 2 then 8 else if byteAt k.data 1 = 1 then 8 else 4

/-- An update touches a line. -/
def Waiting.touches (w : Waiting) (space : Bool) (line : Nat) : Bool :=
  w.space == space && decide (w.off / 64 ≤ line ∧ line ≤ (w.off + updLen w.packet - 1) / 64)

/-- Updates waiting on a line. -/
def State.waitingOn (s : State) (space : Bool) (line : Nat) : Nat := (s.fabMem.waiting.filter (fun w => w.touches space line)).length

/-- The array die at which an update of an object waits. -/
def State.homeDie (s : State) (obj off : Nat) : Nat :=
  match s.readPlan obj (off / chunkSize) none with
  | .at' sp a _ => (spaceDie sp a).getD 0
  | _ => 0

/-- A line's waiting updates first exceed 256 (R527). -/
def State.hotLine (space : Bool) (line : Nat) (s : State) : State :=
  let s := s.modFabMem (fun m => { m with
    hotLines := satInc 32 m.hotLines, lastHotLine := line * 64 + 2 ^ 48 * b2n space, event := m.event ||| 1 })
  let recent := s.fabMem.hotAt.any (fun x => x.1 == space && x.2.1 == line && decide (s.time.now < x.2.2 + 100000000))
  if recent then s
  else
    (s.modFabMem (fun m => { m with
      hotAt := (space, line, s.time.now) :: m.hotAt.filter (fun x => !(x.1 == space && x.2.1 == line)) })).raise 13 0 theDevice
      (s.fab.node.getD 0 + 2 ^ 32 * (line * 64) + 2 ^ 80 * b2n space)

/-- An update joins those that wait at its home; where the die holds 4,096 already it stays in the fabric (R525). -/
def State.joinHome (k : Packet) (r : Region) (s : State) : State :=
  let off := reqOff k.h
  let objOff := r.objOffset + (off - r.base)
  let die := s.homeDie r.obj objOff
  let load := (s.fabMem.waiting.filter (fun w => s.homeDie w.obj w.objOff == die)).length
  if 4096 ≤ load then s
  else
    let w : Waiting := { space := k.h.space, off, obj := r.obj, objOff, packet := k }
    let s := (s.takeInbox k).countCompat k
    let s := s.modFabMem (fun m => { m with waiting := m.waiting ++ [w] })
    let lines := (List.range ((off + updLen k - 1) / 64 - off / 64 + 1)).map (fun i => off / 64 + i)
    s.forEach lines (fun l s => if s.waitingOn k.h.space l = 257 then s.hotLine k.h.space l else s)

/-- FAB_WRITE_RX (R509, R519, R520). -/
def execFabWriteRx (p : Packet) (s : State) : Outcome :=
  .next (
    if !s.fab.inbox.contains p ∨ p.h.op ≠ 1 then s
    else if s.dev.dstate = .night then s.nightNak p
    else
      let s := s.noteSource p
      let n := 32 * p.h.codewords
      if p.h.rlen ≠ 0 then (s.takeInbox p).refuse p .badArg
      else
        match s.checkRequest p n (fun r => r.write)
            (decide (1 ≤ p.h.codewords ∧ p.h.codewords ≤ 8) && reqOff p.h % 32 == 0 && decide (reqOff p.h % 256 + n ≤ 256)) with
        | (_, some st) => (s.takeInbox p).refuse p st
        | (r, none) => s.joinHome p r)

/-! ## The replay table (R521 to R523) -/

def State.replayOf (s : State) (k : Packet) : Option Replay :=
  s.fabMem.replay.find? (fun x => x.src == k.h.src && x.inc == k.h.srcInc && x.seq == k.h.seq)

/-- SEQ is at or below the latest ACK_SEQ of its source (R523). -/
def State.staleSeq (s : State) (k : Packet) : Bool :=
  let x := tget {} s.fabMem.sources k.h.src
  match x.ackSeq with
  | some a => decide (sdiff 24 k.h.seq a ≤ 0)
  | none => false

/-- The replay table is full (R521, R523). -/
def State.replayFullNow (s : State) : Bool := decide (262144 ≤ s.fabMem.replay.length)

/-- NAK with CAPACITY, and nothing applied, since the replay table is full (R523). -/
def State.nakFull (k : Packet) (ce : Bool) (s : State) : State :=
  (s.modFabMem (fun m => { m with replayFull := satInc 32 m.replayFull, event := m.event ||| 8 })).sendResponse (nakTo k .capacity ce)

/-- What the replay table makes of a FLAG or ATOMIC: a stored response, a discard, or neither. -/
def State.replayed (k : Packet) (s : State) : Option State :=
  match s.replayOf k with
  | some x => some (((s.takeInbox k).modFabMem (fun m => { m with replayHits := satInc 32 m.replayHits })).sendResponse x.response)
  | none =>
    if s.staleSeq k then some ((s.takeInbox k).modFabMem (fun m => { m with staleRepeats := satInc 32 m.staleRepeats })) else none

/-- A FLAG or ATOMIC: the replay table first, then the checks, then its home (R521, R523). -/
def State.onceRx (k : Packet) (perm : Region → Bool) (shape : Bool) (s : State) : State :=
  let s := s.noteSource k
  match s.replayed k with
  | some s => s
  | none =>
    if k.h.rlen ≠ 0 then (s.takeInbox k).refuse k .badArg
    else
      match s.checkRequest k (updLen k) perm shape with
      | (_, some st) => (s.takeInbox k).refuse k st
      | (r, none) =>
        if s.replayFullNow then (s.takeInbox k).nakFull k false else s.joinHome k r

/-- FAB_FLAG_RX (R515, R521): a STORE_FLAG needs the permission to write. -/
def execFabFlagRx (p : Packet) (s : State) : Outcome :=
  .next (
    if !s.fab.inbox.contains p ∨ p.h.op ≠ 2 then s
    else if s.dev.dstate = .night then s.nightNak p
    else s.onceRx p (fun r => r.write) (!p.h.space && reqOff p.h % 8 == 0 && p.h.codewords == 1))

/-- FAB_ATOMIC_RX (R515, R521). -/
def execFabAtomicRx (p : Packet) (s : State) : Outcome :=
  .next (
    if !s.fab.inbox.contains p ∨ p.h.op ≠ 3 then s
    else if s.dev.dstate = .night then s.nightNak p
    else s.onceRx p (fun r => r.atomic)
      (!p.h.space && reqOff p.h % updLen p == 0 && p.h.codewords == 1 && decide (byteAt p.data 0 ≤ 8)))

/-- FAB_ACK_RX (R522). -/
def execFabAckRx (p : Packet) (s : State) : Outcome :=
  .next (
    if !s.fab.inbox.contains p ∨ p.h.op ≠ 4 then s
    else
      let s := (s.takeInbox p).noteSource p
      let a := fieldAt p.data 0 3
      if p.h.rlen ≠ 0 then s.refuse p .badArg
      else s.modFabMem (fun m => { m with sources := tmod {} m.sources p.h.src (fun x =>
        { x with ackSeq := match x.ackSeq with | some b => if 0 < sdiff 24 a b then some a else some b | none => some a }) }))

/-- New value of a word under an atomic (Table 16-6). -/
def atomicOp (aop w x y z : Nat) : Nat :=
  let f := if w = 64 then fmtFp64 else fmtFp32
  match aop with
  | 0 => (x + y) % 2 ^ w
  | 1 => f.add x y
  | 2 => if toInt w y < toInt w x then y else x
  | 3 => if toInt w x < toInt w y then y else x
  | 4 => min x y
  | 5 => max x y
  | 6 => fMin f x y
  | 7 => fMax f x y
  | _ => if x = y then z else x

/-- Record what was applied, and answer (R521). -/
def State.recordReplay (k resp : Packet) (s : State) : State :=
  (s.modFabMem (fun m => { m with
    atomicsApplied := satInc 64 m.atomicsApplied
    replay := m.replay ++ [{ src := k.h.src, inc := k.h.srcInc, seq := k.h.seq, response := resp, at' := s.time.now }] })).sendResponse resp

/-- Apply one update at its home; `ce` says that more than 256 wait on its line. The rules of the replay table hold when it
is applied, whatever they said when it came (R521, R523): a key in the table is answered from it, a SEQ that an ACK has
covered meanwhile is discarded, and while the table is full nothing is applied. -/
def State.applyUpdate (w : Waiting) (ce : Bool) (s : State) : State :=
  let k := w.packet
  let n := updLen k
  if k.h.op = 1 then
    let s := s.objPut w.obj w.objOff (k.data.take n)
    let s := if k.poison then s.objPoison w.obj w.objOff n else s
    s.sendResponse (respTo k 9 [] ce false)
  else
    match s.replayOf k with
    | some x => (s.modFabMem (fun m => { m with replayHits := satInc 32 m.replayHits })).sendResponse x.response
    | none =>
      if s.staleSeq k then s.modFabMem (fun m => { m with staleRepeats := satInc 32 m.staleRepeats })
      else if s.replayFullNow then s.nakFull k ce
      else match s.fetch w.obj w.objOff n none with
      | (.bytes b false, s) =>
        if k.h.op = 2 then
          (s.objPut w.obj w.objOff (k.data.take 8)).recordReplay k (respTo k 9 [] ce false)
        else
          let x := leNat b
          let y := fieldAt k.data 8 n
          let z := fieldAt k.data 16 n
          (s.objPut w.obj w.objOff (leBytes n (atomicOp (byteAt k.data 0) (8 * n) x y z))).recordReplay k
            (respTo k 10 (fixLen 32 (leBytes 8 x ++ leBytes 2 0)) ce false)
      | (.bytes _ true, s) => s.sendResponse (nakTo k .poisoned ce)
      | (.ends st, s) => s.sendResponse (nakTo k st ce)
      | (.wait _, _) => s

/-- HOME_UPDATE_APPLY (R525): the first update that waits on the line, once it is the first on every line it touches. -/
def execHomeUpdateApply (now : Nat) (space : Bool) (line : Nat) (s : State) : Outcome :=
  .next (
    let s := s.at now
    if s.dev.dstate = .night ∧ !s.power.entering then s else
    match s.fabMem.waiting.find? (fun w => w.touches space line) with
    | none => s
    | some w =>
      let earlier := s.fabMem.waiting.takeWhile (fun v => v != w)
      let lines := (List.range ((w.off + updLen w.packet - 1) / 64 - w.off / 64 + 1)).map (fun i => w.off / 64 + i)
      if earlier.any (fun v => lines.any (fun l => v.touches w.space l)) then s
      else if w.packet.h.op ≠ 1 ∧ (match s.fetch w.obj w.objOff (updLen w.packet) none with | (.wait _, _) => true | _ => false) = true then s
      else
        let ce := lines.any (fun l => decide (256 < s.waitingOn w.space l))
        (s.modFabMem (fun m => { m with waiting := m.waiting.erase w })).applyUpdate w ce)

/-- REPLAY_ENTRY_EXPIRY (R522). -/
def execReplayEntryExpiry (now : Nat) (src : Fin 4096) (seq : Nat) (s : State) : Outcome :=
  .next (
    let s := s.at now
    let x := tget {} s.fabMem.sources src.val
    let covered := fun (e : Replay) => match x.ackSeq with | some a => decide (sdiff 24 e.seq a ≤ 0) | none => false
    let goes := fun (e : Replay) =>
      e.src == src.val && e.seq == seq &&
        (if e.inc = x.inc then covered e && decide (e.at' + 2000000 ≤ s.time.now) else decide (x.newSince + 2000000 ≤ s.time.now))
    s.modFabMem (fun m => { m with replay := m.replay.filter (fun e => !goes e) }))

/-! ## The requester's events -/

/-- The participants that an object lists: its strictly rising 16-bit numbers (R528; log entry 43). -/
def readParts : Nat → Bytes → Option Nat → List Nat
  | 0, _, _ => []
  | n + 1, b, last =>
    match b with
    | x :: y :: r =>
      let v := x.toNat + 256 * y.toNat
      if v < 4096 ∧ (match last with | some l => decide (l < v) | none => true) = true then v :: readParts n r (some v) else []
    | _ => []

/-- What a collective's descriptor must meet once its participants are read (R528, R531). -/
def State.collBad (s : State) (d : Bytes) (parts : List Nat) : Option Status :=
  let n := parts.length
  let need := match fCkind d with | 0 => fLength d | 1 => fLength d / n | _ => n * fLength d
  if n < 2 ∨ !parts.contains (s.fab.node.getD 4096) ∨ (fCkind d = 1 ∧ fLength d % (32 * n) ≠ 0) ∨
      (s.obj (hdlEntry (fResult d))).size < need then some .badArg
  else if parts.any (fun k => !(s.node k).live) then some .notReady
  else if parts.any (fun k => (s.node k).version.isNone) then some .version
  else none

/-- Offsets of the packets of a request. -/
def fOffsets (d : Bytes) : List Nat :=
  match fOp d with
  | 4 | 5 => (List.range (ceilDiv (fLength d) 256)).map (fun i => 256 * i)
  | 6 => []
  | _ => [0]

/-- The descriptor of a collective with its input, or the status that ends it; none while a read must wait. -/
def State.readColl (d : Bytes) (s : State) : Option (Except Status (List Nat × Bytes) × State) :=
  match s.fetch (hdlEntry (fParts d)) 0 8192 none with
  | (.wait _, _) => none
  | (.ends st, s) => some (.error st, s)
  | (.bytes pb _, s) =>
    let parts := readParts 4096 pb none
    match s.collBad d parts with
    | some st => some (.error st, s)
    | none =>
      match s.fetchWhole (hdlEntry (fLocal d)) (fLocalOff d) (fLength d) with
      | (.wait _, _) => none
      | (.ends st, s) => some (.error st, s)
      | (.bytes _ true, s) =>
        some (.error (if (s.obj (hdlEntry (fLocal d))).readonly then .tierUncorrectable else .poisoned), s)
      | (.bytes v false, s) => some (.ok (parts, v), s)

/-- Take a descriptor off its queue; it completes at once with a status, or its requests start. -/
def State.postDesc (queue i : Nat) (c : QCtx) (b : Bytes) (st : Status) (parts : List Nat) (v : Bytes) (s : State) : State :=
  let id := s.fabMem.nextDesc
  let d : FabDesc := {
    bytes := b, inst := i, generation := (s.inst i).generation, queue, ringObj := hdlEntry c.ring, entry := c.slotOff c.consumer
    node := s.fabDst b, toSend := if st = .ok then fOffsets b else [], status := st, postedAt := s.time.now, parts, value := v }
  let s := (s.popHead queue).modFabMem (fun m => { m with nextDesc := id + 1 })
  let s := s.setFdesc id (some d)
  if st ≠ .ok then s.finishDesc id else ((if fOp b = 6 then s.startColl id else s).pumpAll)

/-- FAB_REQUEST_SEND (R513, R514): the descriptor at the head of a FAB_MSG queue. -/
def execFabRequestSend (now : Nat) (queue : Nat) (s : State) : Outcome :=
  .next (
    let s := s.at now
    match s.head queue, s.queueOwner queue with
    | some (c, b), some i =>
      if c.type ≠ 4 ∨ !s.active i then s
      else if i ≠ 0 ∧ versionRefused (s.inst i).grant.descVersion (fVersion b) = true then s.postDesc queue i c b .version [] []
      else if fabBad b then s.postDesc queue i c b .badArg [] []
      else
        match s.fabHandles i b with
        | some st => s.postDesc queue i c b st [] []
        | none =>
          if fOp b ≠ 6 then
            s.postDesc queue i c b
              (if s.fab.node.isNone || !(s.node (s.fabDst b)).live then .notReady
               else if (s.node (s.fabDst b)).version.isNone then .version else .ok) [] []
          else
            match s.readColl b with
            | none => s
            | some (.error st, s) => s.postDesc queue i c b st [] []
            | some (.ok (parts, v), s) => s.postDesc queue i c b .ok parts v
    | _, _ => s)

/-- FLAG_RELEASE (R517): every earlier STORE, COPY_PUT and STORE_FLAG of the queue to the node has its answer; where one
ended otherwise than OK the flag completes with the status and SEQ of the earliest such. -/
def execFlagRelease (now : Nat) (id : Nat) (s : State) : Outcome :=
  .next (
    let s := s.at now
    match s.fdesc id with
    | none => s
    | some d =>
      if fOp d.bytes ≠ 2 ∨ d.released then s
      else
        let earlier := s.fabMem.descs.any (fun p =>
          match p.2 with
          | some e => decide (p.1 < id) && e.queue == d.queue && e.node == d.node && beforeFlag (fOp e.bytes) &&
              !(fOp e.bytes == 4 && s.fabMem.requests.all (fun r => r.desc != p.1 || r.counter) && e.toSend.isEmpty && decide (e.status = .ok))
          | none => false)
        if earlier then s
        else
          match tget none s.fabMem.failed (d.queue * 4096 + d.node) with
          | some (_, q, st) =>
            (s.modFdesc id (fun d => { d with released := true, toSend := [], status := st, firstSeq := some q })).settleDesc id
          | none => (s.modFdesc id (fun d => { d with released := true })).pumpAll)

/-- COPY_COUNTER_SEND (R516): every data packet has been answered OK. -/
def execCopyCounterSend (now : Nat) (id : Nat) (s : State) : Outcome :=
  .next (
    let s := s.at now
    match s.fdesc id with
    | none => s
    | some d =>
      if fOp d.bytes ≠ 4 ∨ d.released ∨ fCounter d.bytes = 0 ∨ d.status ≠ .ok ∨ !s.descIdle id d ∨ !s.windowOpen d.node then s
      else
        let k : Packet := ⟨s.reqHeader d.node 3 false (fCounter d.bytes) (fKeyIndex d.bytes) (fKeyValue d.bytes) 0 1,
                           atomicBytes 0 true (fLength d.bytes) 0, false, none⟩
        (s.modFdesc id (fun d => { d with released := true })).sendRequest id 0 true k)

/-- What an answer does to its descriptor's data: READ_DATA goes to LOCAL, an old value to RESULT. -/
def State.takeAnswer (r : Request) (p : Packet) (s : State) : Status × State :=
  match s.fdesc r.desc with
  | none => (.ok, s)
  | some d =>
    if p.h.op = 8 then
      let e := hdlEntry (fLocal d.bytes)
      let off := fLocalOff d.bytes + r.offset
      let stale := d.inst != 0 && (s.inst d.inst).generation != d.generation
      let s := if stale then s else s.objPut e off (p.data.take (fPiece d.bytes r.offset))
      let s := if p.poison && !stale then s.objPoison e off (fPiece d.bytes r.offset) else s
      (if p.poison then .poisoned else .ok, s)
    else if p.h.op = 10 then
      let st := statusOf (fieldAt p.data 8 2)
      (st, if r.counter then s else s.modFdesc r.desc (fun d => { d with result := fieldAt p.data 0 8 }))
    else if p.h.op = 11 then (statusOf (fieldAt p.data 0 2), s)
    else (.ok, s)

/-- FAB_RESPONSE_RX (R524, R526): the first response of a request counts; a NAK with CAPACITY counts as none. -/
def execFabResponseRx (now : Nat) (p : Packet) (s : State) : Outcome :=
  .next (
    let s := s.at now
    if !s.fab.inbox.contains p ∨ p.h.op.val < 8 then s
    else
      let s := s.takeInbox p
      match s.fabMem.requests.find? (fun r => r.packet.h.dst == p.h.src && r.packet.h.seq == p.h.seq) with
      | none => s
      | some r =>
        let s := if p.h.ce then s.modFabMem (fun m => { m with ceResponses := satInc 32 m.ceResponses }) else s
        let s := s.modDest p.h.src (Dest.congestion p.h.ce)
        let s := s.modFdesc r.desc (fun d => { d with ceSeen := d.ceSeen || p.h.ce })
        if p.h.op = 11 ∧ statusOf (fieldAt p.data 0 2) = .capacity then
          s.modFabMem (fun m => { m with requests := m.requests.map (fun x => if x = r then { x with capacity := x.capacity + 1 } else x) })
        else
          let (st, s) := s.takeAnswer r p
          s.endRequest r st)

/-- The request that a timeout names. -/
def State.requestOf (s : State) (dst seq : Nat) : Option Request :=
  s.fabMem.requests.find? (fun r => r.packet.h.dst == dst && r.packet.h.seq == seq)

/-- The descriptor was started under an earlier generation of its instance (R560 step 3). -/
def State.orphan (s : State) (id : Nat) : Bool :=
  match s.fdesc id with
  | some d => d.inst != 0 && (s.inst d.inst).generation != d.generation
  | none => false

/-- FAB_RETRY_TIMEOUT (R524): at 250, 500 and 750 µs; a request of an instance since reset is not retransmitted (R560). -/
def execFabRetryTimeout (now : Nat) (dst : Fin 4096) (seq : Nat) (s : State) : Outcome :=
  .next (
    let s := s.at now
    match s.requestOf dst seq with
    | none => s
    | some r =>
      if 3 ≤ r.resends ∨ s.time.now < r.sentAt + 250000 * (r.resends + 1) ∨ s.orphan r.desc = true then s
      else
        let s := s.modFabMem (fun m => { m with requests := m.requests.map (fun x => if x = r then { x with resends := x.resends + 1 } else x) })
        s.sendPacket r.packet)

/-- FAB_OUTCOME_TIMEOUT (R524): 1,000 µs without a response. -/
def execFabOutcomeTimeout (now : Nat) (dst : Fin 4096) (seq : Nat) (s : State) : Outcome :=
  .next (
    let s := s.at now
    match s.requestOf dst seq with
    | none => s
    | some r =>
      if s.time.now < r.sentAt + 1000000 then s
      else
        let st : Status := if r.packet.h.op = 0 then .tierLate else if r.resends < r.capacity then .capacity else .outcomeUnknown
        let s := if st = .outcomeUnknown then
            s.modFabMem (fun m => { m with outcomeUnknown := satInc 32 m.outcomeUnknown, event := m.event ||| 4 }) else s
        if r.packet.h.op = 5 then
          (s.modFabMem (fun m => { m with requests := m.requests.erase r })).modDest r.packet.h.dst (Dest.complete s.time.now r.packet.h.seq)
        else s.endRequest r st)

/-- ACK_SEND (R522). -/
def execAckSend (now : Nat) (dst : Fin 4096) (s : State) : Outcome :=
  .next (
    let s := s.at now
    match (s.dest dst).ackDue, (s.dest dst).ackSeq with
    | some _, some a =>
      let s := s.modDest dst (fun x => { x with ackDue := none })
      let h := { s.reqHeader dst 4 false 0 0 0 0 1 with seq := a }
      s.sendPacket ⟨h, fixLen 32 (leBytes 3 a), false, none⟩
    | _, _ => s)

end Sys2Proof.Machine
end

