-- ==== Sys2Proof/Machine/Flock.lean ====
section
/-! DEFINITION. The flock's control messages (R474 to R484, R490 to R492): the bellwether and its election, the node
table, route plans. -/

namespace Sys2Proof.Machine

/-! ## Floods and messages sent up -/

/-- A flooded message is taken once per {ORIGIN, FSEQ}, and forwarded on every other UP port (R475): none where it has
been met before. -/
def State.flooded (msg : Nat) (port : Nat) (origin : W64) (fseq : Nat) (s : State) : Option State :=
  if (s.fport port).link ≠ .up ∨ s.fab.seen.contains (origin.toNat, fseq) = true ∨ origin = s.uid then none
  else some ((s.modFab (fun f => { f with seen := (origin.toNat, fseq) :: f.seen })).emit (.forward port msg origin fseq))

/-- A message for the bellwether goes on by the parent port (R475). -/
def State.sendUp (msg : Nat) (uid : W64) (s : State) : State :=
  match s.fab.parent with
  | some p => s.emit (.forward p msg uid 0)
  | none => s

/-! ## The bellwether (R477 to R479) -/

/-- Flood CANDIDATE. -/
def State.floodCandidate (s : State) : State :=
  let (n, s) := s.nextFseq
  s.emit (.candidate s.fab.term n (s.fab.vote.getD s.uid))

/-- Start an election with a TERM (R478). -/
def State.elect (term : Nat) (s : State) : State :=
  (s.modFab (fun f => { f with
    term := term % 2 ^ 32, vote := some s.uid, voteAt := s.time.now, elections := satInc 32 f.elections, accepted := false
    bellwether := false })).floodCandidate

/-- Adopt a TERM and a VOTE, and flood (R478). -/
def State.adopt (term : Nat) (vote : W64) (s : State) : State :=
  (s.modFab (fun f => { f with
    term, vote := some vote, voteAt := s.time.now, accepted := false, bellwether := false })).floodCandidate

/-- Flood BEACON (R477). -/
def State.beacon (s : State) : State :=
  let (n, s) := s.nextFseq
  (s.modFab (fun f => { f with lastBeacon := s.time.now })).emit (.beacon s.fab.term n s.fab.tableVersion s.fab.epoch)

/-- The device accepts a bellwether. -/
def State.acceptBellwether (uid : W64) (s : State) : State :=
  s.modFab (fun f => { f with
    accepted := true, vote := none, bwUid := uid, event := if f.bwUid = uid then f.event else f.event ||| 2 })

/-- BEACON_TICK (R477). Nothing happens while control core 5 restarts (R39). -/
def execBeaconTick (now : Nat) (s : State) : Outcome :=
  .next (
    let s := s.at now
    if (s.core 5).restarting then s else
    if s.fab.bellwether then s.beacon else s)

/-- BEACON_TIMEOUT (R477): no BEACON for 5 ms. Nothing happens while control core 5 restarts (R39). -/
def execBeaconTimeout (now : Nat) (s : State) : Outcome :=
  .next (
    let s := s.at now
    if (s.core 5).restarting then s else
    if s.fab.bellwether ∨ s.fab.vote.isSome = true ∨ s.time.now < s.fab.lastBeacon + 5000000 ∨ s.dev.dstate = .rom then s
    else s.elect (s.fab.term + 1))

/-- BEACON_RX (R475, R477, R479 to R481). -/
def execBeaconRx (now : Nat) (port : Fin 32) (origin : W64) (fseq term tableVersion _epoch : Nat) (s : State) : Outcome :=
  .next (
    let s := s.at now
    match s.flooded 2 port origin fseq with
    | none => s
    | some s =>
      let f := s.fab
      if f.accepted ∧ f.bwUid ≠ origin ∧ (f.bellwether ∨ s.time.now < f.lastBeacon + 5000000) then s.elect (max f.term term + 1)
      else if term < f.term then s
      else
        let new := !f.accepted || f.bwUid != origin
        let s := s.modFab (fun f => { f with term, parent := some port.val, lastBeacon := s.time.now, bellwether := false })
        let s := s.acceptBellwether origin
        if f.node.isSome ∧ s.uid.toNat < origin.toNat then s.elect (term + 1)
        else if f.node.isNone ∧ new = true then s.sendRefresh s.hintNow
        else if f.tableVersion ≠ tableVersion then s.sendRefresh s.hintNow
        else s)

/-- CANDIDATE_RX (R478). -/
def execCandidateRx (now : Nat) (port : Fin 32) (origin : W64) (fseq term : Nat) (vote : W64) (s : State) : Outcome :=
  .next (
    let s := s.at now
    match s.flooded 3 port origin fseq with
    | none => s
    | some s =>
      if s.fab.term < term then s.adopt term (if vote.toNat < s.uid.toNat then vote else s.uid)
      else if s.fab.term = term ∧ vote.toNat < (s.fab.vote.getD s.fab.bwUid).toNat then s.adopt term vote
      else s)

/-! ## The node table (R480 to R483) -/

/-- A number that is neither LIVE nor reserved: the lowest (R481, R482). -/
def State.freeNumber (s : State) : Option Nat :=
  (List.range 4096).find? (fun n => !(s.node n).live && (s.node n).goneAt.isNone)

/-- The number the bellwether assigns to a UID (R481): the hint where it is free or was its own, else a GONE number of its
own, else the lowest free one; `hint` above 4,095 is none. -/
def State.numberFor (s : State) (uid : W64) (hint : Option Nat) : Option Nat :=
  let own := fun (n : Nat) => (s.node n).goneAt.isSome && (s.node n).uid == uid
  let r1 := hint.filter (fun n => decide (n < 4096) && !(s.node n).live && ((s.node n).goneAt.isNone || own n))
  let r2 := (s.fab.nodes.find? (fun p => !p.2.live && own p.1)).map (fun p => p.1)
  match r1 with
  | some n => some n
  | none => match r2 with | some n => some n | none => s.freeNumber

/-- The bellwether records a device under a number. -/
def State.record (n : Nat) (uid : W64) (inc : Nat) (versions : List W16) (s : State) : State :=
  let old := s.fab.nodes
  ((s.modNode n (fun _ => { uid, inc, live := true, versions, goneAt := none })).floodNodes [n]).ownNode old

/-- A device joins, or comes back with another incarnation (R481). A device that holds a number and asks for the number
of another as a standby takes it over (R483). -/
def State.join (uid : W64) (hint : Option Nat) (inc : Nat) (versions : List W16) (s : State) : State :=
  match s.nodeOfUid uid, hint with
  | some n, some h =>
    if n = h then (if (s.node n).inc = inc ∧ (s.node n).versions = versions then s else s.record n uid inc versions)
    else
      let s := s.modNode n (fun x => { x with live := false, goneAt := some s.time.now })
      (s.floodNodes [n]).record h uid inc versions
  | some n, none => if (s.node n).inc = inc ∧ (s.node n).versions = versions then s else s.record n uid inc versions
  | none, h =>
    match s.numberFor uid h with
    | some n => s.record n uid inc versions
    | none => s

/-- The device becomes bellwether (R478): it numbers itself, marks the nodes it cannot reach GONE and plans anew. -/
def State.becomeBellwether (s : State) : State :=
  let s := (s.modFab (fun f => { f with bellwether := true, parent := none, planDue := true })).acceptBellwether s.uid
  let s := s.beacon
  let s := s.join s.uid (if s.fab.node.isSome then s.fab.node else if s.fab.hintValid then some s.fab.hint else none) s.deviceInc
    (fabricOffer.map (BitVec.ofNat 16))
  (s.keepReport s.uid s.ownLinks).topologyChanged

/-- ELECTION_SETTLE (R478): 2 ms without change. Nothing happens while control core 5 restarts (R39). -/
def execElectionSettle (now : Nat) (s : State) : Outcome :=
  .next (
    let s := s.at now
    if (s.core 5).restarting then s else
    match s.fab.vote with
    | none => s
    | some v =>
      if s.time.now < s.fab.voteAt + 2000000 then s
      else
        let s := s.modFab (fun f => { f with vote := none, lastBeacon := s.time.now })
        if v = s.uid then s.becomeBellwether else s)

/-- LINK_REPORT_RX (R476). -/
def execLinkReportRx (port : Fin 32) (origin : W64) (fseq : Nat) (links : List LinkInfo) (s : State) : Outcome :=
  .next (
    match s.flooded 4 port origin fseq with
    | none => s
    | some s => (s.keepReport origin links).topologyChanged)

/-- LINK_REPORT_TICK (R476). -/
def execLinkReportTick (now : Nat) (s : State) : Outcome :=
  .next (
    let s := s.at now
    if (s.core 5).restarting then s else s.floodLinks)

/-- An entry as NODE_TABLE gives it: LIVE, GONE, or free. -/
def nodeOfEntry (now : Nat) (e : NodeEntry) : Node :=
  if e.live then { uid := e.uid, inc := e.inc, live := true, versions := e.versions }
  else if e.uid = 0 then {}
  else { uid := e.uid, inc := e.inc, versions := e.versions, goneAt := some now }

/-- Entries put into the node table. -/
def State.putNodes (l : List NodeEntry) (s : State) : State :=
  s.forEach l (fun e s => s.modNode e.node (fun _ => nodeOfEntry s.time.now e))

/-- Two LIVE devices hold one number after partitions merge (R483): the lower UID keeps it and the other takes the lowest
free number; a number that only the other half knows is taken over. -/
def State.mergeEntry (e : NodeEntry) (s : State) : State :=
  let x := s.node e.node
  if !e.live ∨ x.uid = e.uid ∨ (s.nodeOfUid e.uid).isSome = true then s
  else if !x.live then s.record e.node e.uid e.inc e.versions
  else
    match s.freeNumber with
    | none => s
    | some n =>
      if e.uid.toNat < x.uid.toNat then (s.record n x.uid x.inc x.versions).record e.node e.uid e.inc e.versions
      else s.record n e.uid e.inc e.versions

/-- NODE_TABLE_RX (R480, R483, R504). -/
def execNodeTableRx (port : Fin 32) (origin : W64) (fseq version : Nat) (full : Bool) (entries : List NodeEntry) (s : State) :
    Outcome :=
  .next (
    match s.flooded 5 port origin fseq with
    | none => s
    | some s =>
      if s.fab.bellwether then s.forEach entries State.mergeEntry
      else if !s.fab.accepted ∨ s.fab.bwUid ≠ origin then s
      else if full then
        let old := s.fab.nodes
        (((s.modFab (fun f => { f with nodes := [], tableVersion := version })).putNodes entries).ownNode old)
      else if version = (s.fab.tableVersion + 1) % 2 ^ 32 then
        let old := s.fab.nodes
        ((s.modFab (fun f => { f with tableVersion := version })).putNodes entries).ownNode old
      else if version = s.fab.tableVersion then s
      else s.sendRefresh s.hintNow)

/-- REFRESH_RX (R475, R480, R481, R483). -/
def execRefreshRx (now : Nat) (port : Fin 32) (uid : W64) (hint : Option Nat) (inc : Nat) (versions : List W16)
    (tableVersion : Nat) (s : State) : Outcome :=
  .next (
    let s := s.at now
    if (s.fport port).link ≠ .up then s
    else if !s.fab.bellwether then s.sendUp 9 uid
    else
      let s := s.join uid hint inc versions
      if tableVersion ≠ s.fab.tableVersion then s.floodFull else s)

/-- NODE_RESERVE_EXPIRY (R482): 24 h after it was marked GONE a number is free. Nothing happens while control core 5 restarts (R39). -/
def execNodeReserveExpiry (now : Nat) (node : Fin 4096) (s : State) : Outcome :=
  .next (
    let s := s.at now
    if (s.core 5).restarting then s else
    match s.fab.bellwether, (s.node node).goneAt with
    | true, some t =>
      if t + 86400000000000 ≤ s.time.now then (s.modNode node (fun _ => {})).floodNodes [node.val] else s
    | _, _ => s)

/-! ## Route plans (R484, R490, R491) -/

/-- Load the table of a plan and keep that of the epoch before it (R490). -/
def State.loadPlan (epoch : Nat) (torus : Bool) (root : Nat) (shape : W32) (s : State) : State :=
  let t := s.makeTable epoch torus root shape
  s.modFab (fun f => { f with torusMode := torus, tables := t :: f.tables.filter (fun t => t.epoch + 1 == epoch) })

/-- An epoch is committed (R491). -/
def State.commitEpoch (epoch : Nat) (s : State) : State :=
  s.modFab (fun f => { f with epoch, committed := true, lastCommit := s.time.now, event := f.event ||| 4 })

/-- The bellwether floods COMMIT once every LIVE device has acknowledged (R490). -/
def State.commitIfAll (s : State) : State :=
  match s.fab.plan with
  | none => s
  | some p =>
    if s.liveNodes.all (fun n => p.acks.contains (s.node n).uid) then
      let (n, s) := s.nextFseq
      ((s.modFab (fun f => { f with plan := none })).commitEpoch p.epoch).emit (.commit n p.epoch)
    else s

/-- The bellwether issues a plan (R484, R490). -/
def State.issuePlan (s : State) : State :=
  let torus := s.torusFits s.edges
  let root := s.fab.node.getD 0
  let epoch := (s.fab.tables.foldl (fun m t => max m t.epoch) s.fab.epoch) + 1
  let (n, s) := s.nextFseq
  let s := s.emit (.routePlan n epoch torus root s.fab.shape s.fab.tableVersion)
  let s := s.loadPlan epoch torus root s.fab.shape
  (s.modFab (fun f => { f with plan := some ⟨epoch, [s.uid], s.time.now⟩, planDue := false })).commitIfAll

/-- ROUTE_PLAN_ISSUE (R491): no sooner than 2 ms after the previous COMMIT, with every change since. Nothing happens while control core 5 restarts (R39). -/
def execRoutePlanIssue (now : Nat) (s : State) : Outcome :=
  .next (
    let s := s.at now
    if (s.core 5).restarting then s else
    let f := s.fab
    if f.bellwether ∧ f.planDue ∧ f.plan = none ∧ (!f.committed ∨ f.lastCommit + 2000000 ≤ s.time.now) then s.issuePlan else s)

/-- ROUTE_PLAN_RX (R490): the plan's node table must be the one held. -/
def execRoutePlanRx (port : Fin 32) (origin : W64) (fseq epoch : Nat) (torus : Bool) (root : Nat) (shape : W32)
    (tableVersion : Nat) (s : State) : Outcome :=
  .next (
    match s.flooded 6 port origin fseq with
    | none => s
    | some s =>
      if !s.fab.accepted ∨ s.fab.bwUid ≠ origin ∨ s.fab.bellwether then s
      else if s.fab.tableVersion ≠ tableVersion then s.sendRefresh s.hintNow
      else (s.loadPlan epoch torus root shape).emit (.planAck epoch))

/-- PLAN_ACK_RX (R490). -/
def execPlanAckRx (port : Fin 32) (uid : W64) (epoch : Nat) (s : State) : Outcome :=
  .next (
    if (s.fport port).link ≠ .up then s
    else if !s.fab.bellwether then s.sendUp 7 uid
    else
      match s.fab.plan with
      | some p =>
        if p.epoch = epoch then
          (s.modFab (fun f => { f with plan := some { p with acks := if p.acks.contains uid then p.acks else uid :: p.acks } })).commitIfAll
        else s
      | none => s)

/-- PLAN_ACK_TIMEOUT (R490): a device silent for 20 ms is marked GONE and a new plan is issued without it. Nothing happens while control core 5 restarts (R39). -/
def execPlanAckTimeout (now : Nat) (s : State) : Outcome :=
  .next (
    let s := s.at now
    if (s.core 5).restarting then s else
    match s.fab.plan with
    | none => s
    | some p =>
      if s.time.now < p.issued + 20000000 then s
      else
        let silent := s.liveNodes.filter (fun n => !p.acks.contains (s.node n).uid)
        ((s.modFab (fun f => { f with plan := none })).goneNodes silent).issuePlan)

/-- COMMIT_RX (R491). -/
def execCommitRx (port : Fin 32) (origin : W64) (fseq epoch : Nat) (s : State) : Outcome :=
  .next (
    match s.flooded 8 port origin fseq with
    | none => s
    | some s => if s.fab.tables.any (fun t => t.epoch == epoch) then s.commitEpoch epoch else s)

end Sys2Proof.Machine
end

