-- ==== Sys2Proof/Machine/Fyfoyx.lean ====
section
/-! DEFINITION. The Fyfoyx link: its states (R637 to R639, R645), the coherent memory window (R37, R344, R629), the snoop
filter and its recalls (R641 to R643), T2 lines held by the device (R644). -/

namespace Sys2Proof.Machine

/-! ## Lines of HBM -/

/-- Top of the HBM range of the coherent memory window (R37). -/
def hbmTop : Nat := 0x18000000000

/-- An access through the window is answered as unsupported (R37, R629). -/
def State.windowRefuses (s : State) (a n : Nat) : Bool := decide (s.dev.dstate = .night) || decide (hbmTop < a + n)

/-- The object with a T1 copy at an address of HBM. -/
def State.hbmObj (s : State) (a : Nat) : Option Obj := (s.ownerOf .hbm a).map (fun q => s.obj q.1)

/-- A line of a READONLY object is among those that `n` bytes touch (R344). -/
def State.readonlyHit (s : State) (a n : Nat) : Bool :=
  (linesOf a n).any (fun l => (s.hbmObj (64 * l)).any (fun o => o.readonly))

/-- The line belongs to an object of instance 0 (R641). -/
def State.radioLine (s : State) (line : Nat) : Bool := (s.hbmObj (64 * line)).any (fun o => o.holders.contains 0)

/-- Bytes written into HBM by the companion: the chunk of a T1 copy has not been written back since (R350, R363). -/
def State.hbmWrite (a : Nat) (bs : Bytes) (s : State) : State :=
  let s := s.wr .hbm a bs
  match s.ownerOf .hbm a with
  | some (e, t, _, k) =>
    (s.modCopy e t (fun c => { c with dirty := if c.dirty.contains k then c.dirty else c.dirty ++ [k] })).cleanCopy e t
  | none => s

/-- The same over every line that the bytes touch. -/
def State.hbmWriteAll (a : Nat) (bs : Bytes) (s : State) : State :=
  s.forEach (linesOf a bs.length) (fun l s =>
    let lo := max a (64 * l)
    let hi := min (a + bs.length) (64 * l + 64)
    s.hbmWrite lo ((bs.drop (lo - a)).take (hi - lo)))

/-- A line is poisoned in HBM (R643). -/
def State.poisonLine (line : Nat) (s : State) : State :=
  let s := s.modPower (fun p => { p with sfPoisoned := satInc 32 p.sfPoisoned })
  match s.ownerOf .hbm (64 * line) with
  | some (e, t, p, k) => s.poisonChunk e t p k (some (64 * line % chunkSize)) false
  | none => { s with mem := s.mem.markN (key .hbm (64 * line)) 64 }

/-! ## The coherent memory window (R37, R642) -/

/-- A read of `len` bytes. -/
def State.serveRead (mapping : W32) (off len : Nat) (s : State) : State :=
  if s.windowRefuses off len then s.complete 0 (.fyfoyx false [] false)
  else
    match s.linesHeld off len false with
    | l :: _ => s.startRecall (.read mapping off len) l
    | [] => s.complete (linesOf off len).length (.fyfoyx true (s.rd .hbm off len) (s.mem.poisoned (key .hbm off) len))

/-- A write, which completes only once no line of it is held by the companion. -/
def State.serveWrite (off : Nat) (bs : Bytes) (s : State) : State :=
  if s.windowRefuses off bs.length || s.readonlyHit off bs.length then s.complete 0 (.fyfoyx false [] false)
  else
    match s.linesHeld off bs.length true with
    | l :: _ => s.startRecall (.write off bs) l
    | [] => (s.hbmWriteAll off bs).complete 0 (.fyfoyx true [] false)

/-- Send what waits and has its credits now, oldest first within each class; `n` bounds the messages. -/
def State.sendWaiting : Nat → State → State
  | 0, s => s
  | n + 1, s =>
    match s.power.msgs.find? (fun m => decide (m.takes ≤ creditsOf s.power.credits m.cls) &&
        ((s.power.msgs.find? (fun k => k.cls == m.cls)) == some m)) with
    | some m => State.sendWaiting n ((s.modPower (fun p => { p with
        msgs := p.msgs.erase m, credits := takeCredits m.cls m.takes p.credits })).emit m.out)
    | none => s

/-- Credits that the companion returns with a message: a class never holds more than it was granted (R640). -/
def State.returned (c : FyfCredits) (s : State) : State :=
  let s := s.modPower (fun p => { p with credits :=
    ⟨min 512 (p.credits.request + c.request), min 256 (p.credits.snoop + c.snoop),
     min 1024 (p.credits.response + c.response), min 2048 (p.credits.data + c.data)⟩ })
  s.sendWaiting s.power.msgs.length

/-- A REQUEST has space in its buffer: those that wait behind recalls lie there (R640). -/
def State.requestRoom (s : State) : Bool :=
  decide (((s.power.recalls.map (fun p => p.2.length)).sum) < initialCredits.request)

/-- COHERENT_ACCESS (R37, R344, R629, R640, R642). -/
def execCoherentAccess (mapping : W32) (offset : Nat) (len : Nat) (req : Credited CohReq) (s : State) : Outcome :=
  .next (
    if !s.carries then s
    else
      let s := s.returned req.credits
      if !s.requestRoom then s
      else
      match req.msg with
      | .read => s.serveRead mapping offset len
      | .write data => s.serveWrite offset data)

/-! ## The snoop filter (R641 to R643) -/

/-- Entries of the filter. -/
def filterSize : Nat := 262144

/-- The line that has been in the filter longest. -/
def oldestLine : List (Nat × (LineState × Nat)) → Option Nat
  | [] => none
  | p :: r => some ((r.foldl (fun (q : Nat × (LineState × Nat)) x => if x.2.2 < q.2.2 then x else q) p).1)

/-- The state a grant gives a line: one held exclusively stays so, a READONLY line is only ever shared (R344). -/
def State.grantState (s : State) (line : Nat) (own : Own) : LineState :=
  if s.lineState line = .exclusiveClean ∨ s.lineState line = .exclusiveDirty then s.lineState line
  else if own = .shared ∨ s.readonlyHit (64 * line) 64 then .sharedClean
  else .exclusiveClean

/-- A line is granted to the companion, once there is room for it. -/
def State.grantLine (line : Nat) (own : Own) (s : State) : State :=
  let a := 64 * line
  if s.windowRefuses a 64 then s.complete 0 (.fyfoyx false [] false)
  else if s.radioLine line then s.complete 1 (.fyfoyx true (s.rd .hbm a 64) (s.mem.poisoned (key .hbm a) 64))
  else if s.power.recalls.any (fun p => p.1 == line) then s.startRecall (.grant line own) line
  else
    let new := decide (s.lineState line = .invalid)
    match (if new && decide (filterSize ≤ s.power.filter.length) then oldestLine s.power.filter else none) with
    | some old => s.startRecall (.grant line own) old
    | none =>
      let st := s.grantState line own
      let s := s.modPower (fun p => { p with
        filter := tput p.filter line (st, if new then p.filterOrder else (tget (.invalid, 0) p.filter line).2)
        filterOrder := if new then p.filterOrder + 1 else p.filterOrder })
      s.complete 1 (.grant line st.code (s.rd .hbm a 64))

/-- COMPANION_OWNERSHIP_REQUEST (R640 to R642). -/
def execCompanionOwnershipRequest (line : Nat) (own : Credited Own) (s : State) : Outcome :=
  .next (
    if !s.carries then s
    else
      let s := s.returned own.credits
      if !s.requestRoom then s else s.grantLine line own.msg)

/-- What waited behind a recall goes on. -/
def State.resumeHeld (w : Held) (s : State) : State :=
  match w with
  | .read m o n => s.serveRead m o n
  | .write o b => s.serveWrite o b
  | .grant l own => s.grantLine l own
  | .none => s

/-- The recall of a line is over: the line has left the companion, and what waited goes on in order. -/
def State.endRecall (line : Nat) (s : State) : State :=
  let ws := ((s.power.recalls.find? (fun p => p.1 == line)).map (fun p => p.2)).getD []
  let s := (s.modPower (fun p => { p with recalls := p.recalls.filter (fun q => q.1 != line) })).dropLine line
  s.forEach ws State.resumeHeld

/-- SNOOP_REPLY (R642): the answer to a recall, or a write-back that crossed it or that no recall asked for. -/
def execSnoopReply (line : Nat) (data : Credited (Option Bytes)) (s : State) : Outcome :=
  .next (
    if !s.carries then s
    else
      let s := s.returned data.credits
      let excl := decide (s.lineState line = .exclusiveClean ∨ s.lineState line = .exclusiveDirty)
      let recalled := s.power.recalls.any (fun p => p.1 == line)
      match data.msg with
      | some b =>
        if excl then (s.hbmWrite (64 * line) (fixLen 64 b)).endRecall line else if recalled then s.endRecall line else s
      | none => if recalled then s.endRecall line else s)

/-- RECALL_TIMEOUT (R643). -/
def execRecallTimeout (line : Nat) (s : State) : Outcome :=
  .next (if s.power.recalls.any (fun p => p.1 == line) then (s.poisonLine line).endRecall line else s)

/-- COMPANION_SNOOP (R644): the device gives back a T2 line it holds in the commons, with its data where they are newer. -/
def execCompanionSnoop (line : Credited Nat) (s : State) : Outcome :=
  .next (
    if !s.carries then s
    else
      let s := s.returned line.credits
      let x := tget (LineState.invalid, []) s.power.t2Lines line.msg
      (s.modPower (fun p => { p with t2Lines := tdel p.t2Lines line.msg })).complete (b2n (x.1 == .exclusiveDirty))
        (.snoopAnswer line.msg x.1.code (if x.1 = .exclusiveDirty then x.2 else [])))

/-! ## The states of the link (Table 21-5) -/

/-- The pins let the device leave reset. -/
def State.outOfReset (s : State) : Bool := s.pkg.resetHigh && !s.pkg.latched

/-- FYF_LANE_DETECT (R637): a companion appears on a link that is DOWN. -/
def execFyfLaneDetect (s : State) : Outcome :=
  .next (if s.power.fyf = .down ∧ s.outOfReset then s.modPower (fun p => { p with fyf := .training }) else s)

/-- Width at which a link trains (R637); 0 where no width passes. -/
def trainWidth (lanesOk : W32) : Nat :=
  if lanesOk = 0xFFFFFFFF#32 then 32
  else if lanesOk &&& 0xFFFF#32 = 0xFFFF#32 ∨ lanesOk >>> 16 = 0xFFFF#32 then 16
  else if lanesOk &&& 0xF#32 = 0xF#32 then 4
  else 0

/-- Versions of the Fyfoyx protocol offered (Table 02-7). -/
def fyfoyxOffer : List Nat := [0x0102]

/-- FYF_TRAIN_DONE (R73, R637, R638): the link carries messages; where no width passes or no major is shared it stays in
training. The milestone of mailbox 0 is reached in ROM (Table 21-4). -/
def execFyfTrainDone (lanesOk : W32) (versions : List W16) (s : State) : Outcome :=
  .next (
    let w := trainWidth lanesOk
    match agreeVersion fyfoyxOffer (versions.map (·.toNat)) with
    | none => s
    | some v =>
      if !(s.power.fyf = .training ∨ s.power.fyf = .recovery) ∨ w = 0 then s
      else
        let asleep := s.dev.dstate = .night ∧ !s.power.entering
        let t := s.sinceRelease
        let first := s.dev.dstate = .rom ∧ s.power.tMailboxUs = 0
        let s := s.modPower (fun p => { p with
          fyf := if asleep then .night else .active
          width := w
          fyfDegraded := decide (w ≠ 32)
          fyfAgreed := v
          flitFails := []
          credits := if p.fyf = .training then initialCredits else p.credits
          tMailboxUs := if first then t else p.tMailboxUs
          event := if w = 32 then p.event else p.event ||| 8 })
        s.recheck)

/-- Reads of T2 under way end as errors (R359, R645). -/
def State.t2ReadsEnd (s : State) : State :=
  s.forEach ([0, 1].flatMap (fun h => (List.range 64).map (fun c => (h, c)))) (fun q s =>
    match (s.mover q.1).chan q.2 with
    | some x => (match x.src with
      | some (.companion, _) => s.chunkArrives q.1 q.2 .uncorrectable []
      | _ => s)
    | none => s)

/-- A line that the companion held as the link went down (R643). Whether one held exclusively had been written no message
says: a free value (log entry 45). -/
def State.lostLine (line : Nat) (st : LineState) (s : State) : State :=
  match st with
  | .exclusiveDirty => s.poisonLine line
  | .exclusiveClean =>
    let (d, s) := s.takeFree 1
    if d = 1#1 then s.poisonLine line else s
  | .sharedClean | .invalid => s

/-- The link enters DOWN (R643, R645); its last width stays the base of the FYFOYX limit, so cells are kept. -/
def State.linkDown (s : State) : State :=
  if s.power.fyf = .down then s
  else
    let lines := s.power.filter
    let s := s.modPower (fun p => { p with fyf := .down, flitFails := [], filter := [], recalls := [], credits := {}, msgs := [], event := p.event ||| 4 })
    let s := s.forEach (List.range 16) (fun m s => s.modMbox m (fun b => b.setEnable false))
    let s := s.forEach lines (fun p s => s.lostLine p.1 p.2.1)
    s.t2ReadsEnd

/-- FYF_LINK_DOWN (R645). -/
def execFyfLinkDown (s : State) : Outcome := .next s.linkDown

/-- FYF_FLIT_CRC_FAIL (R639): the flit is replayed, or the link enters RECOVERY. -/
def execFyfFlitCrcFail (now : Nat) (held : Bool) (s : State) : Outcome :=
  .next (
    let s := s.at now
    if !(s.power.fyf = .active ∨ s.power.fyf = .night) then s
    else
      let fails := s.time.now :: s.power.flitFails.filter (fun t => decide (s.time.now < t + 1000000))
      let broken := !held || decide (16 < fails.length)
      s.modPower (fun p => { p with
        fyfReplays := if held then satInc 32 p.fyfReplays else p.fyfReplays
        fyfRecoveries := if broken then satInc 32 p.fyfRecoveries else p.fyfRecoveries
        fyf := if broken then .recovery else p.fyf
        flitFails := if broken then [] else fails }))

/-- FYF_RECOVERY_TIMEOUT (R638): 10 ms of RECOVERY. -/
def execFyfRecoveryTimeout (s : State) : Outcome := .next (if s.power.fyf = .recovery then s.linkDown else s)

end Sys2Proof.Machine
end

