-- ==== Sys2Proof/Machine/Instances.lean ====
section
/-! DEFINITION. Instances and tenancy (chapter 18): creation, reset, freeze, export and import, destruction. -/

namespace Sys2Proof.Machine

/-! ## Blocks of Tables 18-3 and 18-4 -/

/-- A flow entry (Table 18-4). -/
def parseFlow (b : Bytes) : Flow :=
  let p := fieldAt b 16 18
  { lane := byteAt b 0, vid := fieldAt b 2 2 % 4096, tagged := bitOf (fieldAt b 2 2) 15, mac := fieldAt b 4 6,
    policer := fieldAt b 10 2, rxQueue := fieldAt b 12 4,
    police := { rfc2698 := bitOf p 0, colourSrc := bitsOf p 1 2, yellowDrop := bitOf p 3, cir := bitsOf p 32 32,
                pir := bitsOf p 64 32, cbs := bitsOf p 96 24, ebs := bitsOf p 120 24 } }

/-- The grants out of a block, its first byte that of INSTANCE. -/
def parseGrant (b : Bytes) : Grant :=
  { descVersion := fieldAt b 2 2, folds := fieldAt b 4 4, contextSlots := fieldAt b 8 2, queueFirst := fieldAt b 12 4,
    queueCount := fieldAt b 16 4, groupFirst := fieldAt b 20 2, groupCount := fieldAt b 22 2,
    regionFirst := fieldAt b 24 2, regionCount := fieldAt b 26 2, mapping := BitVec.ofNat 32 (fieldAt b 28 4),
    t2Base := fieldAt b 32 8, t2Size := fieldAt b 40 8, quotaT0 := fieldAt b 48 8, quotaT1 := fieldAt b 56 8,
    quotaT2 := fieldAt b 64 8,
    flows := (List.range (min 64 (byteAt b 72))).map (fun i => parseFlow ((b.drop (96 + 48 * i)).take 48)) }

/-- A flow entry's bytes. -/
def flowBytes (w : Flow) : Bytes :=
  let p := b2n w.police.rfc2698 + 2 * w.police.colourSrc + 8 * b2n w.police.yellowDrop + 2 ^ 32 * w.police.cir +
    2 ^ 64 * w.police.pir + 2 ^ 96 * w.police.cbs + 2 ^ 120 * w.police.ebs
  leBytes 2 w.lane ++ leBytes 2 (w.vid + 32768 * b2n w.tagged) ++ leBytes 6 w.mac ++ leBytes 2 w.policer ++
    leBytes 4 w.rxQueue ++ leBytes 18 p ++ leBytes 14 0

/-- The block of an instance's grants in force (Table 18-6, section CREATE). -/
def grantBytes (i : Nat) (g : Grant) : Bytes :=
  leBytes 2 i ++ leBytes 2 g.descVersion ++ leBytes 4 g.folds ++ leBytes 4 g.contextSlots ++ leBytes 4 g.queueFirst ++
    leBytes 4 g.queueCount ++ leBytes 2 g.groupFirst ++ leBytes 2 g.groupCount ++ leBytes 2 g.regionFirst ++
    leBytes 2 g.regionCount ++ leBytes 4 g.mapping.toNat ++ leBytes 8 g.t2Base ++ leBytes 8 g.t2Size ++
    leBytes 8 g.quotaT0 ++ leBytes 8 g.quotaT1 ++ leBytes 8 g.quotaT2 ++ leBytes 24 g.flows.length ++
    g.flows.flatMap flowBytes

/-! ## The checks of R552 -/

/-- Bytes a block must have: through FLOW_COUNT, and its flows. -/
def grantLength (b : Bytes) : Nat := if byteAt b 72 = 0 then 73 else 96 + 48 * byteAt b 72

/-- A flow is out of range, or its RX_QUEUE lies outside the queue range. -/
def flowBad (g : Grant) (w : Flow) : Bool :=
  decide (31 < w.lane ∨ w.policer < 64 ∨ 511 < w.policer ∨ w.rxQueue < g.queueFirst ∨
    g.queueFirst + g.queueCount ≤ w.rxQueue ∨ 2 < w.police.colourSrc ∨ w.police.cbs < 9216 ∨ w.police.ebs < 9216)

/-- A field is out of range, or a range runs past its limit. -/
def grantBad (b : Bytes) : Bool :=
  let g := parseGrant b
  decide (g.folds = 0 ∨ g.contextSlots = 0 ∨ 224 < g.contextSlots ∨ g.queueFirst < 65536 ∨ g.queueCount = 0 ∨
    262144 < g.queueCount ∨ 2 ^ 20 < g.queueFirst + g.queueCount ∨ g.groupFirst < 1024 ∨ 4096 < g.groupCount ∨
    65536 < g.groupFirst + g.groupCount ∨ g.regionFirst < 256 ∨ 4095 < g.regionFirst ∨ 1024 < g.regionCount ∨
    4096 < g.regionFirst + g.regionCount ∨ g.t2Base % 4096 ≠ 0 ∨ g.t2Size % 4096 ≠ 0 ∨ g.t2Size < 65536 ∨
    2 ^ 64 < g.t2Base + g.t2Size ∨ g.t2Size < g.quotaT2 ∨ 64 < byteAt b 72) ||
  g.flows.any (flowBad g)

/-- Two ranges share a number. -/
def overlap (a n b k : Nat) : Bool := decide (n ≠ 0 ∧ k ≠ 0 ∧ a < b + k ∧ b < a + n)

/-- Two flows share {LANE, MAC, VLAN}. -/
def sameFlow (v w : Flow) : Bool :=
  v.lane == w.lane && v.mac == w.mac && v.tagged == w.tagged && (!v.tagged || v.vid == w.vid)

/-- A grant collides with another instance's. -/
def grantsClash (g h : Grant) : Bool :=
  overlap g.queueFirst g.queueCount h.queueFirst h.queueCount ||
  overlap g.groupFirst g.groupCount h.groupFirst h.groupCount ||
  overlap g.regionFirst g.regionCount h.regionFirst h.regionCount ||
  decide (g.mapping = h.mapping) ||
  g.flows.any (fun v => h.flows.any (fun w => sameFlow v w || (v.lane == w.lane && v.policer == w.policer)))

/-- Instances that hold grants. -/
def State.granted (s : State) : List (Nat × Inst) := s.insts.filter (fun p => p.1 != 0 && decide (p.2.state ≠ .unused))

/-- Size of the queue table (R553). -/
def tableSize (g : Grant) : Nat := ceilDiv ((g.queueCount + g.groupCount) * 64) chunkSize * chunkSize

/-- The object table and T1 have room for the queue table. -/
def State.tableFits (s : State) (g : Grant) : Bool :=
  decide (s.freeEntry < 2 ^ 20) && (s.allocT1 0 (tableSize g / chunkSize)).isSome

/-- The 256 context slots of the folds less those instance 0 takes: one on every fold, and one for each neural receiver
context (R552). -/
def State.slotsForGrants (s : State) : Nat :=
  256 - (32 + ((List.range 32).filter (fun f => ((s.fold f).slotOf 0 1).isSome)).length)

/-- The grants cannot be had (R552, CAPACITY). -/
def State.grantCapacity (s : State) (g : Grant) : Bool :=
  s.granted.any (fun p => grantsClash g p.2.grant) ||
  decide (s.slotsForGrants < g.contextSlots + (s.granted.map (fun p => p.2.grant.contextSlots)).sum) || !s.tableFits g

/-- The agreed descriptor version (R73): the device offers 1.1. -/
def descAgreed (v : Nat) : Option Nat := agreeVersion [0x0101] [v]

/-! ## Creating (R551, R553) -/

/-- The queue table: a zeroed HOME 1 object of the instance. -/
def State.makeTable' (i : Nat) (g : Grant) (s : State) : Nat × State :=
  let e := s.freeEntry
  let gen := if (s.obj e).refGen = 0 then 1 else (s.obj e).refGen
  let chunks := (s.allocT1 0 (tableSize g / chunkSize)).getD []
  let (n, s) := s.nextOrder
  let s := s.forEach chunks (fun a s => s.zeroMem .hbm a chunkSize)
  let o : Obj := { live := true, refGen := gen, size := tableSize g, lateUs := 500, repairMs := 50,
                   copies := [{ tier := 1, place := .plain, state := .resident, parts := [⟨.hbm, chunks⟩], order := n }],
                   refs := [⟨i, 1, .plain⟩], holders := [i] }
  (e, { s with tiers := { s.tiers with objs := tset {} s.tiers.objs e o } })

/-- The policers of a grant's flows take their parameters, buckets full (R424). -/
def State.setPolicers (g : Grant) (s : State) : State :=
  s.forEach g.flows (fun w s => s.modLane w.lane (fun l => { l with
    policers := tset {} l.policers w.policer { cfg := w.police, at' := s.time.now } }))

/-- An instance comes into being with its grants, queue table and generation. -/
def State.makeInst (i : Nat) (g : Grant) (gen : Nat) (st : IState) (s : State) : State :=
  let (e, s) := s.makeTable' i g
  (s.modInst i (fun x => { x with state := st, generation := gen, grant := g, queueTable := some e, bitmap := 0,
                                  dirtyPages := 0, transfer := none, transferCmd := none, image := none })).setPolicers g

/-- INSTANCE of an argument byte. -/
def instArg (c : Cmd) : Nat := c.arg 0x20 1

/-- BAD_ARG for instance 0 (R549). -/
def noRadio (c : Cmd) : Err := failIf (instArg c == 0) .badArg

/-- INST_CREATE (R551 to R553). -/
def execInstCreate (m : Fin 16) (s : State) : Outcome :=
  .next (s.runCommand m 0x0101
    (fun c _ => [failIf (descAgreed (fieldAt c.args 2 2)).isNone .version, c.lenAtLeast (grantLength c.args), noRadio c,
                 failIf (grantBad c.args) .badArg])
    (fun _ => statesOf 0x0101)
    (fun c s =>
      let g := parseGrant c.args
      [s.instConflict (instArg c) [0], failIf (!s.stacksServe 0) .notReady, failIf (s.grantCapacity g) .capacity,
       failIf (decide (g.quotaT1 < tableSize g)) .quota])
    (fun c s =>
      let g := { parseGrant c.args with descVersion := (descAgreed (fieldAt c.args 2 2)).getD 0 }
      let i := instArg c
      let s := s.makeInst i g 1 .active
      (s, leBytes 8 1 ++ leBytes 8 (s.handleOf ((s.inst i).queueTable.getD 0) i), false)))

/-- The grants with another quota in one tier. -/
def Grant.setQuota (tier q : Nat) (g : Grant) : Grant :=
  match tier with
  | 0 => { g with quotaT0 := q }
  | 1 => { g with quotaT1 := q }
  | _ => { g with quotaT2 := q }

/-- QUOTA_SET (R357). -/
def execQuotaSet (m : Fin 16) (s : State) : Outcome :=
  .next (s.runCommand m 0x0109
    (fun c _ => [c.lenIs 16, noRadio c, failIf (decide (2 < c.arg 0x21 1)) .badArg])
    (fun _ => statesOf 0x0109)
    (fun c s => [s.instConflict (instArg c) [1, 2]])
    (fun c s =>
      let q := c.arg 0x28 8
      (s.modInst (instArg c) (fun x => { x with grant := Grant.setQuota (c.arg 0x21 1) q x.grant }), [], false)))

/-! ## Reset and destruction (R559 to R562, R572) -/

/-- Step 1: doorbells that wait are dropped and counted. -/
def State.dropDoorbells (i : Nat) (s : State) : State :=
  let mine := s.queues.doorbells.filter (fun d => d.1 == i)
  let rest := s.queues.doorbells.filter (fun d => d.1 != i)
  ({ s with queues := { s.queues with doorbells := rest } }).modDbPage i (fun p => { p with stale := satAdd 32 p.stale mine.length })

/-- Contexts of an instance on the folds. -/
def State.contextsOf (s : State) (i : Nat) : List Nat :=
  (List.range 256).filter (fun c => !(s.slotsOf i c).isEmpty)

/-- Step 2: the instance's tasks are abandoned and its contexts leave. -/
def State.stopTasks (i : Nat) (s : State) : State :=
  let ts := (s.disp.tasks.filter (fun p => match p.2 with | some t => t.desc.inst == i | none => false)).map (fun p => p.1)
  let s := s.forEach ts (fun n s => s.killTask n)
  (s.forEach (s.contextsOf i) (fun c s => s.leaveNow i c)).settleHolds

/-- Step 3: nothing more of the instance's FAB_MSG descriptors is sent; those with nothing in flight end. -/
def State.stopFabric (i : Nat) (s : State) : State :=
  let ds := (s.fabMem.descs.filter (fun p => match p.2 with | some d => d.inst == i | none => false)).map (fun p => p.1)
  s.forEach ds (fun id s =>
    (s.modFdesc id (fun d => { d with toSend := [], msgs := [], released := true,
                                      status := if d.status = .ok then .jobLost else d.status })).settleDesc id)

/-- Failures noted for the flags of the instance's queues go with them. -/
def State.clearFailed (i : Nat) (s : State) : State :=
  s.modFabMem (fun m => { m with failed := m.failed.filter (fun p => s.queueOwner (p.1 / 4096) != some i) })

/-- Step 4 for one queue: written back with ENABLE 0, PRODUCER 0 and CONSUMER 0, and evicted. -/
def State.resetQueue (i q : Nat) (s : State) : State :=
  let s := if (s.queue q).isSome then s.evict q else s
  let off := s.queueOff i q
  let b := match s.tableRead i off 1 with | some b => byteAt b 0 | none => 0
  (s.tableWrite i off [BitVec.ofNat 8 (b % 8 + b / 32 * 32)]).tableWrite i (off + 24) (leBytes 8 0)

/-- Steps 1 to 4 of R560. -/
def State.stopInst (i : Nat) (s : State) : State :=
  let s := ((s.dropDoorbells i).stopTasks i).clearFailed i
  let (q0, n, _, _) := s.queueRange i
  s.forEach (List.range n) (fun k s => s.resetQueue i (q0 + k))

/-- The next generation (R559). -/
def nextGen (g : Nat) : Nat := if g = 65535 then 1 else g + 1

/-- INST_RESET (R560). -/
def execInstReset (m : Fin 16) (s : State) : Outcome :=
  .next (s.runCommand m 0x0103
    (fun c _ => [c.lenIs 1, noRadio c, failIf (instArg c != c.instId) .badArg])
    (fun _ => statesOf 0x0103)
    (fun c s => [s.instConflict (instArg c) [1]])
    (fun c s =>
      let i := instArg c
      let byManager := decide ((s.mbox m).role = .manager)
      let s := s.stopInst i
      let s := s.modInst i (fun x => { x with generation := nextGen x.generation, resets := satInc 32 x.resets })
      let s := s.stopFabric i
      let s := if byManager then s.jobLost i else s
      (s, leBytes 2 (s.inst i).generation, false)))

/-- A generation that no instance ever has: work marked with it is discarded (R561, R572). -/
def noGeneration : Nat := 65536

/-- Records, write-backs and frames of a destroyed instance that are still under way will be discarded. -/
def State.orphanAll (i : Nat) (s : State) : State :=
  let mark := fun (r : CmpRec) => if r.inst = i then { r with issued := noGeneration } else r
  let s := s.forEach (s.folds.map (fun p => p.1)) (fun f s => s.modFold f (fun x => { x with cmp := x.cmp.map mark }))
  let s := s.modDisp (fun d => { d with direct := d.direct.map mark })
  let s := s.forEach (s.fh.lanes.map (fun p => p.1)) (fun l s => s.modLane l (fun x => { x with
    sending := x.sending.map (fun w => if s.queueOwner w.queue = some i then { w with issued := noGeneration } else w) }))
  let ds := (s.fabMem.descs.filter (fun p => match p.2 with | some d => d.inst == i | none => false)).map (fun p => p.1)
  s.forEach ds (fun id s => s.modFdesc id (fun d => { d with generation := noGeneration }))

/-- The instance's regions close and become UNUSED; one whose object has updates waiting closes after them. -/
def State.closeRegions (i : Nat) (s : State) : State :=
  s.forEach ((s.fabMem.regions.filter (fun p => p.2.inst == i && decide (p.2.state ≠ .unused))).map (fun p => p.1)) (fun r s =>
    if s.regionBusy r then s.modRegion r (fun x => { x with state := .closing, frozen := false, compat := false })
    else s.modRegion r (fun _ => {}))

/-- The event ring pages of an instance are disabled. -/
def State.dropPages (i : Nat) (s : State) : State :=
  s.forEach ((s.evPages.filter (fun p => decide (p.2.role = .tenant) && p.2.inst == i)).map (fun p => p.1)) (fun k s =>
    let s := s.forEach (List.range 16) (fun j s => s.modRing (16 * k + j) (fun _ => {}))
    { s with evPages := tset {} s.evPages k {} })

/-- The mailboxes of an instance. -/
def State.mailboxesOf (s : State) (i : Nat) : List Nat :=
  (List.range 16).filter (fun k => decide ((s.mbox k).role = .tenant) && (s.mbox k).inst == i)

/-- What an instance was granted goes back to the pools. -/
def State.freeGrants (i : Nat) (s : State) : State :=
  let (q0, n, g0, k) := s.queueRange i
  let s := { s with queues := { s.queues with
    evicted := s.queues.evicted.filter (fun p => !decide (q0 ≤ p.1 ∧ p.1 < q0 + n))
    groups := s.queues.groups.filter (fun p => !decide (g0 ≤ p.1 ∧ p.1 < g0 + k)) } }
  let s := s.forEach (s.inst i).grant.flows (fun w s => s.modLane w.lane (fun l => { l with
    policers := tset {} l.policers w.policer {} }))
  s.modInst i (fun x => { x with state := .unused, generation := 0, grant := {}, queueTable := none, bitmap := 0,
                                 transfer := none, transferCmd := none, image := none })

/-- Every handle and reference of an instance goes (R351). -/
def State.dropObjects (i : Nat) (s : State) : State :=
  s.forEach ((s.tiers.objs.filter (fun p => p.2.live && (p.2.holders.contains i || p.2.refs.any (fun r => r.inst == i)))).map
    (fun p => p.1)) (fun e s => s.destroyHandle e i)

/-- INST_DESTROY (R572); it waits until commands taken up from the instance's mailboxes have been answered (R82). -/
def execInstDestroy (m : Fin 16) (s : State) : Outcome :=
  let busy := match (s.mbox m).current with
    | some c => c.opcode == 0x0102 && (s.mailboxesOf (instArg c)).any (fun k => (s.mbox k).current.isSome)
    | none => false
  .next (if busy then s else s.runCommand m 0x0102
    (fun c _ => [c.lenIs 1, noRadio c])
    (fun _ => statesOf 0x0102)
    (fun c s => [s.instConflict (instArg c) [1, 2]])
    (fun c s =>
      let i := instArg c
      let s := ((s.stopInst i).orphanAll i).stopFabric i
      let s := (s.dropObjects i).closeRegions i
      let s := s.dropPages i
      let s := s.forEach (s.mailboxesOf i) (fun k s => (s.cancelLong k).modMbox k (fun b => assigned b .unassigned 0 0))
      (s.freeGrants i, [], false)))

/-! ## Freeze and thaw (R563, R564) -/

/-- Every slot of an instance with a running rank. -/
def State.setPaused (i : Nat) (on : Bool) (s : State) : State :=
  s.forEach (s.folds.map (fun p => p.1)) (fun f s => s.modFold f (fun x =>
    (x.slots.map (fun p => p.1)).foldl (fun x k => x.modSlot k (fun c =>
      if c.state = .running ∧ c.inst = i then { c with paused := on } else c)) x))

/-- INST_FREEZE (R563). -/
def execInstFreeze (m : Fin 16) (s : State) : Outcome :=
  .next (s.runCommand m 0x0104
    (fun c _ => [c.lenIs 1, noRadio c])
    (fun _ => statesOf 0x0104)
    (fun c s => [s.instConflict (instArg c) [1]])
    (fun c s =>
      let i := instArg c
      let s := s.modInst i (fun x => { x with state := .frozen })
      let s := s.setPaused i true
      (s.forEach ((s.fabMem.regions.filter (fun p => p.2.inst == i && decide (p.2.state = .open'))).map (fun p => p.1))
        (fun r s => s.modRegion r (fun x => { x with state := .closing, frozen := true })), [], false)))

/-- INST_THAW (R564). -/
def execInstThaw (m : Fin 16) (s : State) : Outcome :=
  .next (s.runCommand m 0x0107
    (fun c _ => [c.lenIs 1, noRadio c])
    (fun _ => statesOf 0x0107)
    (fun c s => [s.instConflict (instArg c) [2]])
    (fun c s =>
      let i := instArg c
      let s := s.modInst i (fun x => { x with state := .active })
      let s := s.setPaused i false
      (s.forEach ((s.fabMem.regions.filter (fun p => p.2.inst == i && decide (p.2.state = .closing) && p.2.frozen)).map
        (fun p => p.1)) (fun r s => s.modRegion r (fun x => { x with state := .open', frozen := false })), [], false)))

/-! ## Dirty logging (R565) -/

/-- `n` bytes from an address meet some instance's window. -/
def State.inSomeWindow (s : State) (a n : Nat) : Bool :=
  s.granted.any (fun p => overlap a n p.2.grant.t2Base p.2.grant.t2Size)

/-- Bytes of a dirty bitmap (R566). -/
def bitmapSize (g : Grant) : Nat := ceilDiv (ceilDiv g.t2Size 32768) 64 * 64

/-- DIRTY_SWAP (R565). -/
def execDirtySwap (m : Fin 16) (s : State) : Outcome :=
  .next (s.runCommand m 0x0108
    (fun c _ => [c.lenAtLeast 16, noRadio c, failIf (c.arg 0x28 8 % 64 != 0) .badArg])
    (fun _ => statesOf 0x0108)
    (fun c s => [s.instConflict (instArg c) [1, 2, 3],
      failIf (c.arg 0x28 8 != 0 && s.inSomeWindow (c.arg 0x28 8) (bitmapSize (s.inst (instArg c)).grant)) .badArg])
    (fun c s =>
      let i := instArg c
      let old := (s.inst i).bitmap
      (s.modInst i (fun x => { x with bitmap := c.arg 0x28 8, dirtyPages := 0 }), leBytes 8 old, false)))

end Sys2Proof.Machine
end

