-- ==== Sys2Proof/Machine/Images.lean ====
section
/-! DEFINITION. Export and import of an instance (R568 to R571). -/

namespace Sys2Proof.Machine

/-! ## Blocks of an image (Table 18-6) -/

/-- A task descriptor's bytes (Table 07-2). -/
def taskBytes (d : TaskDesc) : Bytes :=
  let w := d.kind + 2 ^ 8 * b2n d.sr + 2 ^ 9 * b2n d.barrierEn + 2 ^ 10 * b2n d.reportAll + 2 ^ 16 * d.version +
    2 ^ 32 * d.inst + 2 ^ 40 * d.ctxId + 2 ^ 48 * d.generation
  leBytes 8 w ++ leBytes 4 d.foldMask ++ leBytes 1 d.ranks ++ leBytes 3 d.barrier ++ leBytes 4 d.cq ++
    leBytes 4 d.tileCount ++ leBytes 8 d.tag ++ fixLen 32 d.digest ++ fixLen 16 d.coords ++ leBytes 8 d.tileList ++
    leBytes 8 d.entry ++ leBytes 8 d.args ++ leBytes 8 d.program ++ leBytes 2 d.share ++
    leBytes 2 (d.physGroups + 16 * d.logGroups) ++ leBytes 12 d.bundles

/-- OBJ_CREATE's fields of an object (Table 11-3). -/
def objFields (o : Obj) : Bytes :=
  leBytes 1 o.kind ++ leBytes 1 (b2n o.readonly + 2 * b2n o.shared + 4 * b2n o.pin + 8 * b2n o.headerless) ++
    leBytes 1 o.home ++ leBytes 1 o.place1 ++ leBytes 8 o.size ++ leBytes 8 o.source ++ leBytes 4 o.lateUs ++
    leBytes 8 o.repairMs ++ fixLen 32 o.digest

/-- A region's block (Table 16-2). -/
def regionBytes (s : State) (r : Nat) : Bytes :=
  let x := s.region r
  leBytes 2 r ++ leBytes 1 (b2n x.space) ++
    leBytes 1 (b2n x.read + 2 * b2n x.write + 4 * b2n x.atomic + 8 * b2n (x.state ≠ .unused)) ++ leBytes 4 x.keyIndex ++
    leBytes 8 x.keyValue.toNat ++ leBytes 8 x.base ++ leBytes 8 x.length ++
    leBytes 8 (if x.state = .unused then 0 else x.obj + 2 ^ 20 * x.objGen + 2 ^ 32 * x.inst + 2 ^ 48 * (s.deviceInc % 65536)) ++
    leBytes 8 x.objOffset

/-- The nonzero bytes of a range of a space, by offset. -/
def State.cellsIn (s : State) (sp : Space) (a n : Nat) : List (Nat × Byte) :=
  (s.mem.cells.filter (fun p => decide (key sp a ≤ p.1 ∧ p.1 < key sp a + n))).map (fun p => (p.1 - key sp a, p.2))

/-- The poisoned lines of a range, by number from its start. -/
def State.linesIn (s : State) (sp : Space) (a n : Nat) : List Nat :=
  ((s.mem.poison.filter (fun p => decide (key sp a ≤ p.1 * 8 ∧ p.1 * 8 < key sp a + n))).map (fun p =>
    (p.1 * 8 - key sp a) / 64)).eraseDups

/-- One object of the image. -/
def State.imgObj (s : State) (i e : Nat) : ImgObj :=
  let o := s.obj e
  let ranges := if o.home ≠ 1 then []
    else match o.copy 1 with
      | some c => (List.range o.chunks).filterMap (fun k => (c.place' 0 k).map (fun p => (k, p.1, p.2)))
      | none => []
  let bad := ranges.flatMap (fun r => (s.linesIn r.2.1 r.2.2 chunkSize).map (fun l => l + r.1 * (chunkSize / 64)))
  let cells := ranges.flatMap (fun r => (s.cellsIn r.2.1 r.2.2 chunkSize).map (fun p => (p.1 + r.1 * chunkSize, p.2)))
  { handle := s.handleOf e i, fields := objFields o, alternates := o.alternates,
    content := cells.filter (fun p => !bad.contains (p.1 / 64)), poisoned := bad }

/-- The RESIDE fields of a context (R217). -/
def State.resideOf (s : State) (i ctx n : Nat) (c : Ctx) : Bytes :=
  taskBytes { kind := 2, sr := false, barrierEn := false, reportAll := false, version := (s.inst i).grant.descVersion,
              inst := i, ctxId := ctx, generation := (s.inst i).generation, foldMask := 0, ranks := n, barrier := 0, cq := 0,
              tileCount := 0, tag := 0, digest := c.digest, coords := [], tileList := 0, entry := 0, args := 0,
              program := s.handleOf c.program i, share := c.shareSize / 65536, physGroups := c.phys,
              logGroups := c.logical, bundles := c.bundleSet.length }

/-- The groups of a context on one fold. -/
def State.imgGroups (f slot : Nat) : List Nat → State → List ImgGroup × State
  | [], s => ([], s)
  | j :: js, s =>
    let l := (s.fold f).lgroup slot j
    if l.state = .unused then State.imgGroups f slot js s
    else
      let (b, s) := match l.phys with
        | some p => (let r := State.accRecords ((s.fold f).group p).accs l.mode 0 groupAccs s; (some r.1, r.2))
        | none => (none, s)
      let (r, s) := State.imgGroups f slot js s
      (⟨j, l.mode, b⟩ :: r, s)

/-- The groups of a context on all its folds. -/
def State.imgAllGroups : List (Nat × Nat) → State → List (List ImgGroup) × State
  | [], s => ([], s)
  | p :: ps, s =>
    let (g, s) := State.imgGroups p.1 p.2 (List.range 16) s
    let (r, s) := State.imgAllGroups ps s
    (g :: r, s)

/-- The contexts of an instance. -/
def State.imgCtxs (i : Nat) : List Nat → State → List ImgCtx × State
  | [], s => ([], s)
  | c :: cs, s =>
    let l := s.slotsOf i c
    let (g, s) := State.imgAllGroups l s
    let x := match l.head? with | some p => (s.fold p.1).slot p.2 | none => {}
    let shares := l.map (fun p => let k := (s.fold p.1).slot p.2; s.cellsIn (.sram p.1) k.shareBase k.shareSize)
    let (r, s) := State.imgCtxs i cs s
    (⟨s.resideOf i c l.length x, shares, g⟩ :: r, s)

/-- A paused task. -/
def State.imgTask (s : State) (n : Nat) (t : Task) : ImgTask :=
  let l := s.slotsOf t.desc.inst t.desc.ctxId
  { desc := taskBytes t.desc
    ranks := t.ranks.map (fun p =>
      let c := (s.fold p.1).slot p.2
      if c.task = some n then (l.idxOf p, c.nextTile, c.flags) else (l.idxOf p, t.desc.tileCount, 0)) }

/-- RUN tasks of an instance. -/
def State.runsOf (s : State) (i : Nat) : List (Nat × Task) :=
  s.disp.tasks.filterMap (fun p => match p.2 with
    | some t => if t.desc.inst = i ∧ t.desc.kind = 1 then some (p.1, t) else none
    | none => none)

/-- Objects that an instance holds a handle to, its queue table first. -/
def State.heldBy (s : State) (i : Nat) : List Nat :=
  let q := (s.inst i).queueTable.getD (2 ^ 20)
  let l := (s.tiers.objs.filter (fun p => p.2.live && p.2.holders.contains i)).map (fun p => p.1)
  l.filter (fun e => e == q) ++ l.filter (fun e => e != q)

/-- Size of the image (Table 18-6): the parts the manual sizes, and the rest (log entry 44). -/
def State.imageSize (s : State) (i : Nat) : Nat :=
  let g := (s.inst i).grant
  let l := s.heldBy i
  64 + (96 + 48 * g.flows.length) + 128 * l.length + (l.map (fun e => if (s.obj e).home = 1 then (s.obj e).size else 0)).sum +
    48 * g.regionCount +
    Config.imageRest (s.contextsOf i).length (s.runsOf i).length ((l.map (fun e => (s.imgObj i e).poisoned.length)).sum)

/-- The image of an instance. -/
def State.imageOf (i : Nat) (s : State) : Image × State :=
  let x := s.inst i
  let (cs, s) := State.imgCtxs i (s.contextsOf i) s
  ({ descVersion := x.grant.descVersion, generation := x.generation, classString := Config.classString,
     create := grantBytes i x.grant, objects := (s.heldBy i).map (s.imgObj i), contexts := cs,
     tasks := (s.runsOf i).map (fun p => s.imgTask p.1 p.2),
     regions := (List.range x.grant.regionCount).map (fun k => regionBytes s (x.grant.regionFirst + k)) }, s)

/-! ## INST_EXPORT (R568) -/

/-- INST_EXPORT. -/
def execInstExport (m : Fin 16) (s : State) : Outcome :=
  .next (s.runCommand m 0x0105
    (fun c _ => [c.lenAtLeast 24, noRadio c, failIf (c.arg 0x28 8 % 4096 != 0) .badArg])
    (fun _ => statesOf 0x0105)
    (fun c s => [s.instConflict (instArg c) [2], failIf (s.inSomeWindow (c.arg 0x28 8) (c.arg 0x30 8)) .badArg,
      if c.arg 0x30 8 < s.imageSize (instArg c) then some (.capacity, leBytes 8 (s.imageSize (instArg c))) else none])
    (fun c s =>
      let i := instArg c
      (s.modInst i (fun x => { x with state := .exporting, transfer := some (c.arg 0x28 8, c.arg 0x30 8, 0),
                                      transferCmd := some (m.val, c.seq) }), leBytes 8 (s.imageSize i), true)))

/-- Fills, drains, tiles or DMA descriptors of the instance are still under way. -/
def State.instBusy (s : State) (i : Nat) : Bool :=
  s.tiers.objs.any (fun p => p.2.holders.contains i &&
    p.2.copies.any (fun c => decide (c.state = .filling ∨ c.state = .draining))) ||
  s.folds.any (fun p =>
    let own := fun k => (p.2.slot k).inst == i && decide ((p.2.slot k).state ≠ .empty)
    (match p.2.tile with | some t => own t.slot | none => false) || p.2.closing.any (fun q => own q.slot)) ||
  s.dma.any (fun p => [p.2.radioRun, p.2.grazingRun].any (fun r =>
    match r with | some r => decide (8 ≤ r.chan) && (s.chan p.1 r.chan).ownerInst == i | none => false))

/-- Dirty chunks of one copy go to the next lower copy or the home range; `low` is written whole, so it turns dirty
itself. -/
def State.flushCopy (e t : Nat) (s : State) : State :=
  match (s.obj e).copy t with
  | none => s
  | some c =>
    s.forEach c.dirty (fun k s =>
      match (s.obj e).drainTo t k, c.place' 0 k with
      | some (low, sp, a), some (sp', a') =>
        let s := if sp = .companion then s.logDirty a chunkSize else s
        let s := { s with mem := s.mem.copy (key sp' a') (key sp a) chunkSize }
        let s := s.modCopy e t (fun c => { c with dirty := c.dirty.filter (fun j => j != k) })
        (match low with
         | some (u, _) => s.modCopy e u (fun c => { c with dirty := if c.dirty.contains k then c.dirty else c.dirty ++ [k] })
         | none => s)
      | _, _ => s)

/-- Writable objects of an instance are written back to their homes. -/
def State.drainHome (i : Nat) (s : State) : State :=
  s.forEach ((s.heldBy i).filter (fun e => !(s.obj e).readonly)) (fun e s => (s.flushCopy e 0).flushCopy e 1)

/-- Every cached queue of an instance is written back. -/
def State.evictAll (i : Nat) (s : State) : State :=
  s.forEach ((s.queues.cached.map (fun p => p.1)).filter (fun q => s.queueOwner q == some i)) (fun q s => s.evict q)

/-- INST_EXPORT_DONE (R568): once the instance's fills and drains have ended. Of the bytes of the image only the header's
first fields have a place in the manual; the rest leaves as what it says (log entry 44). -/
def execInstExportDone (inst : Fin 256) (s : State) : Outcome :=
  .next (
    let x := s.inst inst
    match x.state, x.transfer, x.transferCmd with
    | .exporting, some (buf, _, _), some (m, seq) =>
      if s.instBusy inst then s
      else
        let s := (s.drainHome inst).evictAll inst
        let (img, s) := s.imageOf inst
        let s := s.wrCompanion buf (leBytes 4 0x584E564D ++ leBytes 2 img.descVersion ++ leBytes 2 img.generation ++
          leBytes 16 img.classString.toNat)
        let s := s.emit (.image inst buf img)
        let s := s.modInst inst (fun x => { x with state := .frozen, transfer := none, transferCmd := none })
        s.commandDone m seq 0x0105 .ok
    | _, _, _ => s)

/-! ## INST_IMPORT (R569 to R571) -/

/-- INST_IMPORT: VERSION comes before check 7 of R90 (log entry 85). -/
def execInstImport (m : Fin 16) (image : Image) (s : State) : Outcome :=
  .next (s.runCommand m 0x0106
    (fun c _ => [c.lenAtLeast 32, noRadio c])
    (fun _ => statesOf 0x0106)
    (fun c s =>
      let b := s.rd .companion (c.arg 0x30 8) 3168
      let g := parseGrant b
      [failIf ((image.classString != Config.classString && !(image.contexts.isEmpty && image.tasks.isEmpty)) ||
         (descAgreed g.descVersion).isNone) .version,
       s.instConflict (instArg c) [0], failIf (!s.stacksServe 0) .notReady, failIf (grantBad b) .badArg,
       failIf (s.grantCapacity g) .capacity, failIf (decide (g.quotaT1 < tableSize g)) .quota])
    (fun c s =>
      let g := parseGrant (s.rd .companion (c.arg 0x30 8) 3168)
      let g := { g with descVersion := (descAgreed g.descVersion).getD 0 }
      (s.modInst (instArg c) (fun x => { x with
        state := .importing, generation := image.generation, grant := g, bitmap := 0, dirtyPages := 0, image := some image,
        transfer := some (c.arg 0x28 8, c.arg 0x30 8, c.arg 0x38 8), transferCmd := some (m.val, c.seq) }),
       leBytes 2 image.generation, true)))

/-- Write nonzero bytes by offset into a HOME 1 copy. -/
def State.putContent (e : Nat) (x : ImgObj) (s : State) : State :=
  match (s.obj e).copy 1 with
  | none => s
  | some c =>
    let s := s.forEach x.content (fun p s =>
      match c.place' 0 (p.1 / chunkSize) with
      | some (sp, a) => s.wr sp (a + p.1 % chunkSize) [p.2]
      | none => s)
    s.forEach x.poisoned (fun l s =>
      match c.place' 0 (l * 64 / chunkSize) with
      | some (sp, a) => { s with mem := s.mem.markN (key sp (a + l * 64 % chunkSize)) 64 }
      | none => s)

/-- The OBJ_CREATE that an image's object stands for. -/
def imgCreate (i : Nat) (x : ImgObj) : Cmd :=
  { opcode := 0x0301, version := 0, seq := 0, instId := i, indirect := false, argLength := 64, argPointer := 0,
    args := x.fields, slot := 0, session := 0 }

/-- A READONLY object of HOME 2 or 3 is refilled where its tier has room (R570). -/
def State.refill (e i : Nat) (s : State) : State :=
  let o := s.obj e
  if o.readonly && decide (2 ≤ o.home) && (s.newParts 1 0 i 0 o.chunks).isSome && !s.overQuota i 1 o.size then s.promote e i 1 0 0
  else s

/-- An object of the image that exists now with its alternates, and with its content where its HOME is T1. -/
def State.fillImport (i e : Nat) (x : ImgObj) (s : State) : State :=
  let s := s.modObj e (fun o => { o with alternates := x.alternates })
  if (s.obj e).home = 1 then
    let s := (s.putContent e x).modCopy e 1 (fun c => { c with state := if x.poisoned.isEmpty then .resident else .poisoned })
    match (s.obj e).copy 1 with | some k => if x.poisoned.isEmpty then s.recordSums e k else s | none => s
  else s.refill e i

/-- What keeps an object of the image from being created. -/
def State.importStop (i : Nat) (c : Cmd) (s : State) : Option Status :=
  if decide (2 ^ 20 ≤ s.freeEntry) || (s.createChunks c).isNone then some .capacity
  else if ocHome c == 1 && s.overQuota i 1 (ocSize c) then some .quota else none

/-- Create one object of the image: its entry. -/
def State.importObj (i : Nat) (x : ImgObj) (s : State) : Except Status (Nat × State) :=
  let c := imgCreate i x
  if !objCreateArgs c || !s.sourceOk c then .error .badArg
  else
    match s.joinOf c with
    | some e => .ok (e, s.joinObj e i)
    | none =>
      match s.importStop i c with
      | some st => .error st
      | none => .ok ((s.createObj c).1, (s.createObj c).2.fillImport i (s.createObj c).1 x)

/-- One more object of an image, with its pair of old and new handle. -/
def State.importNext (i : Nat) (acc : Except Status (List (Nat × Nat) × State)) (x : ImgObj) :
    Except Status (List (Nat × Nat) × State) :=
  match acc with
  | .error st => .error st
  | .ok (l, s) =>
    match s.importObj i x with
    | .error st => .error st
    | .ok (e, s) => .ok (l ++ [(x.handle, s.handleOf e i)], s)

/-- The objects of an image after the first, which is its queue table: pairs of old and new handle. -/
def State.importObjs (i : Nat) (xs : List ImgObj) (s : State) : Except Status (List (Nat × Nat) × State) :=
  xs.foldl (State.importNext i) (.ok ([], s))

/-- The new handle of an old one. -/
def newHandle (tr : List (Nat × Nat)) (h : Nat) : Nat := ((tr.find? (fun p => p.1 == h)).map (fun p => p.2)).getD h

/-- One group of a context comes back: into a physical group of the context, or as SPILLED. -/
def putGroup (slot : Nat) (g : ImgGroup) (x : Fold) : Fold :=
  match g.records, (x.freePhys slot).head? with
  | some b, some p =>
    let accs := (List.range 4096).foldl (fun t k => tset ({} : Acc) t k (accOfRecord ((b.drop (16 * k)).take 16) g.mode)) []
    (x.holdGroup slot g.group p .held g.mode).modGroup p (fun y => { y with accs })
  | _, _ => x.modLgroup slot g.group (fun l => { l with state := .spilled, mode := g.mode, phys := none })

/-- Bytes of a share by offset. -/
def State.putShare (f base : Nat) (l : List (Nat × Byte)) (s : State) : State :=
  s.forEach l (fun p s => s.wr (.sram f) (base + p.1) [p.2])

/-- A context becomes resident with its shares and groups. -/
def State.importCtx (i : Nat) (tr : List (Nat × Nat)) (x : ImgCtx) (s : State) : Except Status State :=
  let d := parseTask x.reside
  let d := { d with kind := 2, inst := i, foldMask := 0, ranks := x.shares.length, program := newHandle tr d.program }
  let fs := s.resideFolds d
  if d.resideBad then .error .badArg
  else if (s.inst i).grant.contextSlots < s.slotsHeld i + d.ranks ∨ s.overQuota i 0 (d.ranks * d.share * 65536) = true then .error .quota
  else if fs.length < d.ranks then .error .capacity
  else .ok (s.forEach (fs.zip (x.shares.zip (x.groups ++ List.replicate fs.length []))) (fun p s =>
    let f := p.1.1
    let slot := p.1.2.1
    let s := (s.modFold f (Fold.takeSlot d 0 slot p.1.2.2.1 p.1.2.2.2)).zeroMem (.sram f) p.1.2.2.1 (d.share * 65536)
    let s := s.putShare f p.1.2.2.1 p.2.1
    s.modFold f (fun y => p.2.2.foldl (fun y g => putGroup slot g y) (y.modSlot slot (fun c => { c with state := .idle, task := none })))))

/-- A paused task comes back (R570): its handle fields rewritten, its tile list read anew when it goes on. -/
def State.importTask (i : Nat) (tr : List (Nat × Nat)) (x : ImgTask) (s : State) : State :=
  let d := parseTask x.desc
  let d := { d with inst := i, tileList := newHandle tr d.tileList, args := newHandle tr d.args, program := newHandle tr d.program }
  let l := s.slotsOf i d.ctxId
  let n := s.disp.nextTask
  let ranks := x.ranks.filterMap (fun r => l[r.1]?)
  let past := (x.ranks.zipIdx.filter (fun r => decide (d.tileCount ≤ r.1.2.1))).map (fun r => r.2)
  let s := s.modDisp (fun y => { y with nextTask := n + 1 })
  let s := s.setTask n (some { desc := d, queue := d.cq, tiles := [], ranks, done := past, sealed := s.seals i })
  s.forEach (x.ranks.zipIdx) (fun r s =>
    match l[r.1.1]? with
    | some p =>
      if past.contains r.2 then s
      else s.modFold p.1 (fun y =>
        let y := (y.startBundles p.2 d.entry).modSlot p.2 (fun c =>
          { c with state := .running, task := some n, rank := r.2, nextTile := r.1.2.1, flags := r.1.2.2, paused := true })
        { y with cmpReserved := y.cmpReserved + 1 })
    | none => s)

/-- A region of the image, CLOSING until the thaw, at the same place in the instance's range. -/
def State.importRegion (i oldFirst : Nat) (tr : List (Nat × Nat)) (b : Bytes) (s : State) : State :=
  let p := byteAt b 3
  let h := newHandle tr (fieldAt b 32 8)
  let k := fieldAt b 0 2 - oldFirst
  if !bitOf p 3 || decide ((s.inst i).grant.regionCount ≤ k) then s
  else s.modRegion ((s.inst i).grant.regionFirst + k) (fun _ =>
    { state := .closing, frozen := true, inst := i, space := byteAt b 2 == 1, read := bitOf p 0, write := bitOf p 1,
      atomic := bitOf p 2, keyIndex := fieldAt b 4 2, keyValue := BitVec.ofNat 32 (fieldAt b 8 4), base := fieldAt b 16 8,
      length := fieldAt b 24 8, obj := hdlEntry h, objGen := hdlGen h, objOffset := fieldAt b 40 8 })

/-- The contexts of an image. -/
def State.importCtxs (i : Nat) (tr : List (Nat × Nat)) : List ImgCtx → State → Except Status State
  | [], s => .ok s
  | x :: xs, s =>
    match s.importCtx i tr x with
    | .error st => .error st
    | .ok s => State.importCtxs i tr xs s

/-- Everything an import creates, with the translation pairs. -/
def State.importAll (i : Nat) (img : Image) (s : State) : Except Status (List (Nat × Nat) × State) :=
  let g := (s.inst i).grant
  if !s.tableFits g then .error .capacity
  else
    let s := s.makeInst i g img.generation .frozen
    let table := (s.inst i).queueTable.getD 0
    let s := match img.objects with | q :: _ => s.putContent table q | [] => s
    match s.importObjs i (img.objects.drop 1) with
    | .error st => .error st
    | .ok (tr, s) =>
      let tr := (img.objects.take 1).map (fun q => (q.handle, s.handleOf table i)) ++ tr
      match s.importCtxs i tr img.contexts with
      | .error st => .error st
      | .ok s =>
        let s := s.forEach img.tasks (State.importTask i tr)
        let s := s.forEach img.regions (State.importRegion i (fieldAt img.create 24 2) tr)
        .ok (tr, s)

/-- INST_IMPORT_DONE (R570): what it creates, the translation pairs, FROZEN; on failure the instance is UNUSED and nothing
of it remains. -/
def execInstImportDone (inst : Fin 256) (ok : Bool) (s : State) : Outcome :=
  .next (
    let x := s.inst inst
    match x.state, x.transfer, x.transferCmd, x.image with
    | .importing, some (_, _, dst), some (m, seq), some img =>
      (match if ok then s.importAll inst img else .error .badArg with
       | .error st => (s.freeGrants inst).commandDone m seq 0x0106 st
       | .ok (tr, s) => (s.wrCompanion dst (tr.flatMap (fun p => leBytes 8 p.1 ++ leBytes 8 p.2))).commandDone m seq 0x0106 .ok)
    | _, _, _, _ => s)

end Sys2Proof.Machine
end

