-- ==== Sys2Proof/Machine/Ledger.lean ====
section
/-! DEFINITION. Commands and events of the life ledger (R577 to R581) and PROGRESS_READ (R601). -/

namespace Sys2Proof.Machine

/-! ## Batches (R577, R59) -/

/-- LEDGER_BATCH_WRITE: control core 6 writes the waiting batch once it is 1 s old or 64 KiB long; units that wait for a
reservation try again. -/
def execLedgerBatchWrite (now : Nat) (s : State) : Outcome :=
  .next (
    let s := s.at now
    let bytes := (s.health.waiting.map (fun r => (ledgerBytes r).length)).sum
    if (s.core 6).restarting || decide (s.dev.dstate = .rom) then s
    else
      let due := !s.health.waiting.isEmpty && (decide (s.health.waitingSince + 1000000000 ≤ s.time.now) || decide (65536 ≤ bytes))
      (if due then s.closeBatch else s).retryWaiting)

/-! ## Progress (R601) -/

/-- Fields of Table 19-11. -/
def State.progress (s : State) : List Nat :=
  let h := s.health
  let open' := (h.fencedSince.map (fun p => s.time.now + 1 - p.2)).sum
  [s.shep.slotsServed, s.shep.slotsMissed, s.shep.slotsSuspended, h.grazingIssue, h.grazingTasks, h.grazingLost,
   h.recoveryFoldUs / 1000, (h.fencedFoldUs + open') / 1000, h.assumeGap, h.since]

/-- PROGRESS_READ. -/
def execProgressRead (m : Fin 16) (s : State) : Outcome :=
  .next (s.runCommand m 0x060B (fun _ _ => []) (fun _ => statesOf 0x060B) (fun _ _ => [])
    (fun _ s => (s, s.progress.flatMap (leBytes 8), false)))

/-! ## Periodic records (Table 19-5) -/

/-- Spare rows left, of 16, in each bank of a stack that has used some (R369). -/
def State.hbmHist (k : Nat) (s : State) : State :=
  let c := s.stackCtl k
  s.ledger 15 ⟨.stack, 16 + k⟩ (.hbmHist c.corrected1 c.corrected2 (c.sparesUsed.flatMap (fun p => [p.1, 16 - p.2])))

/-- Seconds in each of the twenty bands since the last record. -/
def State.thermalHist (d : Nat) (s : State) : State :=
  let u : UnitId := if d < 16 then ⟨.die, d⟩ else ⟨.stack, d⟩
  let h := tget [] s.pkg.hist d
  s.ledger 14 u (.thermalHist ((List.range 20).map (fun b => tget 0 h b / 1000000000)))

/-- LEDGER_PERIODIC_RECORD: hourly DEFICITS and PROGRESS, daily THERMAL_HIST and HBM_HIST. Nothing happens while control core 6 restarts (R39). -/
def execLedgerPeriodicRecord (now : Nat) (daily : Bool) (s : State) : Outcome :=
  .next (
    let s := s.at now
    if (s.core 6).restarting then s else
    if s.dev.dstate = .rom then s
    else if daily then
      let s := s.forEach ([0, 1, 2, 3, 4] ++ (List.range 16).map (fun k => 16 + k)) State.thermalHist
      (s.forEach (List.range 16) State.hbmHist).modPkg (fun p => { p with hist := [] })
    else
      let ds := (List.range 32).map (fun f => (f, (s.scope (some f)).deficit.toNat))
      (s.ledger 13 theDevice (.deficits s.health.device.deficit.toNat ds)).ledger 17 theDevice (.progress s.progress))

/-! ## LEDGER_READ (R581) -/

/-- Whole records of a type in rising SEQ until COUNT or LENGTH is reached: the bytes, and the next unread SEQ. -/
def readRecords : List LRecord → Nat → Nat → Nat → Bytes × Nat
  | [], _, _, next => ([], next)
  | r :: rs, count, room, next =>
    let b := ledgerBytes r
    if count = 0 ∨ room < b.length then ([], next)
    else
      let (bs, n) := readRecords rs (count - 1) (room - b.length) (r.seq + 1)
      (b ++ bs, n)

/-- SEQ of the last record of a batch. -/
def LBatch.lastSeq (b : LBatch) : Nat := (b.records.getLast?.map (fun r => r.seq)).getD 0

/-- Whole batches in order until COUNT records or LENGTH is reached. -/
def readBatches (uid : W64) : List LBatch → Nat → Nat → Nat → Bytes × Nat
  | [], _, _, next => ([], next)
  | x :: xs, count, room, next =>
    let b := batchWhole uid x
    if count = 0 ∨ room < b.length then ([], next)
    else
      let (bs, n) := readBatches uid xs (count - x.records.length) (room - b.length) (x.lastSeq + 1)
      (b ++ bs, n)

/-- What a LEDGER_READ copies, and the next unread SEQ. -/
def State.ledgerRead (s : State) (c : Cmd) : Bytes × Nat :=
  let lo := c.arg 0x20 4
  let type := c.arg 0x28 2
  let room := c.arg 0x38 4
  let batches := s.flash.batches.reverse
  let records := (batches.flatMap (fun b => b.records)).filter (fun r => type == 0 || r.type == type)
  if c.arg 0x2A 1 ≠ 0 then readRecords (records.getLast?.toList) 1 room lo
  else if type = 0 then
    readBatches s.fuses.uid (batches.filter (fun b => decide (lo ≤ b.lastSeq))) (c.arg 0x24 4) room lo
  else readRecords (records.filter (fun r => decide (lo ≤ r.seq))) (c.arg 0x24 4) room lo

/-- LEDGER_READ: what is to be copied is settled as the command takes effect, and answered at once; LEDGER_READ_DONE
ends the copying. -/
def execLedgerRead (m : Fin 16) (s : State) : Outcome :=
  .next (s.runCommand m 0x060A
    (fun c _ => [c.lenAtLeast 28])
    (fun _ => statesOf 0x060A) (fun _ _ => [])
    (fun c s =>
      let (b, n) := s.ledgerRead c
      (s.modHealth (fun h => { h with reads := h.reads ++ [(m.val, c.seq, c.arg 0x30 8, b)] }),
       leBytes 4 b.length ++ leBytes 4 n, true)))

/-- LEDGER_READ_DONE (R581): the records lie in the buffer. -/
def execLedgerReadDone (m : Fin 16) (s : State) : Outcome :=
  .next (
    match s.health.reads.find? (fun r => r.1 == m.val) with
    | none => s
    | some r =>
      let live := (s.mbox m).long.any (fun l => l.seq == r.2.1 && l.opcode == 0x060A)
      let s := if live then s.wrCompanion r.2.2.1 r.2.2.2 else s
      (s.modHealth (fun h => { h with reads := h.reads.erase r })).commandDone m r.2.1 0x060A .ok)

end Sys2Proof.Machine
end

