-- ==== Sys2Proof/Machine/Power.lean ====
section
/-! DEFINITION. Power states: POWER_SET and RETENTION_SELECT (R626 to R630), the entry to NIGHT and the wake (R631 to R634),
PREPARE_REMOVAL (R646 to R649), and DEV_UNFENCE (R591), which may lead back into NIGHT. -/

namespace Sys2Proof.Machine

/-! ## Entry to NIGHT, steps 1 to 3 of Table 21-3 -/

/-- Every debug hold ends as FOLD_DEBUG_RELEASE would (R632). -/
def State.endHolds (s : State) : State :=
  s.forEach (List.range 32) (fun f s =>
    let u : UnitId := ⟨.fold, f⟩
    if (s.unit u).debug then s.endDebug u else s)

/-- A context slot whose RESIDE or RELEASE is under way loses it with JOB_LOST. -/
def State.loseContext (f k : Nat) (s : State) : State :=
  let c := (s.fold f).slot k
  if c.radio then s
  else
    match c.state, c.task, c.relTask with
    | .residing, some n, _ => (s.failTask .jobLost n).leaveNow c.inst c.ctxId
    | _, _, some n =>
      (s.failTask .jobLost n).forEach (s.slotsOf c.inst c.ctxId) (fun p s =>
        s.modFold p.1 (fun x => x.modSlot p.2 (fun c => { c with relTask := none })))
    | _, _, none => s

/-- Every grazing task that has started completes with JOB_LOST. -/
def State.loseGrazing (s : State) : State :=
  let s := s.forEach s.grazingTasks (fun n s => s.loseTask n .jobLost)
  s.forEach (List.range 32) (fun f s => s.forEach (List.range 8) (fun k s => s.loseContext f k))

/-- Grazing DMA descriptors in progress stop (R392). -/
def State.stopGrazingDma (s : State) : State :=
  let s := s.forEach (List.range 32) (fun f s => s.forEach (List.range 8) (fun k s =>
    let c := (s.fold f).slot k
    if c.state = .empty ∨ c.radio then s else s.dmaLose f k))
  s.forEach (List.range 64) (fun e s => s.modDma e (fun x => { x with grazingRun := x.grazingRun.map (DmaRun.stop .jobLost) }))

/-- Long commands that the entry to NIGHT makes impossible end with CANCELLED (R96, Table 21-3). -/
def State.nightCancels (s : State) : State :=
  let s := s.forEach s.health.retests (fun r s => s.cancelAt r.1 r.2.1 0x0602)
  let s := s.forEach s.health.sweeps (fun r s => s.cancelAt r.1 r.2.1 0x0603)
  let s := match s.radio.nrx.pending with
    | some (_, _, m, q) => s.cancelAt m q 0x0206
    | none => s
  (s.modHealth (fun h => { h with retests := [], sweeps := [] })).modNrx (fun n => { n with pending := none })

/-- The device starts to enter NIGHT: steps 1 to 3; fills and drains then take no new chunk (R631, R632). `cmd` is the
command to be told, `removing` says that it is PREPARE_REMOVAL. -/
def State.beginNight (cmd : Option (Nat × Nat)) (removing : Bool) (s : State) : State :=
  let s := s.endHolds
  let s := s.setDevice .night
  let s := s.modPower (fun p => { p with entering := true, nightCmd := cmd, removing, event := p.event ||| 1 })
  s.nightCancels.loseGrazing.settleHolds.endHolds.stopGrazingDma

/-! ## Steps 4 to 7 -/

/-- The device takes back every line of HBM, and gives back every T2 line, dirty ones with their data. -/
def State.endCoherence (s : State) : State :=
  let s := s.forEach (s.power.filter.map (fun p => p.1)) (fun l s => (s.recallNow (64 * l) 64 true).endRecall l)
  let s := s.forEach s.power.t2Lines (fun p s =>
    if p.2.1 = .exclusiveDirty then s.wrCompanion (64 * p.1) p.2.2 else s)
  s.modPower (fun p => { p with t2Lines := [] })

/-- Fabric ports that stay UP: NIGHT_PORTS, none for a removal (R630, R647). -/
def State.portsKept (s : State) : W32 := if s.power.removing then 0 else s.power.nightPorts

/-- Fronthaul lanes that stay UP: those the time block names, at most 4, the lowest first (Table 21-2). -/
def State.lanesKept (s : State) : List Nat :=
  let m := s.time.primary.slaveLanes ||| s.time.mirror.slaveLanes ||| s.time.masterLanes
  ((List.range 32).filter (fun l => m.getLsbD l && (s.lane l).linkUp)).take 4

/-- Ports outside NIGHT_PORTS and lanes outside Table 21-2 go down. -/
def State.portsDown (s : State) : State :=
  let ports := s.portsKept
  let lanes := s.lanesKept
  let s := s.forEach ((List.range 32).filter (fun p => !ports.getLsbD p)) (fun p s =>
    (s.leaveUp p .disabled true).modLink p (fun x => { x with link := .disabled, phase := 0, heldReason := 0 }))
  s.forEach ((List.range 32).filter (fun l => !lanes.contains l)) (fun l s =>
    s.modLane l (fun x => { x with linkUp := false, training := false }))

/-- The unit is gated in NIGHT (Table 21-2). -/
def State.gated (s : State) (u : UnitId) : Bool :=
  match u.ty with
  | .device | .die | .stack => false
  | .ctlCore => u.idx == 0 || u.idx == 1 || u.idx == 4
  | .fabPort => !s.portsKept.getLsbD u.idx
  | .fhPort => s.lanesKept.all (fun l => l / 4 != u.idx)
  | _ => true

/-- The unit keeps its SRAM in this NIGHT: its region is selected and it is one that sleeps (R630, R632). -/
def State.keeps (s : State) (u : UnitId) : Bool :=
  ((s.unit u).state.accepts || decide ((s.unit u).state = .sleeping)) &&
  (match u.ty with
   | .fold => decide (u.idx < 32) && s.power.retFolds.getLsbD u.idx
   | .commons => bitOf s.power.retCommons u.idx
   | .die => decide (u.idx = 2) && s.power.retRadio
   | _ => false)

/-- The regions of RETENTION_SELECT with their spaces and sizes. -/
def regions : List (UnitId × Space × Nat) :=
  (List.range 32).map (fun f => (⟨.fold, f⟩, .sram f, sramSpan)) ++
    [(⟨.commons, 0⟩, .commons 0, 384 * 2 ^ 20), (⟨.commons, 1⟩, .commons 1, 384 * 2 ^ 20),
     (⟨.die, 2⟩, .radio, 0x14000000 + 384 * 524288)]

/-- A dirty chunk of a copy is written back to the copy or range below it (R370, step 6). -/
def State.writeBack (e t k : Nat) (s : State) : State :=
  let o := s.obj e
  match o.copy t with
  | none => s
  | some c =>
    match o.drainTo t k with
    | none => s
    | some (low, sp, a) =>
      let (s, bad) := s.placeChunk (c.place' 0 k) (sp, a) false []
      let s := s.modCopy e t (fun c => { c with dirty := c.dirty.filter (fun i => i != k) })
      match low with
      | some (t', p) => if bad then s.notePoison e t' p k false else s
      | none => s

/-- Dirty chunks of writable T0 copies with a part in a region that is not kept. -/
def State.dirtyIn (s : State) (lost : List Space) : List (Nat × Nat) :=
  s.tiers.objs.flatMap (fun p => p.2.copies.flatMap (fun c =>
    if c.tier = 0 ∧ !p.2.readonly ∧ c.parts.any (fun x => lost.contains x.space) then c.dirty.map (fun k => (p.1, k)) else []))

/-- Checksums of the chunks of a space (R62). -/
def State.spaceSums (s : State) (sp : Space) (n : Nat) : List (Nat × Nat) :=
  (List.range (n / chunkSize)).map (fun i => (i * chunkSize, chunkSum (s.rd sp (i * chunkSize) chunkSize)))

/-- A mask of the folds or commons for which `f` holds. -/
def maskOf (n : Nat) (f : Nat → Bool) : Nat := ((List.range n).map (fun i => b2n (f i) * 2 ^ i)).sum

/-- Write back, take the checksums, let go of what is not kept. -/
def State.keepRegions (s : State) : State :=
  let kept := regions.filter (fun r => s.keeps r.1)
  let lost := (regions.filter (fun r => !s.keeps r.1)).map (fun r => r.2.1)
  let s := s.forEach (s.dirtyIn lost) (fun p s => s.writeBack p.1 0 p.2)
  let folds := maskOf 32 (fun f => s.keeps ⟨.fold, f⟩)
  let commons := maskOf 2 (fun d => s.keeps ⟨.commons, d⟩)
  let ports := s.portsKept
  let sums := kept.foldl (fun t r => tset [] t r.2.1.code (s.spaceSums r.2.1 r.2.2)) []
  let s := s.modPower (fun p => { p with
    retFoldsIn := BitVec.ofNat 32 folds, retCommonsIn := commons, retRadioIn := s.keeps ⟨.die, 2⟩, nightPortsIn := ports
    retainedSums := sums })
  s.forEach lost (fun sp s => s.wipeSpace sp)

/-- Every gated unit in service sleeps. -/
def State.sleepUnits (s : State) : State :=
  s.forEach (allUnits.filter (fun u => s.gated u && (s.unit u).state.accepts)) (fun u s => s.setUnit u .sleeping)

/-- POWER_SET full takes effect in NIGHT (R632, R633): gated units that are FENCED start anew, sleeping ones wake, and the
radio buffer, where it was kept, is to be checked. -/
def State.leaveNight (s : State) : State :=
  let s := (s.setDevice .serving).modPower (fun p => { p with removalReady := false, event := p.event ||| 1 })
  let s := s.wakeAll
  let s := s.forEach (allUnits.filter (fun u => s.gated u && decide ((s.unit u).state = .fenced) && !(s.unit u).debug))
    State.startUnit
  if s.power.retRadioIn then s.setEntry ⟨.die, 2⟩ (fun e => { e with retainedUnverified := true }) else s

/-- What ends an entry to NIGHT: a removal's POWER record goes to flash at once and REMOVAL_READY is set (R647); the command
is done; a POWER_SET full that came meanwhile takes effect (R634). -/
def State.nightReached (s : State) : State :=
  let s := if s.power.removing then
      ((s.ledger 16 theDevice (.power 5 s.flash.powerCycles)).closeBatch).modPower (fun p =>
        { p with removalReady := true, event := p.event ||| 16 })
    else s
  let s := match s.power.nightCmd with
    | some (m, q) => s.commandDone m q (if s.power.removing then 0x0802 else 0x0801) .ok
    | none => s
  let s := s.modPower (fun p => { p with entering := false, removing := false, nightCmd := none })
  match s.power.wakeAfter with
  | [] => s
  | l => ((s.modPower (fun p => { p with wakeAfter := [] })).leaveNight).forEach l (fun p s => s.commandDone p.1 p.2 0x0801 .ok)

/-- No chunk is in transit (step 3). -/
def State.moversQuiet (s : State) : Bool := s.tiers.movers.all (fun p => p.2.chans.all (fun q => q.2.isNone))

/-- NIGHT_ENTRY_DONE (R631): steps 4 to 7, once no chunk is in transit. -/
def execNightEntryDone (s : State) : Outcome :=
  .next (
    if !(s.dev.dstate = .night ∧ s.power.entering) || !s.moversQuiet then s
    else
      let s := s.endCoherence.portsDown.keepRegions.sleepUnits
      let s := s.modPower (fun p => { p with
        nightEntries := satInc 32 p.nightEntries, fyf := if p.fyf = .active then .night else p.fyf })
      s.nightReached)

/-! ## POWER_SET, RETENTION_SELECT -/

/-- Device states that allow POWER_SET by its TARGET (Table 03-6, R100). -/
def powerStates (c : Cmd) : List Nat :=
  match c.arg 0x20 1 with
  | 0 => [4, 5]
  | 1 => [3]
  | _ => [4, 7]

/-- POWER_SET (R627, R631, R633, R634). -/
def execPowerSet (m : Fin 16) (s : State) : Outcome :=
  .next (s.runCommand m 0x0801
    (fun c _ => [c.lenIs 1, failIf (decide (2 < c.arg 0x20 1)) .badArg])
    powerStates
    (fun c s => [if c.arg 0x20 1 = 2 then s.cellsInUse else none])
    (fun c s =>
      match c.arg 0x20 1 with
      | 0 =>
        if s.dev.dstate ≠ .night then
          ((s.setDevice .serving).modPower (fun p => { p with event := p.event ||| 1 }), [], false)
        else if s.power.entering then (s.modPower (fun p => { p with wakeAfter := p.wakeAfter ++ [(m.val, c.seq)] }), [], true)
        else (s.leaveNight, [], false)
      | 1 => ((s.setDevice .dusk).modPower (fun p => { p with event := p.event ||| 1 }), [], false)
      | _ => (s.beginNight (some (m.val, c.seq)) false, [], true)))

/-- RETENTION_SELECT (R630). -/
def execRetentionSelect (m : Fin 16) (s : State) : Outcome :=
  .next (s.runCommand m 0x0803
    (fun c _ => [c.lenAtLeast 12,
      failIf (decide (4 < ((List.range 32).filter (fun i => bitOf (c.arg 0x28 4) i)).length)) .badArg])
    (fun _ => statesOf 0x0803) (fun _ _ => [])
    (fun c s => (s.modPower (fun p => { p with
      retFolds := BitVec.ofNat 32 (c.arg 0x20 4), retCommons := c.arg 0x24 1 % 4, retRadio := bitOf (c.arg 0x25 1) 0
      nightPorts := BitVec.ofNat 32 (c.arg 0x28 4) }), [], false)))

/-! ## PREPARE_REMOVAL (R647, R648) -/

/-- PREPARE_REMOVAL: the change to DRAINING makes an ASSUME under way impossible to finish (R96); while a core with shepherd
duties restarts nothing changes the admitted cells (R42). -/
def execPrepareRemoval (m : Fin 16) (s : State) : Outcome :=
  .next (s.runCommand m 0x0802
    (fun c _ => [c.lenAtLeast 8, failIf (decide (1 < c.arg 0x20 1 ∨ 10000 < c.arg 0x24 4)) .badArg])
    (fun _ => statesOf 0x0802)
    (fun c s => [failIf (s.changesBlocked || (c.arg 0x20 1 == 1 && !(s.node (c.arg 0x22 2)).live)) .notReady])
    (fun c s =>
      let evac := c.arg 0x20 1 == 1
      let ms := if c.arg 0x24 4 = 0 then 100 else c.arg 0x24 4
      let s := (s.setDevice .draining).cancelAssume
      let s := if evac then s
        else s.forEach (s.reservedCells.map (fun p => p.1)) (fun k s =>
          s.modCell k (fun x => { x with state := .removing, next := none, assumed := false }))
      (s.modPower (fun p => { p with removal := some (m.val, c.seq, evac, c.arg 0x22 2, s.time.now + 1000000 * ms,
        s.time.now + 2000000000) }), [], true)))

/-- No grazing task is placed or running. -/
def State.grazingDone (s : State) : Bool :=
  s.disp.tasks.all (fun p => match p.2 with | some t => t.desc.inst == 0 | none => true)

/-- REMOVAL_DRAIN_DONE (R647): with the last cell UNUSED and no grazing task running the device enters NIGHT. -/
def execRemovalDrainDone (s : State) : Outcome :=
  .next (
    match s.power.removal with
    | none => s
    | some (m, q, _) =>
      if s.dev.dstate ≠ .draining || !s.reservedCells.isEmpty || !s.grazingDone then s
      else (s.modPower (fun p => { p with removal := none })).beginNight (some (m, q)) true)

/-- DRAIN_TIMEOUT (R647): DRAIN_MS after the command, grazing tasks that still run end with JOB_LOST. -/
def execDrainTimeout (now : Nat) (s : State) : Outcome :=
  .next (
    let s := s.at now
    match s.power.removal with
    | some (_, _, _, _, drain, _) => if s.dev.dstate = .draining ∧ drain ≤ s.time.now then s.loseGrazing else s
    | none => s)

/-- EVACUATE_TIMEOUT (R648): the target has not taken every cell 2 s after the command. -/
def execEvacuateTimeout (now : Nat) (s : State) : Outcome :=
  .next (
    let s := s.at now
    match s.power.removal with
    | some (_, _, true, _, _, evac) => if evac ≤ s.time.now && !s.reservedCells.isEmpty then s.cancelRemoval else s
    | _ => s)

/-! ## DEV_UNFENCE (R591) -/

/-- The certificate that the arguments hold, with its signature. -/
def certArg (c : Cmd) : Bytes := c.args.take (0x82 + fieldAt c.args 0x80 2)

/-- The certificate that DEV_UNFENCE names does not lift this fence, check 10 of R90 (R591): a signature verifies where the
session keys of this incarnation have made it (log entry 81). -/
def State.unfenceBad (s : State) (c : Cmd) : Bool :=
  let b := certArg c
  !s.health.certificates.contains b ||
    decide (fieldAt b 8 8 ≠ s.fuses.uid.toNat ∨ fieldAt b 0x10 4 ≠ s.deviceInc ∨ byteAt b 6 = 0 ∨ fieldAt b 0x28 8 < s.health.fencedAt)

/-- The state that DEV_UNFENCE leads to (Table 03-6). -/
def unfenceTo : DState → DState
  | .loaded => .loaded
  | .configuring => .configuring
  | .night => .night
  | _ => .serving

/-- DEV_UNFENCE; back in NIGHT the device enters it again by the steps of Table 21-3 (R98). -/
def execDevUnfence (m : Fin 16) (s : State) : Outcome :=
  .next (s.runCommand m 0x0605
    (fun c _ => [failIf (!c.indirect || decide (c.argLength < 0x82)) .badArg])
    (fun _ => statesOf 0x0605) (fun c s => [failIf (s.unfenceBad c) .badArg])
    (fun _ s =>
      let dst := unfenceTo s.dev.fencedFrom
      (if dst = .night then s.beginNight none false else s.setDevice dst, [], false)))

end Sys2Proof.Machine
end

