-- ==== Sys2Proof/Machine/Security.lean ====
section
/-! DEFINITION. MEASURE_READ (R612), session keys and signing (R616 to R619), attestation over MCTP (R620 to R624). -/

namespace Sys2Proof.Machine

/-- MEASURE_READ (R612). -/
def execMeasureRead (m : Fin 16) (s : State) : Outcome :=
  .next (s.runCommand m 0x0702
    (fun c _ => [failIf (c.argLength != 0 && decide (15 < c.arg 0x20 1)) .badArg])
    (fun _ => statesOf 0x0702) (fun _ _ => [])
    (fun c s =>
      let f := if c.argLength = 0 then 0 else c.arg 0x20 1
      (s, s.measuresFrom f (min (f + 6) 15 + 1 - f), false)))

/-! ## Session keys (R616) -/

/-- The first key of a boot. -/
def State.firstKey (s : State) : State :=
  match s.certify 0 with
  | (some c, s) => s.modSec (fun x => { x with sessionReady := true, sessionSeq := 0, sessionNext := 0, sessionCert := c })
  | (none, s) => s.modSec (fun x => { x with sessionNext := 65536 })

/-- The next key, generated in the background. -/
def State.renewKey (s : State) : State :=
  match s.certify (s.sec.sessionSeq + 1) with
  | (some c, s) => (s.modSec (fun x => { x with nextCert := some c })).switchKey
  | (none, s) => s.modSec (fun x => { x with renewing := false })

/-- SESSION_KEY_READY (R614 to R616). Nothing happens while control core 7 restarts (R39). -/
def execSessionKeyReady (s : State) : Outcome :=
  .next (
    if (s.core 7).restarting then s else
    if s.dev.dstate = .rom then s
    else if !s.sec.sessionReady then (if 65536 ≤ s.sec.sessionNext then s else s.firstKey)
    else if s.sec.renewing && s.sec.nextCert.isNone then s.renewKey
    else s)

/-! ## Signing (R617 to R619, R624) -/

def SignReq.isFirst : SignReq → Bool
  | .batch _ | .certificate _ => true
  | _ => false

def SignReq.isQuote : SignReq → Bool
  | .quote .. => true
  | _ => false

/-- The request served next (R618). -/
def Sec.nextReq (x : Sec) : Option SignReq :=
  match x.queue.find? SignReq.isFirst with
  | some r => some r
  | none =>
    match x.queue.find? SignReq.isQuote with
    | some r => some r
    | none => x.queue.head?

/-- A response of the attestation protocol: the header of Table 20-5 with the version the device offers, then the body. -/
def attestMessage (code tag : Byte) (st : Status) (body : Bytes) : Bytes :=
  [0x7F#8, 0#8, 0#8, 0xD2#8, 0x6B#8, 1#8, 0#8, code, tag, 0#8] ++ leBytes 2 st.code ++ body

/-- An answer of the attestation protocol, bit 7 of CODE set (R620, R621). -/
def State.answer (code tag : Byte) (st : Status) (body : Bytes) (s : State) : State :=
  s.emit (.mctp (attestMessage (code ||| 0x80#8) tag st body))

/-- BATCH_SEQ of the latest batch. -/
def Flash.lastBatch (f : Flash) : Nat := match f.batches with | b :: _ => b.seq | [] => 0

/-- A quote before its signature (Table 20-7). -/
def State.quoteBytes (s : State) (nonce : Bytes) (mask : W16) : Bytes :=
  let (i, root) := s.sec.lastRoot.getD (0xFFFFFFFF, List.replicate 32 0#8)
  leBytes 4 0x514E564D ++ leBytes 8 s.fuses.uid.toNat ++ leBytes 4 s.deviceInc ++ fixLen 32 nonce ++ leBytes 2 mask.toNat ++
    leBytes 1 s.dev.dstate.code ++ leBytes 1 s.sec.ext8 ++ leBytes 1 s.sec.ext9 ++ leBytes 1 s.sec.ext10 ++
    leBytes 16 Config.classString.toNat ++ leBytes 4 s.flash.lastBatch ++ leBytes 4 i ++ fixLen 32 root ++
    leBytes 2 (16384 - s.fuses.idSteps) ++ leBytes 4 s.sec.sessionSeq ++
    ((List.range 16).filter (fun k => mask.getLsbD k)).flatMap s.measure

/-- The block a signed root covers (R619). -/
def State.rootBlock (s : State) (interval start endAt leaves dropped : Nat) (root : Bytes) : Bytes :=
  [0x4D, 0x56, 0x4E, 0x2D, 0x52, 0x54] ++ leBytes 8 s.fuses.uid.toNat ++ leBytes 4 s.deviceInc ++ leBytes 4 interval ++
    leBytes 8 start ++ leBytes 8 endAt ++ leBytes 4 leaves ++ leBytes 4 dropped ++ fixLen 32 root ++ [0#8, 0#8]

/-- The bytes a request has signed. -/
def State.signBytes (s : State) : SignReq → Bytes
  | .batch q => match s.flash.batches.find? (fun b => b.seq == q) with
    | some b => batchBytes s.fuses.uid b
    | none => []
  | .certificate b => b
  | .quote _ nonce mask => s.quoteBytes nonce mask
  | .root i a e l d r => s.rootBlock i a e l d r

/-- The oldest RETEST that waits for a certificate ends with a status. -/
def State.endRetest (cert : Bytes) (st : Status) (s : State) : State :=
  match s.health.certifying.find? (fun p => p.2.2 == cert) with
  | none => s
  | some p => (s.modHealth (fun h => { h with certifying := h.certifying.erase p })).commandDone p.1 p.2.1 0x0602 st

/-- What follows a signature over `msg`. -/
def State.signed (r : SignReq) (msg sig : Bytes) (s : State) : State :=
  match r with
  | .batch q =>
    { s with flash := { s.flash with batches := s.flash.batches.map (fun b => if b.seq = q then { b with signature := some sig } else b) } }
  | .certificate b =>
    let cert := b ++ leBytes 2 2692 ++ sig
    let s := s.ledger 18 theDevice (.certificate cert)
    (s.modHealth (fun h => { h with certificates := cert :: h.certificates })).endRetest b .ok
  | .quote tag _ _ =>
    (s.modSec (fun x => { x with quotes := satInc 32 x.quotes })).answer 3#8 tag .ok (msg ++ leBytes 2 2692 ++ sig)
  | .root i _ _ _ _ root =>
    let s := s.forEach (List.range 25) (fun k s => s.provPut (sigRecord i k 25 ((sig.drop (112 * k)).take 112)))
    s.modSec (fun x => { x with roots := ({ interval := i, block := msg, signature := sig } :: x.roots).take 64, lastRoot := some (i, root) })

/-- A request that can no longer be signed (R617). -/
def State.unsigned (r : SignReq) (s : State) : State :=
  match r with
  | .batch q =>
    { s with flash := { s.flash with batches := s.flash.batches.map (fun b => if b.seq = q then { b with signature := some [] } else b) } }
  | .certificate b => s.endRetest b .denied
  | .quote tag _ _ => s.answer 3#8 tag .denied []
  | .root .. => s

/-- SIGN_REQUEST_DONE (R617, R618): at most 200 in a second. Nothing happens while control core 7 restarts (R39). -/
def execSignRequestDone (now : Nat) (s : State) : Outcome :=
  .next (
    let s := s.at now
    if (s.core 7).restarting then s else
    let recent := s.sec.signTimes.filter (fun t => decide (s.time.now < t + 1000000000))
    match s.sec.nextReq with
    | none => s
    | some r =>
      let take := fun (s : State) => s.modSec (fun x => { x with queue := x.queue.erase r })
      if s.sec.spent then (take s).unsigned r
      else if 200 ≤ recent.length then s
      else
        let s := s.switchKey
        let msg := s.signBytes r
        match s.sessionSign msg with
        | none => s
        | some (sig, s) => (take (s.modSec (fun x => { x with signTimes := s.time.now :: recent }))).signed r msg sig)

/-! ## Attestation messages (Tables 20-5 and 20-6) -/

/-- The endpoint runs: out of reset. -/
def State.attests (s : State) : Bool := s.pkg.resetHigh && !s.pkg.latched

/-- Answer a request: nothing in reset, VERSION for another major, else `f` (R621). -/
def State.attest (code major tag : Byte) (f : State → State) (s : State) : State :=
  if !s.attests then s else if major ≠ 1 then s.answer code tag .version [] else f s

/-- GET_VERSION (R621). -/
def execGetVersion (major _minor tag : Byte) (s : State) : Outcome :=
  .next (s.attest 1 major tag (fun s => s.answer 1 tag .ok [1#8, 0#8]))

/-- The certificate that GET_CERT serves: the identity's only where its SUBJECT_KEY is the derived key (R613). -/
def State.certOf (s : State) (kind : Nat) : Option Bytes :=
  if kind = 1 then
    (if ((s.flash.identityCert.drop 0x20).take 68) = fixLen 68 (Config.publicKey identityKey) then some s.flash.identityCert else none)
  else if s.sec.sessionReady then some s.sec.sessionCert else none

/-- GET_CERT (R621, R622). -/
def execGetCert (major tag : Byte) (body : Bytes) (s : State) : Outcome :=
  .next (s.attest 2 major tag (fun s =>
    let kind := byteAt body 0
    let off := fieldAt body 1 2
    if s.dev.dstate = .rom ∧ kind ≠ 1 then s.answer 2 tag .notReady []
    else if body.length ≠ 3 ∨ !(kind = 1 ∨ kind = 2) then s.answer 2 tag .badArg []
    else
      match s.certOf kind with
      | none => s.answer 2 tag .notReady []
      | some c =>
        if c.length < off then s.answer 2 tag .badArg []
        else s.answer 2 tag .ok (leBytes 2 c.length ++ (c.drop off).take 1024)))

/-- A quote refused with CAPACITY and counted (R618, R624). -/
def State.refuseQuote (tag : Byte) (s : State) : State :=
  (s.modSec (fun x => { x with quoteRate := satInc 32 x.quoteRate, event := x.event ||| 8 })).answer 3#8 tag .capacity []

/-- GET_QUOTE (R617, R618, R622, R624). -/
def execGetQuote (now : Nat) (major tag : Byte) (body : Bytes) (s : State) : Outcome :=
  .next ((s.at now).attest 3 major tag (fun s =>
    let recent := s.sec.quoteTimes.filter (fun t => decide (s.time.now < t + 1000000000))
    if s.dev.dstate = .rom then s.answer 3 tag .notReady []
    else if body.length ≠ 34 then s.answer 3 tag .badArg []
    else if s.sec.spent then s.answer 3 tag .denied []
    else if !s.sec.sessionReady then s.answer 3 tag .notReady []
    else if 64 < s.sec.queue.length ∨ 10 ≤ recent.length then s.refuseQuote tag
    else
      (s.modSec (fun x => { x with quoteTimes := s.time.now :: recent })).enqueue
        (.quote tag (body.take 32) (BitVec.ofNat 16 (fieldAt body 32 2)))))

/-- GET_ROOT (R622, R623). -/
def execGetRoot (major tag : Byte) (body : Bytes) (s : State) : Outcome :=
  .next (s.attest 4 major tag (fun s =>
    if s.dev.dstate = .rom then s.answer 4 tag .notReady []
    else if body.length ≠ 4 then s.answer 4 tag .badArg []
    else
      match s.sec.roots.find? (fun r => r.interval == fieldAt body 0 4) with
      | some r => if s.sec.sessionReady then s.answer 4 tag .ok (r.block ++ r.signature) else s.answer 4 tag .notReady []
      | none => s.answer 4 tag .notReady []))

/-- GET_LEDGER_HEAD (R621). -/
def execGetLedgerHead (major tag : Byte) (body : Bytes) (s : State) : Outcome :=
  .next (s.attest 5 major tag (fun s =>
    if s.dev.dstate = .rom then s.answer 5 tag .notReady []
    else if !body.isEmpty then s.answer 5 tag .badArg []
    else
      match s.flash.batches with
      | [] => s.answer 5 tag .notReady []
      | b :: _ => s.answer 5 tag .ok (leBytes 4 b.seq ++ shake256 32 (batchWhole s.fuses.uid b) ++ leBytes 4 (s.ledgerFree / 1024))))

/-- UNKNOWN_ATTESTATION_CODE (R621, R622). -/
def execUnknownAttestationCode (major code tag : Byte) (s : State) : Outcome :=
  .next (s.attest code major tag (fun s =>
    if 1 ≤ code.toNat ∧ code.toNat ≤ 5 then s
    else s.answer code tag (if s.dev.dstate = .rom then .notReady else .unknownOpcode) []))

end Sys2Proof.Machine
end

