-- ==== Sys2Proof/Machine/Package.lean ====
section
/-! DEFINITION. Pins and supplies (chapter 22): thermal limits (R664), the brake (R666), rail faults and power loss (R657,
R658), the sharing of the card's flash (R662), the test port (R663). -/

namespace Sys2Proof.Machine

/-! ## The clock of the fold islands (R28, R664, R666) -/

/-- Floor of fold derating, in kHz (R28). -/
def foldFloor : Nat := 1800000

/-- The clock the fold islands are to run at: the brake's, or the nominal one less the derating by temperature (R664) and,
on a part of grade 1400, by the package limit (R3, R28, Table 22-10), the larger of the two. -/
def Package.foldClock (p : Package) : Nat :=
  if p.brakeLow then foldFloor else max foldFloor (nominalKhz .fold - max p.derate p.gradeDerate)

/-- Firmware holds a part of grade 1400 within 1,400 W by derating its folds; the power it meets, and so the derating, is a
free value at each sample (log entry 84). -/
def State.deriveGrade (s : State) : State :=
  if s.pkg.grade1400 then
    let (k, s) := s.takeFree 20
    s.modPkg (fun p => { p with gradeDerate := k.toNat })
  else s

/-- Each fold island is asked for the clock; it takes it under R27. -/
def State.askFoldClocks (s : State) : State :=
  let k := s.pkg.foldClock
  let want := if k = nominalKhz .fold then none else some k
  s.forEach (List.range 34) (fun f s =>
    let ask := fun (i : Island) => if i.clock = want then { i with requested := none } else { i with requested := some want }
    { s with dev := { s.dev with islands := tmod {} s.dev.islands (islandKey .fold f) ask } })

/-- PWR_BRAKE (R666). -/
def execPwrBrake (low : Bool) (s : State) : Outcome := .next ((s.modPkg (fun p => { p with brakeLow := low })).askFoldClocks)

/-! ## Thermal limits (Table 22-9), in 1/16 °C -/

/-- Dies 0 to 4 are logic dies, 16 to 31 stacks. -/
def isDie (d : Nat) : Bool := decide (d < 5 ∨ (16 ≤ d ∧ d < 32))
def junctionLimit (d : Nat) : Int := if d < 16 then 105 * 16 else 95 * 16
def tripLimit (d : Nat) : Int := if d < 16 then 115 * 16 else 105 * 16

/-- Some die is above its junction limit. -/
def anyHot (r : Readings) : Bool := r.any (fun p => isDie p.1 && decide (junctionLimit p.1 < p.2))

/-- Some logic die is at or above the threshold of fold derating. -/
def anyDerate (r : Readings) : Bool := r.any (fun p => decide (p.1 < 5) && decide (100 * 16 ≤ p.2))

/-- Some die has reached its trip threshold. -/
def anyTrip (r : Readings) : Bool := r.any (fun p => isDie p.1 && decide (tripLimit p.1 ≤ p.2))

/-- Time `dt` is spent by every die in the 5 °C band of its last reading, counted from 20 °C to 120 °C. -/
def addHist (dt : Nat) (r : Readings) (h : List (Nat × List (Nat × Nat))) : List (Nat × List (Nat × Nat)) :=
  r.foldl (fun h p =>
    if isDie p.1 && decide (20 * 16 ≤ p.2 ∧ p.2 < 120 * 16) then
      tmod [] h p.1 (fun t => tmod 0 t ((p.2 - 20 * 16) / 80).toNat (fun n => n + dt))
    else h) h

/-- Steps of fold derating: 25 MHz more at each sample while a logic die stays at or above its threshold. -/
def nextDerate (hot : Bool) (d : Nat) : Nat := if hot then min (nominalKhz .fold - foldFloor) (d + 25000) else 0

/-- The minutes that a time above a junction limit makes up, each a unit of evidence (Table 19-1, code 17). -/
def State.hotEvidence : Nat → State → State
  | 0, s => s
  | n + 1, s => State.hotEvidence n (s.evidence 17 none)

/-- THERMAL_SAMPLE (R28, R664, Table 19-1, Table 19-5). -/
def execThermalSample (now : Nat) (readings : Readings) (s : State) : Outcome :=
  .next (
    if !s.outOfReset then s
    else
      let s := s.at now
      let p := s.pkg
      let dt := if p.sampledAt = 0 then 0 else s.time.now + 1 - p.sampledAt
      let hot := if anyHot p.readings then p.hotFor + dt else p.hotFor
      let derate := nextDerate (anyDerate readings) p.derate
      let s := s.modPkg (fun p => { p with
        hist := addHist dt p.readings p.hist
        hotFor := hot % 60000000000
        warnLow := anyHot readings
        readings, derate
        sampledAt := s.time.now + 1 })
      let s := (s.hotEvidence (hot / 60000000000)).deriveGrade
      if s.pkg.foldClock = p.foldClock then s else s.askFoldClocks)

/-- The device goes into a reset that holds until BOARD_RESET_N has been low (R657). -/
def State.latchReset (s : State) : State := (s.modPkg (fun p => { p with latched := true, powerUp := true })).deviceReset

/-- THERMAL_TRIP (R664): every island stops and THERM_TRIP_N stays low until BOARD_RESET_N is taken low. -/
def execThermalTrip (readings : Readings) (s : State) : Outcome :=
  .next (if s.pkg.resetHigh && anyTrip readings then (s.modPkg (fun p => { p with tripLow := true })).latchReset else s)

/-! ## Supplies (R657, R658) -/

/-- RAIL_FAULT: records that wait are lost (R577). -/
def execRailFault (s : State) : Outcome := .next (if s.pkg.resetHigh then s.latchReset else s)

/-- The batch written last is signed at once. -/
def State.signLast (s : State) : State :=
  match s.flash.batches with
  | b :: _ =>
    if b.signature.isSome then s
    else
      let msg := batchBytes s.fuses.uid b
      match s.sessionSign msg with
      | some (sig, s) => s.signed (.batch b.seq) msg sig
      | none => s
  | [] => s

/-- PWR_FAIL (R658): the batch in progress is written with a POWER record of power-down and signed; then the reset of
R657. -/
def execPwrFail (s : State) : Outcome :=
  .next (
    if !s.outOfReset then s
    else
      let s := if s.dev.dstate = .rom then s
        else (s.ledger 16 theDevice (.power 2 s.flash.powerCycles)).closeBatch.signLast
      s.latchReset)

/-! ## The card's flash (R662) -/

/-- FLASH_REQUEST: granted once the operation in progress is over; in ROM only once the image has been read. -/
def execFlashRequest (s : State) : Outcome :=
  .next (s.modPkg (fun p => { p with
    flashAsked := true, flashGranted := p.flashGranted || decide (s.dev.dstate ≠ .rom) || s.sec.tried }))

/-- FLASH_RELEASE: the grant ends, the held batches are written in order, and units that waited for a reservation go on
(R59). -/
def execFlashRelease (s : State) : Outcome :=
  .next (
    let s := s.modPkg (fun p => { p with flashAsked := false, flashGranted := false })
    let held := s.health.heldBatches
    let s := s.modHealth (fun h => { h with heldBatches := [] })
    (s.forEach held State.writeBatch).retryWaiting)

/-! ## The test port (R663) -/

/-- IDCODE (R663). -/
def idcode : W32 := 0x1C160A27

/-- JTAG_INSTRUCTION: it acts only while BOARD_RESET_N is low. -/
def execJtagInstruction (i : Jtag) (s : State) : Outcome :=
  .next (
    if s.pkg.resetHigh then s
    else
      let s := s.modPkg (fun p => { p with jtag := some i })
      if i = .idcode then s.emit (.jtag idcode) else s)

end Sys2Proof.Machine
end

