-- ==== Sys2Proof/Machine/Provenance.lean ====
section
/-! DEFINITION. Provenance commands (chapter 17): PROVENANCE_SET and the end of an interval. -/

namespace Sys2Proof.Machine

/-- A field of Table 17-2 is out of range, or INSTANCE_MAP selects the radio (R539). -/
def provBad (c : Cmd) : Bool :=
  decide (1 < c.arg 0x20 1) || decide (60000 < c.arg 0x24 4) || c.arg 0x28 8 % 4096 != 0 ||
    decide (c.arg 0x30 1 < 10 ∨ 24 < c.arg 0x30 1) || bitOf (c.arg 0x40 32) 0

/-- The arguments of Table 17-2 come into force at `now` (R543, R547); from disabled the intervals are numbered from 0. -/
def Prov.apply (c : Cmd) (now : Nat) (was : Bool) (p : Prov) : Prov :=
  { p with
    enabled := c.arg 0x20 1 == 1
    intervalMs := if c.arg 0x24 4 = 0 then 1000 else c.arg 0x24 4
    logBase := c.arg 0x28 8
    log2 := c.arg 0x30 1
    instances := c.arg 0x40 32
    interval := if was then p.interval else 0
    start := now
    hashes := []
    droppedNow := 0 }

/-- PROVENANCE_SET (R539, R547). -/
def execProvenanceSet (m : Fin 16) (s : State) : Outcome :=
  .next (s.runCommand m 0x0701
    (fun c _ => [c.lenAtLeast 64, failIf (provBad c) .badArg])
    (fun _ => statesOf 0x0701)
    (fun _ _ => [])
    (fun c s =>
      let was := s.prov.enabled
      let s := if was then s.closeInterval s.time.now else s
      let s := s.modProv (Prov.apply c s.time.now was)
      (s.provFlush s.prov.heldRecords.length, [], false)))

/-- PROVENANCE_INTERVAL_END (R545). -/
def execProvenanceIntervalEnd (now : Nat) (s : State) : Outcome :=
  .next (
    let s := s.at now
    if s.prov.enabled ∧ s.prov.endsAt ≤ s.time.now then s.closeInterval s.prov.endsAt else s)

end Sys2Proof.Machine
end

