-- ==== Sys2Proof/Machine/Peloth.lean ====
section
/-! DEFINITION. The Peloth table as the control window shows it (chapter 02): header, unit entries with their CAPS and their
register blocks, interface versions, the bit-identity class, the end entry. -/

namespace Sys2Proof.Machine

/-! ## Register blocks (R34, R671) -/

/-- The unit has a register block (Table 02-3a). -/
def hasBlock (u : UnitId) : Bool :=
  match u.ty with
  | .fold => decide (u.idx < 32)
  | .device | .sigCore | .engine | .stackCtl | .fabPort | .fhPort | .dma | .commons | .collector => true
  | .die | .stack | .sigGroup | .ctlCore => false

def blockUnits : List UnitId := allUnits.filter hasBlock

/-- 4 KiB pages of a unit's block: those its maps reach into (log entry 3). -/
def regPages (u : UnitId) : Nat := if u.ty = .device then 11 else 1

/-- Pages of the unit register blocks are given to the units without overlap. -/
def placesOk (f : Nat → Nat) : Bool :=
  blockUnits.all (fun u => decide (f (unitKey u) + regPages u ≤ 4096) &&
    blockUnits.all (fun v => u == v || decide (f (unitKey u) + regPages u ≤ f (unitKey v) ∨ f (unitKey v) + regPages v ≤ f (unitKey u))))

/-- The first page of a unit's block among the unit register blocks: where the device places it, any places that R34 admits
(log entry 3). -/
def regPage (u : UnitId) : Nat :=
  if placesOk Config.regPlace then Config.regPlace (unitKey u)
  else if u.ty = .device then 0 else 11 + blockUnits.idxOf u

/-- REG_OFFSET and REG_SIZE of a unit's entry. -/
def regOffset (u : UnitId) : Nat := if hasBlock u then 0x03000000 + 4096 * regPage u else 0
def regSize (u : UnitId) : Nat := if hasBlock u then 4096 * regPages u else 0

/-- The unit whose block an offset of the control window lies in. -/
def blockAt (offset : Nat) : Option UnitId :=
  blockUnits.find? (fun u => decide (regOffset u ≤ offset ∧ offset < regOffset u + regSize u))

/-- IFACE_VERSION of a unit's entry (Table 02-3a). -/
def ifaceVersion (u : UnitId) : Nat := if hasBlock u then 0x0100 else 0

/-! ## CAPS -/

/-- CAPS of a radio engine (Table 09-15): MAX_SIZE, QUEUE_DEPTH, MAX_ITER, RATE; for polar and convolutional engines the rate
of Table 09-7 that counts information bits is that of encoding (log entry 94). -/
def engineCaps (e : Nat) : Nat :=
  let q : Nat × Nat × Nat := match engineSubtype e with
    | 0 => (4096, 0, 7200) | 1 => (384, 32, 40000) | 2 => (384, 0, 500000) | 3 => (1024, 0, 8000)
    | 4 => (6144, 8, 20000) | _ => (1024, 0, 4000)
  q.1 + 64 * 2 ^ 16 + q.2.1 * 2 ^ 24 + q.2.2 * 2 ^ 32

/-- CAPS of a fronthaul port (Table 13-11): 4 lanes, three modes, time-domain split, 8 classes, 512 policers. -/
def fhCaps : Nat := 4 + 7 * 2 ^ 4 + 2 ^ 7 + 8 * 2 ^ 8 + 512 * 2 ^ 16

/-- CAPS of a signal core (Table 08-10): 512 KiB, 128 KiB, 16 lanes, 3 loop levels. -/
def sigCoreCaps : Nat := 512 + 128 * 2 ^ 16 + 16 * 2 ^ 24 + 3 * 2 ^ 32

/-- CAPS of a unit that lacks nothing (R243, R271, R303, R377, R426, R496, R504, Table 05-2); no chapter defines any for dies,
stacks, control cores, stack controllers and commons. -/
def State.capsFull (s : State) (u : UnitId) : Nat :=
  match u.ty with
  | .device => s.fab.node.getD 0 + 2 ^ 12 * b2n s.fab.node.isSome
  | .fold => foldCaps.toNat
  | .sigCore => sigCoreCaps
  | .sigGroup => 8
  | .engine => engineCaps u.idx
  | .fabPort => (s.fport u.idx).caps
  | .fhPort => fhCaps
  | .dma => 16 + 0xFE * 2 ^ 8
  | .collector => 16
  | .die | .stack | .ctlCore | .stackCtl | .commons => 0

/-- CAPS of a unit's entry. -/
def State.caps (s : State) (u : UnitId) : Nat :=
  match (s.unit u).capsDegraded with | some c => c.toNat | none => s.capsFull u

/-! ## The table (R45 to R51, R67, R70) -/

/-- A unit entry (Table 02-3), 40 bytes. -/
def State.unitEntry (s : State) (u : UnitId) : Bytes :=
  let e := s.unit u
  leBytes 2 (typeCode u.ty) ++ leBytes 2 40 ++ leBytes 2 u.idx ++ leBytes 1 (unitDie u) ++
    leBytes 1 (if u.ty = .engine then engineSubtype u.idx else 0) ++
    leBytes 2 ((s.shown u).code + 2 ^ 4 * b2n e.retainedUnverified + 2 ^ 5 * b2n e.debug) ++ leBytes 2 (ifaceVersion u) ++
    leBytes 4 e.incarnation ++ leBytes 8 (s.caps u) ++ leBytes 4 (regOffset u) ++ leBytes 4 (regSize u) ++ leBytes 8 e.stateChange

/-- The interfaces offered, with their versions in descending major (Table 02-7). -/
def interfaces : List (Nat × List Nat) :=
  [(1, [0x0103]), (2, [0x0101]), (3, [0x0100]), (4, fabricOffer), (5, fyfoyxOffer), (6, [0x0101])]

/-- An interface version entry (R70), 16 bytes. -/
def ifaceEntry (i : Nat × List Nat) : Bytes :=
  leBytes 2 0x0100 ++ leBytes 2 16 ++ leBytes 1 i.1 ++ leBytes 1 i.2.length ++ leBytes 2 0 ++ fixLen 8 (i.2.flatMap (leBytes 2))

/-- The bit-identity class entry (Table 02-5a, R670), 32 bytes. -/
def classEntry : Bytes :=
  leBytes 2 0x0101 ++ leBytes 2 32 ++ leBytes 1 0x41 ++ leBytes 1 0 ++ leBytes 2 0x0301 ++ leBytes 2 12 ++ leBytes 2 7 ++
    leBytes 4 0 ++ leBytes 16 Config.classString.toNat

/-- The end entry. -/
def endEntry : Bytes := leBytes 2 0xFFFF ++ leBytes 2 8 ++ leBytes 4 0

/-- Entries of the table, the end entry included; and its length in bytes. -/
def entryCount : Nat := allUnits.length + interfaces.length + 2
def tableLength : Nat := 32 + 40 * allUnits.length + 16 * interfaces.length + 32 + 8

/-- The header (Table 02-1). -/
def State.tableHeader (s : State) : Bytes :=
  leBytes 4 0x544C4550 ++ leBytes 2 0x0100 ++ leBytes 2 0 ++ leBytes 4 tableLength ++ leBytes 2 entryCount ++ leBytes 2 0 ++
    leBytes 8 s.units.changeCount ++ leBytes 8 s.fuses.uid.toNat

/-- The Peloth table: nothing before it is published (R45). -/
def State.table (s : State) : Bytes :=
  if s.units.published then
    s.tableHeader ++ allUnits.flatMap s.unitEntry ++ interfaces.flatMap ifaceEntry ++ classEntry ++ endEntry
  else []

end Sys2Proof.Machine
end

