-- ==== Sys2Proof/Machine/Time.lean ====
section
/-! DEFINITION. The timing subsystem (chapter 14): PTP, the two servos, switching between domains, SyncE, the time
snapshot, timing pulse outputs and capture inputs. -/

namespace Sys2Proof.Machine

/-! ## Domains -/

/-- One nanosecond in the unit of the virtual times: 2^-16 of 10^-9 ns. -/
def fineNs : Int := 65536 * 1000000000

def TimeBlk.dom (t : TimeBlk) (mirror : Bool) : Domain := if mirror then t.mirror else t.primary
def TimeBlk.modDom (mirror : Bool) (f : Domain → Domain) (t : TimeBlk) : TimeBlk :=
  if mirror then { t with mirror := f t.mirror } else { t with primary := f t.primary }
def State.modDom (mirror : Bool) (f : Domain → Domain) (s : State) : State := s.modTime (TimeBlk.modDom mirror f)

/-- Move an amount out of one virtual time towards zero, by at most `m`. -/
def towards0 (v m : Int) : Int := if v < 0 then max v (-m) else min v m

/-- The virtual times run on to device time (R436); while SWITCHING, device time slews at 50 ppb towards the selected
domain's (R438). -/
def TimeBlk.run (t : TimeBlk) : TimeBlk :=
  let dt : Int := (t.now : Int) - t.driftAt
  let sel := t.dom t.mirrorSelected
  let other := t.dom (!t.mirrorSelected)
  let m := if t.switching then towards0 sel.virt (50 * 65536 * dt) else 0
  let t := t.modDom t.mirrorSelected (fun d => { d with virt := d.virt - m })
  let t := t.modDom (!t.mirrorSelected) (fun d => { d with virt := d.virt + (other.correction - t.freqAdj) * dt - m })
  { t with driftAt := t.now }

/-- Device time moves to `now` with the domains' virtual times. -/
def State.atTime (now : Nat) (s : State) : State := (s.at now).modTime TimeBlk.run

/-- A domain's own time less device time, in whole ns. -/
def Domain.ahead' (d : Domain) : Int := d.virt / fineNs

/-- TIME_ALERT (Table 14-3). -/
def State.timeAlert (reason : Nat) (s : State) : State :=
  s.raise 10 0 theDevice (ofInt 32 s.time.domainOffset + reason * 2 ^ 32)

/-- The deficits restored at power-up decay by the time since their record, when the servo first locks (R583). -/
def State.decayRestored (s : State) : State :=
  match s.health.restoredAt with
  | none => s
  | some t0 =>
    let f := fun (x : Scope) => ({ x with deficit := Config.decay x.deficit (s.time.now - t0) } : Scope)
    s.modHealth (fun h => { h with
      device := f h.device
      folds := (List.range 32).foldl (fun t k => tmod {} t k f) h.folds
      restoredAt := none })

/-- The selected servo has reached LOCKED (R430). -/
def State.haveLocked (s : State) : State :=
  if s.time.everLocked then s else (s.modTime (fun t => { t with everLocked := true })).decayRestored

/-- A domain becomes selected at once, and device time slews towards it (R438). -/
def State.selectDomain (mirror : Bool) (s : State) : State :=
  (s.modTime (fun t => { t with mirrorSelected := mirror, switching := true, freqAdj := (t.dom mirror).correction })).haveLocked

/-- The mean of a servo's corrections of its last 60 s in LOCKED (R437), rounded down or up (log entry 38). -/
def State.holdoverMean (d : Domain) (s : State) : Int × State :=
  let l := (d.history.filter (fun p => decide (s.time.now ≤ p.1 + 60000000000))).map (fun p => p.2)
  let sum := l.foldl (· + ·) 0
  if l.isEmpty then (d.correction, s)
  else if sum % (l.length : Int) = 0 then (sum / (l.length : Int), s)
  else
    let (b, s) := s.takeFree 1
    (sum / (l.length : Int) + b.toNat, s)

/-- A servo enters HOLDOVER (Table 14-1, R437, R439). -/
def State.enterHoldover (mirror : Bool) (s : State) : State :=
  if (s.time.dom mirror).state ≠ .locked then s
  else
    let d := s.time.dom mirror
    let s := s.modDom mirror (fun d => { d with state := .holdover, inLock := 0 })
    if mirror ≠ s.time.mirrorSelected then s
    else
      let (m, s) := s.holdoverMean d
      let s := s.modTime (fun t => { t with holdoverFreq := m, freqAdj := m, event := t.event ||| 2 })
      if s.time.autoSwitch && decide ((s.time.dom (!mirror)).state = .locked) then (s.selectDomain (!mirror)).timeAlert 4
      else s.timeAlert 2

/-! ## Servo measurements (R434 to R436, R440) -/

/-- The correction of R434 in 2^-16 ppb: KP and KI are FP32, and a result finer than 2^-16 ppb is rounded down or up;
a gain that is no number gives a free value (log entry 38). -/
def State.servoSum (kp ki : W32) (o sum : Int) (s : State) : Int × State :=
  let lim := fun (v : Int) => max (-(32767 * 65536)) (min (32767 * 65536) v)
  match fmtFp32.decode kp.toNat, fmtFp32.decode ki.toNat with
  | .fin a x, .fin b y =>
    let (n, e) := dyAdd (a * o) x (b * sum) y
    if 0 ≤ e + 16 then (lim (n * (2 ^ (e + 16).toNat : Nat)), s)
    else
      let q : Int := (2 ^ (-(e + 16)).toNat : Nat)
      if n % q = 0 then (lim (n / q), s)
      else
        let (r, s) := s.takeFree 1
        (lim (n / q + r.toNat), s)
  | _, _ =>
    let (v, s) := s.takeFree 32
    (lim v.toInt, s)

/-- Any cell number is in use (STEP_BLOCKED). -/
def State.stepBlocked (s : State) : Bool := s.radio.cells.any (fun p => decide (p.2.state ≠ .unused))

/-- A pulse train after a step of device time (R445). -/
def Tpo.stepTo (now : Nat) (x : Tpo) : Tpo :=
  if !x.running && !x.high then x
  else
    let n := if now < x.start then 0 else if x.period = 0 then 1 else (now - x.start) / x.period + 1
    let rise := x.start + (n - 1) * x.period
    let inside := decide (n ≠ 0 ∧ now < rise + x.width)
    let one := decide (x.period = 0 ∧ n ≠ 0)
    { x with nextN := n, high := x.high && inside, fallAt := rise + x.width, running := x.running && (!one || (x.high && inside)),
             pendingStart := x.pendingStart && !one }

/-- Device time steps by −o (R435). -/
def State.stepTime (o : Int) (s : State) : State :=
  let n := ((s.time.now : Int) - o).toNat
  let s := s.modTime (fun t => { t with
    now := n
    driftAt := n
    tpos := t.tpos.map (fun p => (p.1, p.2.stepTo n)) |>.filter (fun p => decide (p.2 ≠ {})) })
  let s := s.modPower (fun p => { p with releasedAt := p.releasedAt - o })
  s.modHealth (fun h => { h with lastEval := ((h.lastEval : Int) - o).toNat })

/-- DOMAIN_OFFSET at a mirror measurement (R436), and the alert of R440. -/
def State.noteOffset (s : State) : State :=
  let v := (s.time.mirror.virt - s.time.primary.virt) / fineNs
  let v := max (-(2 ^ 31 - 1)) (min (2 ^ 31 - 1) v)
  let s := s.modTime (fun t => { t with domainOffset := v })
  let both := decide (s.time.primary.state = .locked ∧ s.time.mirror.state = .locked)
  if v.natAbs < 80 then s.modTime (fun t => { t with alerted := false })
  else if 100 < v.natAbs ∧ both = true ∧ s.time.alerted = false then
    (s.modTime (fun t => { t with alerted := true, event := t.event ||| 1 })).timeAlert 1
  else s

/-- One measurement of a servo: offset `o` and mean path delay, both in ns (R434). A servo that locks to a grandmaster
whose clockClass is above 7 enters HOLDOVER at once (Table 14-1). -/
def State.measurement (mirror : Bool) (o path : Int) (s : State) : State :=
  let d := s.time.dom mirror
  let sel := mirror == s.time.mirrorSelected
  let inl := if o.natAbs ≤ s.time.lockNs then d.inLock + 1 else 0
  let sum := if s.time.synceQualified then d.integral else (if d.state = .freerun then 0 else d.integral) + o
  let state := match d.state with
    | .freerun | .holdover => Servo.acquiring
    | .acquiring => if 16 ≤ inl then .locked else .acquiring
    | .locked => .locked
  let (c, s) := s.servoSum d.kp d.ki o sum
  let s := s.modDom mirror (fun d => { d with
    updates := satInc 64 d.updates
    offsetLast := o
    meanPath := (max 0 path).toNat
    inLock := inl
    integral := sum
    correction := c
    state := state
    history := if state = .locked then (s.time.now, c) :: d.history.filter (fun p => decide (s.time.now ≤ p.1 + 60000000000))
               else d.history })
  let s := if sel then s.modTime (fun t => { t with freqAdj := c }) else s
  let s :=
    if sel && decide (s.time.stepNs < o.natAbs) then
      if s.stepBlocked then (s.modTime (fun t => { t with event := t.event ||| 16 })).timeAlert 3 else s.stepTime o
    else s
  let s := if sel && decide (state = .locked) then s.haveLocked else s
  let s := if 7 < d.gmClass then s.enterHoldover mirror else s
  if mirror then s.noteOffset else s

/-! ## PTP messages (R431) -/

/-- A grandmaster (clockClass, clockAccuracy, identity) comes before another: a lower class, then a lower accuracy code,
then a lower identity (log entry 36: the alternate BMCA of a published standard, reduced to these). -/
def better (a b : Nat × Nat × Nat) : Bool :=
  decide (a.1 < b.1) || (a.1 == b.1 && (decide (a.2.1 < b.2.1) || (a.2.1 == b.2.1 && decide (a.2.2 < b.2.2))))

/-- An Announce message. -/
def State.announced (mirror : Bool) (gm : W64) (cls acc : Nat) (s : State) : State :=
  let d := s.time.dom mirror
  if d.lastAnnounce = 0 ∨ d.gmId = gm ∨ better (cls, acc, gm.toNat) (d.gmClass, d.gmAccuracy, d.gmId.toNat) then
    let s := s.modDom mirror (fun d => { d with
      gmId := gm, gmClass := cls, gmAccuracy := acc, lastAnnounce := s.time.now + 1 })
    if 7 < cls then s.enterHoldover mirror else s
  else s

/-- What a message does to one domain of which the lane is a slave lane: `rx` is the lane's timestamp of it. -/
def State.slaveMsg (mirror : Bool) (lane : Nat) (rx : Int) (msg : PtpMsg) (s : State) : State :=
  let d := s.time.dom mirror
  let here := rx + d.ahead'
  match msg with
  | .announce gm c a => s.announced mirror gm c.toNat a.toNat
  | .sync t1 => s.modDom mirror (fun d => { d with syncSent := some t1, syncSeen := here, twoStep := none })
  | .syncTwoStep q => s.modDom mirror (fun d => { d with twoStep := some (q.toNat, here) })
  | .followUp q t1 =>
    (match d.twoStep with
     | some (q', seen) =>
       if q.toNat = q' then s.modDom mirror (fun d => { d with syncSent := some t1, syncSeen := seen, twoStep := none }) else s
     | none => s)
  | .delayReq _ _ => s
  | .delayResp t3 t4 =>
    (match d.syncSent with
     | none => s
     | some t1 =>
       let fwd := d.syncSeen - t1
       let back := t4 - (t3 + (s.lane lane).txAdj + d.ahead')
       let (b, s) := if (fwd - back) % 2 = 0 then (0, s) else let (b, s) := s.takeFree 1; ((b.toNat : Int), s)
       (s.modDom mirror (fun d => { d with syncSent := none })).measurement mirror ((fwd - back) / 2 + b) ((fwd + back) / 2))

/-- PTP_RX (R431 to R436): a message of a domain, received at `now`. -/
def execPtpRx (now : Nat) (lane : Fin 32) (domain : Byte) (msg : PtpMsg) (s : State) : Outcome :=
  .next (
    let s := s.atTime now
    if !(s.lane lane).linkUp then s
    else
      let rx := (now : Int) + (s.lane lane).rxAdj
      let slave := fun (m : Bool) (s : State) =>
        let d := s.time.dom m
        if d.enable && d.number == domain.toNat && bitOf d.slaveLanes.toNat lane then s.slaveMsg m lane rx msg else s
      let s := slave true (slave false s)
      match msg with
      | .delayReq _ _ =>
        if bitOf s.time.masterLanes.toNat lane ∧ s.time.masterDomain = domain.toNat then
          s.emit (.ptp lane domain.toNat 3 (rx + (s.time.dom s.time.mirrorSelected).ahead').toNat)
        else s
      | _ => s)

/-- PTP_TX_TICK (R431): Sync (0) and Announce (2) on a master lane, in the selected domain's time; Delay_Req (1) on a
slave lane of each enabled domain. -/
def execPtpTxTick (now : Nat) (lane : Fin 32) (kind : Fin 3) (s : State) : Outcome :=
  .next (
    let s := s.atTime now
    let tx := (now : Int) + (s.lane lane).txAdj
    if !(s.lane lane).linkUp then s
    else if kind = 1 then
      s.forEach [false, true] (fun m s =>
        let d := s.time.dom m
        if d.enable && bitOf d.slaveLanes.toNat lane then s.emit (.ptp lane d.number 1 (tx + d.ahead').toNat) else s)
    else if bitOf s.time.masterLanes.toNat lane then
      s.emit (.ptp lane s.time.masterDomain kind (tx + (s.time.dom s.time.mirrorSelected).ahead').toNat)
    else s)

/-- ANNOUNCE_TIMEOUT (Table 14-1, R439, R448): three Announce intervals of 125 ms without one. -/
def execAnnounceTimeout (now : Nat) (mirror : Bool) (s : State) : Outcome :=
  .next (
    let s := s.atTime now
    let d := s.time.dom mirror
    if d.lastAnnounce = 0 ∨ s.time.now + 1 < d.lastAnnounce + 375000000 then s
    else
      (s.modDom mirror (fun d => { d with lastAnnounce := 0, losses := satInc 32 d.losses })).enterHoldover mirror)

/-- TIME_DOMAIN_SELECT (R438). -/
def execTimeDomainSelect (m : Fin 16) (s : State) : Outcome :=
  .next (s.runCommand m 0x0501
    (fun c _ => [c.lenAtLeast 1, failIf (decide (1 < c.arg 0x20 1)) .badArg])
    (fun _ => statesOf 0x0501)
    (fun c s => [failIf (decide ((s.time.dom (c.arg 0x20 1 == 1)).state ≠ .locked)) .notReady])
    (fun c s =>
      let mi := c.arg 0x20 1 == 1
      (if mi = s.time.mirrorSelected then s else (s.modTime TimeBlk.run).selectDomain mi, [], false)))

/-- DOMAIN_SWITCH_DONE (R438): the remaining offset is below 1 ns. -/
def execDomainSwitchDone (now : Nat) (s : State) : Outcome :=
  .next (
    let s := s.atTime now
    if s.time.switching ∧ ((s.time.dom s.time.mirrorSelected).virt.natAbs : Int) < fineNs then
      s.modTime (fun t => { t.modDom t.mirrorSelected (fun d => { d with virt := 0 }) with
        switching := false, event := t.event ||| 4 })
    else s)

/-! ## SyncE and the snapshot -/

/-- ESMC_RX (R441): the quality level of lane SYNCE_LANE's messages qualifies its clock, or does not. -/
def execEsmcRx (lane : Fin 32) (good : Bool) (s : State) : Outcome :=
  .next (
    if s.time.synceEn ∧ s.time.synceLane = lane ∧ (s.lane lane).linkUp then s.modTime (fun t => { t with synceQualified := good }) else s)

/-- ESMC_TX_TICK (R441). -/
def execEsmcTxTick (now : Nat) (s : State) : Outcome :=
  .next (
    let s := s.atTime now
    if s.time.synceOutEn then s.emit (.esmc s.time.synceQualified) else s)

/-- SNAP_REFRESH (R443): SNAP_SEQ passes through odd to the next even value. -/
def execSnapRefresh (now : Nat) (s : State) : Outcome :=
  .next ((s.atTime now).modTime (fun t => { t with
    snapSeq := (t.snapSeq + 2) % 2 ^ 32, snapSec := t.now / 1000000000, snapNs := t.now % 1000000000 }))

/-! ## Timing pulse outputs (R444 to R446) -/

def State.tpo (s : State) (k : Nat) : Tpo := tget {} s.time.tpos k
def State.modTpo (k : Nat) (f : Tpo → Tpo) (s : State) : State :=
  s.modTime (fun t => { t with tpos := tmod {} t.tpos k f })

/-- TPO_SET asks for more than R444 allows. -/
def tpoBad (c : Cmd) (now : Nat) : Bool :=
  let st := c.arg 0x28 8
  let p := c.arg 0x30 4
  let w := c.arg 0x34 4
  decide (7 < c.arg 0x20 1) ||
    (decide (w ≠ 0) && decide (w < 8 ∨ (p ≠ 0 ∧ (p < w + 8 ∨ 4000000000 < p)) ∨ st < now + 1000000))

/-- TPO_SET (R444, R446): the pulse in progress completes its WIDTH. -/
def execTpoSet (m : Fin 16) (s : State) : Outcome :=
  .next (s.runCommand m 0x0502
    (fun c s => [c.lenAtLeast 24, failIf (tpoBad c s.time.now) .badArg])
    (fun _ => statesOf 0x0502)
    (fun _ _ => [])
    (fun c s =>
      let w := c.arg 0x34 4
      (s.modTpo (c.arg 0x20 1) (fun x => { x with
        start := c.arg 0x28 8, period := c.arg 0x30 4, width := w, running := w != 0, pendingStart := w != 0, nextN := 0 }),
        [], false)))

/-- One edge of an output at device time `now`: the fall that is due, or the rise that is due. -/
def Tpo.edge (now : Nat) (x : Tpo) : Tpo :=
  let rise := x.start + x.nextN * x.period
  let due := x.running && decide (rise ≤ now) && !(x.period == 0 && x.nextN != 0)
  if x.high && decide (x.fallAt ≤ now) && !(due && decide (rise < x.fallAt)) then
    { x with high := false, running := x.running && !(x.period == 0 && x.nextN != 0) }
  else if due then
    { x with high := true, fallAt := if x.high then max x.fallAt (rise + x.width) else rise + x.width
             nextN := x.nextN + 1, pulses := satInc 64 x.pulses, pendingStart := false }
  else x

/-- TPO_EDGE (R445). -/
def execTpoEdge (now : Nat) (output : Fin 8) (s : State) : Outcome :=
  .next (
    let s := s.atTime now
    s.modTpo output (Tpo.edge s.time.now))

/-! ## Capture inputs (R447) -/

def State.capture (s : State) (k : Nat) : Capture := tget {} s.time.captures k
def State.modCapture (k : Nat) (f : Capture → Capture) (s : State) : State :=
  s.modTime (fun t => { t with captures := tmod {} t.captures k f })

/-- CAPTURE_ARM: a change of EDGE empties the FIFO. -/
def execCaptureArm (m : Fin 16) (s : State) : Outcome :=
  .next (s.runCommand m 0x0503
    (fun c _ => [c.lenAtLeast 2, failIf (decide (3 < c.arg 0x20 1 ∨ 3 < c.arg 0x21 1)) .badArg])
    (fun _ => statesOf 0x0503)
    (fun _ _ => [])
    (fun c s =>
      (s.modCapture (c.arg 0x20 1) (fun x =>
        if x.edge = c.arg 0x21 1 then x else { x with edge := c.arg 0x21 1, fifo := [] }), [], false)))

/-- CAPTURE_EDGE. -/
def execCaptureEdge (now : Nat) (input : Fin 4) (rising : Bool) (s : State) : Outcome :=
  .next (
    let s := s.atTime now
    let x := s.capture input
    let t := s.time.now
    if !bitOf x.edge (if rising then 0 else 1) then s
    else if decide (16 ≤ x.fifo.length) || (match x.last with | some l => decide (t < l + 20) | none => false) then
      (s.modCapture input (fun x => { x with lost := satInc 32 x.lost })).modTime (fun t => { t with event := t.event ||| 8 })
    else s.modCapture input (fun x => { x with fifo := x.fifo ++ [(t, rising)], last := some t }))

/-- A write to CAP_POP removes the oldest entry (R447). -/
def State.popCapture (input : Nat) (s : State) : State := s.modCapture input (fun x => { x with fifo := x.fifo.drop 1 })

/-- CAP_POP: the manager's write removes the oldest entry (R447, R449). -/
def execCapPop (mapping : W32) (input : Fin 4) (s : State) : Outcome :=
  .next (if mapping = Config.managerMapping then s.popCapture input else s)

end Sys2Proof.Machine
end

