-- ==== Sys2Proof/Machine/Registers.lean ====
section
/-! DEFINITION. Writes to the registers of the control window (R11 to R14, R33): which register lies at an offset, and
what a value written to it does. A 64-bit write is two 32-bit writes, the lower half first (log entry 48). -/

namespace Sys2Proof.Machine

/-- A value written to a W1C register: each 1 clears that bit (Table 00-4). -/
def w1c (event v : Nat) : Nat := Nat.xor event (Nat.land event v)

/-- A write that only the manager's mapping makes (R426, R449, R498, R548). -/
def State.managerOnly (mapping : W32) (f : State → State) (s : State) : State :=
  if mapping = Config.managerMapping then f s else s

/-! ## Mailbox pages (Table 03-1) -/

/-- A 32-bit value written to RING_BASE: its lower half, of which bits [13:0] are reserved, or its upper half; ignored
while ENABLE is 1. -/
def Mailbox.setRingBase (b : Mailbox) (upper : Bool) (v : Nat) : Mailbox :=
  if b.enable then b
  else if upper then { b with ringBase := v * 2 ^ 32 + b.ringBase % 2 ^ 32 }
  else { b with ringBase := b.ringBase / 2 ^ 32 * 2 ^ 32 + v / 2 ^ 14 * 2 ^ 14 }

/-- A value written to MBX_ERROR. -/
def Mailbox.clearErrors (b : Mailbox) (v : Nat) : Mailbox :=
  { b with fetchFault := b.fetchFault && !bitOf v 0, overrun := b.overrun && !bitOf v 1,
           foreign := b.foreign && !bitOf v 2 }

/-- A value written at offset `r` of a mailbox page. -/
def Mailbox.writeReg (r v : Nat) (b : Mailbox) : Mailbox :=
  match r with
  | 0x008 => b.setRingBase false v
  | 0x00C => b.setRingBase true v
  | 0x010 => b.setEnable (bitOf v 0)
  | 0x014 => b.setTail (BitVec.ofNat 16 v)
  | 0x024 => b.clearErrors v
  | 0x028 => { b with respRing := v % 4096, respOn := bitOf v 31 }
  | _ => b

/-- A write to a mailbox page: a mapping not granted sets FOREIGN_WRITE and does nothing else (R79). -/
def State.writeMbx (m : Nat) (mapping : W32) (r v : Nat) (s : State) : State :=
  if (s.mbox m).maps mapping then s.modMbox m (fun b => b.writeReg r v) else s.foreignWrite m

/-! ## The time block (Tables 14-4 to 14-6) -/

/-- A field takes the value written where it is one of those its register admits; the manual states no value after
another one: it is a free value of `w` bits (log entry 48). -/
def State.fieldValue (ok : Bool) (w v : Nat) (s : State) : Nat × State :=
  if ok then (v, s) else let (x, s) := s.takeFree w; (x.toNat, s)

/-- A value written to TIME_CFG; a lane chosen anew, or SyncE switched off, is not qualified (R441). -/
def State.writeTimeCfg (v : Nat) (s : State) : State :=
  let (dom, s) := s.fieldValue (decide (24 ≤ bitsOf v 8 8 ∧ bitsOf v 8 8 ≤ 43)) 8 (bitsOf v 8 8)
  s.modTime (fun t => { t with
    autoSwitch := bitOf v 0, synceEn := bitOf v 1, synceOutEn := bitOf v 2, synceLane := bitsOf v 3 5,
    masterDomain := dom,
    synceQualified := t.synceQualified && bitOf v 1 && t.synceLane == bitsOf v 3 5 })

/-- A value written to FRAME_OFFSET: ignored while any cell number is not UNUSED (R429). -/
def State.writeFrameOffset (v : Nat) (s : State) : State :=
  if s.stepBlocked then s
  else
    let (x, s) := s.fieldValue (decide ((toInt 32 v).natAbs ≤ 10000000)) 32 v
    s.modTime (fun t => { t with frameOffset := toInt 32 x })

/-- A value written to STEP_NS. -/
def State.writeStepNs (v : Nat) (s : State) : State :=
  let (x, s) := s.fieldValue (decide (100 ≤ v ∧ v ≤ 1000000000)) 32 v
  s.modTime (fun t => { t with stepNs := x })

/-- A domain switched off enters FREERUN (Table 14-1); its sum starts anew (R434). -/
def Domain.switchOff (d : Domain) : Domain :=
  { d with enable := false, state := .freerun, inLock := 0, integral := 0, lastAnnounce := 0 }

/-- A value written to DOM_CFG. -/
def State.writeDomCfg (mirror : Bool) (v : Nat) (s : State) : State :=
  let (n, s) := s.fieldValue (decide (24 ≤ bitsOf v 0 8 ∧ bitsOf v 0 8 ≤ 43)) 8 (bitsOf v 0 8)
  s.modDom mirror (fun d =>
    let d := { d with number := n }
    if bitOf v 8 then { d with enable := true } else d.switchOff)

/-- A value written at offset `r` of a domain block. -/
def State.writeDomain (mirror : Bool) (r v : Nat) (s : State) : State :=
  match r with
  | 0x00 => s.writeDomCfg mirror v
  | 0x04 => s.modDom mirror (fun d => { d with slaveLanes := BitVec.ofNat 32 v })
  | 0x08 => s.modDom mirror (fun d => { d with kp := BitVec.ofNat 32 v })
  | 0x0C => s.modDom mirror (fun d => { d with ki := BitVec.ofNat 32 v })
  | _ => s

/-- A value written to LANE_ADJ (R433). -/
def State.writeLaneAdj (lane v : Nat) (s : State) : State :=
  s.modLane lane (fun l => { l with txAdj := toInt 16 v, rxAdj := toInt 16 (v / 2 ^ 16) })

/-- A value written at offset `r` of the time block. -/
def State.writeTimeReg (r v : Nat) (s : State) : State :=
  if 0x40 ≤ r ∧ r < 0x80 then s.writeDomain false (r - 0x40) v
  else if 0x80 ≤ r ∧ r < 0xC0 then s.writeDomain true (r - 0x80) v
  else if 0x200 ≤ r ∧ r < 0x280 then (if r % 0x20 = 0x0C then s.popCapture (r % 0x100 / 0x20) else s)
  else if 0x1000 ≤ r ∧ r < 0x1100 then (if r % 8 = 0 then s.writeLaneAdj (r % 0x1000 / 8) v else s)
  else
    match r with
    | 0x0004 => s.writeTimeCfg v
    | 0x001C => s.writeFrameOffset v
    | 0x0024 => s.modTime (fun t => { t with lockNs := v % 65536 })
    | 0x0028 => s.writeStepNs v
    | 0x002C => s.modTime (fun t => { t with masterLanes := BitVec.ofNat 32 v })
    | 0x0038 => s.modTime (fun t => { t with event := w1c t.event v })
    | _ => s

/-! ## Event rings (Table 03-10) -/

/-- A value written at offset `r` of ring `k`. -/
def State.writeRing (k : Nat) (mapping : W32) (r v : Nat) (s : State) : State :=
  match r with
  | 0x24 => s.evrHead k mapping (BitVec.ofNat 32 v)
  | 0x28 => s.evrArm k mapping (bitOf v 0)
  | _ => s

/-! ## Register blocks of the units (R671) -/

/-- A value written at offset `r` of a numbered fold's block (Tables 05-8, 06-10 and 07-8). -/
def Fold.writeReg (r v : Nat) (x : Fold) : Fold :=
  match r with
  | 0x000 => if v % 8 = 7 then x else { x with ramp := v % 8 }
  | 0x044 => { x with arrEvent := w1c x.arrEvent v }
  | 0x0C4 => { x with accEvent := w1c x.accEvent v }
  | 0x138 => { x with vecEvent := w1c x.vecEvent v }
  | _ => x

/-- FAB_SHAPE without its reserved bits. -/
def shapeBits (v : Nat) : Nat :=
  bitsOf v 0 6 + bitsOf v 8 6 * 2 ^ 8 + bitsOf v 16 6 * 2 ^ 16 + bitsOf v 31 1 * 2 ^ 31

/-- X · Y · Z of a value of FAB_SHAPE. -/
def shapeNodes (v : Nat) : Nat := (bitsOf v 0 6 + 1) * (bitsOf v 8 6 + 1) * (bitsOf v 16 6 + 1)

/-- A value written at offset `r` of the node registers (Table 15-11), by the manager. -/
def Fabric.writeReg (r v : Nat) (f : Fabric) : Fabric :=
  match r with
  | 0x5004 => { f with hint := v % 4096, hintValid := bitOf v 12 }
  | 0x5008 => if 4096 < shapeNodes v then f else { f with shape := BitVec.ofNat 32 (shapeBits v) }
  | 0x5044 => { f with event := w1c f.event v }
  | _ => f

/-- A value written to PROV_LOG_HEAD: records held are written as there is room (R546). -/
def State.writeLogHead (v : Nat) (s : State) : State :=
  let s := s.modProv (fun p => { p with head := v })
  s.provFlush s.prov.heldRecords.length

/-- A value written at offset `r` of the device's block. -/
def State.writeDevice (mapping : W32) (r v : Nat) (s : State) : State :=
  match r with
  | 0x0058 => s.modShep (fun x => { x with event := w1c x.event v })
  | 0x5004 | 0x5008 | 0x5044 => s.managerOnly mapping (fun s => s.modFab (Fabric.writeReg r v))
  | 0x5140 => s.modFabMem (fun x => { x with event := w1c x.event v })
  | 0x5214 => s.managerOnly mapping (State.writeLogHead v)
  | 0x5230 => s.managerOnly mapping (fun s => s.modProv (fun x => { x with event := w1c x.event v }))
  | 0x531C => { s with spoof := { s.spoof with event := w1c s.spoof.event v } }
  | 0x8028 => s.modHealth (fun x => { x with event := w1c x.event v })
  | 0x9028 => s.modSec (fun x => { x with event := w1c x.event v })
  | 0xA060 => s.modPower (fun x => { x with event := w1c x.event v })
  | _ => s

/-- Word `i` of DSCP_MAP. -/
def setWord (i v m : Nat) : Nat := m / 2 ^ (32 * (i + 1)) * 2 ^ (32 * (i + 1)) + v * 2 ^ (32 * i) + m % 2 ^ (32 * i)

/-- A value written at offset `r` of a lane (Table 13-13): it takes effect at the lane's next frame boundary (R426). -/
def Lane.writeReg (r v : Nat) (l : Lane) : Lane :=
  match r with
  | 0x00 => { l with overheadNext := some (v % 64) }
  | 0x04 => { l with pcpNext := some (BitVec.ofNat 32 v) }
  | 0x08 | 0x0C | 0x10 | 0x14 => { l with dscpNext := some (setWord ((r - 8) / 4) v (l.dscpNext.getD l.dscpMap)) }
  | _ => l

/-- A value written at offset `r` of fronthaul port `p` (Tables 13-12 and 13-13). -/
def State.writeFhPort (p : Nat) (mapping : W32) (r v : Nat) (s : State) : State :=
  if 0x100 ≤ r ∧ r < 0x500 then
    s.managerOnly mapping (fun s => s.modLane (4 * p + (r / 0x100 - 1)) (Lane.writeReg (r % 0x100) v))
  else if r = 0x008 then s.modFhPort p (fun x => { x with event := w1c x.event v })
  else s

/-- A value written at offset `r` of the block of a unit. DMA_EVENT takes no write from the window (R375), and neither
does JOB_PORT (R284). -/
def State.writeUnit (u : UnitId) (mapping : W32) (r v : Nat) (s : State) : State :=
  match u.ty with
  | .device => s.writeDevice mapping r v
  | .fold => if u.idx < Config.numberedFolds then s.modFold u.idx (Fold.writeReg r v) else s
  | .sigCore => if r = 0x03C then s.modSigCore u.idx (fun x => { x with event := w1c x.event v }) else s
  | .engine => if r = 0x030 then s.modEngine u.idx (fun x => { x with event := w1c x.event v }) else s
  | .stackCtl => if r = 0x028 then s.modStackCtl u.idx (fun x => { x with event := w1c x.event v }) else s
  | .fabPort => if r = 0x068 then s.modFport u.idx (fun x => { x with event := w1c x.event v }) else s
  | .fhPort => s.writeFhPort u.idx mapping r v
  | .commons => if r = 0x040 then s.modMover u.idx (fun x => { x with event := w1c x.event v }) else s
  | .dma | .collector | .die | .stack | .sigGroup | .ctlCore => s

/-- A value written in the unit register blocks: the table must name the block (R14, R33). -/
def State.writeBlocks (mapping : W32) (offset v : Nat) (s : State) : State :=
  if !s.units.published then s
  else
    match blockAt offset with
    | none => s
    | some u => s.writeUnit u mapping (offset - regOffset u) v

/-- One 32-bit write to the control window (Table 01-6); an offset that no map lists has no effect (R14). -/
def State.writeWord (mapping : W32) (offset v : Nat) (s : State) : State :=
  if offset % 4 ≠ 0 then s
  else if 0x0010_0000 ≤ offset ∧ offset < 0x0011_0000 then
    s.writeMbx ((offset - 0x0010_0000) / 4096) mapping (offset % 4096) v
  else if 0x0100_0000 ≤ offset ∧ offset < 0x0101_0000 then
    s.managerOnly mapping (State.writeTimeReg (offset - 0x0100_0000) v)
  else if 0x0110_0000 ≤ offset ∧ offset < 0x0120_0000 then
    s.writeRing ((offset - 0x0110_0000) / 256) mapping (offset % 256) v
  else if 0x0300_0000 ≤ offset ∧ offset < 0x0400_0000 then s.writeBlocks mapping offset v
  else s

/-- REGISTER_WRITE (R11): a doorbell page takes the write whole (R113), everything else word by word. -/
def execRegisterWrite (mapping : W32) (offset : Nat) (wide : Bool) (value : W64) (s : State) : Outcome :=
  .next (
    if 0x0020_0000 ≤ offset ∧ offset < 0x0030_0000 then
      s.doorbellWrite ((offset - 0x0020_0000) / 4096) mapping (offset % 4096) (wide && offset % 8 == 0) value
    else
      let s := s.writeWord mapping offset (value.toNat % 2 ^ 32)
      if wide then s.writeWord mapping (offset + 4) (value.toNat / 2 ^ 32) else s)

end Sys2Proof.Machine
end

