-- ==== Sys2Proof/Machine/Dispatch.lean ====
section
/-! DEFINITION. One arm per command: the direct call of its meaning. -/

namespace Sys2Proof.Machine

def exec (i : Instr) (s : State) : Host.Outcome State Fault Refusal :=
  match i with
  | .boardReset => Sys2Proof.Machine.execBoardReset s
  | .boardResetRelease hotInsertion => Sys2Proof.Machine.execBoardResetRelease hotInsertion s
  | .imageVerify readOk => Sys2Proof.Machine.execImageVerify readOk s
  | .unitReset u => Sys2Proof.Machine.execUnitReset u s
  | .unitSelfTestDone u r => Sys2Proof.Machine.execUnitSelfTestDone u r s
  | .retentionCheckDone u decayed => Sys2Proof.Machine.execRetentionCheckDone u decayed s
  | .watchdogExpiry core => Sys2Proof.Machine.execWatchdogExpiry core s
  | .coreEccHalt core => Sys2Proof.Machine.execCoreEccHalt core s
  | .coreRestartDone core => Sys2Proof.Machine.execCoreRestartDone core s
  | .heartbeatTick now => Sys2Proof.Machine.execHeartbeatTick now s
  | .islandClockChange kind idx midHandshake => Sys2Proof.Machine.execIslandClockChange kind idx midHandshake s
  | .nocIntegrityError => Sys2Proof.Machine.execNocIntegrityError s
  | .fatalFault cause => Sys2Proof.Machine.execFatalFault cause s
  | .registerWrite mapping offset wide value => Sys2Proof.Machine.execRegisterWrite mapping offset wide value s
  | .mbxEnableWrite m mapping enable => Sys2Proof.Machine.execMbxEnableWrite m mapping enable s
  | .mbxTailWrite m mapping tail => Sys2Proof.Machine.execMbxTailWrite m mapping tail s
  | .commandTakeUp second slotOk argsOk => Sys2Proof.Machine.execCommandTakeUp second slotOk argsOk s
  | .mbxVersion m => Sys2Proof.Machine.execMbxVersion m s
  | .mbxAssign m => Sys2Proof.Machine.execMbxAssign m s
  | .devQuery m => Sys2Proof.Machine.execDevQuery m s
  | .devConfigure m => Sys2Proof.Machine.execDevConfigure m s
  | .devCommit m => Sys2Proof.Machine.execDevCommit m s
  | .devReset m => Sys2Proof.Machine.execDevReset m s
  | .evrConfigure m => Sys2Proof.Machine.execEvrConfigure m s
  | .debugAccess m => Sys2Proof.Machine.execDebugAccess m s
  | .evrHeadWrite ring mapping head => Sys2Proof.Machine.execEvrHeadWrite ring mapping head s
  | .evrArmWrite ring mapping arm => Sys2Proof.Machine.execEvrArmWrite ring mapping arm s
  | .doorbell page mapping offset aligned64 value => Sys2Proof.Machine.execDoorbell page mapping offset aligned64 value s
  | .instCreate m => Sys2Proof.Machine.execInstCreate m s
  | .instDestroy m => Sys2Proof.Machine.execInstDestroy m s
  | .instReset m => Sys2Proof.Machine.execInstReset m s
  | .instFreeze m => Sys2Proof.Machine.execInstFreeze m s
  | .instExport m => Sys2Proof.Machine.execInstExport m s
  | .instExportDone inst => Sys2Proof.Machine.execInstExportDone inst s
  | .instImport m image => Sys2Proof.Machine.execInstImport m image s
  | .instImportDone inst ok => Sys2Proof.Machine.execInstImportDone inst ok s
  | .instThaw m => Sys2Proof.Machine.execInstThaw m s
  | .dirtySwap m => Sys2Proof.Machine.execDirtySwap m s
  | .quotaSet m => Sys2Proof.Machine.execQuotaSet m s
  | .cellAdd m => Sys2Proof.Machine.execCellAdd m s
  | .cellRemove m => Sys2Proof.Machine.execCellRemove m s
  | .cellReconfigure m => Sys2Proof.Machine.execCellReconfigure m s
  | .radioShareSet m => Sys2Proof.Machine.execRadioShareSet m s
  | .penumbraSet m => Sys2Proof.Machine.execPenumbraSet m s
  | .nrxLoad m => Sys2Proof.Machine.execNrxLoad m s
  | .objCreate m => Sys2Proof.Machine.execObjCreate m s
  | .objPromote m => Sys2Proof.Machine.execObjPromote m s
  | .objEvict m => Sys2Proof.Machine.execObjEvict m s
  | .objAlternate m => Sys2Proof.Machine.execObjAlternate m s
  | .objDestroy m => Sys2Proof.Machine.execObjDestroy m s
  | .objQuery m => Sys2Proof.Machine.execObjQuery m s
  | .fabRegionSet m => Sys2Proof.Machine.execFabRegionSet m s
  | .fabCompatSet m => Sys2Proof.Machine.execFabCompatSet m s
  | .fabPortSet m => Sys2Proof.Machine.execFabPortSet m s
  | .fabTopologyGet m => Sys2Proof.Machine.execFabTopologyGet m s
  | .timeDomainSelect m => Sys2Proof.Machine.execTimeDomainSelect m s
  | .tpoSet m => Sys2Proof.Machine.execTpoSet m s
  | .captureArm m => Sys2Proof.Machine.execCaptureArm m s
  | .watchSet m => Sys2Proof.Machine.execWatchSet m s
  | .retest m => Sys2Proof.Machine.execRetest m s
  | .retestDone now failed heavyEvidence unitsTested tempMin tempMax supplyMin => Sys2Proof.Machine.execRetestDone now failed heavyEvidence unitsTested tempMin tempMax supplyMin s
  | .marginSweep m => Sys2Proof.Machine.execMarginSweep m s
  | .marginSweepDone fold lowest failed0 skipped => Sys2Proof.Machine.execMarginSweepDone fold lowest failed0 skipped s
  | .devFence m => Sys2Proof.Machine.execDevFence m s
  | .devUnfence m => Sys2Proof.Machine.execDevUnfence m s
  | .unitFence m => Sys2Proof.Machine.execUnitFence m s
  | .unitRetire m => Sys2Proof.Machine.execUnitRetire m s
  | .standbyEnter m => Sys2Proof.Machine.execStandbyEnter m s
  | .assume m => Sys2Proof.Machine.execAssume m s
  | .assumeDone now => Sys2Proof.Machine.execAssumeDone now s
  | .ledgerRead m => Sys2Proof.Machine.execLedgerRead m s
  | .progressRead m => Sys2Proof.Machine.execProgressRead m s
  | .provenanceSet m => Sys2Proof.Machine.execProvenanceSet m s
  | .measureRead m => Sys2Proof.Machine.execMeasureRead m s
  | .fwRecoveryLoad m => Sys2Proof.Machine.execFwRecoveryLoad m s
  | .fwRecoveryVerified transferOk => Sys2Proof.Machine.execFwRecoveryVerified transferOk s
  | .imagePersistDone powerLost => Sys2Proof.Machine.execImagePersistDone powerLost s
  | .powerSet m => Sys2Proof.Machine.execPowerSet m s
  | .nightEntryDone => Sys2Proof.Machine.execNightEntryDone s
  | .prepareRemoval m => Sys2Proof.Machine.execPrepareRemoval m s
  | .removalDrainDone => Sys2Proof.Machine.execRemovalDrainDone s
  | .drainTimeout now => Sys2Proof.Machine.execDrainTimeout now s
  | .evacuateTimeout now => Sys2Proof.Machine.execEvacuateTimeout now s
  | .retentionSelect m => Sys2Proof.Machine.execRetentionSelect m s
  | .foldDebugHold m => Sys2Proof.Machine.execFoldDebugHold m s
  | .foldDebugRead m => Sys2Proof.Machine.execFoldDebugRead m s
  | .foldDebugRelease m => Sys2Proof.Machine.execFoldDebugRelease m s
  | .taskPlace queue => Sys2Proof.Machine.execTaskPlace queue s
  | .resideDone fold slot => Sys2Proof.Machine.execResideDone fold slot s
  | .releaseDone inst ctx => Sys2Proof.Machine.execReleaseDone inst ctx s
  | .tileStart fold slot => Sys2Proof.Machine.execTileStart fold slot s
  | .rampStep fold => Sys2Proof.Machine.execRampStep fold s
  | .arrayIdleTimeout fold => Sys2Proof.Machine.execArrayIdleTimeout fold s
  | .planeLoadDone fold => Sys2Proof.Machine.execPlaneLoadDone fold s
  | .issueCycle fold buffered errors => Sys2Proof.Machine.execIssueCycle fold buffered errors s
  | .tileEnd fold => Sys2Proof.Machine.execTileEnd fold s
  | .groupActionDone fold group => Sys2Proof.Machine.execGroupActionDone fold group s
  | .vectorIssue fold core radio op => Sys2Proof.Machine.execVectorIssue fold core radio op s
  | .containedFault fold slot place code => Sys2Proof.Machine.execContainedFault fold slot place code s
  | .partitionResetDone => Sys2Proof.Machine.execPartitionResetDone s
  | .collectorCycle die => Sys2Proof.Machine.execCollectorCycle die s
  | .barrierAdd b => Sys2Proof.Machine.execBarrierAdd b s
  | .bundleIssue core irq ecc => Sys2Proof.Machine.execBundleIssue core irq ecc s
  | .ldmExtAccess core arrives finding => Sys2Proof.Machine.execLdmExtAccess core arrives finding s
  | .programLoad group cores image start => Sys2Proof.Machine.execProgramLoad group cores image start s
  | .jobPost engine fromWindow job => Sys2Proof.Machine.execJobPost engine fromWindow job s
  | .jobStart engine => Sys2Proof.Machine.execJobStart engine s
  | .jobComplete engine now lost => Sys2Proof.Machine.execJobComplete engine now lost s
  | .windowBoundary now => Sys2Proof.Machine.execWindowBoundary now s
  | .penumbraOpen now => Sys2Proof.Machine.execPenumbraOpen now s
  | .tileAbandon fold now => Sys2Proof.Machine.execTileAbandon fold now s
  | .slotBoundary now gradient blocks failures => Sys2Proof.Machine.execSlotBoundary now gradient blocks failures s
  | .frameBoundary now => Sys2Proof.Machine.execFrameBoundary now s
  | .stageDeadline now cell slot stage lateNs inputLate unitLost rerun => Sys2Proof.Machine.execStageDeadline now cell slot stage lateNs inputLate unitLost rerun s
  | .chunkDone half chan finding remote => Sys2Proof.Machine.execChunkDone half chan finding remote s
  | .chunkStart half chan => Sys2Proof.Machine.execChunkStart half chan s
  | .tierLateExpiry now half chan => Sys2Proof.Machine.execTierLateExpiry now half chan s
  | .repairWaitExpiry now => Sys2Proof.Machine.execRepairWaitExpiry now s
  | .scrubStep u address finding lastOfPass => Sys2Proof.Machine.execScrubStep u address finding lastOfPass s
  | .coherentAccess mapping offset len req => Sys2Proof.Machine.execCoherentAccess mapping offset len req s
  | .dmaDescriptorPost engine chan d => Sys2Proof.Machine.execDmaDescriptorPost engine chan d s
  | .dmaLevelAdd engine chan bytes => Sys2Proof.Machine.execDmaLevelAdd engine chan bytes s
  | .dmaDescriptorStart engine => Sys2Proof.Machine.execDmaDescriptorStart engine s
  | .dmaLineAccess engine finding => Sys2Proof.Machine.execDmaLineAccess engine finding s
  | .dmaDescriptorComplete engine => Sys2Proof.Machine.execDmaDescriptorComplete engine s
  | .fhRxFrame now lane f dueNs => Sys2Proof.Machine.execFhRxFrame now lane f dueNs s
  | .egressFrameStart now lane => Sys2Proof.Machine.execEgressFrameStart now lane s
  | .egressFrameDone now lane => Sys2Proof.Machine.execEgressFrameDone now lane s
  | .egressDeadlineExpiry now queue => Sys2Proof.Machine.execEgressDeadlineExpiry now queue s
  | .queueEvict now queue => Sys2Proof.Machine.execQueueEvict now queue s
  | .fhLaneLinkChange lane up => Sys2Proof.Machine.execFhLaneLinkChange lane up s
  | .ptpRx now lane domain msg => Sys2Proof.Machine.execPtpRx now lane domain msg s
  | .ptpTxTick now lane kind => Sys2Proof.Machine.execPtpTxTick now lane kind s
  | .announceTimeout now mirror => Sys2Proof.Machine.execAnnounceTimeout now mirror s
  | .domainSwitchDone now => Sys2Proof.Machine.execDomainSwitchDone now s
  | .esmcRx lane good => Sys2Proof.Machine.execEsmcRx lane good s
  | .esmcTxTick now => Sys2Proof.Machine.execEsmcTxTick now s
  | .snapRefresh now => Sys2Proof.Machine.execSnapRefresh now s
  | .tpoEdge now output => Sys2Proof.Machine.execTpoEdge now output s
  | .captureEdge now input rising => Sys2Proof.Machine.execCaptureEdge now input rising s
  | .capPop mapping input => Sys2Proof.Machine.execCapPop mapping input s
  | .identifyRx port uid farPort => Sys2Proof.Machine.execIdentifyRx port uid farPort s
  | .trainPhaseDone port lanesOk offsetPpb eye => Sys2Proof.Machine.execTrainPhaseDone port lanesOk offsetPpb eye s
  | .trainPhaseTimeout port => Sys2Proof.Machine.execTrainPhaseTimeout port s
  | .detectRetry now port => Sys2Proof.Machine.execDetectRetry now port s
  | .heldRetrain now port => Sys2Proof.Machine.execHeldRetrain now port s
  | .linkLoss port => Sys2Proof.Machine.execLinkLoss port s
  | .codewordRx now port n corrected uncorrectable flits => Sys2Proof.Machine.execCodewordRx now port n corrected uncorrectable flits s
  | .creditRx port cw nak credits => Sys2Proof.Machine.execCreditRx port cw nak credits s
  | .packetForward port p => Sys2Proof.Machine.execPacketForward port p s
  | .packetDeliver port p => Sys2Proof.Machine.execPacketDeliver port p s
  | .helloRx port uid inc node versions term bwUid => Sys2Proof.Machine.execHelloRx port uid inc node versions term bwUid s
  | .beaconRx now port origin fseq term tableVersion epoch => Sys2Proof.Machine.execBeaconRx now port origin fseq term tableVersion epoch s
  | .beaconTick now => Sys2Proof.Machine.execBeaconTick now s
  | .beaconTimeout now => Sys2Proof.Machine.execBeaconTimeout now s
  | .candidateRx now port origin fseq term vote => Sys2Proof.Machine.execCandidateRx now port origin fseq term vote s
  | .electionSettle now => Sys2Proof.Machine.execElectionSettle now s
  | .linkReportRx port origin fseq links => Sys2Proof.Machine.execLinkReportRx port origin fseq links s
  | .linkReportTick now => Sys2Proof.Machine.execLinkReportTick now s
  | .nodeTableRx port origin fseq version full entries => Sys2Proof.Machine.execNodeTableRx port origin fseq version full entries s
  | .refreshRx now port uid hint inc versions tableVersion => Sys2Proof.Machine.execRefreshRx now port uid hint inc versions tableVersion s
  | .routePlanRx port origin fseq epoch torus root shape tableVersion => Sys2Proof.Machine.execRoutePlanRx port origin fseq epoch torus root shape tableVersion s
  | .planAckRx port uid epoch => Sys2Proof.Machine.execPlanAckRx port uid epoch s
  | .planAckTimeout now => Sys2Proof.Machine.execPlanAckTimeout now s
  | .commitRx port origin fseq epoch => Sys2Proof.Machine.execCommitRx port origin fseq epoch s
  | .nodeReserveExpiry now node => Sys2Proof.Machine.execNodeReserveExpiry now node s
  | .fabRequestSend now queue => Sys2Proof.Machine.execFabRequestSend now queue s
  | .flagRelease now id => Sys2Proof.Machine.execFlagRelease now id s
  | .copyCounterSend now id => Sys2Proof.Machine.execCopyCounterSend now id s
  | .fabReadRx p => Sys2Proof.Machine.execFabReadRx p s
  | .fabWriteRx p => Sys2Proof.Machine.execFabWriteRx p s
  | .fabFlagRx p => Sys2Proof.Machine.execFabFlagRx p s
  | .fabAtomicRx p => Sys2Proof.Machine.execFabAtomicRx p s
  | .fabAckRx p => Sys2Proof.Machine.execFabAckRx p s
  | .fabCollRx p => Sys2Proof.Machine.execFabCollRx p s
  | .fabResponseRx now p => Sys2Proof.Machine.execFabResponseRx now p s
  | .homeUpdateApply now space line => Sys2Proof.Machine.execHomeUpdateApply now space line s
  | .fabRetryTimeout now dst seq => Sys2Proof.Machine.execFabRetryTimeout now dst seq s
  | .fabOutcomeTimeout now dst seq => Sys2Proof.Machine.execFabOutcomeTimeout now dst seq s
  | .ackSend now dst => Sys2Proof.Machine.execAckSend now dst s
  | .replayEntryExpiry now src seq => Sys2Proof.Machine.execReplayEntryExpiry now src seq s
  | .collectiveTimeout now id => Sys2Proof.Machine.execCollectiveTimeout now id s
  | .regionCloseDone region => Sys2Proof.Machine.execRegionCloseDone region s
  | .provenanceIntervalEnd now => Sys2Proof.Machine.execProvenanceIntervalEnd now s
  | .signRequestDone now => Sys2Proof.Machine.execSignRequestDone now s
  | .sessionKeyReady => Sys2Proof.Machine.execSessionKeyReady s
  | .getVersion major minor tag => Sys2Proof.Machine.execGetVersion major minor tag s
  | .getCert major tag body => Sys2Proof.Machine.execGetCert major tag body s
  | .getQuote now major tag body => Sys2Proof.Machine.execGetQuote now major tag body s
  | .getRoot major tag body => Sys2Proof.Machine.execGetRoot major tag body s
  | .getLedgerHead major tag body => Sys2Proof.Machine.execGetLedgerHead major tag body s
  | .ledgerBatchWrite now => Sys2Proof.Machine.execLedgerBatchWrite now s
  | .ledgerPeriodicRecord now daily => Sys2Proof.Machine.execLedgerPeriodicRecord now daily s
  | .healthEvaluation found => Sys2Proof.Machine.execHealthEvaluation found s
  | .patrolTick now u => Sys2Proof.Machine.execPatrolTick now u s
  | .patrolResult u firstOk secondOk => Sys2Proof.Machine.execPatrolResult u firstOk secondOk s
  | .condFenceSample now fold temp activity => Sys2Proof.Machine.execCondFenceSample now fold temp activity s
  | .thermalSample now readings => Sys2Proof.Machine.execThermalSample now readings s
  | .thermalTrip readings => Sys2Proof.Machine.execThermalTrip readings s
  | .pwrFail => Sys2Proof.Machine.execPwrFail s
  | .railFault => Sys2Proof.Machine.execRailFault s
  | .pwrBrake low => Sys2Proof.Machine.execPwrBrake low s
  | .fyfTrainDone lanesOk versions => Sys2Proof.Machine.execFyfTrainDone lanesOk versions s
  | .fyfFlitCrcFail now held => Sys2Proof.Machine.execFyfFlitCrcFail now held s
  | .fyfRecoveryTimeout => Sys2Proof.Machine.execFyfRecoveryTimeout s
  | .fyfLinkDown => Sys2Proof.Machine.execFyfLinkDown s
  | .companionOwnershipRequest line own => Sys2Proof.Machine.execCompanionOwnershipRequest line own s
  | .recallTimeout line => Sys2Proof.Machine.execRecallTimeout line s
  | .companionSnoop line => Sys2Proof.Machine.execCompanionSnoop line s
  | .flashRequest => Sys2Proof.Machine.execFlashRequest s
  | .flashRelease => Sys2Proof.Machine.execFlashRelease s
  | .jtagInstruction op => Sys2Proof.Machine.execJtagInstruction op s
  | .ledgerReadDone m => Sys2Proof.Machine.execLedgerReadDone m s
  | .routePlanIssue now => Sys2Proof.Machine.execRoutePlanIssue now s
  | .fyfLaneDetect => Sys2Proof.Machine.execFyfLaneDetect s
  | .snoopReply line data => Sys2Proof.Machine.execSnoopReply line data s
  | .unknownAttestationCode major code tag => Sys2Proof.Machine.execUnknownAttestationCode major code tag s

end Sys2Proof.Machine
end

