-- ==== Sys2Proof/Machine/RegRead.lean ====
section
/-! DEFINITION. Reads of the control window (R11, R13, R14, R33, R35): what each register of each map holds. A register that is
written only reads as 0, and so does an offset that no map lists. A 64-bit read is two 32-bit reads. No command of the block
reads a register: a read changes nothing (log entry 94). -/

namespace Sys2Proof.Machine

/-- A register of a map: its offset, its bytes, its value. -/
structure Reg where
  off : Nat
  size : Nat
  value : Nat
  deriving DecidableEq, Repr

/-- The 32-bit word at an offset of a map: 0 where no register lies (R14). -/
def regWord (l : List Reg) (r : Nat) : Nat :=
  match l.find? (fun x => decide (x.off ≤ r ∧ r < x.off + x.size)) with
  | some x => x.value / 2 ^ (8 * (r - x.off)) % 2 ^ 32
  | none => 0

/-- A mask with the bits of a list set. -/
def bitsOn (l : List Nat) : Nat := (l.eraseDups.map (fun i => 2 ^ i)).sum

/-- Values packed from bit 0, each `w` bits wide. -/
def packed (w : Nat) (l : List Nat) : Nat := l.foldr (fun x a => x % 2 ^ w + 2 ^ w * a) 0

/-! ## Mailboxes, doorbell pages, event rings (Tables 03-1, 03-10, 03-13) -/

/-- MBX_STATUS. -/
def State.mbxStatus (s : State) (m : Nat) : Nat :=
  let b := s.mbox m
  b2n (m == 0 && decide (s.dev.dstate = .rom) && s.outOfReset) + 2 * b2n (s.core (serverOf m)).restarting + 4 * b2n b.stopped +
    16 * b.long.length + 2 ^ 16 * b.agreed

def State.mbxMap (s : State) (m : Nat) : List Reg :=
  let b := s.mbox m
  [⟨0x000, 4, m + 16 * b.role.code + 256 * b.inst⟩, ⟨0x008, 8, b.ringBase⟩, ⟨0x010, 4, b2n b.enable⟩, ⟨0x014, 4, b.tail⟩,
   ⟨0x018, 4, b.taken⟩, ⟨0x01C, 4, b.head⟩, ⟨0x020, 4, s.mbxStatus m⟩,
   ⟨0x024, 4, b2n b.fetchFault + 2 * b2n b.overrun + 4 * b2n b.foreign⟩, ⟨0x028, 4, b.respRing + 2 ^ 31 * b2n b.respOn⟩]

def DbPage.map (p : DbPage) : List Reg :=
  [⟨0x800, 4, p.accepted⟩, ⟨0x804, 4, p.spoof⟩, ⟨0x808, 4, p.stale⟩, ⟨0x80C, 4, p.malformed⟩]

def EventRing.map (r : EventRing) : List Reg :=
  [⟨0x00, 8, r.base⟩, ⟨0x08, 4, r.log2 + 256 * r.ownerInst + 2 ^ 16 * r.ownerRole.code + 2 ^ 31 * b2n r.enabled⟩,
   ⟨0x10, 8, r.vecAddr.toNat⟩, ⟨0x18, 4, r.vecData.toNat⟩, ⟨0x20, 4, r.tail⟩, ⟨0x24, 4, r.head⟩, ⟨0x28, 4, b2n r.arm⟩,
   ⟨0x2C, 4, r.lost⟩, ⟨0x30, 8, r.mask⟩]

/-! ## The time block (Tables 14-4 to 14-6) -/

def Domain.map (base : Nat) (d : Domain) : List Reg :=
  [⟨base, 4, d.number + 256 * b2n d.enable⟩, ⟨base + 0x04, 4, d.slaveLanes.toNat⟩, ⟨base + 0x08, 4, d.kp.toNat⟩,
   ⟨base + 0x0C, 4, d.ki.toNat⟩, ⟨base + 0x10, 4, ofInt 32 d.offsetLast⟩, ⟨base + 0x14, 4, d.meanPath⟩,
   ⟨base + 0x18, 4, d.gmClass + 256 * d.gmAccuracy⟩, ⟨base + 0x20, 8, d.gmId.toNat⟩, ⟨base + 0x28, 8, d.updates⟩,
   ⟨base + 0x30, 4, d.losses⟩]

def Tpo.map (base : Nat) (t : Tpo) : List Reg :=
  [⟨base, 8, t.start⟩, ⟨base + 0x08, 4, t.period⟩, ⟨base + 0x0C, 4, t.width⟩,
   ⟨base + 0x10, 4, b2n t.running + 2 * b2n t.pendingStart⟩, ⟨base + 0x18, 8, t.pulses⟩]

/-- A capture input; CAP_POP is written only. -/
def Capture.map (base : Nat) (c : Capture) : List Reg :=
  let head := match c.fifo with | (t, rising) :: _ => t % 2 ^ 63 + 2 ^ 63 * b2n rising | [] => 0
  [⟨base, 4, c.edge⟩, ⟨base + 0x04, 4, c.fifo.length⟩, ⟨base + 0x08, 4, c.lost⟩, ⟨base + 0x10, 8, head⟩]

def State.timeMap (s : State) : List Reg :=
  let t := s.time
  [⟨0x0000, 4, b2n t.mirrorSelected + 2 * b2n t.switching + 4 * t.primary.state.code + 16 * t.mirror.state.code +
      64 * b2n t.synceQualified + 128 * b2n s.stepBlocked + 256 * b2n t.everLocked⟩,
   ⟨0x0004, 4, b2n t.autoSwitch + 2 * b2n t.synceEn + 4 * b2n t.synceOutEn + 8 * t.synceLane + 256 * t.masterDomain⟩,
   ⟨0x0008, 4, t.snapSeq⟩, ⟨0x0010, 8, t.snapSec⟩, ⟨0x0018, 4, t.snapNs⟩, ⟨0x001C, 4, ofInt 32 t.frameOffset⟩,
   ⟨0x0020, 4, ofInt 32 t.domainOffset⟩, ⟨0x0024, 4, t.lockNs⟩, ⟨0x0028, 4, t.stepNs⟩, ⟨0x002C, 4, t.masterLanes.toNat⟩,
   ⟨0x0030, 4, ofInt 32 t.freqAdj⟩, ⟨0x0034, 4, ofInt 32 t.holdoverFreq⟩, ⟨0x0038, 4, t.event⟩] ++
  t.primary.map 0x40 ++ t.mirror.map 0x80 ++
  (List.range 8).flatMap (fun k => (tget {} t.tpos k).map (0x100 + 0x20 * k)) ++
  (List.range 4).flatMap (fun k => (tget {} t.captures k).map (0x200 + 0x20 * k)) ++
  (List.range 32).map (fun l => ⟨0x1000 + 8 * l, 4, ofInt 16 (s.lane l).txAdj + 2 ^ 16 * ofInt 16 (s.lane l).rxAdj⟩)

/-! ## Folds (Tables 05-8, 06-10, 07-8) -/

/-- The state code, the owner byte and the mode that physical group `j` shows (Table 06-10). -/
def Fold.groupShows (x : Fold) (j : Nat) : Nat × Nat × Nat :=
  let g := tget ({} : PGroup) x.groups j
  match g.owner with
  | some c =>
    if !g.used then (0, 0, 0)
    else if g.working then (g.state.code, c + 8 + 16 * g.logical, 0)
    else ((x.lgroup c g.logical).state.code, c + 16 * g.logical, (x.lgroup c g.logical).mode)
  | none => (0, 0, 0)

def State.foldMap (s : State) (f : Nat) : List Reg :=
  let x := s.fold f
  let groups := (List.range 8).map x.groupShows
  let slots := (List.range 8).map x.slot
  [⟨0x000, 4, x.ramp⟩,
   ⟨0x004, 4, b2n x.activePlane + 2 * b2n x.shadow.complete + 4 * b2n (s.loaderHeld f) + 8 * b2n x.issueHeld + 16 * x.octets +
      256 * b2n (decide (s.dev.dstate = .watched)) + 512 * b2n (decide (0 < x.penumbra)) + 1024 * x.shape + 2 ^ 16 * x.context⟩,
   ⟨0x008, 8, x.passes⟩, ⟨0x010, 8, x.checkedPasses⟩, ⟨0x018, 8, x.issueCycles⟩, ⟨0x020, 8, x.issueHeldCycles⟩,
   ⟨0x028, 8, x.loaderHeldCycles⟩, ⟨0x030, 4, x.mismatches⟩, ⟨0x034, 4, x.recovered⟩, ⟨0x038, 4, x.poisonedTiles⟩,
   ⟨0x03C, 4, x.tilesAbandoned⟩, ⟨0x040, 4, x.lastMismatch⟩, ⟨0x044, 4, x.arrEvent⟩,
   ⟨0x080, 4, packed 4 (groups.map (fun g => g.1))⟩, ⟨0x088, 8, packed 8 (groups.map (fun g => g.2.1))⟩,
   ⟨0x090, 4, packed 4 (groups.map (fun g => g.2.2))⟩, ⟨0x098, 4, x.satTiles⟩, ⟨0x09C, 4, x.nanTiles⟩, ⟨0x0A0, 4, x.poisonTiles⟩,
   ⟨0x0A4, 4, x.inexactTiles⟩, ⟨0x0A8, 8, x.merges⟩, ⟨0x0B0, 8, x.spills⟩, ⟨0x0B8, 8, x.restores⟩, ⟨0x0C0, 4, x.spillEcc⟩,
   ⟨0x0C4, 4, x.accEvent⟩,
   ⟨0x100, 4, packed 4 (slots.map (fun c => c.state.code))⟩, ⟨0x104, 4, packed 1 (slots.map (fun c => b2n c.radio))⟩,
   ⟨0x108, 8, packed 8 (slots.map (fun c => c.inst))⟩, ⟨0x110, 4, x.freeBundles.length⟩, ⟨0x114, 4, x.cmpUsed⟩,
   ⟨0x118, 8, x.tasksDone⟩, ⟨0x120, 8, x.cmpStall⟩, ⟨0x128, 8, x.switches⟩, ⟨0x130, 4, x.containedFaults⟩, ⟨0x134, 4, x.lastFault⟩,
   ⟨0x138, 4, x.vecEvent⟩]

/-! ## Signal cores, engines, stacks, commons, collectors (Tables 08-11, 09-16, 11-10, 11-11, 07-9) -/

def SigCore.map (c : SigCore) : List Reg :=
  let loops := packed 1 ((List.range 3).map (fun k => b2n (tget 0 c.lcnt k != 0)))
  [⟨0x000, 4, c.run.code + 8 * b2n c.ie + 16 * b2n c.frozen + 32 * loops + 256 * c.pending + 2 ^ 16 * b2n c.satSticky⟩,
   ⟨0x004, 4, c.pc⟩, ⟨0x008, 8, c.issueCycles⟩, ⟨0x010, 8, c.bankStalls⟩, ⟨0x018, 8, c.extStalls⟩, ⟨0x020, 8, c.interrupts⟩,
   ⟨0x028, 4, c.spDeferred⟩, ⟨0x02C, 4, c.ldmCorrected⟩, ⟨0x030, 4, c.pmCorrected⟩, ⟨0x034, 4, c.lastFault⟩, ⟨0x038, 4, c.faultAddr⟩,
   ⟨0x03C, 4, c.event⟩]

/-- An engine's registers; JOB_PORT is written only. -/
def Engine.map (x : Engine) : List Reg :=
  [⟨0x000, 4, b2n x.busy.isSome + 2 * x.queue.length⟩, ⟨0x008, 8, x.jobsDone⟩, ⟨0x010, 8, x.busyCycles⟩, ⟨0x018, 4, x.lateJobs⟩,
   ⟨0x01C, 4, x.crcFails⟩, ⟨0x020, 8, x.iterations⟩, ⟨0x028, 4, x.softLost⟩, ⟨0x02C, 4, x.badJobs⟩, ⟨0x030, 4, x.event⟩]

/-- Chunks under way of a kind. -/
def Mover.count (x : Mover) (k : MoveKind) : Nat :=
  (x.chans.filter (fun p => match p.2 with | some t => t.kind == k | none => false)).length

def Mover.map (x : Mover) : List Reg :=
  [⟨0x000, 4, x.count .fill + 256 * x.count .drain + 2 ^ 16 * x.count .repair⟩, ⟨0x008, 8, x.filled⟩, ⟨0x010, 8, x.drained⟩,
   ⟨0x018, 4, x.cancelled⟩, ⟨0x01C, 4, x.late⟩, ⟨0x020, 4, x.poisoned⟩, ⟨0x024, 4, x.repaired⟩, ⟨0x028, 4, x.repairFailed⟩,
   ⟨0x02C, 4, x.sumRejects⟩, ⟨0x030, 8, x.sramCorrected⟩, ⟨0x038, 4, x.sramUncorrectable⟩, ⟨0x03C, 4, x.scrubPasses⟩,
   ⟨0x040, 4, x.event⟩]

/-- A stack controller's registers; DOUBLE_RATE is set while the scrub rate is doubled (R368, log entry 94). -/
def State.stackMap (s : State) (k : Nat) : List Reg :=
  let c := s.stackCtl k
  let left := c.sparesUsed.foldl (fun n p => min n (16 - p.2)) 16
  [⟨0x000, 4, b2n c.scrubActive + 2 * b2n (decide (s.dev.dstate = .watched)) + 2 ^ 16 * left⟩, ⟨0x008, 8, c.corrected1⟩,
   ⟨0x010, 8, c.corrected2⟩, ⟨0x018, 4, c.uncorrectable⟩, ⟨0x01C, 4, c.rowsRemapped⟩, ⟨0x020, 4, c.chunksRetired⟩,
   ⟨0x024, 4, c.scrubPasses⟩, ⟨0x028, 4, c.event⟩]

def Collector.map (c : Collector) : List Reg := [⟨0x00, 8, c.taken⟩, ⟨0x08, 8, c.queueFull⟩, ⟨0x10, 4, c.maxBacklog⟩]

/-! ## DMA engines (Tables 12-9, 12-10) -/

/-- CH_STATE: PAUSED, ARMED while enabled and not paused, else IDLE; ACTIVE and HELD by the descriptor that runs. -/
def DmaEngine.chState (x : DmaEngine) (c : Nat) : Nat :=
  let ch := tget ({} : DmaChan) x.chans c
  let runs := fun (r : Option DmaRun) => match r with | some r => r.chan == c | none => false
  (if ch.paused then 2 else if ch.enable then 1 else 0) + 4 * b2n (runs x.radioRun || runs x.grazingRun) +
    8 * b2n (runs x.grazingRun && x.grazingHeld)

def DmaEngine.chanMap (x : DmaEngine) (c : Nat) : List Reg :=
  let ch := tget ({} : DmaChan) x.chans c
  let base := 0x100 + 0x40 * c
  [⟨base, 4, b2n ch.enable + 2 * b2n ch.pace + 4 * b2n ch.radio + 8 * ch.prio + 2 ^ 7 * ch.log2 + 2 ^ 11 * ch.context +
      2 ^ 16 * ch.ownerInst + 2 ^ 24 * ch.ownerKind⟩,
   ⟨base + 0x08, 8, ch.ringAddr⟩, ⟨base + 0x10, 4, ch.tail⟩, ⟨base + 0x14, 4, ch.head⟩, ⟨base + 0x18, 4, ch.level⟩,
   ⟨base + 0x1C, 4, ch.highWm⟩, ⟨base + 0x20, 4, ch.lowWm⟩, ⟨base + 0x24, 4, x.chState c⟩, ⟨base + 0x28, 8, ch.bytes⟩,
   ⟨base + 0x30, 4, ch.pauses⟩, ⟨base + 0x34, 4, ch.lastStatus⟩]

def DmaEngine.map (x : DmaEngine) : List Reg :=
  let chan := fun (r : Option DmaRun) => match r with | some r => r.chan | none => 0
  [⟨0x000, 4, chan x.radioRun + 16 * b2n x.radioRun.isSome + 256 * chan x.grazingRun + 2 ^ 12 * b2n x.grazingRun.isSome +
      2 ^ 13 * b2n x.grazingHeld⟩,
   ⟨0x008, 8, x.bytesMoved⟩, ⟨0x010, 8, x.descriptorsDone⟩, ⟨0x018, 8, x.lineAccesses⟩, ⟨0x020, 4, x.heldCount⟩,
   ⟨0x024, 4, x.errorCount⟩, ⟨0x028, 4, x.event⟩] ++ (List.range 16).flatMap x.chanMap

/-! ## Fronthaul and fabric ports (Tables 13-12, 13-13, 15-10) -/

/-- A lane's registers: a value written counts as written although it takes effect at a frame boundary (R11, R426). -/
def Lane.map (base : Nat) (l : Lane) : List Reg :=
  [⟨base, 4, l.overheadNext.getD l.overhead⟩, ⟨base + 0x04, 4, (l.pcpNext.getD l.pcpDeiMap).toNat⟩,
   ⟨base + 0x08, 16, l.dscpNext.getD l.dscpMap⟩, ⟨base + 0x20, 8, l.txFrames⟩, ⟨base + 0x28, 8, l.txBytes⟩,
   ⟨base + 0x30, 8, l.rxFrames⟩, ⟨base + 0x38, 8, l.rxBytes⟩, ⟨base + 0x40, 4, l.rxFcsErr⟩, ⟨base + 0x44, 4, l.rxUnmatched⟩,
   ⟨base + 0x48, 4, l.upLate⟩, ⟨base + 0x4C, 4, l.upSeqGap⟩, ⟨base + 0x50, 4, l.upFormatErr⟩, ⟨base + 0x54, 4, l.rxQueueFull⟩,
   ⟨base + 0x58, 8, l.rxGreen⟩, ⟨base + 0x60, 8, l.rxYellow⟩, ⟨base + 0x68, 8, l.rxRed⟩, ⟨base + 0x70, 4, l.txDeadlineDrop⟩,
   ⟨base + 0x74, 4, l.maskViolations⟩, ⟨base + 0x78, 8, l.fecCorrected⟩, ⟨base + 0x80, 4, l.fecUncorrectable⟩]

def State.fhMap (s : State) (p : Nat) : List Reg :=
  let lanes := (List.range 4).map (fun i => s.lane (4 * p + i))
  [⟨0x000, 4, (s.fhPort p).mode⟩,
   ⟨0x004, 4, packed 1 (lanes.map (fun l => b2n l.linkUp)) + 16 * packed 1 (lanes.map (fun l => b2n l.training))⟩,
   ⟨0x008, 4, (s.fhPort p).event⟩] ++
  (List.range 4).flatMap (fun i => (s.lane (4 * p + i)).map (0x100 + 0x100 * i))

def FabPort.map (x : FabPort) : List Reg :=
  [⟨0x000, 4, x.link.code + 8 * x.phase + 64 * b2n x.timingMaster + 256 * x.heldReason + 2 ^ 16 * x.lastStatus⟩,
   ⟨0x004, 4, x.lanes⟩, ⟨0x008, 8, x.neighbourUid.toNat⟩, ⟨0x010, 4, x.neighbourPort⟩, ⟨0x014, 4, ofInt 32 x.freqOffset⟩,
   ⟨0x018, 8, x.eye.echo.toNat⟩, ⟨0x020, 8, x.eye.height.toNat⟩, ⟨0x028, 8, x.eye.width.toNat⟩, ⟨0x030, 8, x.fecCorrected⟩,
   ⟨0x038, 4, x.fecUncorrectable⟩, ⟨0x03C, 4, x.replays⟩, ⟨0x040, 4, x.trainFails⟩, ⟨0x044, 4, x.linkDowns⟩, ⟨0x048, 8, x.txFlits⟩,
   ⟨0x050, 8, x.rxFlits⟩, ⟨0x058, 8, packed 12 x.credits⟩, ⟨0x060, 4, x.spoofDrops⟩, ⟨0x064, 4, x.ceMarks⟩, ⟨0x068, 4, x.event⟩]

/-! ## The device's block (Tables 10-7, 15-11, 16-9, 17-6, 18-7, 19-12, 20-8, 21-8) -/

/-- Shepherd registers; the counters of fold time are kept in finer units than fold-µs. -/
def State.shepMap (s : State) : List Reg :=
  let h := s.shep
  [⟨0x0000, 4, s.settings.share⟩, ⟨0x0004, 4, s.settings.penumbra⟩, ⟨0x0008, 4, bitsOn h.eligible⟩,
   ⟨0x000C, 4, s.reservedCells.length + 2 ^ 10 * (s.reservedSet.map (fun x => quarterUnits x.cfg)).sum +
      2 ^ 21 * b2n s.changesBlocked⟩,
   ⟨0x0010, 8, h.windows⟩, ⟨0x0018, 8, h.slotsServed⟩, ⟨0x0020, 8, h.slotsMissed⟩, ⟨0x0028, 8, h.slotsSuspended⟩,
   ⟨0x0030, 20, packed 32 ((List.range 5).map (fun k => tget 0 h.missCause (k + 1)))⟩, ⟨0x0048, 8, h.lentFoldUs / 16000000⟩,
   ⟨0x0050, 8, h.penumbraFoldUs / 1000⟩, ⟨0x0058, 4, h.event⟩]

/-- CELL_COUNTERS of a cell. -/
def Cell.counters (x : Cell) : Nat :=
  x.slotsServed + 2 ^ 64 * x.slotsMissed + 2 ^ 128 * x.slotsSuspended + 2 ^ 192 * x.lastMissSlot + 2 ^ 224 * x.lastMissStage +
    2 ^ 232 * x.lastMissCause

def Fabric.map (f : Fabric) : List Reg :=
  [⟨0x5000, 4, f.node.getD 0 + 2 ^ 12 * b2n f.node.isSome + 2 ^ 13 * b2n f.bellwether + 2 ^ 14 * b2n f.nodeConflict +
      2 ^ 15 * b2n f.torusMode⟩,
   ⟨0x5004, 4, f.hint + 2 ^ 12 * b2n f.hintValid⟩, ⟨0x5008, 4, f.shape.toNat⟩, ⟨0x5010, 8, f.bwUid.toNat⟩, ⟨0x5018, 4, f.term⟩,
   ⟨0x501C, 4, f.epoch⟩, ⟨0x5020, 4, f.tableVersion⟩, ⟨0x5024, 4, (f.nodes.filter (fun p => p.2.live)).length⟩,
   ⟨0x5028, 4, f.unroutable⟩, ⟨0x502C, 4, f.linkLostDrops⟩, ⟨0x5030, 4, f.staleSource⟩, ⟨0x5034, 4, f.epochDrops⟩,
   ⟨0x5038, 4, f.hopLimitDrops⟩, ⟨0x503C, 4, f.hcrcErrors⟩, ⟨0x5040, 4, f.elections⟩, ⟨0x5044, 4, f.event⟩]

def FabMem.map (m : FabMem) : List Reg :=
  [⟨0x5100, 4, m.replay.length⟩, ⟨0x5104, 4, (m.regions.filter (fun p => decide (p.2.state ≠ .unused))).length⟩,
   ⟨0x5108, 8, m.atomicsApplied⟩, ⟨0x5110, 4, m.replayHits⟩, ⟨0x5114, 4, m.replayFull⟩, ⟨0x5118, 4, m.staleRepeats⟩,
   ⟨0x511C, 4, m.outcomeUnknown⟩, ⟨0x5120, 4, m.keyMismatches⟩, ⟨0x5124, 4, m.accessDenied⟩, ⟨0x5128, 4, m.compatAccepts⟩,
   ⟨0x512C, 4, m.hotLines⟩, ⟨0x5130, 4, m.ceResponses⟩, ⟨0x5138, 8, m.lastHotLine⟩, ⟨0x5140, 4, m.event⟩]

def Prov.map (p : Prov) : List Reg :=
  [⟨0x5200, 4, b2n p.enabled + 2 * p.log2⟩, ⟨0x5204, 4, p.intervalMs⟩, ⟨0x5208, 8, p.logBase⟩, ⟨0x5210, 4, p.tail⟩,
   ⟨0x5214, 4, p.head⟩, ⟨0x5218, 4, p.interval⟩, ⟨0x521C, 4, p.dropped⟩, ⟨0x5220, 8, p.leaves⟩, ⟨0x5228, 8, p.holdCycles⟩,
   ⟨0x5230, 4, p.event⟩, ⟨0x5240, 32, p.instances⟩]

def Spoof.map (x : Spoof) : List Reg :=
  [⟨0x5300, 8, x.total⟩, ⟨0x5308, 20, packed 32 ((List.range 5).map (fun k => (tget (0, 0, none) x.kinds (k + 1)).1))⟩,
   ⟨0x531C, 4, x.event⟩]

/-- The registers of one instance, 32 bytes. -/
def Inst.map (x : Inst) : List Reg :=
  [⟨0x00, 4, x.state.code + 2 ^ 16 * x.generation⟩, ⟨0x04, 4, x.spoofCount⟩, ⟨0x08, 4, x.staleDiscards⟩, ⟨0x0C, 4, x.frozenDrops⟩,
   ⟨0x10, 8, x.dirtyPages⟩, ⟨0x18, 4, x.resets⟩]

/-- LEDGER_MODE: 0 all classes, 1 K and S, 2 K only (R580). -/
def State.ledgerMode (s : State) : Nat := if s.ledgerTakes 2 then 0 else if s.ledgerTakes 1 then 1 else 2

def State.healthMap (s : State) : List Reg :=
  let h := s.health
  [⟨0x8000, 4, h.device.score + 2 ^ 10 * h.device.cls + 2 ^ 12 * b2n (!h.retests.isEmpty) + 2 ^ 13 * b2n (!h.sweeps.isEmpty) +
      2 ^ 14 * s.ledgerMode⟩,
   ⟨0x8004, 4, s.ledgerFree / 1024⟩, ⟨0x8008, 4, h.ledgerSeq⟩, ⟨0x800C, 4, h.ledgerDropped⟩, ⟨0x8010, 4, h.device.deficit.toNat⟩,
   ⟨0x8014, 4, h.escalations⟩, ⟨0x8018, 4, bitsOn h.condFenced⟩, ⟨0x801C, 4, h.patrolFails⟩, ⟨0x8020, 8, h.patrolRuns⟩,
   ⟨0x8028, 4, h.event⟩]

/-- The health registers of one fold, 16 bytes; the span of MISMATCH_BINS is that of R593. -/
def State.foldHealthMap (s : State) (f : Nat) : List Reg :=
  let x := s.scope (some f)
  let y := tget ({} : FoldHealth) s.health.foldHealth f
  let z := s.fold f
  [⟨0x00, 4, x.score + 2 ^ 10 * x.cls + 2 ^ 12 * b2n (s.health.condFenced.contains f) + 2 ^ 13 * b2n y.inBands +
      2 ^ 14 * y.tempBand + 2 ^ 17 * y.actBand⟩,
   ⟨0x04, 4, x.deficit.toNat⟩, ⟨0x08, 4, y.condBin⟩,
   ⟨0x0C, 4, min 255 (((z.bins.filter (fun p => decide (z.checkedPasses < p.2 + 1000000000000))).map
      (fun p => p.1)).eraseDups.length)⟩]

def State.secMap (s : State) : List Reg :=
  let x := s.sec
  [⟨0x9000, 4, b2n x.bootRecovery + 2 * x.slot + 8 * s.fuses.revoked.toNat + 2 ^ 7 * s.fuses.svn + 2 ^ 14 * b2n x.sessionReady +
      2 ^ 15 * b2n x.renewing + 2 ^ 16 * b2n x.idExhausted + 2 ^ 17 * b2n x.persistDone⟩,
   ⟨0x9004, 4, s.fuses.idSteps⟩, ⟨0x9008, 4, x.idNext⟩, ⟨0x900C, 4, x.sessionSeq⟩, ⟨0x9010, 4, x.sessionNext⟩, ⟨0x9014, 4, x.quotes⟩,
   ⟨0x9018, 8, x.signatures⟩, ⟨0x9020, 4, x.ext8 + 256 * x.ext9 + 2 ^ 16 * x.ext10⟩, ⟨0x9024, 4, x.quoteRate⟩, ⟨0x9028, 4, x.event⟩,
   ⟨0x902C, 4, x.rootsUnsigned⟩]

/-- POWER_STATE: 0 full, 1 dusk, 2 night. -/
def powerState : DState → Nat
  | .dusk => 1 | .night => 2 | _ => 0

def State.powerMap (s : State) : List Reg :=
  let p := s.power
  [⟨0xA000, 4, powerState s.dev.dstate + 4 * b2n p.entering + 8 * b2n p.waking + 16 * b2n p.removalReady⟩,
   ⟨0xA004, 4, p.retFoldsIn.toNat⟩, ⟨0xA008, 4, p.retCommonsIn + 4 * b2n p.retRadioIn⟩, ⟨0xA00C, 4, p.nightPortsIn.toNat⟩,
   ⟨0xA010, 4, p.nightEntries⟩, ⟨0xA014, 4, p.retZeroed⟩, ⟨0xA018, 4, p.tMailboxUs⟩, ⟨0xA01C, 4, p.tFirstHbmUs⟩,
   ⟨0xA020, 4, p.tAllReadyUs⟩, ⟨0xA040, 4, p.fyf.code + 8 * p.width + 2 ^ 9 * b2n p.fyfDegraded + 2 ^ 16 * p.fyfAgreed⟩,
   ⟨0xA044, 4, p.fyfReplays⟩, ⟨0xA048, 4, p.fyfRecoveries⟩, ⟨0xA04C, 4, p.fyfDrops⟩, ⟨0xA050, 4, p.filter.length⟩,
   ⟨0xA054, 4, p.sfRecalls⟩, ⟨0xA058, 4, p.sfPoisoned⟩, ⟨0xA060, 4, p.event⟩]

/-- The word at an offset of the device's block. -/
def State.readDevice (s : State) (r : Nat) : Nat :=
  if r < 0x1000 then regWord s.shepMap r
  else if r < 0x5000 then (s.cell ((r - 0x1000) / 0x20)).counters / 2 ^ (8 * (r % 0x20)) % 2 ^ 32
  else if r < 0x5100 then regWord s.fab.map r
  else if r < 0x5200 then regWord s.fabMem.map r
  else if r < 0x5300 then regWord s.prov.map r
  else if r < 0x6000 then regWord s.spoof.map r
  else if r < 0x8000 then regWord (s.inst ((r - 0x6000) / 0x20)).map (r % 0x20)
  else if r < 0x8100 then regWord s.healthMap r
  else if r < 0x8300 then regWord (s.foldHealthMap ((r - 0x8100) / 0x10)) (r % 0x10)
  else if r < 0x9000 then 0
  else if r < 0xA000 then regWord s.secMap r
  else regWord s.powerMap r

/-! ## The control window -/

/-- The word at an offset of a unit's block. -/
def State.readUnit (s : State) (u : UnitId) (r : Nat) : Nat :=
  match u.ty with
  | .device => s.readDevice r
  | .fold => regWord (s.foldMap u.idx) r
  | .sigCore => regWord (s.sigCore u.idx).map r
  | .engine => regWord (s.engine u.idx).map r
  | .stackCtl => regWord (s.stackMap u.idx) r
  | .fabPort => regWord (s.fport u.idx).map r
  | .fhPort => regWord (s.fhMap u.idx) r
  | .dma => regWord (s.dmaEng u.idx).map r
  | .commons => regWord (s.mover u.idx).map r
  | .collector => regWord (s.collector u.idx).map r
  | .die | .stack | .sigGroup | .ctlCore => 0

/-- A record of the debug window of a fold (Table 07-10), 16 bytes. -/
def State.debugRecord (s : State) (f r : Nat) : Nat :=
  let x := s.fold f
  if r < 0x8000 then
    let b := r / 16 % 128
    let v := tget ({} : VBundle) (x.vcore (r / 2048)).bundles b
    v.pc % 2 ^ 32 + 2 ^ 32 * (x.bundleSlot b).getD 0 + 2 ^ 35 * b2n v.ready + 2 ^ 36 * b2n v.stopped
  else if r < 0x8400 then
    match x.faultLog[(r - 0x8000) / 16]? with
    | some (code, core, bundle, addr, t) => code + 16 * core + 256 * bundle + 2 ^ 16 * addr + 2 ^ 64 * t
    | none => 0
  else if r < 0x9400 then
    match x.dispatchTrace[(r - 0x8400) / 16]? with
    | some (inst, ctx, rank, tile, t) => inst + 256 * ctx + 2 ^ 16 * rank + 2 ^ 32 * tile + 2 ^ 64 * t
    | none => 0
  else 0

/-- The word at an offset of the debug block: 0 unless the manager has enabled debug access and the fold is FENCED with DEBUG
set (R35, R244). -/
def State.readDebug (s : State) (d : Nat) : Nat :=
  let f := d / 0x80000
  let u : UnitId := ⟨.fold, f⟩
  if s.dev.debugAccess && decide (f < 32) && decide ((s.unit u).state = .fenced) && (s.unit u).debug then
    s.debugRecord f (d % 0x80000) / 2 ^ (8 * (d % 16)) % 2 ^ 32
  else 0

/-- The 32-bit word that a read of the control window returns (Table 01-6). -/
def State.readWord (s : State) (offset : Nat) : Nat :=
  if offset % 4 ≠ 0 then 0
  else if offset < 0x0010_0000 then leNat ((s.table.drop offset).take 4)
  else if offset < 0x0011_0000 then regWord (s.mbxMap ((offset - 0x0010_0000) / 4096)) (offset % 4096)
  else if offset < 0x0020_0000 then 0
  else if offset < 0x0030_0000 then regWord (s.dbPage ((offset - 0x0020_0000) / 4096)).map (offset % 4096)
  else if offset < 0x0100_0000 then 0
  else if offset < 0x0101_0000 then regWord s.timeMap (offset - 0x0100_0000)
  else if offset < 0x0110_0000 then 0
  else if offset < 0x0120_0000 then regWord (s.ring ((offset - 0x0110_0000) / 256)).map (offset % 256)
  else if offset < 0x0200_0000 then 0
  else if offset < 0x0300_0000 then s.readDebug (offset - 0x0200_0000)
  else if offset < 0x0400_0000 ∧ s.units.published then
    match blockAt offset with
    | some u => s.readUnit u (offset - regOffset u)
    | none => 0
  else 0

end Sys2Proof.Machine
end

