-- ==== Sys2Proof/Safety.lean ====
section
/-! DEFINITION. What the statements about the device are made of: the legal settings, what fuses and flash never lose,
a command that is taken up and its answer, and the parts of the state that a response never touches. -/

namespace Sys2Proof.Machine

/-! ## Invariants and what never turns back -/

/-- The legal settings of the shepherd (R335): the array share is at most 50 per cent and the penumbra between 3,000 and
100,000 ns, in force and for the next window. -/
def Settings.legal (x : Settings) : Prop :=
  x.share ≤ 50 ∧ x.shareNext ≤ 50 ∧ 3000 ≤ x.penumbra ∧ x.penumbra ≤ 100000 ∧
    3000 ≤ x.penumbraNext ∧ x.penumbraNext ≤ 100000

/-- The fuses may have come from `f` to `g`: nothing that is burned is undone (Table 20-1). -/
def Fuses.burned (f g : Fuses) : Prop :=
  g.uid = f.uid ∧ g.keyHash = f.keyHash ∧ f.svn ≤ g.svn ∧ f.idSteps ≤ g.idSteps ∧ f.revoked ||| g.revoked = g.revoked

/-- A ledger batch without its signature. -/
def LBatch.unsigned (b : LBatch) : LBatch := { b with signature := none }

/-- The flash may have come from `f` to `g`: batches are only added and signed (R577), reserved incarnation numbers only
rise (R59), a retired unit stays retired (R57). -/
def Flash.grown (f g : Flash) : Prop :=
  (∃ l, g.batches.map LBatch.unsigned = l ++ f.batches.map LBatch.unsigned) ∧
    (∀ k, tget 0 f.reserved k ≤ tget 0 g.reserved k) ∧
    (∀ p, p ∈ f.retired → p ∈ g.retired)

/-- What every step keeps of the state `a` it starts from. -/
structure Kept (a s : State) : Prop where
  pending : s.pending = a.pending
  mem : a.mem.wf = true → s.mem.wf = true
  legal : a.settings.legal → s.settings.legal
  fuses : a.fuses.burned s.fuses
  flash : a.flash.grown s.flash

/-! ## Commands of the mailbox interface -/

/-- The command `c` with opcode `op` is taken up from mailbox `m`, its control core runs, and its slot has a form that
check 5 of R90 lets pass (R81, R87). -/
def Taken (s : State) (m op : Nat) (c : Cmd) : Prop :=
  (s.mbox m).current = some c ∧ c.opcode = op ∧ (s.core (serverOf m)).restarting = false ∧ c.shapeOk = true

/-- The mailbox after the response to `c` in device state `d`, written to its slot or, with `ok` false, lost with the link
(Table 03-4, R80, R81, R83, R93, R95): the response is stored for a repetition, a command that goes on is listed, HEAD counts
or FETCH_FAULT is set, nothing is taken up any more, and a write to ENABLE that waited takes effect. -/
def Mailbox.answered (c : Cmd) (st : Status) (result : Bytes) (pending : Bool) (d : Nat) (ok : Bool) (b : Mailbox) : Mailbox :=
  Mailbox.settle (Mailbox.written c ok { b with
    long := if pending then b.long ++ [⟨c.opcode, c.seq⟩] else b.long
    stored := some { opcode := c.opcode, status := st, seq := c.seq, instId := c.instId, pending, result, dstate := d } })

/-! ## Rows of the mailbox interface -/

/-- Opcodes and rows of the commands of Tables 03-4 to 03-8 (Table 03-9). -/
def deviceRows : List (Nat × (Fin 16 → Instr)) :=
  [(0x0001, .mbxVersion), (0x0002, .mbxAssign), (0x0003, .devQuery), (0x0004, .devConfigure),
   (0x0005, .devCommit), (0x0006, .devReset), (0x0007, .evrConfigure), (0x0008, .debugAccess)]

/-- Opcodes and rows of the commands of chapters 11 and 18 (Table 03-9). -/
def instanceRows (image : Image) : List (Nat × (Fin 16 → Instr)) :=
  [(0x0101, .instCreate), (0x0102, .instDestroy), (0x0103, .instReset), (0x0104, .instFreeze),
   (0x0105, .instExport), (0x0106, (.instImport · image)), (0x0107, .instThaw), (0x0108, .dirtySwap),
   (0x0109, .quotaSet)]

/-- Opcodes and rows of the commands of chapters 09 and 10 (Table 03-9). -/
def radioRows : List (Nat × (Fin 16 → Instr)) :=
  [(0x0201, .cellAdd), (0x0202, .cellRemove), (0x0203, .cellReconfigure), (0x0204, .radioShareSet),
   (0x0205, .penumbraSet), (0x0206, .nrxLoad)]

/-- Opcodes and rows of the commands of chapter 11 (Table 03-9). -/
def objectRows : List (Nat × (Fin 16 → Instr)) :=
  [(0x0301, .objCreate), (0x0302, .objPromote), (0x0303, .objEvict), (0x0304, .objAlternate),
   (0x0305, .objDestroy), (0x0306, .objQuery)]

/-- Opcodes and rows of the commands of chapters 14 to 16 (Table 03-9). -/
def fabricRows : List (Nat × (Fin 16 → Instr)) :=
  [(0x0401, .fabRegionSet), (0x0402, .fabCompatSet), (0x0403, .fabPortSet), (0x0404, .fabTopologyGet),
   (0x0501, .timeDomainSelect), (0x0502, .tpoSet), (0x0503, .captureArm)]

/-- Opcodes and rows of the commands of chapter 19 (Table 03-9). -/
def healthRows : List (Nat × (Fin 16 → Instr)) :=
  [(0x0601, .watchSet), (0x0602, .retest), (0x0603, .marginSweep), (0x0604, .devFence),
   (0x0605, .devUnfence), (0x0606, .unitFence), (0x0607, .unitRetire), (0x0608, .standbyEnter),
   (0x0609, .assume), (0x060A, .ledgerRead), (0x060B, .progressRead)]

/-- Opcodes and rows of the commands of chapters 06, 17, 20 and 21 (Table 03-9). -/
def otherRows : List (Nat × (Fin 16 → Instr)) :=
  [(0x0701, .provenanceSet), (0x0702, .measureRead), (0x07F0, .fwRecoveryLoad), (0x0801, .powerSet),
   (0x0802, .prepareRemoval), (0x0803, .retentionSelect), (0x0901, .foldDebugHold), (0x0902, .foldDebugRead),
   (0x0903, .foldDebugRelease)]

/-- The rows that act on a command taken up from a mailbox, with their opcodes (Table 03-9); the image is the one that
INST_IMPORT reads. -/
def commandRows (image : Image) : List (Nat × (Fin 16 → Instr)) :=
  deviceRows ++ instanceRows image ++ radioRows ++ objectRows ++ fabricRows ++ healthRows ++ otherRows

/-! ## What events and responses touch -/

/-- The state but for what an event may touch: event rings, memory, the counter of dropped link writes and the record of
outputs. -/
def State.quiet (s : State) : State :=
  { s with rings := [], mem := Mem.empty, out := [], power := { s.power with fyfDrops := 0 } }

/-- Memory that is not the companion's is the same. -/
def SameDeviceMem (s t : State) : Prop := ∀ sp a, sp ≠ .companion → t.mem.rd (key sp a) = s.mem.rd (key sp a)

/-- `t` is `u` but for events raised on the way: rings, companion memory, outputs. -/
def Reports (u t : State) : Prop := t.quiet = u.quiet ∧ SameDeviceMem u t

/-- `t` is `u`, the state with the command's effect, after the response to the command `c` of mailbox `m` and the events
raised on the way; no other mailbox is touched. -/
def Responds (u t : State) (m : Nat) (c : Cmd) (st : Status) (result : Bytes) (pending : Bool) : Prop :=
  Reports { u with mboxes := [] } { t with mboxes := [] } ∧
    ∀ k, t.mbox k = if k = m then (u.mbox m).answered c st result pending u.dev.dstate.code u.carries else u.mbox k

/-- In `t` the command `c` of mailbox `m` has been answered, and every other mailbox is as in `s`. -/
def Answers (s t : State) (m : Nat) (c : Cmd) (st : Status) (result : Bytes) (pending : Bool) : Prop :=
  ∀ k, t.mbox k = if k = m then (s.mbox m).answered c st result pending t.dev.dstate.code t.carries else s.mbox k

/-! ## Frames -/

/-- The parts of the state that a frame names: the fields of `State`, memory of the device beside all of memory, and the
counter of dropped link writes beside the rest of `power`. -/
inductive Field where
  | pending | dev | units | mboxes | rings | evPages | dbPages | insts | spoof | tiers | mem | folds | disp | queues | radio | shep
  | settings | dma | fh | time | fab | fabMem | prov | health | flash | fuses | sec | power | pkg | out | fresh | deviceMem | fyfDrops
  deriving DecidableEq, Repr

/-- A field is the same in two states. -/
def Field.same (s t : State) : Field → Prop
  | .pending => t.pending = s.pending
  | .dev => t.dev = s.dev
  | .units => t.units = s.units
  | .mboxes => t.mboxes = s.mboxes
  | .rings => t.rings = s.rings
  | .evPages => t.evPages = s.evPages
  | .dbPages => t.dbPages = s.dbPages
  | .insts => t.insts = s.insts
  | .spoof => t.spoof = s.spoof
  | .tiers => t.tiers = s.tiers
  | .mem => t.mem = s.mem
  | .folds => t.folds = s.folds
  | .disp => t.disp = s.disp
  | .queues => t.queues = s.queues
  | .radio => t.radio = s.radio
  | .shep => t.shep = s.shep
  | .settings => t.settings = s.settings
  | .dma => t.dma = s.dma
  | .fh => t.fh = s.fh
  | .time => t.time = s.time
  | .fab => t.fab = s.fab
  | .fabMem => t.fabMem = s.fabMem
  | .prov => t.prov = s.prov
  | .health => t.health = s.health
  | .flash => t.flash = s.flash
  | .fuses => t.fuses = s.fuses
  | .sec => t.sec = s.sec
  | .power => { t.power with fyfDrops := 0 } = { s.power with fyfDrops := 0 }
  | .pkg => t.pkg = s.pkg
  | .out => t.out = s.out
  | .fresh => t.fresh = s.fresh
  | .deviceMem => SameDeviceMem s t
  | .fyfDrops => t.power.fyfDrops = s.power.fyfDrops

/-- What an event may touch (R107 to R109, R645). -/
def eventFields : List Field := [.rings, .mem, .out, .fyfDrops]

/-- From `s` to `t` every field is the same but those of the list. -/
def Only (l : List Field) (s t : State) : Prop := ∀ p, p ∉ l → p.same s t

end Sys2Proof.Machine
end

