-- ==== Sys2Proof/Certificates/Slice0/Obligations.lean ====
section
/-! DEFINITION. The statements for the provers: what the commands of the device do, family by family, and what every step
keeps. Each docstring cites the rules of spec/ that its statement rests on. -/

open Sys2Proof Sys2Proof.Machine

/-- A step is the front command on the queue's rest; that an empty queue idles is the model's choice (log entry 5). -/
def Obligations.StepRunsTheFrontCommand : Prop :=
  (∀ c s rest, s.pending = c :: rest → step s = exec c { s with pending := rest }) ∧
  (∀ s, s.pending = [] → step s = .next s)

/-- The state after reset (R12) meets the invariant of `EveryStepKeepsTheInvariant` and holds the reset values named. -/
def Obligations.ResetMeetsTheInvariant : Prop :=
  State.reset.mem.wf = true ∧ State.reset.settings.legal ∧ State.reset.pending = [] ∧ State.reset.dev.dstate = .rom ∧
  State.reset.settings.share = 40 ∧ State.reset.settings.penumbra = 20000 ∧
  (∀ m : Fin 16, (State.reset.mbox m).role = (if m = 0 then .manager else .unassigned) ∧ (State.reset.mbox m).enable = false) ∧
  (State.reset.time.dom false).kp = 0x3DCCCCCD

/-- From every state that meets the invariant, a step gives a state that meets it: memory in canonical form, and the
legal settings of R335. -/
def Obligations.EveryStepKeepsTheInvariant : Prop :=
  ∀ s t, step s = .next t → (s.mem.wf = true → t.mem.wf = true) ∧ (s.settings.legal → t.settings.legal)

/-- Fuses only burn (Table 20-1), ledger batches are only added and signed (R577), reserved incarnation numbers only rise
(R59), a retired unit stays retired (R57); a command leaves the queue alone. -/
def Obligations.FusesBurnAndTheFlashGrows : Prop :=
  ∀ s t, step s = .next t → s.fuses.burned t.fuses ∧ s.flash.grown t.flash ∧ t.pending = s.pending.tail

/-- Every row of the table has an effect in every state. -/
def Obligations.EveryCommandAnswersANextState : Prop := ∀ i s, ∃ t, exec i s = .next t

/-- A mailbox row acts only on a command with its opcode that is taken up, while its control core runs (R85, R41). -/
def Obligations.ACommandNotTakenUpDoesNothing : Prop :=
  ∀ image, ∀ row ∈ commandRows image, ∀ (m : Fin 16) s,
    (∀ c, (s.mbox m).current = some c → c.opcode ≠ row.1 ∨ (s.core (serverOf m)).restarting = true) → exec (row.2 m) s = .next s

/-- R97, R12: BOARD_RESET; R635, R646, R611: its release; R606, R607, R45: IMAGE_VERIFY; R608: FW_RECOVERY_VERIFIED; R609:
IMAGE_PERSIST_DONE. -/
def Obligations.BoardResetAndBringUp : Prop :=
  (∀ s, ∃ t u, exec .boardReset s = .next t ∧
    Reports { s with dev := { s.dev with dstate := .rom }, pkg := u.pkg } u ∧
    t = { State.reset with
      pending := s.pending, flash := s.flash, fuses := s.fuses, out := u.out, fresh := s.fresh, mem := t.mem
      pkg := { brakeLow := s.pkg.brakeLow, flashAsked := s.pkg.flashAsked, flashGranted := s.pkg.flashGranted,
               grade1400 := s.pkg.grade1400, powerUp := s.pkg.powerUp }
      health := { ledgerSeq := nextLedgerSeq s.flash } } ∧
    (∀ a, t.mem.rd (key .companion a) = u.mem.rd (key .companion a)) ∧
    ∀ sp a, sp ≠ .companion → t.mem.rd (key sp a) = 0#8) ∧
  (∀ h s, s.pkg.resetHigh = false → s.pkg.latched = false → ∃ t, exec (.boardResetRelease h) s = .next t ∧
    t.pkg = { s.pkg with resetHigh := true, hotInsertion := h, bringUp := true, jtag := none } ∧
    t.measure 0 = shakeTag 32 [0x4D, 0x56, 0x4E, 0x2D, 0x4D, 0x58] (s.measure 0 ++ fixLen 32 Config.romDigest) ∧
    (∀ i, i ≠ 0 → t.measure i = s.measure i) ∧ Only [.pkg, .sec] s t) ∧
  (∀ readOk s, s.dev.dstate = .rom → s.pkg.resetHigh = true → s.pkg.latched = false → s.sec.tried = false →
    s.sec.recovery = [] → s.sec.recoveryImage = none → ∃ t, exec (.imageVerify readOk) s = .next t ∧
    t.pkg.flashGranted = (s.pkg.flashGranted || s.pkg.flashAsked) ∧
    (if readOk = true ∧ verifyImage s.fuses s.flash.image = 0 then
      t.dev.dstate = .loaded ∧ t.units.published = true ∧ t.units.changeCount = 2 ∧
      Only ([.dev, .units, .health, .flash, .prov, .sec, .pkg] ++ eventFields) s t
     else t = { s with sec := { s.sec with tried := true }, pkg := t.pkg })) ∧
  (∀ ok s a n report persist seq rest, s.dev.dstate = .rom → s.sec.recovery = (a, n, report, persist, seq) :: rest →
    ∃ t, exec (.fwRecoveryVerified ok) s = .next t ∧ t.fuses = s.fuses ∧ t.flash = s.flash ∧ t.dev.dstate = .rom ∧
    (if ok = true ∧ verifyImage s.fuses (s.rd .companion a n) = 0 then
      t.sec.recoveryImage = some (s.rd .companion a n, persist) ∧ t.sec.recovery = [] ∧ t.sec.tried = false ∧ t.mboxes = resetMailboxes
     else t.sec = { s.sec with recovery := rest } ∧ Only [.mboxes, .mem, .fyfDrops, .sec] s t)) ∧
  (∀ powerLost s b, s.sec.recoveryImage = some (b, true) → s.dev.dstate ≠ .rom → s.sec.persistDone = false →
    s.pkg.flashGranted = false → exec (.imagePersistDone powerLost) s = .next
      (if powerLost then { s with flash := { s.flash with image := [] } }
       else { s with flash := { s.flash with image := b }, sec := { s.sec with persistDone := true } }))

/-- R608: FW_RECOVERY_LOAD; R97, R580, R609: DEV_CONFIGURE; R97: DEV_COMMIT; R11, R96: DEV_RESET; R35, R611: DEBUG_ACCESS. -/
def Obligations.RecoveryLoadConfigureCommitResetDebug : Prop :=
  (∀ s (m : Fin 16) c, Taken s m.val 0x07F0 c → 25 ≤ c.argLength → c.arg 0x20 8 % 4096 = 0 → c.arg 0x30 8 % 64 = 0 →
    s.dev.dstate = .rom → (s.mbox m).long.length < 4 → ∃ t, exec (.fwRecoveryLoad m) s = .next t ∧
    Responds { s with sec := { s.sec with recovery := s.sec.recovery ++
      [(c.arg 0x20 8, c.arg 0x28 4, c.arg 0x30 8, bitOf (c.arg 0x38 1) 0, c.seq)] } } t m c .ok [] true) ∧
  (∀ s (m : Fin 16) c, Taken s m.val 0x0004 c → c.argLength = 0 → s.dev.dstate = .loaded → s.unreserved = false →
    ∃ t, exec (.devConfigure m) s = .next t ∧ Answers s t m c .ok [] false ∧
    t.dev = { s.dev with dstate := .configuring, configured := true } ∧
    t.fuses = { s.fuses with svn := max s.fuses.svn s.sec.manifestSvn
                             revoked := s.fuses.revoked ||| (BitVec.ofNat 4 s.sec.manifestRevoke &&& ~~~(1#4 <<< s.sec.slot)) } ∧
    Only ([.mboxes, .dev, .fuses, .dma, .folds, .deviceMem] ++ eventFields) s t) ∧
  (∀ s (m : Fin 16) c, Taken s m.val 0x0005 c → c.argLength = 0 → s.dev.dstate = .configuring → s.time.everLocked = true →
    ∃ t, exec (.devCommit m) s = .next t ∧ Answers s t m c .ok [] false ∧
    t.dev = { s.dev with dstate := .serving } ∧ Only ([.mboxes, .dev, .radio] ++ eventFields) s t) ∧
  (∀ s (m : Fin 16) c, Taken s m.val 0x0006 c → c.argLength = 0 → ∃ t, exec (.devReset m) s = .next t ∧
    t.dev = {} ∧ t.mboxes = resetMailboxes ∧ t.units = {} ∧ t.fuses = s.fuses ∧ s.flash.grown t.flash) ∧
  (∀ s (m : Fin 16) c, Taken s m.val 0x0008 c → c.argLength = 1 → c.arg 0x20 1 ≤ 1 → s.dev.dstate ≠ .rom →
    ∃ t, exec (.debugAccess m) s = .next t ∧
    Responds { (s.extend 8 (shakeTag 32 [0x4D, 0x56, 0x4E, 0x2D, 0x44, 0x42] (leBytes 1 (c.arg 0x20 1)))) with
      dev := { s.dev with debugAccess := c.arg 0x20 1 == 1 } } t m c .ok [] false)

/-- R612: MEASURE_READ. R614, R616: SESSION_KEY_READY. R617, R618: SIGN_REQUEST_DONE of a ledger batch. -/
def Obligations.MeasureReadSessionKeySignRequest : Prop :=
  (∀ s (m : Fin 16) c, Taken s m.val 0x0702 c → (c.argLength = 0 ∨ c.arg 0x20 1 ≤ 15) → s.dev.dstate ≠ .rom →
    ∃ t, exec (.measureRead m) s = .next t ∧
    (let f := if c.argLength = 0 then 0 else c.arg 0x20 1
     Responds s t m c .ok (s.measuresFrom f (min (f + 6) 15 + 1 - f)) false)) ∧
  (∀ s, (s.core 7).restarting = false → s.dev.dstate ≠ .rom → s.sec.sessionReady = false → s.sec.sessionNext < 65536 → s.sec.idExhausted = false →
    s.sec.idUsed = false → s.fuses.idSteps < 16384 → ∃ t, exec .sessionKeyReady s = .next t ∧
    t.fuses.idSteps = s.fuses.idSteps + 1 ∧ t.sec.idNext = s.fuses.idSteps * 64 + 1 ∧ t.sec.sessionReady = true ∧
    t.sec.sessionSeq = 0 ∧ t.sec.sessionNext = 0 ∧ Only [.fuses, .sec] s t) ∧
  (∀ s now q, (s.core 7).restarting = false → s.sec.nextReq = some (.batch q) → s.sec.sessionReady = true → s.sec.sessionNext < 65535 →
    (s.sec.signTimes.filter (fun x => decide ((s.at now).time.now < x + 1000000000))).length < 200 →
    ∃ t, exec (.signRequestDone now) s = .next t ∧
    (let sig := fixLen 2692 (Config.sign (sessionKey s.deviceInc s.sec.sessionSeq) s.sec.sessionNext ((s.at now).signBytes (.batch q)))
     t.flash = { s.flash with batches := s.flash.batches.map (fun b => if b.seq = q then { b with signature := some sig } else b) }) ∧
    t.sec.queue = s.sec.queue.erase (.batch q) ∧ t.sec.sessionNext = s.sec.sessionNext + 1 ∧
    t.sec.signatures = satInc 64 s.sec.signatures ∧ t.time = (s.at now).time ∧ Only [.time, .flash, .sec] s t)

/-- R621 to R624: the requests of the attestation protocol; a response has the bytes of Table 20-5. -/
def Obligations.AttestationRequestsAreAnswered : Prop :=
  (∀ code tag st body, attestMessage code tag st body =
    [0x7F#8, 0#8, 0#8, 0xD2#8, 0x6B#8, 1#8, 0#8, code, tag, 0#8] ++ leBytes 2 st.code ++ body) ∧
  (∀ s minor tag, s.attests = true → exec (.getVersion 1 minor tag) s = .next (s.emit (.mctp (attestMessage 0x81 tag .ok [1#8, 0#8])))) ∧
  (∀ s tag body, s.attests = true → s.dev.dstate ≠ .rom → body.length = 3 → byteAt body 0 = 2 → s.sec.sessionReady = true →
    fieldAt body 1 2 ≤ s.sec.sessionCert.length → exec (.getCert 1 tag body) s = .next (s.emit (.mctp (attestMessage 0x82 tag .ok
      (leBytes 2 s.sec.sessionCert.length ++ (s.sec.sessionCert.drop (fieldAt body 1 2)).take 1024))))) ∧
  (∀ s now tag body, s.attests = true → s.dev.dstate ≠ .rom → body.length = 34 → s.sec.spent = false → s.sec.sessionReady = true →
    s.sec.queue.length ≤ 64 → (s.sec.quoteTimes.filter (fun t => decide ((s.at now).time.now < t + 1000000000))).length < 10 →
    ∃ t, exec (.getQuote now 1 tag body) s = .next t ∧
    t.sec.queue = s.sec.queue ++ [.quote tag (body.take 32) (BitVec.ofNat 16 (fieldAt body 32 2))] ∧
    t.time = (s.at now).time ∧ Only [.time, .sec] s t) ∧
  (∀ s tag body r, s.attests = true → s.dev.dstate ≠ .rom → body.length = 4 → s.sec.sessionReady = true →
    s.sec.roots.find? (fun r => r.interval == fieldAt body 0 4) = some r →
    exec (.getRoot 1 tag body) s = .next (s.emit (.mctp (attestMessage 0x84 tag .ok (r.block ++ r.signature))))) ∧
  (∀ s tag b rest, s.attests = true → s.dev.dstate ≠ .rom → s.flash.batches = b :: rest →
    exec (.getLedgerHead 1 tag []) s = .next (s.emit (.mctp (attestMessage 0x85 tag .ok
      (leBytes 4 b.seq ++ shake256 32 (batchWhole s.fuses.uid b) ++ leBytes 4 (s.ledgerFree / 1024)))))) ∧
  (∀ s code tag, s.attests = true → ¬ (1 ≤ code.toNat ∧ code.toNat ≤ 5) → exec (.unknownAttestationCode 1 code tag) s =
    .next (s.emit (.mctp (attestMessage (code ||| 0x80#8) tag (if s.dev.dstate = .rom then .notReady else .unknownOpcode) [])))) ∧
  (∀ s major minor tag, s.attests = true → major ≠ 1 →
    exec (.getVersion major minor tag) s = .next (s.emit (.mctp (attestMessage 0x81 tag .version [])))) ∧
  (∀ s major minor tag, s.attests = false → exec (.getVersion major minor tag) s = .next s)

/-- R577, R578: LEDGER_BATCH_WRITE. R601: PROGRESS_READ. Table 19-5: LEDGER_PERIODIC_RECORD. R581: LEDGER_READ and its end. -/
def Obligations.LedgerRows : Prop :=
  (∀ s now r rs, s.health.waiting = r :: rs → (s.core 6).restarting = false → s.dev.dstate ≠ .rom → s.pkg.flashGranted = false →
    (s.health.waitingSince + 1000000000 ≤ (s.at now).time.now ∨ 65536 ≤ (s.health.waiting.map (fun r => (ledgerBytes r).length)).sum) →
    (∀ u ∈ allUnits, (s.unit u).waitsReserve = false) → ∃ t, exec (.ledgerBatchWrite now) s = .next t ∧
    t.flash.batches = { seq := s.flash.batches.length, devInc := s.deviceInc, prev := nextPrevDigest s, records := r :: rs
                        signature := if s.sec.spent then some [] else none } :: s.flash.batches ∧
    t.health.waiting = [] ∧ t.time = (s.at now).time ∧ Only [.time, .health, .flash, .sec, .prov, .rings, .mem, .out, .fyfDrops] s t) ∧
  (∀ s (m : Fin 16) c, Taken s m.val 0x060B c → s.dev.dstate ≠ .rom → ∃ t, exec (.progressRead m) s = .next t ∧
    Responds s t m c .ok (s.progress.flatMap (leBytes 8)) false) ∧
  (∀ s now, (s.core 6).restarting = false → s.dev.dstate ≠ .rom → (∃ t, exec (.ledgerPeriodicRecord now false) s = .next t ∧
      (16 * 2 ^ 20 ≤ s.ledgerFree → s.pkg.flashGranted = false → t.health.ledgerSeq = s.health.ledgerSeq + 2 ∧
        t.health.waiting.map (·.type) = s.health.waiting.map (·.type) ++ [13, 17]) ∧ Only [.time, .health] s t) ∧
    ∃ t, exec (.ledgerPeriodicRecord now true) s = .next t ∧ t.pkg = { s.pkg with hist := [] } ∧ Only [.time, .health, .pkg] s t) ∧
  (∀ s (m : Fin 16) c, Taken s m.val 0x060A c → 28 ≤ c.argLength → s.dev.dstate ≠ .rom → (s.mbox m).long.length < 4 →
    ∃ t, exec (.ledgerRead m) s = .next t ∧
    Responds { s with health := { s.health with reads := s.health.reads ++ [(m.val, c.seq, c.arg 0x30 8, (s.ledgerRead c).1)] } } t m c .ok
      (leBytes 4 (s.ledgerRead c).1.length ++ leBytes 4 (s.ledgerRead c).2) true) ∧
  (∀ s (m : Fin 16) r, s.health.reads.find? (fun r => r.1 == m.val) = some r → ∃ t, exec (.ledgerReadDone m) s = .next t ∧
    t.health = { s.health with reads := s.health.reads.erase r } ∧
    (t.mbox m).long = (s.mbox m).long.erase ⟨0x060A, r.2.1⟩ ∧
    Only ([.mboxes, .health, .insts] ++ eventFields) s t)

/-- R666: PWR_BRAKE. R664: THERMAL_SAMPLE and THERMAL_TRIP. R657: RAIL_FAULT. R658: PWR_FAIL. -/
def Obligations.PinsSuppliesAndTemperature : Prop :=
  (∀ s, ∃ t, exec (.pwrBrake true) s = .next t ∧ t.pkg = { s.pkg with brakeLow := true } ∧
    (∀ f, f < 34 → t.island .fold f = (if (s.island .fold f).clock = some 1800000 then { s.island .fold f with requested := none }
      else { s.island .fold f with requested := some (some 1800000) })) ∧ Only [.dev, .pkg] s t) ∧
  (∀ s now r, s.outOfReset = true → ∃ t, exec (.thermalSample now r) s = .next t ∧ t.time = (s.at now).time ∧
    t.pkg.readings = r ∧ t.pkg.warnLow = anyHot r ∧ t.pkg.sampledAt = t.time.now + 1 ∧
    t.pkg.derate = (if anyDerate r then min 450000 (s.pkg.derate + 25000) else 0) ∧ Only [.dev, .time, .health, .pkg, .fresh] s t) ∧
  (∀ s r, s.pkg.resetHigh = true → anyTrip r = true → ∃ t, exec (.thermalTrip r) s = .next t ∧ t.dev = {} ∧
    t.pkg.latched = true ∧ t.pkg.tripLow = true ∧ t.mboxes = resetMailboxes ∧ t.flash = s.flash ∧ t.fuses = s.fuses ∧ t.outOfReset = false) ∧
  (∀ s, s.pkg.resetHigh = true → ∃ t, exec .railFault s = .next t ∧ t.dev = {} ∧ t.pkg.latched = true ∧ t.pkg.tripLow = s.pkg.tripLow ∧
    t.mboxes = resetMailboxes ∧ t.flash = s.flash ∧ t.fuses = s.fuses ∧ t.outOfReset = false) ∧
  (∀ s, s.outOfReset = true → ∃ t, exec .pwrFail s = .next t ∧ t.dev = {} ∧ t.pkg.latched = true ∧ t.mboxes = resetMailboxes ∧
    s.flash.grown t.flash ∧ t.fuses = s.fuses ∧ t.outOfReset = false)

/-- R662: FLASH_REQUEST and FLASH_RELEASE. R663: JTAG_INSTRUCTION. -/
def Obligations.FlashSharingAndTestPort : Prop :=
  (∀ s, ∃ t, exec .flashRequest s = .next t ∧ t.pkg.flashAsked = true ∧ (s.dev.dstate ≠ .rom → t.pkg.flashGranted = true) ∧
    (s.dev.dstate = .rom → s.sec.tried = false → t.pkg.flashGranted = s.pkg.flashGranted) ∧ Only [.pkg] s t) ∧
  (∀ s, (∀ u ∈ allUnits, (s.unit u).waitsReserve = false) → (∀ b ∈ s.health.heldBatches, b.isEmpty = false) →
    ∃ t, exec .flashRelease s = .next t ∧ t.pkg = { s.pkg with flashAsked := false, flashGranted := false } ∧
    t.health.heldBatches = [] ∧
    t.flash.batches.map (fun b => b.records) = s.health.heldBatches.reverse ++ s.flash.batches.map (fun b => b.records) ∧
    Only [.pkg, .health, .flash, .sec, .prov, .rings, .mem, .out, .fyfDrops] s t) ∧
  (∀ s i, s.pkg.resetHigh = false → exec (.jtagInstruction i) s =
    .next { s with pkg := { s.pkg with jtag := some i }, out := if i = .idcode then .jtag 0x1C160A27 :: s.out else s.out }) ∧
  (∀ s i, s.pkg.resetHigh = true → exec (.jtagInstruction i) s = .next s)

/-- R631: NIGHT_ENTRY_DONE. R627, R631, R634: POWER_SET. R630: RETENTION_SELECT. R591: DEV_UNFENCE. -/
def Obligations.NightPowerSetRetentionUnfence : Prop :=
  (∀ s, s.dev.dstate = .night → s.power.entering = true → s.moversQuiet = true → s.power.wakeAfter = [] →
    ∃ t, exec .nightEntryDone s = .next t ∧ t.dev.dstate = .night ∧ t.power.entering = false ∧ t.power.removing = false ∧
    t.power.nightCmd = none ∧ t.time = s.time ∧ t.fuses = s.fuses ∧ t.settings = s.settings) ∧
  (∀ s (m : Fin 16) c, Taken s m.val 0x0801 c → c.argLength = 1 → c.arg 0x20 1 = 0 → s.dev.dstate = .dusk →
    (s.mbox m).long.length < 4 → ∃ t, exec (.powerSet m) s = .next t ∧ Answers s t m c .ok [] false ∧
    t.dev = { s.dev with dstate := .serving } ∧ Only ([.mboxes, .dev, .power] ++ eventFields) s t) ∧
  (∀ s (m : Fin 16) c, Taken s m.val 0x0801 c → c.argLength = 1 → c.arg 0x20 1 = 1 → s.dev.dstate = .serving →
    (s.mbox m).long.length < 4 → ∃ t, exec (.powerSet m) s = .next t ∧ Answers s t m c .ok [] false ∧
    t.dev = { s.dev with dstate := .dusk } ∧ Only ([.mboxes, .dev, .power] ++ eventFields) s t) ∧
  (∀ s (m : Fin 16) c, Taken s m.val 0x0801 c → c.argLength = 1 → c.arg 0x20 1 = 2 → s.dev.dstate = .dusk →
    s.reservedCells = [] → (s.mbox m).long.length < 4 → ∃ t, exec (.powerSet m) s = .next t ∧
    (t.mbox m).current = none ∧ t.dev = { s.dev with dstate := .night } ∧ t.fuses = s.fuses ∧ t.settings = s.settings ∧ t.time = s.time) ∧
  (∀ s (m : Fin 16) c, Taken s m.val 0x0801 c → c.argLength = 1 → c.arg 0x20 1 = 0 → s.dev.dstate = .night →
    s.power.entering = true → (s.mbox m).long.length < 4 → ∃ t, exec (.powerSet m) s = .next t ∧
    Responds { s with power := { s.power with wakeAfter := s.power.wakeAfter ++ [(m.val, c.seq)] } } t m c .ok [] true) ∧
  (∀ s (m : Fin 16) c, Taken s m.val 0x0803 c → 12 ≤ c.argLength →
    ((List.range 32).filter (fun i => bitOf (c.arg 0x28 4) i)).length ≤ 4 → s.dev.dstate = .serving →
    ∃ t, exec (.retentionSelect m) s = .next t ∧
    Responds { s with power := { s.power with
      retFolds := BitVec.ofNat 32 (c.arg 0x20 4), retCommons := c.arg 0x24 1 % 4, retRadio := bitOf (c.arg 0x25 1) 0
      nightPorts := BitVec.ofNat 32 (c.arg 0x28 4) } } t m c .ok [] false) ∧
  (∀ s (m : Fin 16) c, Taken s m.val 0x0605 c → c.indirect = true → 0x82 ≤ c.argLength → s.dev.dstate = .fenced → s.unfenceBad c = false → unfenceTo s.dev.fencedFrom ≠ .night →
    ∃ t, exec (.devUnfence m) s = .next t ∧ Answers s t m c .ok [] false ∧
    t.dev = { s.dev with dstate := unfenceTo s.dev.fencedFrom } ∧ Only ([.mboxes, .dev] ++ eventFields) s t)

/-- R647, R648: a prepared removal. -/
def Obligations.RemovalOfTheCard : Prop :=
  (∀ s (m : Fin 16) c, Taken s m.val 0x0802 c → 8 ≤ c.argLength → c.arg 0x20 1 = 1 → c.arg 0x24 4 ≤ 10000 →
    (s.node (c.arg 0x22 2)).live = true → s.dev.dstate = .serving → s.changesBlocked = false → s.health.assuming = [] → (s.mbox m).long.length < 4 →
    ∃ t, exec (.prepareRemoval m) s = .next t ∧ t.dev = { s.dev with dstate := .draining } ∧
    t.power.removal = some (m.val, c.seq, true, c.arg 0x22 2,
      s.time.now + 1000000 * (if c.arg 0x24 4 = 0 then 100 else c.arg 0x24 4), s.time.now + 2000000000) ∧
    Answers s t m c .ok [] true ∧ Only ([.dev, .mboxes, .power] ++ eventFields) s t) ∧
  (∀ s m q e n d v, s.power.removal = some (m, q, e, n, d, v) → s.dev.dstate = .draining → s.reservedCells = [] → s.grazingDone = true →
    ∃ t, exec .removalDrainDone s = .next t ∧ t.dev = { s.dev with dstate := .night } ∧ t.settings = s.settings ∧ t.fuses = s.fuses ∧
    t.time = s.time) ∧
  (∀ s now m q e n d v, s.power.removal = some (m, q, e, n, d, v) → ∃ t, exec (.drainTimeout now) s = .next t ∧
    t.dev = s.dev ∧ t.mboxes = s.mboxes ∧ t.units = s.units ∧ t.time = (s.at now).time ∧
    ((s.at now).time.now < d → t = s.at now)) ∧
  (∀ s now m q n d v, s.power.removal = some (m, q, true, n, d, v) → ∃ t, exec (.evacuateTimeout now) s = .next t ∧
    t.dev = s.dev ∧ t.time = (s.at now).time ∧
    ((s.at now).time.now < v ∨ s.reservedCells = [] → t = s.at now) ∧
    (v ≤ (s.at now).time.now → s.reservedCells ≠ [] → t.power.removal = none ∧
      (t.mbox m).long = (s.mbox m).long.erase ⟨0x0802, q⟩) ∧
    Only ([.mboxes, .power, .time] ++ eventFields) s t)

/-- R539, R543, R547: PROVENANCE_SET. R545: the end of an interval. -/
def Obligations.ProvenanceIntervals : Prop :=
  (∀ s (m : Fin 16) c, Taken s m.val 0x0701 c → 64 ≤ c.argLength → provBad c = false →
    s.dev.dstate = .configuring ∨ s.dev.dstate = .serving ∨ s.dev.dstate = .dusk ∨ s.dev.dstate = .watched →
    ∃ t, exec (.provenanceSet m) s = .next t ∧ t.prov.enabled = (c.arg 0x20 1 == 1) ∧
    t.prov.intervalMs = (if c.arg 0x24 4 = 0 then 1000 else c.arg 0x24 4) ∧ t.prov.logBase = c.arg 0x28 8 ∧
    t.prov.log2 = c.arg 0x30 1 ∧ t.prov.instances = c.arg 0x40 32 ∧ t.prov.start = s.time.now ∧ t.prov.hashes = [] ∧
    t.prov.droppedNow = 0 ∧ t.prov.interval = (if s.prov.enabled then (s.prov.interval + 1) % 2 ^ 32 else 0) ∧
    Answers s t m c .ok [] false ∧ Only ([.mboxes, .prov, .sec] ++ eventFields) s t) ∧
  (∀ s now, ∃ t, exec (.provenanceIntervalEnd now) s = .next t ∧
    (s.prov.enabled = false ∨ (s.at now).time.now < s.prov.start + s.prov.intervalMs * 1000000 → t = s.at now) ∧
    (s.prov.enabled = true → s.prov.start + s.prov.intervalMs * 1000000 ≤ (s.at now).time.now →
      t.prov.interval = (s.prov.interval + 1) % 2 ^ 32 ∧ t.prov.start = s.prov.start + s.prov.intervalMs * 1000000 ∧
      t.prov.hashes = [] ∧ t.prov.droppedNow = 0 ∧
      (s.sec.spent = false → s.sec.queue.length < 1024 →
        t.sec = { s.sec with queue := s.sec.queue ++ [.root s.prov.interval s.prov.start (s.prov.start + s.prov.intervalMs * 1000000)
          s.prov.hashes.length s.prov.droppedNow (merkleRoot s.prov.interval s.prov.hashes)] })) ∧
    Only [.mem, .time, .prov, .sec, .fyfDrops] s t)

/-- R79 to R84: ENABLE and TAIL. R81, R85, R87, R90, R92, R93: taking up a command. -/
def Obligations.MailboxRegistersAndTakingUp : Prop :=
  (∀ s (m : Fin 16) mapping on, ∃ t, exec (.mbxEnableWrite m mapping on) s = .next t ∧ Only [.mboxes] s t ∧
    (∀ k, k ≠ m.val → t.mbox k = s.mbox k) ∧
    ((s.mbox m).maps mapping = false → t.mbox m = { s.mbox m with foreign := true }) ∧
    ((s.mbox m).maps mapping = true → (s.mbox m).closing = none →
      (on = true → (s.mbox m).enable = false → t.mbox m = { s.mbox m with
        enable := true, stopped := false, tail := 0, taken := 0, head := 0, first := true, session := (s.mbox m).session + 1 }) ∧
      (on = false → (s.mbox m).enable = true → t.mbox m = (if (s.mbox m).current = none then { s.mbox m with
        enable := false, tail := 0, taken := 0, head := 0, session := (s.mbox m).session + 1 }
        else { s.mbox m with closing := some (false, 0) })) ∧
      (on = (s.mbox m).enable → t.mbox m = s.mbox m)) ∧
    (∀ was tail, (s.mbox m).maps mapping = true → (s.mbox m).closing = some (was, tail) →
      t.mbox m = { s.mbox m with closing := some (on, if on = true ∧ was = true then tail else 0) })) ∧
  (∀ s (m : Fin 16) mapping tail, ∃ t, exec (.mbxTailWrite m mapping tail) s = .next t ∧ Only [.mboxes] s t ∧
    (∀ k, k ≠ m.val → t.mbox k = s.mbox k) ∧
    ((s.mbox m).maps mapping = false → t.mbox m = { s.mbox m with foreign := true }) ∧
    ((s.mbox m).maps mapping = true → (s.mbox m).closing = none → (s.mbox m).enable = false → t.mbox m = s.mbox m) ∧
    ((s.mbox m).maps mapping = true → (s.mbox m).closing = none → (s.mbox m).enable = true →
      t.mbox m = (if (tail.toNat + 65536 - (s.mbox m).head) % 65536 ≤ 64 then { s.mbox m with tail := tail.toNat }
        else { s.mbox m with overrun := true, stopped := true })) ∧
    (∀ x, (s.mbox m).maps mapping = true → (s.mbox m).closing = some (false, x) → t.mbox m = s.mbox m) ∧
    (∀ x, (s.mbox m).maps mapping = true → (s.mbox m).closing = some (true, x) → x < 65536 →
      t.mbox m = (if tail.toNat ≤ 64 then { s.mbox m with closing := some (true, tail.toNat) }
        else { s.mbox m with overrun := true, closing := some (true, 65536) }))) ∧
  (∀ s : State, s.dev.lastWas0 = true → (∃ i, i < 7 ∧ s.mbxWaits (i + 1) = true) → s.chooseMbx false ≠ some 0) ∧
  (∀ s second a b, s.coreBusy second = true ∨ (s.core (if second then 3 else 2)).restarting = true ∨ s.chooseMbx second = none →
    exec (.commandTakeUp second a b) s = .next s) ∧
  (∀ s second m b, s.coreBusy second = false → (s.core (if second then 3 else 2)).restarting = false → s.chooseMbx second = some m →
    ∃ t, exec (.commandTakeUp second false b) s = .next t ∧ Only [.dev, .mboxes] s t ∧
    ∀ k, t.mbox k = if k = m then { s.mbox m with fetchFault := true, stopped := true } else s.mbox k) ∧
  (∀ s second m c, s.coreBusy second = false → (s.core (if second then 3 else 2)).restarting = false → s.chooseMbx second = some m →
    c = parseCmd (s.rd .companion ((s.mbox m).ringBase + (s.mbox m).taken % 64 * 256) 256)
      ((s.mbox m).ringBase + (s.mbox m).taken % 64 * 256) (s.mbox m).session
      (s.readArgs (s.rd .companion ((s.mbox m).ringBase + (s.mbox m).taken % 64 * 256) 256)) →
    ∃ t, exec (.commandTakeUp second true true) s = .next t ∧ (∀ k, k ≠ m → t.mbox k = s.mbox k) ∧
    (∀ r, replayOf (s.mbox m) c = some r → t.mbox m = Mailbox.written c s.carries { s.mbox m with
      taken := ((s.mbox m).taken + 1) % 65536, first := false }) ∧
    (replayOf (s.mbox m) c = none → seqBroken (s.mbox m) c = true → t.mbox m = Mailbox.written c s.carries { s.mbox m with
      taken := ((s.mbox m).taken + 1) % 65536 }) ∧
    (replayOf (s.mbox m) c = none → seqBroken (s.mbox m) c = false → firstChecks (s.mbox m) c = none →
      t.mbox m = { s.mbox m with taken := ((s.mbox m).taken + 1) % 65536, first := false, lastSeq := some c.seq, current := some c } ∧
      Only [.dev, .mboxes] s t) ∧
    (∀ st, replayOf (s.mbox m) c = none → seqBroken (s.mbox m) c = false → firstChecks (s.mbox m) c = some st → st ≠ .spoof →
      t.mbox m = Mailbox.written c s.carries { s.mbox m with
        taken := ((s.mbox m).taken + 1) % 65536, first := false, lastSeq := some c.seq,
        stored := some {
          opcode := c.opcode, status := st, seq := c.seq, instId := c.instId, pending := false, result := [], dstate := s.dev.dstate.code } }))

/-- R73, R94: MBX_VERSION. R82: MBX_ASSIGN. R98: DEV_QUERY. R106: EVR_CONFIGURE. -/
def Obligations.VersionAssignQueryAndEventRings : Prop :=
  (∀ s (m : Fin 16) c v, Taken s m.val 0x0001 c → c.argLength = 8 → agreeVersion s.mbxOffer (offeredSlots c) = some v →
    ∃ t, exec (.mbxVersion m) s = .next t ∧ Only ([.mboxes] ++ eventFields) s t ∧
    ∀ k, t.mbox k = if k = m.val then ({ s.mbox m with agreed := v } : Mailbox).answered c .ok
      (leBytes 2 v ++ leBytes 2 0 ++ ((s.mbxOffer ++ [0, 0, 0]).take 4).flatMap (leBytes 2)) false s.dev.dstate.code s.carries else s.mbox k) ∧
  (∀ s (m : Fin 16) c, Taken s m.val 0x0001 c → c.argLength = 8 → agreeVersion s.mbxOffer (offeredSlots c) = none →
    ∃ t, exec (.mbxVersion m) s = .next t ∧ Only ([.mboxes] ++ eventFields) s t ∧ Answers s t m c .version
      (leBytes 2 0 ++ leBytes 2 0 ++ ((s.mbxOffer ++ [0, 0, 0]).take 4).flatMap (leBytes 2)) false) ∧
  (∀ s (m : Fin 16) c r, Taken s m.val 0x0002 c → c.argLength = 8 → 1 ≤ c.arg 0x20 1 → c.arg 0x20 1 ≤ 15 → c.arg 0x20 1 ≠ m.val →
    roleOfCode (c.arg 0x21 1) = some r → assignable (some r) (c.arg 0x22 1) = true → (s.mbox (c.arg 0x20 1)).current = none →
    s.dev.dstate ≠ .rom →
    ∃ t, exec (.mbxAssign m) s = .next t ∧ Only ([.mboxes, .radio, .health, .sec] ++ eventFields) s t ∧
    ((s.mbox (c.arg 0x20 1)).long = [] → Only ([.mboxes] ++ eventFields) s t) ∧
    ∀ k, t.mbox k = if k = m.val then (s.mbox m).answered c .ok [] false s.dev.dstate.code s.carries
      else if k = c.arg 0x20 1 then {
        role := r, inst := c.arg 0x22 1, mapping := BitVec.ofNat 32 (c.arg 0x24 4), session := (s.mbox k).session + 1 }
      else s.mbox k) ∧
  (∀ s (m : Fin 16) c, Taken s m.val 0x0002 c → c.arg 0x20 1 ≠ m.val → (s.mbox (c.arg 0x20 1)).current ≠ none →
    exec (.mbxAssign m) s = .next s) ∧
  (∀ s (m : Fin 16) c, Taken s m.val 0x0003 c → c.argLength = 0 → ∃ t, exec (.devQuery m) s = .next t ∧
    Only ([.mboxes] ++ eventFields) s t ∧ Answers s t m c .ok (leBytes 1 s.dev.dstate.code ++ leBytes 3 0 ++
      leBytes 4 (s.unit theDevice).incarnation ++ leBytes 2 (s.mbox m).agreed ++ leBytes 2 0) false) ∧
  (∀ s (m : Fin 16) c r, Taken s m.val 0x0007 c → c.argLength = 40 → c.arg 0x20 2 ≤ 4095 →
    c.arg 0x22 1 = 0 ∨ (6 ≤ c.arg 0x22 1 ∧ c.arg 0x22 1 ≤ 16 ∧ c.arg 0x28 8 % (32 * 2 ^ c.arg 0x22 1) = 0) →
    roleOfCode (c.arg 0x23 1) = some r → s.dev.dstate ≠ .rom →
    s.evPage (c.arg 0x20 2 / 16) = configuredPage c ∨ (∀ j ∈ pageMates (c.arg 0x20 2), (s.ring j).enabled = false) →
    ∃ t, exec (.evrConfigure m) s = .next t ∧ Only ([.mboxes, .evPages] ++ eventFields) s t ∧ Answers s t m c .ok [] false ∧
    (∀ p, t.evPage p = if p = c.arg 0x20 2 / 16 then
      { mapping := BitVec.ofNat 32 (c.arg 0x44 4), role := r, inst := c.arg 0x24 1 } else s.evPage p) ∧
    ((s.mbox m).respOn = false → t.ring (c.arg 0x20 2) = {
      base := c.arg 0x28 8 / 64 * 64, log2 := c.arg 0x22 1, ownerRole := r, ownerInst := c.arg 0x24 1, vecAddr := BitVec.ofNat 64 (c.arg 0x38 8), vecData := BitVec.ofNat 32 (c.arg 0x40 4),
      mask := c.arg 0x30 8 }))

/-- R106, R108, R109: EVR_HEAD and EVR_ARM. R113 to R115: DOORBELL. R11, R14: REGISTER_WRITE. -/
def Obligations.WritesToTheControlWindow : Prop :=
  (∀ s (k : Fin 4096) mapping head, ∃ t, exec (.evrHeadWrite k mapping head) s = .next t ∧ Only eventFields s t ∧
    (s.ringMaps k mapping = false → t = s) ∧
    (s.ringMaps k mapping = true → (s.ring k).held = [] → (s.ring k).dropped = 0 → t.ring k = { s.ring k with head := head.toNat }) ∧
    (∀ r, s.ringMaps k mapping = true → (s.ring k).held = [r] → (s.ring k).dropped = 0 → (s.ring k).enabled = true →
      ({ s.ring k with head := head.toNat } : EventRing).full = false →
      t.ring k = { s.ring k with head := head.toNat, held := [], tail := ((s.ring k).tail + 1) % 2 ^ 32, arm := false })) ∧
  (∀ s (k : Fin 4096) mapping arm, ∃ t, exec (.evrArmWrite k mapping arm) s = .next t ∧ Only [.rings, .out] s t ∧
    (s.ringMaps k mapping = false → t = s) ∧
    (s.ringMaps k mapping = true → arm = true → (s.ring k).tail ≠ (s.ring k).head →
      t.ring k = { s.ring k with arm := false } ∧ t.out = .vector k (s.ring k).vecAddr (s.ring k).vecData :: s.out) ∧
    (s.ringMaps k mapping = true → arm = false ∨ (s.ring k).tail = (s.ring k).head →
      t.ring k = { s.ring k with arm := arm } ∧ t.out = s.out)) ∧
  (∀ s (p : Fin 256) mapping offset al v, s.pageMaps p mapping = false ∨ 0x800 ≤ offset → exec (.doorbell p mapping offset al v) s = .next s) ∧
  (∀ s (p : Fin 256) mapping offset v, s.pageMaps p mapping = true → offset < 0x800 → ∃ t, exec (.doorbell p mapping offset false v) s = .next t ∧
    t.dbPage p = { s.dbPage p with malformed := satInc 32 (s.dbPage p).malformed } ∧ Only [.dbPages] s t) ∧
  (∀ s (p : Fin 256) mapping offset v, s.pageMaps p mapping = true → offset < 0x800 → s.queues.doorbells.any (fun w => w.1 == p.val) = true →
    ∃ t, exec (.doorbell p mapping offset true v) s = .next t ∧ Only [.queues] s t ∧
    t.queues = { s.queues with doorbells := s.queues.doorbells ++ [(p.val, v.toNat % 2 ^ 20, v.toNat / 2 ^ 32)] }) ∧
  (∀ s (p : Fin 256) mapping offset v, s.pageMaps p mapping = true → offset < 0x800 → s.queues.doorbells.any (fun w => w.1 == p.val) = false →
    s.queueOwner (v.toNat % 2 ^ 20) ≠ some p.val → ∃ t, exec (.doorbell p mapping offset true v) s = .next t ∧
    t.dbPage p = { s.dbPage p with spoof := satInc 32 (s.dbPage p).spoof } ∧ t.spoof.total = satInc 64 s.spoof.total ∧
    t.queues = s.queues ∧ Only ([.dbPages, .insts, .spoof] ++ eventFields) s t) ∧
  (∀ s (p : Fin 256) mapping offset v c, s.pageMaps p mapping = true → offset < 0x800 → s.queues.doorbells.any (fun w => w.1 == p.val) = false →
    s.queueOwner (v.toNat % 2 ^ 20) = some p.val → s.queue (v.toNat % 2 ^ 20) = some c → c.type = 1 ∨ c.type = 3 ∨ c.type = 4 → c.err = 0 →
    v.toNat / 2 ^ 32 ≠ c.producer % 2 ^ 32 → ∃ t, exec (.doorbell p mapping offset true v) s = .next t ∧
    ((v.toNat / 2 ^ 32 + 2 ^ 32 - c.producer % 2 ^ 32) % 2 ^ 32 ≤ c.size →
      t.queue (v.toNat % 2 ^ 20) = some { c with producer := v.toNat / 2 ^ 32, usedAt := s.time.now } ∧
      t.dbPage p = { s.dbPage p with accepted := satInc 32 (s.dbPage p).accepted }) ∧
    (c.size < (v.toNat / 2 ^ 32 + 2 ^ 32 - c.producer % 2 ^ 32) % 2 ^ 32 → t.queues = s.queues ∧
      t.dbPage p = { s.dbPage p with stale := satInc 32 (s.dbPage p).stale }) ∧ Only [.dbPages, .queues] s t) ∧
  (∀ s mapping v, (∀ m : Fin 16, exec (.registerWrite mapping (0x00100000 + m.val * 4096 + 0x014) false v) s =
      exec (.mbxTailWrite m mapping (v.setWidth 16)) s ∧
      exec (.registerWrite mapping (0x00100000 + m.val * 4096 + 0x010) false v) s = exec (.mbxEnableWrite m mapping (v.toNat % 2 == 1)) s) ∧
    (∀ k : Fin 4096, exec (.registerWrite mapping (0x01100000 + k.val * 256 + 0x24) false v) s = exec (.evrHeadWrite k mapping (v.setWidth 32)) s ∧
      exec (.registerWrite mapping (0x01100000 + k.val * 256 + 0x28) false v) s = exec (.evrArmWrite k mapping (v.toNat % 2 == 1)) s) ∧
    (∀ (p : Fin 256) o, o < 4096 → exec (.registerWrite mapping (0x00200000 + p.val * 4096 + o) true v) s =
      exec (.doorbell p mapping o (o % 8 == 0) v) s)) ∧
  (∀ s v, ∃ t, exec (.registerWrite Config.managerMapping 0x01000038 false v) s = .next t ∧ Only [.time] s t ∧
    ∀ i, t.time.event.testBit i = (s.time.event.testBit i && !(decide (i < 32) && v.toNat.testBit i))) ∧
  (∀ s v mapping, ∃ t, exec (.registerWrite mapping 0x01000024 false v) s = .next t ∧
    t.time = (if mapping = Config.managerMapping then { s.time with lockNs := v.toNat % 65536 } else s.time) ∧ Only [.time] s t) ∧
  (∀ s mapping offset wide v, 0x04000000 ≤ offset ∨ offset + 8 ≤ 0x00100000 → exec (.registerWrite mapping offset wide v) s = .next s) ∧
  (∀ s mapping offset v, offset + 4 < 0x00200000 ∨ 0x00300000 ≤ offset → ∃ u, exec (.registerWrite mapping offset false v) s = .next u ∧
    exec (.registerWrite mapping offset true v) s = exec (.registerWrite mapping (offset + 4) false (v >>> 32)) u)

/-- R40, R41, R89: a control core halts and restarts. R43, R111: the heartbeat. R27: the clock of an island. -/
def Obligations.ControlCoresAndClockIslands : Prop :=
  (∀ s (i : Fin 8), s.dev.dstate ≠ .rom → (s.core i).restarting = false →
    (∃ t, exec (.watchdogExpiry i) s = .next t ∧ Only [.dev] s t ∧
      ∀ k, t.core k = if k = i.val then { s.core i with restarting := true, byEcc := false } else s.core k) ∧
    (∃ t, exec (.coreEccHalt i) s = .next t ∧ Only [.dev] s t ∧
      ∀ k, t.core k = if k = i.val then { s.core i with restarting := true, byEcc := true } else s.core k)) ∧
  (∀ s (i : Fin 8), s.dev.dstate = .rom ∨ (s.core i).restarting = true →
    exec (.watchdogExpiry i) s = .next s ∧ exec (.coreEccHalt i) s = .next s) ∧
  (∀ s (i : Fin 8), (s.core i).restarting = true → (s.core (s.supervisor i)).restarting = false → ∃ t, exec (.coreRestartDone i) s = .next t ∧
    (∀ k, t.core k = if k = i.val then { s.core i with restarting := false, restarts := satInc 16 (s.core i).restarts } else s.core k) ∧
    (∀ m, m < 16 → serverOf m = i.val → ∀ c, (s.mbox m).current = some c →
      t.mbox m = (if (s.mbox m).heldAnswer then (s.mbox m).answered c .ok [] false s.dev.dstate.code s.carries
        else if s.holdUnderWay m then s.mbox m
        else (s.mbox m).answered c .notReady [] false s.dev.dstate.code s.carries)) ∧
    (∀ m, serverOf m ≠ i.val ∨ (s.mbox m).current = none → t.mbox m = s.mbox m) ∧
    Only ([.dev, .mboxes, .health] ++ eventFields) s t) ∧
  (∀ s (i : Fin 8), (s.core i).restarting = false ∨ (s.core (s.supervisor i)).restarting = true → exec (.coreRestartDone i) s = .next s) ∧
  (∀ s now, s.dev.dstate ≠ .rom → ∃ t, exec (.heartbeatTick now) s = .next t ∧ t.time = (s.at now).time ∧
    (∃ l, t.out = l ++ .heartbeat ((List.range 8).map (fun k => (s.core k).restarts)) :: s.out) ∧ Only ([.time] ++ eventFields) s t) ∧
  (∀ s now, s.dev.dstate = .rom → exec (.heartbeatTick now) s = .next (s.at now)) ∧
  (∀ s kind i c, (s.island kind i).requested = some c → ∃ t, exec (.islandClockChange kind i false) s = .next t ∧
    t.island kind i = { clock := c } ∧ (∀ k, k ≠ islandKey kind i → tget {} t.dev.islands k = tget {} s.dev.islands k) ∧
    t.dev.cores = s.dev.cores ∧ t.dev.dstate = s.dev.dstate ∧ Only [.dev] s t) ∧
  (∀ s kind i mid, mid = true ∨ (s.island kind i).requested = none → exec (.islandClockChange kind i mid) s = .next s)

/-- R58, R60, R61: UNIT_RESET. R56, R594: the self-test. R62, R65: the retention check. -/
def Obligations.ResetSelfTestAndRetentionOfUnits : Prop :=
  (∀ s u, unitExists u = true → u.ty ≠ .device → u.ty ≠ .fabPort → (s.unit u).debug = false → s.dev.dstate ≠ .night →
    ¬(s.dev.dstate = .fenced ∧ s.dev.fencedFrom = .night) →
    (s.unit u).state = .fenced ∨ (s.unit u).state = .failed ∨ ((s.unit u).state = .sleeping ∧ u.ty ≠ .sigCore ∧ u.ty ≠ .sigGroup) →
    ((s.unit u).waitsReserve = true → (s.unit u).incarnation ≠ 0) →
    (s.unit u).incarnation + 1 < tget 0 s.flash.reserved (unitKey u) → ∃ t, exec (.unitReset u) s = .next t ∧
    (t.unit u).state = .initialising ∧ (t.unit u).incarnation = (s.unit u).incarnation + 1 ∧
    (∀ v, unitKey v ≠ unitKey u → (t.unit v).state = (s.unit v).state ∧ (t.unit v).incarnation = (s.unit v).incarnation) ∧
    (u.ty = .engine → t.engine u.idx = { posted := (s.engine u.idx).posted, held := (s.engine u.idx).held }) ∧
    (u.ty = .sigCore → t.sigCore u.idx = {}) ∧ t.time = s.time ∧ t.fuses = s.fuses ∧ t.settings = s.settings ∧
    (u.ty ≠ .fold → t.mboxes = s.mboxes)) ∧
  (∀ s g, unitExists ⟨.sigGroup, g⟩ = true → (s.unit ⟨.sigGroup, g⟩).debug = false → s.dev.dstate ≠ .night →
    ¬(s.dev.dstate = .fenced ∧ s.dev.fencedFrom = .night) → (s.unit ⟨.sigGroup, g⟩).state = .sleeping →
    exec (.unitReset ⟨.sigGroup, g⟩) s = .next ((s.startUnit ⟨.sigGroup, g⟩).forEach
      (((List.range 8).map (fun i => (⟨.sigCore, 8 * g + i⟩ : UnitId))).filter (fun c => decide ((s.unit c).state = .sleeping))) State.startUnit)) ∧
  (∀ s u, unitExists u = false ∨ u.ty = .device ∨ (s.unit u).debug = true ∨ s.dev.dstate = .night ∨
    (s.dev.dstate = .fenced ∧ s.dev.fencedFrom = .night) ∨ ¬((s.unit u).state = .fenced ∨ (s.unit u).state = .failed ∨
    (s.unit u).state = .sleeping) ∨ (u.ty = .sigCore ∧ (s.unit u).state = .sleeping) → exec (.unitReset u) s = .next s) ∧
  (∀ s u r, (s.unit u).state ≠ .initialising ∨ (s.unit u).retainedUnverified = true ∨ (s.unit u).waitsReserve = true →
    exec (.unitSelfTestDone u r) s = .next s) ∧
  (∀ s u r, (s.unit u).state = .initialising → (s.unit u).retainedUnverified = false → (s.unit u).waitsReserve = false →
    u.ty ≠ .fabPort → u.ty ≠ .die →
    ∃ t, exec (.unitSelfTestDone u r) s = .next t ∧ t.time = s.time ∧ t.mboxes = s.mboxes ∧ t.settings = s.settings ∧
    (∀ v, unitKey v ≠ unitKey u → (t.unit v).state = (s.unit v).state) ∧
    (t.unit u).state = (match r with
      | .fail => .failed
      | .pass => if s.held u then .fenced else .ready
      | .part _ => if s.held u then .fenced else .degraded)) ∧
  (∀ s u d, retainedSpace u = none ∨ (s.unit u).retainedUnverified = false → exec (.retentionCheckDone u d) s = .next s) ∧
  (∀ s u d sp base n, retainedSpace u = some (sp, base, n) → (s.unit u).retainedUnverified = true → ∃ t,
    exec (.retentionCheckDone u d) s = .next t ∧ (t.unit u).retainedUnverified = false ∧ (∀ v, (t.unit v).state = (s.unit v).state) ∧
    (∀ a sum, (tget [] s.power.retainedSums sp.code).filter (fun p => decide (base ≤ p.1 ∧ p.1 < base + n)) = [(a, sum)] → d = [] →
      t.power.retZeroed = (if chunkSum (s.rd sp a chunkSize) = sum then s.power.retZeroed else satInc 32 s.power.retZeroed)) ∧
    Only ([.units, .tiers, .health, .power, .fresh, .deviceMem] ++ eventFields) s t)

/-- R32, R241: fatal faults. R595: UNIT_FENCE. R57: UNIT_RETIRE. -/
def Obligations.FatalFaultsFencesAndRetirement : Prop :=
  (∀ s, s.dev.dstate ≠ .rom → s.dev.dstate ≠ .fenced →
    (∃ t, exec .nocIntegrityError s = .next t ∧ t.dev = { s.dev with fencedFrom := s.dev.dstate, dstate := .fenced } ∧
      t.health.fencedAt = s.time.now ∧ t.power.removal = none ∧ t.power.nightCmd = none ∧
      Only ([.dev, .mboxes, .radio, .health, .power] ++ eventFields) s t) ∧
    (∀ x, (∀ u, x = .unit u → u.ty = .device) → exec (.fatalFault x) s = exec .nocIntegrityError s) ∧
    (∀ u, u.ty ≠ .fabPort → u.ty ≠ .die → u.ty ≠ .device → (s.unit u).state.accepts = true → ∃ t, exec (.fatalFault (.unit u)) s = .next t ∧
      (t.unit u).state = .failed ∧ (∀ v, unitKey v ≠ unitKey u → (t.unit v).state = (s.unit v).state) ∧
      t.dev = { s.dev with fencedFrom := s.dev.dstate, dstate := .fenced } ∧ t.time = s.time ∧ t.settings = s.settings)) ∧
  (∀ s x, s.dev.dstate = .rom → exec .nocIntegrityError s = .next s ∧ exec (.fatalFault x) s = .next s) ∧
  (∀ s (m : Fin 16) c u, Taken s m.val 0x0606 c → 7 ≤ c.argLength → unitArg c = some u → u.ty ≠ .device →
    s.dev.dstate = .serving ∨ s.dev.dstate = .dusk ∨ s.dev.dstate = .watched →
    (c.arg 0x24 1 = 1 → u.ty ≠ .fabPort → u.ty ≠ .die → (s.unit u).state.accepts = true → ∃ t, exec (.unitFence m) s = .next t ∧
      Answers s t m c .ok [] false ∧ (t.unit u).state = .fenced ∧ FenceMode.manager ∈ t.fencesOf u ∧
      ∀ v, unitKey v ≠ unitKey u → (t.unit v).state = (s.unit v).state ∧ t.fencesOf v = s.fencesOf v) ∧
    (c.arg 0x24 1 = 0 → u.ty ≠ .fabPort → u.ty ≠ .die → (s.unit u).state = .fenced → (s.unit u).debug = false → ∃ t,
      exec (.unitFence m) s = .next t ∧ Answers s t m c .ok [] false ∧ t.fencesOf u = [] ∧
      (t.unit u).state = (if (s.unit u).capsDegraded.isSome then .degraded else .ready) ∧
      ∀ v, unitKey v ≠ unitKey u → (t.unit v).state = (s.unit v).state ∧ t.fencesOf v = s.fencesOf v) ∧
    (c.arg 0x24 1 = 2 → u.ty = .fold → u.idx ≤ 31 → c.arg 0x25 1 ≤ 7 → c.arg 0x26 1 ≤ 3 → ∃ t, exec (.unitFence m) s = .next t ∧
      Answers s t m c .ok [] false ∧ FenceMode.cond (c.arg 0x25 1) (c.arg 0x26 1) ∈ t.fencesOf u ∧ t.units = s.units ∧
      Only ([.mboxes, .health, .flash] ++ eventFields) s t)) ∧
  (∀ s (m : Fin 16) c u, Taken s m.val 0x0607 c → c.argLength = 4 → unitArg c = some u → u.ty ≠ .device →
    s.dev.dstate = .serving ∨ s.dev.dstate = .dusk ∨ s.dev.dstate = .watched →
    s.shown u = .fenced ∨ s.shown u = .failed → ∃ t, exec (.unitRetire m) s = .next t ∧
    Answers s t m c .ok [] false ∧ (t.unit u).state = .retired ∧ (unitKey u, ()) ∈ t.flash.retired ∧
    (∀ v, unitKey v ≠ unitKey u → (t.unit v).state = (s.unit v).state) ∧ Only ([.units, .mboxes, .health, .flash] ++ eventFields) s t)

/-- R588: patrol. R589: its result. R593: conditional fences. -/
def Obligations.PatrolAndConditionalFences : Prop :=
  (∀ s now u (f : Fin 32) temp act, (s.core 6).restarting = true → exec (.patrolTick now u) s = .next (s.at now) ∧
    exec (.condFenceSample now f temp act) s = .next (s.at now)) ∧
  (∀ s now (f : Fin 32), (s.core 6).restarting = false → ∃ t, exec (.patrolTick now ⟨.fold, f⟩) s = .next t ∧ t.time = (s.at now).time ∧ Only [.time, .health] s t ∧
    (s.accepts ⟨.fold, f⟩ = false → t = s.at now) ∧
    (∀ last, tget 0 s.health.lastPatrol (unitKey ⟨.fold, f⟩) = last → s.accepts ⟨.fold, f⟩ = true →
      (last = 0 ∨ last + (if s.dev.dstate = .watched then 300000000000 else 600000000000) ≤ t.time.now + 1 →
        t.health = { s.health with patrolRuns := satInc 64 s.health.patrolRuns,
                                   lastPatrol := tset 0 s.health.lastPatrol (unitKey ⟨.fold, f⟩) (t.time.now + 1) }) ∧
      (last ≠ 0 → t.time.now + 1 < last + (if s.dev.dstate = .watched then 300000000000 else 600000000000) → t = s.at now))) ∧
  (∀ s u a b, a = true ∨ b = true ∨ unitExists u = false ∨ u.ty = .device ∨ (s.unit u).state.accepts = false → exec (.patrolResult u a b) s = .next s) ∧
  (∀ s u, unitExists u = true → u.ty ≠ .device → u.ty ≠ .die → u.ty ≠ .fabPort → (s.unit u).state.accepts = true →
    ∃ t, exec (.patrolResult u false false) s = .next t ∧ (t.unit u).state = .fenced ∧ FenceMode.patrol ∈ t.fencesOf u ∧
    (∀ v, unitKey v ≠ unitKey u → (t.unit v).state = (s.unit v).state ∧ t.fencesOf v = s.fencesOf v) ∧
    t.time = s.time ∧ t.dev = s.dev ∧ t.mboxes = s.mboxes ∧ t.fuses = s.fuses) ∧
  (∀ s now (f : Fin 32) temp act, (s.core 6).restarting = false → ∃ t, exec (.condFenceSample now f temp act) s = .next t ∧ t.time = (s.at now).time ∧
    t.flash = s.flash ∧ t.dev = s.dev ∧ t.mboxes = s.mboxes ∧
    (s.fencesOf ⟨.fold, f⟩ = [] → t.foldHealth f = { s.foldHealth f with tempBand := tempBand temp, actBand := actBand act, inBands := false } ∧
      Only [.time, .health] s t) ∧
    (s.fencesOf ⟨.fold, f⟩ = [.cond (tempBand temp) (actBand act)] → (s.unit ⟨.fold, f⟩).state.accepts = true →
      (t.unit ⟨.fold, f⟩).state = .fenced) ∧
    (∀ tb ab x, s.fencesOf ⟨.fold, f⟩ = [.cond tb ab] → (s.unit ⟨.fold, f⟩).state = .fenced → (s.unit ⟨.fold, f⟩).debug = false →
      (s.unit ⟨.fold, f⟩).capsDegraded = none → tget (0, 0) (s.foldHealth f).outs (tb * 4 + ab) = (x + 1, 0) →
      beyondBand tb temp = true → x + 1000000000 ≤ t.time.now → (t.unit ⟨.fold, f⟩).state = .ready))

/-- R582, R584, R586: HEALTH_EVALUATION. R587: WATCH_SET. R97: DEV_FENCE. R597: STANDBY_ENTER. -/
def Obligations.HealthClassesWatchFenceAndStandby : Prop :=
  (∀ s x, (s.core 6).restarting = true → exec (.healthEvaluation x) s = .next (s.at x.now)) ∧
  (∀ s x, (s.core 6).restarting = false → ∃ t, exec (.healthEvaluation x) s = .next t ∧ t.time = (s.at x.now).time ∧ Only ([.time, .health] ++ eventFields) s t ∧
    (s.dev.dstate = .rom ∨ t.time.now - s.health.lastEval < 1000000000 → t = s.at x.now) ∧
    (s.dev.dstate ≠ .rom → 1000000000 ≤ t.time.now - s.health.lastEval → t.health.lastEval = t.time.now ∧
      ∀ k, k = none ∨ (∃ f, f < 32 ∧ k = some f) → (t.scope k).fresh = 0 ∧
        (t.scope k).cls = (if (s.scope k).cls = 0 then (if (t.scope k).score < 500 then 2 else if (t.scope k).score < 800 then 1 else 0)
          else if (s.scope k).cls = 1 then (if (t.scope k).score < 500 then 2 else if 850 ≤ (t.scope k).score then 0 else 1)
          else (if 850 ≤ (t.scope k).score then 0 else if 550 ≤ (t.scope k).score then 1 else 2)))) ∧
  (∀ s (m : Fin 16) c, Taken s m.val 0x0601 c → c.argLength = 1 →
    (c.arg 0x20 1 = 1 ∧ s.dev.dstate = .serving) ∨ (c.arg 0x20 1 = 0 ∧ s.dev.dstate = .watched) →
    ∃ t, exec (.watchSet m) s = .next t ∧ t.dev = { s.dev with dstate := if c.arg 0x20 1 = 1 then .watched else .serving } ∧
    Answers s t m c .ok [] false ∧ Only ([.dev, .mboxes] ++ eventFields) s t) ∧
  (∀ s (m : Fin 16) c, Taken s m.val 0x0604 c →
    s.dev.dstate = .serving ∨ s.dev.dstate = .dusk ∨ s.dev.dstate = .draining ∨ s.dev.dstate = .standby ∨ s.dev.dstate = .watched →
    s.health.assuming = [] → s.power.removal = none → s.power.nightCmd = none → s.power.wakeAfter = [] → ∃ t, exec (.devFence m) s = .next t ∧
    t.dev = { s.dev with fencedFrom := s.dev.dstate, dstate := .fenced } ∧ t.health.fencedAt = s.time.now ∧
    Answers s t m c .ok [] false ∧ Only ([.dev, .mboxes, .radio, .health, .power] ++ eventFields) s t) ∧
  (∀ s (m : Fin 16) c, Taken s m.val 0x0608 c → 5 ≤ c.argLength → 8 ≤ c.arg 0x24 1 → c.arg 0x24 1 ≤ 64 → s.reservedCells = [] →
    s.dev.dstate = .configuring ∨ s.dev.dstate = .serving → ∃ t, exec (.standbyEnter m) s = .next t ∧
    t.dev = { s.dev with dstate := .standby } ∧ t.health = { s.health with group := some (c.arg 0x20 4, c.arg 0x24 1) } ∧
    Answers s t m c .ok [] false ∧ Only ([.dev, .mboxes, .health] ++ eventFields) s t)

/-- R590: RETEST. R596: MARGIN_SWEEP. R598, R599: ASSUME. -/
def Obligations.RetestSweepAndAssume : Prop :=
  (∀ s (m : Fin 16) c, Taken s m.val 0x0602 c → s.dev.dstate = .standby ∨ s.dev.dstate = .fenced → (s.mbox m).long.length < 4 →
    ∃ t, exec (.retest m) s = .next t ∧ t.fuses = s.fuses ∧ t.time = s.time ∧ t.settings = s.settings ∧
    ((∀ u ∈ allUnits, (s.unit u).state ≠ .sleeping) → Answers s t m c .ok [] true ∧ t.health = { s.health with retests := s.health.retests ++ [(m.val, c.seq, s.time.now)] } ∧
      Only ([.mboxes, .health, .power] ++ eventFields) s t)) ∧
  (∀ s now heavy n lo hi mv, s.health.retests = [] → exec (.retestDone now [] heavy n lo hi mv) s = .next (s.at now)) ∧
  (∀ s now heavy n lo hi mv m q start rest, s.health.retests = (m, q, start) :: rest → s.flash.fences = [] → s.sec.spent = false →
    s.sec.queue.length < 1024 → ∃ t, exec (.retestDone now [] heavy n lo hi mv) s = .next t ∧
    t.health.retests = rest ∧ t.health.certifying = s.health.certifying ++ [(m, q, (s.at now).certificate start [] heavy n lo hi mv)] ∧
    t.sec = { s.sec with queue := s.sec.queue ++ [.certificate ((s.at now).certificate start [] heavy n lo hi mv)] } ∧
    Only ([.time, .health, .sec, .fresh] ++ eventFields) s t) ∧
  (∀ s (m : Fin 16) c, Taken s m.val 0x0603 c → 6 ≤ c.argLength → sweepBad c = false →
    s.dev.dstate = .serving ∨ s.dev.dstate = .standby ∨ s.dev.dstate = .watched ∨ s.dev.dstate = .fenced → (s.mbox m).long.length < 4 →
    (s.shown ⟨.fold, c.arg 0x20 1⟩ = .fenced → ∃ t, exec (.marginSweep m) s = .next t ∧ Answers s t m c .ok [] true ∧
      t.health = { s.health with sweeps := s.health.sweeps ++ [(m.val, c.seq, c.arg 0x20 1, c.args.take 6)] } ∧
      Only ([.mboxes, .health] ++ eventFields) s t) ∧
    (s.shown ⟨.fold, c.arg 0x20 1⟩ ≠ .fenced → ∃ t, exec (.marginSweep m) s = .next t ∧
      Answers s t m c .stateConflict (leBytes 1 1 ++ leBytes 1 (s.shown ⟨.fold, c.arg 0x20 1⟩).code ++ leBytes 2 0 ++ leBytes 4 32 ++
        leBytes 8 (4 + 65536 * c.arg 0x20 1)) false ∧ Only ([.mboxes] ++ eventFields) s t)) ∧
  (∀ s (f : Fin 32) l a b w, s.health.sweeps.find? (fun x => x.2.2.1 == f.val) = some w → ∃ t, exec (.marginSweepDone f l a b) s = .next t ∧
    t.health.sweeps = s.health.sweeps.erase w ∧ (t.mbox w.1).long = (s.mbox w.1).long.erase ⟨0x0603, w.2.1⟩ ∧
    Only ([.mboxes, .health] ++ eventFields) s t) ∧
  (∀ s (f : Fin 32) l a b, s.health.sweeps.find? (fun x => x.2.2.1 == f.val) = none → exec (.marginSweepDone f l a b) s = .next s) ∧
  (∀ s (m : Fin 16) c v, Taken s m.val 0x0609 c → assumeBad c = false → s.dev.dstate = .standby → (s.mbox m).long.length < 4 →
    (∀ e ∈ assumeEntries c, (s.cell e.cell).state = .unused) → s.changesBlocked = false → s.time.everLocked = true →
    s.assumeAll (c.arg 0x22 1 == 1) (assumeEntries c) = some v → assumeFits (assumeEntries c) v = none →
    ∃ t, exec (.assume m) s = .next t ∧ Answers s t m c .ok [] true ∧ t.radio = v.radio ∧
    (∀ k, (t.cell k).state = if k ∈ (assumeEntries c).map (fun e => e.cell) then .admitted else (s.cell k).state) ∧
    t.health.assuming = s.health.assuming ++ [(m.val, c.seq, c.arg 0x20 2, c.arg 0x22 1 == 1, (assumeEntries c).map (fun e => e.cell))] ∧
    Only ([.mboxes, .tiers, .radio, .fh, .health, .fresh, .deviceMem] ++ eventFields) s t) ∧
  (∀ s now a, s.health.assuming.find? (fun a => a.2.2.2.2.all (fun c => (s.cell c).serves)) = some a → ∃ t, exec (.assumeDone now) s = .next t ∧
    t.dev = { s.dev with dstate := if s.dev.dstate = .standby then .serving else s.dev.dstate } ∧ t.time = (s.at now).time ∧
    t.health = { s.health with assuming := s.health.assuming.erase a } ∧
    (t.mbox a.1).long = (s.mbox a.1).long.erase ⟨0x0609, a.2.1⟩ ∧
    Only ([.dev, .mboxes, .time, .health] ++ eventFields) s t) ∧
  (∀ s now, s.health.assuming.find? (fun a => a.2.2.2.2.all (fun c => (s.cell c).serves)) = none → exec (.assumeDone now) s = .next (s.at now))

/-- R549 to R553: INST_CREATE. R357: QUOTA_SET. R559, R560: INST_RESET. R572: INST_DESTROY. -/
def Obligations.InstancesCreatedResetAndDestroyed : Prop :=
  (∀ s (m : Fin 16) c v, Taken s m.val 0x0101 c → descAgreed (fieldAt c.args 2 2) = some v → grantLength c.args ≤ c.argLength →
    instArg c ≠ 0 → grantBad c.args = false → s.dev.dstate = .configuring ∨ s.dev.dstate = .serving ∨ s.dev.dstate = .dusk ∨
      s.dev.dstate = .standby ∨ s.dev.dstate = .watched → (s.inst (instArg c)).state = .unused → s.stacksServe 0 = true →
    s.grantCapacity (parseGrant c.args) = false → tableSize (parseGrant c.args) ≤ (parseGrant c.args).quotaT1 →
    ∃ t, exec (.instCreate m) s = .next t ∧
    t.inst (instArg c) = { s.inst (instArg c) with
      state := .active, generation := 1, grant := { parseGrant c.args with descVersion := v }
      queueTable := some s.freeEntry, bitmap := 0, dirtyPages := 0, transfer := none, transferCmd := none, image := none } ∧
    (∀ j, j ≠ instArg c → t.inst j = s.inst j) ∧
    ((t.obj s.freeEntry).live = true ∧ (t.obj s.freeEntry).home = 1 ∧ (t.obj s.freeEntry).holders = [instArg c] ∧
      (t.obj s.freeEntry).size = ((parseGrant c.args).queueCount + (parseGrant c.args).groupCount + 1023) / 1024 * 65536) ∧
    (∀ e, e ≠ s.freeEntry → t.obj e = s.obj e) ∧
    Answers s t m c .ok (leBytes 8 1 ++ leBytes 8 (t.handleOf s.freeEntry (instArg c))) false ∧
    Only ([.mboxes, .insts, .tiers, .fh, .deviceMem] ++ eventFields) s t) ∧
  (∀ s (m : Fin 16) c, Taken s m.val 0x0109 c → c.argLength = 16 → instArg c ≠ 0 → c.arg 0x21 1 ≤ 2 →
    s.dev.dstate = .configuring ∨ s.dev.dstate = .serving ∨ s.dev.dstate = .dusk ∨ s.dev.dstate = .standby ∨ s.dev.dstate = .watched →
    (s.inst (instArg c)).state = .active ∨ (s.inst (instArg c)).state = .frozen → ∃ t, exec (.quotaSet m) s = .next t ∧
    t.inst (instArg c) = { s.inst (instArg c) with grant := { (s.inst (instArg c)).grant with
      quotaT0 := if c.arg 0x21 1 = 0 then c.arg 0x28 8 else (s.inst (instArg c)).grant.quotaT0
      quotaT1 := if c.arg 0x21 1 = 1 then c.arg 0x28 8 else (s.inst (instArg c)).grant.quotaT1
      quotaT2 := if c.arg 0x21 1 = 2 then c.arg 0x28 8 else (s.inst (instArg c)).grant.quotaT2 } } ∧
    (∀ j, j ≠ instArg c → t.inst j = s.inst j) ∧ Answers s t m c .ok [] false ∧ Only ([.mboxes, .insts] ++ eventFields) s t) ∧
  (∀ s (m : Fin 16) c, Taken s m.val 0x0103 c → c.argLength = 1 → instArg c ≠ 0 → instArg c = c.instId →
    s.dev.dstate = .serving ∨ s.dev.dstate = .dusk ∨ s.dev.dstate = .standby ∨ s.dev.dstate = .watched ∨ s.dev.dstate = .fenced →
    (s.inst (instArg c)).state = .active → (∀ f, (s.fold f).holdAsked = none) → ∃ t, exec (.instReset m) s = .next t ∧
    (t.inst (instArg c)).generation = (if (s.inst (instArg c)).generation = 65535 then 1 else (s.inst (instArg c)).generation + 1) ∧
    (t.inst (instArg c)).state = .active ∧ (t.inst (instArg c)).resets = min ((s.inst (instArg c)).resets + 1) (2 ^ 32 - 1) ∧
    (t.inst (instArg c)).grant = (s.inst (instArg c)).grant ∧
    (∀ j, j ≠ instArg c → (t.inst j).generation = (s.inst j).generation ∧ (t.inst j).state = (s.inst j).state ∧ (t.inst j).grant = (s.inst j).grant) ∧
    t.queues.doorbells = s.queues.doorbells.filter (fun d => d.1 != instArg c) ∧
    Answers s t m c .ok (leBytes 2 (t.inst (instArg c)).generation) false ∧
    Only ([.units, .mboxes, .dbPages, .insts, .spoof, .tiers, .folds, .disp, .queues, .radio, .dma, .fabMem, .health, .power, .fresh, .deviceMem] ++ eventFields) s t) ∧
  (∀ s (m : Fin 16) c, Taken s m.val 0x0102 c → c.argLength = 1 → instArg c ≠ 0 →
    s.dev.dstate = .configuring ∨ s.dev.dstate = .serving ∨ s.dev.dstate = .dusk ∨ s.dev.dstate = .standby ∨ s.dev.dstate = .watched ∨
      s.dev.dstate = .fenced →
    (s.inst (instArg c)).state = .active ∨ (s.inst (instArg c)).state = .frozen → (∀ f, (s.fold f).holdAsked = none) →
    (∀ k, k < 16 → (s.mbox k).role = .tenant → (s.mbox k).inst = instArg c → (s.mbox k).current = none) →
    ∃ t, exec (.instDestroy m) s = .next t ∧
    (t.inst (instArg c)).state = .unused ∧ (t.inst (instArg c)).generation = 0 ∧ (t.inst (instArg c)).grant = {} ∧
    (t.inst (instArg c)).queueTable = none ∧
    (∀ k, t.mbox k = if k = m.val then (s.mbox m).answered c .ok [] false t.dev.dstate.code t.carries
      else if k < 16 ∧ (s.mbox k).role = .tenant ∧ (s.mbox k).inst = instArg c then { role := .unassigned, session := (s.mbox k).session + 1 } else s.mbox k) ∧
    Only ([.units, .mboxes, .evPages, .dbPages, .insts, .spoof, .tiers, .folds, .disp, .queues, .radio, .dma, .fh, .fabMem, .health, .sec, .power, .fresh, .deviceMem] ++ eventFields) s t) ∧
  (∀ s (m : Fin 16) c i op, (i, op) ∈ [(Instr.instDestroy m, 0x0102), (.instFreeze m, 0x0104), (.instThaw m, 0x0107)] →
    Taken s m.val op c → c.argLength = 1 → instArg c = 0 →
    (∀ k, k < 16 → (s.mbox k).role = .tenant → (s.mbox k).inst = 0 → (s.mbox k).current = none) →
    ∃ t, exec i s = .next t ∧ Answers s t m c .badArg [] false ∧ Only ([.mboxes] ++ eventFields) s t)

/-- R563: INST_FREEZE. R564: INST_THAW. R565: DIRTY_SWAP. -/
def Obligations.InstancesFrozenThawedAndLogged : Prop :=
  (∀ s (m : Fin 16) c, Taken s m.val 0x0104 c → c.argLength = 1 → instArg c ≠ 0 →
    s.dev.dstate = .serving ∨ s.dev.dstate = .dusk ∨ s.dev.dstate = .standby ∨ s.dev.dstate = .watched → (s.inst (instArg c)).state = .active →
    ∃ t, exec (.instFreeze m) s = .next t ∧
    (∀ j, t.inst j = if j = instArg c then { s.inst j with state := .frozen } else s.inst j) ∧
    (∀ f k, (t.fold f).slot k = if ((s.fold f).slot k).state = .running ∧ ((s.fold f).slot k).inst = instArg c then
      { (s.fold f).slot k with paused := true } else (s.fold f).slot k) ∧
    (∀ r, t.region r = if ∃ p ∈ s.fabMem.regions, p.1 = r ∧ p.2.inst = instArg c ∧ p.2.state = .open' then { s.region r with state := .closing, frozen := true } else s.region r) ∧
    Answers s t m c .ok [] false ∧ Only ([.mboxes, .insts, .folds, .fabMem] ++ eventFields) s t) ∧
  (∀ s (m : Fin 16) c, Taken s m.val 0x0107 c → c.argLength = 1 → instArg c ≠ 0 →
    s.dev.dstate = .serving ∨ s.dev.dstate = .dusk ∨ s.dev.dstate = .standby ∨ s.dev.dstate = .watched → (s.inst (instArg c)).state = .frozen →
    ∃ t, exec (.instThaw m) s = .next t ∧
    (∀ j, t.inst j = if j = instArg c then { s.inst j with state := .active } else s.inst j) ∧
    (∀ f k, (t.fold f).slot k = if ((s.fold f).slot k).state = .running ∧ ((s.fold f).slot k).inst = instArg c then
      { (s.fold f).slot k with paused := false } else (s.fold f).slot k) ∧
    (∀ r, t.region r = if ∃ p ∈ s.fabMem.regions, p.1 = r ∧ p.2.inst = instArg c ∧ p.2.state = .closing ∧ p.2.frozen = true then
      { s.region r with state := .open', frozen := false } else s.region r) ∧
    Answers s t m c .ok [] false ∧ Only ([.mboxes, .insts, .folds, .fabMem] ++ eventFields) s t) ∧
  (∀ s (m : Fin 16) c, Taken s m.val 0x0108 c → 16 ≤ c.argLength → instArg c ≠ 0 → c.arg 0x28 8 % 64 = 0 →
    s.dev.dstate = .serving ∨ s.dev.dstate = .dusk ∨ s.dev.dstate = .standby ∨ s.dev.dstate = .watched →
    (s.inst (instArg c)).state = .active ∨ (s.inst (instArg c)).state = .frozen ∨ (s.inst (instArg c)).state = .exporting →
    (c.arg 0x28 8 = 0 ∨ s.inSomeWindow (c.arg 0x28 8) (bitmapSize (s.inst (instArg c)).grant) = false → ∃ t, exec (.dirtySwap m) s = .next t ∧
      (∀ j, t.inst j = if j = instArg c then { s.inst j with bitmap := c.arg 0x28 8, dirtyPages := 0 } else s.inst j) ∧
      Answers s t m c .ok (leBytes 8 (s.inst (instArg c)).bitmap) false ∧ Only ([.mboxes, .insts] ++ eventFields) s t) ∧
    (c.arg 0x28 8 ≠ 0 → s.inSomeWindow (c.arg 0x28 8) (bitmapSize (s.inst (instArg c)).grant) = true → ∃ t, exec (.dirtySwap m) s = .next t ∧
      Answers s t m c .badArg [] false ∧ Only ([.mboxes] ++ eventFields) s t))

/-- R568: INST_EXPORT, INST_EXPORT_DONE. R569: INST_IMPORT. R570: INST_IMPORT_DONE. -/
def Obligations.InstancesExportedAndImported : Prop :=
  (∀ s (m : Fin 16) c, Taken s m.val 0x0105 c → 24 ≤ c.argLength → instArg c ≠ 0 → c.arg 0x28 8 % 4096 = 0 → (s.mbox m).long.length < 4 →
    s.dev.dstate = .serving ∨ s.dev.dstate = .dusk ∨ s.dev.dstate = .standby ∨ s.dev.dstate = .watched →
    (s.inst (instArg c)).state = .frozen → s.inSomeWindow (c.arg 0x28 8) (c.arg 0x30 8) = false → ∃ t, exec (.instExport m) s = .next t ∧
    (if c.arg 0x30 8 < s.imageSize (instArg c) then Answers s t m c .capacity (leBytes 8 (s.imageSize (instArg c))) false ∧ Only ([.mboxes] ++ eventFields) s t
    else Answers s t m c .ok (leBytes 8 (s.imageSize (instArg c))) true ∧ Only ([.mboxes, .insts] ++ eventFields) s t ∧
      ∀ j, t.inst j = if j = instArg c then { s.inst j with
        state := .exporting, transfer := some (c.arg 0x28 8, c.arg 0x30 8, 0), transferCmd := some (m.val, c.seq) } else s.inst j)) ∧
  (∀ s (i : Fin 256) buf len z m seq, (s.inst i).state = .exporting → (s.inst i).transfer = some (buf, len, z) → (s.inst i).transferCmd = some (m, seq) →
    (s.instBusy i = true → exec (.instExportDone i) s = .next s) ∧
    (s.instBusy i = false → ∃ t, exec (.instExportDone i) s = .next t ∧ (t.inst i).state = .frozen ∧ (t.inst i).transfer = none ∧
      (t.inst i).transferCmd = none ∧ (t.mbox m).long = (s.mbox m).long.erase ⟨0x0105, seq⟩ ∧
      Only ([.mboxes, .insts, .tiers, .queues, .power, .fresh, .deviceMem] ++ eventFields) s t)) ∧
  (∀ s (i : Fin 256), (s.inst i).state ≠ .exporting → exec (.instExportDone i) s = .next s) ∧
  (∀ s (m : Fin 16) image c b v, Taken s m.val 0x0106 c → 32 ≤ c.argLength → instArg c ≠ 0 → (s.mbox m).long.length < 4 →
    image.classString = Config.classString ∨ (image.contexts = [] ∧ image.tasks = []) → b = s.rd .companion (c.arg 0x30 8) 3168 →
    descAgreed (parseGrant b).descVersion = some v → grantBad b = false →
    s.dev.dstate = .configuring ∨ s.dev.dstate = .serving ∨ s.dev.dstate = .dusk ∨ s.dev.dstate = .standby ∨ s.dev.dstate = .watched →
    (s.inst (instArg c)).state = .unused → s.stacksServe 0 = true → s.grantCapacity (parseGrant b) = false →
    tableSize (parseGrant b) ≤ (parseGrant b).quotaT1 → ∃ t, exec (.instImport m image) s = .next t ∧
    (∀ j, t.inst j = if j = instArg c then { s.inst j with
      state := .importing, generation := image.generation, grant := { parseGrant b with descVersion := v }, bitmap := 0, dirtyPages := 0
      image := some image, transfer := some (c.arg 0x28 8, c.arg 0x30 8, c.arg 0x38 8), transferCmd := some (m.val, c.seq) } else s.inst j) ∧
    Answers s t m c .ok (leBytes 2 image.generation) true ∧ Only ([.mboxes, .insts] ++ eventFields) s t) ∧
  (∀ s (i : Fin 256) ok a b d m seq img, (s.inst i).state = .importing → (s.inst i).transfer = some (a, b, d) → (s.inst i).transferCmd = some (m, seq) →
    (s.inst i).image = some img → ∃ t, exec (.instImportDone i ok) s = .next t ∧
    (t.mbox m).long = (s.mbox m).long.erase ⟨0x0106, seq⟩ ∧
    Only ([.mboxes, .insts, .tiers, .folds, .disp, .queues, .fh, .fabMem, .deviceMem] ++ eventFields) s t ∧
    (ok = false ∨ (∃ e, s.importAll i img = .error e) → (t.inst i).state = .unused ∧ (t.inst i).generation = 0 ∧ (t.inst i).grant = {} ∧ t.tiers = s.tiers ∧ t.folds = s.folds) ∧
    (∀ tr v, ok = true → s.importAll i img = .ok (tr, v) → t.tiers = v.tiers ∧ t.folds = v.folds ∧ t.disp = v.disp ∧ t.fabMem = v.fabMem)) ∧
  (∀ s (i : Fin 256) ok, (s.inst i).state ≠ .importing → exec (.instImportDone i ok) s = .next s)

/-- R276, R277: CELL_ADD. R279: CELL_RECONFIGURE. R278: CELL_REMOVE. R311, R312: admission. -/
def Obligations.CellsAddedReconfiguredAndRemoved : Prop :=
  (∀ s (m : Fin 16) c x, Taken s m.val 0x0201 c → c.argLength = 64 ∨ 96 ≤ c.argLength → cellBad c.args = false → x = parseCell c.args →
    s.dev.dstate = .configuring ∨ s.dev.dstate = .serving ∨ s.dev.dstate = .dusk ∨ s.dev.dstate = .watched →
    s.changesBlocked = false → s.time.everLocked = true → s.cellArgBad x true = false →
    (∀ n, firstOver (s.needs false (s.modeWith x) (slotClass x) (s.reservedSet ++ [⟨x, none⟩])) = some n → ∃ t, exec (.cellAdd m) s = .next t ∧
      Answers s t m c (needResult n).1 (needResult n).2 false ∧ Only ([.mboxes] ++ eventFields) s t) ∧
    (firstOver (s.needs false (s.modeWith x) (slotClass x) (s.reservedSet ++ [⟨x, none⟩])) = none → (s.allocT1 0 (16 * harqMib x)).isSome = true →
      ∃ t, exec (.cellAdd m) s = .next t ∧
      ((t.cell s.freeCell).state = .admitted ∧ (t.cell s.freeCell).cfg = x ∧ (t.cell s.freeCell).inc = (s.cell s.freeCell).inc + 1 ∧
        (t.cell s.freeCell).notBefore = if s.dev.dstate = .configuring then 0 else s.time.now + 2000000) ∧
      (∀ k, k ≠ s.freeCell → t.cell k = s.cell k) ∧ Answers s t m c .ok (leBytes 2 s.freeCell ++ leBytes 2 (quarterUnits x)) false ∧
      Only ([.mboxes, .tiers, .radio, .fh, .deviceMem] ++ eventFields) s t)) ∧
  (∀ s (m : Fin 16) c x k, Taken s m.val 0x0203 c → c.argLength = 66 ∨ 98 ≤ c.argLength → c.arg 0x20 2 = k → k ≤ 511 → cellBad (c.args.drop 2) = false →
    x = parseCell (c.args.drop 2) → s.dev.dstate = .serving ∨ s.dev.dstate = .dusk ∨ s.dev.dstate = .watched → (s.cell k).state = .active →
    s.changesBlocked = false → s.cellArgBad x false = false →
    firstOver (s.needs false (s.modeWith x) (slotClass x) (s.reservedBut k ++ [⟨x, (s.costed (s.cell k)).nrx⟩])) = none →
    ∃ t, exec (.cellReconfigure m) s = .next t ∧
    (∀ j, t.cell j = if j = k then { s.cell j with state := .reconfiguring, next := some x, notBefore := s.time.now + 2000000 } else s.cell j) ∧
    Answers s t m c .ok [] false ∧ Only ([.mboxes, .radio] ++ eventFields) s t) ∧
  (∀ s (m : Fin 16) c k, Taken s m.val 0x0202 c → c.argLength = 2 → c.arg 0x20 2 = k → k ≤ 511 →
    s.dev.dstate = .configuring ∨ s.dev.dstate = .serving ∨ s.dev.dstate = .dusk ∨ s.dev.dstate = .draining ∨ s.dev.dstate = .watched →
    ((s.cell k).state ≠ .unused → (s.cell k).state ≠ .removing → s.changesBlocked = false → ∃ t, exec (.cellRemove m) s = .next t ∧
      (∀ j, t.cell j = if j = k then { s.cell j with state := .removing, next := none } else s.cell j) ∧
      Answers s t m c .ok [] false ∧ Only ([.mboxes, .radio] ++ eventFields) s t) ∧
    ((s.cell k).state = .unused ∨ (s.cell k).state = .removing → ∃ t r, exec (.cellRemove m) s = .next t ∧
      Answers s t m c .stateConflict r false ∧ Only ([.mboxes] ++ eventFields) s t))

/-- R335: RADIO_SHARE_SET, PENUMBRA_SET (R322). R298: NRX_LOAD. -/
def Obligations.RadioShareAndPenumbraAndNeuralReceiver : Prop :=
  (∀ s (m : Fin 16) c, Taken s m.val 0x0204 c → 1 ≤ c.argLength → c.arg 0x20 1 ≤ 50 →
    s.dev.dstate = .configuring ∨ s.dev.dstate = .serving ∨ s.dev.dstate = .dusk ∨ s.dev.dstate = .watched → ∃ t, exec (.radioShareSet m) s = .next t ∧
    (if c.arg 0x20 1 * s.eligibleNow.length * 10000000 < (s.reservedSet.map (costOf 9 0)).sum then
      (∃ r, Answers s t m c .capacity r false) ∧ Only ([.mboxes] ++ eventFields) s t
    else t.settings = { s.settings with shareNext := c.arg 0x20 1 } ∧ Answers s t m c .ok [] false ∧ Only ([.mboxes, .settings] ++ eventFields) s t)) ∧
  (∀ s (m : Fin 16) c, Taken s m.val 0x0205 c → 4 ≤ c.argLength →
    s.dev.dstate = .configuring ∨ s.dev.dstate = .serving ∨ s.dev.dstate = .dusk ∨ s.dev.dstate = .watched → ∃ t, exec (.penumbraSet m) s = .next t ∧
    (if 3000 ≤ c.arg 0x20 4 ∧ c.arg 0x20 4 ≤ 100000 then
      t.settings = { s.settings with penumbraNext := c.arg 0x20 4 } ∧ Answers s t m c .ok [] false ∧ Only ([.mboxes, .settings] ++ eventFields) s t
    else Answers s t m c .badArg [] false ∧ Only ([.mboxes] ++ eventFields) s t)) ∧
  (∀ s (m : Fin 16) c, Taken s m.val 0x0206 c → 88 ≤ c.argLength → c.arg 0x60 8 = 0 → c.arg 0x68 1 ≤ 1 → (s.mbox m).long.length < 4 →
    s.dev.dstate = .configuring ∨ s.dev.dstate = .serving ∨ s.dev.dstate = .dusk ∨ s.dev.dstate = .watched →
    (∀ k ∈ cellMap c, (s.cell k).state = .admitted ∨ (s.cell k).state = .active) →
    ((cellMap c).map (fun k => (s.cell k).cfg.mu)).eraseDups.length ≤ 1 → s.changesBlocked = false →
    firstOver (s.needs false s.portMode 0 (s.nrxSet (cellMap c) none)) = none → ∃ t, exec (.nrxLoad m) s = .next t ∧
    t.radio.nrx.pending = some (cellMap c, none, m.val, c.seq) ∧ t.radio.cells = s.radio.cells ∧ t.folds = s.folds ∧
    Answers s t m c .ok [] true ∧ Only ([.mboxes, .radio] ++ eventFields) s t)

/-- R340 to R345: OBJ_CREATE. R371: OBJ_QUERY. R346: OBJ_DESTROY. R341: handles that are refused. -/
def Obligations.ObjectsCreatedQueriedAndDestroyed : Prop :=
  (∀ s (m : Fin 16) c, Taken s m.val 0x0301 c → (if ocShared c then 64 else 32) ≤ c.argLength → objCreateArgs c = true → s.sourceOk c = true →
    s.dev.dstate = .configuring ∨ s.dev.dstate = .serving ∨ s.dev.dstate = .dusk ∨ s.dev.dstate = .standby ∨ s.dev.dstate = .watched →
    c.instId = 0 ∨ (s.inst c.instId).state = .active →
    (s.joinOf c = none → (ocHome c = 1 → s.stacksServe (ocPlace c) = true ∧ s.overQuota c.instId 1 (ocSize c) = false) → s.freeEntry < 2 ^ 20 →
      ∀ l, s.createChunks c = some l → ∃ t, exec (.objCreate m) s = .next t ∧
      t.obj s.freeEntry = newObj c (if (s.obj s.freeEntry).refGen = 0 then 1 else (s.obj s.freeEntry).refGen) s.tiers.accepted l ∧
      (∀ e, e ≠ s.freeEntry → t.obj e = s.obj e) ∧
      Answers s t m c .ok (leBytes 8 (t.handleOf s.freeEntry c.instId) ++ [0#8]) false ∧ Only ([.mboxes, .tiers, .deviceMem] ++ eventFields) s t) ∧
    (∀ e, s.joinOf c = some e → ((s.obj e).holders.contains c.instId = false → (s.obj e).home = 1 → s.overQuota c.instId 1 (s.obj e).size = false) →
      ∃ t, exec (.objCreate m) s = .next t ∧
      (∀ k, t.obj k = if k = e ∧ (s.obj e).holders.contains c.instId = false then
        { s.obj e with holders := (s.obj e).holders ++ [c.instId], refs := (s.obj e).refs ++ [⟨c.instId, (s.obj e).home, .plain⟩] } else s.obj k) ∧
      Answers s t m c .ok (leBytes 8 (t.handleOf e c.instId) ++ [1#8]) false ∧ Only ([.mboxes, .tiers] ++ eventFields) s t)) ∧
  (∀ s (m : Fin 16) c, Taken s m.val 0x0306 c → 8 ≤ c.argLength → hdlInst (hArg c) = c.instId →
    s.dev.dstate = .configuring ∨ s.dev.dstate = .serving ∨ s.dev.dstate = .dusk ∨ s.dev.dstate = .standby ∨ s.dev.dstate = .watched →
    c.instId = 0 ∨ (s.inst c.instId).state = .active → s.stale (hArg c) = false → ∃ t, exec (.objQuery m) s = .next t ∧
    Answers s t m c .ok (s.queryResult (hdlEntry (hArg c)) c.instId) false ∧ Only ([.mboxes] ++ eventFields) s t) ∧
  (∀ s (m : Fin 16) c, Taken s m.val 0x0305 c → 8 ≤ c.argLength → hdlInst (hArg c) = c.instId →
    s.dev.dstate = .configuring ∨ s.dev.dstate = .serving ∨ s.dev.dstate = .dusk ∨ s.dev.dstate = .standby ∨ s.dev.dstate = .watched →
    c.instId = 0 ∨ (s.inst c.instId).state = .active → s.stale (hArg c) = false → ∃ t, exec (.objDestroy m) s = .next t ∧
    c.instId ∉ (t.obj (hdlEntry (hArg c))).holders ∧ (∀ k, k ≤ 3 → (t.obj (hdlEntry (hArg c))).refIn c.instId k = false) ∧
    t.stale (hArg c) = true ∧ (∀ e, e ≠ hdlEntry (hArg c) → t.obj e = s.obj e) ∧
    Answers s t m c .ok [] false ∧ Only ([.mboxes, .tiers] ++ eventFields) s t) ∧
  (∀ s (m : Fin 16) c i op, (i, op) ∈ [(Instr.objEvict m, 0x0303), (.objDestroy m, 0x0305), (.objQuery m, 0x0306)] → Taken s m.val op c →
    9 ≤ c.argLength → c.arg 0x28 1 ≤ 3 →
    s.dev.dstate = .configuring ∨ s.dev.dstate = .serving ∨ s.dev.dstate = .dusk ∨ s.dev.dstate = .standby ∨ s.dev.dstate = .watched →
    c.instId = 0 ∨ (s.inst c.instId).state = .active → s.stale (hArg c) = true ∨ hdlInst (hArg c) ≠ c.instId → ∃ t, exec i s = .next t ∧
    Answers s t m c (if hdlInst (hArg c) ≠ c.instId then .badArg else .staleHandle) [] false ∧ Only ([.mboxes] ++ eventFields) s t)

/-- R352: OBJ_PROMOTE. R353: OBJ_EVICT. R364: OBJ_ALTERNATE. -/
def Obligations.ObjectsPromotedAndEvicted : Prop :=
  (∀ s (m : Fin 16) c, Taken s m.val 0x0302 c → 11 ≤ c.argLength → hdlInst (hArg c) = c.instId → tierArg c ≤ 2 →
    placeArg c ≤ (if tierArg c = 0 then 3 else if tierArg c = 1 then 2 else 255) →
    s.dev.dstate = .configuring ∨ s.dev.dstate = .serving ∨ s.dev.dstate = .dusk ∨ s.dev.dstate = .standby ∨ s.dev.dstate = .watched →
    c.instId = 0 ∨ (s.inst c.instId).state = .active → s.stale (hArg c) = false →
    (s.obj (hdlEntry (hArg c))).refIn c.instId (tierArg c) = false → (s.obj (hdlEntry (hArg c))).secondUpper (tierArg c) = false →
    s.promoteServes (s.obj (hdlEntry (hArg c))) (tierArg c) (placeArg c) = true → ¬(tierArg c = 2 ∧ (s.obj (hdlEntry (hArg c))).kind = 3) →
    (tierArg c = 0 → placeArg c = 3 → s.residence c.instId (c.arg 0x2A 1) ≠ []) →
    ((s.obj (hdlEntry (hArg c))).copy (tierArg c) = none → ¬((s.obj (hdlEntry (hArg c))).home = tierArg c ∧ 2 ≤ tierArg c) →
      (s.newParts (tierArg c) (placeArg c) c.instId (c.arg 0x2A 1) (s.obj (hdlEntry (hArg c))).chunks).isSome = true) →
    s.overQuota c.instId (tierArg c) (s.promoteCharge (s.obj (hdlEntry (hArg c))) (tierArg c) (placeArg c)) = false →
    ∃ t, exec (.objPromote m) s = .next t ∧
    (t.obj (hdlEntry (hArg c))).refs = (s.obj (hdlEntry (hArg c))).refs ++ [⟨c.instId, tierArg c,
      if tierArg c = 0 then (if placeArg c = 3 then .share c.instId (c.arg 0x2A 1) else .commons (placeArg c)) else .plain⟩] ∧
    (∀ e, e ≠ hdlEntry (hArg c) → t.obj e = s.obj e) ∧
    (∀ x, (s.obj (hdlEntry (hArg c))).copy (tierArg c) = some x → x.state ≠ .draining → t.obj (hdlEntry (hArg c)) =
      { s.obj (hdlEntry (hArg c)) with refs := (t.obj (hdlEntry (hArg c))).refs }) ∧
    (∀ x, (s.obj (hdlEntry (hArg c))).copy (tierArg c) = some x → x.state = .draining → (t.obj (hdlEntry (hArg c))).copy (tierArg c) =
      some { x with state := if (s.poisonedMoves (s.obj (hdlEntry (hArg c))) x).isEmpty then .resident else .poisoned }) ∧
    ((s.obj (hdlEntry (hArg c))).copy (tierArg c) = none → ¬((s.obj (hdlEntry (hArg c))).home = tierArg c ∧ 2 ≤ tierArg c) →
      ∃ x, (t.obj (hdlEntry (hArg c))).copy (tierArg c) = some x ∧ x.state = .filling ∧ x.filled = [] ∧ x.dirty = [] ∧ x.order = s.tiers.accepted ∧
        s.newParts (tierArg c) (placeArg c) c.instId (c.arg 0x2A 1) (s.obj (hdlEntry (hArg c))).chunks = some x.parts) ∧
    Answers s t m c .ok [] false ∧ Only ([.mboxes, .tiers] ++ eventFields) s t) ∧
  (∀ s (m : Fin 16) c, Taken s m.val 0x0303 c → 9 ≤ c.argLength → hdlInst (hArg c) = c.instId → tierArg c ≤ 3 →
    s.dev.dstate = .configuring ∨ s.dev.dstate = .serving ∨ s.dev.dstate = .dusk ∨ s.dev.dstate = .standby ∨ s.dev.dstate = .watched →
    c.instId = 0 ∨ (s.inst c.instId).state = .active → s.stale (hArg c) = false →
    (s.obj (hdlEntry (hArg c))).refIn c.instId (tierArg c) = true → (s.obj (hdlEntry (hArg c))).onlyCopy (tierArg c) = false →
    (s.obj (hdlEntry (hArg c))).pin = false → ∃ t, exec (.objEvict m) s = .next t ∧
    (t.obj (hdlEntry (hArg c))).refIn c.instId (tierArg c) = false ∧ (∀ e, e ≠ hdlEntry (hArg c) → t.obj e = s.obj e) ∧
    Answers s t m c .ok [] false ∧ Only ([.mboxes, .tiers] ++ eventFields) s t) ∧
  (∀ s (m : Fin 16) c, Taken s m.val 0x0304 c → 32 ≤ c.argLength → hdlInst (hArg c) = c.instId → 1 ≤ c.arg 0x28 1 → c.arg 0x28 1 ≤ 2 →
    s.dev.dstate = .configuring ∨ s.dev.dstate = .serving ∨ s.dev.dstate = .dusk ∨ s.dev.dstate = .standby ∨ s.dev.dstate = .watched →
    c.instId = 0 ∨ (s.inst c.instId).state = .active → s.stale (hArg c) = false → (s.obj (hdlEntry (hArg c))).readonly = true →
    (∀ a ∈ altArgs c, bitOf a 63 = true ∨ s.inWindow c.instId a (s.obj (hdlEntry (hArg c))).size = true) → ∃ t, exec (.objAlternate m) s = .next t ∧
    (t.obj (hdlEntry (hArg c))).alternates = altArgs c ∧ (t.obj (hdlEntry (hArg c))).refs = (s.obj (hdlEntry (hArg c))).refs ∧
    (∀ e, e ≠ hdlEntry (hArg c) → t.obj e = s.obj e) ∧ Answers s t m c .ok [] false ∧ Only ([.mboxes, .tiers] ++ eventFields) s t)

/-- R354: CHUNK_START, CHUNK_DONE. R358: TIER_LATE_EXPIRY. R362: REPAIR_WAIT_EXPIRY. R368: SCRUB_STEP. -/
def Obligations.TierMoverRepairAndScrub : Prop :=
  (∀ s h k, (s.core 4).restarting = true → exec (.chunkStart h k) s = .next s) ∧
  (∀ s h k, (s.core 4).restarting = false → (s.settleDrained.mover h).chan k ≠ none ∨ s.dev.dstate = .rom ∨ s.dev.dstate = .night ∨
      s.settleDrained.moverOps h (chanRadio k) = [] → exec (.chunkStart h k) s = .next s.settleDrained) ∧
  (∀ s h k n e tr mv c src low, (s.core 4).restarting = false → (s.settleDrained.mover h).chan k = none → s.dev.dstate ≠ .rom → s.dev.dstate ≠ .night →
    firstOp (s.settleDrained.moverOps h (chanRadio k)) = some (n, e, tr, mv) → (s.settleDrained.obj e).copy tr = some c →
    s.settleDrained.moveSource (s.settleDrained.obj e) c mv = some (src, low) → ∃ t, exec (.chunkStart h k) s = .next t ∧
    (t.mover h).chan k = some { obj := e, place := c.place, tier := tr, kind := c.moveKind, move := mv, src, lowTier := low, started := s.time.now } ∧
    (∀ j, j ≠ k.val → (t.mover h).chan j = (s.settleDrained.mover h).chan j) ∧ (∀ j, t.obj j = s.settleDrained.obj j) ∧ Only [.tiers] s t) ∧
  (∀ s h k f r, (s.mover h).chan k = none → exec (.chunkDone h k f r) s = .next s) ∧
  (∀ s h k f r x c, (s.mover h).chan k = some x → x.kind = .fill → (s.obj x.obj).copy x.tier = some c → c.cancelled = true →
    ∃ t, exec (.chunkDone h k f r) s = .next t ∧ (t.mover h).chan k = none ∧ (t.obj x.obj).copy x.tier = none ∧
    (∀ j, j ≠ x.obj → t.obj j = s.obj j) ∧ Only [.tiers] s t) ∧
  (∀ s h k r x c d a, (s.mover h).chan k = some x → x.kind = .fill → x.src = none → x.late = false → (s.obj x.obj).copy x.tier = some c →
    c.cancelled = false → (s.obj x.obj).kind ≠ 1 → c.place' (c.movePart x.move) (c.moveChunk x.move) = some (.commons d, a) → a % 64 = 0 →
    c.filled.length + 1 < c.moves (s.obj x.obj) → ∃ t, exec (.chunkDone h k .good r) s = .next t ∧ (t.mover h).chan k = none ∧
    t.rd (.commons d) a chunkSize = fixLen chunkSize r ∧ (t.obj x.obj).copy x.tier = some { c with filled := c.filled ++ [x.move] } ∧
    (t.mover h).filled = satInc 64 (s.mover h).filled ∧ (∀ j, j ≠ x.obj → t.obj j = s.obj j) ∧ Only [.tiers, .deviceMem] s t) ∧
  (∀ s now h k, (∀ x, (s.mover h).chan k = some x → x.lowTier = false ∨ x.late = true ∨
      (s.at now).time.now < x.started + 1000 * (s.obj x.obj).lateUs) → exec (.tierLateExpiry now h k) s = .next (s.at now)) ∧
  (∀ s now h k x, (s.mover h).chan k = some x → x.lowTier = true → x.late = false → x.started + 1000 * (s.obj x.obj).lateUs ≤ (s.at now).time.now →
    ∃ t, exec (.tierLateExpiry now h k) s = .next t ∧ t.time = (s.at now).time ∧ (t.mover h).chan k = some { x with late := true } ∧
    (∀ j, t.obj j = s.obj j) ∧ Only [.tiers, .folds, .time] s t) ∧
  (∀ s now, ∃ t, exec (.repairWaitExpiry now) s = .next t ∧ t.time = (s.at now).time ∧
    t.tiers = { s.tiers with waiters := s.tiers.waiters.filter (fun w => decide (t.time.now < w.until')) } ∧ Only [.tiers, .folds, .dma, .time] s t) ∧
  (∀ s u a f l, (s.core 4).restarting = true ∨ scrubSpace u = none ∨ s.accepts u = false → exec (.scrubStep u a f l) s = .next s) ∧
  (∀ s (u : UnitId) a f l, (s.core 4).restarting = false → u.ty = .stackCtl → s.accepts u = true → a % chunkSize < chunkSize - 32 →
    ∃ t, exec (.scrubStep u a f l) s = .next t ∧ (t.stackCtl u.idx).scrubActive = !l ∧
    (t.stackCtl u.idx).scrubPasses = (if l then satInc 32 (s.stackCtl u.idx).scrubPasses else (s.stackCtl u.idx).scrubPasses) ∧
    (t.stackCtl u.idx).corrected1 = (if f = .corrected1 then satInc 64 (s.stackCtl u.idx).corrected1 else (s.stackCtl u.idx).corrected1) ∧
    (t.stackCtl u.idx).corrected2 = (if f = .corrected2 then satInc 64 (s.stackCtl u.idx).corrected2 else (s.stackCtl u.idx).corrected2) ∧
    (t.stackCtl u.idx).uncorrectable = (if f = .uncorrectable ∧ s.knownPoison .hbm a = false then satInc 32 (s.stackCtl u.idx).uncorrectable
      else (s.stackCtl u.idx).uncorrectable) ∧ Only ([.tiers, .health, .fresh, .deviceMem] ++ eventFields) s t)

/-- R505 to R508: FAB_REGION_SET, REGION_CLOSE_DONE. R512: FAB_COMPAT_SET. -/
def Obligations.RegionsOpenedMadeCompatibleAndClosed : Prop :=
  (∀ s (m : Fin 16) c, Taken s m.val 0x0401 c → 48 ≤ c.argLength → regionBad c = false →
    s.dev.dstate = .configuring ∨ s.dev.dstate = .serving ∨ s.dev.dstate = .dusk ∨ s.dev.dstate = .standby ∨ s.dev.dstate = .watched →
    c.instId = 0 ∨ (s.inst c.instId).state = .active → s.regionOwned c.instId (c.arg 0x20 2) = true →
    (s.region (c.arg 0x20 2)).state = .unused ∨ ((s.region (c.arg 0x20 2)).state = .open' ∧ (s.region (c.arg 0x20 2)).inst = c.instId) →
    (rOpen c = true → s.handleStatus (c.arg 0x40 8) c.instId = none →
      s.regionOverlaps (c.arg 0x20 2) (c.arg 0x22 1 == 1) (c.arg 0x30 8) (c.arg 0x38 8) = false →
      c.arg 0x48 8 + c.arg 0x38 8 ≤ (s.obj (hdlEntry (c.arg 0x40 8))).size → (s.obj (hdlEntry (c.arg 0x40 8))).kind ≠ 3 →
      ((s.obj (hdlEntry (c.arg 0x40 8))).readonly = true → bitOf (c.arg 0x23 1) 1 = false ∧ bitOf (c.arg 0x23 1) 2 = false) →
      ∃ t, exec (.fabRegionSet m) s = .next t ∧ t.region (c.arg 0x20 2) = {
        state := .open', inst := c.instId, space := c.arg 0x22 1 == 1, read := bitOf (c.arg 0x23 1) 0, write := bitOf (c.arg 0x23 1) 1
        atomic := bitOf (c.arg 0x23 1) 2, keyIndex := c.arg 0x24 2, keyValue := BitVec.ofNat 32 (c.arg 0x28 4), base := c.arg 0x30 8
        length := c.arg 0x38 8, obj := hdlEntry (c.arg 0x40 8), objGen := hdlGen (c.arg 0x40 8), objOffset := c.arg 0x48 8 } ∧
      (∀ r, r ≠ c.arg 0x20 2 → t.region r = s.region r) ∧ Answers s t m c .ok [] false ∧ Only ([.mboxes, .fabMem] ++ eventFields) s t) ∧
    (rOpen c = false → ∃ t, exec (.fabRegionSet m) s = .next t ∧
      t.region (c.arg 0x20 2) = (if (s.region (c.arg 0x20 2)).state = .open' then { s.region (c.arg 0x20 2) with state := .closing, compat := false }
        else s.region (c.arg 0x20 2)) ∧
      (∀ r, r ≠ c.arg 0x20 2 → t.region r = s.region r) ∧ Answers s t m c .ok [] false ∧ Only ([.mboxes, .fabMem] ++ eventFields) s t)) ∧
  (∀ s (m : Fin 16) c, Taken s m.val 0x0402 c → 3 ≤ c.argLength → c.arg 0x20 2 ≤ 4095 → c.arg 0x22 1 ≤ 1 →
    s.dev.dstate = .configuring ∨ s.dev.dstate = .serving ∨ s.dev.dstate = .dusk ∨ s.dev.dstate = .standby ∨ s.dev.dstate = .watched →
    (s.region (c.arg 0x20 2)).state = .open' → c.arg 0x22 1 = 0 ∨ (s.region (c.arg 0x20 2)).inst = 0 → ∃ t, exec (.fabCompatSet m) s = .next t ∧
    t.region (c.arg 0x20 2) = { s.region (c.arg 0x20 2) with compat := c.arg 0x22 1 == 1 } ∧
    (∀ r, r ≠ c.arg 0x20 2 → t.region r = s.region r) ∧ Answers s t m c .ok [] false ∧ Only ([.mboxes, .fabMem, .sec] ++ eventFields) s t) ∧
  (∀ s (r : Fin 4096), (s.region r).state = .closing → (s.region r).frozen = false → s.regionBusy r = false →
    ∃ t, exec (.regionCloseDone r) s = .next t ∧ t.region r = {} ∧ (∀ j, j ≠ r.val → t.region j = s.region j) ∧ Only [.fabMem] s t) ∧
  (∀ s (r : Fin 4096), (s.region r).state ≠ .closing ∨ (s.region r).frozen = true ∨ s.regionBusy r = true → exec (.regionCloseDone r) s = .next s)

/-- R509 to R511: reads and writes. R515, R521, R523: flags and atomics. R522: ACK. R629: requests in NIGHT. -/
def Obligations.RequestsReceivedByTheResponder : Prop :=
  (∀ s (p : Packet) i op, (i, op) ∈ [(Instr.fabReadRx p, (0 : Fin 16)), (.fabWriteRx p, 1), (.fabFlagRx p, 2), (.fabAtomicRx p, 3), (.fabAckRx p, 4)] →
    s.fab.inbox.contains p = false ∨ p.h.op ≠ op → exec i s = .next s) ∧
  (∀ s (p : Packet) i op, (i, op) ∈ [(Instr.fabReadRx p, (0 : Fin 16)), (.fabWriteRx p, 1), (.fabFlagRx p, 2), (.fabAtomicRx p, 3)] →
    s.fab.inbox.contains p = true → p.h.op = op → s.dev.dstate = .night → ∃ t, exec i s = .next t ∧ (tget {} t.fabMem.sources p.h.src).inc = p.h.srcInc ∧
    t.fabMem.waiting = s.fabMem.waiting ∧ t.fabMem.replay = s.fabMem.replay ∧ Only [.fab, .fabMem, .out] s t) ∧
  (∀ s (p : Packet) r st, s.fab.inbox.contains p = true → p.h.op = 0 → s.dev.dstate ≠ .night → 1 ≤ p.h.rlen → p.h.rlen ≤ 8 →
    s.checkRequest p (p.h.rlen * 32) (fun r => r.read) (reqOff p.h % 32 == 0 && decide (reqOff p.h % 256 + p.h.rlen * 32 ≤ 256)) = (r, some st) →
    ∃ t, exec (.fabReadRx p) s = .next t ∧
    t.fabMem.keyMismatches = (if st = .keyMismatch then satInc 32 s.fabMem.keyMismatches else s.fabMem.keyMismatches) ∧
    t.fabMem.accessDenied = (if st = .denied then satInc 32 s.fabMem.accessDenied else s.fabMem.accessDenied) ∧ Only [.fab, .fabMem, .out] s t) ∧
  (∀ s (p : Packet) r b poison v, s.fab.inbox.contains p = true → p.h.op = 0 → s.dev.dstate ≠ .night → 1 ≤ p.h.rlen → p.h.rlen ≤ 8 →
    s.checkRequest p (p.h.rlen * 32) (fun r => r.read) (reqOff p.h % 32 == 0 && decide (reqOff p.h % 256 + p.h.rlen * 32 ≤ 256)) = (r, none) →
    s.fetch r.obj (r.objOffset + (reqOff p.h - r.base)) (p.h.rlen * 32) none = (.bytes b poison, v) → ∃ t, exec (.fabReadRx p) s = .next t ∧
    t.fabMem.compatAccepts = (if p.h.version.toNat / 256 = 2 then satInc 32 s.fabMem.compatAccepts else s.fabMem.compatAccepts) ∧
    t.fabMem.waiting = s.fabMem.waiting ∧ Only [.mem, .fab, .fabMem, .power, .out, .fresh, .deviceMem, .fyfDrops] s t) ∧
  (∀ s (p : Packet) r, s.fab.inbox.contains p = true → p.h.op = 1 → s.dev.dstate ≠ .night → p.h.rlen = 0 →
    (s.noteSource p).checkRequest p (32 * p.h.codewords) (fun r => r.write)
      (decide (1 ≤ p.h.codewords ∧ p.h.codewords ≤ 8) && reqOff p.h % 32 == 0 && decide (reqOff p.h % 256 + 32 * p.h.codewords ≤ 256)) = (r, none) →
    (s.fabMem.waiting.filter (fun w => (s.noteSource p).homeDie w.obj w.objOff == (s.noteSource p).homeDie r.obj (r.objOffset + (reqOff p.h - r.base)))).length < 4096 →
    ∃ t, exec (.fabWriteRx p) s = .next t ∧
    t.fabMem.waiting = s.fabMem.waiting ++ [{ space := p.h.space, off := reqOff p.h, obj := r.obj, objOff := r.objOffset + (reqOff p.h - r.base), packet := p }] ∧
    t.fabMem.replay = s.fabMem.replay ∧ Only ([.fab, .fabMem] ++ eventFields) s t) ∧
  (∀ s (p : Packet) i op perm shape, (i, op, perm, shape) ∈ [(Instr.fabFlagRx p, (2 : Fin 16), (fun r : Region => r.write), !p.h.space && reqOff p.h % 8 == 0 && p.h.codewords == 1),
      (.fabAtomicRx p, 3, (fun r : Region => r.atomic), !p.h.space && reqOff p.h % updLen p == 0 && p.h.codewords == 1 && decide (byteAt p.data 0 ≤ 8))] →
    s.fab.inbox.contains p = true → p.h.op = op → s.dev.dstate ≠ .night →
    (∀ x, (s.noteSource p).replayOf p = some x → ∃ t, exec i s = .next t ∧ t.fabMem.replayHits = satInc 32 s.fabMem.replayHits ∧
      t.fabMem.waiting = s.fabMem.waiting ∧ t.fabMem.replay = s.fabMem.replay ∧ Only ([.fab, .fabMem] ++ eventFields) s t) ∧
    ((s.noteSource p).replayOf p = none → (s.noteSource p).staleSeq p = true → ∃ t, exec i s = .next t ∧
      t.fabMem.staleRepeats = satInc 32 s.fabMem.staleRepeats ∧ t.fabMem.waiting = s.fabMem.waiting ∧ Only ([.fab, .fabMem] ++ eventFields) s t) ∧
    (∀ r, (s.noteSource p).replayOf p = none → (s.noteSource p).staleSeq p = false → p.h.rlen = 0 →
      (s.noteSource p).checkRequest p (updLen p) perm shape = (r, none) →
      (262144 ≤ s.fabMem.replay.length → ∃ t, exec i s = .next t ∧ t.fabMem.replayFull = satInc 32 s.fabMem.replayFull ∧
        t.fabMem.waiting = s.fabMem.waiting ∧ Only ([.fab, .fabMem] ++ eventFields) s t) ∧
      (s.fabMem.replay.length < 262144 →
        (s.fabMem.waiting.filter (fun w => (s.noteSource p).homeDie w.obj w.objOff == (s.noteSource p).homeDie r.obj (r.objOffset + (reqOff p.h - r.base)))).length < 4096 →
        ∃ t, exec i s = .next t ∧
        t.fabMem.waiting = s.fabMem.waiting ++ [{ space := p.h.space, off := reqOff p.h, obj := r.obj, objOff := r.objOffset + (reqOff p.h - r.base), packet := p }] ∧
        Only ([.fab, .fabMem] ++ eventFields) s t))) ∧
  (∀ s (p : Packet), s.fab.inbox.contains p = true → p.h.op = 4 → p.h.rlen = 0 → ∃ t, exec (.fabAckRx p) s = .next t ∧
    (tget {} t.fabMem.sources p.h.src).ackSeq = (match (tget {} (s.noteSource p).fabMem.sources p.h.src).ackSeq with
      | some b => if 0 < sdiff 24 (fieldAt p.data 0 3) b then some (fieldAt p.data 0 3) else some b
      | none => some (fieldAt p.data 0 3)) ∧
    t.fabMem.waiting = s.fabMem.waiting ∧ t.fabMem.replay = s.fabMem.replay ∧ Only [.fab, .fabMem, .out] s t)

/-- R521 to R525: the homes and the replay table. R513, R514, R516, R517: the requester's descriptors. -/
def Obligations.UpdatesAndRequestsOfTheFabric : Prop :=
  (∀ now space line s, (∀ w ∈ s.fabMem.waiting, w.touches space line = false) ∨ (s.dev.dstate = .night ∧ s.power.entering = false) →
    exec (.homeUpdateApply now space line) s = .next (s.at now)) ∧
  (∀ now space line s ws w rest, s.fabMem.waiting = ws ++ w :: rest → w.touches space line = true → s.dev.dstate ≠ .night →
    (∀ v ∈ ws, ∀ l, w.touches w.space l = true → v.touches w.space l = false) →
    (w.packet.h.op = 1 → ∃ t, exec (.homeUpdateApply now space line) s = .next t ∧ t.fabMem.waiting = ws ++ rest ∧ t.fabMem.replay = s.fabMem.replay ∧
      Only [.insts, .tiers, .mem, .time, .fab, .fabMem, .power, .out, .fresh, .deviceMem, .fyfDrops] s t) ∧
    (∀ b v, w.packet.h.op ≠ 1 → (s.at now).fetch w.obj w.objOff (updLen w.packet) none = (.bytes b false, v) →
      ∃ t, exec (.homeUpdateApply now space line) s = .next t ∧ t.fabMem.waiting = ws ++ rest ∧
      t.fabMem.replayHits = (if (s.replayOf w.packet).isSome then satInc 32 s.fabMem.replayHits else s.fabMem.replayHits) ∧
      t.fabMem.staleRepeats = (if (s.replayOf w.packet).isNone ∧ s.staleSeq w.packet = true then satInc 32 s.fabMem.staleRepeats else s.fabMem.staleRepeats) ∧
      t.fabMem.replayFull = (if (s.replayOf w.packet).isNone ∧ s.staleSeq w.packet = false ∧ 262144 ≤ s.fabMem.replay.length
        then satInc 32 s.fabMem.replayFull else s.fabMem.replayFull) ∧
      (if (s.replayOf w.packet).isNone ∧ s.staleSeq w.packet = false ∧ s.fabMem.replay.length < 262144
        then t.fabMem.atomicsApplied = satInc 64 s.fabMem.atomicsApplied ∧ (∃ e, t.fabMem.replay = s.fabMem.replay ++ [e] ∧
          e.src = w.packet.h.src ∧ e.inc = w.packet.h.srcInc ∧ e.seq = w.packet.h.seq ∧ e.at' = max s.time.now now)
        else t.fabMem.atomicsApplied = s.fabMem.atomicsApplied ∧ t.fabMem.replay = s.fabMem.replay) ∧
      Only [.insts, .tiers, .mem, .time, .fab, .fabMem, .power, .out, .fresh, .deviceMem, .fyfDrops] s t)) ∧
  (∀ now src seq s, ∃ t, exec (.replayEntryExpiry now src seq) s = .next t ∧
    (∀ e, e ∈ t.fabMem.replay ↔ e ∈ s.fabMem.replay ∧ ¬ (e.src = src.val ∧ e.seq = seq ∧
      (if e.inc = (tget {} s.fabMem.sources src.val).inc
        then (∃ a, (tget {} s.fabMem.sources src.val).ackSeq = some a ∧ sdiff 24 e.seq a ≤ 0) ∧ e.at' + 2000000 ≤ max s.time.now now
        else (tget {} s.fabMem.sources src.val).newSince + 2000000 ≤ max s.time.now now))) ∧ Only [.time, .fabMem] s t) ∧
  (∀ now q s, (s.at now).head q = none ∨ s.queueOwner q = none → exec (.fabRequestSend now q) s = .next (s.at now)) ∧
  (∀ now q s c b i, (s.at now).head q = some (c, b) → s.queueOwner q = some i → c.type = 4 → s.active i = true → fOp b ≠ 6 →
    ∃ t, exec (.fabRequestSend now q) s = .next t ∧ (∀ x y, t.queue q = some x → s.queue q = some y → x.consumer = (y.consumer + 1) % 2 ^ 32) ∧
    t.fabMem.nextDesc = s.fabMem.nextDesc + 1 ∧ (fabBad b = true → t.fabMem.requests = s.fabMem.requests) ∧
    Only [.insts, .spoof, .tiers, .mem, .queues, .time, .fab, .fabMem, .power, .out, .fresh, .deviceMem, .fyfDrops] s t) ∧
  (∀ now id s, s.fdesc id = none ∨ (∃ d, s.fdesc id = some d ∧ (fOp d.bytes ≠ 2 ∨ d.released = true)) → exec (.flagRelease now id) s = .next (s.at now)) ∧
  (∀ now id s d, s.fdesc id = some d → fOp d.bytes = 2 → d.released = false → d.msgs = [] → (∀ p ∈ s.fabMem.descs, p.1 < id → p.2 = none) →
    (tget none s.fabMem.failed (d.queue * 4096 + d.node) = none → ∃ t, exec (.flagRelease now id) s = .next t ∧ (∀ e, t.fdesc id = some e → e.released = true) ∧
      Only [.insts, .spoof, .tiers, .mem, .time, .fab, .fabMem, .power, .out, .fresh, .deviceMem, .fyfDrops] s t) ∧
    (∀ x, tget none s.fabMem.failed (d.queue * 4096 + d.node) = some x → (∀ r ∈ s.fabMem.requests, r.desc ≠ id) →
      ∃ t, exec (.flagRelease now id) s = .next t ∧ t.fdesc id = none ∧ t.fabMem.requests = s.fabMem.requests ∧
      Only [.insts, .spoof, .tiers, .mem, .time, .fab, .fabMem, .power, .out, .fresh, .deviceMem, .fyfDrops] s t)) ∧
  (∀ now id s d, s.fdesc id = some d → fOp d.bytes = 4 → d.released = false → fCounter d.bytes ≠ 0 → d.status = .ok → s.descIdle id d = true →
    (s.windowOpen d.node = false → exec (.copyCounterSend now id) s = .next (s.at now)) ∧
    (s.windowOpen d.node = true → ∃ t, exec (.copyCounterSend now id) s = .next t ∧ (∃ r, t.fabMem.requests = s.fabMem.requests ++ [r] ∧ r.counter = true ∧ r.desc = id ∧
      r.packet.h.op = 3 ∧ r.packet.h.dst = d.node ∧ r.packet.h.addr = fCounter d.bytes ∧ r.packet.h.seq = (s.dest d.node).nextSeq ∧ r.sentAt = max s.time.now now) ∧
      (t.dest d.node).nextSeq = ((s.dest d.node).nextSeq + 1) % 2 ^ 24 ∧ Only [.time, .fab, .fabMem, .out] s t))

/-- R524, R526: responses, retries and outcomes. R522: the ACK. -/
def Obligations.AnswersAndTimeoutsOfTheRequester : Prop :=
  (∀ now p s, s.fab.inbox.contains p = false ∨ p.h.op.val < 8 → exec (.fabResponseRx now p) s = .next (s.at now)) ∧
  (∀ now p s, s.fab.inbox.contains p = true → 8 ≤ p.h.op.val →
    s.fabMem.requests.find? (fun r => r.packet.h.dst == p.h.src && r.packet.h.seq == p.h.seq) = none → ∃ t, exec (.fabResponseRx now p) s = .next t ∧
    t.fab.inbox = s.fab.inbox.erase p ∧ t.fabMem = s.fabMem ∧ Only [.time, .fab, .out] s t) ∧
  (∀ now p s r, s.fab.inbox.contains p = true → 8 ≤ p.h.op.val →
    s.fabMem.requests.find? (fun r => r.packet.h.dst == p.h.src && r.packet.h.seq == p.h.seq) = some r → ∃ t, exec (.fabResponseRx now p) s = .next t ∧
    (t.dest p.h.src).window = (if p.h.ce = true then max 4 ((s.dest p.h.src).window / 2)
      else if (s.dest p.h.src).clean + 1 = 64 then min 64 ((s.dest p.h.src).window + 1) else (s.dest p.h.src).window) ∧
    (p.h.op = 11 → statusOf (fieldAt p.data 0 2) = .capacity →
      t.fabMem.requests = s.fabMem.requests.map (fun x => if x = r then { x with capacity := x.capacity + 1 } else x)) ∧
    ((p.h.op = 11 → statusOf (fieldAt p.data 0 2) ≠ .capacity) → (∀ d ∈ s.fabMem.descs, ∀ x, d.2 = some x → x.toSend = [] ∧ x.msgs = []) →
      t.fabMem.requests = s.fabMem.requests.erase r) ∧
    Only [.insts, .spoof, .tiers, .mem, .time, .fab, .fabMem, .power, .out, .fresh, .deviceMem, .fyfDrops] s t) ∧
  (∀ now dst seq s, s.requestOf dst.val seq = none → exec (.fabRetryTimeout now dst seq) s = .next (s.at now) ∧ exec (.fabOutcomeTimeout now dst seq) s = .next (s.at now)) ∧
  (∀ now dst seq s r, s.requestOf dst.val seq = some r →
    (3 ≤ r.resends ∨ max s.time.now now < r.sentAt + 250000 * (r.resends + 1) ∨ s.orphan r.desc = true → exec (.fabRetryTimeout now dst seq) s = .next (s.at now)) ∧
    (r.resends < 3 → r.sentAt + 250000 * (r.resends + 1) ≤ max s.time.now now → s.orphan r.desc = false → ∃ t, exec (.fabRetryTimeout now dst seq) s = .next t ∧
      t.fabMem.requests = s.fabMem.requests.map (fun x => if x = r then { x with resends := x.resends + 1 } else x) ∧ Only [.time, .fab, .fabMem, .out] s t) ∧
    (max s.time.now now < r.sentAt + 1000000 → exec (.fabOutcomeTimeout now dst seq) s = .next (s.at now)) ∧
    (r.sentAt + 1000000 ≤ max s.time.now now → ∃ t, exec (.fabOutcomeTimeout now dst seq) s = .next t ∧
      t.fabMem.outcomeUnknown = (if r.packet.h.op ≠ 0 ∧ r.capacity ≤ r.resends then satInc 32 s.fabMem.outcomeUnknown else s.fabMem.outcomeUnknown) ∧
      (r.packet.h.op = 5 → t.fabMem.requests = s.fabMem.requests.erase r) ∧
      Only [.insts, .spoof, .tiers, .mem, .time, .fab, .fabMem, .power, .out, .fresh, .deviceMem, .fyfDrops] s t)) ∧
  (∀ now dst s, (s.dest dst.val).ackDue = none ∨ (s.dest dst.val).ackSeq = none → exec (.ackSend now dst) s = .next (s.at now)) ∧
  (∀ now dst s u a, (s.dest dst.val).ackDue = some u → (s.dest dst.val).ackSeq = some a → ∃ t, exec (.ackSend now dst) s = .next t ∧
    (t.dest dst.val).ackDue = none ∧ (t.dest dst.val).ackSeq = some a ∧ t.fabMem.requests = s.fabMem.requests ∧ Only [.time, .fab, .fabMem, .out] s t)

/-- R528, R529: contributions. R531: the end without a result. -/
def Obligations.ContributionsToACollective : Prop :=
  (∀ s (p : Packet), p.coll = none ∨ s.fab.inbox.contains p = false ∨ p.h.op ≠ 5 → exec (.fabCollRx p) s = .next s) ∧
  (∀ s (p : Packet) c, p.coll = some c → p.h.rlen = 0 →
    (∀ x ∈ s.fabMem.descs, ∀ d, x.2 = some d → ¬ (fOp d.bytes = 6 ∧ fCollId d.bytes = c.id)) → exec (.fabCollRx p) s = .next s) ∧
  (∀ s (p : Packet) c id d, p.coll = some c → s.fab.inbox.contains p = true → p.h.op = 5 → p.h.rlen = 0 → s.fabMem.descs = [(id, some d)] →
    fOp d.bytes = 6 → fCollId d.bytes = c.id →
    (collAgrees d p c = false → ∃ t, exec (.fabCollRx p) s = .next t ∧ t.fdesc id = none ∧ t.fabMem.requests = s.fabMem.requests.filter (fun r => r.desc != id) ∧
      Only [.insts, .spoof, .tiers, .mem, .fab, .fabMem, .power, .out, .fresh, .deviceMem, .fyfDrops] s t) ∧
    (collAgrees d p c = true → ∃ t, exec (.fabCollRx p) s = .next t ∧
      (∀ e, t.fdesc id = some e → ∃ g ∈ e.gathered, g.1 = (c.segment, if c.down then 100 else c.level) ∧ c.offset ∈ g.2.2) ∧
      Only [.insts, .spoof, .tiers, .mem, .fab, .fabMem, .power, .out, .fresh, .deviceMem, .fyfDrops] s t)) ∧
  (∀ now id s, s.fdesc id = none ∨ (∃ d, s.fdesc id = some d ∧ (fOp d.bytes ≠ 6 ∨
      (d.parts.all (fun n => (s.node n).live) = true ∧ max s.time.now now < d.postedAt + 100000000))) →
    exec (.collectiveTimeout now id) s = .next (s.at now)) ∧
  (∀ now id s d, s.fdesc id = some d → fOp d.bytes = 6 → d.parts.any (fun n => !(s.node n).live) = true ∨ d.postedAt + 100000000 ≤ max s.time.now now →
    ∃ t, exec (.collectiveTimeout now id) s = .next t ∧ t.fdesc id = none ∧ t.fabMem.requests = s.fabMem.requests.filter (fun r => r.desc != id) ∧
    Only [.insts, .spoof, .tiers, .mem, .time, .fabMem, .power, .out, .fresh, .deviceMem, .fyfDrops] s t)

/-- R454 to R461: training. R493, R494: a port leaves UP. -/
def Obligations.TrainingOfAFabricLink : Prop :=
  (∀ s p uid far, (s.fport p).link ≠ .detect → exec (.identifyRx p uid far) s = .next s) ∧
  (∀ s (p : Fin 32) uid far, (s.fport p).link = .detect → ∃ t, exec (.identifyRx p uid far) s = .next t ∧ (t.fport p).neighbourUid = uid ∧
    (t.fport p).neighbourPort = far.val ∧
    (if uid = s.uid then (t.fport p).link = .held ∧ (t.fport p).heldReason = 1 ∧ (t.fport p).waitUntil = s.time.now + 1000000000
     else (t.fport p).link = .training ∧ (t.fport p).phase = 1 ∧ (t.fport p).timingMaster = decide (s.uid.toNat < uid.toNat)) ∧
    (∀ q : Fin 32, q ≠ p → t.fport q = s.fport q) ∧ Only ([.units, .fab, .health] ++ eventFields) s t) ∧
  (∀ s (p : Fin 32) lanes off eye, (s.fport p).link ≠ .training → (s.fport p).link ≠ .check → exec (.trainPhaseDone p lanes off eye) s = .next s) ∧
  (∀ s (p : Fin 32) lanes off eye, (s.fport p).link = .training → (s.fport p).phase ∈ [1, 2, 3, 4] → ∃ t, exec (.trainPhaseDone p lanes off eye) s = .next t ∧
    ((s.fport p).phase = 1 ∨ (s.fport p).phase = 2 → (t.fport p).link = .training ∧ (t.fport p).phase = (s.fport p).phase + 1) ∧
    ((s.fport p).phase = 3 → if (s.fport p).timingMaster = true then (t.fport p).link = .training ∧ (t.fport p).phase = 4 ∧ (t.fport p).freqOffset = 0
      else if 200000 < off.natAbs then (t.fport p).link = .held ∧ (t.fport p).heldReason = 3
      else (t.fport p).link = .training ∧ (t.fport p).phase = 4 ∧ (t.fport p).freqOffset = off) ∧
    ((s.fport p).phase = 4 → (t.fport p).eye = eye ∧
      (match (if lanes = 255 then some 255 else if lanes.toNat % 16 = 15 then some 15 else if lanes.toNat / 16 = 15 then some 240 else none) with
       | none => (t.fport p).link = .held ∧ (t.fport p).heldReason = 4
       | some l => (t.fport p).link = .check ∧ (t.fport p).lanes = l ∧ (t.fport p).agreed = 0)) ∧
    Only ([.units, .fab, .health] ++ eventFields) s t) ∧
  (∀ s (p : Fin 32) lanes off eye, (s.fport p).link = .check → ((s.fport p).agreed = 0 → exec (.trainPhaseDone p lanes off eye) s = .next s) ∧
    ((s.fport p).agreed ≠ 0 → ∃ t, exec (.trainPhaseDone p lanes off eye) s = .next t ∧ (t.fport p).link = .up ∧ (t.fport p).credits = [2048, 2048, 2048, 2048] ∧
      (t.fport p).expected = 0 ∧ (t.fport p).upAt = s.time.now ∧ Only ([.units, .fab, .health] ++ eventFields) s t)) ∧
  (∀ s (p : Fin 32), (s.fport p).link ≠ .training → (s.fport p).link ≠ .check → exec (.trainPhaseTimeout p) s = .next s) ∧
  (∀ s (p : Fin 32), (s.fport p).link = .training ∨ (s.fport p).link = .check → ∃ t, exec (.trainPhaseTimeout p) s = .next t ∧ (t.fport p).link = .detect ∧
    (t.fport p).trainFails = satInc 32 (s.fport p).trainFails ∧ s.time.now + 1000000 ≤ (t.fport p).waitUntil ∧ (t.fport p).waitUntil ≤ s.time.now + 8000000 ∧
    Only ([.units, .fab, .health] ++ eventFields) s t) ∧
  (∀ s now (p : Fin 32) i st, (i, st) ∈ [(Instr.detectRetry now p, LinkState.detect), (.heldRetrain now p, .held)] →
    ((s.fport p).link ≠ st ∨ max s.time.now now < (s.fport p).waitUntil → exec i s = .next (s.at now)) ∧
    ((s.fport p).link = st → (s.fport p).waitUntil ≤ max s.time.now now → ∃ t, exec i s = .next t ∧ (t.fport p).link = .detect ∧ (t.fport p).phase = 0 ∧
      (t.fport p).heldReason = 0 ∧ Only ([.units, .time, .fab] ++ eventFields) s t)) ∧
  (∀ s (p : Fin 32), (s.fport p).link ≠ .up → exec (.linkLoss p) s = .next s) ∧
  (∀ s (p : Fin 32), (s.fport p).link = .up → ∃ t, exec (.linkLoss p) s = .next t ∧ (t.fport p).link = .detect ∧ (t.fport p).linkDowns = satInc 32 (s.fport p).linkDowns ∧
    (t.fport p).out = [] ∧ (t.fport p).unacked = [] ∧ (t.fport p).neighbourNode = none ∧ (t.fport p).agreed = 0 ∧ Only ([.units, .fab, .health] ++ eventFields) s t)

/-- R460: HELLO. R463, R467, R468: codewords and credits. R465, R470 to R472, R487, R491: packets. -/
def Obligations.CodewordsCreditsAndPackets : Prop :=
  (∀ s (p : Fin 32) uid inc node vs term bw, ((s.fport p).link ≠ .check ∧ (s.fport p).link ≠ .up) ∨ ((s.fport p).link = .up ∧ (s.fport p).neighbourUid ≠ uid) →
    exec (.helloRx p uid inc node vs term bw) s = .next s) ∧
  (∀ s (p : Fin 32) uid inc node vs term bw, (s.fport p).link = .check → ∃ t, exec (.helloRx p uid inc node vs term bw) s = .next t ∧
    (match agreeVersion fabricOffer (vs.map (·.toNat)) with
     | none => (t.fport p).link = .held ∧ (t.fport p).heldReason = 2
     | some v => (t.fport p).link = .check ∧ (t.fport p).agreed = v ∧ (t.fport p).neighbourUid = uid ∧ (t.fport p).neighbourInc = inc ∧ (t.fport p).neighbourNode = node) ∧
    Only ([.units, .fab, .health] ++ eventFields) s t) ∧
  (∀ s (p : Fin 32) uid inc node vs term bw, (s.fport p).link = .up → (s.fport p).neighbourUid = uid → ∃ t, exec (.helloRx p uid inc node vs term bw) s = .next t ∧
    t.fport p = { s.fport p with neighbourInc := inc, neighbourNode := node } ∧ Only ([.units, .fab, .health] ++ eventFields) s t) ∧
  (∀ s now (p : Fin 32) n corr bad flits, (s.fport p).closing = none →
    ((s.fport p).link ≠ .up → exec (.codewordRx now p n corr bad flits) s = .next (s.at now)) ∧
    ((s.fport p).link = .up → bad = false → ∃ t, exec (.codewordRx now p n corr bad flits) s = .next t ∧ (t.fport p).link = .up ∧
      (t.fport p).fecCorrected = satAdd 64 (s.fport p).fecCorrected corr ∧
      (t.fport p).expected = (if n.toNat = (s.fport p).expected then ((s.fport p).expected + 1) % 65536 else (s.fport p).expected) ∧
      (t.fport p).rxFlits = (if n.toNat = (s.fport p).expected then satAdd 64 (s.fport p).rxFlits flits else (s.fport p).rxFlits) ∧
      Only ([.units, .time, .fab, .health] ++ eventFields) s t) ∧
    ((s.fport p).link = .up → bad = true → ∃ t, exec (.codewordRx now p n corr bad flits) s = .next t ∧
      (t.fport p).fecUncorrectable = satInc 32 (s.fport p).fecUncorrectable ∧ (t.fport p).awaiting = true ∧
      (t.fport p).link = (if 16 < 1 + ((s.fport p).badTimes.filter (fun t => decide (max s.time.now now < t + 1000000))).length then .detect else .up) ∧
      Only ([.units, .time, .fab, .health] ++ eventFields) s t)) ∧
  (∀ s now (p : Fin 32) n corr bad flits u, (s.fport p).closing = some u → (s.fport p).link = .up → (s.fport p).out = [] ∨ u ≤ max s.time.now now →
    ∃ t, exec (.codewordRx now p n corr bad flits) s = .next t ∧ (t.fport p).link = .disabled ∧ Only ([.units, .time, .fab, .health] ++ eventFields) s t) ∧
  (∀ s (p : Fin 32) cw nak credits, (s.fport p).link ≠ .up → exec (.creditRx p cw nak credits) s = .next s) ∧
  (∀ s (p : Fin 32) cw nak credits, (s.fport p).link = .up → (s.fport p).out = [] → (s.fport p).closing = none → ∃ t, exec (.creditRx p cw nak credits) s = .next t ∧
    (t.fport p).credits = (List.range 4).map (fun v => min 2048 ((s.fport p).credits.getD v 0 + credits.getD v 0)) ∧
    (nak = false → (t.fport p).link = .up ∧ (t.fport p).unacked = (s.fport p).unacked.filter (fun c => decide (0 < sdiff 16 c cw.toNat))) ∧
    (nak = true → if 256 < (s.codewordsSent p + 65536 - cw.toNat) % 65536 ∧ (s.codewordsSent p + 65536 - cw.toNat) % 65536 < 32768 then (t.fport p).link = .detect
      else (t.fport p).link = .up ∧ (t.fport p).replays = satInc 32 (s.fport p).replays) ∧ Only ([.units, .fab, .health] ++ eventFields) s t) ∧
  (∀ s (port : Fin 32) p, s.fab.node = some p.h.dst ∨ (s.fport port).link ≠ .up → exec (.packetForward port p) s = .next s) ∧
  (∀ s (port : Fin 32) p, s.fab.node ≠ some p.h.dst ∨ (s.fport port).link ≠ .up → exec (.packetDeliver port p) s = .next s) ∧
  (∀ s (port : Fin 32) p i, (i = .packetForward port p ∧ s.fab.node ≠ some p.h.dst) ∨ (i = .packetDeliver port p ∧ s.fab.node = some p.h.dst) →
    (s.fport port).link = .up →
    (p.h.hcrc ≠ headerCrc p.h → ∃ t, exec i s = .next t ∧ t.fab.hcrcErrors = satInc 32 s.fab.hcrcErrors ∧ t.fab.inbox = s.fab.inbox ∧ t.fab.ports = s.fab.ports ∧
      Only ([.insts, .spoof, .fab] ++ eventFields) s t) ∧
    (p.h.hcrc = headerCrc p.h → p.h.hops = 0 → (s.fport port).neighbourNode ≠ some p.h.src → ∃ t, exec i s = .next t ∧
      (t.fport port).spoofDrops = satInc 32 (s.fport port).spoofDrops ∧ t.fab.inbox = s.fab.inbox ∧ Only ([.insts, .spoof, .fab] ++ eventFields) s t)) ∧
  (∀ s (port : Fin 32) p, s.fab.node ≠ some p.h.dst → (s.fport port).link = .up → p.h.hcrc = headerCrc p.h → p.h.hops ≠ 0 ∨ (s.fport port).neighbourNode = some p.h.src →
    (s.tableFor p.h.epoch.val = none → ∃ t, exec (.packetForward port p) s = .next t ∧ t.fab.epochDrops = satInc 32 s.fab.epochDrops ∧ t.fab.ports = s.fab.ports ∧
      Only ([.insts, .spoof, .fab] ++ eventFields) s t) ∧
    (∀ x, s.tableFor p.h.epoch.val = some x →
      (63 ≤ p.h.hops → ∃ t, exec (.packetForward port p) s = .next t ∧ t.fab.hopLimitDrops = satInc 32 s.fab.hopLimitDrops ∧ t.fab.ports = s.fab.ports ∧
        Only ([.insts, .spoof, .fab] ++ eventFields) s t) ∧
      (p.h.hops < 63 → (s.node p.h.dst).live = false → ∃ t, exec (.packetForward port p) s = .next t ∧ t.fab.unroutable = satInc 32 s.fab.unroutable ∧
        t.fab.ports = s.fab.ports ∧ Only ([.insts, .spoof, .fab] ++ eventFields) s t) ∧
      (∀ q, p.h.hops < 63 → (s.node p.h.dst).live = true → (if p.h.vc.val % 2 = 1 then (tget {} x.routes p.h.dst).high else (tget {} x.routes p.h.dst).low) = [q] →
        (s.fport q).out = [] → (s.fport q).credits = [2048, 2048, 2048, 2048] → flitsOf p ≤ 2048 → ∃ t, exec (.packetForward port p) s = .next t ∧
        (t.fport q).out = [] ∧ (t.fport q).txFlits = satAdd 64 (s.fport q).txFlits (flitsOf p) ∧ t.fab.inbox = s.fab.inbox ∧
        Only ([.insts, .spoof, .fab] ++ eventFields) s t))) ∧
  (∀ s (port : Fin 32) p x, s.fab.node = some p.h.dst → (s.fport port).link = .up → p.h.hcrc = headerCrc p.h → p.h.hops ≠ 0 ∨ (s.fport port).neighbourNode = some p.h.src →
    s.tableFor p.h.epoch.val = some x →
    ((s.node p.h.src).live = false ∨ p.h.srcInc ≠ (s.node p.h.src).inc → ∃ t, exec (.packetDeliver port p) s = .next t ∧ t.fab.staleSource = satInc 32 s.fab.staleSource ∧
      t.fab.inbox = s.fab.inbox ∧ Only ([.insts, .spoof, .fab] ++ eventFields) s t) ∧
    (∀ v, (s.node p.h.src).live = true → p.h.srcInc = (s.node p.h.src).inc → (s.node p.h.src).version = some v → versionRefused v p.h.version.toNat = false →
      p.h.op.val ≠ 6 → p.h.op.val ≠ 7 → p.h.op.val < 12 → ∃ t, exec (.packetDeliver port p) s = .next t ∧ t.fab.inbox = s.fab.inbox ++ [p] ∧
      t.fab.ports = s.fab.ports ∧ Only ([.insts, .spoof, .fab] ++ eventFields) s t))

/-- R495: FAB_PORT_SET. Table 15-12: FAB_TOPOLOGY_GET. -/
def Obligations.PortsSetAndTheTopologyRead : Prop :=
  (∀ s (m : Fin 16) c, Taken s m.val 0x0403 c → s.dev.dstate ≠ .rom → s.dev.dstate ≠ .loaded → 2 ≤ c.argLength → c.arg 0x20 1 ≤ 31 → c.arg 0x21 1 ≤ 1 →
    (c.arg 0x21 1 = 1 → s.accepts (fabUnit (c.arg 0x20 1)) = true → ∃ t, exec (.fabPortSet m) s = .next t ∧ (t.fport (c.arg 0x20 1)).takenDown = false ∧
      (t.fport (c.arg 0x20 1)).link = (if (s.fport (c.arg 0x20 1)).link = .disabled then .detect else (s.fport (c.arg 0x20 1)).link) ∧
      (∀ p, p ≠ c.arg 0x20 1 → t.fport p = s.fport p) ∧ Only ([.units, .mboxes, .fab, .health] ++ eventFields) s t) ∧
    (c.arg 0x21 1 = 1 → s.accepts (fabUnit (c.arg 0x20 1)) = false → ∃ t, exec (.fabPortSet m) s = .next t ∧ t.fab = s.fab ∧
      Answers s t m c .notReady [] false ∧ Only ([.mboxes] ++ eventFields) s t) ∧
    (c.arg 0x21 1 = 0 → (s.fport (c.arg 0x20 1)).link ≠ .up ∨ ((s.fport (c.arg 0x20 1)).out = [] ∧ (s.fport (c.arg 0x20 1)).closing = none) →
      ∃ t, exec (.fabPortSet m) s = .next t ∧ (t.fport (c.arg 0x20 1)).takenDown = true ∧ (t.fport (c.arg 0x20 1)).link = .disabled ∧
      Only ([.units, .mboxes, .fab, .health] ++ eventFields) s t)) ∧
  (∀ s (m : Fin 16) c, Taken s m.val 0x0404 c → s.dev.dstate ≠ .rom → ∃ t, exec (.fabTopologyGet m) s = .next t ∧
    Answers s t m c .ok ((match s.fab.node with | some k => leBytes 2 (k + 0x8000) | none => leBytes 2 0) ++ leBytes 2 0 ++ leBytes 4 s.fab.term ++
      leBytes 8 s.fab.bwUid.toNat ++ leBytes 4 s.fab.epoch ++ leBytes 4 ((List.range 32).map (fun p => 2 ^ p * b2n (decide ((s.fport p).link = .up)))).sum ++
      leBytes 8 0 ++ (List.range 32).flatMap (fun p => match (s.fport p).neighbourNode with | some k => leBytes 2 (k + 0x8000) | none => leBytes 2 0)) false ∧
    Only ([.mboxes] ++ eventFields) s t)

/-- R475: floods. R477 to R479: the bellwether. -/
def Obligations.TheBellwetherAndItsElection : Prop :=
  (∀ s now (p : Fin 32) (o : W64) q i, (∃ a b c, i = .beaconRx now p o q a b c) ∨ (∃ a b, i = .candidateRx now p o q a b) →
    (s.fport p).link ≠ .up ∨ s.fab.seen.contains (o.toNat, q) = true ∨ o = s.uid → exec i s = .next (s.at now)) ∧
  (∀ s now, (s.core 5).restarting = true ∨ s.fab.bellwether = false → exec (.beaconTick now) s = .next (s.at now)) ∧
  (∀ s now, (s.core 5).restarting = false → s.fab.bellwether = true → ∃ t, exec (.beaconTick now) s = .next t ∧ t.fab.fseq = (s.fab.fseq + 1) % 2 ^ 32 ∧
    t.fab.lastBeacon = max s.time.now now ∧ Output.beacon s.fab.term (s.fab.fseq + 1) s.fab.tableVersion s.fab.epoch ∈ t.out ∧ Only [.time, .fab, .out] s t) ∧
  (∀ s now, (s.core 5).restarting = true ∨ s.fab.bellwether = true ∨ s.fab.vote.isSome = true ∨ max s.time.now now < s.fab.lastBeacon + 5000000 ∨ s.dev.dstate = .rom →
    exec (.beaconTimeout now) s = .next (s.at now)) ∧
  (∀ s now, (s.core 5).restarting = false → s.fab.bellwether = false → s.fab.vote = none → s.fab.lastBeacon + 5000000 ≤ max s.time.now now → s.dev.dstate ≠ .rom →
    ∃ t, exec (.beaconTimeout now) s = .next t ∧ t.fab.term = (s.fab.term + 1) % 2 ^ 32 ∧ t.fab.vote = some s.uid ∧ t.fab.voteAt = max s.time.now now ∧
    t.fab.elections = satInc 32 s.fab.elections ∧ t.fab.accepted = false ∧ Only [.time, .fab, .out] s t) ∧
  (∀ s now (p : Fin 32) (o : W64) q term v e, (s.fport p).link = .up → s.fab.seen.contains (o.toNat, q) = false → o ≠ s.uid → ∃ t, exec (.beaconRx now p o q term v e) s = .next t ∧
    t.fab.seen = (o.toNat, q) :: s.fab.seen ∧
    (if s.fab.accepted = true ∧ s.fab.bwUid ≠ o ∧ (s.fab.bellwether = true ∨ max s.time.now now < s.fab.lastBeacon + 5000000)
      then t.fab.term = (max s.fab.term term + 1) % 2 ^ 32 ∧ t.fab.vote = some s.uid ∧ t.fab.elections = satInc 32 s.fab.elections
     else if term < s.fab.term then t.fab.term = s.fab.term ∧ t.fab.vote = s.fab.vote ∧ t.fab.bwUid = s.fab.bwUid ∧ t.fab.parent = s.fab.parent
     else if s.fab.node.isSome = true ∧ s.uid.toNat < o.toNat then t.fab.term = (term + 1) % 2 ^ 32 ∧ t.fab.vote = some s.uid ∧ t.fab.bellwether = false
     else t.fab.term = term ∧ t.fab.vote = none ∧ t.fab.accepted = true ∧ t.fab.bwUid = o ∧ t.fab.parent = some p.val ∧ t.fab.lastBeacon = max s.time.now now ∧
       t.fab.bellwether = false) ∧ Only [.time, .fab, .out] s t) ∧
  (∀ s now (p : Fin 32) (o : W64) q term (vote : W64), (s.fport p).link = .up → s.fab.seen.contains (o.toNat, q) = false → o ≠ s.uid →
    ∃ t, exec (.candidateRx now p o q term vote) s = .next t ∧ t.fab.seen = (o.toNat, q) :: s.fab.seen ∧
    (if s.fab.term < term then t.fab.term = term ∧ t.fab.vote = some (if vote.toNat < s.uid.toNat then vote else s.uid) ∧ t.fab.bellwether = false
     else if s.fab.term = term ∧ vote.toNat < (s.fab.vote.getD s.fab.bwUid).toNat then t.fab.term = term ∧ t.fab.vote = some vote ∧ t.fab.bellwether = false
     else t.fab.term = s.fab.term ∧ t.fab.vote = s.fab.vote ∧ t.fab.bellwether = s.fab.bellwether) ∧ Only [.time, .fab, .out] s t) ∧
  (∀ s now, (s.core 5).restarting = true ∨ s.fab.vote = none ∨ max s.time.now now < s.fab.voteAt + 2000000 → exec (.electionSettle now) s = .next (s.at now)) ∧
  (∀ s now v, (s.core 5).restarting = false → s.fab.vote = some v → s.fab.voteAt + 2000000 ≤ max s.time.now now → ∃ t, exec (.electionSettle now) s = .next t ∧
    t.fab.vote = none ∧ t.fab.lastBeacon = max s.time.now now ∧
    (if v = s.uid then t.fab.bellwether = true ∧ t.fab.accepted = true ∧ t.fab.bwUid = s.uid ∧ t.fab.parent = none else t.fab.bellwether = s.fab.bellwether ∧ t.fab.bwUid = s.fab.bwUid) ∧
    Only ([.units, .time, .fab] ++ eventFields) s t)

/-- R476: reports. R480 to R483: the node table. -/
def Obligations.ReportsAndTheNodeTable : Prop :=
  (∀ s (p : Fin 32) (o : W64) q i, (∃ l, i = .linkReportRx p o q l) ∨ (∃ v f e, i = .nodeTableRx p o q v f e) →
    (s.fport p).link ≠ .up ∨ s.fab.seen.contains (o.toNat, q) = true ∨ o = s.uid → exec i s = .next s) ∧
  (∀ s (p : Fin 32) (o : W64) q l, (s.fport p).link = .up → s.fab.seen.contains (o.toNat, q) = false → o ≠ s.uid → ∃ t, exec (.linkReportRx p o q l) s = .next t ∧
    t.fab.seen = (o.toNat, q) :: s.fab.seen ∧ t.fab.reports = s.fab.reports.filter (fun r => r.uid != o) ++ [⟨o, l⟩] ∧ Only [.fab, .out] s t) ∧
  (∀ s now, (s.core 5).restarting = true → exec (.linkReportTick now) s = .next (s.at now)) ∧
  (∀ s now, (s.core 5).restarting = false → ∃ t, exec (.linkReportTick now) s = .next t ∧
    t.fab.reports = s.fab.reports.filter (fun r => r.uid != s.uid) ++ [⟨s.uid, s.ownLinks⟩] ∧ Only [.time, .fab, .out] s t) ∧
  (∀ s (p : Fin 32) (o : W64) q v full es, (s.fport p).link = .up → s.fab.seen.contains (o.toNat, q) = false → o ≠ s.uid → s.fab.bellwether = false → ∃ t,
    exec (.nodeTableRx p o q v full es) s = .next t ∧ t.fab.seen = (o.toNat, q) :: s.fab.seen ∧
    (if s.fab.accepted = true ∧ s.fab.bwUid = o ∧ (full = true ∨ v = (s.fab.tableVersion + 1) % 2 ^ 32) then
      t.fab.tableVersion = v ∧ (∀ n, (∀ e ∈ es, e.node ≠ n) → t.node n = if full = true then {} else s.node n) ∧
      (∀ l e, es = l ++ [e] → (t.node e.node).uid = (if e.live = true ∨ e.uid ≠ 0 then e.uid else 0) ∧ (t.node e.node).live = e.live)
     else t.fab.tableVersion = s.fab.tableVersion ∧ t.fab.nodes = s.fab.nodes) ∧ Only ([.units, .fab] ++ eventFields) s t) ∧
  (∀ s now (p : Fin 32) uid hint inc vs ver, (s.fport p).link ≠ .up → exec (.refreshRx now p uid hint inc vs ver) s = .next (s.at now)) ∧
  (∀ s now (p : Fin 32) uid hint inc vs ver, (s.fport p).link = .up → s.fab.bellwether = false → ∃ t, exec (.refreshRx now p uid hint inc vs ver) s = .next t ∧
    t.fab = s.fab ∧ Only [.time, .out] s t) ∧
  (∀ s now (p : Fin 32) uid hint inc vs ver n, (s.fport p).link = .up → s.fab.bellwether = true → s.nodeOfUid uid = none → s.numberFor uid hint = some n → ∃ t,
    exec (.refreshRx now p uid hint inc vs ver) s = .next t ∧ t.node n = { uid, inc, live := true, versions := vs, goneAt := none } ∧
    t.fab.tableVersion = (s.fab.tableVersion + 1) % 2 ^ 32 ∧ (∀ k, k ≠ n → t.node k = s.node k) ∧ Only ([.units, .time, .fab] ++ eventFields) s t) ∧
  (∀ s now (n : Fin 4096), (s.core 5).restarting = true ∨ s.fab.bellwether = false ∨ (s.node n).goneAt = none ∨
      (∃ u, (s.node n).goneAt = some u ∧ max s.time.now now < u + 86400000000000) → exec (.nodeReserveExpiry now n) s = .next (s.at now)) ∧
  (∀ s now (n : Fin 4096) u, (s.core 5).restarting = false → s.fab.bellwether = true → (s.node n).goneAt = some u → u + 86400000000000 ≤ max s.time.now now → ∃ t,
    exec (.nodeReserveExpiry now n) s = .next t ∧ t.node n = {} ∧ (∀ k, k ≠ n.val → t.node k = s.node k) ∧ t.fab.tableVersion = (s.fab.tableVersion + 1) % 2 ^ 32 ∧
    Only [.time, .fab, .out] s t)

/-- R484, R490, R491: plans, acknowledgements, commits. -/
def Obligations.RoutePlansAndTheirCommit : Prop :=
  (∀ s now, (s.core 5).restarting = true ∨ s.fab.bellwether = false ∨ s.fab.planDue = false ∨ s.fab.plan ≠ none ∨
      (s.fab.committed = true ∧ max s.time.now now < s.fab.lastCommit + 2000000) → exec (.routePlanIssue now) s = .next (s.at now)) ∧
  (∀ s now, (s.core 5).restarting = false → s.fab.bellwether = true → s.fab.planDue = true → s.fab.plan = none →
    s.fab.committed = false ∨ s.fab.lastCommit + 2000000 ≤ max s.time.now now → ∃ t, exec (.routePlanIssue now) s = .next t ∧ t.fab.planDue = false ∧
    t.fab.tables.head?.map (fun x => x.epoch) = some (s.fab.tables.foldl (fun m t => max m t.epoch) s.fab.epoch + 1) ∧
    (if ∀ n ∈ s.liveNodes, (s.node n).uid = s.uid then t.fab.plan = none ∧ t.fab.epoch = s.fab.tables.foldl (fun m t => max m t.epoch) s.fab.epoch + 1
     else t.fab.plan = some ⟨s.fab.tables.foldl (fun m t => max m t.epoch) s.fab.epoch + 1, [s.uid], max s.time.now now⟩ ∧ t.fab.epoch = s.fab.epoch) ∧
    Only [.time, .fab, .out] s t) ∧
  (∀ s (p : Fin 32) (o : W64) q i, (∃ a b c d e, i = .routePlanRx p o q a b c d e) ∨ (∃ a, i = .commitRx p o q a) →
    (s.fport p).link ≠ .up ∨ s.fab.seen.contains (o.toNat, q) = true ∨ o = s.uid → exec i s = .next s) ∧
  (∀ s (p : Fin 32) (o : W64) q e torus root shape v, (s.fport p).link = .up → s.fab.seen.contains (o.toNat, q) = false → o ≠ s.uid → ∃ t,
    exec (.routePlanRx p o q e torus root shape v) s = .next t ∧ t.fab.seen = (o.toNat, q) :: s.fab.seen ∧
    (if s.fab.accepted = true ∧ s.fab.bwUid = o ∧ s.fab.bellwether = false ∧ s.fab.tableVersion = v
      then t.fab.tables.head?.map (fun x => (x.epoch, x.torus)) = some (e, torus) ∧ t.fab.tables.tail = s.fab.tables.filter (fun t => t.epoch + 1 == e) ∧
        (Output.planAck e) ∈ t.out
      else t.fab.tables = s.fab.tables) ∧ t.fab.epoch = s.fab.epoch ∧ Only [.fab, .out] s t) ∧
  (∀ s (p : Fin 32) uid e, (s.fport p).link ≠ .up ∨ (s.fab.bellwether = true ∧ (s.fab.plan = none ∨ (∃ x, s.fab.plan = some x ∧ x.epoch ≠ e))) →
    exec (.planAckRx p uid e) s = .next s) ∧
  (∀ s (p : Fin 32) uid e, (s.fport p).link = .up → s.fab.bellwether = false → ∃ t, exec (.planAckRx p uid e) s = .next t ∧ t.fab = s.fab ∧ Only [.out] s t) ∧
  (∀ s (p : Fin 32) uid e x, (s.fport p).link = .up → s.fab.bellwether = true → s.fab.plan = some x → x.epoch = e → ∃ t, exec (.planAckRx p uid e) s = .next t ∧
    (if ∀ n ∈ s.liveNodes, (s.node n).uid = uid ∨ (s.node n).uid ∈ x.acks then t.fab.plan = none ∧ t.fab.epoch = e ∧ t.fab.committed = true
     else t.fab.plan = some { x with acks := if x.acks.contains uid then x.acks else uid :: x.acks } ∧ t.fab.epoch = s.fab.epoch) ∧ Only [.fab, .out] s t) ∧
  (∀ s now, (s.core 5).restarting = true ∨ s.fab.plan = none ∨ (∃ x, s.fab.plan = some x ∧ max s.time.now now < x.issued + 20000000) →
    exec (.planAckTimeout now) s = .next (s.at now)) ∧
  (∀ s now x, (s.core 5).restarting = false → s.fab.plan = some x → x.issued + 20000000 ≤ max s.time.now now → ∃ t, exec (.planAckTimeout now) s = .next t ∧
    t.fab.planDue = false ∧ (∀ n ∈ s.liveNodes, (s.node n).uid ∉ x.acks → (t.node n).live = false ∧ (t.node n).goneAt = some (max s.time.now now)) ∧
    t.fab.tables.head?.map (fun x => x.epoch) = some (s.fab.tables.foldl (fun m t => max m t.epoch) s.fab.epoch + 1) ∧ Only [.time, .fab, .out] s t) ∧
  (∀ s (p : Fin 32) (o : W64) q e, (s.fport p).link = .up → s.fab.seen.contains (o.toNat, q) = false → o ≠ s.uid → ∃ t, exec (.commitRx p o q e) s = .next t ∧
    t.fab.seen = (o.toNat, q) :: s.fab.seen ∧ t.fab.tables = s.fab.tables ∧
    (if ∃ x ∈ s.fab.tables, x.epoch = e then t.fab.epoch = e ∧ t.fab.committed = true ∧ t.fab.lastCommit = s.time.now else t.fab.epoch = s.fab.epoch) ∧ Only [.fab, .out] s t)

/-- R431, R434: PTP. R438, R439, R448: the selected domain. -/
def Obligations.TimeMessagesAndDomains : Prop :=
  (∀ s now (l : Fin 32) (d : Byte) msg, (s.lane l).linkUp = false ∨ ((∀ m, ¬ ((s.time.dom m).enable = true ∧ (s.time.dom m).number = d.toNat ∧ bitOf (s.time.dom m).slaveLanes.toNat l = true)) ∧
      (s.time.masterDomain = d.toNat → bitOf s.time.masterLanes.toNat l = false)) → exec (.ptpRx now l d msg) s = .next (s.atTime now)) ∧
  (∀ s now (l : Fin 32) (d : Byte) m, (s.lane l).linkUp = true → (s.time.dom m).enable = true → (s.time.dom m).number = d.toNat → bitOf (s.time.dom m).slaveLanes.toNat l = true →
    ¬ ((s.time.dom (!m)).enable = true ∧ (s.time.dom (!m)).number = d.toNat ∧ bitOf (s.time.dom (!m)).slaveLanes.toNat l = true) →
    (∀ t1, ∃ t, exec (.ptpRx now l d (.sync t1)) s = .next t ∧ (t.time.dom m).syncSent = some t1 ∧
      (t.time.dom m).syncSeen = (now : Int) + (s.lane l).rxAdj + ((s.atTime now).time.dom m).ahead' ∧ Only ([.time, .health, .power, .fresh] ++ eventFields) s t) ∧
    (∀ gm c a, ∃ t, exec (.ptpRx now l d (.announce gm c a)) s = .next t ∧
      (if (s.time.dom m).lastAnnounce = 0 ∨ (s.time.dom m).gmId = gm ∨
          better (c.toNat, a.toNat, gm.toNat) ((s.time.dom m).gmClass, (s.time.dom m).gmAccuracy, (s.time.dom m).gmId.toNat) = true
        then (t.time.dom m).gmId = gm ∧ (t.time.dom m).gmClass = c.toNat ∧ (t.time.dom m).gmAccuracy = a.toNat
        else (t.time.dom m).gmId = (s.time.dom m).gmId ∧ (t.time.dom m).lastAnnounce = (s.time.dom m).lastAnnounce) ∧ Only ([.time, .health, .power, .fresh] ++ eventFields) s t) ∧
    (∀ t3 t4, ((s.time.dom m).syncSent = none → exec (.ptpRx now l d (.delayResp t3 t4)) s = .next (s.atTime now)) ∧
      ((s.time.dom m).syncSent ≠ none → ∃ t, exec (.ptpRx now l d (.delayResp t3 t4)) s = .next t ∧ (t.time.dom m).updates = satInc 64 (s.time.dom m).updates ∧
        (t.time.dom m).syncSent = none ∧ (t.time.dom (!m)).updates = (s.time.dom (!m)).updates ∧ Only ([.time, .health, .power, .fresh] ++ eventFields) s t))) ∧
  (∀ s now (l : Fin 32) (d : Byte) a b, (s.lane l).linkUp = true → bitOf s.time.masterLanes.toNat l = true → s.time.masterDomain = d.toNat → ∃ t,
    exec (.ptpRx now l d (.delayReq a b)) s = .next t ∧
    (∃ x, Output.ptp l d.toNat 3 x ∈ t.out) ∧ Only [.time, .out] s t) ∧
  (∀ s now (l : Fin 32) k, (s.lane l).linkUp = false ∨ (k ≠ 1 ∧ bitOf s.time.masterLanes.toNat l = false) ∨
      (k = 1 ∧ ∀ m, ¬ ((s.time.dom m).enable = true ∧ bitOf (s.time.dom m).slaveLanes.toNat l = true)) → exec (.ptpTxTick now l k) s = .next (s.atTime now)) ∧
  (∀ s now (l : Fin 32) k, (s.lane l).linkUp = true →
    (k ≠ 1 → bitOf s.time.masterLanes.toNat l = true → ∃ t, exec (.ptpTxTick now l k) s = .next t ∧ (∃ x, Output.ptp l s.time.masterDomain k x ∈ t.out) ∧ Only [.time, .out] s t) ∧
    (k = 1 → ∀ m, (s.time.dom m).enable = true → bitOf (s.time.dom m).slaveLanes.toNat l = true → ∃ t, exec (.ptpTxTick now l k) s = .next t ∧
      (∃ x, Output.ptp l (s.time.dom m).number 1 x ∈ t.out) ∧ Only [.time, .out] s t)) ∧
  (∀ s now m, (s.time.dom m).lastAnnounce = 0 ∨ max s.time.now now + 1 < (s.time.dom m).lastAnnounce + 375000000 → exec (.announceTimeout now m) s = .next (s.atTime now)) ∧
  (∀ s now m, (s.time.dom m).lastAnnounce ≠ 0 → (s.time.dom m).lastAnnounce + 375000000 ≤ max s.time.now now + 1 → ∃ t, exec (.announceTimeout now m) s = .next t ∧
    (t.time.dom m).lastAnnounce = 0 ∧ (t.time.dom m).losses = satInc 32 (s.time.dom m).losses ∧
    (t.time.dom m).state = (if (s.time.dom m).state = .locked then .holdover else (s.time.dom m).state) ∧
    t.time.mirrorSelected = (if (s.time.dom m).state = .locked ∧ m = s.time.mirrorSelected ∧ s.time.autoSwitch = true ∧ (s.time.dom (!m)).state = .locked then !m else s.time.mirrorSelected) ∧
    Only ([.time, .health, .fresh] ++ eventFields) s t) ∧
  (∀ s (m : Fin 16) c, Taken s m.val 0x0501 c → s.dev.dstate ≠ .rom →
    1 ≤ c.argLength → c.arg 0x20 1 ≤ 1 →
    ((s.time.dom (c.arg 0x20 1 == 1)).state = .locked → ∃ t, exec (.timeDomainSelect m) s = .next t ∧ t.time.mirrorSelected = (c.arg 0x20 1 == 1) ∧
      ((c.arg 0x20 1 == 1) ≠ s.time.mirrorSelected → t.time.switching = true ∧ t.time.freqAdj = (s.time.dom (c.arg 0x20 1 == 1)).correction) ∧
      ((c.arg 0x20 1 == 1) = s.time.mirrorSelected → t.time = s.time) ∧ Answers s t m c .ok [] false ∧ Only ([.mboxes, .time, .health] ++ eventFields) s t) ∧
    ((s.time.dom (c.arg 0x20 1 == 1)).state ≠ .locked → ∃ t, exec (.timeDomainSelect m) s = .next t ∧ t.time = s.time ∧ Answers s t m c .notReady [] false ∧
      Only ([.mboxes, .time, .health] ++ eventFields) s t)) ∧
  (∀ s now, ∃ t, exec (.domainSwitchDone now) s = .next t ∧
    (if s.time.switching = true ∧ ((((s.atTime now).time.dom s.time.mirrorSelected).virt.natAbs : Int) < fineNs) then
      t.time.switching = false ∧ (t.time.dom t.time.mirrorSelected).virt = 0 ∧ t.time.event = s.time.event ||| 4 else t = s.atTime now) ∧ Only [.time] s t)

/-- R441: SyncE. R443: the snapshot. R444 to R447: pulses and captures. -/
def Obligations.SyncESnapshotPulsesAndCaptures : Prop :=
  (∀ s (l : Fin 32) good, ∃ t, exec (.esmcRx l good) s = .next t ∧
    t.time.synceQualified = (if s.time.synceEn = true ∧ s.time.synceLane = l.val ∧ (s.lane l).linkUp = true then good else s.time.synceQualified) ∧ Only [.time] s t) ∧
  (∀ s now, ∃ t, exec (.esmcTxTick now) s = .next t ∧
    t.out = (if s.time.synceOutEn = true then Output.esmc s.time.synceQualified :: s.out else s.out) ∧ Only [.time, .out] s t) ∧
  (∀ s now, ∃ t, exec (.snapRefresh now) s = .next t ∧ t.time.snapSeq = (s.time.snapSeq + 2) % 2 ^ 32 ∧ t.time.snapSec = max s.time.now now / 1000000000 ∧
    t.time.snapNs = max s.time.now now % 1000000000 ∧ Only [.time] s t) ∧
  (∀ s (m : Fin 16) c, Taken s m.val 0x0502 c → s.dev.dstate ≠ .rom → 24 ≤ c.argLength → tpoBad c s.time.now = false → ∃ t, exec (.tpoSet m) s = .next t ∧
    t.tpo (c.arg 0x20 1) = { s.tpo (c.arg 0x20 1) with start := c.arg 0x28 8, period := c.arg 0x30 4, width := c.arg 0x34 4, running := c.arg 0x34 4 != 0
                                                       pendingStart := c.arg 0x34 4 != 0, nextN := 0 } ∧
    (∀ k, k ≠ c.arg 0x20 1 → t.tpo k = s.tpo k) ∧ Answers s t m c .ok [] false ∧ Only ([.mboxes, .time] ++ eventFields) s t) ∧
  (∀ s now (k : Fin 8), ∃ t, exec (.tpoEdge now k) s = .next t ∧
    ((s.tpo k).high = true → (s.tpo k).fallAt ≤ max s.time.now now → (s.tpo k).running = false → (t.tpo k).high = false ∧ (t.tpo k).pulses = (s.tpo k).pulses) ∧
    ((s.tpo k).high = false → (s.tpo k).running = true → (s.tpo k).start + (s.tpo k).nextN * (s.tpo k).period ≤ max s.time.now now →
      (s.tpo k).period ≠ 0 ∨ (s.tpo k).nextN = 0 → (t.tpo k).high = true ∧ (t.tpo k).fallAt = (s.tpo k).start + (s.tpo k).nextN * (s.tpo k).period + (s.tpo k).width ∧
      (t.tpo k).pulses = satInc 64 (s.tpo k).pulses ∧ (t.tpo k).nextN = (s.tpo k).nextN + 1) ∧
    ((s.tpo k).running = false → (s.tpo k).high = false ∨ max s.time.now now < (s.tpo k).fallAt → t.tpo k = s.tpo k) ∧
    (∀ j, j ≠ k.val → t.tpo j = s.tpo j) ∧ Only [.time] s t) ∧
  (∀ s (m : Fin 16) c, Taken s m.val 0x0503 c → s.dev.dstate ≠ .rom → 2 ≤ c.argLength → c.arg 0x20 1 ≤ 3 → c.arg 0x21 1 ≤ 3 → ∃ t, exec (.captureArm m) s = .next t ∧
    t.capture (c.arg 0x20 1) = (if (s.capture (c.arg 0x20 1)).edge = c.arg 0x21 1 then s.capture (c.arg 0x20 1)
      else { s.capture (c.arg 0x20 1) with edge := c.arg 0x21 1, fifo := [] }) ∧
    (∀ k, k ≠ c.arg 0x20 1 → t.capture k = s.capture k) ∧ Answers s t m c .ok [] false ∧ Only ([.mboxes, .time] ++ eventFields) s t) ∧
  (∀ s now (k : Fin 4) rising, bitOf (s.capture k).edge (if rising then 0 else 1) = false → exec (.captureEdge now k rising) s = .next (s.atTime now)) ∧
  (∀ s now (k : Fin 4) rising, bitOf (s.capture k).edge (if rising then 0 else 1) = true → ∃ t, exec (.captureEdge now k rising) s = .next t ∧
    ((s.capture k).fifo.length < 16 → (∀ l, (s.capture k).last = some l → l + 20 ≤ max s.time.now now) →
      t.capture k = { s.capture k with fifo := (s.capture k).fifo ++ [(max s.time.now now, rising)], last := some (max s.time.now now) }) ∧
    (16 ≤ (s.capture k).fifo.length ∨ (∃ l, (s.capture k).last = some l ∧ max s.time.now now < l + 20) →
      t.capture k = { s.capture k with lost := satInc 32 (s.capture k).lost } ∧ t.time.event = s.time.event ||| 8) ∧ Only [.time] s t) ∧
  (∀ s mp (k : Fin 4), ∃ t, exec (.capPop mp k) s = .next t ∧
    (t.capture k).fifo = (if mp = Config.managerMapping then (s.capture k).fifo.drop 1 else (s.capture k).fifo) ∧ (∀ j, j ≠ k.val → t.capture j = s.capture j) ∧ Only [.time] s t)

/-- R395, R396, R420, R421: received frames and links. R415 to R417: egress. R411: the queue cache. -/
def Obligations.FramesOfTheFronthaul : Prop :=
  (∀ s now (l : Fin 32) f due, (s.lane l).linkUp = false ∨ s.accepts ⟨.fhPort, l / 4⟩ = false ∨ (frameBytes f).length < 60 ∨ 9212 < (frameBytes f).length →
    exec (.fhRxFrame now l f due) s = .next (s.at now)) ∧
  (∀ s now (l : Fin 32) f due, (s.lane l).linkUp = true → s.accepts ⟨.fhPort, l / 4⟩ = true → 60 ≤ (frameBytes f).length → (frameBytes f).length ≤ 9212 →
    (f.fcsOk = false → ∃ t, exec (.fhRxFrame now l f due) s = .next t ∧ t.lane l = { s.lane l with rxFcsErr := satInc 32 (s.lane l).rxFcsErr } ∧ Only [.time, .fh] s t) ∧
    (f.fcsOk = true → ∃ t, exec (.fhRxFrame now l f due) s = .next t ∧ (t.lane l).rxFrames = satInc 64 (s.lane l).rxFrames ∧
      (t.lane l).rxBytes = satAdd 64 (s.lane l).rxBytes ((frameBytes f).length + 4) ∧
      Only ([.insts, .spoof, .tiers, .queues, .radio, .shep, .dma, .fh, .time, .health, .power, .fresh, .deviceMem] ++ eventFields) s t) ∧
    (f.fcsOk = true → f.etherType ≠ 0xAEFE#16 → s.timeLane l = false → s.flowOf l f = none → ∃ t, exec (.fhRxFrame now l f due) s = .next t ∧
      t.lane l = { s.lane l with rxFrames := satInc 64 (s.lane l).rxFrames, rxBytes := satAdd 64 (s.lane l).rxBytes ((frameBytes f).length + 4)
                                 rxUnmatched := satInc 32 (s.lane l).rxUnmatched } ∧ Only [.time, .fh] s t)) ∧
  (∀ s now (l : Fin 32), (s.lane l).sending ≠ none ∨ (s.lane l).linkUp = false ∨ s.accepts ⟨.fhPort, l / 4⟩ = false → exec (.egressFrameStart now l) s = .next (s.at now)) ∧
  (∀ s now (l : Fin 32) v, (s.lane l).sending = none → (s.lane l).linkUp = true → s.accepts ⟨.fhPort, l / 4⟩ = true → v = ((s.at now).modLane l Lane.boundary).bringGroups l →
    (v.eligibleQueues l = [] → exec (.egressFrameStart now l) s = .next v) ∧
    (∀ ch c d, v.pickFrame l = some ch → v.head ch.queue = some (c, d) → v.queueOwner ch.queue = some 0 →
      (v.egressBad 0 c d = true → ∃ t, exec (.egressFrameStart now l) s = .next t ∧ (t.lane l).sending = none ∧
        (t.queue ch.queue).map (fun c => c.consumer) = (v.queue ch.queue).map (fun c => (c.consumer + 1) % 2 ^ 32) ∧
        Only ([.insts, .spoof, .tiers, .mem, .queues, .radio, .fh, .time, .power, .fresh, .deviceMem] ++ eventFields) s t) ∧
      (v.egressBad 0 c d = false → eSpace d = 0 → v.tdCell l (v.rd .radio (eAddr d) (eLength d)) = none → v.mem.poisoned (key .radio (eAddr d)) (eLength d) = false →
        ∃ t, exec (.egressFrameStart now l) s = .next t ∧
        (t.lane l).sending = some { queue := ch.queue, desc := d, frame := v.rd .radio (eAddr d) (eLength d)
                                    at' := ((max s.time.now now : Nat) + (s.lane l).txAdj).toNat, issued := (v.inst 0).generation } ∧
        Only ([.insts, .spoof, .tiers, .mem, .queues, .radio, .fh, .time, .power, .fresh, .deviceMem] ++ eventFields) s t))) ∧
  (∀ s now (l : Fin 32), (s.lane l).sending = none → exec (.egressFrameDone now l) s = .next (s.at now)) ∧
  (∀ s now (l : Fin 32) x, (s.lane l).sending = some x → ∃ t, exec (.egressFrameDone now l) s = .next t ∧ (t.lane l).sending = none ∧
    (t.lane l).txFrames = satInc 64 (s.lane l).txFrames ∧ (t.lane l).txBytes = satAdd 64 (s.lane l).txBytes (x.frame.length + 4) ∧ Output.frame l x.frame ∈ t.out ∧
    Only [.insts, .spoof, .tiers, .mem, .queues, .fh, .time, .power, .out, .fresh, .deviceMem, .fyfDrops] s t) ∧
  (∀ s now q, (s.at now).head q = none ∨ s.queueOwner q = none → exec (.egressDeadlineExpiry now q) s = .next (s.at now)) ∧
  (∀ s now q c d i, (s.at now).head q = some (c, d) → s.queueOwner q = some i →
    (c.type ≠ 3 ∨ eDeadlineEn d = false ∨ behind (eDeadline d) (max s.time.now now) = false ∨ s.active i = false → exec (.egressDeadlineExpiry now q) s = .next (s.at now)) ∧
    (c.type = 3 → eDeadlineEn d = true → behind (eDeadline d) (max s.time.now now) = true → s.active i = true → (∀ x, (s.lane c.lane).sending = some x → x.queue ≠ q) →
      ∃ t, exec (.egressDeadlineExpiry now q) s = .next t ∧ (t.lane c.lane).txDeadlineDrop = satInc 32 (s.lane c.lane).txDeadlineDrop ∧
      (∀ x y, t.queue q = some x → s.queue q = some y → x.consumer = (y.consumer + 1) % 2 ^ 32) ∧
      Only ([.insts, .tiers, .mem, .queues, .radio, .shep, .fh, .time, .health, .power, .fresh, .deviceMem] ++ eventFields) s t)) ∧
  (∀ s (l : Fin 32) up, (s.lane l).linkUp = up ∨ modeLanes (s.portMode (l.val / 4)) ≤ l.val % 4 ∨ (up = true ∧ s.accepts ⟨.fhPort, l.val / 4⟩ = false) →
    exec (.fhLaneLinkChange l up) s = .next s) ∧
  (∀ s (l : Fin 32) up, (s.lane l).linkUp ≠ up → l.val % 4 < modeLanes (s.portMode (l.val / 4)) → up = false ∨ s.accepts ⟨.fhPort, l.val / 4⟩ = true → ∃ t,
    exec (.fhLaneLinkChange l up) s = .next t ∧ t.lane l = { s.lane l with linkUp := up, training := !up } ∧
    Only ([.fh, .health] ++ eventFields) s t) ∧
  (∀ s now q, s.queue q = none ∨ q < 65536 ∨ (∃ c, s.queue q = some c ∧ (s.queueEmpty q c = false ∨ max s.time.now now < c.usedAt + 100000)) →
    exec (.queueEvict now q) s = .next (s.at now)) ∧
  (∀ s now q c, s.queue q = some c → 65536 ≤ q → s.queueEmpty q c = true → c.usedAt + 100000 ≤ max s.time.now now → s.queues.doorbells = [] → ∃ t,
    exec (.queueEvict now q) s = .next t ∧ t.queue q = none ∧ (∀ k, k ≠ q → t.queue k = s.queue k) ∧
    Only ([.dbPages, .insts, .spoof, .tiers, .mem, .queues, .time, .power, .fresh, .deviceMem] ++ eventFields) s t)

/-- R376 to R383: posting and arbitration. R386, R388, R389: line accesses and completion. -/
def Obligations.DescriptorsOfTheDmaEngines : Prop :=
  (∀ s (e : Fin 64) (c : Fin 16) d, s.accepts ⟨.dma, e⟩ = false → ∃ t, exec (.dmaDescriptorPost e c d) s = .next t ∧ Output.notReady ⟨.dma, e⟩ ∈ t.out ∧ Only [.out] s t) ∧
  (∀ s (e : Fin 64) (c : Fin 16) d, s.accepts ⟨.dma, e⟩ = true → (s.chan e c).enable = false ∨ 2 ^ (s.chan e c).log2 ≤ (s.chan e c).ring.length →
    exec (.dmaDescriptorPost e c d) s = .next s) ∧
  (∀ s (e : Fin 64) (c : Fin 16) d, s.accepts ⟨.dma, e⟩ = true → (s.chan e c).enable = true → (s.chan e c).ring.length < 2 ^ (s.chan e c).log2 → ∃ t,
    exec (.dmaDescriptorPost e c d) s = .next t ∧ (t.chan e c).ring = (s.chan e c).ring ++ [fixLen 128 d] ∧ (t.chan e c).tail = ((s.chan e c).tail + 1) % 65536 ∧
    Only [.mem, .dma, .out, .deviceMem, .fyfDrops] s t) ∧
  (∀ s (e : Fin 64) (c : Fin 16) n, ∃ t, exec (.dmaLevelAdd e c n) s = .next t ∧ (t.chan e c).level = min (2 ^ 25 - 1) ((s.chan e c).level + n) ∧
    (t.chan e c).paused = ((s.chan e c).paused && decide (min (2 ^ 25 - 1) ((s.chan e c).level + n) < (s.chan e c).highWm)) ∧
    (t.chan e c).ring = (s.chan e c).ring ∧ Only [.dma] s t) ∧
  (∀ s (e : Fin 64), (s.dmaEng e).radioRun ≠ none ∨ s.accepts ⟨.dma, e⟩ = false ∨ (s.firstReady e true = none ∧ ((s.dmaEng e).grazingRun ≠ none ∨ s.firstReady e false = none)) →
    exec (.dmaDescriptorStart e) s = .next s) ∧
  (∀ s (e : Fin 64) c d r, (s.dmaEng e).radioRun = none → s.accepts ⟨.dma, e⟩ = true → (s.chan e c).ring = d :: r →
    (s.firstReady e true = some c → ∃ t, exec (.dmaDescriptorStart e) s = .next t ∧
      (t.dmaEng e).radioRun = some { chan := c, desc := d, status := s.dmaCheck e c d, stopped := decide (s.dmaCheck e c d ≠ .ok) } ∧
      (t.dmaEng e).grazingRun = (s.dmaEng e).grazingRun ∧ (t.dmaEng e).grazingHeld = (s.dmaEng e).grazingRun.isSome ∧ Only [.dma] s t) ∧
    (s.firstReady e true = none → (s.dmaEng e).grazingRun = none → s.firstReady e false = some c → ∃ t, exec (.dmaDescriptorStart e) s = .next t ∧
      (t.dmaEng e).grazingRun = some { chan := c, desc := d, status := s.dmaCheck e c d, stopped := decide (s.dmaCheck e c d ≠ .ok) } ∧
      (t.dmaEng e).radioRun = none ∧ Only [.dma] s t)) ∧
  (∀ s (e : Fin 64) f, (s.dmaEng e).radioRun = none → (s.dmaEng e).grazingRun = none → exec (.dmaLineAccess e f) s = .next s) ∧
  (∀ s (e : Fin 64) f r, (s.dmaEng e).radioRun = some r → r.over = true → exec (.dmaLineAccess e f) s = .next s) ∧
  (∀ s (e : Fin 64) r, (s.dmaEng e).radioRun = none → (s.dmaEng e).grazingRun = some r → s.readyChans e true ≠ [] → ∀ f, ∃ t, exec (.dmaLineAccess e f) s = .next t ∧
    (t.dmaEng e).grazingHeld = true ∧ (t.dmaEng e).grazingRun = some r ∧
    (t.dmaEng e).heldCount = (if (s.dmaEng e).grazingHeld = true then (s.dmaEng e).heldCount else satInc 32 (s.dmaEng e).heldCount) ∧ Only [.dma] s t) ∧
  (∀ s (e : Fin 64) r m a, (s.dmaEng e).radioRun = some r → r.over = false → s.ldmCore e r = none → r.move = some m → s.moveLoc e r m = .mem .radio a →
    s.spaceServes .radio a = true →
    (m.write = true → ∃ t, exec (.dmaLineAccess e .good) s = .next t ∧ (t.dmaEng e).radioRun.map (fun x => x.written) = some (r.written + m.n) ∧
      (t.dmaEng e).bytesMoved = satAdd 64 (s.dmaEng e).bytesMoved m.n ∧
      Only ([.insts, .tiers, .mem, .radio, .dma, .health, .power, .fresh, .deviceMem, .fyfDrops] ++ eventFields) s t) ∧
    (m.write = false → ∃ t, exec (.dmaLineAccess e .good) s = .next t ∧ (t.dmaEng e).radioRun.map (fun x => x.read) = some (r.read + m.n) ∧
      (t.dmaEng e).bytesMoved = satAdd 64 (s.dmaEng e).bytesMoved 0 ∧
      Only ([.insts, .tiers, .mem, .radio, .dma, .health, .power, .fresh, .deviceMem, .fyfDrops] ++ eventFields) s t)) ∧
  (∀ s (e : Fin 64), ((s.dmaEng e).radioRun = none ∧ (s.dmaEng e).grazingRun = none) ∨ (∃ r, (s.dmaEng e).radioRun = some r ∧ r.over = false) ∨
      (∃ r, (s.dmaEng e).radioRun = none ∧ (s.dmaEng e).grazingRun = some r ∧ r.over = false) → exec (.dmaDescriptorComplete e) s = .next s) ∧
  (∀ s (e : Fin 64) r d ds, ((s.dmaEng e).radioRun = some r ∨ ((s.dmaEng e).radioRun = none ∧ (s.dmaEng e).grazingRun = some r)) → r.over = true →
    dBit r.desc 7 = false → (s.chan e r.chan).ring = d :: ds → ∃ t, exec (.dmaDescriptorComplete e) s = .next t ∧ (t.dmaEng e).radioRun = none ∧
    (t.dmaEng e).descriptorsDone = satInc 64 (s.dmaEng e).descriptorsDone ∧
    (t.dmaEng e).errorCount = (if r.status = .ok then (s.dmaEng e).errorCount else satInc 32 (s.dmaEng e).errorCount) ∧
    (t.chan e r.chan).ring = (if dBit d 6 = true ∧ ds = [] then [d] else ds) ∧ (t.chan e r.chan).lastStatus = r.status.code ∧
    Only [.tiers, .mem, .radio, .dma, .deviceMem, .fyfDrops] s t)

/-- R37, R344, R629: the window. R641 to R643: the filter. R644: T2 lines. -/
def Obligations.LinesOfTheCompanion : Prop :=
  (∀ s i, (∃ a b c d, i = .coherentAccess a b c d) ∨ (∃ a b, i = .companionOwnershipRequest a b) ∨ (∃ a b, i = .snoopReply a b) ∨ (∃ a, i = .companionSnoop a) →
    s.carries = false → exec i s = .next s) ∧
  (∀ s mp off len (cr : FyfCredits), s.carries = true → s.power.recalls = [] → ∃ t, exec (.coherentAccess mp off len ⟨.read, cr⟩) s = .next t ∧ t.mem = s.mem ∧
    (if s.windowRefuses off len = true then Output.fyfoyx false [] false ∈ t.out ∨ (∃ m ∈ t.power.msgs, m.out = .fyfoyx false [] false)
     else match s.linesHeld off len false with
       | [] => Output.fyfoyx true (s.rd .hbm off len) (s.mem.poisoned (key .hbm off) len) ∈ t.out ∨
           (∃ m ∈ t.power.msgs, m.out = .fyfoyx true (s.rd .hbm off len) (s.mem.poisoned (key .hbm off) len))
       | l :: _ => t.power.recalls = [(l, [.read mp off len])]) ∧ Only [.power, .out, .fyfDrops] s t) ∧
  (∀ s mp off len (d : Bytes) (cr : FyfCredits), s.carries = true → s.power.recalls = [] → ∃ t, exec (.coherentAccess mp off len ⟨.write d, cr⟩) s = .next t ∧
    (if s.windowRefuses off d.length = true ∨ s.readonlyHit off d.length = true then t.mem = s.mem ∧
        (Output.fyfoyx false [] false ∈ t.out ∨ (∃ m ∈ t.power.msgs, m.out = .fyfoyx false [] false))
     else match s.linesHeld off d.length true with
       | [] => t.rd .hbm off d.length = d ∧ (Output.fyfoyx true [] false ∈ t.out ∨ (∃ m ∈ t.power.msgs, m.out = .fyfoyx true [] false))
       | l :: _ => t.mem = s.mem ∧ t.power.recalls = [(l, [.write off d])]) ∧ Only [.tiers, .mem, .power, .out, .deviceMem, .fyfDrops] s t) ∧
  (∀ s line own (cr : FyfCredits), s.carries = true → s.power.recalls = [] → ∃ t, exec (.companionOwnershipRequest line ⟨own, cr⟩) s = .next t ∧ t.mem = s.mem ∧
    (if s.windowRefuses (64 * line) 64 = true ∨ s.radioLine line = true then t.power.filter = s.power.filter ∧ t.power.recalls = []
     else if s.lineState line = .invalid ∧ filterSize ≤ s.power.filter.length then t.power.filter = s.power.filter ∧ t.power.recalls.map (fun r => r.2) = [[.grant line own]]
     else t.power.recalls = [] ∧ t.lineState line = (if s.lineState line = .exclusiveClean ∨ s.lineState line = .exclusiveDirty then s.lineState line
        else if own = .shared ∨ s.readonlyHit (64 * line) 64 = true then .sharedClean else .exclusiveClean)) ∧ Only [.power, .out, .fyfDrops] s t) ∧
  (∀ s line (d : Option Bytes) (cr : FyfCredits), s.carries = true → s.power.recalls = [(line, [])] → ∃ t, exec (.snoopReply line ⟨d, cr⟩) s = .next t ∧ t.power.recalls = [] ∧
    t.lineState line = .invalid ∧
    (∀ b, d = some b → s.lineState line = .exclusiveClean ∨ s.lineState line = .exclusiveDirty → 64 * line + 64 ≤ hbmTop → t.rd .hbm (64 * line) 64 = fixLen 64 b) ∧
    Only [.tiers, .mem, .power, .out, .deviceMem, .fyfDrops] s t) ∧
  (∀ s line, (∀ r ∈ s.power.recalls, r.1 ≠ line) → exec (.recallTimeout line) s = .next s) ∧
  (∀ s line, s.power.recalls = [(line, [])] → ∃ t, exec (.recallTimeout line) s = .next t ∧ t.power.recalls = [] ∧ t.lineState line = .invalid ∧
    t.power.sfPoisoned = satInc 32 s.power.sfPoisoned ∧ Only ([.tiers, .mem, .health, .power, .fresh, .deviceMem, .insts, .fyfDrops] ++ eventFields) s t) ∧
  (∀ s line (cr : FyfCredits), s.carries = true → ∃ t, exec (.companionSnoop ⟨line, cr⟩) s = .next t ∧ t.power.t2Lines = tdel s.power.t2Lines line ∧ t.mem = s.mem ∧
    Only [.power, .out, .fyfDrops] s t)

/-- R637 to R639, R645: the states of Table 21-5. -/
def Obligations.StatesOfTheFyfoyxLink : Prop :=
  (∀ s, ∃ t, exec .fyfLaneDetect s = .next t ∧
    t.power.fyf = (if s.power.fyf = .down ∧ s.pkg.resetHigh = true ∧ s.pkg.latched = false then .training else s.power.fyf) ∧ Only [.power, .fyfDrops] s t) ∧
  (∀ s lanes (vs : List W16), agreeVersion fyfoyxOffer (vs.map (·.toNat)) = none ∨ (s.power.fyf ≠ .training ∧ s.power.fyf ≠ .recovery) ∨ trainWidth lanes = 0 →
    exec (.fyfTrainDone lanes vs) s = .next s) ∧
  (∀ s lanes (vs : List W16) v, agreeVersion fyfoyxOffer (vs.map (·.toNat)) = some v → s.power.fyf = .training ∨ s.power.fyf = .recovery → trainWidth lanes ≠ 0 → ∃ t,
    exec (.fyfTrainDone lanes vs) s = .next t ∧ t.power.fyf = (if s.dev.dstate = .night ∧ s.power.entering = false then .night else .active) ∧
    t.power.width = (if lanes = 0xFFFFFFFF#32 then 32 else if lanes &&& 0xFFFF#32 = 0xFFFF#32 ∨ lanes >>> 16 = 0xFFFF#32 then 16 else 4) ∧
    t.power.fyfDegraded = decide (lanes ≠ 0xFFFFFFFF#32) ∧ t.power.fyfAgreed = v ∧ t.power.flitFails = [] ∧ Only [.radio, .power, .fyfDrops] s t) ∧
  (∀ s i, i = .fyfLinkDown ∨ i = .fyfRecoveryTimeout → s.power.fyf = .down → exec i s = .next s) ∧
  (∀ s, s.power.fyf ≠ .recovery → exec .fyfRecoveryTimeout s = .next s) ∧
  (∀ s i, (i = .fyfLinkDown ∧ s.power.fyf ≠ .down) ∨ (i = .fyfRecoveryTimeout ∧ s.power.fyf = .recovery) → ∃ t, exec i s = .next t ∧ t.power.fyf = .down ∧
    t.power.filter = [] ∧ t.power.recalls = [] ∧ (∀ m, m < 16 → (s.mbox m).closing = none → (s.mbox m).current = none → (t.mbox m).enable = false) ∧
    Only ([.mboxes, .insts, .tiers, .mem, .folds, .dma, .health, .power, .fresh, .deviceMem, .fyfDrops] ++ eventFields) s t) ∧
  (∀ s now held, s.power.fyf ≠ .active → s.power.fyf ≠ .night → exec (.fyfFlitCrcFail now held) s = .next (s.at now)) ∧
  (∀ s now held, s.power.fyf = .active ∨ s.power.fyf = .night → ∃ t, exec (.fyfFlitCrcFail now held) s = .next t ∧
    t.power.fyfReplays = (if held = true then satInc 32 s.power.fyfReplays else s.power.fyfReplays) ∧
    (if held = false ∨ 16 < 1 + (s.power.flitFails.filter (fun t => decide (max s.time.now now < t + 1000000))).length
      then t.power.fyf = .recovery ∧ t.power.fyfRecoveries = satInc 32 s.power.fyfRecoveries else t.power.fyf = s.power.fyf ∧ t.power.fyfRecoveries = s.power.fyfRecoveries) ∧
    Only [.time, .power, .fyfDrops] s t)

/-- R320, R321, R327 to R335: the shepherd's timeline. R278, R279: frames. -/
def Obligations.WindowsFramesAndSlots : Prop :=
  (∀ s now (c : Fin 512) (slot : W32) st late a b r, (s.cell c).state.onAir = false ∨ (s.cell c).missed.contains (slot.toNat, stageCode st) = true →
    exec (.stageDeadline now c slot st late a b r) s = .next (s.at now)) ∧
  (∀ s now (c : Fin 512) (slot : W32) st late a b r, (s.cell c).state.onAir = true → (s.cell c).missed.contains (slot.toNat, stageCode st) = false → ∃ t,
    exec (.stageDeadline now c slot st late a b r) s = .next t ∧ (t.cell c).missed = (s.cell c).missed ++ [(slot.toNat, stageCode st)] ∧
    (t.cell c).slotsMissed = (if (s.cell c).missed.any (fun p => p.1 == slot.toNat) then (s.cell c).slotsMissed else satInc 64 (s.cell c).slotsMissed) ∧
    (t.cell c).lastMissSlot = slot.toNat ∧ (t.cell c).lastMissStage = stageCode st ∧
    (t.cell c).lastMissCause = (if a = true then 1 else if b = true ∨ s.changesBlocked = true ∨ (st = .array ∧ s.eligibleNow = []) then 2 else if r = true then 3
      else if st = .nrxUpdate then 4 else 5) ∧ (∀ k, k ≠ c.val → t.cell k = s.cell k) ∧ Only ([.radio, .shep, .time, .health, .fresh] ++ eventFields) s t) ∧
  (∀ s now, s.radioRuns = false ∨ s.sinceSfn0 (max s.time.now now + s.settings.penumbra) % 62500 ≠ 0 → exec (.penumbraOpen now) s = .next (s.at now)) ∧
  (∀ s now w, s.radioRuns = true → s.sinceSfn0 (max s.time.now now + s.settings.penumbra) % 62500 = 0 → w = s.sinceSfn0 (max s.time.now now + s.settings.penumbra) / 62500 →
    (foldSet s.eligibleNow s.windowCharge w = [] ∨ (∃ p ∈ s.shep.sets, p.1 = w) → exec (.penumbraOpen now) s = .next (s.at now)) ∧
    (foldSet s.eligibleNow s.windowCharge w ≠ [] → (∀ p ∈ s.shep.sets, p.1 ≠ w) → ∃ t, exec (.penumbraOpen now) s = .next t ∧
      t.shep.sets = (w, foldSet s.eligibleNow s.windowCharge w) :: s.shep.sets ∧
      Only ([.units, .mboxes, .folds, .disp, .shep, .time, .health, .mem, .deviceMem] ++ eventFields) s t)) ∧
  (∀ s now, s.sinceSfn0 (max s.time.now now) % 62500 ≠ 0 ∨ s.dev.dstate = .rom → exec (.windowBoundary now) s = .next (s.at now)) ∧
  (∀ s now, s.sinceSfn0 (max s.time.now now) % 62500 = 0 → s.dev.dstate ≠ .rom → ∃ t, exec (.windowBoundary now) s = .next t ∧
    t.shep.windows = satInc 64 s.shep.windows ∧ t.settings = { s.settings with share := s.settings.shareNext, penumbra := s.settings.penumbraNext } ∧
    Only ([.units, .mboxes, .folds, .disp, .radio, .shep, .settings, .time, .health, .mem, .deviceMem] ++ eventFields) s t) ∧
  (∀ s now, s.sinceSfn0 (max s.time.now now) % 10000000 ≠ 0 → exec (.frameBoundary now) s = .next (s.at now)) ∧
  (∀ s now c x, s.sinceSfn0 (max s.time.now now) % 10000000 = 0 → s.radio.cells = [(c, x)] → s.power.removal = none → ∃ t, exec (.frameBoundary now) s = .next t ∧
    (x.state = .removing → (t.cell c).state = .unused) ∧ (x.state = .active → x.suspendDue = false → t.cell c = s.cell c) ∧
    Only [.tiers, .mem, .radio, .shep, .fh, .time, .fresh, .deviceMem] s t) ∧
  (∀ s now g b f, s.sinceSfn0 (max s.time.now now) % 125000 ≠ 0 ∨ (s.radio.cells = [] ∧ s.radio.nrx.model = none ∧ s.radio.nrx.pending = none) →
    exec (.slotBoundary now g b f) s = .next (s.at now)) ∧
  (∀ s now g b f c x, s.sinceSfn0 (max s.time.now now) % 125000 = 0 → s.radio.cells = [(c, x)] → s.radio.nrx.model = none → s.radio.nrx.pending = none →
    s.sinceSfn0 (max s.time.now now) % slotNs x.cfg = 0 → ∃ t, exec (.slotBoundary now g b f) s = .next t ∧
    (x.state = .suspended → (t.cell c).slotsSuspended = satInc 64 x.slotsSuspended ∧ t.shep.slotsSuspended = satInc 64 s.shep.slotsSuspended) ∧
    (x.state = .active → x.open'.length < 5 → (t.cell c).open' = x.open' ++ [s.sinceSfn0 (max s.time.now now) / slotNs x.cfg] ∧ (t.cell c).slotsServed = x.slotsServed) ∧
    Only ([.mboxes, .folds, .radio, .shep, .time, .health, .fresh] ++ eventFields) s t)

/-- R248 to R269: the signal cores' cycles, external accesses and loading. -/
def Obligations.CyclesAccessesAndProgramsOfTheSignalCores : Prop :=
  (∀ s (k : Fin 384) ecc, s.accepts ⟨.sigCore, k⟩ = false ∨ 0 < (s.sigCore k).stall ∨ 0 < (s.sigCore k).entry ∨ (s.sigCore k).run = .halted ∨ (s.sigCore k).run = .faulted → ∃ t,
    exec (.bundleIssue k ⟨false, false⟩ ecc) s = .next t ∧ (t.sigCore k).issueCycles = (s.sigCore k).issueCycles ∧ (t.sigCore k).next = (s.sigCore k).next ∧
    (t.sigCore k).run = (s.sigCore k).run ∧
    (t.sigCore k).stall = (if s.accepts ⟨.sigCore, k⟩ = true then (s.sigCore k).stall - 1 else (s.sigCore k).stall) ∧
    (t.sigCore k).entry = (if s.accepts ⟨.sigCore, k⟩ = true ∧ (s.sigCore k).stall = 0 then (s.sigCore k).entry - 1 else (s.sigCore k).entry) ∧
    Only ([.dev, .units, .mboxes, .radio, .health, .power, .fresh, .mem, .deviceMem, .fyfDrops] ++ eventFields) s t) ∧
  (∀ s (k : Fin 384) ecc r x, s.accepts ⟨.sigCore, k⟩ = true → (s.sigCore k).stall = 0 → (s.sigCore k).entry = 0 → (s.sigCore k).run = .running ∨ (s.sigCore k).run = .inHandler →
    (s.sigCore k).forced = false → r = (SigCore.corrected ecc { s.sigCore k with forced := false }).arrive →
    x = bundleFault r.next ((s.sigCore k).bundleAt (s.sigCore k).next) ecc (fun a v => s.mem.poisoned (key .radio (ldmBase k + a)) (if v then 64 else 4)) r →
    (x = none → ∃ t, exec (.bundleIssue k ⟨false, false⟩ ecc) s = .next t ∧ (t.sigCore k).issueCycles = satInc 64 (s.sigCore k).issueCycles ∧
      Only ([.dev, .units, .mboxes, .radio, .health, .power, .fresh, .mem, .deviceMem, .fyfDrops] ++ eventFields) s t) ∧
    (∀ code a, x = some (code, a) → ∃ t, exec (.bundleIssue k ⟨false, false⟩ ecc) s = .next t ∧ (t.sigCore k).run = .faulted ∧
      (t.sigCore k).lastFault = code + 16 * (s.sigCore k).next ∧ (t.sigCore k).faultAddr = a ∧
      Only ([.dev, .units, .mboxes, .radio, .health, .power, .fresh, .mem, .deviceMem, .fyfDrops] ++ eventFields) s t)) ∧
  (∀ s (k : Fin 384) f, (∀ x ∈ s.crossing (k / 8), x.core ≠ k.val) → exec (.ldmExtAccess k none f) s = .next s) ∧
  (∀ s (k : Fin 384) f n, s.crossing (k / 8) = [] → s.shown ⟨.sigGroup, k / 8⟩ ≠ .sleeping → ∃ t, exec (.ldmExtAccess k (some (.engine n)) f) s = .next t ∧
    t.crossing (k / 8) = (if ((s.sigCore k).run = .running ∨ (s.sigCore k).run = .inHandler) ∧ (s.sigCore k).used0 = true ∧ (s.sigCore k).used1 = true
      then [{ core := k, src := .engine n }] else []) ∧ Only ([.insts, .tiers, .mem, .radio, .dma, .health, .power, .fresh, .deviceMem, .fyfDrops] ++ eventFields) s t) ∧
  (∀ s g (ks : List (Fin 8)) (im : ImageRange) st, 131072 < im.size ∨ 0x20000000 < im.start + im.size → exec (.programLoad g ks im st) s = .next s) ∧
  (∀ s (g : Fin 48) (ks : List (Fin 8)) (im : ImageRange) (st : BitVec 12), im.size ≤ 131072 → im.start + im.size ≤ 0x20000000 → ∃ t, exec (.programLoad g ks im st) s = .next t ∧
    (∀ k ∈ ks, s.accepts ⟨.sigCore, 8 * g.val + k.val⟩ = true → (s.sigCore (8 * g.val + k.val)).run = .halted →
      (t.sigCore (8 * g.val + k.val)).run = .running ∧ (t.sigCore (8 * g.val + k.val)).next = st.toNat ∧ (t.sigCore (8 * g.val + k.val)).ie = false) ∧
    (∀ k ∈ ks, s.accepts ⟨.sigCore, 8 * g.val + k.val⟩ = false → Output.notReady ⟨.sigCore, 8 * g.val + k.val⟩ ∈ t.out) ∧
    (∀ n, (s.sigCore n).run ≠ .halted ∨ s.accepts ⟨.sigCore, n⟩ = false ∨ (∀ k ∈ ks, n ≠ 8 * g.val + k.val) → t.sigCore n = s.sigCore n) ∧ Only [.radio, .out] s t)

/-- R284 to R289: jobs. R24 to R26, R54: engines that accept none. -/
def Obligations.JobsOfTheEngines : Prop :=
  (∀ s (e : Fin 100) b, exec (.jobPost e true b) s = .next s) ∧
  (∀ s (e : Fin 100) b, s.accepts ⟨.engine, e⟩ = true →
    ((s.engine e).queue.length < 64 → ∃ t, exec (.jobPost e false b) s = .next t ∧ (t.engine e).queue = (s.engine e).queue ++ [⟨fixLen 64 b, s.jobOrder⟩] ∧
      (t.engine e).posted = (s.engine e).posted + 1 ∧ Only [.mem, .radio, .out, .deviceMem, .fyfDrops] s t) ∧
    (64 ≤ (s.engine e).queue.length → ∃ t, exec (.jobPost e false b) s = .next t ∧ (t.engine e).queue = (s.engine e).queue ∧
      (t.engine e).badJobs = satInc 32 (s.engine e).badJobs ∧ Only [.mem, .radio, .out, .deviceMem, .fyfDrops] s t)) ∧
  (∀ s (e : Fin 100) b, s.accepts ⟨.engine, e⟩ = false →
    ((s.unit ⟨.engine, e⟩).state = .sleeping → ∃ t, exec (.jobPost e false b) s = .next t ∧ (t.engine e).held = (s.engine e).held ++ [fixLen 64 b] ∧
      (t.engine e).queue = (s.engine e).queue ∧ Only [.radio] s t) ∧
    ((s.unit ⟨.engine, e⟩).state ≠ .sleeping → ∃ t, exec (.jobPost e false b) s = .next t ∧ Output.notReady ⟨.engine, e⟩ ∈ t.out ∧ Only [.out] s t)) ∧
  (∀ s (e : Fin 100), (s.engine e).busy ≠ none ∨ s.accepts ⟨.engine, e⟩ = false ∨ s.nextJob e = none → exec (.jobStart e) s = .next s) ∧
  (∀ s (e : Fin 100) j, (s.engine e).busy = none → s.accepts ⟨.engine, e⟩ = true → s.nextJob e = some j → ∃ t, exec (.jobStart e) s = .next t ∧
    (t.engine e).busy = some j ∧ (t.engine e).started = s.time.now ∧ (t.engine e).queue = (s.engine e).queue.filter (fun k => k.order != j.order) ∧ Only [.radio] s t) ∧
  (∀ s (e : Fin 100) now l, (s.engine e).busy = none → exec (.jobComplete e now l) s = .next (s.at now)) ∧
  (∀ s (e : Fin 100) now l j, (s.engine e).busy = some j → ∃ t, exec (.jobComplete e now l) s = .next t ∧ (t.engine e).busy = none ∧
    (t.engine e).jobsDone = satInc 64 (s.engine e).jobsDone ∧ (t.engine e).queue = (s.engine e).queue ∧
    ((s.jobBad e (s.asRun j.bytes)).isSome = true → (t.engine e).badJobs = satInc 32 (s.engine e).badJobs) ∧
    t.disp.adds = (if jobBarrierEn (s.asRun j.bytes) = true then s.disp.adds ++ [jobBarrier (s.asRun j.bytes)] else s.disp.adds) ∧
    Only [.insts, .tiers, .mem, .disp, .radio, .time, .power, .out, .fresh, .deviceMem, .fyfDrops] s t)

/-- R218 to R220: contexts become resident and are released. R222, R227, R228: placement. -/
def Obligations.ContextsOfTheDispatcher : Prop :=
  (∀ s (f : Fin 32) (k : Fin 8), ((s.fold f).slot k).state ≠ .residing ∨ s.slotTask f k = none → exec (.resideDone f k) s = .next s) ∧
  (∀ s (f : Fin 32) (k : Fin 8) n d, ((s.fold f).slot k).state = .residing → s.slotTask f k = some (n, d) → ∃ t, exec (.resideDone f k) s = .next t ∧
    (∀ p ∈ d.ranks, ((t.fold p.1).slot p.2).state ≠ .residing) ∧ t.task n = none ∧
    t.disp.adds = (if d.desc.barrierEn = true then s.disp.adds ++ [d.desc.barrier] else s.disp.adds) ∧
    (s.disp.direct ≠ [] → t.disp.direct = s.disp.direct ++ [s.directRec d.desc.inst d.desc .ok]) ∧
    Only ([.insts, .tiers, .folds, .disp, .queues, .health, .power, .fresh, .deviceMem] ++ eventFields) s t) ∧
  (∀ s (i x : Fin 256), s.slotsOf i x = [] ∨ (∃ p ∈ s.slotsOf i x, ((s.fold p.1).slot p.2).state ≠ .releasing) ∨ s.shareCopies i x = true ∨
    s.dmaIdle (s.slotsOf i x) = false → exec (.releaseDone i x) s = .next s) ∧
  (∀ s (i x : Fin 256), s.slotsOf i x ≠ [] → (∀ p ∈ s.slotsOf i x, ((s.fold p.1).slot p.2).state = .releasing) → s.shareCopies i x = false →
    s.dmaIdle (s.slotsOf i x) = true → ∃ t, exec (.releaseDone i x) s = .next t ∧ (∀ p ∈ s.slotsOf i x, (t.fold p.1).slot p.2 = {}) ∧
    Only ([.insts, .tiers, .folds, .disp, .queues, .health, .power, .fresh, .deviceMem] ++ eventFields) s t) ∧
  (∀ s q, s.offered q = false ∨ s.act q = none → exec (.taskPlace q) s = .next s) ∧
  (∀ s q x, s.offered q = true → s.act q = some x → ∃ t, exec (.taskPlace q) s = .next t ∧
    t.disp.lastInst = (if q < 65536 then x.disp.lastInst else (s.queueOwner q).getD 0) ∧ t.folds = x.folds ∧ t.disp.tasks = x.disp.tasks ∧ t.queues = x.queues ∧
    Only ([.insts, .spoof, .tiers, .folds, .disp, .queues, .health, .power, .fresh, .deviceMem] ++ eventFields) s t) ∧
  (∀ s q i c b, s.offered q = true → s.queueOwner q = some i → s.head q = some (c, b) → c.type = 1 → q ∉ s.disp.gated → s.active i = true → s.disp.direct ≠ [] →
    ((parseTask b).inst ≠ i → ∃ t, exec (.taskPlace q) s = .next t ∧ t.disp.direct = s.disp.direct ++ [s.directRec i (parseTask b) .spoof] ∧ t.spoof.total = satInc 64 s.spoof.total) ∧
    ((parseTask b).inst = i → i ≠ 0 → versionRefused (s.inst i).grant.descVersion (parseTask b).version = false → (parseTask b).generation ≠ (s.inst i).generation →
      ∃ t, exec (.taskPlace q) s = .next t ∧ t.disp.direct = s.disp.direct ++ [s.directRec i (parseTask b) .staleGeneration] ∧ t.disp.tasks = s.disp.tasks))

/-- R191, R232: a tile starts. R163 to R165: the ramp. R156, R157, R166: plane loads. R147: cycles. R177: abandoning. -/
def Obligations.TilesRampsAndPlanes : Prop :=
  (∀ s (f : Fin 32) (k : Fin 8), s.tileMayStart f k = false ∨ s.slotTask f k = none → exec (.tileStart f k) s = .next s) ∧
  (∀ s (f : Fin 32) (k : Fin 8) n d, s.tileMayStart f k = true → s.slotTask f k = some (n, d) →
    (d.status ≠ .ok → exec (.tileStart f k) s = .next (s.settleRank f k)) ∧
    (d.status = .ok → d.tiles ≠ [] → d.tiles.length ≤ ((s.fold f).slot k).nextTile → exec (.tileStart f k) s = .next (s.settleRank f k)) ∧
    (∀ e ps b p h u, d.status = .ok → d.tiles[((s.fold f).slot k).nextTile]? = some (e, ps) → s.objectsBad e d.desc.inst = none → s.outputBad e d.desc.inst = none →
      s.tileHeader e f = (.bytes b p, h, u) → reachBad e ps h ((s.fold f).slot k).shareSize = false → (((s.fold f).slot k).radio = false → overCap e ps = false) →
      (groupsBusy (s.fold f) k e = true → exec (.tileStart f k) s = .next u) ∧
      (groupsBusy (s.fold f) k e = false → groupsBad (s.fold f) k e = false → groupsStuck (s.fold f) k e = false → ∃ t, exec (.tileStart f k) s = .next t ∧
        (64 ≤ (s.fold f).cmpUsed → t = u.modFold f (fun x => { x with vecEvent := x.vecEvent ||| 2 })) ∧
        (∀ x, (s.fold f).cmpUsed < 64 → spillRestore k e (s.fold f) = some x → t = u.modFold f (fun _ => x)) ∧
        ((s.fold f).cmpUsed < 64 → spillRestore k e (s.fold f) = none →
          t = u.modFold f (placeTile k ((s.fold f).slot k).nextTile e ps h (e.report || d.desc.reportAll) (sampled d.desc h ((s.fold f).slot k).nextTile && u.samplerThere f) u.time.now)) ∧
        Only [.mem, .folds, .disp, .health, .power, .out, .fresh, .deviceMem, .fyfDrops] s t))) ∧
  (∀ s (f : Fin 32), ∃ t, exec (.rampStep f) s = .next t ∧
    (t.fold f).octets = (if (s.fold f).rowReady = true then (if (s.fold f).octets < 8 then (s.fold f).octets + 1 else (s.fold f).octets)
      else if (s.fold f).rampingDown = true then (s.fold f).octets - 1 else (s.fold f).octets) ∧
    ((s.fold f).rowReady = true → (t.fold f).rampingDown = false) ∧ (t.fold f).tile = (s.fold f).tile ∧ Only [.folds] s t) ∧
  (∀ s (f : Fin 32), ∃ t, exec (.arrayIdleTimeout f) s = .next t ∧ (t.fold f).octets = (s.fold f).octets ∧
    (t.fold f).rampingDown = ((s.fold f).rampingDown || (decide (32 ≤ (s.fold f).idle ∧ 0 < (s.fold f).octets) && !(s.fold f).rowReady)) ∧ Only [.folds] s t) ∧
  (∀ s (f : Fin 32), s.loadDue f = none ∨ (s.fold f).shadow.complete = true → exec (.planeLoadDone f) s = .next s) ∧
  (∀ s (f : Fin 32) r, s.loadDue f = some r → (s.fold f).shadow.complete = false → ∃ t, exec (.planeLoadDone f) s = .next t ∧
    (t.fold f).shadow.cols = (s.readColumns f r).map (fun c => c.1) ∧ (t.fold f).shadow.poison = (s.readColumns f r).map (fun c => c.2.1) ∧
    (t.fold f).shadow.sums = checkCells r.entry.wfmt r.entry.sfmt ((s.readColumns f r).map (fun c => c.1)) ∧ (t.fold f).shadow.complete = true ∧
    (t.fold f).active = (s.fold f).active ∧ (r.ahead = true → (t.fold f).ahead = some (r.slot, r.index)) ∧
    (r.ahead = false → (t.fold f).tile = (s.fold f).tile.map (fun x => { x with loads := x.loads + 1 })) ∧ Only [.folds, .disp] s t) ∧
  (∀ s (f : Fin 32) bf er, (s.fold f).tile = none → ∃ t, exec (.issueCycle f bf er) s = .next t ∧ (t.fold f).idle = (s.fold f).idle + 1 ∧ (t.fold f).issueHeld = false ∧
    (t.fold f).digestDue = (s.fold f).digestDue - 256 ∧ (t.fold f).issueCycles = (s.fold f).issueCycles ∧ (t.fold f).tile = none ∧
    Only [.tiers, .mem, .folds, .prov, .health, .flash, .power, .out, .fresh, .deviceMem, .fyfDrops] s t) ∧
  (∀ s (f : Fin 32) bf er q, (s.fold f).tile = some q → (s.fold f).pipe = [] → q.ended = none → q.endSent = false → (s.fold f).octets < 8 → ∃ t, exec (.issueCycle f bf er) s = .next t ∧
    (t.fold f).issueHeld = true ∧ (t.fold f).stalled = !bf ∧ (t.fold f).idle = (s.fold f).idle + 1 ∧ (t.fold f).issueCycles = (s.fold f).issueCycles ∧ (t.fold f).tile = some q) ∧
  (∀ s (f : Fin 32) now, (s.fold f).tile = none → (s.fold f).holdAsked = none → exec (.tileAbandon f now) s = .next (s.at now)) ∧
  (∀ s (f : Fin 32) now q, (s.fold f).tile = some q → q.begun = true → q.endBroadcast = false → ((s.fold f).slot q.slot).radio = false → 0 < (s.fold f).penumbra →
    (s.fold f).penumbraAt + 2000 ≤ max s.time.now now → (s.fold f).holdAsked = none → ∃ t, exec (.tileAbandon f now) s = .next t ∧ (t.fold f).tile = none ∧
    (t.fold f).tilesAbandoned = satInc 32 (s.fold f).tilesAbandoned ∧ (t.fold f).arrEvent = (s.fold f).arrEvent ||| 4 ∧
    t.health.recoveryFoldUs = s.health.recoveryFoldUs + (max s.time.now now - q.since) ∧ Only [.folds, .time, .health] s t)

/-- R171, R192, R194: tiles end. R193, R203, R205, R210, R211: group actions. R104, R206, R207: the debug hold. -/
def Obligations.TheEndOfTilesAndTheDebugHold : Prop :=
  (∀ s (f : Fin 32), (s.fold f).tile = none → exec (.tileEnd f) s = .next s) ∧
  (∀ s (f : Fin 32) q, (s.fold f).tile = some q → q.ended = none → q.endDone = false ∨ (s.fold f).pipe ≠ [] → exec (.tileEnd f) s = .next s) ∧
  (∀ s (f : Fin 32) q, (s.fold f).tile = some q → q.ended = none → q.endDone = true → (s.fold f).pipe = [] →
    (q.failed = true → q.rerun = false → ∃ t, exec (.tileEnd f) s = .next t ∧ Only [.folds] s t ∧
      (if 0 < (s.fold f).penumbra ∧ ((s.fold f).slot q.slot).radio = false then (t.fold f).tile = none ∧ ((t.fold f).slot q.slot).secondRun = true
       else ∃ r, (t.fold f).tile = some r ∧ r.rerun = true ∧ r.failed = false ∧ r.begun = false ∧ r.pass = 0 ∧ r.cycle = 0 ∧ r.entry = q.entry ∧ r.slot = q.slot)) ∧
    (q.failed = false ∨ q.rerun = true → ∃ t, exec (.tileEnd f) s = .next t ∧ (t.fold f).tile = none ∧
      (q.failed = false → q.rerun = true → (t.fold f).recovered = satInc 32 (s.fold f).recovered) ∧
      (q.failed = true → (t.fold f).poisonedTiles = satInc 32 (s.fold f).poisonedTiles ∧ bitOf (t.fold f).arrEvent 1 = true) ∧
      Only ([.units, .mboxes, .insts, .tiers, .folds, .disp, .health, .power, .fresh, .deviceMem] ++ eventFields) s t)) ∧
  (∀ s (f : Fin 32) q st, (s.fold f).tile = some q → q.ended = some st → ∃ t, exec (.tileEnd f) s = .next t ∧ (t.fold f).tile = none ∧
    Only ([.units, .mboxes, .insts, .tiers, .folds, .disp, .health, .power, .fresh, .deviceMem] ++ eventFields) s t) ∧
  (∀ s (f : Fin 32) (g : Fin 8), (s.fold f).port g = none → exec (.groupActionDone f g) s = .next s) ∧
  (∀ s (f : Fin 32) (g : Fin 8) j, (s.fold f).port g = some j → (s.fold f).holdAsked = none → ∃ t, exec (.groupActionDone f g) s = .next t ∧
    (∀ w, j.action = .merge w → (t.fold f).merges = satInc 64 (s.fold f).merges) ∧
    (∀ k q d, j.action = .convert k → (s.fold f).findClosing j.slot j.index = some q → s.slotTask f j.slot = some d → q.phase = .ending → q.entry.endAt ≠ 3 →
      ((∀ r ∈ (s.fold f).closing, r.slot = j.slot → r.index ≠ j.index → q.entry.lgroup + k ∉ r.entry.named) → ((t.fold f).lgroup j.slot (q.entry.lgroup + k)).state = .unused) ∧
      (q.left = 1 → (t.fold f).findClosing j.slot j.index = none)) ∧
    (∀ k q d, j.action = .fold k → (s.fold f).findClosing j.slot j.index = some q → s.slotTask f j.slot = some d → q.phase = .ending →
      (q.entry.target ≠ q.entry.lgroup + k → (∀ r ∈ (s.fold f).closing, r.slot = j.slot → r.index ≠ j.index → q.entry.lgroup + k ∉ r.entry.named) →
        ((t.fold f).lgroup j.slot (q.entry.lgroup + k)).state = .unused) ∧
      (q.left = 1 → q.entry.endAt = 3 → (t.fold f).port ((t.fold f).physOf j.slot q.entry.target) = some ⟨j.slot, j.index, .convertTarget⟩) ∧
      (q.left = 1 → q.entry.endAt ≠ 3 → (t.fold f).findClosing j.slot j.index = none)) ∧
    (∀ q d, j.action = .convertTarget → (s.fold f).findClosing j.slot j.index = some q → s.slotTask f j.slot = some d → q.phase = .target →
      ((∀ r ∈ (s.fold f).closing, r.slot = j.slot → r.index ≠ j.index → q.entry.target ∉ r.entry.named) → ((t.fold f).lgroup j.slot q.entry.target).state = .unused) ∧ (q.left = 1 → (t.fold f).findClosing j.slot j.index = none)) ∧
    (j.action = .spill → (t.fold f).spills = satInc 64 (s.fold f).spills ∧ ((t.fold f).lgroup j.slot j.index).state = .spilled ∧ ((t.fold f).lgroup j.slot j.index).phys = none) ∧
    (j.action = .restore → (t.fold f).restores = satInc 64 (s.fold f).restores ∧ ((t.fold f).lgroup j.slot j.index).state = .held) ∧
    Only ([.units, .mboxes, .insts, .tiers, .folds, .disp, .health, .power, .fresh, .deviceMem] ++ eventFields) s t) ∧
  (∀ s (m : Fin 16) c, s.dev.debugAccess = false →
    (Taken s m.val 0x0901 c → (s.fold (fdFold c)).holdAsked ≠ some m.val → ∃ t, exec (.foldDebugHold m) s = .next t ∧ Answers s t m c .denied [] false ∧ Only ([.mboxes] ++ eventFields) s t) ∧
    (Taken s m.val 0x0902 c → ∃ t, exec (.foldDebugRead m) s = .next t ∧ Answers s t m c .denied [] false ∧ Only ([.mboxes] ++ eventFields) s t) ∧
    (Taken s m.val 0x0903 c → ∃ t, exec (.foldDebugRelease m) s = .next t ∧ Answers s t m c .denied [] false ∧ Only ([.mboxes] ++ eventFields) s t)) ∧
  (∀ s (m : Fin 16) c, s.dev.debugAccess = true → fdFold c ≤ 31 →
    s.dev.dstate = .serving ∨ s.dev.dstate = .dusk ∨ s.dev.dstate = .watched ∨ s.dev.dstate = .standby ∨ s.dev.dstate = .fenced →
    (Taken s m.val 0x0901 c → c.argLength = 2 → s.accepts ⟨.fold, fdFold c⟩ = true →
      ((s.fold (fdFold c)).atRest = true → ∃ t, exec (.foldDebugHold m) s = .next t ∧ Answers s t m c .ok [] false ∧ (t.unit ⟨.fold, fdFold c⟩).state = .fenced ∧
        (t.unit ⟨.fold, fdFold c⟩).debug = true ∧ Only ([.units, .mboxes, .folds, .disp, .health, .deviceMem] ++ eventFields) s t) ∧
      ((s.fold (fdFold c)).atRest = false → exec (.foldDebugHold m) s = .next (s.modFold (fdFold c) (fun x => { x with holdAsked := some m.val })))) ∧
    (∀ x, Taken s m.val 0x0902 c → c.argLength = 16 → c.arg 0x22 1 ≤ 7 → c.arg 0x23 1 ≤ 15 → 0 < c.arg 0x26 2 → c.arg 0x24 2 + c.arg 0x26 2 ≤ 4096 → c.arg 0x28 8 % 64 = 0 →
      s.shown ⟨.fold, fdFold c⟩ = .fenced → (s.unit ⟨.fold, fdFold c⟩).debug = true → x = (s.fold (fdFold c)).slot (c.arg 0x22 1) → x.state ≠ .empty → x.state ≠ .residing → c.arg 0x23 1 < x.logical →
      (((s.fold (fdFold c)).lgroup (c.arg 0x22 1) (c.arg 0x23 1)).state = .unused →
        exec (.foldDebugRead m) s = .next ((s.wrCompanion (c.arg 0x28 8) (List.replicate (16 * c.arg 0x26 2) 0#8)).respond m c .ok [] false)) ∧
      (((s.fold (fdFold c)).lgroup (c.arg 0x22 1) (c.arg 0x23 1)).state = .spilled →
        exec (.foldDebugRead m) s = .next ((s.wrCompanion (c.arg 0x28 8)
          (s.rd (.sram (fdFold c)) (x.spillRecords (c.arg 0x23 1) + 16 * c.arg 0x24 2) (16 * c.arg 0x26 2))).respond m c .ok [] false)) ∧
      ∃ t, exec (.foldDebugRead m) s = .next t ∧ Answers s t m c .ok [] false ∧ Only ([.mboxes, .insts, .fresh] ++ eventFields) s t) ∧
    (Taken s m.val 0x0903 c → c.argLength = 2 → s.shown ⟨.fold, fdFold c⟩ = .fenced → (s.unit ⟨.fold, fdFold c⟩).debug = true → ∃ t, exec (.foldDebugRelease m) s = .next t ∧
      Answers s t m c .ok [] false ∧ (t.unit ⟨.fold, fdFold c⟩).debug = false ∧
      (t.unit ⟨.fold, fdFold c⟩).state = (if s.held ⟨.fold, fdFold c⟩ = true ∨ (s.unit ⟨.fold, fdFold c⟩).state ≠ .fenced then (s.unit ⟨.fold, fdFold c⟩).state
        else if (s.unit ⟨.fold, fdFold c⟩).capsDegraded.isSome then .degraded else .ready) ∧
      Only ([.units, .mboxes, .folds, .disp, .health, .deviceMem] ++ eventFields) s t))

/-- R214, R215: vector cores. R237, R238: contained faults. R233, R234, R243: collectors. R235, R236, R321: barriers. -/
def Obligations.VectorCoresCollectorsAndBarriers : Prop :=
  (∀ s (f : Fin 32) (k : Fin 16) r op, (∀ b, (s.fold f).chooseBundle k = some (b, r) → (s.fold f).bundleSlot b = none) → exec (.vectorIssue f k r op) s = .next s) ∧
  (∀ s (f : Fin 32) (k : Fin 16) r op b n, (s.fold f).chooseBundle k = some (b, r) → (s.fold f).bundleSlot b = some n →
    (∃ t, exec (.vectorIssue f k r op) s = .next t ∧ (if r = true then ((t.fold f).vcore k).lastRadio = b else ((t.fold f).vcore k).lastGrazing = b) ∧
      Only ([.dev, .units, .mboxes, .folds, .disp, .radio, .health, .power, .fresh, .deviceMem] ++ eventFields) s t) ∧
    (∀ d v, op = .imm d v → (tget ({} : VBundle) ((s.fold f).vcore k).bundles b).pc < (s.obj ((s.fold f).slot n).program).size → ∃ t, exec (.vectorIssue f k r op) s = .next t ∧
      (∀ i, i < 32 → (tget ({} : VBundle) ((t.fold f).vcore k).bundles b).reg d i = v) ∧
      (tget ({} : VBundle) ((t.fold f).vcore k).bundles b).pc = (tget ({} : VBundle) ((s.fold f).vcore k).bundles b).pc + Config.vecInstrBytes ∧
      (∀ g, g ≠ f.val → t.fold g = s.fold g) ∧ Only [.folds] s t)) ∧
  (∀ s (f : Fin 32) (k : Fin 8) p code, ((s.fold f).slot k).state = .empty → exec (.containedFault f k p code) s = .next s) ∧
  (∀ s (f : Fin 32) (k : Fin 8) p code, ((s.fold f).slot k).state ≠ .empty → ((s.fold f).slot k).radio = true → exec (.containedFault f k p code) s = exec .nocIntegrityError s) ∧
  (∀ s (f : Fin 32) (k : Fin 8) (p : FaultPlace) code, ((s.fold f).slot k).state ≠ .empty → ((s.fold f).slot k).radio = false → ∃ t, exec (.containedFault f k p code) s = .next t ∧
    (t.fold f).containedFaults = satInc 32 (s.fold f).containedFaults ∧ bitOf (t.fold f).vecEvent 0 = true ∧
    (t.fold f).lastFault = containedCode code + 16 * k.val + 256 * ((s.fold f).slot k).inst + 65536 * p.core.val ∧
    (t.fold f).faultLog = ((containedCode code, p.core.val, p.bundle.val, p.address.toNat % 2 ^ 48, s.time.now) :: (s.fold f).faultLog).take 64 ∧
    (((s.fold f).slot k).inst, ((s.fold f).slot k).ctxId) ∈ t.disp.resetting ∧ (∀ x ∈ s.disp.resetting, x ∈ t.disp.resetting) ∧
    (∀ g q, (s.fold g).tile = some q → ((s.fold g).slot q.slot).radio = false → (t.fold g).tile = none) ∧
    Only ([.dev, .units, .mboxes, .folds, .disp, .radio, .health, .power, .deviceMem] ++ eventFields) s t) ∧
  (∀ s, s.disp.resetting = [] → exec .partitionResetDone s = .next s) ∧
  (∀ s, s.disp.resetting ≠ [] → ∃ t, exec .partitionResetDone s = .next t ∧ t.disp.resetting = [] ∧ (∀ n ∈ s.grazingTasks, t.task n = none) ∧
    t.health.recoveryFoldUs = s.health.recoveryFoldUs + (s.time.now - s.disp.resetSince) * s.folds.length ∧
    Only ([.units, .mboxes, .insts, .tiers, .folds, .disp, .queues, .radio, .dma, .health, .power, .fresh, .deviceMem] ++ eventFields) s t) ∧
  (∀ s (d : Fin 2) u l x, u = State.flushDirect s.disp.direct s → u.collect (u.visitOrder d) 2 [] = (l, x) → ∃ t, exec (.collectorCycle d) s = .next t ∧
    (∀ f ∈ l, (t.fold f).cmp = (s.fold f).cmp.tail) ∧ (∀ f, f ∉ l → (t.fold f).cmp = (s.fold f).cmp) ∧ l.length ≤ 2 ∧
    (t.collector d).last = lastOf l (16 * d.val + (s.collector d).last) % 16 ∧
    (t.collector d).queueFull = (if x = true then satInc 64 (s.collector d).queueFull else (s.collector d).queueFull) ∧
    (t.collector d).maxBacklog = min 1023 (max (s.collector d).maxBacklog (s.backlog d)) ∧ (l = [] → (t.collector d).taken = (s.collector d).taken) ∧
    Only ([.insts, .spoof, .tiers, .folds, .disp, .queues, .prov, .sec, .power, .fresh, .deviceMem] ++ eventFields) s t) ∧
  (∀ s (b : Fin 256), s.disp.adds.head? ≠ some b.val → exec (.barrierAdd b) s = .next s) ∧
  (∀ s (b : Fin 256) rest, s.disp.adds = b.val :: rest → ∃ t, exec (.barrierAdd b) s = .next t ∧ t.disp.adds = rest ∧
    (if (s.barrier b).count + 1 = (s.barrier b).target then
      t.barrier b = { s.barrier b with count := 0, target := (s.barrier b).nextTarget } ∧
      (∀ q, (s.barrier b).action = .releaseQueue q → q ∉ t.disp.gated) ∧ (∀ w, (s.barrier b).action = .slotEnd w → w ∉ t.shep.sets.map (fun p => p.1))
     else t.barrier b = { s.barrier b with count := (s.barrier b).count + 1 } ∧ t.disp.gated = s.disp.gated ∧ t.shep = s.shep) ∧
    (∀ c, c ≠ b.val → t.barrier c = s.barrier c) ∧ Only [.folds, .disp, .shep] s t)

/-- R45, R46: the table. R34: register blocks. R14, R33: offsets that no map lists. R35: the debug block. -/
def Obligations.ThePelothTableAndReadsOfTheControlWindow : Prop :=
  (∀ s : State, s.units.published = false → ∀ o, o < 0x00100000 → s.readWord o = 0) ∧
  (∀ s : State, s.units.published = true → s.readWord 0 = 0x544C4550 ∧ s.readWord 0x10 = s.units.changeCount % 2 ^ 32 ∧
    s.readWord 0x14 = s.units.changeCount / 2 ^ 32 % 2 ^ 32 ∧ s.readWord 8 = s.table.length ∧ s.table.length < 0x00100000 ∧
    s.readWord (s.table.length - 8) = 0x0008FFFF) ∧
  (∀ u ∈ allUnits, regOffset u ≠ 0 → 0x03000000 ≤ regOffset u ∧ regOffset u % 4096 = 0 ∧ regOffset u + regSize u ≤ 0x04000000 ∧ 0 < regSize u ∧
    ∀ v ∈ allUnits, regOffset v ≠ 0 → v ≠ u → regOffset u + regSize u ≤ regOffset v ∨ regOffset v + regSize v ≤ regOffset u) ∧
  (∀ s mapping o v, (0x00110000 ≤ o ∧ o < 0x00200000) ∨ (0x00300000 ≤ o ∧ o < 0x01000000) ∨ (0x01010000 ≤ o ∧ o < 0x01100000) ∨ (0x01200000 ≤ o ∧ o < 0x02000000) ∨
      (0x03000000 ≤ o ∧ o < 0x04000000 ∧ ∀ u ∈ allUnits, hasBlock u = true → o < regOffset u ∨ regOffset u + regSize u ≤ o) →
    s.readWord o = 0 ∧ exec (.registerWrite mapping o false v) s = .next s) ∧
  (∀ l r, (∀ x ∈ l, r < x.off ∨ x.off + x.size ≤ r) → regWord l r = 0) ∧
  (∀ s mapping o v, s.dev.debugAccess = false → 0x02000000 ≤ o → o < 0x03000000 → s.readWord o = 0 ∧ exec (.registerWrite mapping o false v) s = .next s)

/-- R97: the device state stays, or changes along Table 03-6, whose rows are written out here. -/
def Obligations.TheDeviceChangesStateAlongTheTable : Prop :=
  ∀ i s t, exec i s = .next t → t.dev.dstate.code ≤ 9 ∧
    (t.dev.dstate = s.dev.dstate ∨ t.dev.dstate = .rom ∨ (s.dev.dstate, t.dev.dstate) ∈
      [(DState.rom, DState.loaded), (.loaded, .configuring), (.configuring, .serving), (.configuring, .standby), (.serving, .standby), (.standby, .serving),
       (.serving, .watched), (.watched, .serving), (.serving, .dusk), (.dusk, .serving), (.dusk, .night), (.standby, .night), (.night, .serving),
       (.serving, .draining), (.dusk, .draining), (.standby, .draining), (.watched, .draining), (.draining, .night),
       (.serving, .fenced), (.dusk, .fenced), (.draining, .fenced), (.standby, .fenced), (.watched, .fenced),
       (.loaded, .fenced), (.configuring, .fenced), (.night, .fenced),
       (.fenced, .serving), (.fenced, .loaded), (.fenced, .configuring), (.fenced, .night)])

/-- R104: the debug commands. R105: FAB_COMPAT_SET for a tenant's region. -/
def Obligations.CommandsThatAreDenied : Prop :=
  (∀ s (m : Fin 16) c, s.dev.debugAccess = false →
    (Taken s m.val 0x0901 c → (s.fold (fdFold c)).holdAsked ≠ some m.val → ∃ t, exec (.foldDebugHold m) s = .next t ∧ Answers s t m c .denied [] false ∧ Only ([.mboxes] ++ eventFields) s t) ∧
    (Taken s m.val 0x0902 c → ∃ t, exec (.foldDebugRead m) s = .next t ∧ Answers s t m c .denied [] false ∧ Only ([.mboxes] ++ eventFields) s t) ∧
    (Taken s m.val 0x0903 c → ∃ t, exec (.foldDebugRelease m) s = .next t ∧ Answers s t m c .denied [] false ∧ Only ([.mboxes] ++ eventFields) s t)) ∧
  (∀ s (m : Fin 16) c, Taken s m.val 0x0402 c → 3 ≤ c.argLength → c.arg 0x20 2 ≤ 4095 → c.arg 0x22 1 = 1 → s.dev.dstate.code ∈ [2, 3, 4, 7, 8] →
    (s.region (c.arg 0x20 2)).state ≠ .unused → (s.region (c.arg 0x20 2)).inst ≠ 0 → ∃ t, exec (.fabCompatSet m) s = .next t ∧
    Answers s t m c .denied [] false ∧ Only ([.mboxes] ++ eventFields) s t)
end

