-- ==== Sys2Proof/Laws/Table.lean ====
section
/-! SUPPORT. The laws of keyed tables and of memory: a read after a write, what a write leaves alone, and that every
operation keeps the canonical form. -/

namespace Sys2Proof.Machine

/-! ## Reads of tables -/

section Tables
variable {α : Type} (d : α)

@[simp] theorem tget_nil (k : Nat) : tget d [] k = d := rfl

theorem tget_tput_same (t : List (Nat × α)) (k : Nat) (v : α) : tget d (tput t k v) k = v := by
  induction t with
  | nil => simp [tput, tget]
  | cons p r ih =>
    obtain ⟨k', v'⟩ := p
    simp only [tput]
    split
    · simp [tget]
    · split
      · simp [tget]
      · simp [tget, *]

theorem tget_tput_ne (t : List (Nat × α)) {j k : Nat} (v : α) (h : j ≠ k) : tget d (tput t k v) j = tget d t j := by
  induction t with
  | nil => simp [tput, tget, h]
  | cons p r ih =>
    obtain ⟨k', v'⟩ := p
    simp only [tput]
    split
    · subst_vars; simp [tget, h]
    · split
      · simp [tget, h]
      · simp only [tget, ih]

@[simp] theorem tget_tdel_same (t : List (Nat × α)) (k : Nat) : tget d (tdel t k) k = d := by
  induction t with
  | nil => rfl
  | cons p r ih =>
    obtain ⟨k', v'⟩ := p
    simp only [tdel]
    split
    · exact ih
    · simp [tget, *]

theorem tget_tdel_ne (t : List (Nat × α)) {j k : Nat} (h : j ≠ k) : tget d (tdel t k) j = tget d t j := by
  induction t with
  | nil => rfl
  | cons p r ih =>
    obtain ⟨k', v'⟩ := p
    simp only [tdel]
    split
    · subst_vars; simp [tget, h, ih]
    · simp [tget, ih]

variable [DecidableEq α]

/-- A read after a write to the same key. -/
@[simp] theorem tget_tset_same (t : List (Nat × α)) (k : Nat) (v : α) : tget d (tset d t k v) k = v := by
  unfold tset
  split
  · subst_vars; simp
  · exact tget_tput_same d t k v

/-- A write leaves every other key alone. -/
theorem tget_tset_ne (t : List (Nat × α)) {j k : Nat} (v : α) (h : j ≠ k) : tget d (tset d t k v) j = tget d t j := by
  unfold tset
  split
  · exact tget_tdel_ne d t h
  · exact tget_tput_ne d t v h

/-- Both at once. -/
theorem tget_tset (t : List (Nat × α)) (j k : Nat) (v : α) :
    tget d (tset d t k v) j = if j = k then v else tget d t j := by
  split
  · subst_vars; simp
  · exact tget_tset_ne d t v ‹_›

@[simp] theorem tget_tmod_same (t : List (Nat × α)) (k : Nat) (f : α → α) : tget d (tmod d t k f) k = f (tget d t k) := by
  simp [tmod]

theorem tget_tmod_ne (t : List (Nat × α)) {j k : Nat} (f : α → α) (h : j ≠ k) :
    tget d (tmod d t k f) j = tget d t j := by
  simp [tmod, tget_tset_ne, h]

theorem tget_tmod (t : List (Nat × α)) (j k : Nat) (f : α → α) :
    tget d (tmod d t k f) j = if j = k then f (tget d t k) else tget d t j := by
  simp [tmod, tget_tset]

end Tables

/-! ## The canonical form -/

section Canonical
variable {α : Type}

theorem tsorted_weaken {lo : Nat} {t : List (Nat × α)} (h : tsorted (some lo) t = true) : tsorted none t = true := by
  cases t with
  | nil => rfl
  | cons p r => obtain ⟨k, v⟩ := p; simp_all [tsorted]

theorem tsorted_lower {lo lo' : Nat} {t : List (Nat × α)} (hl : lo' ≤ lo) (h : tsorted (some lo) t = true) :
    tsorted (some lo') t = true := by
  cases t with
  | nil => rfl
  | cons p r => obtain ⟨k, v⟩ := p; simp_all [tsorted]; omega

theorem tsorted_tput_some (t : List (Nat × α)) (lo k : Nat) (v : α) (hlo : lo < k)
    (h : tsorted (some lo) t = true) : tsorted (some lo) (tput t k v) = true := by
  induction t generalizing lo with
  | nil => simp [tput, tsorted, hlo]
  | cons p r ih =>
    obtain ⟨k', v'⟩ := p
    simp only [tsorted, Bool.and_eq_true, decide_eq_true_eq] at h
    simp only [tput]
    split
    · subst_vars; simp [tsorted, h]
    · split
      · simp [tsorted, *]
      · simp only [tsorted, Bool.and_eq_true, decide_eq_true_eq]
        exact ⟨h.1, ih k' (by omega) h.2⟩

theorem tsorted_tput (t : List (Nat × α)) (k : Nat) (v : α) (h : tsorted none t = true) :
    tsorted none (tput t k v) = true := by
  cases t with
  | nil => rfl
  | cons p r =>
    obtain ⟨k', v'⟩ := p
    simp only [tsorted] at h
    simp only [tput]
    split
    · subst_vars; simpa [tsorted] using h
    · split
      · simp [tsorted, *]
      · simp only [tsorted]
        exact tsorted_tput_some r k' k v (by omega) h

theorem tsorted_filter_some (t : List (Nat × α)) (lo : Nat) (q : Nat × α → Bool) (h : tsorted (some lo) t = true) :
    tsorted (some lo) (t.filter q) = true := by
  induction t generalizing lo with
  | nil => rfl
  | cons p r ih =>
    obtain ⟨k', v'⟩ := p
    simp only [tsorted, Bool.and_eq_true, decide_eq_true_eq] at h
    simp only [List.filter_cons]
    split
    · simp [tsorted, h.1, ih k' h.2]
    · exact ih lo (tsorted_lower (by omega) h.2)

/-- Dropping entries keeps the order of keys. -/
theorem tsorted_filter (t : List (Nat × α)) (q : Nat × α → Bool) (h : tsorted none t = true) :
    tsorted none (t.filter q) = true := by
  induction t with
  | nil => rfl
  | cons p r ih =>
    obtain ⟨k', v'⟩ := p
    simp only [tsorted] at h
    simp only [List.filter_cons]
    split
    · simpa [tsorted] using tsorted_filter_some r k' q h
    · exact ih (tsorted_weaken h)

theorem tdel_eq_filter (t : List (Nat × α)) (k : Nat) : tdel t k = t.filter (fun p => decide (k ≠ p.1)) := by
  induction t with
  | nil => rfl
  | cons p r ih =>
    obtain ⟨k', v'⟩ := p
    simp only [tdel, List.filter_cons]
    split <;> simp_all

theorem tsorted_tdel (t : List (Nat × α)) (k : Nat) (h : tsorted none t = true) : tsorted none (tdel t k) = true := by
  rw [tdel_eq_filter]; exact tsorted_filter t _ h

theorem mem_tput (t : List (Nat × α)) (k : Nat) (v : α) (p : Nat × α) (h : p ∈ tput t k v) : p = (k, v) ∨ p ∈ t := by
  induction t with
  | nil =>
    simp only [tput, List.mem_cons, List.not_mem_nil, or_false] at h
    exact Or.inl h
  | cons q r ih =>
    obtain ⟨k', v'⟩ := q
    simp only [tput] at h
    split at h
    · rcases List.mem_cons.1 h with h | h
      · exact Or.inl h
      · exact Or.inr (List.mem_cons_of_mem _ h)
    · split at h
      · rcases List.mem_cons.1 h with h | h
        · exact Or.inl h
        · exact Or.inr h
      · rcases List.mem_cons.1 h with h | h
        · exact Or.inr (h ▸ List.mem_cons_self)
        · rcases ih h with h | h
          · exact Or.inl h
          · exact Or.inr (List.mem_cons_of_mem _ h)

variable [DecidableEq α] (d : α)

/-- A write keeps the canonical form. -/
theorem twf_tset (t : List (Nat × α)) (k : Nat) (v : α) (h : twf d t = true) : twf d (tset d t k v) = true := by
  simp only [twf, Bool.and_eq_true, List.all_eq_true, decide_eq_true_eq] at h ⊢
  unfold tset
  split
  · rw [tdel_eq_filter]
    exact ⟨tsorted_filter t _ h.1, fun p hp => h.2 p ((List.mem_filter.1 hp).1)⟩
  · refine ⟨tsorted_tput t k v h.1, fun p hp => ?_⟩
    rcases mem_tput t k v p hp with rfl | hp
    · assumption
    · exact h.2 p hp

theorem twf_tmod (t : List (Nat × α)) (k : Nat) (f : α → α) (h : twf d t = true) : twf d (tmod d t k f) = true :=
  twf_tset d t k _ h

theorem twf_filter (t : List (Nat × α)) (q : Nat × α → Bool) (h : twf d t = true) : twf d (t.filter q) = true := by
  simp only [twf, Bool.and_eq_true, List.all_eq_true, decide_eq_true_eq] at h ⊢
  exact ⟨tsorted_filter t q h.1, fun p hp => h.2 p ((List.mem_filter.1 hp).1)⟩

end Canonical

/-! ## Memory -/

namespace MemLaws

/-- A byte read after it was written. -/
@[simp] theorem rd_wr_same (m : Mem) (a : Nat) (b : Byte) : (m.wr a b).rd a = b := by simp [Mem.rd, Mem.wr]

/-- A byte write leaves every other byte alone. -/
theorem rd_wr_ne (m : Mem) {a c : Nat} (b : Byte) (h : c ≠ a) : (m.wr a b).rd c = m.rd c := by
  simp [Mem.rd, Mem.wr, tget_tset_ne, h]

/-- Bytes outside a written byte string stay. -/
theorem rd_wrN_out (m : Mem) (a c : Nat) (bs : Bytes) (h : c < a ∨ a + bs.length ≤ c) : (m.wrN a bs).rd c = m.rd c := by
  induction bs generalizing m a with
  | nil => rfl
  | cons b r ih =>
    simp only [List.length_cons] at h
    simp only [Mem.wrN]
    rw [ih _ _ (by omega), rd_wr_ne _ _ (by omega)]

/-- Bytes of a written byte string read as written. -/
theorem rd_wrN_in (m : Mem) (a i : Nat) (bs : Bytes) (h : i < bs.length) : (m.wrN a bs).rd (a + i) = bs[i] := by
  induction bs generalizing m a i with
  | nil => simp at h
  | cons b r ih =>
    simp only [Mem.wrN]
    cases i with
    | zero => rw [Nat.add_zero, rd_wrN_out _ _ _ _ (by omega)]; simp
    | succ i =>
      have := ih (m.wr a b) (a + 1) i (by simpa using h)
      rw [show a + (i + 1) = a + 1 + i by omega, this]; simp

@[simp] theorem rd_store (m : Mem) (a c : Nat) (bs : Bytes) : (m.store a bs).rd c = (m.wrN a bs).rd c := rfl
@[simp] theorem rd_mark (m : Mem) (l c : Nat) : (m.mark l).rd c = m.rd c := rfl
@[simp] theorem rd_unmark (m : Mem) (l c : Nat) : (m.unmark l).rd c = m.rd c := rfl

/-! ### The canonical form of memory -/

theorem wf_empty : Mem.empty.wf = true := rfl

theorem wf_wr (m : Mem) (a : Nat) (b : Byte) (h : m.wf = true) : (m.wr a b).wf = true := by
  simp only [Mem.wf, Mem.wr, Bool.and_eq_true] at h ⊢
  exact ⟨twf_tset _ _ _ _ h.1, h.2⟩

theorem wf_wrN (m : Mem) (a : Nat) (bs : Bytes) (h : m.wf = true) : (m.wrN a bs).wf = true := by
  induction bs generalizing m a with
  | nil => exact h
  | cons b r ih => exact ih _ _ (wf_wr m a b h)

theorem wf_mark (m : Mem) (l : Nat) (h : m.wf = true) : (m.mark l).wf = true := by
  simp only [Mem.wf, Mem.mark, Bool.and_eq_true] at h ⊢
  exact ⟨h.1, tsorted_tput _ _ _ h.2⟩

theorem wf_unmark (m : Mem) (l : Nat) (h : m.wf = true) : (m.unmark l).wf = true := by
  simp only [Mem.wf, Mem.unmark, Bool.and_eq_true] at h ⊢
  exact ⟨h.1, tsorted_tdel _ _ h.2⟩

theorem wf_foldl {β : Type} (l : List β) (f : Mem → β → Mem) (hf : ∀ m b, m.wf = true → (f m b).wf = true) (m : Mem)
    (h : m.wf = true) : (l.foldl f m).wf = true := by
  induction l generalizing m with
  | nil => exact h
  | cons b r ih => exact ih _ (hf m b h)

theorem wf_markN (m : Mem) (a n : Nat) (h : m.wf = true) : (m.markN a n).wf = true :=
  wf_foldl _ _ (fun m b h => wf_mark m b h) m h

theorem wf_store (m : Mem) (a : Nat) (bs : Bytes) (h : m.wf = true) : (m.store a bs).wf = true := by
  have h' := wf_wrN m a bs h
  simp only [Mem.wf, Mem.store, Bool.and_eq_true] at h' ⊢
  exact ⟨h'.1, tsorted_filter _ _ h'.2⟩

theorem wf_zero (m : Mem) (a n : Nat) (h : m.wf = true) : (m.zero a n).wf = true := by
  simp only [Mem.wf, Mem.zero, Bool.and_eq_true] at h ⊢
  exact ⟨twf_filter _ _ _ h.1, tsorted_filter _ _ h.2⟩

theorem wf_copy (m : Mem) (src dst n : Nat) (h : m.wf = true) : (m.copy src dst n).wf = true := by
  unfold Mem.copy
  exact wf_foldl _ _ (fun m b h => wf_mark m _ h) _ (wf_foldl _ _ (fun m b h => wf_wr m _ _ h) _ (wf_zero m _ _ h))

end MemLaws

end Sys2Proof.Machine
end

