-- ==== Sys2Proof/Laws/State.lean ====
section
/-! SUPPORT. The updates of `State` field by field: each leaves every field but its own as it is, and what it writes
reads back. -/

namespace Sys2Proof.Machine

variable (s : State)

/-! ### `State.modMbox` -/

@[simp] theorem State.modMbox_pending (m : Nat) (f : Mailbox → Mailbox) : (s.modMbox m f).pending = s.pending := rfl
@[simp] theorem State.modMbox_dev (m : Nat) (f : Mailbox → Mailbox) : (s.modMbox m f).dev = s.dev := rfl
@[simp] theorem State.modMbox_units (m : Nat) (f : Mailbox → Mailbox) : (s.modMbox m f).units = s.units := rfl
@[simp] theorem State.modMbox_rings (m : Nat) (f : Mailbox → Mailbox) : (s.modMbox m f).rings = s.rings := rfl
@[simp] theorem State.modMbox_evPages (m : Nat) (f : Mailbox → Mailbox) : (s.modMbox m f).evPages = s.evPages := rfl
@[simp] theorem State.modMbox_dbPages (m : Nat) (f : Mailbox → Mailbox) : (s.modMbox m f).dbPages = s.dbPages := rfl
@[simp] theorem State.modMbox_insts (m : Nat) (f : Mailbox → Mailbox) : (s.modMbox m f).insts = s.insts := rfl
@[simp] theorem State.modMbox_spoof (m : Nat) (f : Mailbox → Mailbox) : (s.modMbox m f).spoof = s.spoof := rfl
@[simp] theorem State.modMbox_tiers (m : Nat) (f : Mailbox → Mailbox) : (s.modMbox m f).tiers = s.tiers := rfl
@[simp] theorem State.modMbox_mem (m : Nat) (f : Mailbox → Mailbox) : (s.modMbox m f).mem = s.mem := rfl
@[simp] theorem State.modMbox_folds (m : Nat) (f : Mailbox → Mailbox) : (s.modMbox m f).folds = s.folds := rfl
@[simp] theorem State.modMbox_disp (m : Nat) (f : Mailbox → Mailbox) : (s.modMbox m f).disp = s.disp := rfl
@[simp] theorem State.modMbox_queues (m : Nat) (f : Mailbox → Mailbox) : (s.modMbox m f).queues = s.queues := rfl
@[simp] theorem State.modMbox_radio (m : Nat) (f : Mailbox → Mailbox) : (s.modMbox m f).radio = s.radio := rfl
@[simp] theorem State.modMbox_shep (m : Nat) (f : Mailbox → Mailbox) : (s.modMbox m f).shep = s.shep := rfl
@[simp] theorem State.modMbox_settings (m : Nat) (f : Mailbox → Mailbox) : (s.modMbox m f).settings = s.settings := rfl
@[simp] theorem State.modMbox_dma (m : Nat) (f : Mailbox → Mailbox) : (s.modMbox m f).dma = s.dma := rfl
@[simp] theorem State.modMbox_fh (m : Nat) (f : Mailbox → Mailbox) : (s.modMbox m f).fh = s.fh := rfl
@[simp] theorem State.modMbox_time (m : Nat) (f : Mailbox → Mailbox) : (s.modMbox m f).time = s.time := rfl
@[simp] theorem State.modMbox_fab (m : Nat) (f : Mailbox → Mailbox) : (s.modMbox m f).fab = s.fab := rfl
@[simp] theorem State.modMbox_fabMem (m : Nat) (f : Mailbox → Mailbox) : (s.modMbox m f).fabMem = s.fabMem := rfl
@[simp] theorem State.modMbox_prov (m : Nat) (f : Mailbox → Mailbox) : (s.modMbox m f).prov = s.prov := rfl
@[simp] theorem State.modMbox_health (m : Nat) (f : Mailbox → Mailbox) : (s.modMbox m f).health = s.health := rfl
@[simp] theorem State.modMbox_flash (m : Nat) (f : Mailbox → Mailbox) : (s.modMbox m f).flash = s.flash := rfl
@[simp] theorem State.modMbox_fuses (m : Nat) (f : Mailbox → Mailbox) : (s.modMbox m f).fuses = s.fuses := rfl
@[simp] theorem State.modMbox_sec (m : Nat) (f : Mailbox → Mailbox) : (s.modMbox m f).sec = s.sec := rfl
@[simp] theorem State.modMbox_power (m : Nat) (f : Mailbox → Mailbox) : (s.modMbox m f).power = s.power := rfl
@[simp] theorem State.modMbox_pkg (m : Nat) (f : Mailbox → Mailbox) : (s.modMbox m f).pkg = s.pkg := rfl
@[simp] theorem State.modMbox_out (m : Nat) (f : Mailbox → Mailbox) : (s.modMbox m f).out = s.out := rfl
@[simp] theorem State.modMbox_fresh (m : Nat) (f : Mailbox → Mailbox) : (s.modMbox m f).fresh = s.fresh := rfl

/-! ### `State.modRing` -/

@[simp] theorem State.modRing_pending (k : Nat) (f : EventRing → EventRing) : (s.modRing k f).pending = s.pending := rfl
@[simp] theorem State.modRing_dev (k : Nat) (f : EventRing → EventRing) : (s.modRing k f).dev = s.dev := rfl
@[simp] theorem State.modRing_units (k : Nat) (f : EventRing → EventRing) : (s.modRing k f).units = s.units := rfl
@[simp] theorem State.modRing_mboxes (k : Nat) (f : EventRing → EventRing) : (s.modRing k f).mboxes = s.mboxes := rfl
@[simp] theorem State.modRing_evPages (k : Nat) (f : EventRing → EventRing) : (s.modRing k f).evPages = s.evPages := rfl
@[simp] theorem State.modRing_dbPages (k : Nat) (f : EventRing → EventRing) : (s.modRing k f).dbPages = s.dbPages := rfl
@[simp] theorem State.modRing_insts (k : Nat) (f : EventRing → EventRing) : (s.modRing k f).insts = s.insts := rfl
@[simp] theorem State.modRing_spoof (k : Nat) (f : EventRing → EventRing) : (s.modRing k f).spoof = s.spoof := rfl
@[simp] theorem State.modRing_tiers (k : Nat) (f : EventRing → EventRing) : (s.modRing k f).tiers = s.tiers := rfl
@[simp] theorem State.modRing_mem (k : Nat) (f : EventRing → EventRing) : (s.modRing k f).mem = s.mem := rfl
@[simp] theorem State.modRing_folds (k : Nat) (f : EventRing → EventRing) : (s.modRing k f).folds = s.folds := rfl
@[simp] theorem State.modRing_disp (k : Nat) (f : EventRing → EventRing) : (s.modRing k f).disp = s.disp := rfl
@[simp] theorem State.modRing_queues (k : Nat) (f : EventRing → EventRing) : (s.modRing k f).queues = s.queues := rfl
@[simp] theorem State.modRing_radio (k : Nat) (f : EventRing → EventRing) : (s.modRing k f).radio = s.radio := rfl
@[simp] theorem State.modRing_shep (k : Nat) (f : EventRing → EventRing) : (s.modRing k f).shep = s.shep := rfl
@[simp] theorem State.modRing_settings (k : Nat) (f : EventRing → EventRing) : (s.modRing k f).settings = s.settings := rfl
@[simp] theorem State.modRing_dma (k : Nat) (f : EventRing → EventRing) : (s.modRing k f).dma = s.dma := rfl
@[simp] theorem State.modRing_fh (k : Nat) (f : EventRing → EventRing) : (s.modRing k f).fh = s.fh := rfl
@[simp] theorem State.modRing_time (k : Nat) (f : EventRing → EventRing) : (s.modRing k f).time = s.time := rfl
@[simp] theorem State.modRing_fab (k : Nat) (f : EventRing → EventRing) : (s.modRing k f).fab = s.fab := rfl
@[simp] theorem State.modRing_fabMem (k : Nat) (f : EventRing → EventRing) : (s.modRing k f).fabMem = s.fabMem := rfl
@[simp] theorem State.modRing_prov (k : Nat) (f : EventRing → EventRing) : (s.modRing k f).prov = s.prov := rfl
@[simp] theorem State.modRing_health (k : Nat) (f : EventRing → EventRing) : (s.modRing k f).health = s.health := rfl
@[simp] theorem State.modRing_flash (k : Nat) (f : EventRing → EventRing) : (s.modRing k f).flash = s.flash := rfl
@[simp] theorem State.modRing_fuses (k : Nat) (f : EventRing → EventRing) : (s.modRing k f).fuses = s.fuses := rfl
@[simp] theorem State.modRing_sec (k : Nat) (f : EventRing → EventRing) : (s.modRing k f).sec = s.sec := rfl
@[simp] theorem State.modRing_power (k : Nat) (f : EventRing → EventRing) : (s.modRing k f).power = s.power := rfl
@[simp] theorem State.modRing_pkg (k : Nat) (f : EventRing → EventRing) : (s.modRing k f).pkg = s.pkg := rfl
@[simp] theorem State.modRing_out (k : Nat) (f : EventRing → EventRing) : (s.modRing k f).out = s.out := rfl
@[simp] theorem State.modRing_fresh (k : Nat) (f : EventRing → EventRing) : (s.modRing k f).fresh = s.fresh := rfl

/-! ### `State.modDbPage` -/

@[simp] theorem State.modDbPage_pending (k : Nat) (f : DbPage → DbPage) : (s.modDbPage k f).pending = s.pending := rfl
@[simp] theorem State.modDbPage_dev (k : Nat) (f : DbPage → DbPage) : (s.modDbPage k f).dev = s.dev := rfl
@[simp] theorem State.modDbPage_units (k : Nat) (f : DbPage → DbPage) : (s.modDbPage k f).units = s.units := rfl
@[simp] theorem State.modDbPage_mboxes (k : Nat) (f : DbPage → DbPage) : (s.modDbPage k f).mboxes = s.mboxes := rfl
@[simp] theorem State.modDbPage_rings (k : Nat) (f : DbPage → DbPage) : (s.modDbPage k f).rings = s.rings := rfl
@[simp] theorem State.modDbPage_evPages (k : Nat) (f : DbPage → DbPage) : (s.modDbPage k f).evPages = s.evPages := rfl
@[simp] theorem State.modDbPage_insts (k : Nat) (f : DbPage → DbPage) : (s.modDbPage k f).insts = s.insts := rfl
@[simp] theorem State.modDbPage_spoof (k : Nat) (f : DbPage → DbPage) : (s.modDbPage k f).spoof = s.spoof := rfl
@[simp] theorem State.modDbPage_tiers (k : Nat) (f : DbPage → DbPage) : (s.modDbPage k f).tiers = s.tiers := rfl
@[simp] theorem State.modDbPage_mem (k : Nat) (f : DbPage → DbPage) : (s.modDbPage k f).mem = s.mem := rfl
@[simp] theorem State.modDbPage_folds (k : Nat) (f : DbPage → DbPage) : (s.modDbPage k f).folds = s.folds := rfl
@[simp] theorem State.modDbPage_disp (k : Nat) (f : DbPage → DbPage) : (s.modDbPage k f).disp = s.disp := rfl
@[simp] theorem State.modDbPage_queues (k : Nat) (f : DbPage → DbPage) : (s.modDbPage k f).queues = s.queues := rfl
@[simp] theorem State.modDbPage_radio (k : Nat) (f : DbPage → DbPage) : (s.modDbPage k f).radio = s.radio := rfl
@[simp] theorem State.modDbPage_shep (k : Nat) (f : DbPage → DbPage) : (s.modDbPage k f).shep = s.shep := rfl
@[simp] theorem State.modDbPage_settings (k : Nat) (f : DbPage → DbPage) : (s.modDbPage k f).settings = s.settings := rfl
@[simp] theorem State.modDbPage_dma (k : Nat) (f : DbPage → DbPage) : (s.modDbPage k f).dma = s.dma := rfl
@[simp] theorem State.modDbPage_fh (k : Nat) (f : DbPage → DbPage) : (s.modDbPage k f).fh = s.fh := rfl
@[simp] theorem State.modDbPage_time (k : Nat) (f : DbPage → DbPage) : (s.modDbPage k f).time = s.time := rfl
@[simp] theorem State.modDbPage_fab (k : Nat) (f : DbPage → DbPage) : (s.modDbPage k f).fab = s.fab := rfl
@[simp] theorem State.modDbPage_fabMem (k : Nat) (f : DbPage → DbPage) : (s.modDbPage k f).fabMem = s.fabMem := rfl
@[simp] theorem State.modDbPage_prov (k : Nat) (f : DbPage → DbPage) : (s.modDbPage k f).prov = s.prov := rfl
@[simp] theorem State.modDbPage_health (k : Nat) (f : DbPage → DbPage) : (s.modDbPage k f).health = s.health := rfl
@[simp] theorem State.modDbPage_flash (k : Nat) (f : DbPage → DbPage) : (s.modDbPage k f).flash = s.flash := rfl
@[simp] theorem State.modDbPage_fuses (k : Nat) (f : DbPage → DbPage) : (s.modDbPage k f).fuses = s.fuses := rfl
@[simp] theorem State.modDbPage_sec (k : Nat) (f : DbPage → DbPage) : (s.modDbPage k f).sec = s.sec := rfl
@[simp] theorem State.modDbPage_power (k : Nat) (f : DbPage → DbPage) : (s.modDbPage k f).power = s.power := rfl
@[simp] theorem State.modDbPage_pkg (k : Nat) (f : DbPage → DbPage) : (s.modDbPage k f).pkg = s.pkg := rfl
@[simp] theorem State.modDbPage_out (k : Nat) (f : DbPage → DbPage) : (s.modDbPage k f).out = s.out := rfl
@[simp] theorem State.modDbPage_fresh (k : Nat) (f : DbPage → DbPage) : (s.modDbPage k f).fresh = s.fresh := rfl

/-! ### `State.modInst` -/

@[simp] theorem State.modInst_pending (i : Nat) (f : Inst → Inst) : (s.modInst i f).pending = s.pending := rfl
@[simp] theorem State.modInst_dev (i : Nat) (f : Inst → Inst) : (s.modInst i f).dev = s.dev := rfl
@[simp] theorem State.modInst_units (i : Nat) (f : Inst → Inst) : (s.modInst i f).units = s.units := rfl
@[simp] theorem State.modInst_mboxes (i : Nat) (f : Inst → Inst) : (s.modInst i f).mboxes = s.mboxes := rfl
@[simp] theorem State.modInst_rings (i : Nat) (f : Inst → Inst) : (s.modInst i f).rings = s.rings := rfl
@[simp] theorem State.modInst_evPages (i : Nat) (f : Inst → Inst) : (s.modInst i f).evPages = s.evPages := rfl
@[simp] theorem State.modInst_dbPages (i : Nat) (f : Inst → Inst) : (s.modInst i f).dbPages = s.dbPages := rfl
@[simp] theorem State.modInst_spoof (i : Nat) (f : Inst → Inst) : (s.modInst i f).spoof = s.spoof := rfl
@[simp] theorem State.modInst_tiers (i : Nat) (f : Inst → Inst) : (s.modInst i f).tiers = s.tiers := rfl
@[simp] theorem State.modInst_mem (i : Nat) (f : Inst → Inst) : (s.modInst i f).mem = s.mem := rfl
@[simp] theorem State.modInst_folds (i : Nat) (f : Inst → Inst) : (s.modInst i f).folds = s.folds := rfl
@[simp] theorem State.modInst_disp (i : Nat) (f : Inst → Inst) : (s.modInst i f).disp = s.disp := rfl
@[simp] theorem State.modInst_queues (i : Nat) (f : Inst → Inst) : (s.modInst i f).queues = s.queues := rfl
@[simp] theorem State.modInst_radio (i : Nat) (f : Inst → Inst) : (s.modInst i f).radio = s.radio := rfl
@[simp] theorem State.modInst_shep (i : Nat) (f : Inst → Inst) : (s.modInst i f).shep = s.shep := rfl
@[simp] theorem State.modInst_settings (i : Nat) (f : Inst → Inst) : (s.modInst i f).settings = s.settings := rfl
@[simp] theorem State.modInst_dma (i : Nat) (f : Inst → Inst) : (s.modInst i f).dma = s.dma := rfl
@[simp] theorem State.modInst_fh (i : Nat) (f : Inst → Inst) : (s.modInst i f).fh = s.fh := rfl
@[simp] theorem State.modInst_time (i : Nat) (f : Inst → Inst) : (s.modInst i f).time = s.time := rfl
@[simp] theorem State.modInst_fab (i : Nat) (f : Inst → Inst) : (s.modInst i f).fab = s.fab := rfl
@[simp] theorem State.modInst_fabMem (i : Nat) (f : Inst → Inst) : (s.modInst i f).fabMem = s.fabMem := rfl
@[simp] theorem State.modInst_prov (i : Nat) (f : Inst → Inst) : (s.modInst i f).prov = s.prov := rfl
@[simp] theorem State.modInst_health (i : Nat) (f : Inst → Inst) : (s.modInst i f).health = s.health := rfl
@[simp] theorem State.modInst_flash (i : Nat) (f : Inst → Inst) : (s.modInst i f).flash = s.flash := rfl
@[simp] theorem State.modInst_fuses (i : Nat) (f : Inst → Inst) : (s.modInst i f).fuses = s.fuses := rfl
@[simp] theorem State.modInst_sec (i : Nat) (f : Inst → Inst) : (s.modInst i f).sec = s.sec := rfl
@[simp] theorem State.modInst_power (i : Nat) (f : Inst → Inst) : (s.modInst i f).power = s.power := rfl
@[simp] theorem State.modInst_pkg (i : Nat) (f : Inst → Inst) : (s.modInst i f).pkg = s.pkg := rfl
@[simp] theorem State.modInst_out (i : Nat) (f : Inst → Inst) : (s.modInst i f).out = s.out := rfl
@[simp] theorem State.modInst_fresh (i : Nat) (f : Inst → Inst) : (s.modInst i f).fresh = s.fresh := rfl

/-! ### `State.modObj` -/

@[simp] theorem State.modObj_pending (e : Nat) (f : Obj → Obj) : (s.modObj e f).pending = s.pending := rfl
@[simp] theorem State.modObj_dev (e : Nat) (f : Obj → Obj) : (s.modObj e f).dev = s.dev := rfl
@[simp] theorem State.modObj_units (e : Nat) (f : Obj → Obj) : (s.modObj e f).units = s.units := rfl
@[simp] theorem State.modObj_mboxes (e : Nat) (f : Obj → Obj) : (s.modObj e f).mboxes = s.mboxes := rfl
@[simp] theorem State.modObj_rings (e : Nat) (f : Obj → Obj) : (s.modObj e f).rings = s.rings := rfl
@[simp] theorem State.modObj_evPages (e : Nat) (f : Obj → Obj) : (s.modObj e f).evPages = s.evPages := rfl
@[simp] theorem State.modObj_dbPages (e : Nat) (f : Obj → Obj) : (s.modObj e f).dbPages = s.dbPages := rfl
@[simp] theorem State.modObj_insts (e : Nat) (f : Obj → Obj) : (s.modObj e f).insts = s.insts := rfl
@[simp] theorem State.modObj_spoof (e : Nat) (f : Obj → Obj) : (s.modObj e f).spoof = s.spoof := rfl
@[simp] theorem State.modObj_mem (e : Nat) (f : Obj → Obj) : (s.modObj e f).mem = s.mem := rfl
@[simp] theorem State.modObj_folds (e : Nat) (f : Obj → Obj) : (s.modObj e f).folds = s.folds := rfl
@[simp] theorem State.modObj_disp (e : Nat) (f : Obj → Obj) : (s.modObj e f).disp = s.disp := rfl
@[simp] theorem State.modObj_queues (e : Nat) (f : Obj → Obj) : (s.modObj e f).queues = s.queues := rfl
@[simp] theorem State.modObj_radio (e : Nat) (f : Obj → Obj) : (s.modObj e f).radio = s.radio := rfl
@[simp] theorem State.modObj_shep (e : Nat) (f : Obj → Obj) : (s.modObj e f).shep = s.shep := rfl
@[simp] theorem State.modObj_settings (e : Nat) (f : Obj → Obj) : (s.modObj e f).settings = s.settings := rfl
@[simp] theorem State.modObj_dma (e : Nat) (f : Obj → Obj) : (s.modObj e f).dma = s.dma := rfl
@[simp] theorem State.modObj_fh (e : Nat) (f : Obj → Obj) : (s.modObj e f).fh = s.fh := rfl
@[simp] theorem State.modObj_time (e : Nat) (f : Obj → Obj) : (s.modObj e f).time = s.time := rfl
@[simp] theorem State.modObj_fab (e : Nat) (f : Obj → Obj) : (s.modObj e f).fab = s.fab := rfl
@[simp] theorem State.modObj_fabMem (e : Nat) (f : Obj → Obj) : (s.modObj e f).fabMem = s.fabMem := rfl
@[simp] theorem State.modObj_prov (e : Nat) (f : Obj → Obj) : (s.modObj e f).prov = s.prov := rfl
@[simp] theorem State.modObj_health (e : Nat) (f : Obj → Obj) : (s.modObj e f).health = s.health := rfl
@[simp] theorem State.modObj_flash (e : Nat) (f : Obj → Obj) : (s.modObj e f).flash = s.flash := rfl
@[simp] theorem State.modObj_fuses (e : Nat) (f : Obj → Obj) : (s.modObj e f).fuses = s.fuses := rfl
@[simp] theorem State.modObj_sec (e : Nat) (f : Obj → Obj) : (s.modObj e f).sec = s.sec := rfl
@[simp] theorem State.modObj_power (e : Nat) (f : Obj → Obj) : (s.modObj e f).power = s.power := rfl
@[simp] theorem State.modObj_pkg (e : Nat) (f : Obj → Obj) : (s.modObj e f).pkg = s.pkg := rfl
@[simp] theorem State.modObj_out (e : Nat) (f : Obj → Obj) : (s.modObj e f).out = s.out := rfl
@[simp] theorem State.modObj_fresh (e : Nat) (f : Obj → Obj) : (s.modObj e f).fresh = s.fresh := rfl

/-! ### `State.modMover` -/

@[simp] theorem State.modMover_pending (h : Nat) (f : Mover → Mover) : (s.modMover h f).pending = s.pending := rfl
@[simp] theorem State.modMover_dev (h : Nat) (f : Mover → Mover) : (s.modMover h f).dev = s.dev := rfl
@[simp] theorem State.modMover_units (h : Nat) (f : Mover → Mover) : (s.modMover h f).units = s.units := rfl
@[simp] theorem State.modMover_mboxes (h : Nat) (f : Mover → Mover) : (s.modMover h f).mboxes = s.mboxes := rfl
@[simp] theorem State.modMover_rings (h : Nat) (f : Mover → Mover) : (s.modMover h f).rings = s.rings := rfl
@[simp] theorem State.modMover_evPages (h : Nat) (f : Mover → Mover) : (s.modMover h f).evPages = s.evPages := rfl
@[simp] theorem State.modMover_dbPages (h : Nat) (f : Mover → Mover) : (s.modMover h f).dbPages = s.dbPages := rfl
@[simp] theorem State.modMover_insts (h : Nat) (f : Mover → Mover) : (s.modMover h f).insts = s.insts := rfl
@[simp] theorem State.modMover_spoof (h : Nat) (f : Mover → Mover) : (s.modMover h f).spoof = s.spoof := rfl
@[simp] theorem State.modMover_mem (h : Nat) (f : Mover → Mover) : (s.modMover h f).mem = s.mem := rfl
@[simp] theorem State.modMover_folds (h : Nat) (f : Mover → Mover) : (s.modMover h f).folds = s.folds := rfl
@[simp] theorem State.modMover_disp (h : Nat) (f : Mover → Mover) : (s.modMover h f).disp = s.disp := rfl
@[simp] theorem State.modMover_queues (h : Nat) (f : Mover → Mover) : (s.modMover h f).queues = s.queues := rfl
@[simp] theorem State.modMover_radio (h : Nat) (f : Mover → Mover) : (s.modMover h f).radio = s.radio := rfl
@[simp] theorem State.modMover_shep (h : Nat) (f : Mover → Mover) : (s.modMover h f).shep = s.shep := rfl
@[simp] theorem State.modMover_settings (h : Nat) (f : Mover → Mover) : (s.modMover h f).settings = s.settings := rfl
@[simp] theorem State.modMover_dma (h : Nat) (f : Mover → Mover) : (s.modMover h f).dma = s.dma := rfl
@[simp] theorem State.modMover_fh (h : Nat) (f : Mover → Mover) : (s.modMover h f).fh = s.fh := rfl
@[simp] theorem State.modMover_time (h : Nat) (f : Mover → Mover) : (s.modMover h f).time = s.time := rfl
@[simp] theorem State.modMover_fab (h : Nat) (f : Mover → Mover) : (s.modMover h f).fab = s.fab := rfl
@[simp] theorem State.modMover_fabMem (h : Nat) (f : Mover → Mover) : (s.modMover h f).fabMem = s.fabMem := rfl
@[simp] theorem State.modMover_prov (h : Nat) (f : Mover → Mover) : (s.modMover h f).prov = s.prov := rfl
@[simp] theorem State.modMover_health (h : Nat) (f : Mover → Mover) : (s.modMover h f).health = s.health := rfl
@[simp] theorem State.modMover_flash (h : Nat) (f : Mover → Mover) : (s.modMover h f).flash = s.flash := rfl
@[simp] theorem State.modMover_fuses (h : Nat) (f : Mover → Mover) : (s.modMover h f).fuses = s.fuses := rfl
@[simp] theorem State.modMover_sec (h : Nat) (f : Mover → Mover) : (s.modMover h f).sec = s.sec := rfl
@[simp] theorem State.modMover_power (h : Nat) (f : Mover → Mover) : (s.modMover h f).power = s.power := rfl
@[simp] theorem State.modMover_pkg (h : Nat) (f : Mover → Mover) : (s.modMover h f).pkg = s.pkg := rfl
@[simp] theorem State.modMover_out (h : Nat) (f : Mover → Mover) : (s.modMover h f).out = s.out := rfl
@[simp] theorem State.modMover_fresh (h : Nat) (f : Mover → Mover) : (s.modMover h f).fresh = s.fresh := rfl

/-! ### `State.modStackCtl` -/

@[simp] theorem State.modStackCtl_pending (k : Nat) (f : StackCtl → StackCtl) : (s.modStackCtl k f).pending = s.pending := rfl
@[simp] theorem State.modStackCtl_dev (k : Nat) (f : StackCtl → StackCtl) : (s.modStackCtl k f).dev = s.dev := rfl
@[simp] theorem State.modStackCtl_units (k : Nat) (f : StackCtl → StackCtl) : (s.modStackCtl k f).units = s.units := rfl
@[simp] theorem State.modStackCtl_mboxes (k : Nat) (f : StackCtl → StackCtl) : (s.modStackCtl k f).mboxes = s.mboxes := rfl
@[simp] theorem State.modStackCtl_rings (k : Nat) (f : StackCtl → StackCtl) : (s.modStackCtl k f).rings = s.rings := rfl
@[simp] theorem State.modStackCtl_evPages (k : Nat) (f : StackCtl → StackCtl) : (s.modStackCtl k f).evPages = s.evPages := rfl
@[simp] theorem State.modStackCtl_dbPages (k : Nat) (f : StackCtl → StackCtl) : (s.modStackCtl k f).dbPages = s.dbPages := rfl
@[simp] theorem State.modStackCtl_insts (k : Nat) (f : StackCtl → StackCtl) : (s.modStackCtl k f).insts = s.insts := rfl
@[simp] theorem State.modStackCtl_spoof (k : Nat) (f : StackCtl → StackCtl) : (s.modStackCtl k f).spoof = s.spoof := rfl
@[simp] theorem State.modStackCtl_mem (k : Nat) (f : StackCtl → StackCtl) : (s.modStackCtl k f).mem = s.mem := rfl
@[simp] theorem State.modStackCtl_folds (k : Nat) (f : StackCtl → StackCtl) : (s.modStackCtl k f).folds = s.folds := rfl
@[simp] theorem State.modStackCtl_disp (k : Nat) (f : StackCtl → StackCtl) : (s.modStackCtl k f).disp = s.disp := rfl
@[simp] theorem State.modStackCtl_queues (k : Nat) (f : StackCtl → StackCtl) : (s.modStackCtl k f).queues = s.queues := rfl
@[simp] theorem State.modStackCtl_radio (k : Nat) (f : StackCtl → StackCtl) : (s.modStackCtl k f).radio = s.radio := rfl
@[simp] theorem State.modStackCtl_shep (k : Nat) (f : StackCtl → StackCtl) : (s.modStackCtl k f).shep = s.shep := rfl
@[simp] theorem State.modStackCtl_settings (k : Nat) (f : StackCtl → StackCtl) : (s.modStackCtl k f).settings = s.settings := rfl
@[simp] theorem State.modStackCtl_dma (k : Nat) (f : StackCtl → StackCtl) : (s.modStackCtl k f).dma = s.dma := rfl
@[simp] theorem State.modStackCtl_fh (k : Nat) (f : StackCtl → StackCtl) : (s.modStackCtl k f).fh = s.fh := rfl
@[simp] theorem State.modStackCtl_time (k : Nat) (f : StackCtl → StackCtl) : (s.modStackCtl k f).time = s.time := rfl
@[simp] theorem State.modStackCtl_fab (k : Nat) (f : StackCtl → StackCtl) : (s.modStackCtl k f).fab = s.fab := rfl
@[simp] theorem State.modStackCtl_fabMem (k : Nat) (f : StackCtl → StackCtl) : (s.modStackCtl k f).fabMem = s.fabMem := rfl
@[simp] theorem State.modStackCtl_prov (k : Nat) (f : StackCtl → StackCtl) : (s.modStackCtl k f).prov = s.prov := rfl
@[simp] theorem State.modStackCtl_health (k : Nat) (f : StackCtl → StackCtl) : (s.modStackCtl k f).health = s.health := rfl
@[simp] theorem State.modStackCtl_flash (k : Nat) (f : StackCtl → StackCtl) : (s.modStackCtl k f).flash = s.flash := rfl
@[simp] theorem State.modStackCtl_fuses (k : Nat) (f : StackCtl → StackCtl) : (s.modStackCtl k f).fuses = s.fuses := rfl
@[simp] theorem State.modStackCtl_sec (k : Nat) (f : StackCtl → StackCtl) : (s.modStackCtl k f).sec = s.sec := rfl
@[simp] theorem State.modStackCtl_power (k : Nat) (f : StackCtl → StackCtl) : (s.modStackCtl k f).power = s.power := rfl
@[simp] theorem State.modStackCtl_pkg (k : Nat) (f : StackCtl → StackCtl) : (s.modStackCtl k f).pkg = s.pkg := rfl
@[simp] theorem State.modStackCtl_out (k : Nat) (f : StackCtl → StackCtl) : (s.modStackCtl k f).out = s.out := rfl
@[simp] theorem State.modStackCtl_fresh (k : Nat) (f : StackCtl → StackCtl) : (s.modStackCtl k f).fresh = s.fresh := rfl

/-! ### `State.modFold` -/

@[simp] theorem State.modFold_pending (k : Nat) (g : Fold → Fold) : (s.modFold k g).pending = s.pending := rfl
@[simp] theorem State.modFold_dev (k : Nat) (g : Fold → Fold) : (s.modFold k g).dev = s.dev := rfl
@[simp] theorem State.modFold_units (k : Nat) (g : Fold → Fold) : (s.modFold k g).units = s.units := rfl
@[simp] theorem State.modFold_mboxes (k : Nat) (g : Fold → Fold) : (s.modFold k g).mboxes = s.mboxes := rfl
@[simp] theorem State.modFold_rings (k : Nat) (g : Fold → Fold) : (s.modFold k g).rings = s.rings := rfl
@[simp] theorem State.modFold_evPages (k : Nat) (g : Fold → Fold) : (s.modFold k g).evPages = s.evPages := rfl
@[simp] theorem State.modFold_dbPages (k : Nat) (g : Fold → Fold) : (s.modFold k g).dbPages = s.dbPages := rfl
@[simp] theorem State.modFold_insts (k : Nat) (g : Fold → Fold) : (s.modFold k g).insts = s.insts := rfl
@[simp] theorem State.modFold_spoof (k : Nat) (g : Fold → Fold) : (s.modFold k g).spoof = s.spoof := rfl
@[simp] theorem State.modFold_tiers (k : Nat) (g : Fold → Fold) : (s.modFold k g).tiers = s.tiers := rfl
@[simp] theorem State.modFold_mem (k : Nat) (g : Fold → Fold) : (s.modFold k g).mem = s.mem := rfl
@[simp] theorem State.modFold_disp (k : Nat) (g : Fold → Fold) : (s.modFold k g).disp = s.disp := rfl
@[simp] theorem State.modFold_queues (k : Nat) (g : Fold → Fold) : (s.modFold k g).queues = s.queues := rfl
@[simp] theorem State.modFold_radio (k : Nat) (g : Fold → Fold) : (s.modFold k g).radio = s.radio := rfl
@[simp] theorem State.modFold_shep (k : Nat) (g : Fold → Fold) : (s.modFold k g).shep = s.shep := rfl
@[simp] theorem State.modFold_settings (k : Nat) (g : Fold → Fold) : (s.modFold k g).settings = s.settings := rfl
@[simp] theorem State.modFold_dma (k : Nat) (g : Fold → Fold) : (s.modFold k g).dma = s.dma := rfl
@[simp] theorem State.modFold_fh (k : Nat) (g : Fold → Fold) : (s.modFold k g).fh = s.fh := rfl
@[simp] theorem State.modFold_time (k : Nat) (g : Fold → Fold) : (s.modFold k g).time = s.time := rfl
@[simp] theorem State.modFold_fab (k : Nat) (g : Fold → Fold) : (s.modFold k g).fab = s.fab := rfl
@[simp] theorem State.modFold_fabMem (k : Nat) (g : Fold → Fold) : (s.modFold k g).fabMem = s.fabMem := rfl
@[simp] theorem State.modFold_prov (k : Nat) (g : Fold → Fold) : (s.modFold k g).prov = s.prov := rfl
@[simp] theorem State.modFold_health (k : Nat) (g : Fold → Fold) : (s.modFold k g).health = s.health := rfl
@[simp] theorem State.modFold_flash (k : Nat) (g : Fold → Fold) : (s.modFold k g).flash = s.flash := rfl
@[simp] theorem State.modFold_fuses (k : Nat) (g : Fold → Fold) : (s.modFold k g).fuses = s.fuses := rfl
@[simp] theorem State.modFold_sec (k : Nat) (g : Fold → Fold) : (s.modFold k g).sec = s.sec := rfl
@[simp] theorem State.modFold_power (k : Nat) (g : Fold → Fold) : (s.modFold k g).power = s.power := rfl
@[simp] theorem State.modFold_pkg (k : Nat) (g : Fold → Fold) : (s.modFold k g).pkg = s.pkg := rfl
@[simp] theorem State.modFold_out (k : Nat) (g : Fold → Fold) : (s.modFold k g).out = s.out := rfl
@[simp] theorem State.modFold_fresh (k : Nat) (g : Fold → Fold) : (s.modFold k g).fresh = s.fresh := rfl

/-! ### `State.setTask` -/

@[simp] theorem State.setTask_pending (k : Nat) (x : Option Task) : (s.setTask k x).pending = s.pending := rfl
@[simp] theorem State.setTask_dev (k : Nat) (x : Option Task) : (s.setTask k x).dev = s.dev := rfl
@[simp] theorem State.setTask_units (k : Nat) (x : Option Task) : (s.setTask k x).units = s.units := rfl
@[simp] theorem State.setTask_mboxes (k : Nat) (x : Option Task) : (s.setTask k x).mboxes = s.mboxes := rfl
@[simp] theorem State.setTask_rings (k : Nat) (x : Option Task) : (s.setTask k x).rings = s.rings := rfl
@[simp] theorem State.setTask_evPages (k : Nat) (x : Option Task) : (s.setTask k x).evPages = s.evPages := rfl
@[simp] theorem State.setTask_dbPages (k : Nat) (x : Option Task) : (s.setTask k x).dbPages = s.dbPages := rfl
@[simp] theorem State.setTask_insts (k : Nat) (x : Option Task) : (s.setTask k x).insts = s.insts := rfl
@[simp] theorem State.setTask_spoof (k : Nat) (x : Option Task) : (s.setTask k x).spoof = s.spoof := rfl
@[simp] theorem State.setTask_tiers (k : Nat) (x : Option Task) : (s.setTask k x).tiers = s.tiers := rfl
@[simp] theorem State.setTask_mem (k : Nat) (x : Option Task) : (s.setTask k x).mem = s.mem := rfl
@[simp] theorem State.setTask_folds (k : Nat) (x : Option Task) : (s.setTask k x).folds = s.folds := rfl
@[simp] theorem State.setTask_queues (k : Nat) (x : Option Task) : (s.setTask k x).queues = s.queues := rfl
@[simp] theorem State.setTask_radio (k : Nat) (x : Option Task) : (s.setTask k x).radio = s.radio := rfl
@[simp] theorem State.setTask_shep (k : Nat) (x : Option Task) : (s.setTask k x).shep = s.shep := rfl
@[simp] theorem State.setTask_settings (k : Nat) (x : Option Task) : (s.setTask k x).settings = s.settings := rfl
@[simp] theorem State.setTask_dma (k : Nat) (x : Option Task) : (s.setTask k x).dma = s.dma := rfl
@[simp] theorem State.setTask_fh (k : Nat) (x : Option Task) : (s.setTask k x).fh = s.fh := rfl
@[simp] theorem State.setTask_time (k : Nat) (x : Option Task) : (s.setTask k x).time = s.time := rfl
@[simp] theorem State.setTask_fab (k : Nat) (x : Option Task) : (s.setTask k x).fab = s.fab := rfl
@[simp] theorem State.setTask_fabMem (k : Nat) (x : Option Task) : (s.setTask k x).fabMem = s.fabMem := rfl
@[simp] theorem State.setTask_prov (k : Nat) (x : Option Task) : (s.setTask k x).prov = s.prov := rfl
@[simp] theorem State.setTask_health (k : Nat) (x : Option Task) : (s.setTask k x).health = s.health := rfl
@[simp] theorem State.setTask_flash (k : Nat) (x : Option Task) : (s.setTask k x).flash = s.flash := rfl
@[simp] theorem State.setTask_fuses (k : Nat) (x : Option Task) : (s.setTask k x).fuses = s.fuses := rfl
@[simp] theorem State.setTask_sec (k : Nat) (x : Option Task) : (s.setTask k x).sec = s.sec := rfl
@[simp] theorem State.setTask_power (k : Nat) (x : Option Task) : (s.setTask k x).power = s.power := rfl
@[simp] theorem State.setTask_pkg (k : Nat) (x : Option Task) : (s.setTask k x).pkg = s.pkg := rfl
@[simp] theorem State.setTask_out (k : Nat) (x : Option Task) : (s.setTask k x).out = s.out := rfl
@[simp] theorem State.setTask_fresh (k : Nat) (x : Option Task) : (s.setTask k x).fresh = s.fresh := rfl

/-! ### `State.modBarrier` -/

@[simp] theorem State.modBarrier_pending (b : Nat) (f : Barrier → Barrier) : (s.modBarrier b f).pending = s.pending := rfl
@[simp] theorem State.modBarrier_dev (b : Nat) (f : Barrier → Barrier) : (s.modBarrier b f).dev = s.dev := rfl
@[simp] theorem State.modBarrier_units (b : Nat) (f : Barrier → Barrier) : (s.modBarrier b f).units = s.units := rfl
@[simp] theorem State.modBarrier_mboxes (b : Nat) (f : Barrier → Barrier) : (s.modBarrier b f).mboxes = s.mboxes := rfl
@[simp] theorem State.modBarrier_rings (b : Nat) (f : Barrier → Barrier) : (s.modBarrier b f).rings = s.rings := rfl
@[simp] theorem State.modBarrier_evPages (b : Nat) (f : Barrier → Barrier) : (s.modBarrier b f).evPages = s.evPages := rfl
@[simp] theorem State.modBarrier_dbPages (b : Nat) (f : Barrier → Barrier) : (s.modBarrier b f).dbPages = s.dbPages := rfl
@[simp] theorem State.modBarrier_insts (b : Nat) (f : Barrier → Barrier) : (s.modBarrier b f).insts = s.insts := rfl
@[simp] theorem State.modBarrier_spoof (b : Nat) (f : Barrier → Barrier) : (s.modBarrier b f).spoof = s.spoof := rfl
@[simp] theorem State.modBarrier_tiers (b : Nat) (f : Barrier → Barrier) : (s.modBarrier b f).tiers = s.tiers := rfl
@[simp] theorem State.modBarrier_mem (b : Nat) (f : Barrier → Barrier) : (s.modBarrier b f).mem = s.mem := rfl
@[simp] theorem State.modBarrier_folds (b : Nat) (f : Barrier → Barrier) : (s.modBarrier b f).folds = s.folds := rfl
@[simp] theorem State.modBarrier_queues (b : Nat) (f : Barrier → Barrier) : (s.modBarrier b f).queues = s.queues := rfl
@[simp] theorem State.modBarrier_radio (b : Nat) (f : Barrier → Barrier) : (s.modBarrier b f).radio = s.radio := rfl
@[simp] theorem State.modBarrier_shep (b : Nat) (f : Barrier → Barrier) : (s.modBarrier b f).shep = s.shep := rfl
@[simp] theorem State.modBarrier_settings (b : Nat) (f : Barrier → Barrier) : (s.modBarrier b f).settings = s.settings := rfl
@[simp] theorem State.modBarrier_dma (b : Nat) (f : Barrier → Barrier) : (s.modBarrier b f).dma = s.dma := rfl
@[simp] theorem State.modBarrier_fh (b : Nat) (f : Barrier → Barrier) : (s.modBarrier b f).fh = s.fh := rfl
@[simp] theorem State.modBarrier_time (b : Nat) (f : Barrier → Barrier) : (s.modBarrier b f).time = s.time := rfl
@[simp] theorem State.modBarrier_fab (b : Nat) (f : Barrier → Barrier) : (s.modBarrier b f).fab = s.fab := rfl
@[simp] theorem State.modBarrier_fabMem (b : Nat) (f : Barrier → Barrier) : (s.modBarrier b f).fabMem = s.fabMem := rfl
@[simp] theorem State.modBarrier_prov (b : Nat) (f : Barrier → Barrier) : (s.modBarrier b f).prov = s.prov := rfl
@[simp] theorem State.modBarrier_health (b : Nat) (f : Barrier → Barrier) : (s.modBarrier b f).health = s.health := rfl
@[simp] theorem State.modBarrier_flash (b : Nat) (f : Barrier → Barrier) : (s.modBarrier b f).flash = s.flash := rfl
@[simp] theorem State.modBarrier_fuses (b : Nat) (f : Barrier → Barrier) : (s.modBarrier b f).fuses = s.fuses := rfl
@[simp] theorem State.modBarrier_sec (b : Nat) (f : Barrier → Barrier) : (s.modBarrier b f).sec = s.sec := rfl
@[simp] theorem State.modBarrier_power (b : Nat) (f : Barrier → Barrier) : (s.modBarrier b f).power = s.power := rfl
@[simp] theorem State.modBarrier_pkg (b : Nat) (f : Barrier → Barrier) : (s.modBarrier b f).pkg = s.pkg := rfl
@[simp] theorem State.modBarrier_out (b : Nat) (f : Barrier → Barrier) : (s.modBarrier b f).out = s.out := rfl
@[simp] theorem State.modBarrier_fresh (b : Nat) (f : Barrier → Barrier) : (s.modBarrier b f).fresh = s.fresh := rfl

/-! ### `State.modSigCore` -/

@[simp] theorem State.modSigCore_pending (c : Nat) (f : SigCore → SigCore) : (s.modSigCore c f).pending = s.pending := rfl
@[simp] theorem State.modSigCore_dev (c : Nat) (f : SigCore → SigCore) : (s.modSigCore c f).dev = s.dev := rfl
@[simp] theorem State.modSigCore_units (c : Nat) (f : SigCore → SigCore) : (s.modSigCore c f).units = s.units := rfl
@[simp] theorem State.modSigCore_mboxes (c : Nat) (f : SigCore → SigCore) : (s.modSigCore c f).mboxes = s.mboxes := rfl
@[simp] theorem State.modSigCore_rings (c : Nat) (f : SigCore → SigCore) : (s.modSigCore c f).rings = s.rings := rfl
@[simp] theorem State.modSigCore_evPages (c : Nat) (f : SigCore → SigCore) : (s.modSigCore c f).evPages = s.evPages := rfl
@[simp] theorem State.modSigCore_dbPages (c : Nat) (f : SigCore → SigCore) : (s.modSigCore c f).dbPages = s.dbPages := rfl
@[simp] theorem State.modSigCore_insts (c : Nat) (f : SigCore → SigCore) : (s.modSigCore c f).insts = s.insts := rfl
@[simp] theorem State.modSigCore_spoof (c : Nat) (f : SigCore → SigCore) : (s.modSigCore c f).spoof = s.spoof := rfl
@[simp] theorem State.modSigCore_tiers (c : Nat) (f : SigCore → SigCore) : (s.modSigCore c f).tiers = s.tiers := rfl
@[simp] theorem State.modSigCore_mem (c : Nat) (f : SigCore → SigCore) : (s.modSigCore c f).mem = s.mem := rfl
@[simp] theorem State.modSigCore_folds (c : Nat) (f : SigCore → SigCore) : (s.modSigCore c f).folds = s.folds := rfl
@[simp] theorem State.modSigCore_disp (c : Nat) (f : SigCore → SigCore) : (s.modSigCore c f).disp = s.disp := rfl
@[simp] theorem State.modSigCore_queues (c : Nat) (f : SigCore → SigCore) : (s.modSigCore c f).queues = s.queues := rfl
@[simp] theorem State.modSigCore_shep (c : Nat) (f : SigCore → SigCore) : (s.modSigCore c f).shep = s.shep := rfl
@[simp] theorem State.modSigCore_settings (c : Nat) (f : SigCore → SigCore) : (s.modSigCore c f).settings = s.settings := rfl
@[simp] theorem State.modSigCore_dma (c : Nat) (f : SigCore → SigCore) : (s.modSigCore c f).dma = s.dma := rfl
@[simp] theorem State.modSigCore_fh (c : Nat) (f : SigCore → SigCore) : (s.modSigCore c f).fh = s.fh := rfl
@[simp] theorem State.modSigCore_time (c : Nat) (f : SigCore → SigCore) : (s.modSigCore c f).time = s.time := rfl
@[simp] theorem State.modSigCore_fab (c : Nat) (f : SigCore → SigCore) : (s.modSigCore c f).fab = s.fab := rfl
@[simp] theorem State.modSigCore_fabMem (c : Nat) (f : SigCore → SigCore) : (s.modSigCore c f).fabMem = s.fabMem := rfl
@[simp] theorem State.modSigCore_prov (c : Nat) (f : SigCore → SigCore) : (s.modSigCore c f).prov = s.prov := rfl
@[simp] theorem State.modSigCore_health (c : Nat) (f : SigCore → SigCore) : (s.modSigCore c f).health = s.health := rfl
@[simp] theorem State.modSigCore_flash (c : Nat) (f : SigCore → SigCore) : (s.modSigCore c f).flash = s.flash := rfl
@[simp] theorem State.modSigCore_fuses (c : Nat) (f : SigCore → SigCore) : (s.modSigCore c f).fuses = s.fuses := rfl
@[simp] theorem State.modSigCore_sec (c : Nat) (f : SigCore → SigCore) : (s.modSigCore c f).sec = s.sec := rfl
@[simp] theorem State.modSigCore_power (c : Nat) (f : SigCore → SigCore) : (s.modSigCore c f).power = s.power := rfl
@[simp] theorem State.modSigCore_pkg (c : Nat) (f : SigCore → SigCore) : (s.modSigCore c f).pkg = s.pkg := rfl
@[simp] theorem State.modSigCore_out (c : Nat) (f : SigCore → SigCore) : (s.modSigCore c f).out = s.out := rfl
@[simp] theorem State.modSigCore_fresh (c : Nat) (f : SigCore → SigCore) : (s.modSigCore c f).fresh = s.fresh := rfl

/-! ### `State.modEngine` -/

@[simp] theorem State.modEngine_pending (e : Nat) (f : Engine → Engine) : (s.modEngine e f).pending = s.pending := rfl
@[simp] theorem State.modEngine_dev (e : Nat) (f : Engine → Engine) : (s.modEngine e f).dev = s.dev := rfl
@[simp] theorem State.modEngine_units (e : Nat) (f : Engine → Engine) : (s.modEngine e f).units = s.units := rfl
@[simp] theorem State.modEngine_mboxes (e : Nat) (f : Engine → Engine) : (s.modEngine e f).mboxes = s.mboxes := rfl
@[simp] theorem State.modEngine_rings (e : Nat) (f : Engine → Engine) : (s.modEngine e f).rings = s.rings := rfl
@[simp] theorem State.modEngine_evPages (e : Nat) (f : Engine → Engine) : (s.modEngine e f).evPages = s.evPages := rfl
@[simp] theorem State.modEngine_dbPages (e : Nat) (f : Engine → Engine) : (s.modEngine e f).dbPages = s.dbPages := rfl
@[simp] theorem State.modEngine_insts (e : Nat) (f : Engine → Engine) : (s.modEngine e f).insts = s.insts := rfl
@[simp] theorem State.modEngine_spoof (e : Nat) (f : Engine → Engine) : (s.modEngine e f).spoof = s.spoof := rfl
@[simp] theorem State.modEngine_tiers (e : Nat) (f : Engine → Engine) : (s.modEngine e f).tiers = s.tiers := rfl
@[simp] theorem State.modEngine_mem (e : Nat) (f : Engine → Engine) : (s.modEngine e f).mem = s.mem := rfl
@[simp] theorem State.modEngine_folds (e : Nat) (f : Engine → Engine) : (s.modEngine e f).folds = s.folds := rfl
@[simp] theorem State.modEngine_disp (e : Nat) (f : Engine → Engine) : (s.modEngine e f).disp = s.disp := rfl
@[simp] theorem State.modEngine_queues (e : Nat) (f : Engine → Engine) : (s.modEngine e f).queues = s.queues := rfl
@[simp] theorem State.modEngine_shep (e : Nat) (f : Engine → Engine) : (s.modEngine e f).shep = s.shep := rfl
@[simp] theorem State.modEngine_settings (e : Nat) (f : Engine → Engine) : (s.modEngine e f).settings = s.settings := rfl
@[simp] theorem State.modEngine_dma (e : Nat) (f : Engine → Engine) : (s.modEngine e f).dma = s.dma := rfl
@[simp] theorem State.modEngine_fh (e : Nat) (f : Engine → Engine) : (s.modEngine e f).fh = s.fh := rfl
@[simp] theorem State.modEngine_time (e : Nat) (f : Engine → Engine) : (s.modEngine e f).time = s.time := rfl
@[simp] theorem State.modEngine_fab (e : Nat) (f : Engine → Engine) : (s.modEngine e f).fab = s.fab := rfl
@[simp] theorem State.modEngine_fabMem (e : Nat) (f : Engine → Engine) : (s.modEngine e f).fabMem = s.fabMem := rfl
@[simp] theorem State.modEngine_prov (e : Nat) (f : Engine → Engine) : (s.modEngine e f).prov = s.prov := rfl
@[simp] theorem State.modEngine_health (e : Nat) (f : Engine → Engine) : (s.modEngine e f).health = s.health := rfl
@[simp] theorem State.modEngine_flash (e : Nat) (f : Engine → Engine) : (s.modEngine e f).flash = s.flash := rfl
@[simp] theorem State.modEngine_fuses (e : Nat) (f : Engine → Engine) : (s.modEngine e f).fuses = s.fuses := rfl
@[simp] theorem State.modEngine_sec (e : Nat) (f : Engine → Engine) : (s.modEngine e f).sec = s.sec := rfl
@[simp] theorem State.modEngine_power (e : Nat) (f : Engine → Engine) : (s.modEngine e f).power = s.power := rfl
@[simp] theorem State.modEngine_pkg (e : Nat) (f : Engine → Engine) : (s.modEngine e f).pkg = s.pkg := rfl
@[simp] theorem State.modEngine_out (e : Nat) (f : Engine → Engine) : (s.modEngine e f).out = s.out := rfl
@[simp] theorem State.modEngine_fresh (e : Nat) (f : Engine → Engine) : (s.modEngine e f).fresh = s.fresh := rfl

/-! ### `State.modCell` -/

@[simp] theorem State.modCell_pending (c : Nat) (f : Cell → Cell) : (s.modCell c f).pending = s.pending := rfl
@[simp] theorem State.modCell_dev (c : Nat) (f : Cell → Cell) : (s.modCell c f).dev = s.dev := rfl
@[simp] theorem State.modCell_units (c : Nat) (f : Cell → Cell) : (s.modCell c f).units = s.units := rfl
@[simp] theorem State.modCell_mboxes (c : Nat) (f : Cell → Cell) : (s.modCell c f).mboxes = s.mboxes := rfl
@[simp] theorem State.modCell_rings (c : Nat) (f : Cell → Cell) : (s.modCell c f).rings = s.rings := rfl
@[simp] theorem State.modCell_evPages (c : Nat) (f : Cell → Cell) : (s.modCell c f).evPages = s.evPages := rfl
@[simp] theorem State.modCell_dbPages (c : Nat) (f : Cell → Cell) : (s.modCell c f).dbPages = s.dbPages := rfl
@[simp] theorem State.modCell_insts (c : Nat) (f : Cell → Cell) : (s.modCell c f).insts = s.insts := rfl
@[simp] theorem State.modCell_spoof (c : Nat) (f : Cell → Cell) : (s.modCell c f).spoof = s.spoof := rfl
@[simp] theorem State.modCell_tiers (c : Nat) (f : Cell → Cell) : (s.modCell c f).tiers = s.tiers := rfl
@[simp] theorem State.modCell_mem (c : Nat) (f : Cell → Cell) : (s.modCell c f).mem = s.mem := rfl
@[simp] theorem State.modCell_folds (c : Nat) (f : Cell → Cell) : (s.modCell c f).folds = s.folds := rfl
@[simp] theorem State.modCell_disp (c : Nat) (f : Cell → Cell) : (s.modCell c f).disp = s.disp := rfl
@[simp] theorem State.modCell_queues (c : Nat) (f : Cell → Cell) : (s.modCell c f).queues = s.queues := rfl
@[simp] theorem State.modCell_shep (c : Nat) (f : Cell → Cell) : (s.modCell c f).shep = s.shep := rfl
@[simp] theorem State.modCell_settings (c : Nat) (f : Cell → Cell) : (s.modCell c f).settings = s.settings := rfl
@[simp] theorem State.modCell_dma (c : Nat) (f : Cell → Cell) : (s.modCell c f).dma = s.dma := rfl
@[simp] theorem State.modCell_fh (c : Nat) (f : Cell → Cell) : (s.modCell c f).fh = s.fh := rfl
@[simp] theorem State.modCell_time (c : Nat) (f : Cell → Cell) : (s.modCell c f).time = s.time := rfl
@[simp] theorem State.modCell_fab (c : Nat) (f : Cell → Cell) : (s.modCell c f).fab = s.fab := rfl
@[simp] theorem State.modCell_fabMem (c : Nat) (f : Cell → Cell) : (s.modCell c f).fabMem = s.fabMem := rfl
@[simp] theorem State.modCell_prov (c : Nat) (f : Cell → Cell) : (s.modCell c f).prov = s.prov := rfl
@[simp] theorem State.modCell_health (c : Nat) (f : Cell → Cell) : (s.modCell c f).health = s.health := rfl
@[simp] theorem State.modCell_flash (c : Nat) (f : Cell → Cell) : (s.modCell c f).flash = s.flash := rfl
@[simp] theorem State.modCell_fuses (c : Nat) (f : Cell → Cell) : (s.modCell c f).fuses = s.fuses := rfl
@[simp] theorem State.modCell_sec (c : Nat) (f : Cell → Cell) : (s.modCell c f).sec = s.sec := rfl
@[simp] theorem State.modCell_power (c : Nat) (f : Cell → Cell) : (s.modCell c f).power = s.power := rfl
@[simp] theorem State.modCell_pkg (c : Nat) (f : Cell → Cell) : (s.modCell c f).pkg = s.pkg := rfl
@[simp] theorem State.modCell_out (c : Nat) (f : Cell → Cell) : (s.modCell c f).out = s.out := rfl
@[simp] theorem State.modCell_fresh (c : Nat) (f : Cell → Cell) : (s.modCell c f).fresh = s.fresh := rfl

/-! ### `State.modNrx` -/

@[simp] theorem State.modNrx_pending (f : Nrx → Nrx) : (s.modNrx f).pending = s.pending := rfl
@[simp] theorem State.modNrx_dev (f : Nrx → Nrx) : (s.modNrx f).dev = s.dev := rfl
@[simp] theorem State.modNrx_units (f : Nrx → Nrx) : (s.modNrx f).units = s.units := rfl
@[simp] theorem State.modNrx_mboxes (f : Nrx → Nrx) : (s.modNrx f).mboxes = s.mboxes := rfl
@[simp] theorem State.modNrx_rings (f : Nrx → Nrx) : (s.modNrx f).rings = s.rings := rfl
@[simp] theorem State.modNrx_evPages (f : Nrx → Nrx) : (s.modNrx f).evPages = s.evPages := rfl
@[simp] theorem State.modNrx_dbPages (f : Nrx → Nrx) : (s.modNrx f).dbPages = s.dbPages := rfl
@[simp] theorem State.modNrx_insts (f : Nrx → Nrx) : (s.modNrx f).insts = s.insts := rfl
@[simp] theorem State.modNrx_spoof (f : Nrx → Nrx) : (s.modNrx f).spoof = s.spoof := rfl
@[simp] theorem State.modNrx_tiers (f : Nrx → Nrx) : (s.modNrx f).tiers = s.tiers := rfl
@[simp] theorem State.modNrx_mem (f : Nrx → Nrx) : (s.modNrx f).mem = s.mem := rfl
@[simp] theorem State.modNrx_folds (f : Nrx → Nrx) : (s.modNrx f).folds = s.folds := rfl
@[simp] theorem State.modNrx_disp (f : Nrx → Nrx) : (s.modNrx f).disp = s.disp := rfl
@[simp] theorem State.modNrx_queues (f : Nrx → Nrx) : (s.modNrx f).queues = s.queues := rfl
@[simp] theorem State.modNrx_shep (f : Nrx → Nrx) : (s.modNrx f).shep = s.shep := rfl
@[simp] theorem State.modNrx_settings (f : Nrx → Nrx) : (s.modNrx f).settings = s.settings := rfl
@[simp] theorem State.modNrx_dma (f : Nrx → Nrx) : (s.modNrx f).dma = s.dma := rfl
@[simp] theorem State.modNrx_fh (f : Nrx → Nrx) : (s.modNrx f).fh = s.fh := rfl
@[simp] theorem State.modNrx_time (f : Nrx → Nrx) : (s.modNrx f).time = s.time := rfl
@[simp] theorem State.modNrx_fab (f : Nrx → Nrx) : (s.modNrx f).fab = s.fab := rfl
@[simp] theorem State.modNrx_fabMem (f : Nrx → Nrx) : (s.modNrx f).fabMem = s.fabMem := rfl
@[simp] theorem State.modNrx_prov (f : Nrx → Nrx) : (s.modNrx f).prov = s.prov := rfl
@[simp] theorem State.modNrx_health (f : Nrx → Nrx) : (s.modNrx f).health = s.health := rfl
@[simp] theorem State.modNrx_flash (f : Nrx → Nrx) : (s.modNrx f).flash = s.flash := rfl
@[simp] theorem State.modNrx_fuses (f : Nrx → Nrx) : (s.modNrx f).fuses = s.fuses := rfl
@[simp] theorem State.modNrx_sec (f : Nrx → Nrx) : (s.modNrx f).sec = s.sec := rfl
@[simp] theorem State.modNrx_power (f : Nrx → Nrx) : (s.modNrx f).power = s.power := rfl
@[simp] theorem State.modNrx_pkg (f : Nrx → Nrx) : (s.modNrx f).pkg = s.pkg := rfl
@[simp] theorem State.modNrx_out (f : Nrx → Nrx) : (s.modNrx f).out = s.out := rfl
@[simp] theorem State.modNrx_fresh (f : Nrx → Nrx) : (s.modNrx f).fresh = s.fresh := rfl

/-! ### `State.modDma` -/

@[simp] theorem State.modDma_pending (e : Nat) (f : DmaEngine → DmaEngine) : (s.modDma e f).pending = s.pending := rfl
@[simp] theorem State.modDma_dev (e : Nat) (f : DmaEngine → DmaEngine) : (s.modDma e f).dev = s.dev := rfl
@[simp] theorem State.modDma_units (e : Nat) (f : DmaEngine → DmaEngine) : (s.modDma e f).units = s.units := rfl
@[simp] theorem State.modDma_mboxes (e : Nat) (f : DmaEngine → DmaEngine) : (s.modDma e f).mboxes = s.mboxes := rfl
@[simp] theorem State.modDma_rings (e : Nat) (f : DmaEngine → DmaEngine) : (s.modDma e f).rings = s.rings := rfl
@[simp] theorem State.modDma_evPages (e : Nat) (f : DmaEngine → DmaEngine) : (s.modDma e f).evPages = s.evPages := rfl
@[simp] theorem State.modDma_dbPages (e : Nat) (f : DmaEngine → DmaEngine) : (s.modDma e f).dbPages = s.dbPages := rfl
@[simp] theorem State.modDma_insts (e : Nat) (f : DmaEngine → DmaEngine) : (s.modDma e f).insts = s.insts := rfl
@[simp] theorem State.modDma_spoof (e : Nat) (f : DmaEngine → DmaEngine) : (s.modDma e f).spoof = s.spoof := rfl
@[simp] theorem State.modDma_tiers (e : Nat) (f : DmaEngine → DmaEngine) : (s.modDma e f).tiers = s.tiers := rfl
@[simp] theorem State.modDma_mem (e : Nat) (f : DmaEngine → DmaEngine) : (s.modDma e f).mem = s.mem := rfl
@[simp] theorem State.modDma_folds (e : Nat) (f : DmaEngine → DmaEngine) : (s.modDma e f).folds = s.folds := rfl
@[simp] theorem State.modDma_disp (e : Nat) (f : DmaEngine → DmaEngine) : (s.modDma e f).disp = s.disp := rfl
@[simp] theorem State.modDma_queues (e : Nat) (f : DmaEngine → DmaEngine) : (s.modDma e f).queues = s.queues := rfl
@[simp] theorem State.modDma_radio (e : Nat) (f : DmaEngine → DmaEngine) : (s.modDma e f).radio = s.radio := rfl
@[simp] theorem State.modDma_shep (e : Nat) (f : DmaEngine → DmaEngine) : (s.modDma e f).shep = s.shep := rfl
@[simp] theorem State.modDma_settings (e : Nat) (f : DmaEngine → DmaEngine) : (s.modDma e f).settings = s.settings := rfl
@[simp] theorem State.modDma_fh (e : Nat) (f : DmaEngine → DmaEngine) : (s.modDma e f).fh = s.fh := rfl
@[simp] theorem State.modDma_time (e : Nat) (f : DmaEngine → DmaEngine) : (s.modDma e f).time = s.time := rfl
@[simp] theorem State.modDma_fab (e : Nat) (f : DmaEngine → DmaEngine) : (s.modDma e f).fab = s.fab := rfl
@[simp] theorem State.modDma_fabMem (e : Nat) (f : DmaEngine → DmaEngine) : (s.modDma e f).fabMem = s.fabMem := rfl
@[simp] theorem State.modDma_prov (e : Nat) (f : DmaEngine → DmaEngine) : (s.modDma e f).prov = s.prov := rfl
@[simp] theorem State.modDma_health (e : Nat) (f : DmaEngine → DmaEngine) : (s.modDma e f).health = s.health := rfl
@[simp] theorem State.modDma_flash (e : Nat) (f : DmaEngine → DmaEngine) : (s.modDma e f).flash = s.flash := rfl
@[simp] theorem State.modDma_fuses (e : Nat) (f : DmaEngine → DmaEngine) : (s.modDma e f).fuses = s.fuses := rfl
@[simp] theorem State.modDma_sec (e : Nat) (f : DmaEngine → DmaEngine) : (s.modDma e f).sec = s.sec := rfl
@[simp] theorem State.modDma_power (e : Nat) (f : DmaEngine → DmaEngine) : (s.modDma e f).power = s.power := rfl
@[simp] theorem State.modDma_pkg (e : Nat) (f : DmaEngine → DmaEngine) : (s.modDma e f).pkg = s.pkg := rfl
@[simp] theorem State.modDma_out (e : Nat) (f : DmaEngine → DmaEngine) : (s.modDma e f).out = s.out := rfl
@[simp] theorem State.modDma_fresh (e : Nat) (f : DmaEngine → DmaEngine) : (s.modDma e f).fresh = s.fresh := rfl

/-! ### `State.modLane` -/

@[simp] theorem State.modLane_pending (l : Nat) (f : Lane → Lane) : (s.modLane l f).pending = s.pending := rfl
@[simp] theorem State.modLane_dev (l : Nat) (f : Lane → Lane) : (s.modLane l f).dev = s.dev := rfl
@[simp] theorem State.modLane_units (l : Nat) (f : Lane → Lane) : (s.modLane l f).units = s.units := rfl
@[simp] theorem State.modLane_mboxes (l : Nat) (f : Lane → Lane) : (s.modLane l f).mboxes = s.mboxes := rfl
@[simp] theorem State.modLane_rings (l : Nat) (f : Lane → Lane) : (s.modLane l f).rings = s.rings := rfl
@[simp] theorem State.modLane_evPages (l : Nat) (f : Lane → Lane) : (s.modLane l f).evPages = s.evPages := rfl
@[simp] theorem State.modLane_dbPages (l : Nat) (f : Lane → Lane) : (s.modLane l f).dbPages = s.dbPages := rfl
@[simp] theorem State.modLane_insts (l : Nat) (f : Lane → Lane) : (s.modLane l f).insts = s.insts := rfl
@[simp] theorem State.modLane_spoof (l : Nat) (f : Lane → Lane) : (s.modLane l f).spoof = s.spoof := rfl
@[simp] theorem State.modLane_tiers (l : Nat) (f : Lane → Lane) : (s.modLane l f).tiers = s.tiers := rfl
@[simp] theorem State.modLane_mem (l : Nat) (f : Lane → Lane) : (s.modLane l f).mem = s.mem := rfl
@[simp] theorem State.modLane_folds (l : Nat) (f : Lane → Lane) : (s.modLane l f).folds = s.folds := rfl
@[simp] theorem State.modLane_disp (l : Nat) (f : Lane → Lane) : (s.modLane l f).disp = s.disp := rfl
@[simp] theorem State.modLane_queues (l : Nat) (f : Lane → Lane) : (s.modLane l f).queues = s.queues := rfl
@[simp] theorem State.modLane_radio (l : Nat) (f : Lane → Lane) : (s.modLane l f).radio = s.radio := rfl
@[simp] theorem State.modLane_shep (l : Nat) (f : Lane → Lane) : (s.modLane l f).shep = s.shep := rfl
@[simp] theorem State.modLane_settings (l : Nat) (f : Lane → Lane) : (s.modLane l f).settings = s.settings := rfl
@[simp] theorem State.modLane_dma (l : Nat) (f : Lane → Lane) : (s.modLane l f).dma = s.dma := rfl
@[simp] theorem State.modLane_time (l : Nat) (f : Lane → Lane) : (s.modLane l f).time = s.time := rfl
@[simp] theorem State.modLane_fab (l : Nat) (f : Lane → Lane) : (s.modLane l f).fab = s.fab := rfl
@[simp] theorem State.modLane_fabMem (l : Nat) (f : Lane → Lane) : (s.modLane l f).fabMem = s.fabMem := rfl
@[simp] theorem State.modLane_prov (l : Nat) (f : Lane → Lane) : (s.modLane l f).prov = s.prov := rfl
@[simp] theorem State.modLane_health (l : Nat) (f : Lane → Lane) : (s.modLane l f).health = s.health := rfl
@[simp] theorem State.modLane_flash (l : Nat) (f : Lane → Lane) : (s.modLane l f).flash = s.flash := rfl
@[simp] theorem State.modLane_fuses (l : Nat) (f : Lane → Lane) : (s.modLane l f).fuses = s.fuses := rfl
@[simp] theorem State.modLane_sec (l : Nat) (f : Lane → Lane) : (s.modLane l f).sec = s.sec := rfl
@[simp] theorem State.modLane_power (l : Nat) (f : Lane → Lane) : (s.modLane l f).power = s.power := rfl
@[simp] theorem State.modLane_pkg (l : Nat) (f : Lane → Lane) : (s.modLane l f).pkg = s.pkg := rfl
@[simp] theorem State.modLane_out (l : Nat) (f : Lane → Lane) : (s.modLane l f).out = s.out := rfl
@[simp] theorem State.modLane_fresh (l : Nat) (f : Lane → Lane) : (s.modLane l f).fresh = s.fresh := rfl

/-! ### `State.modFhPort` -/

@[simp] theorem State.modFhPort_pending (p : Nat) (f : FhPort → FhPort) : (s.modFhPort p f).pending = s.pending := rfl
@[simp] theorem State.modFhPort_dev (p : Nat) (f : FhPort → FhPort) : (s.modFhPort p f).dev = s.dev := rfl
@[simp] theorem State.modFhPort_units (p : Nat) (f : FhPort → FhPort) : (s.modFhPort p f).units = s.units := rfl
@[simp] theorem State.modFhPort_mboxes (p : Nat) (f : FhPort → FhPort) : (s.modFhPort p f).mboxes = s.mboxes := rfl
@[simp] theorem State.modFhPort_rings (p : Nat) (f : FhPort → FhPort) : (s.modFhPort p f).rings = s.rings := rfl
@[simp] theorem State.modFhPort_evPages (p : Nat) (f : FhPort → FhPort) : (s.modFhPort p f).evPages = s.evPages := rfl
@[simp] theorem State.modFhPort_dbPages (p : Nat) (f : FhPort → FhPort) : (s.modFhPort p f).dbPages = s.dbPages := rfl
@[simp] theorem State.modFhPort_insts (p : Nat) (f : FhPort → FhPort) : (s.modFhPort p f).insts = s.insts := rfl
@[simp] theorem State.modFhPort_spoof (p : Nat) (f : FhPort → FhPort) : (s.modFhPort p f).spoof = s.spoof := rfl
@[simp] theorem State.modFhPort_tiers (p : Nat) (f : FhPort → FhPort) : (s.modFhPort p f).tiers = s.tiers := rfl
@[simp] theorem State.modFhPort_mem (p : Nat) (f : FhPort → FhPort) : (s.modFhPort p f).mem = s.mem := rfl
@[simp] theorem State.modFhPort_folds (p : Nat) (f : FhPort → FhPort) : (s.modFhPort p f).folds = s.folds := rfl
@[simp] theorem State.modFhPort_disp (p : Nat) (f : FhPort → FhPort) : (s.modFhPort p f).disp = s.disp := rfl
@[simp] theorem State.modFhPort_queues (p : Nat) (f : FhPort → FhPort) : (s.modFhPort p f).queues = s.queues := rfl
@[simp] theorem State.modFhPort_radio (p : Nat) (f : FhPort → FhPort) : (s.modFhPort p f).radio = s.radio := rfl
@[simp] theorem State.modFhPort_shep (p : Nat) (f : FhPort → FhPort) : (s.modFhPort p f).shep = s.shep := rfl
@[simp] theorem State.modFhPort_settings (p : Nat) (f : FhPort → FhPort) : (s.modFhPort p f).settings = s.settings := rfl
@[simp] theorem State.modFhPort_dma (p : Nat) (f : FhPort → FhPort) : (s.modFhPort p f).dma = s.dma := rfl
@[simp] theorem State.modFhPort_time (p : Nat) (f : FhPort → FhPort) : (s.modFhPort p f).time = s.time := rfl
@[simp] theorem State.modFhPort_fab (p : Nat) (f : FhPort → FhPort) : (s.modFhPort p f).fab = s.fab := rfl
@[simp] theorem State.modFhPort_fabMem (p : Nat) (f : FhPort → FhPort) : (s.modFhPort p f).fabMem = s.fabMem := rfl
@[simp] theorem State.modFhPort_prov (p : Nat) (f : FhPort → FhPort) : (s.modFhPort p f).prov = s.prov := rfl
@[simp] theorem State.modFhPort_health (p : Nat) (f : FhPort → FhPort) : (s.modFhPort p f).health = s.health := rfl
@[simp] theorem State.modFhPort_flash (p : Nat) (f : FhPort → FhPort) : (s.modFhPort p f).flash = s.flash := rfl
@[simp] theorem State.modFhPort_fuses (p : Nat) (f : FhPort → FhPort) : (s.modFhPort p f).fuses = s.fuses := rfl
@[simp] theorem State.modFhPort_sec (p : Nat) (f : FhPort → FhPort) : (s.modFhPort p f).sec = s.sec := rfl
@[simp] theorem State.modFhPort_power (p : Nat) (f : FhPort → FhPort) : (s.modFhPort p f).power = s.power := rfl
@[simp] theorem State.modFhPort_pkg (p : Nat) (f : FhPort → FhPort) : (s.modFhPort p f).pkg = s.pkg := rfl
@[simp] theorem State.modFhPort_out (p : Nat) (f : FhPort → FhPort) : (s.modFhPort p f).out = s.out := rfl
@[simp] theorem State.modFhPort_fresh (p : Nat) (f : FhPort → FhPort) : (s.modFhPort p f).fresh = s.fresh := rfl

/-! ### `State.modFport` -/

@[simp] theorem State.modFport_pending (p : Nat) (f : FabPort → FabPort) : (s.modFport p f).pending = s.pending := rfl
@[simp] theorem State.modFport_dev (p : Nat) (f : FabPort → FabPort) : (s.modFport p f).dev = s.dev := rfl
@[simp] theorem State.modFport_units (p : Nat) (f : FabPort → FabPort) : (s.modFport p f).units = s.units := rfl
@[simp] theorem State.modFport_mboxes (p : Nat) (f : FabPort → FabPort) : (s.modFport p f).mboxes = s.mboxes := rfl
@[simp] theorem State.modFport_rings (p : Nat) (f : FabPort → FabPort) : (s.modFport p f).rings = s.rings := rfl
@[simp] theorem State.modFport_evPages (p : Nat) (f : FabPort → FabPort) : (s.modFport p f).evPages = s.evPages := rfl
@[simp] theorem State.modFport_dbPages (p : Nat) (f : FabPort → FabPort) : (s.modFport p f).dbPages = s.dbPages := rfl
@[simp] theorem State.modFport_insts (p : Nat) (f : FabPort → FabPort) : (s.modFport p f).insts = s.insts := rfl
@[simp] theorem State.modFport_spoof (p : Nat) (f : FabPort → FabPort) : (s.modFport p f).spoof = s.spoof := rfl
@[simp] theorem State.modFport_tiers (p : Nat) (f : FabPort → FabPort) : (s.modFport p f).tiers = s.tiers := rfl
@[simp] theorem State.modFport_mem (p : Nat) (f : FabPort → FabPort) : (s.modFport p f).mem = s.mem := rfl
@[simp] theorem State.modFport_folds (p : Nat) (f : FabPort → FabPort) : (s.modFport p f).folds = s.folds := rfl
@[simp] theorem State.modFport_disp (p : Nat) (f : FabPort → FabPort) : (s.modFport p f).disp = s.disp := rfl
@[simp] theorem State.modFport_queues (p : Nat) (f : FabPort → FabPort) : (s.modFport p f).queues = s.queues := rfl
@[simp] theorem State.modFport_radio (p : Nat) (f : FabPort → FabPort) : (s.modFport p f).radio = s.radio := rfl
@[simp] theorem State.modFport_shep (p : Nat) (f : FabPort → FabPort) : (s.modFport p f).shep = s.shep := rfl
@[simp] theorem State.modFport_settings (p : Nat) (f : FabPort → FabPort) : (s.modFport p f).settings = s.settings := rfl
@[simp] theorem State.modFport_dma (p : Nat) (f : FabPort → FabPort) : (s.modFport p f).dma = s.dma := rfl
@[simp] theorem State.modFport_fh (p : Nat) (f : FabPort → FabPort) : (s.modFport p f).fh = s.fh := rfl
@[simp] theorem State.modFport_time (p : Nat) (f : FabPort → FabPort) : (s.modFport p f).time = s.time := rfl
@[simp] theorem State.modFport_fabMem (p : Nat) (f : FabPort → FabPort) : (s.modFport p f).fabMem = s.fabMem := rfl
@[simp] theorem State.modFport_prov (p : Nat) (f : FabPort → FabPort) : (s.modFport p f).prov = s.prov := rfl
@[simp] theorem State.modFport_health (p : Nat) (f : FabPort → FabPort) : (s.modFport p f).health = s.health := rfl
@[simp] theorem State.modFport_flash (p : Nat) (f : FabPort → FabPort) : (s.modFport p f).flash = s.flash := rfl
@[simp] theorem State.modFport_fuses (p : Nat) (f : FabPort → FabPort) : (s.modFport p f).fuses = s.fuses := rfl
@[simp] theorem State.modFport_sec (p : Nat) (f : FabPort → FabPort) : (s.modFport p f).sec = s.sec := rfl
@[simp] theorem State.modFport_power (p : Nat) (f : FabPort → FabPort) : (s.modFport p f).power = s.power := rfl
@[simp] theorem State.modFport_pkg (p : Nat) (f : FabPort → FabPort) : (s.modFport p f).pkg = s.pkg := rfl
@[simp] theorem State.modFport_out (p : Nat) (f : FabPort → FabPort) : (s.modFport p f).out = s.out := rfl
@[simp] theorem State.modFport_fresh (p : Nat) (f : FabPort → FabPort) : (s.modFport p f).fresh = s.fresh := rfl

/-! ### `State.modRegion` -/

@[simp] theorem State.modRegion_pending (r : Nat) (f : Region → Region) : (s.modRegion r f).pending = s.pending := rfl
@[simp] theorem State.modRegion_dev (r : Nat) (f : Region → Region) : (s.modRegion r f).dev = s.dev := rfl
@[simp] theorem State.modRegion_units (r : Nat) (f : Region → Region) : (s.modRegion r f).units = s.units := rfl
@[simp] theorem State.modRegion_mboxes (r : Nat) (f : Region → Region) : (s.modRegion r f).mboxes = s.mboxes := rfl
@[simp] theorem State.modRegion_rings (r : Nat) (f : Region → Region) : (s.modRegion r f).rings = s.rings := rfl
@[simp] theorem State.modRegion_evPages (r : Nat) (f : Region → Region) : (s.modRegion r f).evPages = s.evPages := rfl
@[simp] theorem State.modRegion_dbPages (r : Nat) (f : Region → Region) : (s.modRegion r f).dbPages = s.dbPages := rfl
@[simp] theorem State.modRegion_insts (r : Nat) (f : Region → Region) : (s.modRegion r f).insts = s.insts := rfl
@[simp] theorem State.modRegion_spoof (r : Nat) (f : Region → Region) : (s.modRegion r f).spoof = s.spoof := rfl
@[simp] theorem State.modRegion_tiers (r : Nat) (f : Region → Region) : (s.modRegion r f).tiers = s.tiers := rfl
@[simp] theorem State.modRegion_mem (r : Nat) (f : Region → Region) : (s.modRegion r f).mem = s.mem := rfl
@[simp] theorem State.modRegion_folds (r : Nat) (f : Region → Region) : (s.modRegion r f).folds = s.folds := rfl
@[simp] theorem State.modRegion_disp (r : Nat) (f : Region → Region) : (s.modRegion r f).disp = s.disp := rfl
@[simp] theorem State.modRegion_queues (r : Nat) (f : Region → Region) : (s.modRegion r f).queues = s.queues := rfl
@[simp] theorem State.modRegion_radio (r : Nat) (f : Region → Region) : (s.modRegion r f).radio = s.radio := rfl
@[simp] theorem State.modRegion_shep (r : Nat) (f : Region → Region) : (s.modRegion r f).shep = s.shep := rfl
@[simp] theorem State.modRegion_settings (r : Nat) (f : Region → Region) : (s.modRegion r f).settings = s.settings := rfl
@[simp] theorem State.modRegion_dma (r : Nat) (f : Region → Region) : (s.modRegion r f).dma = s.dma := rfl
@[simp] theorem State.modRegion_fh (r : Nat) (f : Region → Region) : (s.modRegion r f).fh = s.fh := rfl
@[simp] theorem State.modRegion_time (r : Nat) (f : Region → Region) : (s.modRegion r f).time = s.time := rfl
@[simp] theorem State.modRegion_fab (r : Nat) (f : Region → Region) : (s.modRegion r f).fab = s.fab := rfl
@[simp] theorem State.modRegion_prov (r : Nat) (f : Region → Region) : (s.modRegion r f).prov = s.prov := rfl
@[simp] theorem State.modRegion_health (r : Nat) (f : Region → Region) : (s.modRegion r f).health = s.health := rfl
@[simp] theorem State.modRegion_flash (r : Nat) (f : Region → Region) : (s.modRegion r f).flash = s.flash := rfl
@[simp] theorem State.modRegion_fuses (r : Nat) (f : Region → Region) : (s.modRegion r f).fuses = s.fuses := rfl
@[simp] theorem State.modRegion_sec (r : Nat) (f : Region → Region) : (s.modRegion r f).sec = s.sec := rfl
@[simp] theorem State.modRegion_power (r : Nat) (f : Region → Region) : (s.modRegion r f).power = s.power := rfl
@[simp] theorem State.modRegion_pkg (r : Nat) (f : Region → Region) : (s.modRegion r f).pkg = s.pkg := rfl
@[simp] theorem State.modRegion_out (r : Nat) (f : Region → Region) : (s.modRegion r f).out = s.out := rfl
@[simp] theorem State.modRegion_fresh (r : Nat) (f : Region → Region) : (s.modRegion r f).fresh = s.fresh := rfl

/-! ### `State.modCore` -/

@[simp] theorem State.modCore_pending (c : Nat) (f : CtlCore → CtlCore) : (s.modCore c f).pending = s.pending := rfl
@[simp] theorem State.modCore_units (c : Nat) (f : CtlCore → CtlCore) : (s.modCore c f).units = s.units := rfl
@[simp] theorem State.modCore_mboxes (c : Nat) (f : CtlCore → CtlCore) : (s.modCore c f).mboxes = s.mboxes := rfl
@[simp] theorem State.modCore_rings (c : Nat) (f : CtlCore → CtlCore) : (s.modCore c f).rings = s.rings := rfl
@[simp] theorem State.modCore_evPages (c : Nat) (f : CtlCore → CtlCore) : (s.modCore c f).evPages = s.evPages := rfl
@[simp] theorem State.modCore_dbPages (c : Nat) (f : CtlCore → CtlCore) : (s.modCore c f).dbPages = s.dbPages := rfl
@[simp] theorem State.modCore_insts (c : Nat) (f : CtlCore → CtlCore) : (s.modCore c f).insts = s.insts := rfl
@[simp] theorem State.modCore_spoof (c : Nat) (f : CtlCore → CtlCore) : (s.modCore c f).spoof = s.spoof := rfl
@[simp] theorem State.modCore_tiers (c : Nat) (f : CtlCore → CtlCore) : (s.modCore c f).tiers = s.tiers := rfl
@[simp] theorem State.modCore_mem (c : Nat) (f : CtlCore → CtlCore) : (s.modCore c f).mem = s.mem := rfl
@[simp] theorem State.modCore_folds (c : Nat) (f : CtlCore → CtlCore) : (s.modCore c f).folds = s.folds := rfl
@[simp] theorem State.modCore_disp (c : Nat) (f : CtlCore → CtlCore) : (s.modCore c f).disp = s.disp := rfl
@[simp] theorem State.modCore_queues (c : Nat) (f : CtlCore → CtlCore) : (s.modCore c f).queues = s.queues := rfl
@[simp] theorem State.modCore_radio (c : Nat) (f : CtlCore → CtlCore) : (s.modCore c f).radio = s.radio := rfl
@[simp] theorem State.modCore_shep (c : Nat) (f : CtlCore → CtlCore) : (s.modCore c f).shep = s.shep := rfl
@[simp] theorem State.modCore_settings (c : Nat) (f : CtlCore → CtlCore) : (s.modCore c f).settings = s.settings := rfl
@[simp] theorem State.modCore_dma (c : Nat) (f : CtlCore → CtlCore) : (s.modCore c f).dma = s.dma := rfl
@[simp] theorem State.modCore_fh (c : Nat) (f : CtlCore → CtlCore) : (s.modCore c f).fh = s.fh := rfl
@[simp] theorem State.modCore_time (c : Nat) (f : CtlCore → CtlCore) : (s.modCore c f).time = s.time := rfl
@[simp] theorem State.modCore_fab (c : Nat) (f : CtlCore → CtlCore) : (s.modCore c f).fab = s.fab := rfl
@[simp] theorem State.modCore_fabMem (c : Nat) (f : CtlCore → CtlCore) : (s.modCore c f).fabMem = s.fabMem := rfl
@[simp] theorem State.modCore_prov (c : Nat) (f : CtlCore → CtlCore) : (s.modCore c f).prov = s.prov := rfl
@[simp] theorem State.modCore_health (c : Nat) (f : CtlCore → CtlCore) : (s.modCore c f).health = s.health := rfl
@[simp] theorem State.modCore_flash (c : Nat) (f : CtlCore → CtlCore) : (s.modCore c f).flash = s.flash := rfl
@[simp] theorem State.modCore_fuses (c : Nat) (f : CtlCore → CtlCore) : (s.modCore c f).fuses = s.fuses := rfl
@[simp] theorem State.modCore_sec (c : Nat) (f : CtlCore → CtlCore) : (s.modCore c f).sec = s.sec := rfl
@[simp] theorem State.modCore_power (c : Nat) (f : CtlCore → CtlCore) : (s.modCore c f).power = s.power := rfl
@[simp] theorem State.modCore_pkg (c : Nat) (f : CtlCore → CtlCore) : (s.modCore c f).pkg = s.pkg := rfl
@[simp] theorem State.modCore_out (c : Nat) (f : CtlCore → CtlCore) : (s.modCore c f).out = s.out := rfl
@[simp] theorem State.modCore_fresh (c : Nat) (f : CtlCore → CtlCore) : (s.modCore c f).fresh = s.fresh := rfl

/-! ### `State.modTime` -/

@[simp] theorem State.modTime_pending (f : TimeBlk → TimeBlk) : (s.modTime f).pending = s.pending := rfl
@[simp] theorem State.modTime_dev (f : TimeBlk → TimeBlk) : (s.modTime f).dev = s.dev := rfl
@[simp] theorem State.modTime_units (f : TimeBlk → TimeBlk) : (s.modTime f).units = s.units := rfl
@[simp] theorem State.modTime_mboxes (f : TimeBlk → TimeBlk) : (s.modTime f).mboxes = s.mboxes := rfl
@[simp] theorem State.modTime_rings (f : TimeBlk → TimeBlk) : (s.modTime f).rings = s.rings := rfl
@[simp] theorem State.modTime_evPages (f : TimeBlk → TimeBlk) : (s.modTime f).evPages = s.evPages := rfl
@[simp] theorem State.modTime_dbPages (f : TimeBlk → TimeBlk) : (s.modTime f).dbPages = s.dbPages := rfl
@[simp] theorem State.modTime_insts (f : TimeBlk → TimeBlk) : (s.modTime f).insts = s.insts := rfl
@[simp] theorem State.modTime_spoof (f : TimeBlk → TimeBlk) : (s.modTime f).spoof = s.spoof := rfl
@[simp] theorem State.modTime_tiers (f : TimeBlk → TimeBlk) : (s.modTime f).tiers = s.tiers := rfl
@[simp] theorem State.modTime_mem (f : TimeBlk → TimeBlk) : (s.modTime f).mem = s.mem := rfl
@[simp] theorem State.modTime_folds (f : TimeBlk → TimeBlk) : (s.modTime f).folds = s.folds := rfl
@[simp] theorem State.modTime_disp (f : TimeBlk → TimeBlk) : (s.modTime f).disp = s.disp := rfl
@[simp] theorem State.modTime_queues (f : TimeBlk → TimeBlk) : (s.modTime f).queues = s.queues := rfl
@[simp] theorem State.modTime_radio (f : TimeBlk → TimeBlk) : (s.modTime f).radio = s.radio := rfl
@[simp] theorem State.modTime_shep (f : TimeBlk → TimeBlk) : (s.modTime f).shep = s.shep := rfl
@[simp] theorem State.modTime_settings (f : TimeBlk → TimeBlk) : (s.modTime f).settings = s.settings := rfl
@[simp] theorem State.modTime_dma (f : TimeBlk → TimeBlk) : (s.modTime f).dma = s.dma := rfl
@[simp] theorem State.modTime_fh (f : TimeBlk → TimeBlk) : (s.modTime f).fh = s.fh := rfl
@[simp] theorem State.modTime_fab (f : TimeBlk → TimeBlk) : (s.modTime f).fab = s.fab := rfl
@[simp] theorem State.modTime_fabMem (f : TimeBlk → TimeBlk) : (s.modTime f).fabMem = s.fabMem := rfl
@[simp] theorem State.modTime_prov (f : TimeBlk → TimeBlk) : (s.modTime f).prov = s.prov := rfl
@[simp] theorem State.modTime_health (f : TimeBlk → TimeBlk) : (s.modTime f).health = s.health := rfl
@[simp] theorem State.modTime_flash (f : TimeBlk → TimeBlk) : (s.modTime f).flash = s.flash := rfl
@[simp] theorem State.modTime_fuses (f : TimeBlk → TimeBlk) : (s.modTime f).fuses = s.fuses := rfl
@[simp] theorem State.modTime_sec (f : TimeBlk → TimeBlk) : (s.modTime f).sec = s.sec := rfl
@[simp] theorem State.modTime_power (f : TimeBlk → TimeBlk) : (s.modTime f).power = s.power := rfl
@[simp] theorem State.modTime_pkg (f : TimeBlk → TimeBlk) : (s.modTime f).pkg = s.pkg := rfl
@[simp] theorem State.modTime_out (f : TimeBlk → TimeBlk) : (s.modTime f).out = s.out := rfl
@[simp] theorem State.modTime_fresh (f : TimeBlk → TimeBlk) : (s.modTime f).fresh = s.fresh := rfl

/-! ### `State.modShep` -/

@[simp] theorem State.modShep_pending (f : Shepherd → Shepherd) : (s.modShep f).pending = s.pending := rfl
@[simp] theorem State.modShep_dev (f : Shepherd → Shepherd) : (s.modShep f).dev = s.dev := rfl
@[simp] theorem State.modShep_units (f : Shepherd → Shepherd) : (s.modShep f).units = s.units := rfl
@[simp] theorem State.modShep_mboxes (f : Shepherd → Shepherd) : (s.modShep f).mboxes = s.mboxes := rfl
@[simp] theorem State.modShep_rings (f : Shepherd → Shepherd) : (s.modShep f).rings = s.rings := rfl
@[simp] theorem State.modShep_evPages (f : Shepherd → Shepherd) : (s.modShep f).evPages = s.evPages := rfl
@[simp] theorem State.modShep_dbPages (f : Shepherd → Shepherd) : (s.modShep f).dbPages = s.dbPages := rfl
@[simp] theorem State.modShep_insts (f : Shepherd → Shepherd) : (s.modShep f).insts = s.insts := rfl
@[simp] theorem State.modShep_spoof (f : Shepherd → Shepherd) : (s.modShep f).spoof = s.spoof := rfl
@[simp] theorem State.modShep_tiers (f : Shepherd → Shepherd) : (s.modShep f).tiers = s.tiers := rfl
@[simp] theorem State.modShep_mem (f : Shepherd → Shepherd) : (s.modShep f).mem = s.mem := rfl
@[simp] theorem State.modShep_folds (f : Shepherd → Shepherd) : (s.modShep f).folds = s.folds := rfl
@[simp] theorem State.modShep_disp (f : Shepherd → Shepherd) : (s.modShep f).disp = s.disp := rfl
@[simp] theorem State.modShep_queues (f : Shepherd → Shepherd) : (s.modShep f).queues = s.queues := rfl
@[simp] theorem State.modShep_radio (f : Shepherd → Shepherd) : (s.modShep f).radio = s.radio := rfl
@[simp] theorem State.modShep_settings (f : Shepherd → Shepherd) : (s.modShep f).settings = s.settings := rfl
@[simp] theorem State.modShep_dma (f : Shepherd → Shepherd) : (s.modShep f).dma = s.dma := rfl
@[simp] theorem State.modShep_fh (f : Shepherd → Shepherd) : (s.modShep f).fh = s.fh := rfl
@[simp] theorem State.modShep_time (f : Shepherd → Shepherd) : (s.modShep f).time = s.time := rfl
@[simp] theorem State.modShep_fab (f : Shepherd → Shepherd) : (s.modShep f).fab = s.fab := rfl
@[simp] theorem State.modShep_fabMem (f : Shepherd → Shepherd) : (s.modShep f).fabMem = s.fabMem := rfl
@[simp] theorem State.modShep_prov (f : Shepherd → Shepherd) : (s.modShep f).prov = s.prov := rfl
@[simp] theorem State.modShep_health (f : Shepherd → Shepherd) : (s.modShep f).health = s.health := rfl
@[simp] theorem State.modShep_flash (f : Shepherd → Shepherd) : (s.modShep f).flash = s.flash := rfl
@[simp] theorem State.modShep_fuses (f : Shepherd → Shepherd) : (s.modShep f).fuses = s.fuses := rfl
@[simp] theorem State.modShep_sec (f : Shepherd → Shepherd) : (s.modShep f).sec = s.sec := rfl
@[simp] theorem State.modShep_power (f : Shepherd → Shepherd) : (s.modShep f).power = s.power := rfl
@[simp] theorem State.modShep_pkg (f : Shepherd → Shepherd) : (s.modShep f).pkg = s.pkg := rfl
@[simp] theorem State.modShep_out (f : Shepherd → Shepherd) : (s.modShep f).out = s.out := rfl
@[simp] theorem State.modShep_fresh (f : Shepherd → Shepherd) : (s.modShep f).fresh = s.fresh := rfl

/-! ### `State.modFab` -/

@[simp] theorem State.modFab_pending (f : Fabric → Fabric) : (s.modFab f).pending = s.pending := rfl
@[simp] theorem State.modFab_dev (f : Fabric → Fabric) : (s.modFab f).dev = s.dev := rfl
@[simp] theorem State.modFab_units (f : Fabric → Fabric) : (s.modFab f).units = s.units := rfl
@[simp] theorem State.modFab_mboxes (f : Fabric → Fabric) : (s.modFab f).mboxes = s.mboxes := rfl
@[simp] theorem State.modFab_rings (f : Fabric → Fabric) : (s.modFab f).rings = s.rings := rfl
@[simp] theorem State.modFab_evPages (f : Fabric → Fabric) : (s.modFab f).evPages = s.evPages := rfl
@[simp] theorem State.modFab_dbPages (f : Fabric → Fabric) : (s.modFab f).dbPages = s.dbPages := rfl
@[simp] theorem State.modFab_insts (f : Fabric → Fabric) : (s.modFab f).insts = s.insts := rfl
@[simp] theorem State.modFab_spoof (f : Fabric → Fabric) : (s.modFab f).spoof = s.spoof := rfl
@[simp] theorem State.modFab_tiers (f : Fabric → Fabric) : (s.modFab f).tiers = s.tiers := rfl
@[simp] theorem State.modFab_mem (f : Fabric → Fabric) : (s.modFab f).mem = s.mem := rfl
@[simp] theorem State.modFab_folds (f : Fabric → Fabric) : (s.modFab f).folds = s.folds := rfl
@[simp] theorem State.modFab_disp (f : Fabric → Fabric) : (s.modFab f).disp = s.disp := rfl
@[simp] theorem State.modFab_queues (f : Fabric → Fabric) : (s.modFab f).queues = s.queues := rfl
@[simp] theorem State.modFab_radio (f : Fabric → Fabric) : (s.modFab f).radio = s.radio := rfl
@[simp] theorem State.modFab_shep (f : Fabric → Fabric) : (s.modFab f).shep = s.shep := rfl
@[simp] theorem State.modFab_settings (f : Fabric → Fabric) : (s.modFab f).settings = s.settings := rfl
@[simp] theorem State.modFab_dma (f : Fabric → Fabric) : (s.modFab f).dma = s.dma := rfl
@[simp] theorem State.modFab_fh (f : Fabric → Fabric) : (s.modFab f).fh = s.fh := rfl
@[simp] theorem State.modFab_time (f : Fabric → Fabric) : (s.modFab f).time = s.time := rfl
@[simp] theorem State.modFab_fabMem (f : Fabric → Fabric) : (s.modFab f).fabMem = s.fabMem := rfl
@[simp] theorem State.modFab_prov (f : Fabric → Fabric) : (s.modFab f).prov = s.prov := rfl
@[simp] theorem State.modFab_health (f : Fabric → Fabric) : (s.modFab f).health = s.health := rfl
@[simp] theorem State.modFab_flash (f : Fabric → Fabric) : (s.modFab f).flash = s.flash := rfl
@[simp] theorem State.modFab_fuses (f : Fabric → Fabric) : (s.modFab f).fuses = s.fuses := rfl
@[simp] theorem State.modFab_sec (f : Fabric → Fabric) : (s.modFab f).sec = s.sec := rfl
@[simp] theorem State.modFab_power (f : Fabric → Fabric) : (s.modFab f).power = s.power := rfl
@[simp] theorem State.modFab_pkg (f : Fabric → Fabric) : (s.modFab f).pkg = s.pkg := rfl
@[simp] theorem State.modFab_out (f : Fabric → Fabric) : (s.modFab f).out = s.out := rfl
@[simp] theorem State.modFab_fresh (f : Fabric → Fabric) : (s.modFab f).fresh = s.fresh := rfl

/-! ### `State.modFabMem` -/

@[simp] theorem State.modFabMem_pending (f : FabMem → FabMem) : (s.modFabMem f).pending = s.pending := rfl
@[simp] theorem State.modFabMem_dev (f : FabMem → FabMem) : (s.modFabMem f).dev = s.dev := rfl
@[simp] theorem State.modFabMem_units (f : FabMem → FabMem) : (s.modFabMem f).units = s.units := rfl
@[simp] theorem State.modFabMem_mboxes (f : FabMem → FabMem) : (s.modFabMem f).mboxes = s.mboxes := rfl
@[simp] theorem State.modFabMem_rings (f : FabMem → FabMem) : (s.modFabMem f).rings = s.rings := rfl
@[simp] theorem State.modFabMem_evPages (f : FabMem → FabMem) : (s.modFabMem f).evPages = s.evPages := rfl
@[simp] theorem State.modFabMem_dbPages (f : FabMem → FabMem) : (s.modFabMem f).dbPages = s.dbPages := rfl
@[simp] theorem State.modFabMem_insts (f : FabMem → FabMem) : (s.modFabMem f).insts = s.insts := rfl
@[simp] theorem State.modFabMem_spoof (f : FabMem → FabMem) : (s.modFabMem f).spoof = s.spoof := rfl
@[simp] theorem State.modFabMem_tiers (f : FabMem → FabMem) : (s.modFabMem f).tiers = s.tiers := rfl
@[simp] theorem State.modFabMem_mem (f : FabMem → FabMem) : (s.modFabMem f).mem = s.mem := rfl
@[simp] theorem State.modFabMem_folds (f : FabMem → FabMem) : (s.modFabMem f).folds = s.folds := rfl
@[simp] theorem State.modFabMem_disp (f : FabMem → FabMem) : (s.modFabMem f).disp = s.disp := rfl
@[simp] theorem State.modFabMem_queues (f : FabMem → FabMem) : (s.modFabMem f).queues = s.queues := rfl
@[simp] theorem State.modFabMem_radio (f : FabMem → FabMem) : (s.modFabMem f).radio = s.radio := rfl
@[simp] theorem State.modFabMem_shep (f : FabMem → FabMem) : (s.modFabMem f).shep = s.shep := rfl
@[simp] theorem State.modFabMem_settings (f : FabMem → FabMem) : (s.modFabMem f).settings = s.settings := rfl
@[simp] theorem State.modFabMem_dma (f : FabMem → FabMem) : (s.modFabMem f).dma = s.dma := rfl
@[simp] theorem State.modFabMem_fh (f : FabMem → FabMem) : (s.modFabMem f).fh = s.fh := rfl
@[simp] theorem State.modFabMem_time (f : FabMem → FabMem) : (s.modFabMem f).time = s.time := rfl
@[simp] theorem State.modFabMem_fab (f : FabMem → FabMem) : (s.modFabMem f).fab = s.fab := rfl
@[simp] theorem State.modFabMem_prov (f : FabMem → FabMem) : (s.modFabMem f).prov = s.prov := rfl
@[simp] theorem State.modFabMem_health (f : FabMem → FabMem) : (s.modFabMem f).health = s.health := rfl
@[simp] theorem State.modFabMem_flash (f : FabMem → FabMem) : (s.modFabMem f).flash = s.flash := rfl
@[simp] theorem State.modFabMem_fuses (f : FabMem → FabMem) : (s.modFabMem f).fuses = s.fuses := rfl
@[simp] theorem State.modFabMem_sec (f : FabMem → FabMem) : (s.modFabMem f).sec = s.sec := rfl
@[simp] theorem State.modFabMem_power (f : FabMem → FabMem) : (s.modFabMem f).power = s.power := rfl
@[simp] theorem State.modFabMem_pkg (f : FabMem → FabMem) : (s.modFabMem f).pkg = s.pkg := rfl
@[simp] theorem State.modFabMem_out (f : FabMem → FabMem) : (s.modFabMem f).out = s.out := rfl
@[simp] theorem State.modFabMem_fresh (f : FabMem → FabMem) : (s.modFabMem f).fresh = s.fresh := rfl

/-! ### `State.modProv` -/

@[simp] theorem State.modProv_pending (f : Prov → Prov) : (s.modProv f).pending = s.pending := rfl
@[simp] theorem State.modProv_dev (f : Prov → Prov) : (s.modProv f).dev = s.dev := rfl
@[simp] theorem State.modProv_units (f : Prov → Prov) : (s.modProv f).units = s.units := rfl
@[simp] theorem State.modProv_mboxes (f : Prov → Prov) : (s.modProv f).mboxes = s.mboxes := rfl
@[simp] theorem State.modProv_rings (f : Prov → Prov) : (s.modProv f).rings = s.rings := rfl
@[simp] theorem State.modProv_evPages (f : Prov → Prov) : (s.modProv f).evPages = s.evPages := rfl
@[simp] theorem State.modProv_dbPages (f : Prov → Prov) : (s.modProv f).dbPages = s.dbPages := rfl
@[simp] theorem State.modProv_insts (f : Prov → Prov) : (s.modProv f).insts = s.insts := rfl
@[simp] theorem State.modProv_spoof (f : Prov → Prov) : (s.modProv f).spoof = s.spoof := rfl
@[simp] theorem State.modProv_tiers (f : Prov → Prov) : (s.modProv f).tiers = s.tiers := rfl
@[simp] theorem State.modProv_mem (f : Prov → Prov) : (s.modProv f).mem = s.mem := rfl
@[simp] theorem State.modProv_folds (f : Prov → Prov) : (s.modProv f).folds = s.folds := rfl
@[simp] theorem State.modProv_disp (f : Prov → Prov) : (s.modProv f).disp = s.disp := rfl
@[simp] theorem State.modProv_queues (f : Prov → Prov) : (s.modProv f).queues = s.queues := rfl
@[simp] theorem State.modProv_radio (f : Prov → Prov) : (s.modProv f).radio = s.radio := rfl
@[simp] theorem State.modProv_shep (f : Prov → Prov) : (s.modProv f).shep = s.shep := rfl
@[simp] theorem State.modProv_settings (f : Prov → Prov) : (s.modProv f).settings = s.settings := rfl
@[simp] theorem State.modProv_dma (f : Prov → Prov) : (s.modProv f).dma = s.dma := rfl
@[simp] theorem State.modProv_fh (f : Prov → Prov) : (s.modProv f).fh = s.fh := rfl
@[simp] theorem State.modProv_time (f : Prov → Prov) : (s.modProv f).time = s.time := rfl
@[simp] theorem State.modProv_fab (f : Prov → Prov) : (s.modProv f).fab = s.fab := rfl
@[simp] theorem State.modProv_fabMem (f : Prov → Prov) : (s.modProv f).fabMem = s.fabMem := rfl
@[simp] theorem State.modProv_health (f : Prov → Prov) : (s.modProv f).health = s.health := rfl
@[simp] theorem State.modProv_flash (f : Prov → Prov) : (s.modProv f).flash = s.flash := rfl
@[simp] theorem State.modProv_fuses (f : Prov → Prov) : (s.modProv f).fuses = s.fuses := rfl
@[simp] theorem State.modProv_sec (f : Prov → Prov) : (s.modProv f).sec = s.sec := rfl
@[simp] theorem State.modProv_power (f : Prov → Prov) : (s.modProv f).power = s.power := rfl
@[simp] theorem State.modProv_pkg (f : Prov → Prov) : (s.modProv f).pkg = s.pkg := rfl
@[simp] theorem State.modProv_out (f : Prov → Prov) : (s.modProv f).out = s.out := rfl
@[simp] theorem State.modProv_fresh (f : Prov → Prov) : (s.modProv f).fresh = s.fresh := rfl

/-! ### `State.modHealth` -/

@[simp] theorem State.modHealth_pending (f : Health → Health) : (s.modHealth f).pending = s.pending := rfl
@[simp] theorem State.modHealth_dev (f : Health → Health) : (s.modHealth f).dev = s.dev := rfl
@[simp] theorem State.modHealth_units (f : Health → Health) : (s.modHealth f).units = s.units := rfl
@[simp] theorem State.modHealth_mboxes (f : Health → Health) : (s.modHealth f).mboxes = s.mboxes := rfl
@[simp] theorem State.modHealth_rings (f : Health → Health) : (s.modHealth f).rings = s.rings := rfl
@[simp] theorem State.modHealth_evPages (f : Health → Health) : (s.modHealth f).evPages = s.evPages := rfl
@[simp] theorem State.modHealth_dbPages (f : Health → Health) : (s.modHealth f).dbPages = s.dbPages := rfl
@[simp] theorem State.modHealth_insts (f : Health → Health) : (s.modHealth f).insts = s.insts := rfl
@[simp] theorem State.modHealth_spoof (f : Health → Health) : (s.modHealth f).spoof = s.spoof := rfl
@[simp] theorem State.modHealth_tiers (f : Health → Health) : (s.modHealth f).tiers = s.tiers := rfl
@[simp] theorem State.modHealth_mem (f : Health → Health) : (s.modHealth f).mem = s.mem := rfl
@[simp] theorem State.modHealth_folds (f : Health → Health) : (s.modHealth f).folds = s.folds := rfl
@[simp] theorem State.modHealth_disp (f : Health → Health) : (s.modHealth f).disp = s.disp := rfl
@[simp] theorem State.modHealth_queues (f : Health → Health) : (s.modHealth f).queues = s.queues := rfl
@[simp] theorem State.modHealth_radio (f : Health → Health) : (s.modHealth f).radio = s.radio := rfl
@[simp] theorem State.modHealth_shep (f : Health → Health) : (s.modHealth f).shep = s.shep := rfl
@[simp] theorem State.modHealth_settings (f : Health → Health) : (s.modHealth f).settings = s.settings := rfl
@[simp] theorem State.modHealth_dma (f : Health → Health) : (s.modHealth f).dma = s.dma := rfl
@[simp] theorem State.modHealth_fh (f : Health → Health) : (s.modHealth f).fh = s.fh := rfl
@[simp] theorem State.modHealth_time (f : Health → Health) : (s.modHealth f).time = s.time := rfl
@[simp] theorem State.modHealth_fab (f : Health → Health) : (s.modHealth f).fab = s.fab := rfl
@[simp] theorem State.modHealth_fabMem (f : Health → Health) : (s.modHealth f).fabMem = s.fabMem := rfl
@[simp] theorem State.modHealth_prov (f : Health → Health) : (s.modHealth f).prov = s.prov := rfl
@[simp] theorem State.modHealth_flash (f : Health → Health) : (s.modHealth f).flash = s.flash := rfl
@[simp] theorem State.modHealth_fuses (f : Health → Health) : (s.modHealth f).fuses = s.fuses := rfl
@[simp] theorem State.modHealth_sec (f : Health → Health) : (s.modHealth f).sec = s.sec := rfl
@[simp] theorem State.modHealth_power (f : Health → Health) : (s.modHealth f).power = s.power := rfl
@[simp] theorem State.modHealth_pkg (f : Health → Health) : (s.modHealth f).pkg = s.pkg := rfl
@[simp] theorem State.modHealth_out (f : Health → Health) : (s.modHealth f).out = s.out := rfl
@[simp] theorem State.modHealth_fresh (f : Health → Health) : (s.modHealth f).fresh = s.fresh := rfl

/-! ### `State.modSec` -/

@[simp] theorem State.modSec_pending (f : Sec → Sec) : (s.modSec f).pending = s.pending := rfl
@[simp] theorem State.modSec_dev (f : Sec → Sec) : (s.modSec f).dev = s.dev := rfl
@[simp] theorem State.modSec_units (f : Sec → Sec) : (s.modSec f).units = s.units := rfl
@[simp] theorem State.modSec_mboxes (f : Sec → Sec) : (s.modSec f).mboxes = s.mboxes := rfl
@[simp] theorem State.modSec_rings (f : Sec → Sec) : (s.modSec f).rings = s.rings := rfl
@[simp] theorem State.modSec_evPages (f : Sec → Sec) : (s.modSec f).evPages = s.evPages := rfl
@[simp] theorem State.modSec_dbPages (f : Sec → Sec) : (s.modSec f).dbPages = s.dbPages := rfl
@[simp] theorem State.modSec_insts (f : Sec → Sec) : (s.modSec f).insts = s.insts := rfl
@[simp] theorem State.modSec_spoof (f : Sec → Sec) : (s.modSec f).spoof = s.spoof := rfl
@[simp] theorem State.modSec_tiers (f : Sec → Sec) : (s.modSec f).tiers = s.tiers := rfl
@[simp] theorem State.modSec_mem (f : Sec → Sec) : (s.modSec f).mem = s.mem := rfl
@[simp] theorem State.modSec_folds (f : Sec → Sec) : (s.modSec f).folds = s.folds := rfl
@[simp] theorem State.modSec_disp (f : Sec → Sec) : (s.modSec f).disp = s.disp := rfl
@[simp] theorem State.modSec_queues (f : Sec → Sec) : (s.modSec f).queues = s.queues := rfl
@[simp] theorem State.modSec_radio (f : Sec → Sec) : (s.modSec f).radio = s.radio := rfl
@[simp] theorem State.modSec_shep (f : Sec → Sec) : (s.modSec f).shep = s.shep := rfl
@[simp] theorem State.modSec_settings (f : Sec → Sec) : (s.modSec f).settings = s.settings := rfl
@[simp] theorem State.modSec_dma (f : Sec → Sec) : (s.modSec f).dma = s.dma := rfl
@[simp] theorem State.modSec_fh (f : Sec → Sec) : (s.modSec f).fh = s.fh := rfl
@[simp] theorem State.modSec_time (f : Sec → Sec) : (s.modSec f).time = s.time := rfl
@[simp] theorem State.modSec_fab (f : Sec → Sec) : (s.modSec f).fab = s.fab := rfl
@[simp] theorem State.modSec_fabMem (f : Sec → Sec) : (s.modSec f).fabMem = s.fabMem := rfl
@[simp] theorem State.modSec_prov (f : Sec → Sec) : (s.modSec f).prov = s.prov := rfl
@[simp] theorem State.modSec_health (f : Sec → Sec) : (s.modSec f).health = s.health := rfl
@[simp] theorem State.modSec_flash (f : Sec → Sec) : (s.modSec f).flash = s.flash := rfl
@[simp] theorem State.modSec_fuses (f : Sec → Sec) : (s.modSec f).fuses = s.fuses := rfl
@[simp] theorem State.modSec_power (f : Sec → Sec) : (s.modSec f).power = s.power := rfl
@[simp] theorem State.modSec_pkg (f : Sec → Sec) : (s.modSec f).pkg = s.pkg := rfl
@[simp] theorem State.modSec_out (f : Sec → Sec) : (s.modSec f).out = s.out := rfl
@[simp] theorem State.modSec_fresh (f : Sec → Sec) : (s.modSec f).fresh = s.fresh := rfl

/-! ### `State.modPower` -/

@[simp] theorem State.modPower_pending (f : Power → Power) : (s.modPower f).pending = s.pending := rfl
@[simp] theorem State.modPower_dev (f : Power → Power) : (s.modPower f).dev = s.dev := rfl
@[simp] theorem State.modPower_units (f : Power → Power) : (s.modPower f).units = s.units := rfl
@[simp] theorem State.modPower_mboxes (f : Power → Power) : (s.modPower f).mboxes = s.mboxes := rfl
@[simp] theorem State.modPower_rings (f : Power → Power) : (s.modPower f).rings = s.rings := rfl
@[simp] theorem State.modPower_evPages (f : Power → Power) : (s.modPower f).evPages = s.evPages := rfl
@[simp] theorem State.modPower_dbPages (f : Power → Power) : (s.modPower f).dbPages = s.dbPages := rfl
@[simp] theorem State.modPower_insts (f : Power → Power) : (s.modPower f).insts = s.insts := rfl
@[simp] theorem State.modPower_spoof (f : Power → Power) : (s.modPower f).spoof = s.spoof := rfl
@[simp] theorem State.modPower_tiers (f : Power → Power) : (s.modPower f).tiers = s.tiers := rfl
@[simp] theorem State.modPower_mem (f : Power → Power) : (s.modPower f).mem = s.mem := rfl
@[simp] theorem State.modPower_folds (f : Power → Power) : (s.modPower f).folds = s.folds := rfl
@[simp] theorem State.modPower_disp (f : Power → Power) : (s.modPower f).disp = s.disp := rfl
@[simp] theorem State.modPower_queues (f : Power → Power) : (s.modPower f).queues = s.queues := rfl
@[simp] theorem State.modPower_radio (f : Power → Power) : (s.modPower f).radio = s.radio := rfl
@[simp] theorem State.modPower_shep (f : Power → Power) : (s.modPower f).shep = s.shep := rfl
@[simp] theorem State.modPower_settings (f : Power → Power) : (s.modPower f).settings = s.settings := rfl
@[simp] theorem State.modPower_dma (f : Power → Power) : (s.modPower f).dma = s.dma := rfl
@[simp] theorem State.modPower_fh (f : Power → Power) : (s.modPower f).fh = s.fh := rfl
@[simp] theorem State.modPower_time (f : Power → Power) : (s.modPower f).time = s.time := rfl
@[simp] theorem State.modPower_fab (f : Power → Power) : (s.modPower f).fab = s.fab := rfl
@[simp] theorem State.modPower_fabMem (f : Power → Power) : (s.modPower f).fabMem = s.fabMem := rfl
@[simp] theorem State.modPower_prov (f : Power → Power) : (s.modPower f).prov = s.prov := rfl
@[simp] theorem State.modPower_health (f : Power → Power) : (s.modPower f).health = s.health := rfl
@[simp] theorem State.modPower_flash (f : Power → Power) : (s.modPower f).flash = s.flash := rfl
@[simp] theorem State.modPower_fuses (f : Power → Power) : (s.modPower f).fuses = s.fuses := rfl
@[simp] theorem State.modPower_sec (f : Power → Power) : (s.modPower f).sec = s.sec := rfl
@[simp] theorem State.modPower_pkg (f : Power → Power) : (s.modPower f).pkg = s.pkg := rfl
@[simp] theorem State.modPower_out (f : Power → Power) : (s.modPower f).out = s.out := rfl
@[simp] theorem State.modPower_fresh (f : Power → Power) : (s.modPower f).fresh = s.fresh := rfl

/-! ### `State.modPkg` -/

@[simp] theorem State.modPkg_pending (f : Package → Package) : (s.modPkg f).pending = s.pending := rfl
@[simp] theorem State.modPkg_dev (f : Package → Package) : (s.modPkg f).dev = s.dev := rfl
@[simp] theorem State.modPkg_units (f : Package → Package) : (s.modPkg f).units = s.units := rfl
@[simp] theorem State.modPkg_mboxes (f : Package → Package) : (s.modPkg f).mboxes = s.mboxes := rfl
@[simp] theorem State.modPkg_rings (f : Package → Package) : (s.modPkg f).rings = s.rings := rfl
@[simp] theorem State.modPkg_evPages (f : Package → Package) : (s.modPkg f).evPages = s.evPages := rfl
@[simp] theorem State.modPkg_dbPages (f : Package → Package) : (s.modPkg f).dbPages = s.dbPages := rfl
@[simp] theorem State.modPkg_insts (f : Package → Package) : (s.modPkg f).insts = s.insts := rfl
@[simp] theorem State.modPkg_spoof (f : Package → Package) : (s.modPkg f).spoof = s.spoof := rfl
@[simp] theorem State.modPkg_tiers (f : Package → Package) : (s.modPkg f).tiers = s.tiers := rfl
@[simp] theorem State.modPkg_mem (f : Package → Package) : (s.modPkg f).mem = s.mem := rfl
@[simp] theorem State.modPkg_folds (f : Package → Package) : (s.modPkg f).folds = s.folds := rfl
@[simp] theorem State.modPkg_disp (f : Package → Package) : (s.modPkg f).disp = s.disp := rfl
@[simp] theorem State.modPkg_queues (f : Package → Package) : (s.modPkg f).queues = s.queues := rfl
@[simp] theorem State.modPkg_radio (f : Package → Package) : (s.modPkg f).radio = s.radio := rfl
@[simp] theorem State.modPkg_shep (f : Package → Package) : (s.modPkg f).shep = s.shep := rfl
@[simp] theorem State.modPkg_settings (f : Package → Package) : (s.modPkg f).settings = s.settings := rfl
@[simp] theorem State.modPkg_dma (f : Package → Package) : (s.modPkg f).dma = s.dma := rfl
@[simp] theorem State.modPkg_fh (f : Package → Package) : (s.modPkg f).fh = s.fh := rfl
@[simp] theorem State.modPkg_time (f : Package → Package) : (s.modPkg f).time = s.time := rfl
@[simp] theorem State.modPkg_fab (f : Package → Package) : (s.modPkg f).fab = s.fab := rfl
@[simp] theorem State.modPkg_fabMem (f : Package → Package) : (s.modPkg f).fabMem = s.fabMem := rfl
@[simp] theorem State.modPkg_prov (f : Package → Package) : (s.modPkg f).prov = s.prov := rfl
@[simp] theorem State.modPkg_health (f : Package → Package) : (s.modPkg f).health = s.health := rfl
@[simp] theorem State.modPkg_flash (f : Package → Package) : (s.modPkg f).flash = s.flash := rfl
@[simp] theorem State.modPkg_fuses (f : Package → Package) : (s.modPkg f).fuses = s.fuses := rfl
@[simp] theorem State.modPkg_sec (f : Package → Package) : (s.modPkg f).sec = s.sec := rfl
@[simp] theorem State.modPkg_power (f : Package → Package) : (s.modPkg f).power = s.power := rfl
@[simp] theorem State.modPkg_out (f : Package → Package) : (s.modPkg f).out = s.out := rfl
@[simp] theorem State.modPkg_fresh (f : Package → Package) : (s.modPkg f).fresh = s.fresh := rfl

/-! ### `State.modDisp` -/

@[simp] theorem State.modDisp_pending (f : Dispatch → Dispatch) : (s.modDisp f).pending = s.pending := rfl
@[simp] theorem State.modDisp_dev (f : Dispatch → Dispatch) : (s.modDisp f).dev = s.dev := rfl
@[simp] theorem State.modDisp_units (f : Dispatch → Dispatch) : (s.modDisp f).units = s.units := rfl
@[simp] theorem State.modDisp_mboxes (f : Dispatch → Dispatch) : (s.modDisp f).mboxes = s.mboxes := rfl
@[simp] theorem State.modDisp_rings (f : Dispatch → Dispatch) : (s.modDisp f).rings = s.rings := rfl
@[simp] theorem State.modDisp_evPages (f : Dispatch → Dispatch) : (s.modDisp f).evPages = s.evPages := rfl
@[simp] theorem State.modDisp_dbPages (f : Dispatch → Dispatch) : (s.modDisp f).dbPages = s.dbPages := rfl
@[simp] theorem State.modDisp_insts (f : Dispatch → Dispatch) : (s.modDisp f).insts = s.insts := rfl
@[simp] theorem State.modDisp_spoof (f : Dispatch → Dispatch) : (s.modDisp f).spoof = s.spoof := rfl
@[simp] theorem State.modDisp_tiers (f : Dispatch → Dispatch) : (s.modDisp f).tiers = s.tiers := rfl
@[simp] theorem State.modDisp_mem (f : Dispatch → Dispatch) : (s.modDisp f).mem = s.mem := rfl
@[simp] theorem State.modDisp_folds (f : Dispatch → Dispatch) : (s.modDisp f).folds = s.folds := rfl
@[simp] theorem State.modDisp_queues (f : Dispatch → Dispatch) : (s.modDisp f).queues = s.queues := rfl
@[simp] theorem State.modDisp_radio (f : Dispatch → Dispatch) : (s.modDisp f).radio = s.radio := rfl
@[simp] theorem State.modDisp_shep (f : Dispatch → Dispatch) : (s.modDisp f).shep = s.shep := rfl
@[simp] theorem State.modDisp_settings (f : Dispatch → Dispatch) : (s.modDisp f).settings = s.settings := rfl
@[simp] theorem State.modDisp_dma (f : Dispatch → Dispatch) : (s.modDisp f).dma = s.dma := rfl
@[simp] theorem State.modDisp_fh (f : Dispatch → Dispatch) : (s.modDisp f).fh = s.fh := rfl
@[simp] theorem State.modDisp_time (f : Dispatch → Dispatch) : (s.modDisp f).time = s.time := rfl
@[simp] theorem State.modDisp_fab (f : Dispatch → Dispatch) : (s.modDisp f).fab = s.fab := rfl
@[simp] theorem State.modDisp_fabMem (f : Dispatch → Dispatch) : (s.modDisp f).fabMem = s.fabMem := rfl
@[simp] theorem State.modDisp_prov (f : Dispatch → Dispatch) : (s.modDisp f).prov = s.prov := rfl
@[simp] theorem State.modDisp_health (f : Dispatch → Dispatch) : (s.modDisp f).health = s.health := rfl
@[simp] theorem State.modDisp_flash (f : Dispatch → Dispatch) : (s.modDisp f).flash = s.flash := rfl
@[simp] theorem State.modDisp_fuses (f : Dispatch → Dispatch) : (s.modDisp f).fuses = s.fuses := rfl
@[simp] theorem State.modDisp_sec (f : Dispatch → Dispatch) : (s.modDisp f).sec = s.sec := rfl
@[simp] theorem State.modDisp_power (f : Dispatch → Dispatch) : (s.modDisp f).power = s.power := rfl
@[simp] theorem State.modDisp_pkg (f : Dispatch → Dispatch) : (s.modDisp f).pkg = s.pkg := rfl
@[simp] theorem State.modDisp_out (f : Dispatch → Dispatch) : (s.modDisp f).out = s.out := rfl
@[simp] theorem State.modDisp_fresh (f : Dispatch → Dispatch) : (s.modDisp f).fresh = s.fresh := rfl

/-! ### `State.modTiers` -/

@[simp] theorem State.modTiers_pending (f : Tiers → Tiers) : (s.modTiers f).pending = s.pending := rfl
@[simp] theorem State.modTiers_dev (f : Tiers → Tiers) : (s.modTiers f).dev = s.dev := rfl
@[simp] theorem State.modTiers_units (f : Tiers → Tiers) : (s.modTiers f).units = s.units := rfl
@[simp] theorem State.modTiers_mboxes (f : Tiers → Tiers) : (s.modTiers f).mboxes = s.mboxes := rfl
@[simp] theorem State.modTiers_rings (f : Tiers → Tiers) : (s.modTiers f).rings = s.rings := rfl
@[simp] theorem State.modTiers_evPages (f : Tiers → Tiers) : (s.modTiers f).evPages = s.evPages := rfl
@[simp] theorem State.modTiers_dbPages (f : Tiers → Tiers) : (s.modTiers f).dbPages = s.dbPages := rfl
@[simp] theorem State.modTiers_insts (f : Tiers → Tiers) : (s.modTiers f).insts = s.insts := rfl
@[simp] theorem State.modTiers_spoof (f : Tiers → Tiers) : (s.modTiers f).spoof = s.spoof := rfl
@[simp] theorem State.modTiers_mem (f : Tiers → Tiers) : (s.modTiers f).mem = s.mem := rfl
@[simp] theorem State.modTiers_folds (f : Tiers → Tiers) : (s.modTiers f).folds = s.folds := rfl
@[simp] theorem State.modTiers_disp (f : Tiers → Tiers) : (s.modTiers f).disp = s.disp := rfl
@[simp] theorem State.modTiers_queues (f : Tiers → Tiers) : (s.modTiers f).queues = s.queues := rfl
@[simp] theorem State.modTiers_radio (f : Tiers → Tiers) : (s.modTiers f).radio = s.radio := rfl
@[simp] theorem State.modTiers_shep (f : Tiers → Tiers) : (s.modTiers f).shep = s.shep := rfl
@[simp] theorem State.modTiers_settings (f : Tiers → Tiers) : (s.modTiers f).settings = s.settings := rfl
@[simp] theorem State.modTiers_dma (f : Tiers → Tiers) : (s.modTiers f).dma = s.dma := rfl
@[simp] theorem State.modTiers_fh (f : Tiers → Tiers) : (s.modTiers f).fh = s.fh := rfl
@[simp] theorem State.modTiers_time (f : Tiers → Tiers) : (s.modTiers f).time = s.time := rfl
@[simp] theorem State.modTiers_fab (f : Tiers → Tiers) : (s.modTiers f).fab = s.fab := rfl
@[simp] theorem State.modTiers_fabMem (f : Tiers → Tiers) : (s.modTiers f).fabMem = s.fabMem := rfl
@[simp] theorem State.modTiers_prov (f : Tiers → Tiers) : (s.modTiers f).prov = s.prov := rfl
@[simp] theorem State.modTiers_health (f : Tiers → Tiers) : (s.modTiers f).health = s.health := rfl
@[simp] theorem State.modTiers_flash (f : Tiers → Tiers) : (s.modTiers f).flash = s.flash := rfl
@[simp] theorem State.modTiers_fuses (f : Tiers → Tiers) : (s.modTiers f).fuses = s.fuses := rfl
@[simp] theorem State.modTiers_sec (f : Tiers → Tiers) : (s.modTiers f).sec = s.sec := rfl
@[simp] theorem State.modTiers_power (f : Tiers → Tiers) : (s.modTiers f).power = s.power := rfl
@[simp] theorem State.modTiers_pkg (f : Tiers → Tiers) : (s.modTiers f).pkg = s.pkg := rfl
@[simp] theorem State.modTiers_out (f : Tiers → Tiers) : (s.modTiers f).out = s.out := rfl
@[simp] theorem State.modTiers_fresh (f : Tiers → Tiers) : (s.modTiers f).fresh = s.fresh := rfl

/-! ### `State.modDev` -/

@[simp] theorem State.modDev_pending (f : Dev → Dev) : (s.modDev f).pending = s.pending := rfl
@[simp] theorem State.modDev_units (f : Dev → Dev) : (s.modDev f).units = s.units := rfl
@[simp] theorem State.modDev_mboxes (f : Dev → Dev) : (s.modDev f).mboxes = s.mboxes := rfl
@[simp] theorem State.modDev_rings (f : Dev → Dev) : (s.modDev f).rings = s.rings := rfl
@[simp] theorem State.modDev_evPages (f : Dev → Dev) : (s.modDev f).evPages = s.evPages := rfl
@[simp] theorem State.modDev_dbPages (f : Dev → Dev) : (s.modDev f).dbPages = s.dbPages := rfl
@[simp] theorem State.modDev_insts (f : Dev → Dev) : (s.modDev f).insts = s.insts := rfl
@[simp] theorem State.modDev_spoof (f : Dev → Dev) : (s.modDev f).spoof = s.spoof := rfl
@[simp] theorem State.modDev_tiers (f : Dev → Dev) : (s.modDev f).tiers = s.tiers := rfl
@[simp] theorem State.modDev_mem (f : Dev → Dev) : (s.modDev f).mem = s.mem := rfl
@[simp] theorem State.modDev_folds (f : Dev → Dev) : (s.modDev f).folds = s.folds := rfl
@[simp] theorem State.modDev_disp (f : Dev → Dev) : (s.modDev f).disp = s.disp := rfl
@[simp] theorem State.modDev_queues (f : Dev → Dev) : (s.modDev f).queues = s.queues := rfl
@[simp] theorem State.modDev_radio (f : Dev → Dev) : (s.modDev f).radio = s.radio := rfl
@[simp] theorem State.modDev_shep (f : Dev → Dev) : (s.modDev f).shep = s.shep := rfl
@[simp] theorem State.modDev_settings (f : Dev → Dev) : (s.modDev f).settings = s.settings := rfl
@[simp] theorem State.modDev_dma (f : Dev → Dev) : (s.modDev f).dma = s.dma := rfl
@[simp] theorem State.modDev_fh (f : Dev → Dev) : (s.modDev f).fh = s.fh := rfl
@[simp] theorem State.modDev_time (f : Dev → Dev) : (s.modDev f).time = s.time := rfl
@[simp] theorem State.modDev_fab (f : Dev → Dev) : (s.modDev f).fab = s.fab := rfl
@[simp] theorem State.modDev_fabMem (f : Dev → Dev) : (s.modDev f).fabMem = s.fabMem := rfl
@[simp] theorem State.modDev_prov (f : Dev → Dev) : (s.modDev f).prov = s.prov := rfl
@[simp] theorem State.modDev_health (f : Dev → Dev) : (s.modDev f).health = s.health := rfl
@[simp] theorem State.modDev_flash (f : Dev → Dev) : (s.modDev f).flash = s.flash := rfl
@[simp] theorem State.modDev_fuses (f : Dev → Dev) : (s.modDev f).fuses = s.fuses := rfl
@[simp] theorem State.modDev_sec (f : Dev → Dev) : (s.modDev f).sec = s.sec := rfl
@[simp] theorem State.modDev_power (f : Dev → Dev) : (s.modDev f).power = s.power := rfl
@[simp] theorem State.modDev_pkg (f : Dev → Dev) : (s.modDev f).pkg = s.pkg := rfl
@[simp] theorem State.modDev_out (f : Dev → Dev) : (s.modDev f).out = s.out := rfl
@[simp] theorem State.modDev_fresh (f : Dev → Dev) : (s.modDev f).fresh = s.fresh := rfl

/-! ### `State.emit` -/

@[simp] theorem State.emit_pending (o : Output) : (s.emit o).pending = s.pending := rfl
@[simp] theorem State.emit_dev (o : Output) : (s.emit o).dev = s.dev := rfl
@[simp] theorem State.emit_units (o : Output) : (s.emit o).units = s.units := rfl
@[simp] theorem State.emit_mboxes (o : Output) : (s.emit o).mboxes = s.mboxes := rfl
@[simp] theorem State.emit_rings (o : Output) : (s.emit o).rings = s.rings := rfl
@[simp] theorem State.emit_evPages (o : Output) : (s.emit o).evPages = s.evPages := rfl
@[simp] theorem State.emit_dbPages (o : Output) : (s.emit o).dbPages = s.dbPages := rfl
@[simp] theorem State.emit_insts (o : Output) : (s.emit o).insts = s.insts := rfl
@[simp] theorem State.emit_spoof (o : Output) : (s.emit o).spoof = s.spoof := rfl
@[simp] theorem State.emit_tiers (o : Output) : (s.emit o).tiers = s.tiers := rfl
@[simp] theorem State.emit_mem (o : Output) : (s.emit o).mem = s.mem := rfl
@[simp] theorem State.emit_folds (o : Output) : (s.emit o).folds = s.folds := rfl
@[simp] theorem State.emit_disp (o : Output) : (s.emit o).disp = s.disp := rfl
@[simp] theorem State.emit_queues (o : Output) : (s.emit o).queues = s.queues := rfl
@[simp] theorem State.emit_radio (o : Output) : (s.emit o).radio = s.radio := rfl
@[simp] theorem State.emit_shep (o : Output) : (s.emit o).shep = s.shep := rfl
@[simp] theorem State.emit_settings (o : Output) : (s.emit o).settings = s.settings := rfl
@[simp] theorem State.emit_dma (o : Output) : (s.emit o).dma = s.dma := rfl
@[simp] theorem State.emit_fh (o : Output) : (s.emit o).fh = s.fh := rfl
@[simp] theorem State.emit_time (o : Output) : (s.emit o).time = s.time := rfl
@[simp] theorem State.emit_fab (o : Output) : (s.emit o).fab = s.fab := rfl
@[simp] theorem State.emit_fabMem (o : Output) : (s.emit o).fabMem = s.fabMem := rfl
@[simp] theorem State.emit_prov (o : Output) : (s.emit o).prov = s.prov := rfl
@[simp] theorem State.emit_health (o : Output) : (s.emit o).health = s.health := rfl
@[simp] theorem State.emit_flash (o : Output) : (s.emit o).flash = s.flash := rfl
@[simp] theorem State.emit_fuses (o : Output) : (s.emit o).fuses = s.fuses := rfl
@[simp] theorem State.emit_sec (o : Output) : (s.emit o).sec = s.sec := rfl
@[simp] theorem State.emit_power (o : Output) : (s.emit o).power = s.power := rfl
@[simp] theorem State.emit_pkg (o : Output) : (s.emit o).pkg = s.pkg := rfl
@[simp] theorem State.emit_fresh (o : Output) : (s.emit o).fresh = s.fresh := rfl

/-! ### What is written reads back, and nothing beside it changes -/

@[simp] theorem State.mbox_modMbox_same (k : Nat) (f : Mailbox → Mailbox) : (s.modMbox k f).mbox k = f (s.mbox k) := tget_tmod_same ..
theorem State.mbox_modMbox_ne {j k : Nat} (f : Mailbox → Mailbox) (h : j ≠ k) : (s.modMbox k f).mbox j = s.mbox j := tget_tmod_ne _ _ _ h
theorem State.mbox_modMbox (j k : Nat) (f : Mailbox → Mailbox) : (s.modMbox k f).mbox j = if j = k then f (s.mbox k) else s.mbox j := tget_tmod ..
@[simp] theorem State.ring_modRing_same (k : Nat) (f : EventRing → EventRing) : (s.modRing k f).ring k = f (s.ring k) := tget_tmod_same ..
theorem State.ring_modRing_ne {j k : Nat} (f : EventRing → EventRing) (h : j ≠ k) : (s.modRing k f).ring j = s.ring j := tget_tmod_ne _ _ _ h
theorem State.ring_modRing (j k : Nat) (f : EventRing → EventRing) : (s.modRing k f).ring j = if j = k then f (s.ring k) else s.ring j := tget_tmod ..
@[simp] theorem State.dbPage_modDbPage_same (k : Nat) (f : DbPage → DbPage) : (s.modDbPage k f).dbPage k = f (s.dbPage k) := tget_tmod_same ..
theorem State.dbPage_modDbPage_ne {j k : Nat} (f : DbPage → DbPage) (h : j ≠ k) : (s.modDbPage k f).dbPage j = s.dbPage j := tget_tmod_ne _ _ _ h
theorem State.dbPage_modDbPage (j k : Nat) (f : DbPage → DbPage) : (s.modDbPage k f).dbPage j = if j = k then f (s.dbPage k) else s.dbPage j := tget_tmod ..
@[simp] theorem State.inst_modInst_same (k : Nat) (f : Inst → Inst) : (s.modInst k f).inst k = f (s.inst k) := tget_tmod_same ..
theorem State.inst_modInst_ne {j k : Nat} (f : Inst → Inst) (h : j ≠ k) : (s.modInst k f).inst j = s.inst j := tget_tmod_ne _ _ _ h
theorem State.inst_modInst (j k : Nat) (f : Inst → Inst) : (s.modInst k f).inst j = if j = k then f (s.inst k) else s.inst j := tget_tmod ..
@[simp] theorem State.obj_modObj_same (k : Nat) (f : Obj → Obj) : (s.modObj k f).obj k = f (s.obj k) := tget_tmod_same ..
theorem State.obj_modObj_ne {j k : Nat} (f : Obj → Obj) (h : j ≠ k) : (s.modObj k f).obj j = s.obj j := tget_tmod_ne _ _ _ h
theorem State.obj_modObj (j k : Nat) (f : Obj → Obj) : (s.modObj k f).obj j = if j = k then f (s.obj k) else s.obj j := tget_tmod ..
@[simp] theorem State.mover_modMover_same (k : Nat) (f : Mover → Mover) : (s.modMover k f).mover k = f (s.mover k) := tget_tmod_same ..
theorem State.mover_modMover_ne {j k : Nat} (f : Mover → Mover) (h : j ≠ k) : (s.modMover k f).mover j = s.mover j := tget_tmod_ne _ _ _ h
theorem State.mover_modMover (j k : Nat) (f : Mover → Mover) : (s.modMover k f).mover j = if j = k then f (s.mover k) else s.mover j := tget_tmod ..
@[simp] theorem State.stackCtl_modStackCtl_same (k : Nat) (f : StackCtl → StackCtl) : (s.modStackCtl k f).stackCtl k = f (s.stackCtl k) := tget_tmod_same ..
theorem State.stackCtl_modStackCtl_ne {j k : Nat} (f : StackCtl → StackCtl) (h : j ≠ k) : (s.modStackCtl k f).stackCtl j = s.stackCtl j := tget_tmod_ne _ _ _ h
theorem State.stackCtl_modStackCtl (j k : Nat) (f : StackCtl → StackCtl) : (s.modStackCtl k f).stackCtl j = if j = k then f (s.stackCtl k) else s.stackCtl j := tget_tmod ..
@[simp] theorem State.fold_modFold_same (k : Nat) (f : Fold → Fold) : (s.modFold k f).fold k = f (s.fold k) := tget_tmod_same ..
theorem State.fold_modFold_ne {j k : Nat} (f : Fold → Fold) (h : j ≠ k) : (s.modFold k f).fold j = s.fold j := tget_tmod_ne _ _ _ h
theorem State.fold_modFold (j k : Nat) (f : Fold → Fold) : (s.modFold k f).fold j = if j = k then f (s.fold k) else s.fold j := tget_tmod ..
@[simp] theorem State.barrier_modBarrier_same (k : Nat) (f : Barrier → Barrier) : (s.modBarrier k f).barrier k = f (s.barrier k) := tget_tmod_same ..
theorem State.barrier_modBarrier_ne {j k : Nat} (f : Barrier → Barrier) (h : j ≠ k) : (s.modBarrier k f).barrier j = s.barrier j := tget_tmod_ne _ _ _ h
theorem State.barrier_modBarrier (j k : Nat) (f : Barrier → Barrier) : (s.modBarrier k f).barrier j = if j = k then f (s.barrier k) else s.barrier j := tget_tmod ..
@[simp] theorem State.sigCore_modSigCore_same (k : Nat) (f : SigCore → SigCore) : (s.modSigCore k f).sigCore k = f (s.sigCore k) := tget_tmod_same ..
theorem State.sigCore_modSigCore_ne {j k : Nat} (f : SigCore → SigCore) (h : j ≠ k) : (s.modSigCore k f).sigCore j = s.sigCore j := tget_tmod_ne _ _ _ h
theorem State.sigCore_modSigCore (j k : Nat) (f : SigCore → SigCore) : (s.modSigCore k f).sigCore j = if j = k then f (s.sigCore k) else s.sigCore j := tget_tmod ..
@[simp] theorem State.engine_modEngine_same (k : Nat) (f : Engine → Engine) : (s.modEngine k f).engine k = f (s.engine k) := tget_tmod_same ..
theorem State.engine_modEngine_ne {j k : Nat} (f : Engine → Engine) (h : j ≠ k) : (s.modEngine k f).engine j = s.engine j := tget_tmod_ne _ _ _ h
theorem State.engine_modEngine (j k : Nat) (f : Engine → Engine) : (s.modEngine k f).engine j = if j = k then f (s.engine k) else s.engine j := tget_tmod ..
@[simp] theorem State.cell_modCell_same (k : Nat) (f : Cell → Cell) : (s.modCell k f).cell k = f (s.cell k) := tget_tmod_same ..
theorem State.cell_modCell_ne {j k : Nat} (f : Cell → Cell) (h : j ≠ k) : (s.modCell k f).cell j = s.cell j := tget_tmod_ne _ _ _ h
theorem State.cell_modCell (j k : Nat) (f : Cell → Cell) : (s.modCell k f).cell j = if j = k then f (s.cell k) else s.cell j := tget_tmod ..
@[simp] theorem State.dmaEng_modDma_same (k : Nat) (f : DmaEngine → DmaEngine) : (s.modDma k f).dmaEng k = f (s.dmaEng k) := tget_tmod_same ..
theorem State.dmaEng_modDma_ne {j k : Nat} (f : DmaEngine → DmaEngine) (h : j ≠ k) : (s.modDma k f).dmaEng j = s.dmaEng j := tget_tmod_ne _ _ _ h
theorem State.dmaEng_modDma (j k : Nat) (f : DmaEngine → DmaEngine) : (s.modDma k f).dmaEng j = if j = k then f (s.dmaEng k) else s.dmaEng j := tget_tmod ..
@[simp] theorem State.lane_modLane_same (k : Nat) (f : Lane → Lane) : (s.modLane k f).lane k = f (s.lane k) := tget_tmod_same ..
theorem State.lane_modLane_ne {j k : Nat} (f : Lane → Lane) (h : j ≠ k) : (s.modLane k f).lane j = s.lane j := tget_tmod_ne _ _ _ h
theorem State.lane_modLane (j k : Nat) (f : Lane → Lane) : (s.modLane k f).lane j = if j = k then f (s.lane k) else s.lane j := tget_tmod ..
@[simp] theorem State.fhPort_modFhPort_same (k : Nat) (f : FhPort → FhPort) : (s.modFhPort k f).fhPort k = f (s.fhPort k) := tget_tmod_same ..
theorem State.fhPort_modFhPort_ne {j k : Nat} (f : FhPort → FhPort) (h : j ≠ k) : (s.modFhPort k f).fhPort j = s.fhPort j := tget_tmod_ne _ _ _ h
theorem State.fhPort_modFhPort (j k : Nat) (f : FhPort → FhPort) : (s.modFhPort k f).fhPort j = if j = k then f (s.fhPort k) else s.fhPort j := tget_tmod ..
@[simp] theorem State.fport_modFport_same (k : Nat) (f : FabPort → FabPort) : (s.modFport k f).fport k = f (s.fport k) := tget_tmod_same ..
theorem State.fport_modFport_ne {j k : Nat} (f : FabPort → FabPort) (h : j ≠ k) : (s.modFport k f).fport j = s.fport j := tget_tmod_ne _ _ _ h
theorem State.fport_modFport (j k : Nat) (f : FabPort → FabPort) : (s.modFport k f).fport j = if j = k then f (s.fport k) else s.fport j := tget_tmod ..
@[simp] theorem State.region_modRegion_same (k : Nat) (f : Region → Region) : (s.modRegion k f).region k = f (s.region k) := tget_tmod_same ..
theorem State.region_modRegion_ne {j k : Nat} (f : Region → Region) (h : j ≠ k) : (s.modRegion k f).region j = s.region j := tget_tmod_ne _ _ _ h
theorem State.region_modRegion (j k : Nat) (f : Region → Region) : (s.modRegion k f).region j = if j = k then f (s.region k) else s.region j := tget_tmod ..
@[simp] theorem State.core_modCore_same (k : Nat) (f : CtlCore → CtlCore) : (s.modCore k f).core k = f (s.core k) := tget_tmod_same ..
theorem State.core_modCore_ne {j k : Nat} (f : CtlCore → CtlCore) (h : j ≠ k) : (s.modCore k f).core j = s.core j := tget_tmod_ne _ _ _ h
theorem State.core_modCore (j k : Nat) (f : CtlCore → CtlCore) : (s.modCore k f).core j = if j = k then f (s.core k) else s.core j := tget_tmod ..

end Sys2Proof.Machine
end

