-- ==== Sys2Proof/Laws/Reports.lean ====
section
/-! SUPPORT. What events and responses touch: rings, companion memory, outputs and the counter of dropped link writes,
and for a response its mailbox. -/

namespace Sys2Proof.Machine

/-! ## Memory of the device -/

theorem Space.code_ne {sp : Space} (h : sp ≠ .companion) : sp.code ≠ 2 := by
  cases sp <;> simp_all [Space.code] <;> omega

theorem clip_length {α : Type} (a : Nat) (b : List α) : a % 2 ^ 64 + (clip a b).length ≤ 2 ^ 64 := by
  unfold clip
  have : a % 2 ^ 64 < 2 ^ 64 := Nat.mod_lt _ (by decide)
  split
  · assumption
  · rw [List.length_take]; omega

theorem SameDeviceMem.rfl {s : State} : SameDeviceMem s s := fun _ _ _ => Eq.refl _

theorem SameDeviceMem.trans {s t u : State} (a : SameDeviceMem s t) (b : SameDeviceMem t u) : SameDeviceMem s u :=
  fun sp x h => (b sp x h).trans (a sp x h)

/-- A write to companion memory touches no memory of the device. -/
theorem SameDeviceMem.wr (s : State) (a : Nat) (b : Bytes) : SameDeviceMem s (s.wr .companion a b) := by
  intro sp x h
  unfold State.wr
  split
  · rfl
  · show (s.mem.store _ _).rd _ = _
    rw [MemLaws.rd_store]
    have hc := Space.code_ne h
    have hl := clip_length a b
    have hx : x % 2 ^ 64 < 2 ^ 64 := Nat.mod_lt _ (by decide)
    refine MemLaws.rd_wrN_out _ _ _ _ ?_
    simp only [key]
    rw [show Space.companion.code = 2 from Eq.refl _]
    omega

/-! ## Events -/

theorem Reports.rfl {s : State} : Reports s s := ⟨Eq.refl _, .rfl⟩

theorem Reports.trans {s t u : State} (a : Reports s t) (b : Reports t u) : Reports s u :=
  ⟨b.1.trans a.1, a.2.trans b.2⟩

theorem Reports.wr (s : State) (a : Nat) (b : Bytes) : Reports s (s.wr .companion a b) := by
  refine ⟨?_, .wr s a b⟩
  unfold State.wr
  split <;> rfl

theorem Reports.modRing (s : State) (k : Nat) (f : EventRing → EventRing) : Reports s (s.modRing k f) := ⟨Eq.refl _, .rfl⟩

theorem Reports.emit (s : State) (o : Output) : Reports s (s.emit o) := ⟨Eq.refl _, .rfl⟩

theorem Reports.forEach {α : Type} (l : List α) (f : α → State → State) (h : ∀ a s, Reports s (f a s)) (s : State) :
    Reports s (s.forEach l f) := by
  unfold State.forEach
  induction l generalizing s with
  | nil => exact .rfl
  | cons a r ih => exact (h a s).trans (ih _)

theorem Reports.putRecord (k : Nat) (ev : EvRecord) (s : State) : Reports s (s.putRecord k ev) := by
  unfold State.putRecord
  dsimp only
  split
  · exact ((Reports.wr ..).trans (.modRing ..)).trans (.emit ..)
  · exact (Reports.wr ..).trans (.modRing ..)

theorem Reports.postRecord (k : Nat) (ev : EvRecord) (s : State) : Reports s (s.postRecord k ev) := by
  unfold State.postRecord
  dsimp only
  split
  · split <;> exact .modRing ..
  · exact .putRecord ..

theorem Reports.flushRing (k n : Nat) (s : State) : Reports s (State.flushRing k n s) := by
  induction n generalizing s with
  | zero => exact .rfl
  | succ n ih =>
    simp only [State.flushRing]
    split
    · exact .rfl
    · split
      · exact ((Reports.modRing ..).trans (.putRecord ..)).trans (ih _)
      · split
        · exact .rfl
        · split
          · exact .modRing ..
          · exact (Reports.modRing ..).trans (.putRecord ..)

theorem Reports.raiseTo (code inst ty idx payload : Nat) (h : Role × Nat) (s : State) :
    Reports s (s.raiseTo code inst ty idx payload h) := by
  unfold State.raiseTo
  refine Reports.forEach _ _ (fun k s => ?_) _
  dsimp only
  split
  · exact .postRecord ..
  · exact .rfl

theorem Reports.raise (code inst : Nat) (u : UnitId) (payload : Nat) (s : State) :
    Reports s (s.raise code inst u payload) := .raiseTo ..

theorem Reports.raiseResponse (m : Nat) (s : State) : Reports s (s.raiseResponse m) := by
  unfold State.raiseResponse
  dsimp only
  split
  · exact .postRecord ..
  · exact .rfl

theorem Reports.iteRaise (b : Bool) (m : Nat) (s : State) : Reports s (if b then s.raiseResponse m else s) := by
  split
  · exact .raiseResponse ..
  · exact .rfl

/-- What an event leaves alone reads as before. -/
theorem Reports.get {s t : State} (h : Reports s t) :
    t.pending = s.pending ∧ t.dev = s.dev ∧ t.units = s.units ∧ t.mboxes = s.mboxes ∧ t.evPages = s.evPages ∧
    t.dbPages = s.dbPages ∧ t.insts = s.insts ∧ t.spoof = s.spoof ∧ t.tiers = s.tiers ∧ t.folds = s.folds ∧
    t.disp = s.disp ∧ t.queues = s.queues ∧ t.radio = s.radio ∧ t.shep = s.shep ∧ t.settings = s.settings ∧
    t.dma = s.dma ∧ t.fh = s.fh ∧ t.time = s.time ∧ t.fab = s.fab ∧ t.fabMem = s.fabMem ∧ t.prov = s.prov ∧
    t.health = s.health ∧ t.flash = s.flash ∧ t.fuses = s.fuses ∧ t.sec = s.sec ∧ t.pkg = s.pkg ∧ t.fresh = s.fresh := by
  have h := h.1
  simp only [State.quiet, State.mk.injEq] at h
  simp only [h, and_self]

theorem Reports.power {s t : State} (h : Reports s t) : { t.power with fyfDrops := 0 } = { s.power with fyfDrops := 0 } := by
  have h := h.1
  simp only [State.quiet, State.mk.injEq] at h
  simp only [h]

/-- The link carries messages as before. -/
theorem Reports.carries {s t : State} (h : Reports s t) : t.carries = s.carries := by
  have := h.power
  simp only [Power.mk.injEq] at this
  simp only [State.carries, Power.carries, this]

/-! ## Responses -/

theorem Reports.hideMboxes {s t : State} (h : Reports s t) :
    Reports { s with mboxes := [] } { t with mboxes := [] } := by
  refine ⟨?_, h.2⟩
  have h := h.1
  simp only [State.quiet, State.mk.injEq] at h ⊢
  simp [h]

theorem mbox_of_reports {s t : State} (h : Reports s t) (k : Nat) : t.mbox k = s.mbox k := by
  unfold State.mbox; rw [h.get.2.2.2.1]

/-- The response to a command, whether it goes on or not. -/
theorem Responds.respond (u : State) (m : Nat) (c : Cmd) (st : Status) (result : Bytes) (pending : Bool) :
    Responds u (State.respond m c st result pending
      (if pending then u.modMbox m (fun b => { b with long := b.long ++ [⟨c.opcode, c.seq⟩] }) else u)) m c st result pending := by
  have hd : ∀ v : State, (v.mkResponse c st result pending) =
      { opcode := c.opcode, status := st, seq := c.seq, instId := c.instId, pending, result, dstate := v.dev.dstate.code } :=
    fun _ => rfl
  refine ⟨?_, fun k => ?_⟩
  · have hm : ∀ (v : State) f, Reports { v with mboxes := [] } { v.modMbox m f with mboxes := [] } :=
      fun _ _ => ⟨Eq.refl _, .rfl⟩
    unfold State.respond State.writeResponse
    dsimp only
    refine .trans ?_ (hm ..)
    refine .trans ?_ (Reports.iteRaise ..).hideMboxes
    refine .trans ?_ (hm ..)
    refine .trans ?_ (Reports.wr ..).hideMboxes
    refine .trans ?_ (hm ..)
    split
    · exact hm ..
    · exact .rfl
  · unfold State.respond State.writeResponse
    dsimp only
    simp only [State.mbox_modMbox, mbox_of_reports (Reports.iteRaise ..), mbox_of_reports (Reports.wr ..)]
    by_cases hk : k = m
    · subst hk
      simp only [if_true]
      cases pending <;> simp [Mailbox.answered, hd, State.carries]
    · simp only [hk, if_false]
      cases pending <;> simp [State.mbox_modMbox, hk]

theorem Responds.of_reports {u u' t : State} {m : Nat} {c : Cmd} {st : Status} {r : Bytes} {p : Bool} (h : Reports u u')
    (ht : Responds u' t m c st r p) : Responds u t m c st r p := by
  refine ⟨h.hideMboxes.trans ht.1, fun k => ?_⟩
  rw [ht.2 k, mbox_of_reports h, mbox_of_reports h, h.get.2.1, h.carries]

/-- The answer to a command whose effect leaves the mailboxes alone. -/
theorem Responds.answers {s u t : State} {m : Nat} {c : Cmd} {st : Status} {r : Bytes} {p : Bool} (h : Responds u t m c st r p)
    (hm : u.mboxes = s.mboxes) : Answers s t m c st r p := by
  have hd : t.dev = u.dev := h.1.get.2.1
  have hc : t.carries = u.carries := Reports.carries (s := { u with mboxes := [] }) (t := { t with mboxes := [] }) h.1
  intro k
  rw [h.2 k, hd, hc]
  unfold State.mbox
  rw [hm]

/-- The checks of R90 on a command that is taken up. -/
def State.checks (op : Nat) (early : Cmd → State → List Err) (states : Cmd → List Nat) (late : Cmd → State → List Err)
    (m : Nat) (c : Cmd) (s : State) : Err :=
  firstErr (early c s ++ [conflictIf (!(states c).contains s.dev.dstate.code) 0 s.dev.dstate.code (legalMask (states c)) 0] ++
    late c s ++ [failIf ((match catalogueRow op with | none => false | some r => r.long) && decide (4 ≤ (s.mbox m).long.length)) .capacity])

theorem firstErr_append (l r : List Err) : firstErr (l ++ r) = (firstErr l).or (firstErr r) := by
  induction l with
  | nil => simp [firstErr]
  | cons a l ih => cases a <;> simp_all [firstErr]

theorem verdict_taken {s : State} {m op : Nat} {c : Cmd} (ht : Taken s m op c) (early states late) :
    s.verdict m op early states late = some (c, s.checks op early states late m c) := by
  obtain ⟨hc, ho, hr, hs⟩ := ht
  unfold State.verdict State.checks
  rw [hc]
  simp only [ho, hr, bne_self_eq_false, Bool.or_self, Bool.false_eq_true, if_false, hs, Bool.not_true]
  simp only [firstErr_append]
  cases firstErr (early c s) <;> rfl

/-- A command that is taken up and passes its checks has its effect and is answered OK. -/
theorem runCommand_ok {s : State} {m op : Nat} {c : Cmd} (ht : Taken s m op c) (early states late effect)
    (h : s.checks op early states late m c = none) :
    Responds (effect c s).1 (s.runCommand m op early states late effect) m c .ok (effect c s).2.1 (effect c s).2.2 := by
  unfold State.runCommand
  rw [verdict_taken ht, h]
  have ho := ht.2.1
  subst ho
  exact Responds.respond ..

/-- A command that is taken up and fails a check is answered with that check's status and has no effect. -/
theorem runCommand_err {s : State} {m op : Nat} {c : Cmd} (ht : Taken s m op c) (early states late effect) (e : Status × Bytes)
    (h : s.checks op early states late m c = some e) :
    Responds s (s.runCommand m op early states late effect) m c e.1 e.2 false := by
  unfold State.runCommand
  rw [verdict_taken ht, h]
  exact Responds.respond s m c e.1 e.2 false

/-- A command that is not taken up does nothing. -/
theorem runCommand_idle {s : State} {m op : Nat} (h : ∀ c, (s.mbox m).current = some c → c.opcode ≠ op ∨ (s.core (serverOf m)).restarting = true)
    (early states late effect) : s.runCommand m op early states late effect = s := by
  unfold State.runCommand State.verdict
  cases hc : (s.mbox m).current with
  | none => rfl
  | some c =>
    dsimp only
    have := h c hc
    rw [if_pos (by simpa [bne_iff_ne] using this)]

end Sys2Proof.Machine
end

