-- ==== Sys2Proof/Laws/Commands.lean ====
section
/-! SUPPORT. Laws of the mailbox commands: the rows of Table 03-9, the checks, what an answered command leaves alone. -/

namespace Sys2Proof.Machine

theorem tget_filter {α} (d : α) (t : List (Nat × α)) (q : Nat → Bool) (k : Nat) :
    tget d (t.filter (fun p => q p.1)) k = if q k then tget d t k else d := by
  induction t with
  | nil => simp
  | cons p r ih =>
    obtain ⟨j, v⟩ := p
    simp only [List.filter_cons]
    by_cases hj : q j <;> by_cases hk : k = j <;> simp_all [tget]

theorem key_div (sp : Space) (a : Nat) : key sp a / 2 ^ 64 = sp.code := by
  unfold key
  rw [Nat.add_comm, Nat.add_mul_div_right _ _ (by decide), Nat.div_eq_of_lt (Nat.mod_lt _ (by decide)), Nat.zero_add]

theorem measure_extend (i : Nat) (d : Bytes) (s : State) (j : Nat) : (s.extend i d).measure j =
    if j = i then shakeTag 32 [0x4D, 0x56, 0x4E, 0x2D, 0x4D, 0x58] (s.measure i ++ fixLen 32 d) else s.measure j := by
  unfold State.extend State.measure State.modSec
  simp only [tget_tset]

/-- The device changes its state where Table 03-6 lets it, and reports it. -/
theorem setDevice_reports {s : State} {new : DState} (h : legalDevice s.dev.dstate new = true) :
    Reports { s with dev := { s.dev with dstate := new } } (s.setDevice new) := by
  unfold State.setDevice
  rw [if_pos h]
  exact .raise ..

theorem setDevice_dstate {s : State} {new : DState} (h : legalDevice s.dev.dstate new = true) :
    (s.setDevice new).dev = { s.dev with dstate := new } := (setDevice_reports h).get.2.1

/-! rows of Table 03-9 -/
@[simp] theorem states_0001 : statesOf 0x0001 = [0, 1, 2, 3, 4, 5, 6, 7, 8, 9] := rfl
@[simp] theorem cat_0001 : catalogueRow 0x0001 = some ⟨0x0001, rolesAll, [0, 1, 2, 3, 4, 5, 6, 7, 8, 9], false⟩ := rfl
@[simp] theorem states_0002 : statesOf 0x0002 = [1, 2, 3, 4, 5, 6, 7, 8, 9] := rfl
@[simp] theorem cat_0002 : catalogueRow 0x0002 = some ⟨0x0002, [.manager], [1, 2, 3, 4, 5, 6, 7, 8, 9], false⟩ := rfl
@[simp] theorem states_0003 : statesOf 0x0003 = [0, 1, 2, 3, 4, 5, 6, 7, 8, 9] := rfl
@[simp] theorem cat_0003 : catalogueRow 0x0003 = some ⟨0x0003, rolesAll, [0, 1, 2, 3, 4, 5, 6, 7, 8, 9], false⟩ := rfl
@[simp] theorem states_0004 : statesOf 0x0004 = [1] := rfl
@[simp] theorem cat_0004 : catalogueRow 0x0004 = some ⟨0x0004, [.manager], [1], false⟩ := rfl
@[simp] theorem states_0005 : statesOf 0x0005 = [2] := rfl
@[simp] theorem cat_0005 : catalogueRow 0x0005 = some ⟨0x0005, [.manager], [2], false⟩ := rfl
@[simp] theorem states_0006 : statesOf 0x0006 = [0, 1, 2, 3, 4, 5, 6, 7, 8, 9] := rfl
@[simp] theorem cat_0006 : catalogueRow 0x0006 = some ⟨0x0006, [.manager], [0, 1, 2, 3, 4, 5, 6, 7, 8, 9], false⟩ := rfl
@[simp] theorem states_0007 : statesOf 0x0007 = [1, 2, 3, 4, 5, 6, 7, 8, 9] := rfl
@[simp] theorem cat_0007 : catalogueRow 0x0007 = some ⟨0x0007, [.manager], [1, 2, 3, 4, 5, 6, 7, 8, 9], false⟩ := rfl
@[simp] theorem states_0008 : statesOf 0x0008 = [1, 2, 3, 4, 5, 6, 7, 8, 9] := rfl
@[simp] theorem cat_0008 : catalogueRow 0x0008 = some ⟨0x0008, [.manager], [1, 2, 3, 4, 5, 6, 7, 8, 9], false⟩ := rfl
@[simp] theorem states_0101 : statesOf 0x0101 = [2, 3, 4, 7, 8] := rfl
@[simp] theorem cat_0101 : catalogueRow 0x0101 = some ⟨0x0101, [.manager], [2, 3, 4, 7, 8], false⟩ := rfl
@[simp] theorem states_0102 : statesOf 0x0102 = [2, 3, 4, 7, 8, 9] := rfl
@[simp] theorem cat_0102 : catalogueRow 0x0102 = some ⟨0x0102, [.manager], [2, 3, 4, 7, 8, 9], false⟩ := rfl
@[simp] theorem states_0103 : statesOf 0x0103 = [3, 4, 7, 8, 9] := rfl
@[simp] theorem cat_0103 : catalogueRow 0x0103 = some ⟨0x0103, [.manager, .tenant], [3, 4, 7, 8, 9], false⟩ := rfl
@[simp] theorem states_0104 : statesOf 0x0104 = [3, 4, 7, 8] := rfl
@[simp] theorem cat_0104 : catalogueRow 0x0104 = some ⟨0x0104, [.manager], [3, 4, 7, 8], false⟩ := rfl
@[simp] theorem states_0105 : statesOf 0x0105 = [3, 4, 7, 8] := rfl
@[simp] theorem cat_0105 : catalogueRow 0x0105 = some ⟨0x0105, [.manager], [3, 4, 7, 8], true⟩ := rfl
@[simp] theorem states_0106 : statesOf 0x0106 = [2, 3, 4, 7, 8] := rfl
@[simp] theorem cat_0106 : catalogueRow 0x0106 = some ⟨0x0106, [.manager], [2, 3, 4, 7, 8], true⟩ := rfl
@[simp] theorem states_0107 : statesOf 0x0107 = [3, 4, 7, 8] := rfl
@[simp] theorem cat_0107 : catalogueRow 0x0107 = some ⟨0x0107, [.manager], [3, 4, 7, 8], false⟩ := rfl
@[simp] theorem states_0108 : statesOf 0x0108 = [3, 4, 7, 8] := rfl
@[simp] theorem cat_0108 : catalogueRow 0x0108 = some ⟨0x0108, [.manager], [3, 4, 7, 8], false⟩ := rfl
@[simp] theorem states_0109 : statesOf 0x0109 = [2, 3, 4, 7, 8] := rfl
@[simp] theorem cat_0109 : catalogueRow 0x0109 = some ⟨0x0109, [.manager], [2, 3, 4, 7, 8], false⟩ := rfl
@[simp] theorem states_0201 : statesOf 0x0201 = [2, 3, 4, 8] := rfl
@[simp] theorem cat_0201 : catalogueRow 0x0201 = some ⟨0x0201, [.radio], [2, 3, 4, 8], false⟩ := rfl
@[simp] theorem states_0202 : statesOf 0x0202 = [2, 3, 4, 6, 8] := rfl
@[simp] theorem cat_0202 : catalogueRow 0x0202 = some ⟨0x0202, [.radio], [2, 3, 4, 6, 8], false⟩ := rfl
@[simp] theorem states_0203 : statesOf 0x0203 = [3, 4, 8] := rfl
@[simp] theorem cat_0203 : catalogueRow 0x0203 = some ⟨0x0203, [.radio], [3, 4, 8], false⟩ := rfl
@[simp] theorem states_0204 : statesOf 0x0204 = [2, 3, 4, 8] := rfl
@[simp] theorem cat_0204 : catalogueRow 0x0204 = some ⟨0x0204, [.manager], [2, 3, 4, 8], false⟩ := rfl
@[simp] theorem states_0205 : statesOf 0x0205 = [2, 3, 4, 8] := rfl
@[simp] theorem cat_0205 : catalogueRow 0x0205 = some ⟨0x0205, [.manager], [2, 3, 4, 8], false⟩ := rfl
@[simp] theorem states_0206 : statesOf 0x0206 = [2, 3, 4, 8] := rfl
@[simp] theorem cat_0206 : catalogueRow 0x0206 = some ⟨0x0206, [.radio], [2, 3, 4, 8], true⟩ := rfl
@[simp] theorem states_0301 : statesOf 0x0301 = [2, 3, 4, 7, 8] := rfl
@[simp] theorem cat_0301 : catalogueRow 0x0301 = some ⟨0x0301, [.tenant, .radio], [2, 3, 4, 7, 8], false⟩ := rfl
@[simp] theorem states_0302 : statesOf 0x0302 = [2, 3, 4, 7, 8] := rfl
@[simp] theorem cat_0302 : catalogueRow 0x0302 = some ⟨0x0302, [.tenant, .radio], [2, 3, 4, 7, 8], false⟩ := rfl
@[simp] theorem states_0303 : statesOf 0x0303 = [2, 3, 4, 7, 8] := rfl
@[simp] theorem cat_0303 : catalogueRow 0x0303 = some ⟨0x0303, [.tenant, .radio], [2, 3, 4, 7, 8], false⟩ := rfl
@[simp] theorem states_0304 : statesOf 0x0304 = [2, 3, 4, 7, 8] := rfl
@[simp] theorem cat_0304 : catalogueRow 0x0304 = some ⟨0x0304, [.tenant, .radio], [2, 3, 4, 7, 8], false⟩ := rfl
@[simp] theorem states_0305 : statesOf 0x0305 = [2, 3, 4, 7, 8] := rfl
@[simp] theorem cat_0305 : catalogueRow 0x0305 = some ⟨0x0305, [.tenant, .radio], [2, 3, 4, 7, 8], false⟩ := rfl
@[simp] theorem states_0306 : statesOf 0x0306 = [2, 3, 4, 7, 8] := rfl
@[simp] theorem cat_0306 : catalogueRow 0x0306 = some ⟨0x0306, [.tenant, .radio], [2, 3, 4, 7, 8], false⟩ := rfl
@[simp] theorem states_0401 : statesOf 0x0401 = [2, 3, 4, 7, 8] := rfl
@[simp] theorem cat_0401 : catalogueRow 0x0401 = some ⟨0x0401, [.manager, .tenant, .radio], [2, 3, 4, 7, 8], false⟩ := rfl
@[simp] theorem states_0402 : statesOf 0x0402 = [2, 3, 4, 7, 8] := rfl
@[simp] theorem cat_0402 : catalogueRow 0x0402 = some ⟨0x0402, [.manager], [2, 3, 4, 7, 8], false⟩ := rfl
@[simp] theorem states_0403 : statesOf 0x0403 = [2, 3, 4, 5, 6, 7, 8, 9] := rfl
@[simp] theorem cat_0403 : catalogueRow 0x0403 = some ⟨0x0403, [.manager], [2, 3, 4, 5, 6, 7, 8, 9], false⟩ := rfl
@[simp] theorem states_0404 : statesOf 0x0404 = [1, 2, 3, 4, 5, 6, 7, 8, 9] := rfl
@[simp] theorem cat_0404 : catalogueRow 0x0404 = some ⟨0x0404, [.manager, .group], [1, 2, 3, 4, 5, 6, 7, 8, 9], false⟩ := rfl
@[simp] theorem states_0501 : statesOf 0x0501 = [1, 2, 3, 4, 5, 6, 7, 8, 9] := rfl
@[simp] theorem cat_0501 : catalogueRow 0x0501 = some ⟨0x0501, [.manager], [1, 2, 3, 4, 5, 6, 7, 8, 9], false⟩ := rfl
@[simp] theorem states_0502 : statesOf 0x0502 = [1, 2, 3, 4, 5, 6, 7, 8, 9] := rfl
@[simp] theorem cat_0502 : catalogueRow 0x0502 = some ⟨0x0502, [.manager], [1, 2, 3, 4, 5, 6, 7, 8, 9], false⟩ := rfl
@[simp] theorem states_0503 : statesOf 0x0503 = [1, 2, 3, 4, 5, 6, 7, 8, 9] := rfl
@[simp] theorem cat_0503 : catalogueRow 0x0503 = some ⟨0x0503, [.manager], [1, 2, 3, 4, 5, 6, 7, 8, 9], false⟩ := rfl
@[simp] theorem states_0601 : statesOf 0x0601 = [3, 8] := rfl
@[simp] theorem cat_0601 : catalogueRow 0x0601 = some ⟨0x0601, [.manager, .group], [3, 8], false⟩ := rfl
@[simp] theorem states_0602 : statesOf 0x0602 = [7, 9] := rfl
@[simp] theorem cat_0602 : catalogueRow 0x0602 = some ⟨0x0602, [.group], [7, 9], true⟩ := rfl
@[simp] theorem states_0603 : statesOf 0x0603 = [3, 7, 8, 9] := rfl
@[simp] theorem cat_0603 : catalogueRow 0x0603 = some ⟨0x0603, [.group], [3, 7, 8, 9], true⟩ := rfl
@[simp] theorem states_0604 : statesOf 0x0604 = [3, 4, 6, 7, 8] := rfl
@[simp] theorem cat_0604 : catalogueRow 0x0604 = some ⟨0x0604, [.group], [3, 4, 6, 7, 8], false⟩ := rfl
@[simp] theorem states_0605 : statesOf 0x0605 = [9] := rfl
@[simp] theorem cat_0605 : catalogueRow 0x0605 = some ⟨0x0605, [.group], [9], false⟩ := rfl
@[simp] theorem states_0606 : statesOf 0x0606 = [3, 4, 7, 8, 9] := rfl
@[simp] theorem cat_0606 : catalogueRow 0x0606 = some ⟨0x0606, [.manager, .group], [3, 4, 7, 8, 9], false⟩ := rfl
@[simp] theorem states_0607 : statesOf 0x0607 = [3, 4, 7, 8, 9] := rfl
@[simp] theorem cat_0607 : catalogueRow 0x0607 = some ⟨0x0607, [.manager, .group], [3, 4, 7, 8, 9], false⟩ := rfl
@[simp] theorem states_0608 : statesOf 0x0608 = [2, 3] := rfl
@[simp] theorem cat_0608 : catalogueRow 0x0608 = some ⟨0x0608, [.group], [2, 3], false⟩ := rfl
@[simp] theorem states_0609 : statesOf 0x0609 = [7] := rfl
@[simp] theorem cat_0609 : catalogueRow 0x0609 = some ⟨0x0609, [.group], [7], true⟩ := rfl
@[simp] theorem states_060A : statesOf 0x060A = [1, 2, 3, 4, 5, 6, 7, 8, 9] := rfl
@[simp] theorem cat_060A : catalogueRow 0x060A = some ⟨0x060A, [.manager, .group], [1, 2, 3, 4, 5, 6, 7, 8, 9], true⟩ := rfl
@[simp] theorem states_060B : statesOf 0x060B = [1, 2, 3, 4, 5, 6, 7, 8, 9] := rfl
@[simp] theorem cat_060B : catalogueRow 0x060B = some ⟨0x060B, [.manager, .group], [1, 2, 3, 4, 5, 6, 7, 8, 9], false⟩ := rfl
@[simp] theorem states_0701 : statesOf 0x0701 = [2, 3, 4, 8] := rfl
@[simp] theorem cat_0701 : catalogueRow 0x0701 = some ⟨0x0701, [.manager], [2, 3, 4, 8], false⟩ := rfl
@[simp] theorem states_0702 : statesOf 0x0702 = [1, 2, 3, 4, 5, 6, 7, 8, 9] := rfl
@[simp] theorem cat_0702 : catalogueRow 0x0702 = some ⟨0x0702, [.manager, .group], [1, 2, 3, 4, 5, 6, 7, 8, 9], false⟩ := rfl
@[simp] theorem states_07F0 : statesOf 0x07F0 = [0] := rfl
@[simp] theorem cat_07F0 : catalogueRow 0x07F0 = some ⟨0x07F0, [.manager], [0], true⟩ := rfl
@[simp] theorem states_0801 : statesOf 0x0801 = [3, 4, 5, 7] := rfl
@[simp] theorem cat_0801 : catalogueRow 0x0801 = some ⟨0x0801, [.manager], [3, 4, 5, 7], true⟩ := rfl
@[simp] theorem states_0802 : statesOf 0x0802 = [3, 4, 7, 8] := rfl
@[simp] theorem cat_0802 : catalogueRow 0x0802 = some ⟨0x0802, [.manager], [3, 4, 7, 8], true⟩ := rfl
@[simp] theorem states_0803 : statesOf 0x0803 = [2, 3, 4, 7] := rfl
@[simp] theorem cat_0803 : catalogueRow 0x0803 = some ⟨0x0803, [.manager], [2, 3, 4, 7], false⟩ := rfl
@[simp] theorem states_0901 : statesOf 0x0901 = [3, 4, 7, 8, 9] := rfl
@[simp] theorem cat_0901 : catalogueRow 0x0901 = some ⟨0x0901, [.manager], [3, 4, 7, 8, 9], false⟩ := rfl
@[simp] theorem states_0902 : statesOf 0x0902 = [3, 4, 7, 8, 9] := rfl
@[simp] theorem cat_0902 : catalogueRow 0x0902 = some ⟨0x0902, [.manager], [3, 4, 7, 8, 9], false⟩ := rfl
@[simp] theorem states_0903 : statesOf 0x0903 = [3, 4, 7, 8, 9] := rfl
@[simp] theorem cat_0903 : catalogueRow 0x0903 = some ⟨0x0903, [.manager], [3, 4, 7, 8, 9], false⟩ := rfl

theorem exec_ok {s : State} {m op : Nat} {c : Cmd} {early states late effect} {e : Outcome}
    (he : e = .next (s.runCommand m op early states late effect)) (ht : Taken s m op c)
    (h : s.checks op early states late m c = none) :
    ∃ t, e = .next t ∧ Responds (effect c s).1 t m c .ok (effect c s).2.1 (effect c s).2.2 :=
  ⟨_, he, runCommand_ok ht _ _ _ _ h⟩

theorem exec_err {s : State} {m op : Nat} {c : Cmd} {early states late effect} {e : Outcome} {x : Status × Bytes}
    (he : e = .next (s.runCommand m op early states late effect)) (ht : Taken s m op c)
    (h : s.checks op early states late m c = some x) :
    ∃ t, e = .next t ∧ Responds s t m c x.1 x.2 false :=
  ⟨_, he, runCommand_err ht _ _ _ _ _ h⟩

theorem Responds.fields {u t : State} {m : Nat} {c : Cmd} {st : Status} {r : Bytes} {p : Bool} (h : Responds u t m c st r p) :
    Only ([.mboxes] ++ eventFields) u t := by
  intro f hf
  have g := h.1.get
  dsimp only at g
  have hp := h.1.power
  have hm := h.1.2
  cases f <;> first | exact absurd (by decide) hf | exact hm | (simp only [Field.same, g]; done) | exact hp

@[simp] theorem firstErr_eq_none {l : List Err} : firstErr l = none ↔ ∀ e ∈ l, e = none := by
  induction l with
  | nil => simp [firstErr]
  | cons a l ih => cases a <;> simp [firstErr, ih]

@[simp] theorem failIf_eq_none {b : Bool} {st : Status} : failIf b st = none ↔ b = false := by
  unfold failIf; cases b <;> simp

@[simp] theorem conflictIf_eq_none {b : Bool} {d c l o : Nat} : conflictIf b d c l o = none ↔ b = false := by
  unfold conflictIf; cases b <;> simp

/-- A long command of mailbox `m` is done: it leaves the list of those under way, and no other mailbox changes. -/
theorem mbox_commandDone (m seq op : Nat) (st : Status) (s : State) (k : Nat) : (s.commandDone m seq op st).mbox k =
    if k = m then { s.mbox m with long := (s.mbox m).long.erase ⟨op, seq⟩ } else s.mbox k := by
  unfold State.commandDone
  dsimp only
  split
  · rw [mbox_of_reports (Reports.raiseTo ..), State.mbox_modMbox]
  · rename_i h
    have : (s.mbox m).long.erase ⟨op, seq⟩ = (s.mbox m).long := by
      refine List.erase_of_not_mem (fun hm => h (List.any_eq_true.2 ⟨_, hm, ?_⟩))
      simp
    rw [this]
    split
    · subst_vars; rfl
    · rfl

end Sys2Proof.Machine
end

