-- ==== Sys2Proof/Laws/Kept.lean ====
section
/-! SUPPORT. What every operation keeps of the state it starts from (`Kept`): its basic laws. -/

namespace Sys2Proof.Machine

theorem Fuses.burned_refl (f : Fuses) : f.burned f := by simp [Fuses.burned]

theorem Flash.grown_refl (f : Flash) : f.grown f := ⟨⟨[], rfl⟩, fun _ => Nat.le_refl _, fun _ h => h⟩

theorem Flash.grown_trans {f g h : Flash} (a : f.grown g) (b : g.grown h) : f.grown h := by
  obtain ⟨⟨l, hl⟩, r, t⟩ := a
  obtain ⟨⟨l', hl'⟩, r', t'⟩ := b
  exact ⟨⟨l' ++ l, by rw [hl', hl, List.append_assoc]⟩, fun k => Nat.le_trans (r k) (r' k), fun p h => t' p (t p h)⟩

theorem Fuses.burned_trans {f g h : Fuses} (a : f.burned g) (b : g.burned h) : f.burned h := by
  obtain ⟨a1, a2, a3, a4, a5⟩ := a
  obtain ⟨b1, b2, b3, b4, b5⟩ := b
  refine ⟨b1.trans a1, b2.trans a2, Nat.le_trans a3 b3, Nat.le_trans a4 b4, ?_⟩
  rw [← b5, ← BitVec.or_assoc, a5]

theorem Kept.refl (s : State) : Kept s s :=
  ⟨rfl, id, id, Fuses.burned_refl _, Flash.grown_refl _⟩

/-- A record update that leaves queue, memory, settings, fuses and flash alone. -/
theorem kept_lit {a s : State} (h : Kept a s) (d u m r ep dp i sp ti fo di q ra sh dm fh tm fb fm pv hl sc pw pk o fr) :
    Kept a (State.mk s.pending d u m r ep dp i sp ti s.mem fo di q ra sh s.settings dm fh tm fb fm pv hl s.flash s.fuses
      sc pw pk o fr) :=
  ⟨h.pending, h.mem, h.legal, h.fuses, h.flash⟩

/-- The same with new memory. -/
theorem kept_litMem {a s : State} (h : Kept a s) {mm : Mem} (hm : s.mem.wf = true → mm.wf = true)
    (d u m r ep dp i sp ti fo di q ra sh dm fh tm fb fm pv hl sc pw pk o fr) :
    Kept a (State.mk s.pending d u m r ep dp i sp ti mm fo di q ra sh s.settings dm fh tm fb fm pv hl s.flash s.fuses
      sc pw pk o fr) :=
  ⟨h.pending, fun x => hm (h.mem x), h.legal, h.fuses, h.flash⟩

theorem kept_markN {a s : State} (h : Kept a s) (x n) (d u m r ep dp i sp ti fo di q ra sh dm fh tm fb fm pv hl sc pw pk o fr) :
    Kept a (State.mk s.pending d u m r ep dp i sp ti (s.mem.markN x n) fo di q ra sh s.settings dm fh tm fb fm pv hl s.flash
      s.fuses sc pw pk o fr) :=
  kept_litMem h (fun w => MemLaws.wf_markN _ _ _ w) ..

theorem kept_copy {a s : State} (h : Kept a s) (x y n) (d u m r ep dp i sp ti fo di q ra sh dm fh tm fb fm pv hl sc pw pk o fr) :
    Kept a (State.mk s.pending d u m r ep dp i sp ti (s.mem.copy x y n) fo di q ra sh s.settings dm fh tm fb fm pv hl s.flash
      s.fuses sc pw pk o fr) :=
  kept_litMem h (fun w => MemLaws.wf_copy _ _ _ _ w) ..

theorem kept_zeroWrN {a s : State} (h : Kept a s) (x n y b)
    (d u m r ep dp i sp ti fo di q ra sh dm fh tm fb fm pv hl sc pw pk o fr) :
    Kept a (State.mk s.pending d u m r ep dp i sp ti ((s.mem.zero x n).wrN y b) fo di q ra sh s.settings dm fh tm fb fm pv hl
      s.flash s.fuses sc pw pk o fr) :=
  kept_litMem h (fun w => MemLaws.wf_wrN _ _ _ (MemLaws.wf_zero _ _ _ w)) ..

/-- The same with new flash. -/
theorem kept_flash {a s : State} (h : Kept a s) {fl : Flash} (hf : s.flash.grown fl) : Kept a { s with flash := fl } :=
  ⟨h.pending, h.mem, h.legal, h.fuses, Flash.grown_trans h.flash hf⟩

theorem kept_ite {a x y : State} {c : Prop} [Decidable c] (hx : Kept a x) (hy : Kept a y) : Kept a (if c then x else y) := by
  split <;> assumption

theorem kept_forEach {α : Type} {a s : State} {l : List α} {f : α → State → State}
    (hf : ∀ x s, Kept a s → Kept a (f x s)) (h : Kept a s) : Kept a (s.forEach l f) := by
  unfold State.forEach
  induction l generalizing s with
  | nil => exact h
  | cons x r ih => exact ih (hf x s h)

theorem kept_onlyIf {a s : State} {b : Bool} {f : State → State} (hf : Kept a (f s)) (h : Kept a s) :
    Kept a (s.onlyIf b f) := by
  unfold State.onlyIf
  split <;> assumption

theorem kept_wr {a s : State} (sp x b) (h : Kept a s) : Kept a (s.wr sp x b) := by
  unfold State.wr
  split
  · exact ⟨h.pending, h.mem, h.legal, h.fuses, h.flash⟩
  · exact kept_litMem h (fun w => MemLaws.wf_store _ _ _ w) ..

theorem kept_zeroMem {a s : State} (sp x n) (h : Kept a s) : Kept a (s.zeroMem sp x n) :=
  kept_litMem h (fun w => MemLaws.wf_zero _ _ _ w) ..

end Sys2Proof.Machine
end

