-- ==== Sys2Proof/Laws/KeptOps.lean ====
section
/-! SUPPORT. The operations of Sys2Proof/Machine/Ops.lean keep what every step keeps. -/

namespace Sys2Proof.Machine

set_option linter.all false
set_option Elab.async false

theorem modSec_flash (s : State) (f : Sec → Sec) : (s.modSec f).flash = s.flash := rfl

theorem wr_flash (s : State) (sp : Space) (a : Nat) (b : Bytes) : (s.wr sp a b).flash = s.flash := by
  unfold State.wr; split <;> rfl

theorem provPut_flash (s : State) (b : Bytes) : (s.provPut b).flash = s.flash := by
  unfold State.provPut
  split
  · unfold State.provWrite
    exact wr_flash s _ _ _
  · rfl

theorem rootUnsigned_flash (s : State) (i : Nat) : (s.rootUnsigned i).flash = s.flash := by
  unfold State.rootUnsigned
  rw [modSec_flash, provPut_flash]

theorem enqueue_flash (s : State) (r : SignReq) : (s.enqueue r).flash = s.flash := by
  unfold State.enqueue
  split
  · rfl
  · split
    · rw [rootUnsigned_flash]
    · rw [rootUnsigned_flash, modSec_flash]
    · rfl

theorem writeBatch_reserved (rs : List LRecord) (s : State) : (s.writeBatch rs).flash.reserved = s.flash.reserved := by
  unfold State.writeBatch
  split
  · rfl
  · split
    · rfl
    · simp only [apply_ite State.flash, enqueue_flash, ite_self]

theorem tget_le_tset (t : List (Nat × Nat)) (k v : Nat) (h : tget 0 t k ≤ v) (j : Nat) : tget 0 t j ≤ tget 0 (tset 0 t k v) j := by
  rw [tget_tset]
  split
  · subst_vars; exact h
  · exact Nat.le_refl _

theorem kept_takeFree {z0 : State} (w : Nat) {s : State} (hk : Kept z0 s) : Kept z0 (State.takeFree w s).2 := by
  unfold State.takeFree
  repeat' (first | with_reducible assumption | (simp (maxDischargeDepth := 100) +contextual only [hk, kept_lit, kept_markN, kept_copy, kept_zeroWrN, kept_ite, ite_self, implies_true, forall_const]; done) | (intro _ _ hk) | with_reducible apply kept_ite | with_reducible exact kept_lit hk .. | dsimp only | split)

theorem kept_modMbox {z0 : State} {s : State} (m : Nat) (f : Mailbox → Mailbox) (hk : Kept z0 s) : Kept z0 (State.modMbox s m f) := by
  unfold State.modMbox
  repeat' (first | with_reducible assumption | (simp (maxDischargeDepth := 100) +contextual only [hk, kept_lit, kept_markN, kept_copy, kept_zeroWrN, kept_ite, ite_self, implies_true, forall_const]; done) | (intro _ _ hk) | with_reducible apply kept_ite | with_reducible exact kept_lit hk .. | dsimp only | split)

theorem kept_modRing {z0 : State} {s : State} (k : Nat) (f : EventRing → EventRing) (hk : Kept z0 s) : Kept z0 (State.modRing s k f) := by
  unfold State.modRing
  repeat' (first | with_reducible assumption | (simp (maxDischargeDepth := 100) +contextual only [hk, kept_lit, kept_markN, kept_copy, kept_zeroWrN, kept_ite, ite_self, implies_true, forall_const]; done) | (intro _ _ hk) | with_reducible apply kept_ite | with_reducible exact kept_lit hk .. | dsimp only | split)

theorem kept_modDbPage {z0 : State} {s : State} (k : Nat) (f : DbPage → DbPage) (hk : Kept z0 s) : Kept z0 (State.modDbPage s k f) := by
  unfold State.modDbPage
  repeat' (first | with_reducible assumption | (simp (maxDischargeDepth := 100) +contextual only [hk, kept_lit, kept_markN, kept_copy, kept_zeroWrN, kept_ite, ite_self, implies_true, forall_const]; done) | (intro _ _ hk) | with_reducible apply kept_ite | with_reducible exact kept_lit hk .. | dsimp only | split)

theorem kept_modInst {z0 : State} {s : State} (i : Nat) (f : Inst → Inst) (hk : Kept z0 s) : Kept z0 (State.modInst s i f) := by
  unfold State.modInst
  repeat' (first | with_reducible assumption | (simp (maxDischargeDepth := 100) +contextual only [hk, kept_lit, kept_markN, kept_copy, kept_zeroWrN, kept_ite, ite_self, implies_true, forall_const]; done) | (intro _ _ hk) | with_reducible apply kept_ite | with_reducible exact kept_lit hk .. | dsimp only | split)

theorem kept_modObj {z0 : State} {s : State} (e : Nat) (f : Obj → Obj) (hk : Kept z0 s) : Kept z0 (State.modObj s e f) := by
  unfold State.modObj
  repeat' (first | with_reducible assumption | (simp (maxDischargeDepth := 100) +contextual only [hk, kept_lit, kept_markN, kept_copy, kept_zeroWrN, kept_ite, ite_self, implies_true, forall_const]; done) | (intro _ _ hk) | with_reducible apply kept_ite | with_reducible exact kept_lit hk .. | dsimp only | split)

theorem kept_modMover {z0 s : State} (m : Nat) (f : Mover → Mover) (hk : Kept z0 s) : Kept z0 (s.modMover m f) :=
  kept_lit hk ..

theorem kept_modStackCtl {z0 : State} {s : State} (k : Nat) (f : StackCtl → StackCtl) (hk : Kept z0 s) : Kept z0 (State.modStackCtl s k f) := by
  unfold State.modStackCtl
  repeat' (first | with_reducible assumption | (simp (maxDischargeDepth := 100) +contextual only [hk, kept_lit, kept_markN, kept_copy, kept_zeroWrN, kept_ite, ite_self, implies_true, forall_const]; done) | (intro _ _ hk) | with_reducible apply kept_ite | with_reducible exact kept_lit hk .. | dsimp only | split)

theorem kept_modFold {z0 : State} {s : State} (f : Nat) (g : Fold → Fold) (hk : Kept z0 s) : Kept z0 (State.modFold s f g) := by
  unfold State.modFold
  repeat' (first | with_reducible assumption | (simp (maxDischargeDepth := 100) +contextual only [hk, kept_lit, kept_markN, kept_copy, kept_zeroWrN, kept_ite, ite_self, implies_true, forall_const]; done) | (intro _ _ hk) | with_reducible apply kept_ite | with_reducible exact kept_lit hk .. | dsimp only | split)

theorem kept_setTask {z0 : State} {s : State} (t : Nat) (x : Option Task) (hk : Kept z0 s) : Kept z0 (State.setTask s t x) := by
  unfold State.setTask
  repeat' (first | with_reducible assumption | (simp (maxDischargeDepth := 100) +contextual only [hk, kept_lit, kept_markN, kept_copy, kept_zeroWrN, kept_ite, ite_self, implies_true, forall_const]; done) | (intro _ _ hk) | with_reducible apply kept_ite | with_reducible exact kept_lit hk .. | dsimp only | split)

theorem kept_modBarrier {z0 : State} {s : State} (b : Nat) (f : Barrier → Barrier) (hk : Kept z0 s) : Kept z0 (State.modBarrier s b f) := by
  unfold State.modBarrier
  repeat' (first | with_reducible assumption | (simp (maxDischargeDepth := 100) +contextual only [hk, kept_lit, kept_markN, kept_copy, kept_zeroWrN, kept_ite, ite_self, implies_true, forall_const]; done) | (intro _ _ hk) | with_reducible apply kept_ite | with_reducible exact kept_lit hk .. | dsimp only | split)

theorem kept_modSigCore {z0 : State} {s : State} (c : Nat) (f : SigCore → SigCore) (hk : Kept z0 s) : Kept z0 (State.modSigCore s c f) := by
  unfold State.modSigCore
  repeat' (first | with_reducible assumption | (simp (maxDischargeDepth := 100) +contextual only [hk, kept_lit, kept_markN, kept_copy, kept_zeroWrN, kept_ite, ite_self, implies_true, forall_const]; done) | (intro _ _ hk) | with_reducible apply kept_ite | with_reducible exact kept_lit hk .. | dsimp only | split)

theorem kept_modEngine {z0 : State} {s : State} (e : Nat) (f : Engine → Engine) (hk : Kept z0 s) : Kept z0 (State.modEngine s e f) := by
  unfold State.modEngine
  repeat' (first | with_reducible assumption | (simp (maxDischargeDepth := 100) +contextual only [hk, kept_lit, kept_markN, kept_copy, kept_zeroWrN, kept_ite, ite_self, implies_true, forall_const]; done) | (intro _ _ hk) | with_reducible apply kept_ite | with_reducible exact kept_lit hk .. | dsimp only | split)

theorem kept_modCell {z0 : State} {s : State} (c : Nat) (f : Cell → Cell) (hk : Kept z0 s) : Kept z0 (State.modCell s c f) := by
  unfold State.modCell
  repeat' (first | with_reducible assumption | (simp (maxDischargeDepth := 100) +contextual only [hk, kept_lit, kept_markN, kept_copy, kept_zeroWrN, kept_ite, ite_self, implies_true, forall_const]; done) | (intro _ _ hk) | with_reducible apply kept_ite | with_reducible exact kept_lit hk .. | dsimp only | split)

theorem kept_modNrx {z0 : State} {s : State} (f : Nrx → Nrx) (hk : Kept z0 s) : Kept z0 (State.modNrx s f) := by
  unfold State.modNrx
  repeat' (first | with_reducible assumption | (simp (maxDischargeDepth := 100) +contextual only [hk, kept_lit, kept_markN, kept_copy, kept_zeroWrN, kept_ite, ite_self, implies_true, forall_const]; done) | (intro _ _ hk) | with_reducible apply kept_ite | with_reducible exact kept_lit hk .. | dsimp only | split)

theorem kept_modDma {z0 : State} {s : State} (e : Nat) (f : DmaEngine → DmaEngine) (hk : Kept z0 s) : Kept z0 (State.modDma s e f) := by
  unfold State.modDma
  repeat' (first | with_reducible assumption | (simp (maxDischargeDepth := 100) +contextual only [hk, kept_lit, kept_markN, kept_copy, kept_zeroWrN, kept_ite, ite_self, implies_true, forall_const]; done) | (intro _ _ hk) | with_reducible apply kept_ite | with_reducible exact kept_lit hk .. | dsimp only | split)

theorem kept_modLane {z0 : State} {s : State} (l : Nat) (f : Lane → Lane) (hk : Kept z0 s) : Kept z0 (State.modLane s l f) := by
  unfold State.modLane
  repeat' (first | with_reducible assumption | (simp (maxDischargeDepth := 100) +contextual only [hk, kept_lit, kept_markN, kept_copy, kept_zeroWrN, kept_ite, ite_self, implies_true, forall_const]; done) | (intro _ _ hk) | with_reducible apply kept_ite | with_reducible exact kept_lit hk .. | dsimp only | split)

theorem kept_modFhPort {z0 : State} {s : State} (p : Nat) (f : FhPort → FhPort) (hk : Kept z0 s) : Kept z0 (State.modFhPort s p f) := by
  unfold State.modFhPort
  repeat' (first | with_reducible assumption | (simp (maxDischargeDepth := 100) +contextual only [hk, kept_lit, kept_markN, kept_copy, kept_zeroWrN, kept_ite, ite_self, implies_true, forall_const]; done) | (intro _ _ hk) | with_reducible apply kept_ite | with_reducible exact kept_lit hk .. | dsimp only | split)

theorem kept_modFport {z0 : State} {s : State} (p : Nat) (f : FabPort → FabPort) (hk : Kept z0 s) : Kept z0 (State.modFport s p f) := by
  unfold State.modFport
  repeat' (first | with_reducible assumption | (simp (maxDischargeDepth := 100) +contextual only [hk, kept_lit, kept_markN, kept_copy, kept_zeroWrN, kept_ite, ite_self, implies_true, forall_const]; done) | (intro _ _ hk) | with_reducible apply kept_ite | with_reducible exact kept_lit hk .. | dsimp only | split)

theorem kept_modRegion {z0 : State} {s : State} (r : Nat) (f : Region → Region) (hk : Kept z0 s) : Kept z0 (State.modRegion s r f) := by
  unfold State.modRegion
  repeat' (first | with_reducible assumption | (simp (maxDischargeDepth := 100) +contextual only [hk, kept_lit, kept_markN, kept_copy, kept_zeroWrN, kept_ite, ite_self, implies_true, forall_const]; done) | (intro _ _ hk) | with_reducible apply kept_ite | with_reducible exact kept_lit hk .. | dsimp only | split)

theorem kept_modCore {z0 : State} {s : State} (c : Nat) (f : CtlCore → CtlCore) (hk : Kept z0 s) : Kept z0 (State.modCore s c f) := by
  unfold State.modCore
  repeat' (first | with_reducible assumption | (simp (maxDischargeDepth := 100) +contextual only [hk, kept_lit, kept_markN, kept_copy, kept_zeroWrN, kept_ite, ite_self, implies_true, forall_const]; done) | (intro _ _ hk) | with_reducible apply kept_ite | with_reducible exact kept_lit hk .. | dsimp only | split)

theorem kept_modTime {z0 : State} {s : State} (f : TimeBlk → TimeBlk) (hk : Kept z0 s) : Kept z0 (State.modTime s f) := by
  unfold State.modTime
  repeat' (first | with_reducible assumption | (simp (maxDischargeDepth := 100) +contextual only [hk, kept_lit, kept_markN, kept_copy, kept_zeroWrN, kept_ite, ite_self, implies_true, forall_const]; done) | (intro _ _ hk) | with_reducible apply kept_ite | with_reducible exact kept_lit hk .. | dsimp only | split)

theorem kept_modShep {z0 : State} {s : State} (f : Shepherd → Shepherd) (hk : Kept z0 s) : Kept z0 (State.modShep s f) := by
  unfold State.modShep
  repeat' (first | with_reducible assumption | (simp (maxDischargeDepth := 100) +contextual only [hk, kept_lit, kept_markN, kept_copy, kept_zeroWrN, kept_ite, ite_self, implies_true, forall_const]; done) | (intro _ _ hk) | with_reducible apply kept_ite | with_reducible exact kept_lit hk .. | dsimp only | split)

theorem kept_modFab {z0 : State} {s : State} (f : Fabric → Fabric) (hk : Kept z0 s) : Kept z0 (State.modFab s f) := by
  unfold State.modFab
  repeat' (first | with_reducible assumption | (simp (maxDischargeDepth := 100) +contextual only [hk, kept_lit, kept_markN, kept_copy, kept_zeroWrN, kept_ite, ite_self, implies_true, forall_const]; done) | (intro _ _ hk) | with_reducible apply kept_ite | with_reducible exact kept_lit hk .. | dsimp only | split)

theorem kept_modFabMem {z0 : State} {s : State} (f : FabMem → FabMem) (hk : Kept z0 s) : Kept z0 (State.modFabMem s f) := by
  unfold State.modFabMem
  repeat' (first | with_reducible assumption | (simp (maxDischargeDepth := 100) +contextual only [hk, kept_lit, kept_markN, kept_copy, kept_zeroWrN, kept_ite, ite_self, implies_true, forall_const]; done) | (intro _ _ hk) | with_reducible apply kept_ite | with_reducible exact kept_lit hk .. | dsimp only | split)

theorem kept_modProv {z0 : State} {s : State} (f : Prov → Prov) (hk : Kept z0 s) : Kept z0 (State.modProv s f) := by
  unfold State.modProv
  repeat' (first | with_reducible assumption | (simp (maxDischargeDepth := 100) +contextual only [hk, kept_lit, kept_markN, kept_copy, kept_zeroWrN, kept_ite, ite_self, implies_true, forall_const]; done) | (intro _ _ hk) | with_reducible apply kept_ite | with_reducible exact kept_lit hk .. | dsimp only | split)

theorem kept_modHealth {z0 : State} {s : State} (f : Health → Health) (hk : Kept z0 s) : Kept z0 (State.modHealth s f) := by
  unfold State.modHealth
  repeat' (first | with_reducible assumption | (simp (maxDischargeDepth := 100) +contextual only [hk, kept_lit, kept_markN, kept_copy, kept_zeroWrN, kept_ite, ite_self, implies_true, forall_const]; done) | (intro _ _ hk) | with_reducible apply kept_ite | with_reducible exact kept_lit hk .. | dsimp only | split)

theorem kept_modSec {z0 : State} {s : State} (f : Sec → Sec) (hk : Kept z0 s) : Kept z0 (State.modSec s f) := by
  unfold State.modSec
  repeat' (first | with_reducible assumption | (simp (maxDischargeDepth := 100) +contextual only [hk, kept_lit, kept_markN, kept_copy, kept_zeroWrN, kept_ite, ite_self, implies_true, forall_const]; done) | (intro _ _ hk) | with_reducible apply kept_ite | with_reducible exact kept_lit hk .. | dsimp only | split)

theorem kept_modPower {z0 : State} {s : State} (f : Power → Power) (hk : Kept z0 s) : Kept z0 (State.modPower s f) := by
  unfold State.modPower
  repeat' (first | with_reducible assumption | (simp (maxDischargeDepth := 100) +contextual only [hk, kept_lit, kept_markN, kept_copy, kept_zeroWrN, kept_ite, ite_self, implies_true, forall_const]; done) | (intro _ _ hk) | with_reducible apply kept_ite | with_reducible exact kept_lit hk .. | dsimp only | split)

theorem kept_modPkg {z0 : State} {s : State} (f : Package → Package) (hk : Kept z0 s) : Kept z0 (State.modPkg s f) := by
  unfold State.modPkg
  repeat' (first | with_reducible assumption | (simp (maxDischargeDepth := 100) +contextual only [hk, kept_lit, kept_markN, kept_copy, kept_zeroWrN, kept_ite, ite_self, implies_true, forall_const]; done) | (intro _ _ hk) | with_reducible apply kept_ite | with_reducible exact kept_lit hk .. | dsimp only | split)

theorem kept_modDisp {z0 : State} {s : State} (f : Dispatch → Dispatch) (hk : Kept z0 s) : Kept z0 (State.modDisp s f) := by
  unfold State.modDisp
  repeat' (first | with_reducible assumption | (simp (maxDischargeDepth := 100) +contextual only [hk, kept_lit, kept_markN, kept_copy, kept_zeroWrN, kept_ite, ite_self, implies_true, forall_const]; done) | (intro _ _ hk) | with_reducible apply kept_ite | with_reducible exact kept_lit hk .. | dsimp only | split)

theorem kept_modTiers {z0 : State} {s : State} (f : Tiers → Tiers) (hk : Kept z0 s) : Kept z0 (State.modTiers s f) := by
  unfold State.modTiers
  repeat' (first | with_reducible assumption | (simp (maxDischargeDepth := 100) +contextual only [hk, kept_lit, kept_markN, kept_copy, kept_zeroWrN, kept_ite, ite_self, implies_true, forall_const]; done) | (intro _ _ hk) | with_reducible apply kept_ite | with_reducible exact kept_lit hk .. | dsimp only | split)

theorem kept_modDev {z0 : State} {s : State} (f : Dev → Dev) (hk : Kept z0 s) : Kept z0 (State.modDev s f) := by
  unfold State.modDev
  repeat' (first | with_reducible assumption | (simp (maxDischargeDepth := 100) +contextual only [hk, kept_lit, kept_markN, kept_copy, kept_zeroWrN, kept_ite, ite_self, implies_true, forall_const]; done) | (intro _ _ hk) | with_reducible apply kept_ite | with_reducible exact kept_lit hk .. | dsimp only | split)

theorem kept_emit {z0 : State} {s : State} (o : Output) (hk : Kept z0 s) : Kept z0 (State.emit s o) := by
  unfold State.emit
  repeat' (first | with_reducible assumption | (simp (maxDischargeDepth := 100) +contextual only [hk, kept_lit, kept_markN, kept_copy, kept_zeroWrN, kept_ite, ite_self, implies_true, forall_const]; done) | (intro _ _ hk) | with_reducible apply kept_ite | with_reducible exact kept_lit hk .. | dsimp only | split)

theorem kept_at {z0 : State} (now : Nat) {s : State} (hk : Kept z0 s) : Kept z0 (State.at now s) := by
  unfold State.at
  repeat' (first | with_reducible assumption | (simp (maxDischargeDepth := 100) +contextual only [hk, kept_lit, kept_markN, kept_copy, kept_zeroWrN, kept_ite, ite_self, implies_true, forall_const]; done) | (intro _ _ hk) | with_reducible apply kept_ite | with_reducible exact kept_lit hk .. | dsimp only | split)

theorem kept_dropWrite {z0 : State} {s : State} (hk : Kept z0 s) : Kept z0 (State.dropWrite s) := by
  unfold State.dropWrite
  repeat' (first | with_reducible assumption | (simp (maxDischargeDepth := 100) +contextual only [hk, kept_lit, kept_markN, kept_copy, kept_zeroWrN, kept_ite, ite_self, implies_true, forall_const, kept_modPower]; done) | (intro _ _ hk) | with_reducible apply kept_ite | with_reducible apply kept_modPower | with_reducible exact kept_lit hk .. | dsimp only | split)

theorem kept_putRecord {z0 : State} (k : Nat) (ev : EvRecord) {s : State} (hk : Kept z0 s) : Kept z0 (State.putRecord k ev s) := by
  unfold State.putRecord
  repeat' (first | with_reducible assumption | (simp (maxDischargeDepth := 100) +contextual only [hk, kept_lit, kept_markN, kept_copy, kept_zeroWrN, kept_ite, ite_self, implies_true, forall_const, kept_emit, kept_modRing, kept_wr]; done) | (intro _ _ hk) | with_reducible apply kept_ite | with_reducible apply kept_emit | with_reducible apply kept_modRing | with_reducible apply kept_wr | with_reducible exact kept_lit hk .. | dsimp only | split)

theorem kept_postRecord {z0 : State} (k : Nat) (ev : EvRecord) {s : State} (hk : Kept z0 s) : Kept z0 (State.postRecord k ev s) := by
  unfold State.postRecord
  repeat' (first | with_reducible assumption | (simp (maxDischargeDepth := 100) +contextual only [hk, kept_lit, kept_markN, kept_copy, kept_zeroWrN, kept_ite, ite_self, implies_true, forall_const, kept_modRing, kept_putRecord]; done) | (intro _ _ hk) | with_reducible apply kept_ite | with_reducible apply kept_modRing | with_reducible apply kept_putRecord | with_reducible exact kept_lit hk .. | dsimp only | split)

theorem kept_flushRing {z0 : State} (k n : Nat) {s : State} (hk : Kept z0 s) : Kept z0 (State.flushRing k n s) := by
  induction n generalizing s with
  | zero => exact hk
  | succ n ih =>
    simp only [State.flushRing]
    split
    · exact hk
    · split
      · exact ih (kept_putRecord _ _ (kept_modRing _ _ hk))
      · split
        · exact hk
        · split
          · exact kept_modRing _ _ hk
          · exact kept_putRecord _ _ (kept_modRing _ _ hk)

theorem kept_raiseTo {z0 : State} (code : Nat) (inst : Nat) (srcType : Nat) (srcIdx : Nat) (payload : Nat) (holder : Role × Nat) {s : State} (hk : Kept z0 s) : Kept z0 (State.raiseTo code inst srcType srcIdx payload holder s) := by
  unfold State.raiseTo
  repeat' (first | with_reducible assumption | (simp (maxDischargeDepth := 100) +contextual only [hk, kept_lit, kept_markN, kept_copy, kept_zeroWrN, kept_ite, ite_self, implies_true, forall_const, kept_forEach, kept_postRecord]; done) | (with_reducible refine kept_forEach ?_ ?_) | (intro _ _ hk) | with_reducible apply kept_ite | with_reducible apply kept_postRecord | with_reducible exact kept_lit hk .. | dsimp only | split)

theorem kept_raise {z0 : State} (code : Nat) (inst : Nat) (u : UnitId) (payload : Nat) {s : State} (hk : Kept z0 s) : Kept z0 (State.raise code inst u payload s) := by
  unfold State.raise
  repeat' (first | with_reducible assumption | (simp (maxDischargeDepth := 100) +contextual only [hk, kept_lit, kept_markN, kept_copy, kept_zeroWrN, kept_ite, ite_self, implies_true, forall_const, kept_raiseTo]; done) | (intro _ _ hk) | with_reducible apply kept_ite | with_reducible apply kept_raiseTo | with_reducible exact kept_lit hk .. | dsimp only | split)

theorem kept_provWrite {z0 : State} (b : Bytes) {s : State} (hk : Kept z0 s) : Kept z0 (State.provWrite b s) := by
  unfold State.provWrite
  repeat' (first | with_reducible assumption | (simp (maxDischargeDepth := 100) +contextual only [hk, kept_lit, kept_markN, kept_copy, kept_zeroWrN, kept_ite, ite_self, implies_true, forall_const, kept_modProv, kept_wr]; done) | (intro _ _ hk) | with_reducible apply kept_ite | with_reducible apply kept_modProv | with_reducible apply kept_wr | with_reducible exact kept_lit hk .. | dsimp only | split)

theorem kept_provPut {z0 : State} (b : Bytes) {s : State} (hk : Kept z0 s) : Kept z0 (State.provPut b s) := by
  unfold State.provPut
  repeat' (first | with_reducible assumption | (simp (maxDischargeDepth := 100) +contextual only [hk, kept_lit, kept_markN, kept_copy, kept_zeroWrN, kept_ite, ite_self, implies_true, forall_const, kept_modProv, kept_provWrite]; done) | (intro _ _ hk) | with_reducible apply kept_ite | with_reducible apply kept_modProv | with_reducible apply kept_provWrite | with_reducible exact kept_lit hk .. | dsimp only | split)

theorem kept_rootUnsigned {z0 : State} (interval : Nat) {s : State} (hk : Kept z0 s) : Kept z0 (State.rootUnsigned interval s) := by
  unfold State.rootUnsigned
  repeat' (first | with_reducible assumption | (simp (maxDischargeDepth := 100) +contextual only [hk, kept_lit, kept_markN, kept_copy, kept_zeroWrN, kept_ite, ite_self, implies_true, forall_const, kept_modSec, kept_provPut]; done) | (intro _ _ hk) | with_reducible apply kept_ite | with_reducible apply kept_modSec | with_reducible apply kept_provPut | with_reducible exact kept_lit hk .. | dsimp only | split)

theorem kept_enqueue {z0 : State} (r : SignReq) {s : State} (hk : Kept z0 s) : Kept z0 (State.enqueue r s) := by
  unfold State.enqueue
  repeat' (first | with_reducible assumption | (simp (maxDischargeDepth := 100) +contextual only [hk, kept_lit, kept_markN, kept_copy, kept_zeroWrN, kept_ite, ite_self, implies_true, forall_const, kept_modSec, kept_rootUnsigned]; done) | (intro _ _ hk) | with_reducible apply kept_ite | with_reducible apply kept_modSec | with_reducible apply kept_rootUnsigned | with_reducible exact kept_lit hk .. | dsimp only | split)

theorem kept_addBatch {z0 s : State} (b : LBatch) (n : Nat) (hk : Kept z0 s) :
    Kept z0 { s with flash := { s.flash with batches := b :: s.flash.batches, bytesUsed := n } } :=
  kept_flash hk ⟨⟨[b.unsigned], rfl⟩, fun _ => Nat.le_refl _, fun _ h => h⟩

theorem kept_writeBatch {z0 : State} (rs : List LRecord) {s : State} (hk : Kept z0 s) : Kept z0 (s.writeBatch rs) := by
  unfold State.writeBatch
  split
  · exact hk
  · split
    · exact kept_lit hk ..
    · dsimp only
      split
      · split
        · exact kept_lit (kept_addBatch _ _ hk) ..
        · exact kept_addBatch _ _ hk
      · split
        · exact kept_enqueue _ (kept_lit (kept_addBatch _ _ hk) ..)
        · exact kept_enqueue _ (kept_addBatch _ _ hk)

theorem kept_closeBatch {z0 : State} {s : State} (hk : Kept z0 s) : Kept z0 (State.closeBatch s) := by
  unfold State.closeBatch
  repeat' (first | with_reducible assumption | (simp (maxDischargeDepth := 100) +contextual only [hk, kept_lit, kept_markN, kept_copy, kept_zeroWrN, kept_ite, ite_self, implies_true, forall_const, kept_writeBatch]; done) | (intro _ _ hk) | with_reducible apply kept_ite | with_reducible apply kept_writeBatch | with_reducible exact kept_lit hk .. | dsimp only | split)

theorem kept_ledgerWith {z0 : State} (type : Nat) (src : UnitId) (body : LBody) (snap : Option Bytes) {s : State} (hk : Kept z0 s) : Kept z0 (State.ledgerWith type src body snap s) := by
  unfold State.ledgerWith
  repeat' (first | with_reducible assumption | (simp (maxDischargeDepth := 100) +contextual only [hk, kept_lit, kept_markN, kept_copy, kept_zeroWrN, kept_ite, ite_self, implies_true, forall_const, kept_snapshot]; done) | (rename_i hq; have hz := congrArg Prod.snd hq; dsimp only at hz; subst hz; try clear hq) | (have hz := congrArg Prod.snd ‹_ = (_, _)›; dsimp only at hz; subst hz) | (intro _ _ hk) | with_reducible apply kept_ite | with_reducible apply kept_snapshot | with_reducible exact kept_lit hk .. | dsimp only | split)

theorem kept_ledger {z0 : State} (type : Nat) (src : UnitId) (body : LBody) {s : State} (hk : Kept z0 s) : Kept z0 (State.ledger type src body s) := by
  unfold State.ledger
  repeat' (first | with_reducible assumption | (simp (maxDischargeDepth := 100) +contextual only [hk, kept_lit, kept_markN, kept_copy, kept_zeroWrN, kept_ite, ite_self, implies_true, forall_const, kept_ledgerWith]; done) | (intro _ _ hk) | with_reducible apply kept_ite | with_reducible apply kept_ledgerWith | with_reducible exact kept_lit hk .. | dsimp only | split)

theorem kept_reserveInc {z0 : State} (u : UnitId) {s : State} (hk : Kept z0 s) : Kept z0 (s.reserveInc u) := by
  unfold State.reserveInc
  dsimp only
  refine kept_flash (kept_writeBatch _ (kept_lit (kept_closeBatch hk) ..)) ⟨⟨[], rfl⟩, fun k => ?_, fun _ h => h⟩
  simp only [writeBatch_reserved, State.closeBatch]
  exact tget_le_tset _ _ _ (Nat.le_add_right _ _) k

theorem kept_tableChange {z0 : State} {s : State} (hk : Kept z0 s) : Kept z0 (State.tableChange s) := by
  unfold State.tableChange
  repeat' (first | with_reducible assumption | (simp (maxDischargeDepth := 100) +contextual only [hk, kept_lit, kept_markN, kept_copy, kept_zeroWrN, kept_ite, ite_self, implies_true, forall_const, kept_raise]; done) | (intro _ _ hk) | with_reducible apply kept_ite | with_reducible apply kept_raise | with_reducible exact kept_lit hk .. | dsimp only | split)

theorem kept_fenceClock {z0 : State} (u : UnitId) (old : UState) (new : UState) {s : State} (hk : Kept z0 s) : Kept z0 (State.fenceClock u old new s) := by
  unfold State.fenceClock
  repeat' (first | with_reducible assumption | (simp (maxDischargeDepth := 100) +contextual only [hk, kept_lit, kept_markN, kept_copy, kept_zeroWrN, kept_ite, ite_self, implies_true, forall_const]; done) | (intro _ _ hk) | with_reducible apply kept_ite | with_reducible exact kept_lit hk .. | dsimp only | split)

theorem kept_announce {z0 : State} (u : UnitId) (old : UState) (new : UState) {s : State} (hk : Kept z0 s) : Kept z0 (State.announce u old new s) := by
  unfold State.announce
  repeat' (first | with_reducible assumption | (simp (maxDischargeDepth := 100) +contextual only [hk, kept_lit, kept_markN, kept_copy, kept_zeroWrN, kept_ite, ite_self, implies_true, forall_const, kept_fenceClock, kept_ledger, kept_raise]; done) | (intro _ _ hk) | with_reducible apply kept_ite | with_reducible apply kept_fenceClock | with_reducible apply kept_ledger | with_reducible apply kept_raise | with_reducible exact kept_lit hk .. | dsimp only | split)

theorem kept_setEntry {z0 : State} (u : UnitId) (f : UnitEntry → UnitEntry) {s : State} (hk : Kept z0 s) : Kept z0 (State.setEntry u f s) := by
  unfold State.setEntry
  repeat' (first | with_reducible assumption | (simp (maxDischargeDepth := 100) +contextual only [hk, kept_lit, kept_markN, kept_copy, kept_zeroWrN, kept_ite, ite_self, implies_true, forall_const, kept_announce, kept_forEach, kept_tableChange]; done) | (with_reducible refine kept_forEach ?_ ?_) | (intro _ _ hk) | with_reducible apply kept_ite | with_reducible apply kept_announce | with_reducible apply kept_tableChange | with_reducible exact kept_lit hk .. | dsimp only | split)

theorem kept_setUnit {z0 : State} (u : UnitId) (new : UState) {s : State} (hk : Kept z0 s) : Kept z0 (State.setUnit u new s) := by
  unfold State.setUnit
  repeat' (first | with_reducible assumption | (simp (maxDischargeDepth := 100) +contextual only [hk, kept_lit, kept_markN, kept_copy, kept_zeroWrN, kept_ite, ite_self, implies_true, forall_const, kept_setEntry]; done) | (intro _ _ hk) | with_reducible apply kept_ite | with_reducible apply kept_setEntry | with_reducible exact kept_lit hk .. | dsimp only | split)

theorem kept_firstNumber {z0 : State} (u : UnitId) {s : State} (hk : Kept z0 s) : Kept z0 (State.firstNumber u s) := by
  unfold State.firstNumber
  repeat' (first | with_reducible assumption | (simp (maxDischargeDepth := 100) +contextual only [hk, kept_lit, kept_markN, kept_copy, kept_zeroWrN, kept_ite, ite_self, implies_true, forall_const, kept_reserveInc, kept_setEntry]; done) | (intro _ _ hk) | with_reducible apply kept_ite | with_reducible apply kept_reserveInc | with_reducible apply kept_setEntry | with_reducible exact kept_lit hk .. | dsimp only | split)

theorem kept_initialise {z0 : State} (u : UnitId) {s : State} (hk : Kept z0 s) : Kept z0 (State.initialise u s) := by
  unfold State.initialise
  repeat' (first | with_reducible assumption | (simp (maxDischargeDepth := 100) +contextual only [hk, kept_lit, kept_markN, kept_copy, kept_zeroWrN, kept_ite, ite_self, implies_true, forall_const, kept_firstNumber, kept_reserveInc, kept_setEntry]; done) | (intro _ _ hk) | with_reducible apply kept_ite | with_reducible apply kept_firstNumber | with_reducible apply kept_reserveInc | with_reducible apply kept_setEntry | with_reducible exact kept_lit hk .. | dsimp only | split)

theorem kept_setDevice {z0 : State} (new : DState) {s : State} (hk : Kept z0 s) : Kept z0 (State.setDevice new s) := by
  unfold State.setDevice
  repeat' (first | with_reducible assumption | (simp (maxDischargeDepth := 100) +contextual only [hk, kept_lit, kept_markN, kept_copy, kept_zeroWrN, kept_ite, ite_self, implies_true, forall_const, kept_raise]; done) | (intro _ _ hk) | with_reducible apply kept_ite | with_reducible apply kept_raise | with_reducible exact kept_lit hk .. | dsimp only | split)

theorem kept_raiseResponse {z0 : State} (m : Nat) {s : State} (hk : Kept z0 s) : Kept z0 (State.raiseResponse m s) := by
  unfold State.raiseResponse
  repeat' (first | with_reducible assumption | (simp (maxDischargeDepth := 100) +contextual only [hk, kept_lit, kept_markN, kept_copy, kept_zeroWrN, kept_ite, ite_self, implies_true, forall_const, kept_postRecord]; done) | (intro _ _ hk) | with_reducible apply kept_ite | with_reducible apply kept_postRecord | with_reducible exact kept_lit hk .. | dsimp only | split)

theorem kept_writeResponse {z0 : State} (m : Nat) (c : Cmd) (bs : Bytes) {s : State} (hk : Kept z0 s) : Kept z0 (State.writeResponse m c bs s) := by
  unfold State.writeResponse
  repeat' (first | with_reducible assumption | (simp (maxDischargeDepth := 100) +contextual only [hk, kept_lit, kept_markN, kept_copy, kept_zeroWrN, kept_ite, ite_self, implies_true, forall_const, kept_modMbox, kept_raiseResponse, kept_wr]; done) | (intro _ _ hk) | with_reducible apply kept_ite | with_reducible apply kept_modMbox | with_reducible apply kept_raiseResponse | with_reducible apply kept_wr | with_reducible exact kept_lit hk .. | dsimp only | split)

theorem kept_respond {z0 : State} (m : Nat) (c : Cmd) (st : Status) (result : Bytes) (pending : Bool) {s : State} (hk : Kept z0 s) : Kept z0 (State.respond m c st result pending s) := by
  unfold State.respond
  repeat' (first | with_reducible assumption | (simp (maxDischargeDepth := 100) +contextual only [hk, kept_lit, kept_markN, kept_copy, kept_zeroWrN, kept_ite, ite_self, implies_true, forall_const, kept_modMbox, kept_writeResponse]; done) | (intro _ _ hk) | with_reducible apply kept_ite | with_reducible apply kept_modMbox | with_reducible apply kept_writeResponse | with_reducible exact kept_lit hk .. | dsimp only | split)

theorem kept_commandDone {z0 : State} (m : Nat) (seq : Nat) (opcode : Nat) (st : Status) {s : State} (hk : Kept z0 s) : Kept z0 (State.commandDone m seq opcode st s) := by
  unfold State.commandDone
  repeat' (first | with_reducible assumption | (simp (maxDischargeDepth := 100) +contextual only [hk, kept_lit, kept_markN, kept_copy, kept_zeroWrN, kept_ite, ite_self, implies_true, forall_const, kept_modMbox, kept_raiseTo]; done) | (intro _ _ hk) | with_reducible apply kept_ite | with_reducible apply kept_modMbox | with_reducible apply kept_raiseTo | with_reducible exact kept_lit hk .. | dsimp only | split)

theorem kept_dropAssumed {z0 : State} (cells : List Nat) {s : State} (hk : Kept z0 s) : Kept z0 (State.dropAssumed cells s) := by
  unfold State.dropAssumed
  repeat' (first | with_reducible assumption | (simp (maxDischargeDepth := 100) +contextual only [hk, kept_lit, kept_markN, kept_copy, kept_zeroWrN, kept_ite, ite_self, implies_true, forall_const, kept_forEach, kept_modCell]; done) | (with_reducible refine kept_forEach ?_ ?_) | (intro _ _ hk) | with_reducible apply kept_ite | with_reducible apply kept_modCell | with_reducible exact kept_lit hk .. | dsimp only | split)

theorem kept_stopLong {z0 : State} (m : Nat) (seq : Nat) {s : State} (hk : Kept z0 s) : Kept z0 (State.stopLong m seq s) := by
  unfold State.stopLong
  repeat' (first | with_reducible assumption | (simp (maxDischargeDepth := 100) +contextual only [hk, kept_lit, kept_markN, kept_copy, kept_zeroWrN, kept_ite, ite_self, implies_true, forall_const, kept_dropAssumed, kept_forEach, kept_modHealth, kept_modNrx, kept_modSec]; done) | (with_reducible refine kept_forEach ?_ ?_) | (intro _ _ hk) | with_reducible apply kept_ite | with_reducible apply kept_dropAssumed | with_reducible apply kept_modHealth | with_reducible apply kept_modNrx | with_reducible apply kept_modSec | with_reducible exact kept_lit hk .. | dsimp only | split)

theorem kept_cancelLong {z0 : State} (m : Nat) {s : State} (hk : Kept z0 s) : Kept z0 (State.cancelLong m s) := by
  unfold State.cancelLong
  repeat' (first | with_reducible assumption | (simp (maxDischargeDepth := 100) +contextual only [hk, kept_lit, kept_markN, kept_copy, kept_zeroWrN, kept_ite, ite_self, implies_true, forall_const, kept_commandDone, kept_forEach, kept_stopLong]; done) | (with_reducible refine kept_forEach ?_ ?_) | (intro _ _ hk) | with_reducible apply kept_ite | with_reducible apply kept_commandDone | with_reducible apply kept_stopLong | with_reducible exact kept_lit hk .. | dsimp only | split)

theorem kept_evidence {z0 : State} (code : Nat) (fold : Option Nat) {s : State} (hk : Kept z0 s) : Kept z0 (State.evidence code fold s) := by
  unfold State.evidence
  repeat' (first | with_reducible assumption | (simp (maxDischargeDepth := 100) +contextual only [hk, kept_lit, kept_markN, kept_copy, kept_zeroWrN, kept_ite, ite_self, implies_true, forall_const]; done) | (intro _ _ hk) | with_reducible apply kept_ite | with_reducible exact kept_lit hk .. | dsimp only | split)

theorem kept_sramCorrectedEv {z0 : State} {s : State} (hk : Kept z0 s) : Kept z0 (State.sramCorrectedEv s) := by
  unfold State.sramCorrectedEv
  repeat' (first | with_reducible assumption | (simp (maxDischargeDepth := 100) +contextual only [hk, kept_lit, kept_markN, kept_copy, kept_zeroWrN, kept_ite, ite_self, implies_true, forall_const, kept_evidence]; done) | (intro _ _ hk) | with_reducible apply kept_ite | with_reducible apply kept_evidence | with_reducible exact kept_lit hk .. | dsimp only | split)

theorem kept_hbm2Ev {z0 : State} {s : State} (hk : Kept z0 s) : Kept z0 (State.hbm2Ev s) := by
  unfold State.hbm2Ev
  repeat' (first | with_reducible assumption | (simp (maxDischargeDepth := 100) +contextual only [hk, kept_lit, kept_markN, kept_copy, kept_zeroWrN, kept_ite, ite_self, implies_true, forall_const, kept_evidence]; done) | (intro _ _ hk) | with_reducible apply kept_ite | with_reducible apply kept_evidence | with_reducible exact kept_lit hk .. | dsimp only | split)

theorem kept_snapshot {z0 : State} {s : State} (u : UnitId) (clock : Nat) (shape : Nat) (fmt : Nat) (cls : Nat) (bin : Nat) (hk : Kept z0 s) : Kept z0 (State.snapshot s u clock shape fmt cls bin).2 := by
  unfold State.snapshot
  repeat' (first | with_reducible assumption | (simp (maxDischargeDepth := 100) +contextual only [hk, kept_lit, kept_markN, kept_copy, kept_zeroWrN, kept_ite, ite_self, implies_true, forall_const, kept_takeFree]; done) | (rename_i hq; have hz := congrArg Prod.snd hq; dsimp only at hz; subst hz; try clear hq) | (have hz := congrArg Prod.snd ‹_ = (_, _)›; dsimp only at hz; subst hz) | (intro _ _ hk) | (refine kept_act _  ?_ (by assumption)) | with_reducible apply kept_ite | with_reducible apply kept_takeFree | with_reducible exact kept_lit hk .. | dsimp only | split)

theorem kept_ledgerSnap {z0 : State} (type : Nat) (u : UnitId) (body : LBody) {s : State} (hk : Kept z0 s) : Kept z0 (State.ledgerSnap type u body s) := by
  unfold State.ledgerSnap
  repeat' (first | with_reducible assumption | (simp (maxDischargeDepth := 100) +contextual only [hk, kept_lit, kept_markN, kept_copy, kept_zeroWrN, kept_ite, ite_self, implies_true, forall_const, kept_ledgerWith, kept_snapshot]; done) | (rename_i hq; have hz := congrArg Prod.snd hq; dsimp only at hz; subst hz; try clear hq) | (have hz := congrArg Prod.snd ‹_ = (_, _)›; dsimp only at hz; subst hz) | (intro _ _ hk) | with_reducible apply kept_ite | with_reducible apply kept_ledgerWith | with_reducible apply kept_snapshot | with_reducible exact kept_lit hk .. | dsimp only | split)

theorem kept_endTile {z0 : State} (f : Nat) (st : Status) {s : State} (hk : Kept z0 s) : Kept z0 (State.endTile f st s) := by
  unfold State.endTile
  repeat' (first | with_reducible assumption | (simp (maxDischargeDepth := 100) +contextual only [hk, kept_lit, kept_markN, kept_copy, kept_zeroWrN, kept_ite, ite_self, implies_true, forall_const, kept_modFold]; done) | (intro _ _ hk) | with_reducible apply kept_ite | with_reducible apply kept_modFold | with_reducible exact kept_lit hk .. | dsimp only | split)

theorem kept_raiseIrq {z0 : State} (core : Nat) (k : Nat) {s : State} (hk : Kept z0 s) : Kept z0 (State.raiseIrq core k s) := by
  unfold State.raiseIrq
  repeat' (first | with_reducible assumption | (simp (maxDischargeDepth := 100) +contextual only [hk, kept_lit, kept_markN, kept_copy, kept_zeroWrN, kept_ite, ite_self, implies_true, forall_const, kept_modSigCore]; done) | (intro _ _ hk) | with_reducible apply kept_ite | with_reducible apply kept_modSigCore | with_reducible exact kept_lit hk .. | dsimp only | split)

theorem kept_endWaiter {z0 : State} (w : Nat) (st : Status) {s : State} (hk : Kept z0 s) : Kept z0 (State.endWaiter w st s) := by
  unfold State.endWaiter
  repeat' (first | with_reducible assumption | (simp (maxDischargeDepth := 100) +contextual only [hk, kept_lit, kept_markN, kept_copy, kept_zeroWrN, kept_ite, ite_self, implies_true, forall_const, kept_endTile, kept_modDma]; done) | (intro _ _ hk) | with_reducible apply kept_ite | with_reducible apply kept_endTile | with_reducible apply kept_modDma | with_reducible exact kept_lit hk .. | dsimp only | split)

theorem kept_logDirty {z0 : State} (a : Nat) (n : Nat) {s : State} (hk : Kept z0 s) : Kept z0 (State.logDirty a n s) := by
  unfold State.logDirty
  repeat' (first | with_reducible assumption | (simp (maxDischargeDepth := 100) +contextual only [hk, kept_lit, kept_markN, kept_copy, kept_zeroWrN, kept_ite, ite_self, implies_true, forall_const, kept_forEach, kept_modInst, kept_wr]; done) | (with_reducible refine kept_forEach ?_ ?_) | (intro _ _ hk) | with_reducible apply kept_ite | with_reducible apply kept_modInst | with_reducible apply kept_wr | with_reducible exact kept_lit hk .. | dsimp only | split)

theorem kept_wrCompanion {z0 : State} (a : Nat) (bs : Bytes) {s : State} (hk : Kept z0 s) : Kept z0 (State.wrCompanion a bs s) := by
  unfold State.wrCompanion
  repeat' (first | with_reducible assumption | (simp (maxDischargeDepth := 100) +contextual only [hk, kept_lit, kept_markN, kept_copy, kept_zeroWrN, kept_ite, ite_self, implies_true, forall_const, kept_logDirty, kept_wr]; done) | (intro _ _ hk) | with_reducible apply kept_ite | with_reducible apply kept_logDirty | with_reducible apply kept_wr | with_reducible exact kept_lit hk .. | dsimp only | split)

theorem kept_countSpoof {z0 : State} (k : Nat) (inst : Option Nat) {s : State} (hk : Kept z0 s) : Kept z0 (State.countSpoof k inst s) := by
  unfold State.countSpoof
  repeat' (first | with_reducible assumption | (simp (maxDischargeDepth := 100) +contextual only [hk, kept_lit, kept_markN, kept_copy, kept_zeroWrN, kept_ite, ite_self, implies_true, forall_const, kept_modInst, kept_raise]; done) | (intro _ _ hk) | with_reducible apply kept_ite | with_reducible apply kept_modInst | with_reducible apply kept_raise | with_reducible exact kept_lit hk .. | dsimp only | split)

theorem kept_staleDiscard {z0 : State} (i : Nat) {s : State} (hk : Kept z0 s) : Kept z0 (State.staleDiscard i s) := by
  unfold State.staleDiscard
  repeat' (first | with_reducible assumption | (simp (maxDischargeDepth := 100) +contextual only [hk, kept_lit, kept_markN, kept_copy, kept_zeroWrN, kept_ite, ite_self, implies_true, forall_const, kept_modInst]; done) | (intro _ _ hk) | with_reducible apply kept_ite | with_reducible apply kept_modInst | with_reducible exact kept_lit hk .. | dsimp only | split)

theorem kept_runCommand {z0 : State} (m op : Nat) (early : Cmd → State → List Err) (states : Cmd → List Nat)
    (late : Cmd → State → List Err) (effect : Cmd → State → State × Bytes × Bool) {s : State}
    (he : ∀ c s, Kept z0 s → Kept z0 (effect c s).1) (hk : Kept z0 s) :
    Kept z0 (s.runCommand m op early states late effect) := by
  unfold State.runCommand
  split
  · exact hk
  · exact kept_respond _ _ _ _ _ hk
  · have := he ‹Cmd› s hk
    dsimp only
    refine kept_respond _ _ _ _ _ ?_
    split
    · exact kept_modMbox _ _ this
    · exact this

/-- A command whose checks have all passed has passed each of them. -/
theorem firstErr_none {l : List Err} (h : firstErr l = none) : ∀ e, e ∈ l → e = none := by
  induction l with
  | nil => simp
  | cons x r ih =>
    cases x with
    | some e => simp [firstErr] at h
    | none =>
      intro e he
      rcases List.mem_cons.1 he with rfl | he
      · rfl
      · exact ih h e he

theorem failIf_none {b : Bool} {st : Status} (h : failIf b st = none) : b = false := by
  unfold failIf at h
  split at h
  · cases h
  · exact Bool.eq_false_iff.2 ‹_›

theorem verdict_early {m op : Nat} {early : Cmd → State → List Err} {states : Cmd → List Nat}
    {late : Cmd → State → List Err} {s : State} {c : Cmd} (h : s.verdict m op early states late = some (c, none)) :
    ∀ e, e ∈ early c s → e = none := by
  unfold State.verdict at h
  split at h
  · cases h
  · dsimp only at h
    split at h
    · cases h
    · injection h with h
      injection h with hc h
      subst hc
      intro e he
      exact firstErr_none h e (by simp [he])

/-- A command run by `runCommand` keeps what its effect keeps after checks that passed. -/
theorem kept_runChecked {z0 : State} {m op : Nat} {early : Cmd → State → List Err} {states : Cmd → List Nat}
    {late : Cmd → State → List Err} {effect : Cmd → State → State × Bytes × Bool} {s : State}
    (he : ∀ c, s.verdict m op early states late = some (c, none) → Kept z0 (effect c s).1) (hk : Kept z0 s) :
    Kept z0 (s.runCommand m op early states late effect) := by
  unfold State.runCommand
  split
  · exact hk
  · exact kept_respond _ _ _ _ _ hk
  · have := he ‹Cmd› ‹_›
    dsimp only
    refine kept_respond _ _ _ _ _ ?_
    split
    · exact kept_modMbox _ _ this
    · exact this

theorem kept_dropLine {z0 : State} (line : Nat) {s : State} (hk : Kept z0 s) : Kept z0 (State.dropLine line s) := by
  unfold State.dropLine
  repeat' (first | with_reducible assumption | (simp (maxDischargeDepth := 100) +contextual only [hk, kept_lit, kept_markN, kept_copy, kept_zeroWrN, kept_ite, ite_self, implies_true, forall_const, kept_modPower]; done) | (intro _ _ hk) | with_reducible apply kept_ite | with_reducible apply kept_modPower | with_reducible exact kept_lit hk .. | dsimp only | split)

theorem kept_sendMsg {z0 : State} (cls : FyfClass) (n : Nat) (o : Output) {s : State} (hk : Kept z0 s) : Kept z0 (State.sendMsg cls n o s) := by
  unfold State.sendMsg
  repeat' (first | with_reducible assumption | (simp (maxDischargeDepth := 100) +contextual only [hk, kept_lit, kept_markN, kept_copy, kept_zeroWrN, kept_ite, ite_self, implies_true, forall_const, kept_emit, kept_modPower]; done) | (intro _ _ hk) | with_reducible apply kept_ite | with_reducible apply kept_emit | with_reducible apply kept_modPower | with_reducible exact kept_lit hk .. | dsimp only | split)

theorem kept_complete {z0 : State} (lines : Nat) (o : Output) {s : State} (hk : Kept z0 s) : Kept z0 (State.complete lines o s) := by
  unfold State.complete
  repeat' (first | with_reducible assumption | (simp (maxDischargeDepth := 100) +contextual only [hk, kept_lit, kept_markN, kept_copy, kept_zeroWrN, kept_ite, ite_self, implies_true, forall_const, kept_sendMsg]; done) | (intro _ _ hk) | with_reducible apply kept_ite | with_reducible apply kept_sendMsg | with_reducible exact kept_lit hk .. | dsimp only | split)

theorem kept_sendRecall {z0 : State} (line : Nat) {s : State} (hk : Kept z0 s) : Kept z0 (State.sendRecall line s) := by
  unfold State.sendRecall
  repeat' (first | with_reducible assumption | (simp (maxDischargeDepth := 100) +contextual only [hk, kept_lit, kept_markN, kept_copy, kept_zeroWrN, kept_ite, ite_self, implies_true, forall_const, kept_modPower, kept_sendMsg]; done) | (intro _ _ hk) | with_reducible apply kept_ite | with_reducible apply kept_modPower | with_reducible apply kept_sendMsg | with_reducible exact kept_lit hk .. | dsimp only | split)

theorem kept_recallNow {z0 : State} (a : Nat) (n : Nat) (any : Bool) {s : State} (hk : Kept z0 s) : Kept z0 (State.recallNow a n any s) := by
  unfold State.recallNow
  repeat' (first | with_reducible assumption | (simp (maxDischargeDepth := 100) +contextual only [hk, kept_lit, kept_markN, kept_copy, kept_zeroWrN, kept_ite, ite_self, implies_true, forall_const, kept_dropLine, kept_emit, kept_forEach, kept_modPower, kept_takeFree, kept_wr]; done) | (rename_i hq; have hz := congrArg Prod.snd hq; dsimp only at hz; subst hz; try clear hq) | (have hz := congrArg Prod.snd ‹_ = (_, _)›; dsimp only at hz; subst hz) | (with_reducible refine kept_forEach ?_ ?_) | (intro _ _ hk) | with_reducible apply kept_ite | with_reducible apply kept_dropLine | with_reducible apply kept_emit | with_reducible apply kept_modPower | with_reducible apply kept_takeFree | with_reducible apply kept_wr | with_reducible exact kept_lit hk .. | dsimp only | split)

theorem kept_startRecall {z0 : State} (w : Held) (line : Nat) {s : State} (hk : Kept z0 s) : Kept z0 (State.startRecall w line s) := by
  unfold State.startRecall
  repeat' (first | with_reducible assumption | (simp (maxDischargeDepth := 100) +contextual only [hk, kept_lit, kept_markN, kept_copy, kept_zeroWrN, kept_ite, ite_self, implies_true, forall_const, kept_modPower, kept_sendRecall]; done) | (intro _ _ hk) | with_reducible apply kept_ite | with_reducible apply kept_modPower | with_reducible apply kept_sendRecall | with_reducible exact kept_lit hk .. | dsimp only | split)

end Sys2Proof.Machine
end

