-- ==== Sys2Proof/Laws/KeptSecOps.lean ====
section
/-! SUPPORT. The operations of Sys2Proof/Machine/SecOps.lean keep what every step keeps. -/

namespace Sys2Proof.Machine

set_option linter.all false
set_option Elab.async false

theorem kept_extend {z0 : State} (i : Nat) (d : Bytes) {s : State} (hk : Kept z0 s) : Kept z0 (State.extend i d s) := by
  unfold State.extend
  repeat' (first | with_reducible assumption | (simp (maxDischargeDepth := 100) +contextual only [hk, kept_lit, kept_markN, kept_copy, kept_zeroWrN, kept_ite, ite_self, implies_true, forall_const, kept_modSec]; done) | (intro _ _ hk) | with_reducible apply kept_ite | with_reducible apply kept_modSec | with_reducible exact kept_lit hk .. | dsimp only | split)

theorem kept_fuses {a s : State} (h : Kept a s) {fu : Fuses} (hf : s.fuses.burned fu) : Kept a { s with fuses := fu } :=
  ⟨h.pending, h.mem, h.legal, Fuses.burned_trans h.fuses hf, h.flash⟩

theorem kept_burnStep {z0 : State} {s : State} (hk : Kept z0 s) : Kept z0 (s.burnStep) := by
  have h := kept_fuses hk (fu := { s.fuses with idSteps := s.fuses.idSteps + 1 }) (by simp [Fuses.burned])
  unfold State.burnStep
  dsimp only
  split
  · exact kept_modSec _ h
  · exact h

theorem kept_exhaust {z0 : State} {s : State} (hk : Kept z0 s) : Kept z0 (State.exhaust s) := by
  unfold State.exhaust
  repeat' (first | with_reducible assumption | (simp (maxDischargeDepth := 100) +contextual only [hk, kept_lit, kept_markN, kept_copy, kept_zeroWrN, kept_ite, ite_self, implies_true, forall_const, kept_modSec]; done) | (intro _ _ hk) | with_reducible apply kept_ite | with_reducible apply kept_modSec | with_reducible exact kept_lit hk .. | dsimp only | split)

theorem kept_identityIndex {z0 : State} {s : State} (hk : Kept z0 s) : Kept z0 (State.identityIndex s).2 := by
  unfold State.identityIndex
  repeat' (first | with_reducible assumption | (simp (maxDischargeDepth := 100) +contextual only [hk, kept_lit, kept_markN, kept_copy, kept_zeroWrN, kept_ite, ite_self, implies_true, forall_const, kept_burnStep, kept_exhaust, kept_modSec]; done) | (intro _ _ hk) | with_reducible apply kept_ite | with_reducible apply kept_burnStep | with_reducible apply kept_exhaust | with_reducible apply kept_modSec | with_reducible exact kept_lit hk .. | dsimp only | split)

theorem kept_certify {z0 : State} (seq : Nat) {s : State} (hk : Kept z0 s) : Kept z0 (State.certify seq s).2 := by
  unfold State.certify
  repeat' (first | with_reducible assumption | (simp (maxDischargeDepth := 100) +contextual only [hk, kept_lit, kept_markN, kept_copy, kept_zeroWrN, kept_ite, ite_self, implies_true, forall_const, kept_identityIndex]; done) | (rename_i hq; have hz := congrArg Prod.snd hq; dsimp only at hz; subst hz; try clear hq) | (have hz := congrArg Prod.snd ‹_ = (_, _)›; dsimp only at hz; subst hz) | (intro _ _ hk) | with_reducible apply kept_ite | with_reducible apply kept_identityIndex | with_reducible exact kept_lit hk .. | dsimp only | split)

theorem kept_switchKey {z0 : State} {s : State} (hk : Kept z0 s) : Kept z0 (State.switchKey s) := by
  unfold State.switchKey
  repeat' (first | with_reducible assumption | (simp (maxDischargeDepth := 100) +contextual only [hk, kept_lit, kept_markN, kept_copy, kept_zeroWrN, kept_ite, ite_self, implies_true, forall_const, kept_modSec]; done) | (intro _ _ hk) | with_reducible apply kept_ite | with_reducible apply kept_modSec | with_reducible exact kept_lit hk .. | dsimp only | split)

theorem kept_sessionSign {z0 : State} (msg : Bytes) {s : State} (hk : Kept z0 s) {b : Bytes} {t : State}
    (ht : s.sessionSign msg = some (b, t)) : Kept z0 t := by
  unfold State.sessionSign at ht
  dsimp only at ht
  split at ht
  · cases ht
  · cases ht
    exact kept_switchKey (kept_modSec _ (kept_switchKey hk))

end Sys2Proof.Machine
end

