-- ==== Sys2Proof/Laws/KeptProvOps.lean ====
section
/-! SUPPORT. The operations of Sys2Proof/Machine/ProvOps.lean keep what every step keeps. -/

namespace Sys2Proof.Machine

set_option linter.all false
set_option Elab.async false

theorem kept_addLeaf {z0 : State} (r : CmpRec) (pv : Bytes) (digest : Bytes) (ranks : Nat) {s : State} (hk : Kept z0 s) : Kept z0 (State.addLeaf r pv digest ranks s) := by
  unfold State.addLeaf
  repeat' (first | with_reducible assumption | (simp (maxDischargeDepth := 100) +contextual only [hk, kept_lit, kept_markN, kept_copy, kept_zeroWrN, kept_ite, ite_self, implies_true, forall_const, kept_modProv, kept_provWrite]; done) | (intro _ _ hk) | with_reducible apply kept_ite | with_reducible apply kept_modProv | with_reducible apply kept_provWrite | with_reducible exact kept_lit hk .. | dsimp only | split)

theorem kept_provFlush {z0 : State} (n : Nat) {s : State} (hk : Kept z0 s) : Kept z0 (State.provFlush n s) := by
  induction n generalizing s with
  | zero => exact hk
  | succ n ih =>
    simp only [State.provFlush]
    split
    · exact hk
    · split
      · exact ih (kept_modProv _ (kept_provWrite _ hk))
      · exact hk

theorem kept_closeInterval {z0 : State} (endAt : Nat) {s : State} (hk : Kept z0 s) : Kept z0 (State.closeInterval endAt s) := by
  unfold State.closeInterval
  repeat' (first | with_reducible assumption | (simp (maxDischargeDepth := 100) +contextual only [hk, kept_lit, kept_markN, kept_copy, kept_zeroWrN, kept_ite, ite_self, implies_true, forall_const, kept_enqueue, kept_modProv, kept_provPut]; done) | (intro _ _ hk) | with_reducible apply kept_ite | with_reducible apply kept_enqueue | with_reducible apply kept_modProv | with_reducible apply kept_provPut | with_reducible exact kept_lit hk .. | dsimp only | split)

theorem kept_closeEnded {z0 : State} (t : Nat) (x0 : Nat) {s : State} (hk : Kept z0 s) : Kept z0 (State.closeEnded t x0 s) := by
  induction x0 generalizing s with
  | zero =>
    first | exact hk | (simp only [State.closeEnded]; repeat' (first | with_reducible assumption | with_reducible apply ih | (simp (maxDischargeDepth := 100) +contextual only [hk, kept_lit, kept_markN, kept_copy, kept_zeroWrN, kept_ite, ite_self, implies_true, forall_const, kept_closeInterval]; done) | (intro _ _ hk) | with_reducible apply kept_ite | with_reducible apply kept_closeInterval | with_reducible exact kept_lit hk .. | dsimp only | split))
  | succ n ih =>
    simp only [State.closeEnded]
    repeat' (first | with_reducible assumption | with_reducible apply ih | (simp (maxDischargeDepth := 100) +contextual only [hk, kept_lit, kept_markN, kept_copy, kept_zeroWrN, kept_ite, ite_self, implies_true, forall_const, kept_closeInterval]; done) | (intro _ _ hk) | with_reducible apply kept_ite | with_reducible apply kept_closeInterval | with_reducible exact kept_lit hk .. | dsimp only | split)

theorem kept_provLeaf {z0 : State} (r : CmpRec) (pv : Bytes) (digest : Bytes) (ranks : Nat) {s : State} (hk : Kept z0 s) : Kept z0 (State.provLeaf r pv digest ranks s) := by
  unfold State.provLeaf
  repeat' (first | with_reducible assumption | (simp (maxDischargeDepth := 100) +contextual only [hk, kept_lit, kept_markN, kept_copy, kept_zeroWrN, kept_ite, ite_self, implies_true, forall_const, kept_addLeaf, kept_closeEnded]; done) | (intro _ _ hk) | with_reducible apply kept_ite | with_reducible apply kept_addLeaf | with_reducible apply kept_closeEnded | with_reducible exact kept_lit hk .. | dsimp only | split)

end Sys2Proof.Machine
end

