-- ==== Sys2Proof/Laws/KeptTierOps.lean ====
section
/-! SUPPORT. The operations of Sys2Proof/Machine/TierOps.lean keep what every step keeps. -/

namespace Sys2Proof.Machine

set_option linter.all false
set_option Elab.async false

theorem kept_modCopy {z0 : State} {s : State} (e : Nat) (t : Nat) (f : Copy → Copy) (hk : Kept z0 s) : Kept z0 (State.modCopy s e t f) := by
  unfold State.modCopy
  repeat' (first | with_reducible assumption | (simp (maxDischargeDepth := 100) +contextual only [hk, kept_lit, kept_markN, kept_copy, kept_zeroWrN, kept_ite, ite_self, implies_true, forall_const, kept_modObj]; done) | (intro _ _ hk) | with_reducible apply kept_ite | with_reducible apply kept_modObj | with_reducible exact kept_lit hk .. | dsimp only | split)

theorem kept_settleEntry {z0 : State} (e : Nat) {s : State} (hk : Kept z0 s) : Kept z0 (State.settleEntry e s) := by
  unfold State.settleEntry
  repeat' (first | with_reducible assumption | (simp (maxDischargeDepth := 100) +contextual only [hk, kept_lit, kept_markN, kept_copy, kept_zeroWrN, kept_ite, ite_self, implies_true, forall_const, kept_modObj]; done) | (intro _ _ hk) | with_reducible apply kept_ite | with_reducible apply kept_modObj | with_reducible exact kept_lit hk .. | dsimp only | split)

theorem kept_dropCopy {z0 : State} (e : Nat) (t : Nat) {s : State} (hk : Kept z0 s) : Kept z0 (State.dropCopy e t s) := by
  unfold State.dropCopy
  repeat' (first | with_reducible assumption | (simp (maxDischargeDepth := 100) +contextual only [hk, kept_lit, kept_markN, kept_copy, kept_zeroWrN, kept_ite, ite_self, implies_true, forall_const, kept_modObj, kept_settleEntry]; done) | (intro _ _ hk) | with_reducible apply kept_ite | with_reducible apply kept_modObj | with_reducible apply kept_settleEntry | with_reducible exact kept_lit hk .. | dsimp only | split)

theorem kept_settleDrained {z0 : State} {s : State} (hk : Kept z0 s) : Kept z0 (State.settleDrained s) := by
  unfold State.settleDrained
  repeat' (first | with_reducible assumption | (simp (maxDischargeDepth := 100) +contextual only [hk, kept_lit, kept_markN, kept_copy, kept_zeroWrN, kept_ite, ite_self, implies_true, forall_const, kept_dropCopy, kept_forEach, kept_settleEntry]; done) | (with_reducible refine kept_forEach ?_ ?_) | (intro _ _ hk) | with_reducible apply kept_ite | with_reducible apply kept_dropCopy | with_reducible apply kept_settleEntry | with_reducible exact kept_lit hk .. | dsimp only | split)

theorem kept_nextOrder {z0 : State} {s : State} (hk : Kept z0 s) : Kept z0 (State.nextOrder s).2 := by
  unfold State.nextOrder
  repeat' (first | with_reducible assumption | (simp (maxDischargeDepth := 100) +contextual only [hk, kept_lit, kept_markN, kept_copy, kept_zeroWrN, kept_ite, ite_self, implies_true, forall_const]; done) | (intro _ _ hk) | with_reducible apply kept_ite | with_reducible exact kept_lit hk .. | dsimp only | split)

theorem kept_unreferenced {z0 : State} (e : Nat) (t : Nat) {s : State} (hk : Kept z0 s) : Kept z0 (State.unreferenced e t s) := by
  unfold State.unreferenced
  repeat' (first | with_reducible assumption | (simp (maxDischargeDepth := 100) +contextual only [hk, kept_lit, kept_markN, kept_copy, kept_zeroWrN, kept_ite, ite_self, implies_true, forall_const, kept_dropCopy, kept_modCopy, kept_modMover, kept_nextOrder, kept_settleEntry]; done) | (rename_i hq; have hz := congrArg Prod.snd hq; dsimp only at hz; subst hz; try clear hq) | (have hz := congrArg Prod.snd ‹_ = (_, _)›; dsimp only at hz; subst hz) | (intro _ _ hk) | with_reducible apply kept_ite | with_reducible apply kept_dropCopy | with_reducible apply kept_modCopy | with_reducible apply kept_modMover | with_reducible apply kept_nextOrder | with_reducible apply kept_settleEntry | with_reducible exact kept_lit hk .. | dsimp only | split)

theorem kept_dropRef {z0 : State} (e : Nat) (inst : Nat) (t : Nat) {s : State} (hk : Kept z0 s) : Kept z0 (State.dropRef e inst t s) := by
  unfold State.dropRef
  repeat' (first | with_reducible assumption | (simp (maxDischargeDepth := 100) +contextual only [hk, kept_lit, kept_markN, kept_copy, kept_zeroWrN, kept_ite, ite_self, implies_true, forall_const, kept_modObj, kept_unreferenced]; done) | (intro _ _ hk) | with_reducible apply kept_ite | with_reducible apply kept_modObj | with_reducible apply kept_unreferenced | with_reducible exact kept_lit hk .. | dsimp only | split)

theorem kept_startRepair {z0 : State} (e : Nat) (t : Nat) {s : State} (hk : Kept z0 s) : Kept z0 (State.startRepair e t s) := by
  unfold State.startRepair
  repeat' (first | with_reducible assumption | (simp (maxDischargeDepth := 100) +contextual only [hk, kept_lit, kept_markN, kept_copy, kept_zeroWrN, kept_ite, ite_self, implies_true, forall_const, kept_modCopy, kept_nextOrder]; done) | (rename_i hq; have hz := congrArg Prod.snd hq; dsimp only at hz; subst hz; try clear hq) | (have hz := congrArg Prod.snd ‹_ = (_, _)›; dsimp only at hz; subst hz) | (intro _ _ hk) | with_reducible apply kept_ite | with_reducible apply kept_modCopy | with_reducible apply kept_nextOrder | with_reducible exact kept_lit hk .. | dsimp only | split)

theorem kept_tierError {z0 : State} (e : Nat) (st : Status) {s : State} (hk : Kept z0 s) : Kept z0 (State.tierError e st s) := by
  unfold State.tierError
  repeat' (first | with_reducible assumption | (simp (maxDischargeDepth := 100) +contextual only [hk, kept_lit, kept_markN, kept_copy, kept_zeroWrN, kept_ite, ite_self, implies_true, forall_const, kept_forEach, kept_raise]; done) | (with_reducible refine kept_forEach ?_ ?_) | (intro _ _ hk) | with_reducible apply kept_ite | with_reducible apply kept_raise | with_reducible exact kept_lit hk .. | dsimp only | split)

theorem kept_notePoison {z0 : State} (e : Nat) (t : Nat) (part : Nat) (k : Nat) (detected : Bool) {s : State} (hk : Kept z0 s) : Kept z0 (State.notePoison e t part k detected s) := by
  unfold State.notePoison
  repeat' (first | with_reducible assumption | (simp (maxDischargeDepth := 100) +contextual only [hk, kept_lit, kept_markN, kept_copy, kept_zeroWrN, kept_ite, ite_self, implies_true, forall_const, kept_evidence, kept_ledgerSnap, kept_modCopy, kept_modMover, kept_startRepair, kept_tierError]; done) | (intro _ _ hk) | with_reducible apply kept_ite | with_reducible apply kept_evidence | with_reducible apply kept_ledgerSnap | with_reducible apply kept_modCopy | with_reducible apply kept_modMover | with_reducible apply kept_startRepair | with_reducible apply kept_tierError | with_reducible exact kept_lit hk .. | dsimp only | split)

theorem kept_poisonChunk {z0 : State} (e : Nat) (t : Nat) (part : Nat) (k : Nat) (line : Option Nat) (detected : Bool) {s : State} (hk : Kept z0 s) : Kept z0 (State.poisonChunk e t part k line detected s) := by
  unfold State.poisonChunk
  repeat' (first | with_reducible assumption | (simp (maxDischargeDepth := 100) +contextual only [hk, kept_lit, kept_markN, kept_copy, kept_zeroWrN, kept_ite, ite_self, implies_true, forall_const, kept_notePoison]; done) | (intro _ _ hk) | (with_reducible refine kept_zeroWrN ?_ ..) | (with_reducible refine kept_copy ?_ ..) | (with_reducible refine kept_markN ?_ ..) | with_reducible apply kept_ite | with_reducible apply kept_notePoison | with_reducible exact kept_lit hk .. | dsimp only | split)

theorem kept_cleanCopy {z0 : State} (e : Nat) (t : Nat) {s : State} (hk : Kept z0 s) : Kept z0 (State.cleanCopy e t s) := by
  unfold State.cleanCopy
  repeat' (first | with_reducible assumption | (simp (maxDischargeDepth := 100) +contextual only [hk, kept_lit, kept_markN, kept_copy, kept_zeroWrN, kept_ite, ite_self, implies_true, forall_const, kept_modCopy]; done) | (intro _ _ hk) | with_reducible apply kept_ite | with_reducible apply kept_modCopy | with_reducible exact kept_lit hk .. | dsimp only | split)

theorem kept_objWrite {z0 : State} (e : Nat) (off : Nat) (bs : Bytes) {s : State} (hk : Kept z0 s) : Kept z0 (State.objWrite e off bs s) := by
  unfold State.objWrite
  repeat' (first | with_reducible assumption | (simp (maxDischargeDepth := 100) +contextual only [hk, kept_lit, kept_markN, kept_copy, kept_zeroWrN, kept_ite, ite_self, implies_true, forall_const, kept_cleanCopy, kept_forEach, kept_modCopy, kept_modObj, kept_recallNow, kept_wr, kept_wrCompanion]; done) | (with_reducible refine kept_forEach ?_ ?_) | (intro _ _ hk) | with_reducible apply kept_ite | with_reducible apply kept_cleanCopy | with_reducible apply kept_modCopy | with_reducible apply kept_modObj | with_reducible apply kept_recallNow | with_reducible apply kept_wr | with_reducible apply kept_wrCompanion | with_reducible exact kept_lit hk .. | dsimp only | split)

theorem kept_objPoison {z0 : State} (e : Nat) (off : Nat) (n : Nat) {s : State} (hk : Kept z0 s) : Kept z0 (State.objPoison e off n s) := by
  unfold State.objPoison
  repeat' (first | with_reducible assumption | (simp (maxDischargeDepth := 100) +contextual only [hk, kept_lit, kept_markN, kept_copy, kept_zeroWrN, kept_ite, ite_self, implies_true, forall_const, kept_forEach, kept_modCopy]; done) | (with_reducible refine kept_forEach ?_ ?_) | (intro _ _ hk) | (with_reducible refine kept_zeroWrN ?_ ..) | (with_reducible refine kept_copy ?_ ..) | (with_reducible refine kept_markN ?_ ..) | with_reducible apply kept_ite | with_reducible apply kept_modCopy | with_reducible exact kept_lit hk .. | dsimp only | split)

theorem kept_loseCopy {z0 : State} (e : Nat) (t : Nat) {s : State} (hk : Kept z0 s) : Kept z0 (State.loseCopy e t s) := by
  unfold State.loseCopy
  repeat' (first | with_reducible assumption | (simp (maxDischargeDepth := 100) +contextual only [hk, kept_lit, kept_markN, kept_copy, kept_zeroWrN, kept_ite, ite_self, implies_true, forall_const, kept_forEach, kept_modObj, kept_poisonChunk, kept_settleEntry]; done) | (with_reducible refine kept_forEach ?_ ?_) | (intro _ _ hk) | with_reducible apply kept_ite | with_reducible apply kept_modObj | with_reducible apply kept_poisonChunk | with_reducible apply kept_settleEntry | with_reducible exact kept_lit hk .. | dsimp only | split)

theorem kept_loseSpace {z0 : State} (sp : Space) {s : State} (hk : Kept z0 s) : Kept z0 (State.loseSpace sp s) := by
  unfold State.loseSpace
  repeat' (first | with_reducible assumption | (simp (maxDischargeDepth := 100) +contextual only [hk, kept_lit, kept_markN, kept_copy, kept_zeroWrN, kept_ite, ite_self, implies_true, forall_const, kept_forEach, kept_loseCopy]; done) | (with_reducible refine kept_forEach ?_ ?_) | (intro _ _ hk) | with_reducible apply kept_ite | with_reducible apply kept_loseCopy | with_reducible exact kept_lit hk .. | dsimp only | split)

theorem kept_loseStack {z0 : State} (k : Nat) {s : State} (hk : Kept z0 s) : Kept z0 (State.loseStack k s) := by
  unfold State.loseStack
  repeat' (first | with_reducible assumption | (simp (maxDischargeDepth := 100) +contextual only [hk, kept_lit, kept_markN, kept_copy, kept_zeroWrN, kept_ite, ite_self, implies_true, forall_const, kept_forEach, kept_loseCopy, kept_poisonChunk]; done) | (with_reducible refine kept_forEach ?_ ?_) | (intro _ _ hk) | with_reducible apply kept_ite | with_reducible apply kept_loseCopy | with_reducible apply kept_poisonChunk | with_reducible exact kept_lit hk .. | dsimp only | split)

end Sys2Proof.Machine
end

