-- ==== Sys2Proof/Laws/KeptOperands.lean ====
section
/-! SUPPORT. The operations of Sys2Proof/Machine/Operands.lean keep what every step keeps. -/

namespace Sys2Proof.Machine

set_option linter.all false
set_option Elab.async false

theorem kept_freeBytes {z0 : State} (x0 : Nat) {s : State} (hk : Kept z0 s) : Kept z0 (State.freeBytes x0 s).2 := by
  induction x0 generalizing s with
  | zero =>
    first | exact hk | (simp only [State.freeBytes]; repeat' (first | with_reducible assumption | with_reducible apply ih | (simp (maxDischargeDepth := 100) +contextual only [hk, kept_lit, kept_markN, kept_copy, kept_zeroWrN, kept_ite, ite_self, implies_true, forall_const, kept_takeFree]; done) | (rename_i hq; have hz := congrArg Prod.snd hq; dsimp only at hz; subst hz; try clear hq) | (rename_i hq; have hz := congrArg Prod.snd hq; dsimp only at hz; subst hz; try clear hq) | (have hz := congrArg Prod.snd ‹_ = (_, _)›; dsimp only at hz; subst hz) | (intro _ _ hk) | with_reducible apply kept_ite | with_reducible apply kept_takeFree | with_reducible exact kept_lit hk .. | dsimp only | split))
  | succ n ih =>
    simp only [State.freeBytes]
    repeat' (first | with_reducible assumption | with_reducible apply ih | (simp (maxDischargeDepth := 100) +contextual only [hk, kept_lit, kept_markN, kept_copy, kept_zeroWrN, kept_ite, ite_self, implies_true, forall_const, kept_takeFree]; done) | (rename_i hq; have hz := congrArg Prod.snd hq; dsimp only at hz; subst hz; try clear hq) | (rename_i hq; have hz := congrArg Prod.snd hq; dsimp only at hz; subst hz; try clear hq) | (have hz := congrArg Prod.snd ‹_ = (_, _)›; dsimp only at hz; subst hz) | (intro _ _ hk) | with_reducible apply kept_ite | with_reducible apply kept_takeFree | with_reducible exact kept_lit hk .. | dsimp only | split)

theorem kept_fetchPart {z0 : State} (e : Nat) (off : Nat) (n : Nat) (f : Option Nat) {s : State} (hk : Kept z0 s) : Kept z0 (State.fetchPart e off n f s).2 := by
  unfold State.fetchPart
  repeat' (first | with_reducible assumption | (simp (maxDischargeDepth := 100) +contextual only [hk, kept_lit, kept_markN, kept_copy, kept_zeroWrN, kept_ite, ite_self, implies_true, forall_const, kept_freeBytes, kept_recallNow]; done) | (rename_i hq; have hz := congrArg Prod.snd hq; dsimp only at hz; subst hz; try clear hq) | (have hz := congrArg Prod.snd ‹_ = (_, _)›; dsimp only at hz; subst hz) | (intro _ _ hk) | with_reducible apply kept_ite | with_reducible apply kept_freeBytes | with_reducible apply kept_recallNow | with_reducible exact kept_lit hk .. | dsimp only | split)

theorem kept_fetch {z0 : State} (e : Nat) (off : Nat) (n : Nat) (f : Option Nat) {s : State} (hk : Kept z0 s) : Kept z0 (State.fetch e off n f s).2 := by
  unfold State.fetch
  repeat' (first | with_reducible assumption | (simp (maxDischargeDepth := 100) +contextual only [hk, kept_lit, kept_markN, kept_copy, kept_zeroWrN, kept_ite, ite_self, implies_true, forall_const, kept_fetchPart]; done) | (rename_i hq; have hz := congrArg Prod.snd hq; dsimp only at hz; subst hz; try clear hq) | (have hz := congrArg Prod.snd ‹_ = (_, _)›; dsimp only at hz; subst hz) | (intro _ _ hk) | with_reducible apply kept_ite | with_reducible apply kept_fetchPart | with_reducible exact kept_lit hk .. | dsimp only | split)

theorem kept_fetchPlane {z0 : State} (e : Nat) (off : Nat) (n : Nat) (f : Option Nat) {s : State} (hk : Kept z0 s) : Kept z0 (State.fetchPlane e off n f s).2 := by
  unfold State.fetchPlane
  repeat' (first | with_reducible assumption | (simp (maxDischargeDepth := 100) +contextual only [hk, kept_lit, kept_markN, kept_copy, kept_zeroWrN, kept_ite, ite_self, implies_true, forall_const, kept_fetch]; done) | (rename_i hq; have hz := congrArg Prod.snd hq; dsimp only at hz; subst hz; try clear hq) | (have hz := congrArg Prod.snd ‹_ = (_, _)›; dsimp only at hz; subst hz) | (intro _ _ hk) | with_reducible apply kept_ite | with_reducible apply kept_fetch | with_reducible exact kept_lit hk .. | dsimp only | split)

theorem kept_weightRowAt {z0 : State} (e : Nat) (h : WHeader) (w : Nat) (f : Option Nat) {s : State} (hk : Kept z0 s) : Kept z0 (State.weightRowAt e h w f s).2.2 := by
  unfold State.weightRowAt
  repeat' (first | with_reducible assumption | (simp (maxDischargeDepth := 100) +contextual only [hk, kept_lit, kept_markN, kept_copy, kept_zeroWrN, kept_ite, ite_self, implies_true, forall_const, kept_fetch, kept_fetchPlane]; done) | (rename_i hq; have hz := congrArg Prod.snd hq; dsimp only at hz; subst hz; try clear hq) | (have hz := congrArg Prod.snd ‹_ = (_, _)›; dsimp only at hz; subst hz) | (intro _ _ hk) | with_reducible apply kept_ite | with_reducible apply kept_fetch | with_reducible apply kept_fetchPlane | with_reducible exact kept_lit hk .. | dsimp only | split)

theorem kept_fetchAll {z0 : State} (e : Nat) (x0 : Nat) (x1 : Nat) (x2 : Nat) {s : State} (hk : Kept z0 s) : Kept z0 (State.fetchAll e x0 x1 x2 s).2 := by
  induction x0 generalizing x1 x2 s with
  | zero =>
    first | exact hk | (simp only [State.fetchAll]; repeat' (first | with_reducible assumption | with_reducible apply ih | (simp (maxDischargeDepth := 100) +contextual only [hk, kept_lit, kept_markN, kept_copy, kept_zeroWrN, kept_ite, ite_self, implies_true, forall_const, kept_fetchPart]; done) | (rename_i hq; have hz := congrArg Prod.snd hq; dsimp only at hz; subst hz; try clear hq) | (rename_i hq; have hz := congrArg Prod.snd hq; dsimp only at hz; subst hz; try clear hq) | (have hz := congrArg Prod.snd ‹_ = (_, _)›; dsimp only at hz; subst hz) | (intro _ _ hk) | with_reducible apply kept_ite | with_reducible apply kept_fetchPart | with_reducible exact kept_lit hk .. | dsimp only | split))
  | succ n ih =>
    simp only [State.fetchAll]
    repeat' (first | with_reducible assumption | with_reducible apply ih | (simp (maxDischargeDepth := 100) +contextual only [hk, kept_lit, kept_markN, kept_copy, kept_zeroWrN, kept_ite, ite_self, implies_true, forall_const, kept_fetchPart]; done) | (rename_i hq; have hz := congrArg Prod.snd hq; dsimp only at hz; subst hz; try clear hq) | (rename_i hq; have hz := congrArg Prod.snd hq; dsimp only at hz; subst hz; try clear hq) | (have hz := congrArg Prod.snd ‹_ = (_, _)›; dsimp only at hz; subst hz) | (intro _ _ hk) | with_reducible apply kept_ite | with_reducible apply kept_fetchPart | with_reducible exact kept_lit hk .. | dsimp only | split)

theorem kept_fetchObj {z0 : State} (h : Nat) (off : Nat) (n : Nat) {s : State} (hk : Kept z0 s) : Kept z0 (State.fetchObj h off n s).2 := by
  unfold State.fetchObj
  repeat' (first | with_reducible assumption | (simp (maxDischargeDepth := 100) +contextual only [hk, kept_lit, kept_markN, kept_copy, kept_zeroWrN, kept_ite, ite_self, implies_true, forall_const, kept_fetchAll]; done) | (rename_i hq; have hz := congrArg Prod.snd hq; dsimp only at hz; subst hz; try clear hq) | (have hz := congrArg Prod.snd ‹_ = (_, _)›; dsimp only at hz; subst hz) | (intro _ _ hk) | with_reducible apply kept_ite | with_reducible apply kept_fetchAll | with_reducible exact kept_lit hk .. | dsimp only | split)

theorem kept_readTiles {z0 : State} (h : Nat) (x0 : Nat) (x1 : Nat) {s : State} (hk : Kept z0 s) : Kept z0 (State.readTiles h x0 x1 s).2.2 := by
  induction x0 generalizing x1 s with
  | zero =>
    first | exact hk | (simp only [State.readTiles]; repeat' (first | with_reducible assumption | with_reducible apply ih | (simp (maxDischargeDepth := 100) +contextual only [hk, kept_lit, kept_markN, kept_copy, kept_zeroWrN, kept_ite, ite_self, implies_true, forall_const, kept_fetchObj]; done) | (rename_i hq; have hz := congrArg Prod.snd (congrArg Prod.snd hq); dsimp only at hz; subst hz; try clear hq) | (rename_i hq; have hz := congrArg Prod.snd hq; dsimp only at hz; subst hz; try clear hq) | (rename_i hq; have hz := congrArg Prod.snd hq; dsimp only at hz; subst hz; try clear hq) | (have hz := congrArg Prod.snd ‹_ = (_, _)›; dsimp only at hz; subst hz) | (intro _ _ hk) | with_reducible apply kept_ite | with_reducible apply kept_fetchObj | with_reducible exact kept_lit hk .. | dsimp only | split))
  | succ n ih =>
    simp only [State.readTiles]
    repeat' (first | with_reducible assumption | with_reducible apply ih | (simp (maxDischargeDepth := 100) +contextual only [hk, kept_lit, kept_markN, kept_copy, kept_zeroWrN, kept_ite, ite_self, implies_true, forall_const, kept_fetchObj]; done) | (rename_i hq; have hz := congrArg Prod.snd (congrArg Prod.snd hq); dsimp only at hz; subst hz; try clear hq) | (rename_i hq; have hz := congrArg Prod.snd hq; dsimp only at hz; subst hz; try clear hq) | (rename_i hq; have hz := congrArg Prod.snd hq; dsimp only at hz; subst hz; try clear hq) | (have hz := congrArg Prod.snd ‹_ = (_, _)›; dsimp only at hz; subst hz) | (intro _ _ hk) | with_reducible apply kept_ite | with_reducible apply kept_fetchObj | with_reducible exact kept_lit hk .. | dsimp only | split)

end Sys2Proof.Machine
end

