-- ==== Sys2Proof/Laws/KeptTiers.lean ====
section
/-! SUPPORT. The operations of Sys2Proof/Machine/Tiers.lean keep what every step keeps. -/

namespace Sys2Proof.Machine

set_option linter.all false
set_option Elab.async false

theorem kept_createObj {z0 : State} (c : Cmd) {s : State} (hk : Kept z0 s) : Kept z0 (State.createObj c s).2 := by
  unfold State.createObj
  repeat' (first | with_reducible assumption | (simp (maxDischargeDepth := 100) +contextual only [hk, kept_lit, kept_markN, kept_copy, kept_zeroWrN, kept_ite, ite_self, implies_true, forall_const, kept_forEach, kept_nextOrder, kept_zeroMem]; done) | (rename_i hq; have hz := congrArg Prod.snd hq; dsimp only at hz; subst hz; try clear hq) | (have hz := congrArg Prod.snd ‹_ = (_, _)›; dsimp only at hz; subst hz) | (with_reducible refine kept_forEach ?_ ?_) | (intro _ _ hk) | with_reducible apply kept_ite | with_reducible apply kept_nextOrder | with_reducible apply kept_zeroMem | with_reducible exact kept_lit hk .. | dsimp only | split)

theorem kept_joinObj {z0 : State} (e : Nat) (inst : Nat) {s : State} (hk : Kept z0 s) : Kept z0 (State.joinObj e inst s) := by
  unfold State.joinObj
  repeat' (first | with_reducible assumption | (simp (maxDischargeDepth := 100) +contextual only [hk, kept_lit, kept_markN, kept_copy, kept_zeroWrN, kept_ite, ite_self, implies_true, forall_const, kept_modObj]; done) | (intro _ _ hk) | with_reducible apply kept_ite | with_reducible apply kept_modObj | with_reducible exact kept_lit hk .. | dsimp only | split)

theorem kept_execObjCreate {z0 zt : State} (m : Fin 16) {s : State} (hk : Kept z0 s) (ht : execObjCreate m s = .next zt) : Kept z0 zt := by
  unfold execObjCreate at ht
  cases ht
  repeat' (first | with_reducible assumption | (simp (maxDischargeDepth := 100) +contextual only [hk, kept_lit, kept_markN, kept_copy, kept_zeroWrN, kept_ite, ite_self, implies_true, forall_const, kept_createObj, kept_join, kept_joinObj, kept_runCommand]; done) | (rename_i hq; have hz := congrArg Prod.snd hq; dsimp only at hz; subst hz; try clear hq) | (have hz := congrArg Prod.snd ‹_ = (_, _)›; dsimp only at hz; subst hz) | (intro _ _ hk) | with_reducible apply kept_ite | with_reducible apply kept_createObj | with_reducible apply kept_join | with_reducible apply kept_joinObj | with_reducible apply kept_runCommand | with_reducible exact kept_lit hk .. | dsimp only | split)

theorem kept_promote {z0 : State} (e : Nat) (inst : Nat) (t : Nat) (place : Nat) (ctx : Nat) {s : State} (hk : Kept z0 s) : Kept z0 (State.promote e inst t place ctx s) := by
  unfold State.promote
  repeat' (first | with_reducible assumption | (simp (maxDischargeDepth := 100) +contextual only [hk, kept_lit, kept_markN, kept_copy, kept_zeroWrN, kept_ite, ite_self, implies_true, forall_const, kept_modCopy, kept_modObj, kept_nextOrder, kept_place]; done) | (rename_i hq; have hz := congrArg Prod.snd hq; dsimp only at hz; subst hz; try clear hq) | (have hz := congrArg Prod.snd ‹_ = (_, _)›; dsimp only at hz; subst hz) | (intro _ _ hk) | with_reducible apply kept_ite | with_reducible apply kept_modCopy | with_reducible apply kept_modObj | with_reducible apply kept_nextOrder | with_reducible apply kept_place | with_reducible exact kept_lit hk .. | dsimp only | split)

theorem kept_execObjPromote {z0 zt : State} (m : Fin 16) {s : State} (hk : Kept z0 s) (ht : execObjPromote m s = .next zt) : Kept z0 zt := by
  unfold execObjPromote at ht
  cases ht
  repeat' (first | with_reducible assumption | (simp (maxDischargeDepth := 100) +contextual only [hk, kept_lit, kept_markN, kept_copy, kept_zeroWrN, kept_ite, ite_self, implies_true, forall_const, kept_promote, kept_runCommand]; done) | (intro _ _ hk) | with_reducible apply kept_ite | with_reducible apply kept_promote | with_reducible apply kept_runCommand | with_reducible exact kept_lit hk .. | dsimp only | split)

theorem kept_execObjEvict {z0 zt : State} (m : Fin 16) {s : State} (hk : Kept z0 s) (ht : execObjEvict m s = .next zt) : Kept z0 zt := by
  unfold execObjEvict at ht
  cases ht
  repeat' (first | with_reducible assumption | (simp (maxDischargeDepth := 100) +contextual only [hk, kept_lit, kept_markN, kept_copy, kept_zeroWrN, kept_ite, ite_self, implies_true, forall_const, kept_dropRef, kept_runCommand]; done) | (intro _ _ hk) | with_reducible apply kept_ite | with_reducible apply kept_dropRef | with_reducible apply kept_runCommand | with_reducible exact kept_lit hk .. | dsimp only | split)

theorem kept_execObjAlternate {z0 zt : State} (m : Fin 16) {s : State} (hk : Kept z0 s) (ht : execObjAlternate m s = .next zt) : Kept z0 zt := by
  unfold execObjAlternate at ht
  cases ht
  repeat' (first | with_reducible assumption | (simp (maxDischargeDepth := 100) +contextual only [hk, kept_lit, kept_markN, kept_copy, kept_zeroWrN, kept_ite, ite_self, implies_true, forall_const, kept_forEach, kept_modObj, kept_runCommand, kept_startRepair]; done) | (with_reducible refine kept_forEach ?_ ?_) | (intro _ _ hk) | with_reducible apply kept_ite | with_reducible apply kept_modObj | with_reducible apply kept_runCommand | with_reducible apply kept_startRepair | with_reducible exact kept_lit hk .. | dsimp only | split)

theorem kept_destroyHandle {z0 : State} (e : Nat) (inst : Nat) {s : State} (hk : Kept z0 s) : Kept z0 (State.destroyHandle e inst s) := by
  unfold State.destroyHandle
  repeat' (first | with_reducible assumption | (simp (maxDischargeDepth := 100) +contextual only [hk, kept_lit, kept_markN, kept_copy, kept_zeroWrN, kept_ite, ite_self, implies_true, forall_const, kept_dropRef, kept_forEach, kept_modObj, kept_settleEntry]; done) | (with_reducible refine kept_forEach ?_ ?_) | (intro _ _ hk) | with_reducible apply kept_ite | with_reducible apply kept_dropRef | with_reducible apply kept_modObj | with_reducible apply kept_settleEntry | with_reducible exact kept_lit hk .. | dsimp only | split)

theorem kept_execObjDestroy {z0 zt : State} (m : Fin 16) {s : State} (hk : Kept z0 s) (ht : execObjDestroy m s = .next zt) : Kept z0 zt := by
  unfold execObjDestroy at ht
  cases ht
  repeat' (first | with_reducible assumption | (simp (maxDischargeDepth := 100) +contextual only [hk, kept_lit, kept_markN, kept_copy, kept_zeroWrN, kept_ite, ite_self, implies_true, forall_const, kept_destroyHandle, kept_runCommand]; done) | (intro _ _ hk) | with_reducible apply kept_ite | with_reducible apply kept_destroyHandle | with_reducible apply kept_runCommand | with_reducible exact kept_lit hk .. | dsimp only | split)

theorem kept_execObjQuery {z0 zt : State} (m : Fin 16) {s : State} (hk : Kept z0 s) (ht : execObjQuery m s = .next zt) : Kept z0 zt := by
  unfold execObjQuery at ht
  cases ht
  repeat' (first | with_reducible assumption | (simp (maxDischargeDepth := 100) +contextual only [hk, kept_lit, kept_markN, kept_copy, kept_zeroWrN, kept_ite, ite_self, implies_true, forall_const, kept_runCommand]; done) | (intro _ _ hk) | with_reducible apply kept_ite | with_reducible apply kept_runCommand | with_reducible exact kept_lit hk .. | dsimp only | split)

theorem kept_setChan {z0 : State} (h : Nat) (k : Nat) (x : Option Transit) {s : State} (hk : Kept z0 s) : Kept z0 (State.setChan h k x s) := by
  unfold State.setChan
  repeat' (first | with_reducible assumption | (simp (maxDischargeDepth := 100) +contextual only [hk, kept_lit, kept_markN, kept_copy, kept_zeroWrN, kept_ite, ite_self, implies_true, forall_const, kept_modMover]; done) | (intro _ _ hk) | with_reducible apply kept_ite | with_reducible apply kept_modMover | with_reducible exact kept_lit hk .. | dsimp only | split)

theorem kept_execChunkStart {z0 zt : State} (half : Fin 2) (chan : Fin 64) {s : State} (hk : Kept z0 s) (ht : execChunkStart half chan s = .next zt) : Kept z0 zt := by
  unfold execChunkStart at ht
  cases ht
  repeat' (first | with_reducible assumption | (simp (maxDischargeDepth := 100) +contextual only [hk, kept_lit, kept_markN, kept_copy, kept_zeroWrN, kept_ite, ite_self, implies_true, forall_const, kept_place, kept_setChan, kept_settleDrained]; done) | (intro _ _ hk) | with_reducible apply kept_ite | with_reducible apply kept_place | with_reducible apply kept_setChan | with_reducible apply kept_settleDrained | with_reducible exact kept_lit hk .. | dsimp only | split)

theorem kept_reportAdd {z0 : State} (e : Nat) (off : Nat) (n : Nat) (w : Nat) {s : State} (hk : Kept z0 s) : Kept z0 (State.reportAdd e off n w s) := by
  unfold State.reportAdd
  repeat' (first | with_reducible assumption | (simp (maxDischargeDepth := 100) +contextual only [hk, kept_lit, kept_markN, kept_copy, kept_zeroWrN, kept_ite, ite_self, implies_true, forall_const, kept_objWrite]; done) | (intro _ _ hk) | with_reducible apply kept_ite | with_reducible apply kept_objWrite | with_reducible exact kept_lit hk .. | dsimp only | split)

theorem kept_reportGuard {z0 : State} (e : Nat) (g : Guard) {s : State} (hk : Kept z0 s) : Kept z0 (State.reportGuard e g s) := by
  unfold State.reportGuard
  repeat' (first | with_reducible assumption | (simp (maxDischargeDepth := 100) +contextual only [hk, kept_lit, kept_markN, kept_copy, kept_zeroWrN, kept_ite, ite_self, implies_true, forall_const, kept_modObj, kept_objWrite, kept_reportAdd]; done) | (intro _ _ hk) | with_reducible apply kept_ite | with_reducible apply kept_modObj | with_reducible apply kept_objWrite | with_reducible apply kept_reportAdd | with_reducible exact kept_lit hk .. | dsimp only | split)

theorem kept_reportFill {z0 : State} (e : Nat) {s : State} (hk : Kept z0 s) : Kept z0 (State.reportFill e s) := by
  unfold State.reportFill
  repeat' (first | with_reducible assumption | (simp (maxDischargeDepth := 100) +contextual only [hk, kept_lit, kept_markN, kept_copy, kept_zeroWrN, kept_ite, ite_self, implies_true, forall_const, kept_objWrite]; done) | (intro _ _ hk) | with_reducible apply kept_ite | with_reducible apply kept_objWrite | with_reducible exact kept_lit hk .. | dsimp only | split)

theorem kept_reportHeader {z0 : State} (e : Nat) {s : State} (hk : Kept z0 s) : Kept z0 (State.reportHeader e s) := by
  unfold State.reportHeader
  repeat' (first | with_reducible assumption | (simp (maxDischargeDepth := 100) +contextual only [hk, kept_lit, kept_markN, kept_copy, kept_zeroWrN, kept_ite, ite_self, implies_true, forall_const, kept_objWrite]; done) | (intro _ _ hk) | with_reducible apply kept_ite | with_reducible apply kept_objWrite | with_reducible exact kept_lit hk .. | dsimp only | split)

theorem kept_guardMove {z0 : State} (e : Nat) (t : Nat) (mv : Nat) (h : WHeader) (r : Nat) {s : State} (hk : Kept z0 s) : Kept z0 (State.guardMove e t mv h r s) := by
  unfold State.guardMove
  repeat' (first | with_reducible assumption | (simp (maxDischargeDepth := 100) +contextual only [hk, kept_lit, kept_markN, kept_copy, kept_zeroWrN, kept_ite, ite_self, implies_true, forall_const, kept_reportGuard]; done) | (intro _ _ hk) | with_reducible apply kept_ite | with_reducible apply kept_reportGuard | with_reducible exact kept_lit hk .. | dsimp only | split)

theorem kept_checkHeader {z0 : State} (e : Nat) (h : WHeader) {s : State} (hk : Kept z0 s) : Kept z0 (State.checkHeader e h s) := by
  unfold State.checkHeader
  repeat' (first | with_reducible assumption | (simp (maxDischargeDepth := 100) +contextual only [hk, kept_lit, kept_markN, kept_copy, kept_zeroWrN, kept_ite, ite_self, implies_true, forall_const, kept_modObj, kept_reportHeader]; done) | (intro _ _ hk) | with_reducible apply kept_ite | with_reducible apply kept_modObj | with_reducible apply kept_reportHeader | with_reducible exact kept_lit hk .. | dsimp only | split)

theorem kept_guardFill {z0 : State} (e : Nat) (t : Nat) (mv : Nat) {s : State} (hk : Kept z0 s) : Kept z0 (State.guardFill e t mv s) := by
  unfold State.guardFill
  repeat' (first | with_reducible assumption | (simp (maxDischargeDepth := 100) +contextual only [hk, kept_lit, kept_markN, kept_copy, kept_zeroWrN, kept_ite, ite_self, implies_true, forall_const, kept_checkHeader, kept_forEach, kept_guardMove]; done) | (with_reducible refine kept_forEach ?_ ?_) | (intro _ _ hk) | with_reducible apply kept_ite | with_reducible apply kept_checkHeader | with_reducible apply kept_guardMove | with_reducible exact kept_lit hk .. | dsimp only | split)

theorem kept_recordSums {z0 : State} (e : Nat) (c : Copy) {s : State} (hk : Kept z0 s) : Kept z0 (State.recordSums e c s) := by
  unfold State.recordSums
  repeat' (first | with_reducible assumption | (simp (maxDischargeDepth := 100) +contextual only [hk, kept_lit, kept_markN, kept_copy, kept_zeroWrN, kept_ite, ite_self, implies_true, forall_const, kept_modObj]; done) | (intro _ _ hk) | with_reducible apply kept_ite | with_reducible apply kept_modObj | with_reducible exact kept_lit hk .. | dsimp only | split)

theorem kept_endFill {z0 : State} (e : Nat) (t : Nat) {s : State} (hk : Kept z0 s) : Kept z0 (State.endFill e t s) := by
  unfold State.endFill
  repeat' (first | with_reducible assumption | (simp (maxDischargeDepth := 100) +contextual only [hk, kept_lit, kept_markN, kept_copy, kept_zeroWrN, kept_ite, ite_self, implies_true, forall_const, kept_modCopy, kept_recordSums, kept_reportFill, kept_startRepair]; done) | (intro _ _ hk) | with_reducible apply kept_ite | with_reducible apply kept_modCopy | with_reducible apply kept_recordSums | with_reducible apply kept_reportFill | with_reducible apply kept_startRepair | with_reducible exact kept_lit hk .. | dsimp only | split)

theorem kept_placeChunk {z0 : State} (src : Option (Space × Nat)) (dst : Space × Nat) (failed : Bool) (remote : Bytes) {s : State} (hk : Kept z0 s) : Kept z0 (State.placeChunk src dst failed remote s).1 := by
  unfold State.placeChunk
  repeat' (first | with_reducible assumption | (simp (maxDischargeDepth := 100) +contextual only [hk, kept_lit, kept_markN, kept_copy, kept_zeroWrN, kept_ite, ite_self, implies_true, forall_const, kept_dropWrite, kept_logDirty, kept_recallNow]; done) | (intro _ _ hk) | (with_reducible refine kept_zeroWrN ?_ ..) | (with_reducible refine kept_copy ?_ ..) | (with_reducible refine kept_markN ?_ ..) | with_reducible apply kept_ite | with_reducible apply kept_dropWrite | with_reducible apply kept_logDirty | with_reducible apply kept_recallNow | with_reducible exact kept_lit hk .. | dsimp only | split)

theorem kept_poisonSource {z0 : State} (src : Option (Space × Nat)) {s : State} (hk : Kept z0 s) : Kept z0 (State.poisonSource src s) := by
  unfold State.poisonSource
  repeat' (first | with_reducible assumption | (simp (maxDischargeDepth := 100) +contextual only [hk, kept_lit, kept_markN, kept_copy, kept_zeroWrN, kept_ite, ite_self, implies_true, forall_const, kept_poisonChunk]; done) | (intro _ _ hk) | with_reducible apply kept_ite | with_reducible apply kept_poisonChunk | with_reducible exact kept_lit hk .. | dsimp only | split)

theorem kept_fillDone {z0 : State} (half : Nat) (x : Transit) (finding : ReadFinding) (remote : Bytes) {s : State} (hk : Kept z0 s) : Kept z0 (State.fillDone half x finding remote s) := by
  unfold State.fillDone
  repeat' (first | with_reducible assumption | (simp (maxDischargeDepth := 100) +contextual only [hk, kept_lit, kept_markN, kept_copy, kept_zeroWrN, kept_ite, ite_self, implies_true, forall_const, kept_dropCopy, kept_endFill, kept_guardFill, kept_modCopy, kept_modMover, kept_notePoison, kept_placeChunk, kept_poisonSource]; done) | (rename_i hq; have hz := congrArg Prod.snd hq; dsimp only at hz; subst hz; try clear hq) | (have hz := congrArg Prod.snd ‹_ = (_, _)›; dsimp only at hz; subst hz) | (have hz := congrArg Prod.fst ‹_ = (_, _)›; dsimp only at hz; subst hz) | (intro _ _ hk) | with_reducible apply kept_ite | with_reducible apply kept_dropCopy | with_reducible apply kept_endFill | with_reducible apply kept_guardFill | with_reducible apply kept_modCopy | with_reducible apply kept_modMover | with_reducible apply kept_notePoison | with_reducible apply kept_placeChunk | with_reducible apply kept_poisonSource | with_reducible exact kept_lit hk .. | dsimp only | split)

theorem kept_drainDone {z0 : State} (half : Nat) (x : Transit) {s : State} (hk : Kept z0 s) : Kept z0 (State.drainDone half x s) := by
  unfold State.drainDone
  repeat' (first | with_reducible assumption | (simp (maxDischargeDepth := 100) +contextual only [hk, kept_lit, kept_markN, kept_copy, kept_zeroWrN, kept_ite, ite_self, implies_true, forall_const, kept_dropCopy, kept_modCopy, kept_modMover, kept_notePoison, kept_placeChunk]; done) | (rename_i hq; have hz := congrArg Prod.snd hq; dsimp only at hz; subst hz; try clear hq) | (have hz := congrArg Prod.snd ‹_ = (_, _)›; dsimp only at hz; subst hz) | (have hz := congrArg Prod.fst ‹_ = (_, _)›; dsimp only at hz; subst hz) | (intro _ _ hk) | with_reducible apply kept_ite | with_reducible apply kept_dropCopy | with_reducible apply kept_modCopy | with_reducible apply kept_modMover | with_reducible apply kept_notePoison | with_reducible apply kept_placeChunk | with_reducible exact kept_lit hk .. | dsimp only | split)

theorem kept_wake {z0 : State} (e : Nat) (k : Option Nat) (st : Option Status) {s : State} (hk : Kept z0 s) : Kept z0 (State.wake e k st s) := by
  unfold State.wake
  repeat' (first | with_reducible assumption | (simp (maxDischargeDepth := 100) +contextual only [hk, kept_lit, kept_markN, kept_copy, kept_zeroWrN, kept_ite, ite_self, implies_true, forall_const, kept_endWaiter, kept_forEach]; done) | (with_reducible refine kept_forEach ?_ ?_) | (intro _ _ hk) | with_reducible apply kept_ite | with_reducible apply kept_endWaiter | with_reducible exact kept_lit hk .. | dsimp only | split)

theorem kept_repairDone {z0 : State} (half : Nat) (x : Transit) (finding : ReadFinding) (remote : Bytes) {s : State} (hk : Kept z0 s) : Kept z0 (State.repairDone half x finding remote s) := by
  unfold State.repairDone
  repeat' (first | with_reducible assumption | (simp (maxDischargeDepth := 100) +contextual only [hk, kept_lit, kept_markN, kept_copy, kept_zeroWrN, kept_ite, ite_self, implies_true, forall_const, kept_modCopy, kept_modMover, kept_recallNow, kept_wake]; done) | (intro _ _ hk) | (with_reducible refine kept_zeroWrN ?_ ..) | (with_reducible refine kept_copy ?_ ..) | (with_reducible refine kept_markN ?_ ..) | with_reducible apply kept_ite | with_reducible apply kept_modCopy | with_reducible apply kept_modMover | with_reducible apply kept_recallNow | with_reducible apply kept_wake | with_reducible exact kept_lit hk .. | dsimp only | split)

theorem kept_chunkArrives {z0 : State} (half : Nat) (chan : Nat) (finding : ReadFinding) (remote : Bytes) {s : State} (hk : Kept z0 s) : Kept z0 (State.chunkArrives half chan finding remote s) := by
  unfold State.chunkArrives
  repeat' (first | with_reducible assumption | (simp (maxDischargeDepth := 100) +contextual only [hk, kept_lit, kept_markN, kept_copy, kept_zeroWrN, kept_ite, ite_self, implies_true, forall_const, kept_drainDone, kept_fillDone, kept_repairDone, kept_setChan]; done) | (intro _ _ hk) | with_reducible apply kept_ite | with_reducible apply kept_drainDone | with_reducible apply kept_fillDone | with_reducible apply kept_repairDone | with_reducible apply kept_setChan | with_reducible exact kept_lit hk .. | dsimp only | split)

theorem kept_execChunkDone {z0 zt : State} (half : Fin 2) (chan : Fin 64) (finding : ReadFinding) (remote : Bytes) {s : State} (hk : Kept z0 s) (ht : execChunkDone half chan finding remote s = .next zt) : Kept z0 zt := by
  unfold execChunkDone at ht
  cases ht
  repeat' (first | with_reducible assumption | (simp (maxDischargeDepth := 100) +contextual only [hk, kept_lit, kept_markN, kept_copy, kept_zeroWrN, kept_ite, ite_self, implies_true, forall_const, kept_chunkArrives]; done) | (intro _ _ hk) | with_reducible apply kept_ite | with_reducible apply kept_chunkArrives | with_reducible exact kept_lit hk .. | dsimp only | split)

theorem kept_execTierLateExpiry {z0 zt : State} (now : Nat) (half : Fin 2) (chan : Fin 64) {s : State} (hk : Kept z0 s) (ht : execTierLateExpiry now half chan s = .next zt) : Kept z0 zt := by
  unfold execTierLateExpiry at ht
  cases ht
  repeat' (first | with_reducible assumption | (simp (maxDischargeDepth := 100) +contextual only [hk, kept_lit, kept_markN, kept_copy, kept_zeroWrN, kept_ite, ite_self, implies_true, forall_const, kept_at, kept_endTile, kept_forEach, kept_modMover, kept_setChan]; done) | (with_reducible refine kept_forEach ?_ ?_) | (intro _ _ hk) | with_reducible apply kept_ite | with_reducible apply kept_at | with_reducible apply kept_endTile | with_reducible apply kept_modMover | with_reducible apply kept_setChan | with_reducible exact kept_lit hk .. | dsimp only | split)

theorem kept_execRepairWaitExpiry {z0 zt : State} (now : Nat) {s : State} (hk : Kept z0 s) (ht : execRepairWaitExpiry now s = .next zt) : Kept z0 zt := by
  unfold execRepairWaitExpiry at ht
  cases ht
  repeat' (first | with_reducible assumption | (simp (maxDischargeDepth := 100) +contextual only [hk, kept_lit, kept_markN, kept_copy, kept_zeroWrN, kept_ite, ite_self, implies_true, forall_const, kept_at, kept_endWaiter, kept_forEach]; done) | (with_reducible refine kept_forEach ?_ ?_) | (intro _ _ hk) | with_reducible apply kept_ite | with_reducible apply kept_at | with_reducible apply kept_endWaiter | with_reducible exact kept_lit hk .. | dsimp only | split)

theorem kept_retireChunk {z0 : State} (k a : Nat) {s : State} (hk : Kept z0 s) : Kept z0 (s.retireChunk k a) := by
  have h1 : Kept z0 (({ s with tiers := { s.tiers with retired := tput s.tiers.retired (a / chunkSize * chunkSize) () } } : State).modStackCtl k
      (fun c => { c with chunksRetired := satInc 32 c.chunksRetired, event := c.event ||| 4 })) := by
    apply kept_modStackCtl
    exact kept_lit hk ..
  simp only [State.retireChunk]
  split
  · exact kept_modCopy _ _ _ (kept_copy h1 ..)
  · exact h1

theorem kept_rowHit {z0 : State} (k : Nat) (a : Nat) {s : State} (hk : Kept z0 s) : Kept z0 (State.rowHit k a s) := by
  unfold State.rowHit
  repeat' (first | with_reducible assumption | (simp (maxDischargeDepth := 100) +contextual only [hk, kept_lit, kept_markN, kept_copy, kept_zeroWrN, kept_ite, ite_self, implies_true, forall_const, kept_evidence, kept_forEach, kept_ledger, kept_modStackCtl, kept_retireChunk]; done) | (with_reducible refine kept_forEach ?_ ?_) | (intro _ _ hk) | with_reducible apply kept_ite | with_reducible apply kept_evidence | with_reducible apply kept_ledger | with_reducible apply kept_modStackCtl | with_reducible apply kept_retireChunk | with_reducible exact kept_lit hk .. | dsimp only | split)

theorem kept_scrubBad {z0 : State} (sp : Space) (a : Nat) {s : State} (hk : Kept z0 s) : Kept z0 (State.scrubBad sp a s) := by
  unfold State.scrubBad
  repeat' (first | with_reducible assumption | (simp (maxDischargeDepth := 100) +contextual only [hk, kept_lit, kept_markN, kept_copy, kept_zeroWrN, kept_ite, ite_self, implies_true, forall_const, kept_evidence, kept_poisonChunk]; done) | (intro _ _ hk) | (with_reducible refine kept_zeroWrN ?_ ..) | (with_reducible refine kept_copy ?_ ..) | (with_reducible refine kept_markN ?_ ..) | with_reducible apply kept_ite | with_reducible apply kept_evidence | with_reducible apply kept_poisonChunk | with_reducible exact kept_lit hk .. | dsimp only | split)

theorem kept_scrubSum {z0 : State} (sp : Space) (a : Nat) {s : State} (hk : Kept z0 s) : Kept z0 (State.scrubSum sp a s) := by
  unfold State.scrubSum
  repeat' (first | with_reducible assumption | (simp (maxDischargeDepth := 100) +contextual only [hk, kept_lit, kept_markN, kept_copy, kept_zeroWrN, kept_ite, ite_self, implies_true, forall_const, kept_modMover, kept_poisonChunk]; done) | (intro _ _ hk) | with_reducible apply kept_ite | with_reducible apply kept_modMover | with_reducible apply kept_poisonChunk | with_reducible exact kept_lit hk .. | dsimp only | split)

theorem kept_execScrubStep {z0 zt : State} (u : UnitId) (address : Nat) (finding : ScrubFinding) (lastOfPass : Bool) {s : State} (hk : Kept z0 s) (ht : execScrubStep u address finding lastOfPass s = .next zt) : Kept z0 zt := by
  unfold execScrubStep at ht
  cases ht
  repeat' (first | with_reducible assumption | (simp (maxDischargeDepth := 100) +contextual only [hk, kept_lit, kept_markN, kept_copy, kept_zeroWrN, kept_ite, ite_self, implies_true, forall_const, kept_hbm2Ev, kept_modMover, kept_modStackCtl, kept_rowHit, kept_scrubBad, kept_scrubSum, kept_sramCorrectedEv]; done) | (intro _ _ hk) | with_reducible apply kept_ite | with_reducible apply kept_hbm2Ev | with_reducible apply kept_modMover | with_reducible apply kept_modStackCtl | with_reducible apply kept_rowHit | with_reducible apply kept_scrubBad | with_reducible apply kept_scrubSum | with_reducible apply kept_sramCorrectedEv | with_reducible exact kept_lit hk .. | dsimp only | split)

end Sys2Proof.Machine
end

