-- ==== Sys2Proof/Laws/KeptDmaOps.lean ====
section
/-! SUPPORT. The operations of Sys2Proof/Machine/DmaOps.lean keep what every step keeps. -/

namespace Sys2Proof.Machine

set_option linter.all false
set_option Elab.async false

theorem kept_bindDma {z0 : State} {s : State} (hk : Kept z0 s) : Kept z0 (State.bindDma s) := by
  unfold State.bindDma
  repeat' (first | with_reducible assumption | (simp (maxDischargeDepth := 100) +contextual only [hk, kept_lit, kept_markN, kept_copy, kept_zeroWrN, kept_ite, ite_self, implies_true, forall_const, kept_forEach, kept_modDma]; done) | (with_reducible refine kept_forEach ?_ ?_) | (intro _ _ hk) | with_reducible apply kept_ite | with_reducible apply kept_modDma | with_reducible exact kept_lit hk .. | dsimp only | split)

theorem kept_modChan {z0 : State} (e : Nat) (c : Nat) (f : DmaChan → DmaChan) {s : State} (hk : Kept z0 s) : Kept z0 (State.modChan e c f s) := by
  unfold State.modChan
  repeat' (first | with_reducible assumption | (simp (maxDischargeDepth := 100) +contextual only [hk, kept_lit, kept_markN, kept_copy, kept_zeroWrN, kept_ite, ite_self, implies_true, forall_const, kept_modDma]; done) | (intro _ _ hk) | with_reducible apply kept_ite | with_reducible apply kept_modDma | with_reducible exact kept_lit hk .. | dsimp only | split)

theorem kept_dmaNotify {z0 : State} (e : Nat) (c : Nat) (k : Nat) (d : Bytes) {s : State} (hk : Kept z0 s) : Kept z0 (State.dmaNotify e c k d s) := by
  unfold State.dmaNotify
  repeat' (first | with_reducible assumption | (simp (maxDischargeDepth := 100) +contextual only [hk, kept_lit, kept_markN, kept_copy, kept_zeroWrN, kept_ite, ite_self, implies_true, forall_const, kept_raiseIrq, kept_wr]; done) | (intro _ _ hk) | with_reducible apply kept_ite | with_reducible apply kept_raiseIrq | with_reducible apply kept_wr | with_reducible exact kept_lit hk .. | dsimp only | split)

theorem kept_dmaDone {z0 : State} (e : Nat) (c : Nat) (st : Status) (bytes : Nat) {s : State} (hk : Kept z0 s) : Kept z0 (State.dmaDone e c st bytes s) := by
  unfold State.dmaDone
  repeat' (first | with_reducible assumption | (simp (maxDischargeDepth := 100) +contextual only [hk, kept_lit, kept_markN, kept_copy, kept_zeroWrN, kept_ite, ite_self, implies_true, forall_const, kept_dmaNotify, kept_modChan, kept_modDma, kept_wr]; done) | (intro _ _ hk) | with_reducible apply kept_ite | with_reducible apply kept_dmaNotify | with_reducible apply kept_modChan | with_reducible apply kept_modDma | with_reducible apply kept_wr | with_reducible exact kept_lit hk .. | dsimp only | split)

theorem kept_dmaFlush {z0 : State} (e : Nat) (c : Nat) (st : Status) (x0 : Nat) {s : State} (hk : Kept z0 s) : Kept z0 (State.dmaFlush e c st x0 s) := by
  induction x0 generalizing s with
  | zero =>
    first | exact hk | (simp only [State.dmaFlush]; repeat' (first | with_reducible assumption | with_reducible apply ih | (simp (maxDischargeDepth := 100) +contextual only [hk, kept_lit, kept_markN, kept_copy, kept_zeroWrN, kept_ite, ite_self, implies_true, forall_const, kept_dmaDone, kept_modDma]; done) | (intro _ _ hk) | with_reducible apply kept_ite | with_reducible apply kept_dmaDone | with_reducible apply kept_modDma | with_reducible exact kept_lit hk .. | dsimp only | split))
  | succ n ih =>
    simp only [State.dmaFlush]
    repeat' (first | with_reducible assumption | with_reducible apply ih | (simp (maxDischargeDepth := 100) +contextual only [hk, kept_lit, kept_markN, kept_copy, kept_zeroWrN, kept_ite, ite_self, implies_true, forall_const, kept_dmaDone, kept_modDma]; done) | (intro _ _ hk) | with_reducible apply kept_ite | with_reducible apply kept_dmaDone | with_reducible apply kept_modDma | with_reducible exact kept_lit hk .. | dsimp only | split)

theorem kept_dmaLose {z0 : State} (f : Nat) (slot : Nat) {s : State} (hk : Kept z0 s) : Kept z0 (State.dmaLose f slot s) := by
  unfold State.dmaLose
  repeat' (first | with_reducible assumption | (simp (maxDischargeDepth := 100) +contextual only [hk, kept_lit, kept_markN, kept_copy, kept_zeroWrN, kept_ite, ite_self, implies_true, forall_const, kept_dmaFlush, kept_jobLost, kept_modChan]; done) | (intro _ _ hk) | with_reducible apply kept_ite | with_reducible apply kept_dmaFlush | with_reducible apply kept_jobLost | with_reducible apply kept_modChan | with_reducible exact kept_lit hk .. | dsimp only | split)

end Sys2Proof.Machine
end

