-- ==== Sys2Proof/Laws/KeptMailboxes.lean ====
section
/-! SUPPORT. The operations of Sys2Proof/Machine/Mailboxes.lean keep what every step keeps. -/

namespace Sys2Proof.Machine

set_option linter.all false
set_option Elab.async false

theorem kept_foreignWrite {z0 : State} (m : Nat) {s : State} (hk : Kept z0 s) : Kept z0 (State.foreignWrite m s) := by
  unfold State.foreignWrite
  repeat' (first | with_reducible assumption | (simp (maxDischargeDepth := 100) +contextual only [hk, kept_lit, kept_markN, kept_copy, kept_zeroWrN, kept_ite, ite_self, implies_true, forall_const, kept_modMbox]; done) | (intro _ _ hk) | with_reducible apply kept_ite | with_reducible apply kept_modMbox | with_reducible exact kept_lit hk .. | dsimp only | split)

theorem kept_execMbxEnableWrite {z0 zt : State} (m : Fin 16) (mapping : W32) (enable : Bool) {s : State} (hk : Kept z0 s) (ht : execMbxEnableWrite m mapping enable s = .next zt) : Kept z0 zt := by
  unfold execMbxEnableWrite at ht
  cases ht
  repeat' (first | with_reducible assumption | (simp (maxDischargeDepth := 100) +contextual only [hk, kept_lit, kept_markN, kept_copy, kept_zeroWrN, kept_ite, ite_self, implies_true, forall_const, kept_foreignWrite, kept_modMbox]; done) | (intro _ _ hk) | with_reducible apply kept_ite | with_reducible apply kept_foreignWrite | with_reducible apply kept_modMbox | with_reducible exact kept_lit hk .. | dsimp only | split)

theorem kept_execMbxTailWrite {z0 zt : State} (m : Fin 16) (mapping : W32) (tail : W16) {s : State} (hk : Kept z0 s) (ht : execMbxTailWrite m mapping tail s = .next zt) : Kept z0 zt := by
  unfold execMbxTailWrite at ht
  cases ht
  repeat' (first | with_reducible assumption | (simp (maxDischargeDepth := 100) +contextual only [hk, kept_lit, kept_markN, kept_copy, kept_zeroWrN, kept_ite, ite_self, implies_true, forall_const, kept_foreignWrite, kept_modMbox]; done) | (intro _ _ hk) | with_reducible apply kept_ite | with_reducible apply kept_foreignWrite | with_reducible apply kept_modMbox | with_reducible exact kept_lit hk .. | dsimp only | split)

theorem kept_noteTurn {z0 : State} (second : Bool) (m : Nat) {s : State} (hk : Kept z0 s) : Kept z0 (State.noteTurn second m s) := by
  unfold State.noteTurn
  repeat' (first | with_reducible assumption | (simp (maxDischargeDepth := 100) +contextual only [hk, kept_lit, kept_markN, kept_copy, kept_zeroWrN, kept_ite, ite_self, implies_true, forall_const]; done) | (intro _ _ hk) | with_reducible apply kept_ite | with_reducible exact kept_lit hk .. | dsimp only | split)

theorem kept_judge {z0 : State} (m : Nat) (c : Cmd) (argsOk : Bool) {s : State} (hk : Kept z0 s) : Kept z0 (State.judge m c argsOk s) := by
  unfold State.judge
  repeat' (first | with_reducible assumption | (simp (maxDischargeDepth := 100) +contextual only [hk, kept_lit, kept_markN, kept_copy, kept_zeroWrN, kept_ite, ite_self, implies_true, forall_const, kept_countSpoof, kept_modMbox, kept_respond, kept_writeResponse]; done) | (intro _ _ hk) | with_reducible apply kept_ite | with_reducible apply kept_countSpoof | with_reducible apply kept_modMbox | with_reducible apply kept_respond | with_reducible apply kept_writeResponse | with_reducible exact kept_lit hk .. | dsimp only | split)

theorem kept_takeUp {z0 : State} (m : Nat) (slotOk : Bool) (argsOk : Bool) {s : State} (hk : Kept z0 s) : Kept z0 (State.takeUp m slotOk argsOk s) := by
  unfold State.takeUp
  repeat' (first | with_reducible assumption | (simp (maxDischargeDepth := 100) +contextual only [hk, kept_lit, kept_markN, kept_copy, kept_zeroWrN, kept_ite, ite_self, implies_true, forall_const, kept_judge, kept_modMbox]; done) | (intro _ _ hk) | with_reducible apply kept_ite | with_reducible apply kept_judge | with_reducible apply kept_modMbox | with_reducible exact kept_lit hk .. | dsimp only | split)

theorem kept_execCommandTakeUp {z0 zt : State} (second : Bool) (slotOk : Bool) (argsOk : Bool) {s : State} (hk : Kept z0 s) (ht : execCommandTakeUp second slotOk argsOk s = .next zt) : Kept z0 zt := by
  unfold execCommandTakeUp at ht
  cases ht
  repeat' (first | with_reducible assumption | (simp (maxDischargeDepth := 100) +contextual only [hk, kept_lit, kept_markN, kept_copy, kept_zeroWrN, kept_ite, ite_self, implies_true, forall_const, kept_noteTurn, kept_takeUp]; done) | (intro _ _ hk) | with_reducible apply kept_ite | with_reducible apply kept_noteTurn | with_reducible apply kept_takeUp | with_reducible exact kept_lit hk .. | dsimp only | split)

theorem kept_execMbxVersion {z0 zt : State} (m : Fin 16) {s : State} (hk : Kept z0 s) (ht : execMbxVersion m s = .next zt) : Kept z0 zt := by
  unfold execMbxVersion at ht
  cases ht
  repeat' (first | with_reducible assumption | (simp (maxDischargeDepth := 100) +contextual only [hk, kept_lit, kept_markN, kept_copy, kept_zeroWrN, kept_ite, ite_self, implies_true, forall_const, kept_modMbox, kept_runCommand]; done) | (intro _ _ hk) | with_reducible apply kept_ite | with_reducible apply kept_modMbox | with_reducible apply kept_runCommand | with_reducible exact kept_lit hk .. | dsimp only | split)

theorem kept_execMbxAssign {z0 zt : State} (m : Fin 16) {s : State} (hk : Kept z0 s) (ht : execMbxAssign m s = .next zt) : Kept z0 zt := by
  unfold execMbxAssign at ht
  cases ht
  repeat' (first | with_reducible assumption | (simp (maxDischargeDepth := 100) +contextual only [hk, kept_lit, kept_markN, kept_copy, kept_zeroWrN, kept_ite, ite_self, implies_true, forall_const, kept_cancelLong, kept_modMbox, kept_runCommand]; done) | (intro _ _ hk) | with_reducible apply kept_ite | with_reducible apply kept_cancelLong | with_reducible apply kept_modMbox | with_reducible apply kept_runCommand | with_reducible exact kept_lit hk .. | dsimp only | split)

theorem kept_execDevQuery {z0 zt : State} (m : Fin 16) {s : State} (hk : Kept z0 s) (ht : execDevQuery m s = .next zt) : Kept z0 zt := by
  unfold execDevQuery at ht
  cases ht
  repeat' (first | with_reducible assumption | (simp (maxDischargeDepth := 100) +contextual only [hk, kept_lit, kept_markN, kept_copy, kept_zeroWrN, kept_ite, ite_self, implies_true, forall_const, kept_runCommand]; done) | (intro _ _ hk) | with_reducible apply kept_ite | with_reducible apply kept_runCommand | with_reducible exact kept_lit hk .. | dsimp only | split)

theorem kept_execEvrConfigure {z0 zt : State} (m : Fin 16) {s : State} (hk : Kept z0 s) (ht : execEvrConfigure m s = .next zt) : Kept z0 zt := by
  unfold execEvrConfigure at ht
  cases ht
  repeat' (first | with_reducible assumption | (simp (maxDischargeDepth := 100) +contextual only [hk, kept_lit, kept_markN, kept_copy, kept_zeroWrN, kept_ite, ite_self, implies_true, forall_const, kept_forEach, kept_modRing, kept_runCommand]; done) | (with_reducible refine kept_forEach ?_ ?_) | (intro _ _ hk) | with_reducible apply kept_ite | with_reducible apply kept_modRing | with_reducible apply kept_runCommand | with_reducible exact kept_lit hk .. | dsimp only | split)

theorem kept_evrHead {z0 : State} (ring : Nat) (mapping : W32) (head : W32) {s : State} (hk : Kept z0 s) : Kept z0 (State.evrHead ring mapping head s) := by
  unfold State.evrHead
  repeat' (first | with_reducible assumption | (simp (maxDischargeDepth := 100) +contextual only [hk, kept_lit, kept_markN, kept_copy, kept_zeroWrN, kept_ite, ite_self, implies_true, forall_const, kept_flushRing, kept_modRing]; done) | (intro _ _ hk) | with_reducible apply kept_ite | with_reducible apply kept_flushRing | with_reducible apply kept_modRing | with_reducible exact kept_lit hk .. | dsimp only | split)

theorem kept_execEvrHeadWrite {z0 zt : State} (ring : Fin 4096) (mapping : W32) (head : W32) {s : State} (hk : Kept z0 s) (ht : execEvrHeadWrite ring mapping head s = .next zt) : Kept z0 zt := by
  unfold execEvrHeadWrite at ht
  cases ht
  repeat' (first | with_reducible assumption | (simp (maxDischargeDepth := 100) +contextual only [hk, kept_lit, kept_markN, kept_copy, kept_zeroWrN, kept_ite, ite_self, implies_true, forall_const, kept_evrHead]; done) | (intro _ _ hk) | with_reducible apply kept_ite | with_reducible apply kept_evrHead | with_reducible exact kept_lit hk .. | dsimp only | split)

theorem kept_evrArm {z0 : State} (ring : Nat) (mapping : W32) (arm : Bool) {s : State} (hk : Kept z0 s) : Kept z0 (State.evrArm ring mapping arm s) := by
  unfold State.evrArm
  repeat' (first | with_reducible assumption | (simp (maxDischargeDepth := 100) +contextual only [hk, kept_lit, kept_markN, kept_copy, kept_zeroWrN, kept_ite, ite_self, implies_true, forall_const, kept_emit, kept_modRing]; done) | (intro _ _ hk) | with_reducible apply kept_ite | with_reducible apply kept_emit | with_reducible apply kept_modRing | with_reducible exact kept_lit hk .. | dsimp only | split)

theorem kept_execEvrArmWrite {z0 zt : State} (ring : Fin 4096) (mapping : W32) (arm : Bool) {s : State} (hk : Kept z0 s) (ht : execEvrArmWrite ring mapping arm s = .next zt) : Kept z0 zt := by
  unfold execEvrArmWrite at ht
  cases ht
  repeat' (first | with_reducible assumption | (simp (maxDischargeDepth := 100) +contextual only [hk, kept_lit, kept_markN, kept_copy, kept_zeroWrN, kept_ite, ite_self, implies_true, forall_const, kept_evrArm]; done) | (intro _ _ hk) | with_reducible apply kept_ite | with_reducible apply kept_evrArm | with_reducible exact kept_lit hk .. | dsimp only | split)

theorem kept_haltCore {z0 : State} (core : Nat) (ecc : Bool) {s : State} (hk : Kept z0 s) : Kept z0 (State.haltCore core ecc s) := by
  unfold State.haltCore
  repeat' (first | with_reducible assumption | (simp (maxDischargeDepth := 100) +contextual only [hk, kept_lit, kept_markN, kept_copy, kept_zeroWrN, kept_ite, ite_self, implies_true, forall_const, kept_modCore]; done) | (intro _ _ hk) | with_reducible apply kept_ite | with_reducible apply kept_modCore | with_reducible exact kept_lit hk .. | dsimp only | split)

theorem kept_execWatchdogExpiry {z0 zt : State} (core : Fin 8) {s : State} (hk : Kept z0 s) (ht : execWatchdogExpiry core s = .next zt) : Kept z0 zt := by
  unfold execWatchdogExpiry at ht
  cases ht
  repeat' (first | with_reducible assumption | (simp (maxDischargeDepth := 100) +contextual only [hk, kept_lit, kept_markN, kept_copy, kept_zeroWrN, kept_ite, ite_self, implies_true, forall_const, kept_haltCore]; done) | (intro _ _ hk) | with_reducible apply kept_ite | with_reducible apply kept_haltCore | with_reducible exact kept_lit hk .. | dsimp only | split)

theorem kept_execCoreEccHalt {z0 zt : State} (core : Fin 8) {s : State} (hk : Kept z0 s) (ht : execCoreEccHalt core s = .next zt) : Kept z0 zt := by
  unfold execCoreEccHalt at ht
  cases ht
  repeat' (first | with_reducible assumption | (simp (maxDischargeDepth := 100) +contextual only [hk, kept_lit, kept_markN, kept_copy, kept_zeroWrN, kept_ite, ite_self, implies_true, forall_const, kept_haltCore]; done) | (intro _ _ hk) | with_reducible apply kept_ite | with_reducible apply kept_haltCore | with_reducible exact kept_lit hk .. | dsimp only | split)

theorem kept_answerHalted {z0 : State} (m : Nat) {s : State} (hk : Kept z0 s) : Kept z0 (State.answerHalted m s) := by
  unfold State.answerHalted
  repeat' (first | with_reducible assumption | (simp (maxDischargeDepth := 100) +contextual only [hk, kept_lit, kept_markN, kept_copy, kept_zeroWrN, kept_ite, ite_self, implies_true, forall_const, kept_respond]; done) | (intro _ _ hk) | with_reducible apply kept_ite | with_reducible apply kept_respond | with_reducible exact kept_lit hk .. | dsimp only | split)

theorem kept_execCoreRestartDone {z0 zt : State} (core : Fin 8) {s : State} (hk : Kept z0 s) (ht : execCoreRestartDone core s = .next zt) : Kept z0 zt := by
  unfold execCoreRestartDone at ht
  cases ht
  repeat' (first | with_reducible assumption | (simp (maxDischargeDepth := 100) +contextual only [hk, kept_lit, kept_markN, kept_copy, kept_zeroWrN, kept_ite, ite_self, implies_true, forall_const, kept_answerHalted, kept_evidence, kept_forEach, kept_ledger, kept_modCore]; done) | (with_reducible refine kept_forEach ?_ ?_) | (intro _ _ hk) | with_reducible apply kept_ite | with_reducible apply kept_answerHalted | with_reducible apply kept_evidence | with_reducible apply kept_ledger | with_reducible apply kept_modCore | with_reducible exact kept_lit hk .. | dsimp only | split)

theorem kept_execHeartbeatTick {z0 zt : State} (now : Nat) {s : State} (hk : Kept z0 s) (ht : execHeartbeatTick now s = .next zt) : Kept z0 zt := by
  unfold execHeartbeatTick at ht
  cases ht
  repeat' (first | with_reducible assumption | (simp (maxDischargeDepth := 100) +contextual only [hk, kept_lit, kept_markN, kept_copy, kept_zeroWrN, kept_ite, ite_self, implies_true, forall_const, kept_at, kept_emit, kept_raise]; done) | (intro _ _ hk) | with_reducible apply kept_ite | with_reducible apply kept_at | with_reducible apply kept_emit | with_reducible apply kept_raise | with_reducible exact kept_lit hk .. | dsimp only | split)

theorem kept_execIslandClockChange {z0 zt : State} (kind : IslandKind) (idx : Nat) (midHandshake : Bool) {s : State} (hk : Kept z0 s) (ht : execIslandClockChange kind idx midHandshake s = .next zt) : Kept z0 zt := by
  unfold execIslandClockChange at ht
  cases ht
  repeat' (first | with_reducible assumption | (simp (maxDischargeDepth := 100) +contextual only [hk, kept_lit, kept_markN, kept_copy, kept_zeroWrN, kept_ite, ite_self, implies_true, forall_const]; done) | (intro _ _ hk) | with_reducible apply kept_ite | with_reducible exact kept_lit hk .. | dsimp only | split)

end Sys2Proof.Machine
end

