-- ==== Sys2Proof/Laws/KeptFoldOps.lean ====
section
/-! SUPPORT. The operations of Sys2Proof/Machine/FoldOps.lean keep what every step keeps. -/

namespace Sys2Proof.Machine

set_option linter.all false
set_option Elab.async false

theorem kept_accRecords {z0 : State} (accs : List (Nat × Acc)) (mode lo n : Nat) {s : State} (hk : Kept z0 s) :
    Kept z0 (State.accRecords accs mode lo n s).2 := by
  induction n generalizing lo s with
  | zero => exact hk
  | succ n ih =>
    simp only [State.accRecords]
    refine ih _ ?_
    split
    · exact kept_takeFree 12 (kept_takeFree 64 hk)
    · exact hk

theorem kept_digests {z0 : State} (f : Nat) (n : Nat) {s : State} (hk : Kept z0 s) : Kept z0 (State.digests f n s) := by
  unfold State.digests
  repeat' (first | with_reducible assumption | (simp (maxDischargeDepth := 100) +contextual only [hk, kept_lit, kept_markN, kept_copy, kept_zeroWrN, kept_ite, ite_self, implies_true, forall_const, kept_modFold]; done) | (intro _ _ hk) | with_reducible apply kept_ite | with_reducible apply kept_modFold | with_reducible exact kept_lit hk .. | dsimp only | split)

theorem kept_sampleTile {z0 : State} (f : Nat) (t : Tile) {s : State} (hk : Kept z0 s) : Kept z0 (State.sampleTile f t s) := by
  unfold State.sampleTile
  repeat' (first | with_reducible assumption | (simp (maxDischargeDepth := 100) +contextual only [hk, kept_lit, kept_markN, kept_copy, kept_zeroWrN, kept_ite, ite_self, implies_true, forall_const, kept_objWrite, kept_reportAdd]; done) | (intro _ _ hk) | with_reducible apply kept_ite | with_reducible apply kept_objWrite | with_reducible apply kept_reportAdd | with_reducible exact kept_lit hk .. | dsimp only | split)

theorem kept_countTask {z0 : State} (r : CmpRec) {s : State} (hk : Kept z0 s) : Kept z0 (State.countTask r s) := by
  unfold State.countTask
  repeat' (first | with_reducible assumption | (simp (maxDischargeDepth := 100) +contextual only [hk, kept_lit, kept_markN, kept_copy, kept_zeroWrN, kept_ite, ite_self, implies_true, forall_const, kept_jobLost, kept_modHealth]; done) | (intro _ _ hk) | with_reducible apply kept_ite | with_reducible apply kept_jobLost | with_reducible apply kept_modHealth | with_reducible exact kept_lit hk .. | dsimp only | split)

theorem kept_putCmp {z0 : State} (f : Nat) (r : CmpRec) {s : State} (hk : Kept z0 s) : Kept z0 (State.putCmp f r s) := by
  unfold State.putCmp
  repeat' (first | with_reducible assumption | (simp (maxDischargeDepth := 100) +contextual only [hk, kept_lit, kept_markN, kept_copy, kept_zeroWrN, kept_ite, ite_self, implies_true, forall_const, kept_countTask, kept_modFold]; done) | (intro _ _ hk) | with_reducible apply kept_ite | with_reducible apply kept_countTask | with_reducible apply kept_modFold | with_reducible exact kept_lit hk .. | dsimp only | split)

theorem kept_weightDigest {z0 : State} (h : Nat) {s : State} (hk : Kept z0 s) : Kept z0 (State.weightDigest h s).2 := by
  unfold State.weightDigest
  repeat' (first | with_reducible assumption | (simp (maxDischargeDepth := 100) +contextual only [hk, kept_lit, kept_markN, kept_copy, kept_zeroWrN, kept_ite, ite_self, implies_true, forall_const, kept_freeBytes]; done) | (rename_i hq; have hz := congrArg Prod.snd hq; dsimp only at hz; subst hz; try clear hq) | (have hz := congrArg Prod.snd ‹_ = (_, _)›; dsimp only at hz; subst hz) | (intro _ _ hk) | with_reducible apply kept_ite | with_reducible apply kept_freeBytes | with_reducible exact kept_lit hk .. | dsimp only | split)

theorem kept_tileItems {z0 : State} (t : Task) (x0 : List (TileEntry × List PassEntry)) (x1 : Nat) {s : State} (hk : Kept z0 s) : Kept z0 (State.tileItems t x0 x1 s).2 := by
  induction x0 generalizing x1 s with
  | nil =>
    first | exact hk | (simp only [State.tileItems]; repeat' (first | with_reducible assumption | with_reducible apply ih | (simp (maxDischargeDepth := 100) +contextual only [hk, kept_lit, kept_markN, kept_copy, kept_zeroWrN, kept_ite, ite_self, implies_true, forall_const, kept_weightDigest]; done) | (rename_i hq; have hz := congrArg Prod.snd hq; dsimp only at hz; subst hz; try clear hq) | (rename_i hq; have hz := congrArg Prod.snd hq; dsimp only at hz; subst hz; try clear hq) | (have hz := congrArg Prod.snd ‹_ = (_, _)›; dsimp only at hz; subst hz) | (intro _ _ hk) | with_reducible apply kept_ite | with_reducible apply kept_weightDigest | with_reducible exact kept_lit hk .. | dsimp only | split))
  | cons x r ih =>
    simp only [State.tileItems]
    repeat' (first | with_reducible assumption | with_reducible apply ih | (simp (maxDischargeDepth := 100) +contextual only [hk, kept_lit, kept_markN, kept_copy, kept_zeroWrN, kept_ite, ite_self, implies_true, forall_const, kept_weightDigest]; done) | (rename_i hq; have hz := congrArg Prod.snd hq; dsimp only at hz; subst hz; try clear hq) | (rename_i hq; have hz := congrArg Prod.snd hq; dsimp only at hz; subst hz; try clear hq) | (have hz := congrArg Prod.snd ‹_ = (_, _)›; dsimp only at hz; subst hz) | (intro _ _ hk) | with_reducible apply kept_ite | with_reducible apply kept_weightDigest | with_reducible exact kept_lit hk .. | dsimp only | split)

theorem kept_provDigest {z0 : State} (t : Task) {s : State} (hk : Kept z0 s) : Kept z0 (State.provDigest t s).2 := by
  unfold State.provDigest
  repeat' (first | with_reducible assumption | (simp (maxDischargeDepth := 100) +contextual only [hk, kept_lit, kept_markN, kept_copy, kept_zeroWrN, kept_ite, ite_self, implies_true, forall_const, kept_tileItems]; done) | (rename_i hq; have hz := congrArg Prod.snd hq; dsimp only at hz; subst hz; try clear hq) | (have hz := congrArg Prod.snd ‹_ = (_, _)›; dsimp only at hz; subst hz) | (intro _ _ hk) | with_reducible apply kept_ite | with_reducible apply kept_tileItems | with_reducible exact kept_lit hk .. | dsimp only | split)

theorem kept_modTask {z0 : State} (n : Nat) (f : Task → Task) {s : State} (hk : Kept z0 s) : Kept z0 (State.modTask n f s) := by
  unfold State.modTask
  repeat' (first | with_reducible assumption | (simp (maxDischargeDepth := 100) +contextual only [hk, kept_lit, kept_markN, kept_copy, kept_zeroWrN, kept_ite, ite_self, implies_true, forall_const, kept_setTask]; done) | (intro _ _ hk) | with_reducible apply kept_ite | with_reducible apply kept_setTask | with_reducible exact kept_lit hk .. | dsimp only | split)

theorem kept_taskEnded {z0 : State} (n : Nat) {s : State} (hk : Kept z0 s) : Kept z0 (State.taskEnded n s) := by
  unfold State.taskEnded
  repeat' (first | with_reducible assumption | (simp (maxDischargeDepth := 100) +contextual only [hk, kept_lit, kept_markN, kept_copy, kept_zeroWrN, kept_ite, ite_self, implies_true, forall_const, kept_modDisp, kept_setTask]; done) | (intro _ _ hk) | with_reducible apply kept_ite | with_reducible apply kept_modDisp | with_reducible apply kept_setTask | with_reducible exact kept_lit hk .. | dsimp only | split)

theorem kept_flushRecords {z0 : State} (n : Nat) {s : State} (hk : Kept z0 s) : Kept z0 (State.flushRecords n s) := by
  unfold State.flushRecords
  repeat' (first | with_reducible assumption | (simp (maxDischargeDepth := 100) +contextual only [hk, kept_lit, kept_markN, kept_copy, kept_zeroWrN, kept_ite, ite_self, implies_true, forall_const, kept_forEach, kept_provDigest, kept_putCmp]; done) | (rename_i hq; have hz := congrArg Prod.snd hq; dsimp only at hz; subst hz; try clear hq) | (have hz := congrArg Prod.snd ‹_ = (_, _)›; dsimp only at hz; subst hz) | (with_reducible refine kept_forEach ?_ ?_) | (intro _ _ hk) | with_reducible apply kept_ite | with_reducible apply kept_provDigest | with_reducible apply kept_putCmp | with_reducible exact kept_lit hk .. | dsimp only | split)

theorem kept_endRank {z0 : State} (f : Nat) (slot : Nat) (tile : Nat) {s : State} (hk : Kept z0 s) : Kept z0 (State.endRank f slot tile s) := by
  unfold State.endRank
  repeat' (first | with_reducible assumption | (simp (maxDischargeDepth := 100) +contextual only [hk, kept_lit, kept_markN, kept_copy, kept_zeroWrN, kept_ite, ite_self, implies_true, forall_const, kept_flushRecords, kept_modFold, kept_modTask, kept_putCmp, kept_taskEnded]; done) | (intro _ _ hk) | with_reducible apply kept_ite | with_reducible apply kept_flushRecords | with_reducible apply kept_modFold | with_reducible apply kept_modTask | with_reducible apply kept_putCmp | with_reducible apply kept_taskEnded | with_reducible exact kept_lit hk .. | dsimp only | split)

theorem kept_settleRank {z0 : State} (f : Nat) (slot : Nat) {s : State} (hk : Kept z0 s) : Kept z0 (State.settleRank f slot s) := by
  unfold State.settleRank
  repeat' (first | with_reducible assumption | (simp (maxDischargeDepth := 100) +contextual only [hk, kept_lit, kept_markN, kept_copy, kept_zeroWrN, kept_ite, ite_self, implies_true, forall_const, kept_endRank]; done) | (intro _ _ hk) | with_reducible apply kept_ite | with_reducible apply kept_endRank | with_reducible exact kept_lit hk .. | dsimp only | split)

theorem kept_noteTile {z0 : State} (n : Nat) (tile : Nat) (rank : Nat) (st : Status) (bytes : List (Nat × Bytes)) {s : State} (hk : Kept z0 s) : Kept z0 (State.noteTile n tile rank st bytes s) := by
  unfold State.noteTile
  repeat' (first | with_reducible assumption | (simp (maxDischargeDepth := 100) +contextual only [hk, kept_lit, kept_markN, kept_copy, kept_zeroWrN, kept_ite, ite_self, implies_true, forall_const, kept_modTask]; done) | (intro _ _ hk) | with_reducible apply kept_ite | with_reducible apply kept_modTask | with_reducible exact kept_lit hk .. | dsimp only | split)

theorem kept_tileOver {z0 : State} (f : Nat) (slot : Nat) (index : Nat) (st : Status) (flags : Nat) (reserved : Bool) (bytes : List (Nat × Bytes)) {s : State} (hk : Kept z0 s) : Kept z0 (State.tileOver f slot index st flags reserved bytes s) := by
  unfold State.tileOver
  repeat' (first | with_reducible assumption | (simp (maxDischargeDepth := 100) +contextual only [hk, kept_lit, kept_markN, kept_copy, kept_zeroWrN, kept_ite, ite_self, implies_true, forall_const, kept_modFold, kept_modTask, kept_noteTile, kept_putCmp]; done) | (intro _ _ hk) | with_reducible apply kept_ite | with_reducible apply kept_modFold | with_reducible apply kept_modTask | with_reducible apply kept_noteTile | with_reducible apply kept_putCmp | with_reducible exact kept_lit hk .. | dsimp only | split)

theorem kept_releaseReducers {z0 : State} (n : Nat) {s : State} (hk : Kept z0 s) : Kept z0 (State.releaseReducers n s) := by
  unfold State.releaseReducers
  repeat' (first | with_reducible assumption | (simp (maxDischargeDepth := 100) +contextual only [hk, kept_lit, kept_markN, kept_copy, kept_zeroWrN, kept_ite, ite_self, implies_true, forall_const, kept_forEach, kept_modFold, kept_settleRank, kept_tileOver]; done) | (with_reducible refine kept_forEach ?_ ?_) | (intro _ _ hk) | with_reducible apply kept_ite | with_reducible apply kept_modFold | with_reducible apply kept_settleRank | with_reducible apply kept_tileOver | with_reducible exact kept_lit hk .. | dsimp only | split)

theorem kept_finishTile {z0 : State} (f : Nat) (slot : Nat) (index : Nat) (st : Status) (flags : Nat) (reserved : Bool) (bytes : List (Nat × Bytes)) {s : State} (hk : Kept z0 s) : Kept z0 (State.finishTile f slot index st flags reserved bytes s) := by
  unfold State.finishTile
  repeat' (first | with_reducible assumption | (simp (maxDischargeDepth := 100) +contextual only [hk, kept_lit, kept_markN, kept_copy, kept_zeroWrN, kept_ite, ite_self, implies_true, forall_const, kept_releaseReducers, kept_settleRank, kept_tileOver]; done) | (intro _ _ hk) | with_reducible apply kept_ite | with_reducible apply kept_releaseReducers | with_reducible apply kept_settleRank | with_reducible apply kept_tileOver | with_reducible exact kept_lit hk .. | dsimp only | split)

theorem kept_foldSnapshot {z0 : State} (f : Nat) (shape : Nat) (fmt : Nat) (cls : Nat) {s : State} (hk : Kept z0 s) : Kept z0 (State.foldSnapshot f shape fmt cls s).2.2 := by
  unfold State.foldSnapshot
  repeat' (first | with_reducible assumption | (simp (maxDischargeDepth := 100) +contextual only [hk, kept_lit, kept_markN, kept_copy, kept_zeroWrN, kept_ite, ite_self, implies_true, forall_const, kept_takeFree]; done) | (rename_i hq; have hz := congrArg Prod.snd hq; dsimp only at hz; subst hz; try clear hq) | (have hz := congrArg Prod.snd ‹_ = (_, _)›; dsimp only at hz; subst hz) | (intro _ _ hk) | (refine kept_act _  ?_ (by assumption)) | with_reducible apply kept_ite | with_reducible apply kept_takeFree | with_reducible exact kept_lit hk .. | dsimp only | split)

theorem kept_setFences {z0 : State} (u : UnitId) (l : List FenceMode) {s : State} (hk : Kept z0 s) :
    Kept z0 (s.setFences u l) :=
  kept_flash hk ⟨⟨[], rfl⟩, fun _ => Nat.le_refl _, fun _ h => h⟩

theorem kept_placeCond {z0 : State} (f : Nat) (bin : Nat) {s : State} (hk : Kept z0 s) : Kept z0 (State.placeCond f bin s) := by
  unfold State.placeCond
  repeat' (first | with_reducible assumption | (simp (maxDischargeDepth := 100) +contextual only [hk, kept_lit, kept_markN, kept_copy, kept_zeroWrN, kept_ite, ite_self, implies_true, forall_const, kept_ledger, kept_setFences]; done) | (intro _ _ hk) | with_reducible apply kept_ite | with_reducible apply kept_ledger | with_reducible apply kept_setFences | with_reducible exact kept_lit hk .. | dsimp only | split)

theorem kept_condCheck {z0 : State} (f : Nat) {s : State} (hk : Kept z0 s) : Kept z0 (State.condCheck f s) := by
  unfold State.condCheck
  repeat' (first | with_reducible assumption | (simp (maxDischargeDepth := 100) +contextual only [hk, kept_lit, kept_markN, kept_copy, kept_zeroWrN, kept_ite, ite_self, implies_true, forall_const, kept_placeCond]; done) | (intro _ _ hk) | with_reducible apply kept_ite | with_reducible apply kept_placeCond | with_reducible exact kept_lit hk .. | dsimp only | split)

theorem kept_mismatch {z0 : State} (f : Nat) (side : Nat) (group : Nat) {s : State} (hk : Kept z0 s) : Kept z0 (State.mismatch f side group s) := by
  unfold State.mismatch
  repeat' (first | with_reducible assumption | (simp (maxDischargeDepth := 100) +contextual only [hk, kept_lit, kept_markN, kept_copy, kept_zeroWrN, kept_ite, ite_self, implies_true, forall_const, kept_condCheck, kept_foldSnapshot, kept_ledgerWith, kept_modFold]; done) | (rename_i hq; have hz := congrArg Prod.snd (congrArg Prod.snd hq); dsimp only at hz; subst hz; try clear hq) | (rename_i hq; have hz := congrArg Prod.snd hq; dsimp only at hz; subst hz; try clear hq) | (have hz := congrArg Prod.snd ‹_ = (_, _)›; dsimp only at hz; subst hz) | (have hz := congrArg Prod.snd (congrArg Prod.snd ‹_ = (_, _, _)›); dsimp only at hz; subst hz) | (intro _ _ hk) | with_reducible apply kept_ite | with_reducible apply kept_condCheck | with_reducible apply kept_foldSnapshot | with_reducible apply kept_ledgerWith | with_reducible apply kept_modFold | with_reducible exact kept_lit hk .. | dsimp only | split)

theorem kept_cancelAt {z0 : State} (m : Nat) (seq : Nat) (op : Nat) {s : State} (hk : Kept z0 s) : Kept z0 (State.cancelAt m seq op s) := by
  unfold State.cancelAt
  repeat' (first | with_reducible assumption | (simp (maxDischargeDepth := 100) +contextual only [hk, kept_lit, kept_markN, kept_copy, kept_zeroWrN, kept_ite, ite_self, implies_true, forall_const, kept_commandDone]; done) | (intro _ _ hk) | with_reducible apply kept_ite | with_reducible apply kept_commandDone | with_reducible exact kept_lit hk .. | dsimp only | split)

theorem kept_cancelAssume {z0 : State} {s : State} (hk : Kept z0 s) : Kept z0 (State.cancelAssume s) := by
  unfold State.cancelAssume
  repeat' (first | with_reducible assumption | (simp (maxDischargeDepth := 100) +contextual only [hk, kept_lit, kept_markN, kept_copy, kept_zeroWrN, kept_ite, ite_self, implies_true, forall_const, kept_cancelAt, kept_dropAssumed, kept_forEach, kept_modHealth]; done) | (with_reducible refine kept_forEach ?_ ?_) | (intro _ _ hk) | with_reducible apply kept_ite | with_reducible apply kept_cancelAt | with_reducible apply kept_dropAssumed | with_reducible apply kept_modHealth | with_reducible exact kept_lit hk .. | dsimp only | split)

theorem kept_cancelRemoval {z0 : State} {s : State} (hk : Kept z0 s) : Kept z0 (State.cancelRemoval s) := by
  unfold State.cancelRemoval
  repeat' (first | with_reducible assumption | (simp (maxDischargeDepth := 100) +contextual only [hk, kept_lit, kept_markN, kept_copy, kept_zeroWrN, kept_ite, ite_self, implies_true, forall_const, kept_cancelAt, kept_modPower]; done) | (intro _ _ hk) | with_reducible apply kept_ite | with_reducible apply kept_cancelAt | with_reducible apply kept_modPower | with_reducible exact kept_lit hk .. | dsimp only | split)

theorem kept_cancelNight {z0 : State} {s : State} (hk : Kept z0 s) : Kept z0 (State.cancelNight s) := by
  unfold State.cancelNight
  repeat' (first | with_reducible assumption | (simp (maxDischargeDepth := 100) +contextual only [hk, kept_lit, kept_markN, kept_copy, kept_zeroWrN, kept_ite, ite_self, implies_true, forall_const, kept_cancelAt, kept_forEach, kept_modPower]; done) | (with_reducible refine kept_forEach ?_ ?_) | (intro _ _ hk) | with_reducible apply kept_ite | with_reducible apply kept_cancelAt | with_reducible apply kept_modPower | with_reducible exact kept_lit hk .. | dsimp only | split)

theorem kept_enterFenced {z0 : State} {s : State} (hk : Kept z0 s) : Kept z0 (State.enterFenced s) := by
  unfold State.enterFenced
  repeat' (first | with_reducible assumption | (simp (maxDischargeDepth := 100) +contextual only [hk, kept_lit, kept_markN, kept_copy, kept_zeroWrN, kept_ite, ite_self, implies_true, forall_const, kept_cancelAssume, kept_cancelNight, kept_cancelRemoval, kept_setDevice]; done) | (intro _ _ hk) | with_reducible apply kept_ite | with_reducible apply kept_cancelAssume | with_reducible apply kept_cancelNight | with_reducible apply kept_cancelRemoval | with_reducible apply kept_setDevice | with_reducible exact kept_lit hk .. | dsimp only | split)

end Sys2Proof.Machine
end

