-- ==== Sys2Proof/Laws/KeptArray.lean ====
section
/-! SUPPORT. The operations of Sys2Proof/Machine/Array.lean keep what every step keeps. -/

namespace Sys2Proof.Machine

set_option linter.all false
set_option Elab.async false

theorem kept_tileHeader {z0 : State} (t : TileEntry) (f : Nat) {s : State} (hk : Kept z0 s) : Kept z0 (State.tileHeader t f s).2.2 := by
  unfold State.tileHeader
  repeat' (first | with_reducible assumption | (simp (maxDischargeDepth := 100) +contextual only [hk, kept_lit, kept_markN, kept_copy, kept_zeroWrN, kept_ite, ite_self, implies_true, forall_const, kept_fetch]; done) | (rename_i hq; have hz := congrArg Prod.snd hq; dsimp only at hz; subst hz; try clear hq) | (have hz := congrArg Prod.snd ‹_ = (_, _)›; dsimp only at hz; subst hz) | (intro _ _ hk) | with_reducible apply kept_ite | with_reducible apply kept_fetch | with_reducible exact kept_lit hk .. | dsimp only | split)

theorem kept_refuseTile {z0 : State} (f : Nat) (slot : Nat) (index : Nat) (st : Status) {s : State} (hk : Kept z0 s) : Kept z0 (State.refuseTile f slot index st s) := by
  unfold State.refuseTile
  repeat' (first | with_reducible assumption | (simp (maxDischargeDepth := 100) +contextual only [hk, kept_lit, kept_markN, kept_copy, kept_zeroWrN, kept_ite, ite_self, implies_true, forall_const, kept_finishTile, kept_modFold]; done) | (intro _ _ hk) | with_reducible apply kept_ite | with_reducible apply kept_finishTile | with_reducible apply kept_modFold | with_reducible exact kept_lit hk .. | dsimp only | split)

theorem kept_startTile {z0 : State} (f : Nat) (slot : Nat) (index : Nat) (d : TaskDesc) (t : TileEntry) (ps : List PassEntry) {s : State} (hk : Kept z0 s) : Kept z0 (State.startTile f slot index d t ps s) := by
  unfold State.startTile
  repeat' (first | with_reducible assumption | (simp (maxDischargeDepth := 100) +contextual only [hk, kept_lit, kept_markN, kept_copy, kept_zeroWrN, kept_ite, ite_self, implies_true, forall_const, kept_modFold, kept_record, kept_refuseTile, kept_tileHeader]; done) | (rename_i hq; have hz := congrArg Prod.snd (congrArg Prod.snd hq); dsimp only at hz; subst hz; try clear hq) | (rename_i hq; have hz := congrArg Prod.snd hq; dsimp only at hz; subst hz; try clear hq) | (have hz := congrArg Prod.snd ‹_ = (_, _)›; dsimp only at hz; subst hz) | (have hz := congrArg Prod.snd (congrArg Prod.snd ‹_ = (_, _, _)›); dsimp only at hz; subst hz) | (intro _ _ hk) | with_reducible apply kept_ite | with_reducible apply kept_modFold | with_reducible apply kept_record | with_reducible apply kept_refuseTile | with_reducible apply kept_tileHeader | with_reducible exact kept_lit hk .. | dsimp only | split)

theorem kept_loadTiles {z0 : State} (n : Nat) (t : Task) {s : State} (hk : Kept z0 s) : Kept z0 (State.loadTiles n t s) := by
  unfold State.loadTiles
  repeat' (first | with_reducible assumption | (simp (maxDischargeDepth := 100) +contextual only [hk, kept_lit, kept_markN, kept_copy, kept_zeroWrN, kept_ite, ite_self, implies_true, forall_const, kept_modTask, kept_readTiles]; done) | (rename_i hq; have hz := congrArg Prod.snd (congrArg Prod.snd hq); dsimp only at hz; subst hz; try clear hq) | (rename_i hq; have hz := congrArg Prod.snd hq; dsimp only at hz; subst hz; try clear hq) | (have hz := congrArg Prod.snd ‹_ = (_, _)›; dsimp only at hz; subst hz) | (have hz := congrArg Prod.snd (congrArg Prod.snd ‹_ = (_, _, _)›); dsimp only at hz; subst hz) | (intro _ _ hk) | with_reducible apply kept_ite | with_reducible apply kept_modTask | with_reducible apply kept_readTiles | with_reducible exact kept_lit hk .. | dsimp only | split)

theorem kept_execTileStart {z0 zt : State} (fold : Fin 32) (slot : Fin 8) {s : State} (hk : Kept z0 s) (ht : execTileStart fold slot s = .next zt) : Kept z0 zt := by
  unfold execTileStart at ht
  cases ht
  repeat' (first | with_reducible assumption | (simp (maxDischargeDepth := 100) +contextual only [hk, kept_lit, kept_markN, kept_copy, kept_zeroWrN, kept_ite, ite_self, implies_true, forall_const, kept_loadTiles, kept_settleRank, kept_startTile]; done) | (intro _ _ hk) | with_reducible apply kept_ite | with_reducible apply kept_loadTiles | with_reducible apply kept_settleRank | with_reducible apply kept_startTile | with_reducible exact kept_lit hk .. | dsimp only | split)

theorem kept_execRampStep {z0 zt : State} (fold : Fin 32) {s : State} (hk : Kept z0 s) (ht : execRampStep fold s = .next zt) : Kept z0 zt := by
  unfold execRampStep at ht
  cases ht
  repeat' (first | with_reducible assumption | (simp (maxDischargeDepth := 100) +contextual only [hk, kept_lit, kept_markN, kept_copy, kept_zeroWrN, kept_ite, ite_self, implies_true, forall_const, kept_modFold]; done) | (intro _ _ hk) | with_reducible apply kept_ite | with_reducible apply kept_modFold | with_reducible exact kept_lit hk .. | dsimp only | split)

theorem kept_execArrayIdleTimeout {z0 zt : State} (fold : Fin 32) {s : State} (hk : Kept z0 s) (ht : execArrayIdleTimeout fold s = .next zt) : Kept z0 zt := by
  unfold execArrayIdleTimeout at ht
  cases ht
  repeat' (first | with_reducible assumption | (simp (maxDischargeDepth := 100) +contextual only [hk, kept_lit, kept_markN, kept_copy, kept_zeroWrN, kept_ite, ite_self, implies_true, forall_const, kept_modFold]; done) | (intro _ _ hk) | with_reducible apply kept_ite | with_reducible apply kept_modFold | with_reducible exact kept_lit hk .. | dsimp only | split)

theorem kept_execPlaneLoadDone {z0 zt : State} (fold : Fin 32) {s : State} (hk : Kept z0 s) (ht : execPlaneLoadDone fold s = .next zt) : Kept z0 zt := by
  unfold execPlaneLoadDone at ht
  cases ht
  repeat' (first | with_reducible assumption | (simp (maxDischargeDepth := 100) +contextual only [hk, kept_lit, kept_markN, kept_copy, kept_zeroWrN, kept_ite, ite_self, implies_true, forall_const, kept_complete, kept_digests, kept_modFold, kept_modTask]; done) | (intro _ _ hk) | with_reducible apply kept_ite | with_reducible apply kept_complete | with_reducible apply kept_digests | with_reducible apply kept_modFold | with_reducible apply kept_modTask | with_reducible exact kept_lit hk .. | dsimp only | split)

theorem kept_retireRows {z0 : State} (f : Nat) (i : InFlight) {s : State} (hk : Kept z0 s) : Kept z0 (State.retireRows f i s) := by
  unfold State.retireRows
  repeat' (first | with_reducible assumption | (simp (maxDischargeDepth := 100) +contextual only [hk, kept_lit, kept_markN, kept_copy, kept_zeroWrN, kept_ite, ite_self, implies_true, forall_const, kept_forEach, kept_gather, kept_mismatch, kept_modFold]; done) | (with_reducible refine kept_forEach ?_ ?_) | (intro _ _ hk) | with_reducible apply kept_ite | with_reducible apply kept_gather | with_reducible apply kept_mismatch | with_reducible apply kept_modFold | with_reducible exact kept_lit hk .. | dsimp only | split)

theorem kept_retireCheck {z0 : State} (f : Nat) (i : InFlight) {s : State} (hk : Kept z0 s) : Kept z0 (State.retireCheck f i s) := by
  unfold State.retireCheck
  repeat' (first | with_reducible assumption | (simp (maxDischargeDepth := 100) +contextual only [hk, kept_lit, kept_markN, kept_copy, kept_zeroWrN, kept_ite, ite_self, implies_true, forall_const, kept_forEach, kept_mismatch, kept_modFold]; done) | (with_reducible refine kept_forEach ?_ ?_) | (intro _ _ hk) | with_reducible apply kept_ite | with_reducible apply kept_mismatch | with_reducible apply kept_modFold | with_reducible exact kept_lit hk .. | dsimp only | split)

theorem kept_retire {z0 : State} (f : Nat) (i : InFlight) {s : State} (hk : Kept z0 s) : Kept z0 (State.retire f i s) := by
  unfold State.retire
  repeat' (first | with_reducible assumption | (simp (maxDischargeDepth := 100) +contextual only [hk, kept_lit, kept_markN, kept_copy, kept_zeroWrN, kept_ite, ite_self, implies_true, forall_const, kept_modFold, kept_retireCheck, kept_retireRows]; done) | (intro _ _ hk) | with_reducible apply kept_ite | with_reducible apply kept_modFold | with_reducible apply kept_retireCheck | with_reducible apply kept_retireRows | with_reducible exact kept_lit hk .. | dsimp only | split)

theorem kept_retireDue {z0 : State} (f : Nat) {s : State} (hk : Kept z0 s) : Kept z0 (State.retireDue f s) := by
  unfold State.retireDue
  repeat' (first | with_reducible assumption | (simp (maxDischargeDepth := 100) +contextual only [hk, kept_lit, kept_markN, kept_copy, kept_zeroWrN, kept_ite, ite_self, implies_true, forall_const, kept_forEach, kept_modFold, kept_retire]; done) | (with_reducible refine kept_forEach ?_ ?_) | (intro _ _ hk) | with_reducible apply kept_ite | with_reducible apply kept_modFold | with_reducible apply kept_retire | with_reducible exact kept_lit hk .. | dsimp only | split)

theorem kept_readRows {z0 : State} (f : Nat) (t : Tile) (p : PassEntry) (errors : List (Nat × Nat × Int)) (x0 : List Nat) {s : State} (hk : Kept z0 s) : Kept z0 (State.readRows f t p errors x0 s).2.2 := by
  induction x0 generalizing s with
  | nil =>
    first | exact hk | (simp only [State.readRows]; repeat' (first | with_reducible assumption | with_reducible apply ih | (simp (maxDischargeDepth := 100) +contextual only [hk, kept_lit, kept_markN, kept_copy, kept_zeroWrN, kept_ite, ite_self, implies_true, forall_const, kept_weightRowAt]; done) | (rename_i hq; have hz := congrArg Prod.snd (congrArg Prod.snd hq); dsimp only at hz; subst hz; try clear hq) | (rename_i hq; have hz := congrArg Prod.snd hq; dsimp only at hz; subst hz; try clear hq) | (rename_i hq; have hz := congrArg Prod.snd (congrArg Prod.snd hq); dsimp only at hz; subst hz; try clear hq) | (rename_i hq; have hz := congrArg Prod.snd hq; dsimp only at hz; subst hz; try clear hq) | (have hz := congrArg Prod.snd ‹_ = (_, _)›; dsimp only at hz; subst hz) | (have hz := congrArg Prod.snd (congrArg Prod.snd ‹_ = (_, _, _)›); dsimp only at hz; subst hz) | (intro _ _ hk) | with_reducible apply kept_ite | with_reducible apply kept_weightRowAt | with_reducible exact kept_lit hk .. | dsimp only | split))
  | cons x r ih =>
    simp only [State.readRows]
    repeat' (first | with_reducible assumption | with_reducible apply ih | (simp (maxDischargeDepth := 100) +contextual only [hk, kept_lit, kept_markN, kept_copy, kept_zeroWrN, kept_ite, ite_self, implies_true, forall_const, kept_weightRowAt]; done) | (rename_i hq; have hz := congrArg Prod.snd (congrArg Prod.snd hq); dsimp only at hz; subst hz; try clear hq) | (rename_i hq; have hz := congrArg Prod.snd hq; dsimp only at hz; subst hz; try clear hq) | (rename_i hq; have hz := congrArg Prod.snd (congrArg Prod.snd hq); dsimp only at hz; subst hz; try clear hq) | (rename_i hq; have hz := congrArg Prod.snd hq; dsimp only at hz; subst hz; try clear hq) | (have hz := congrArg Prod.snd ‹_ = (_, _)›; dsimp only at hz; subst hz) | (have hz := congrArg Prod.snd (congrArg Prod.snd ‹_ = (_, _, _)›); dsimp only at hz; subst hz) | (intro _ _ hk) | with_reducible apply kept_ite | with_reducible apply kept_weightRowAt | with_reducible exact kept_lit hk .. | dsimp only | split)

theorem kept_noteWait {z0 : State} (f : Nat) (k : Nat) (t : Tile) {s : State} (hk : Kept z0 s) : Kept z0 (State.noteWait f k t s) := by
  unfold State.noteWait
  repeat' (first | with_reducible assumption | (simp (maxDischargeDepth := 100) +contextual only [hk, kept_lit, kept_markN, kept_copy, kept_zeroWrN, kept_ite, ite_self, implies_true, forall_const, kept_modFold, kept_modTiers]; done) | (intro _ _ hk) | with_reducible apply kept_ite | with_reducible apply kept_modFold | with_reducible apply kept_modTiers | with_reducible exact kept_lit hk .. | dsimp only | split)

theorem kept_issue {z0 : State} (f : Nat) (buffered : Bool) (errors : List (Nat × Nat × Int)) (t : Tile) {s : State} (hk : Kept z0 s) : Kept z0 (State.issue f buffered errors t s) := by
  unfold State.issue
  repeat' (first | with_reducible assumption | (simp (maxDischargeDepth := 100) +contextual only [hk, kept_lit, kept_markN, kept_copy, kept_zeroWrN, kept_ite, ite_self, implies_true, forall_const, kept_complete, kept_endTile, kept_idleCycle, kept_modFold, kept_noteWait, kept_readRows]; done) | (rename_i hq; have hz := congrArg Prod.snd (congrArg Prod.snd hq); dsimp only at hz; subst hz; try clear hq) | (rename_i hq; have hz := congrArg Prod.snd hq; dsimp only at hz; subst hz; try clear hq) | (have hz := congrArg Prod.snd ‹_ = (_, _)›; dsimp only at hz; subst hz) | (have hz := congrArg Prod.snd (congrArg Prod.snd ‹_ = (_, _, _)›); dsimp only at hz; subst hz) | (intro _ _ hk) | with_reducible apply kept_ite | with_reducible apply kept_complete | with_reducible apply kept_endTile | with_reducible apply kept_idleCycle | with_reducible apply kept_modFold | with_reducible apply kept_noteWait | with_reducible apply kept_readRows | with_reducible exact kept_lit hk .. | dsimp only | split)

theorem kept_countIssue {z0 : State} (f : Nat) (before : Nat) {s : State} (hk : Kept z0 s) : Kept z0 (State.countIssue f before s) := by
  unfold State.countIssue
  repeat' (first | with_reducible assumption | (simp (maxDischargeDepth := 100) +contextual only [hk, kept_lit, kept_markN, kept_copy, kept_zeroWrN, kept_ite, ite_self, implies_true, forall_const, kept_modHealth]; done) | (intro _ _ hk) | with_reducible apply kept_ite | with_reducible apply kept_modHealth | with_reducible exact kept_lit hk .. | dsimp only | split)

theorem kept_digestCycle {z0 : State} (f : Nat) {s : State} (hk : Kept z0 s) : Kept z0 (State.digestCycle f s) := by
  unfold State.digestCycle
  repeat' (first | with_reducible assumption | (simp (maxDischargeDepth := 100) +contextual only [hk, kept_lit, kept_markN, kept_copy, kept_zeroWrN, kept_ite, ite_self, implies_true, forall_const, kept_modFold, kept_modProv]; done) | (intro _ _ hk) | with_reducible apply kept_ite | with_reducible apply kept_modFold | with_reducible apply kept_modProv | with_reducible exact kept_lit hk .. | dsimp only | split)

theorem kept_execIssueCycle {z0 zt : State} (fold : Fin 32) (buffered : Bool) (errors : List (Nat × Nat × Int)) {s : State} (hk : Kept z0 s) (ht : execIssueCycle fold buffered errors s = .next zt) : Kept z0 zt := by
  unfold execIssueCycle at ht
  cases ht
  repeat' (first | with_reducible assumption | (simp (maxDischargeDepth := 100) +contextual only [hk, kept_lit, kept_markN, kept_copy, kept_zeroWrN, kept_ite, ite_self, implies_true, forall_const, kept_advance, kept_countIssue, kept_digestCycle, kept_idleCycle, kept_issue, kept_modFold, kept_retireDue]; done) | (intro _ _ hk) | with_reducible apply kept_ite | with_reducible apply kept_advance | with_reducible apply kept_countIssue | with_reducible apply kept_digestCycle | with_reducible apply kept_idleCycle | with_reducible apply kept_issue | with_reducible apply kept_modFold | with_reducible apply kept_retireDue | with_reducible exact kept_lit hk .. | dsimp only | split)

theorem kept_abandonTile {z0 : State} (f : Nat) {s : State} (hk : Kept z0 s) : Kept z0 (State.abandonTile f s) := by
  unfold State.abandonTile
  repeat' (first | with_reducible assumption | (simp (maxDischargeDepth := 100) +contextual only [hk, kept_lit, kept_markN, kept_copy, kept_zeroWrN, kept_ite, ite_self, implies_true, forall_const, kept_modFold, kept_modHealth]; done) | (intro _ _ hk) | with_reducible apply kept_ite | with_reducible apply kept_modFold | with_reducible apply kept_modHealth | with_reducible exact kept_lit hk .. | dsimp only | split)

end Sys2Proof.Machine
end

