-- ==== Sys2Proof/Laws/KeptAccum.lean ====
section
/-! SUPPORT. The operations of Sys2Proof/Machine/Accum.lean keep what every step keeps. -/

namespace Sys2Proof.Machine

set_option linter.all false
set_option Elab.async false

theorem kept_closeTile {z0 : State} (f : Nat) (slot : Nat) (index : Nat) {s : State} (hk : Kept z0 s) : Kept z0 (State.closeTile f slot index s) := by
  unfold State.closeTile
  repeat' (first | with_reducible assumption | (simp (maxDischargeDepth := 100) +contextual only [hk, kept_lit, kept_markN, kept_copy, kept_zeroWrN, kept_ite, ite_self, implies_true, forall_const, kept_finishTile, kept_modFold]; done) | (intro _ _ hk) | with_reducible apply kept_ite | with_reducible apply kept_finishTile | with_reducible apply kept_modFold | with_reducible exact kept_lit hk .. | dsimp only | split)

theorem kept_startEnd {z0 : State} (f : Nat) (slot : Nat) (index : Nat) {s : State} (hk : Kept z0 s) : Kept z0 (State.startEnd f slot index s) := by
  unfold State.startEnd
  repeat' (first | with_reducible assumption | (simp (maxDischargeDepth := 100) +contextual only [hk, kept_lit, kept_markN, kept_copy, kept_zeroWrN, kept_ite, ite_self, implies_true, forall_const, kept_closeTile, kept_modFold]; done) | (intro _ _ hk) | with_reducible apply kept_ite | with_reducible apply kept_closeTile | with_reducible apply kept_modFold | with_reducible exact kept_lit hk .. | dsimp only | split)

theorem kept_takeFlags {z0 : State} (f : Nat) (slot : Nat) (index : Nat) {s : State} (hk : Kept z0 s) : Kept z0 (State.takeFlags f slot index s) := by
  unfold State.takeFlags
  repeat' (first | with_reducible assumption | (simp (maxDischargeDepth := 100) +contextual only [hk, kept_lit, kept_markN, kept_copy, kept_zeroWrN, kept_ite, ite_self, implies_true, forall_const, kept_modFold]; done) | (intro _ _ hk) | with_reducible apply kept_ite | with_reducible apply kept_modFold | with_reducible exact kept_lit hk .. | dsimp only | split)

theorem kept_takeRank {z0 : State} (t : Task) (e : TileEntry) (r : Nat) (r' : Nat) {s : State} (hk : Kept z0 s) : Kept z0 (State.takeRank t e r r' s) := by
  unfold State.takeRank
  repeat' (first | with_reducible assumption | (simp (maxDischargeDepth := 100) +contextual only [hk, kept_lit, kept_markN, kept_copy, kept_zeroWrN, kept_ite, ite_self, implies_true, forall_const, kept_forEach, kept_modFold]; done) | (with_reducible refine kept_forEach ?_ ?_) | (intro _ _ hk) | with_reducible apply kept_ite | with_reducible apply kept_modFold | with_reducible exact kept_lit hk .. | dsimp only | split)

theorem kept_reduceLevels {z0 : State} (t : Task) (e : TileEntry) (x0 : Nat) (x1 : Nat) {s : State} (hk : Kept z0 s) : Kept z0 (State.reduceLevels t e x0 x1 s) := by
  induction x0 generalizing x1 s with
  | zero =>
    first | exact hk | (simp only [State.reduceLevels]; repeat' (first | with_reducible assumption | with_reducible apply ih | (simp (maxDischargeDepth := 100) +contextual only [hk, kept_lit, kept_markN, kept_copy, kept_zeroWrN, kept_ite, ite_self, implies_true, forall_const, kept_forEach, kept_takeRank]; done) | (with_reducible refine kept_forEach ?_ ?_) | (intro _ _ hk) | with_reducible apply kept_ite | with_reducible apply kept_takeRank | with_reducible exact kept_lit hk .. | dsimp only | split))
  | succ n ih =>
    simp only [State.reduceLevels]
    repeat' (first | with_reducible assumption | with_reducible apply ih | (simp (maxDischargeDepth := 100) +contextual only [hk, kept_lit, kept_markN, kept_copy, kept_zeroWrN, kept_ite, ite_self, implies_true, forall_const, kept_forEach, kept_takeRank]; done) | (with_reducible refine kept_forEach ?_ ?_) | (intro _ _ hk) | with_reducible apply kept_ite | with_reducible apply kept_takeRank | with_reducible exact kept_lit hk .. | dsimp only | split)

theorem kept_leaveReduction {z0 : State} (t : Task) (index : Nat) (r : Nat) {s : State} (hk : Kept z0 s) : Kept z0 (State.leaveReduction t index r s) := by
  unfold State.leaveReduction
  repeat' (first | with_reducible assumption | (simp (maxDischargeDepth := 100) +contextual only [hk, kept_lit, kept_markN, kept_copy, kept_zeroWrN, kept_ite, ite_self, implies_true, forall_const, kept_closeTile, kept_modFold]; done) | (intro _ _ hk) | with_reducible apply kept_ite | with_reducible apply kept_closeTile | with_reducible apply kept_modFold | with_reducible exact kept_lit hk .. | dsimp only | split)

theorem kept_tryReduce {z0 : State} (n : Nat) (index : Nat) {s : State} (hk : Kept z0 s) : Kept z0 (State.tryReduce n index s) := by
  unfold State.tryReduce
  repeat' (first | with_reducible assumption | (simp (maxDischargeDepth := 100) +contextual only [hk, kept_lit, kept_markN, kept_copy, kept_zeroWrN, kept_ite, ite_self, implies_true, forall_const, kept_forEach, kept_leaveReduction, kept_reduceLevels, kept_startEnd, kept_takeFlags]; done) | (with_reducible refine kept_forEach ?_ ?_) | (intro _ _ hk) | with_reducible apply kept_ite | with_reducible apply kept_leaveReduction | with_reducible apply kept_reduceLevels | with_reducible apply kept_startEnd | with_reducible apply kept_takeFlags | with_reducible exact kept_lit hk .. | dsimp only | split)

theorem kept_afterMerge {z0 : State} (f : Nat) (slot : Nat) (index : Nat) {s : State} (hk : Kept z0 s) : Kept z0 (State.afterMerge f slot index s) := by
  unfold State.afterMerge
  repeat' (first | with_reducible assumption | (simp (maxDischargeDepth := 100) +contextual only [hk, kept_lit, kept_markN, kept_copy, kept_zeroWrN, kept_ite, ite_self, implies_true, forall_const, kept_modFold, kept_releaseReducers, kept_startEnd, kept_takeFlags, kept_tryReduce]; done) | (intro _ _ hk) | with_reducible apply kept_ite | with_reducible apply kept_modFold | with_reducible apply kept_releaseReducers | with_reducible apply kept_startEnd | with_reducible apply kept_takeFlags | with_reducible apply kept_tryReduce | with_reducible exact kept_lit hk .. | dsimp only | split)

theorem kept_endWithout {z0 : State} (f : Nat) (t : Tile) (st : Status) {s : State} (hk : Kept z0 s) : Kept z0 (State.endWithout f t st s) := by
  unfold State.endWithout
  repeat' (first | with_reducible assumption | (simp (maxDischargeDepth := 100) +contextual only [hk, kept_lit, kept_markN, kept_copy, kept_zeroWrN, kept_ite, ite_self, implies_true, forall_const, kept_finishTile, kept_modFold]; done) | (intro _ _ hk) | with_reducible apply kept_ite | with_reducible apply kept_finishTile | with_reducible apply kept_modFold | with_reducible exact kept_lit hk .. | dsimp only | split)

theorem kept_leaveTile {z0 : State} (f : Nat) (t : Tile) {s : State} (hk : Kept z0 s) : Kept z0 (State.leaveTile f t s) := by
  unfold State.leaveTile
  repeat' (first | with_reducible assumption | (simp (maxDischargeDepth := 100) +contextual only [hk, kept_lit, kept_markN, kept_copy, kept_zeroWrN, kept_ite, ite_self, implies_true, forall_const, kept_afterMerge, kept_evidence, kept_modFold, kept_modHealth, kept_sampleTile]; done) | (intro _ _ hk) | with_reducible apply kept_ite | with_reducible apply kept_afterMerge | with_reducible apply kept_evidence | with_reducible apply kept_modFold | with_reducible apply kept_modHealth | with_reducible apply kept_sampleTile | with_reducible exact kept_lit hk .. | dsimp only | split)

theorem kept_writeOut {z0 : State} (e : Nat) (off : Nat) (w : Nat) (bs : Bytes) (poisoned : List Nat) {s : State} (hk : Kept z0 s) : Kept z0 (State.writeOut e off w bs poisoned s) := by
  unfold State.writeOut
  repeat' (first | with_reducible assumption | (simp (maxDischargeDepth := 100) +contextual only [hk, kept_lit, kept_markN, kept_copy, kept_zeroWrN, kept_ite, ite_self, implies_true, forall_const, kept_forEach, kept_objPoison, kept_objWrite]; done) | (with_reducible refine kept_forEach ?_ ?_) | (intro _ _ hk) | with_reducible apply kept_ite | with_reducible apply kept_objPoison | with_reducible apply kept_objWrite | with_reducible exact kept_lit hk .. | dsimp only | split)

theorem kept_deliver {z0 : State} (f : Nat) (slot : Nat) (index : Nat) (part : Nat) (off : Nat) (w : Nat) (bs : Bytes) (sat : Bool) (poisoned : List Nat) {s : State} (hk : Kept z0 s) : Kept z0 (State.deliver f slot index part off w bs sat poisoned s) := by
  unfold State.deliver
  repeat' (first | with_reducible assumption | (simp (maxDischargeDepth := 100) +contextual only [hk, kept_lit, kept_markN, kept_copy, kept_zeroWrN, kept_ite, ite_self, implies_true, forall_const, kept_digests, kept_modFold, kept_writeOut]; done) | (intro _ _ hk) | with_reducible apply kept_ite | with_reducible apply kept_digests | with_reducible apply kept_modFold | with_reducible apply kept_writeOut | with_reducible exact kept_lit hk .. | dsimp only | split)

theorem kept_actionThrough {z0 : State} (f : Nat) (slot : Nat) (index : Nat) {s : State} (hk : Kept z0 s) : Kept z0 (State.actionThrough f slot index s) := by
  unfold State.actionThrough
  repeat' (first | with_reducible assumption | (simp (maxDischargeDepth := 100) +contextual only [hk, kept_lit, kept_markN, kept_copy, kept_zeroWrN, kept_ite, ite_self, implies_true, forall_const, kept_afterMerge, kept_closeTile, kept_modFold]; done) | (intro _ _ hk) | with_reducible apply kept_ite | with_reducible apply kept_afterMerge | with_reducible apply kept_closeTile | with_reducible apply kept_modFold | with_reducible exact kept_lit hk .. | dsimp only | split)

theorem kept_mergeDone {z0 : State} (f : Nat) (p : Nat) (w : Nat) (j : PortJob) {s : State} (hk : Kept z0 s) : Kept z0 (State.mergeDone f p w j s) := by
  unfold State.mergeDone
  repeat' (first | with_reducible assumption | (simp (maxDischargeDepth := 100) +contextual only [hk, kept_lit, kept_markN, kept_copy, kept_zeroWrN, kept_ite, ite_self, implies_true, forall_const, kept_actionThrough, kept_modFold]; done) | (intro _ _ hk) | with_reducible apply kept_ite | with_reducible apply kept_actionThrough | with_reducible apply kept_modFold | with_reducible exact kept_lit hk .. | dsimp only | split)

theorem kept_convertDone {z0 : State} (f : Nat) (p : Nat) (part : Nat) (j : PortJob) {s : State} (hk : Kept z0 s) : Kept z0 (State.convertDone f p part j s) := by
  unfold State.convertDone
  repeat' (first | with_reducible assumption | (simp (maxDischargeDepth := 100) +contextual only [hk, kept_lit, kept_markN, kept_copy, kept_zeroWrN, kept_ite, ite_self, implies_true, forall_const, kept_actionThrough, kept_deliver, kept_modFold]; done) | (intro _ _ hk) | with_reducible apply kept_ite | with_reducible apply kept_actionThrough | with_reducible apply kept_deliver | with_reducible apply kept_modFold | with_reducible exact kept_lit hk .. | dsimp only | split)

theorem kept_foldDone {z0 : State} (f : Nat) (p : Nat) (part : Nat) (j : PortJob) {s : State} (hk : Kept z0 s) : Kept z0 (State.foldDone f p part j s) := by
  unfold State.foldDone
  repeat' (first | with_reducible assumption | (simp (maxDischargeDepth := 100) +contextual only [hk, kept_lit, kept_markN, kept_copy, kept_zeroWrN, kept_ite, ite_self, implies_true, forall_const, kept_actionThrough, kept_modFold]; done) | (intro _ _ hk) | with_reducible apply kept_ite | with_reducible apply kept_actionThrough | with_reducible apply kept_modFold | with_reducible exact kept_lit hk .. | dsimp only | split)

theorem kept_targetDone {z0 : State} (f : Nat) (p : Nat) (j : PortJob) {s : State} (hk : Kept z0 s) : Kept z0 (State.targetDone f p j s) := by
  unfold State.targetDone
  repeat' (first | with_reducible assumption | (simp (maxDischargeDepth := 100) +contextual only [hk, kept_lit, kept_markN, kept_copy, kept_zeroWrN, kept_ite, ite_self, implies_true, forall_const, kept_actionThrough, kept_deliver, kept_modFold]; done) | (intro _ _ hk) | with_reducible apply kept_ite | with_reducible apply kept_actionThrough | with_reducible apply kept_deliver | with_reducible apply kept_modFold | with_reducible exact kept_lit hk .. | dsimp only | split)

theorem kept_spillDone {z0 : State} (f : Nat) (p : Nat) (j : PortJob) {s : State} (hk : Kept z0 s) : Kept z0 (State.spillDone f p j s) := by
  unfold State.spillDone
  repeat' (first | with_reducible assumption | (simp (maxDischargeDepth := 100) +contextual only [hk, kept_lit, kept_markN, kept_copy, kept_zeroWrN, kept_ite, ite_self, implies_true, forall_const, kept_accRecords, kept_modFold, kept_wr]; done) | (rename_i hq; have hz := congrArg Prod.snd hq; dsimp only at hz; subst hz; try clear hq) | (have hz := congrArg Prod.snd ‹_ = (_, _)›; dsimp only at hz; subst hz) | (intro _ _ hk) | with_reducible apply kept_ite | with_reducible apply kept_accRecords | with_reducible apply kept_modFold | with_reducible apply kept_wr | with_reducible exact kept_lit hk .. | dsimp only | split)

theorem kept_restoreDone {z0 : State} (f : Nat) (p : Nat) (j : PortJob) {s : State} (hk : Kept z0 s) : Kept z0 (State.restoreDone f p j s) := by
  unfold State.restoreDone
  repeat' (first | with_reducible assumption | (simp (maxDischargeDepth := 100) +contextual only [hk, kept_lit, kept_markN, kept_copy, kept_zeroWrN, kept_ite, ite_self, implies_true, forall_const, kept_modFold, kept_wr]; done) | (intro _ _ hk) | with_reducible apply kept_ite | with_reducible apply kept_modFold | with_reducible apply kept_wr | with_reducible exact kept_lit hk .. | dsimp only | split)

end Sys2Proof.Machine
end

