-- ==== Sys2Proof/Laws/KeptQueues.lean ====
section
/-! SUPPORT. The operations of Sys2Proof/Machine/Queues.lean keep what every step keeps. -/

namespace Sys2Proof.Machine

set_option linter.all false
set_option Elab.async false

theorem kept_tableWrite {z0 : State} (i : Nat) (off : Nat) (b : Bytes) {s : State} (hk : Kept z0 s) : Kept z0 (State.tableWrite i off b s) := by
  unfold State.tableWrite
  repeat' (first | with_reducible assumption | (simp (maxDischargeDepth := 100) +contextual only [hk, kept_lit, kept_markN, kept_copy, kept_zeroWrN, kept_ite, ite_self, implies_true, forall_const, kept_objWrite, kept_wr]; done) | (intro _ _ hk) | with_reducible apply kept_ite | with_reducible apply kept_objWrite | with_reducible apply kept_wr | with_reducible exact kept_lit hk .. | dsimp only | split)

theorem kept_setQueue {z0 : State} (q : Nat) (c : Option QCtx) {s : State} (hk : Kept z0 s) : Kept z0 (State.setQueue q c s) := by
  unfold State.setQueue
  repeat' (first | with_reducible assumption | (simp (maxDischargeDepth := 100) +contextual only [hk, kept_lit, kept_markN, kept_copy, kept_zeroWrN, kept_ite, ite_self, implies_true, forall_const]; done) | (intro _ _ hk) | with_reducible apply kept_ite | with_reducible exact kept_lit hk .. | dsimp only | split)

theorem kept_modQueue {z0 : State} (q : Nat) (f : QCtx → QCtx) {s : State} (hk : Kept z0 s) : Kept z0 (State.modQueue q f s) := by
  unfold State.modQueue
  repeat' (first | with_reducible assumption | (simp (maxDischargeDepth := 100) +contextual only [hk, kept_lit, kept_markN, kept_copy, kept_zeroWrN, kept_ite, ite_self, implies_true, forall_const, kept_setQueue]; done) | (intro _ _ hk) | with_reducible apply kept_ite | with_reducible apply kept_setQueue | with_reducible exact kept_lit hk .. | dsimp only | split)

theorem kept_markCached {z0 : State} (i : Nat) (off : Nat) (c : QCtx) (cached : Bool) {s : State} (hk : Kept z0 s) : Kept z0 (State.markCached i off c cached s) := by
  unfold State.markCached
  repeat' (first | with_reducible assumption | (simp (maxDischargeDepth := 100) +contextual only [hk, kept_lit, kept_markN, kept_copy, kept_zeroWrN, kept_ite, ite_self, implies_true, forall_const, kept_tableWrite]; done) | (intro _ _ hk) | with_reducible apply kept_ite | with_reducible apply kept_tableWrite | with_reducible exact kept_lit hk .. | dsimp only | split)

theorem kept_evict {z0 : State} (q : Nat) {s : State} (hk : Kept z0 s) : Kept z0 (State.evict q s) := by
  unfold State.evict
  repeat' (first | with_reducible assumption | (simp (maxDischargeDepth := 100) +contextual only [hk, kept_lit, kept_markN, kept_copy, kept_zeroWrN, kept_ite, ite_self, implies_true, forall_const, kept_markCached, kept_setQueue, kept_tableWrite]; done) | (intro _ _ hk) | with_reducible apply kept_ite | with_reducible apply kept_markCached | with_reducible apply kept_setQueue | with_reducible apply kept_tableWrite | with_reducible exact kept_lit hk .. | dsimp only | split)

theorem kept_makeRoom {z0 zt : State} {s : State} (hk : Kept z0 s) (ht : State.makeRoom s = some zt) : Kept z0 zt := by
  simp only [State.makeRoom, Option.map_eq_some_iff] at ht
  repeat' split at ht
  all_goals (try simp only [Option.map_eq_some_iff] at ht)
  all_goals first | (obtain ⟨_, _, rfl⟩ := ht) | cases ht | skip
  repeat' (first | with_reducible assumption | (simp (maxDischargeDepth := 100) +contextual only [hk, kept_lit, kept_markN, kept_copy, kept_zeroWrN, kept_ite, ite_self, implies_true, forall_const, kept_evict]; done) | (intro _ _ hk) | with_reducible apply kept_ite | with_reducible apply kept_evict | with_reducible exact kept_lit hk .. | dsimp only | split)

theorem kept_bringIn {z0 zt : State} (q : Nat) {s : State} (hk : Kept z0 s) (ht : State.bringIn q s = some zt) : Kept z0 zt := by
  simp only [State.bringIn, Option.map_eq_some_iff] at ht
  repeat' split at ht
  all_goals (try simp only [Option.map_eq_some_iff] at ht)
  all_goals first | (obtain ⟨_, _, rfl⟩ := ht) | cases ht | skip
  repeat' (first | with_reducible assumption | (simp (maxDischargeDepth := 100) +contextual only [hk, kept_lit, kept_markN, kept_copy, kept_zeroWrN, kept_ite, ite_self, implies_true, forall_const, kept_markCached, kept_setQueue]; done) | (intro _ _ hk) | (refine kept_makeRoom  ?_ (by assumption)) | with_reducible apply kept_ite | with_reducible apply kept_markCached | with_reducible apply kept_setQueue | with_reducible exact kept_lit hk .. | dsimp only | split)

theorem kept_setGroup {z0 : State} (g : Nat) (c : Option QCtx) {s : State} (hk : Kept z0 s) : Kept z0 (State.setGroup g c s) := by
  unfold State.setGroup
  repeat' (first | with_reducible assumption | (simp (maxDischargeDepth := 100) +contextual only [hk, kept_lit, kept_markN, kept_copy, kept_zeroWrN, kept_ite, ite_self, implies_true, forall_const]; done) | (intro _ _ hk) | with_reducible apply kept_ite | with_reducible exact kept_lit hk .. | dsimp only | split)

theorem kept_bringGroup {z0 : State} (i : Nat) (g : Nat) {s : State} (hk : Kept z0 s) : Kept z0 (State.bringGroup i g s) := by
  unfold State.bringGroup
  repeat' (first | with_reducible assumption | (simp (maxDischargeDepth := 100) +contextual only [hk, kept_lit, kept_markN, kept_copy, kept_zeroWrN, kept_ite, ite_self, implies_true, forall_const, kept_markCached, kept_setGroup]; done) | (intro _ _ hk) | with_reducible apply kept_ite | with_reducible apply kept_markCached | with_reducible apply kept_setGroup | with_reducible exact kept_lit hk .. | dsimp only | split)

theorem kept_ringWrite {z0 : State} (c : QCtx) (idx : Nat) (off : Nat) (b : Bytes) {s : State} (hk : Kept z0 s) : Kept z0 (State.ringWrite c idx off b s) := by
  unfold State.ringWrite
  repeat' (first | with_reducible assumption | (simp (maxDischargeDepth := 100) +contextual only [hk, kept_lit, kept_markN, kept_copy, kept_zeroWrN, kept_ite, ite_self, implies_true, forall_const, kept_objWrite]; done) | (intro _ _ hk) | with_reducible apply kept_ite | with_reducible apply kept_objWrite | with_reducible exact kept_lit hk .. | dsimp only | split)

theorem kept_popHead {z0 : State} (q : Nat) {s : State} (hk : Kept z0 s) : Kept z0 (State.popHead q s) := by
  unfold State.popHead
  repeat' (first | with_reducible assumption | (simp (maxDischargeDepth := 100) +contextual only [hk, kept_lit, kept_markN, kept_copy, kept_zeroWrN, kept_ite, ite_self, implies_true, forall_const, kept_modQueue]; done) | (intro _ _ hk) | with_reducible apply kept_ite | with_reducible apply kept_modQueue | with_reducible exact kept_lit hk .. | dsimp only | split)

theorem kept_addCompletion {z0 : State} (inst : Nat) (q : Nat) (bytes : Bytes) {s : State} (hk : Kept z0 s) : Kept z0 (State.addCompletion inst q bytes s) := by
  unfold State.addCompletion
  repeat' (first | with_reducible assumption | (simp (maxDischargeDepth := 100) +contextual only [hk, kept_lit, kept_markN, kept_copy, kept_zeroWrN, kept_ite, ite_self, implies_true, forall_const, kept_announced, kept_modQueue, kept_raiseTo, kept_ringWrite]; done) | (intro _ _ hk) | (refine kept_bringIn _  ?_ (by assumption)) | with_reducible apply kept_ite | with_reducible apply kept_announced | with_reducible apply kept_modQueue | with_reducible apply kept_raiseTo | with_reducible apply kept_ringWrite | with_reducible exact kept_lit hk .. | dsimp only | split)

theorem kept_ringTail {z0 : State} (page : Nat) (q : Nat) (tail : Nat) {s : State} (hk : Kept z0 s) : Kept z0 (State.ringTail page q tail s) := by
  unfold State.ringTail
  repeat' (first | with_reducible assumption | (simp (maxDischargeDepth := 100) +contextual only [hk, kept_lit, kept_markN, kept_copy, kept_zeroWrN, kept_ite, ite_self, implies_true, forall_const, kept_modDbPage, kept_modQueue]; done) | (intro _ _ hk) | with_reducible apply kept_ite | with_reducible apply kept_modDbPage | with_reducible apply kept_modQueue | with_reducible exact kept_lit hk .. | dsimp only | split)

theorem kept_doorbellSpoof {z0 : State} (page : Nat) {s : State} (hk : Kept z0 s) : Kept z0 (State.doorbellSpoof page s) := by
  unfold State.doorbellSpoof
  repeat' (first | with_reducible assumption | (simp (maxDischargeDepth := 100) +contextual only [hk, kept_lit, kept_markN, kept_copy, kept_zeroWrN, kept_ite, ite_self, implies_true, forall_const, kept_countSpoof, kept_modDbPage]; done) | (intro _ _ hk) | with_reducible apply kept_ite | with_reducible apply kept_countSpoof | with_reducible apply kept_modDbPage | with_reducible exact kept_lit hk .. | dsimp only | split)

theorem kept_serveDoorbell {z0 zt : State} (page : Nat) (q : Nat) (tail : Nat) {s : State} (hk : Kept z0 s) (ht : State.serveDoorbell page q tail s = some zt) : Kept z0 zt := by
  simp only [State.serveDoorbell, Option.map_eq_some_iff] at ht
  repeat' split at ht
  all_goals (try simp only [Option.map_eq_some_iff] at ht)
  all_goals first | (obtain ⟨_, _, rfl⟩ := ht) | cases ht | skip
  repeat' (first | with_reducible assumption | (simp (maxDischargeDepth := 100) +contextual only [hk, kept_lit, kept_markN, kept_copy, kept_zeroWrN, kept_ite, ite_self, implies_true, forall_const, kept_doorbellSpoof, kept_ringTail]; done) | (intro _ _ hk) | (refine kept_bringIn _  ?_ (by assumption)) | with_reducible apply kept_ite | with_reducible apply kept_doorbellSpoof | with_reducible apply kept_ringTail | with_reducible exact kept_lit hk .. | dsimp only | split)

theorem kept_waitDoorbell {z0 : State} (d : Nat × Nat × Nat) {s : State} (hk : Kept z0 s) : Kept z0 (State.waitDoorbell d s) := by
  unfold State.waitDoorbell
  repeat' (first | with_reducible assumption | (simp (maxDischargeDepth := 100) +contextual only [hk, kept_lit, kept_markN, kept_copy, kept_zeroWrN, kept_ite, ite_self, implies_true, forall_const]; done) | (intro _ _ hk) | with_reducible apply kept_ite | with_reducible exact kept_lit hk .. | dsimp only | split)

theorem kept_takeDoorbell {z0 : State} (d : Nat × Nat × Nat) {s : State} (hk : Kept z0 s) : Kept z0 (State.takeDoorbell d s) := by
  unfold State.takeDoorbell
  repeat' (first | with_reducible assumption | (simp (maxDischargeDepth := 100) +contextual only [hk, kept_lit, kept_markN, kept_copy, kept_zeroWrN, kept_ite, ite_self, implies_true, forall_const, kept_waitDoorbell]; done) | (intro _ _ hk) | (refine kept_serveDoorbell _ _ _  ?_ (by assumption)) | with_reducible apply kept_ite | with_reducible apply kept_waitDoorbell | with_reducible exact kept_lit hk .. | dsimp only | split)

theorem kept_retryDoorbells {z0 : State} {s : State} (hk : Kept z0 s) : Kept z0 (State.retryDoorbells s) := by
  unfold State.retryDoorbells
  repeat' (first | with_reducible assumption | (simp (maxDischargeDepth := 100) +contextual only [hk, kept_lit, kept_markN, kept_copy, kept_zeroWrN, kept_ite, ite_self, implies_true, forall_const, kept_forEach, kept_takeDoorbell]; done) | (with_reducible refine kept_forEach ?_ ?_) | (intro _ _ hk) | with_reducible apply kept_ite | with_reducible apply kept_takeDoorbell | with_reducible exact kept_lit hk .. | dsimp only | split)

theorem kept_doorbellWrite {z0 : State} (page : Nat) (mapping : W32) (offset : Nat) (aligned64 : Bool) (value : W64) {s : State} (hk : Kept z0 s) : Kept z0 (State.doorbellWrite page mapping offset aligned64 value s) := by
  unfold State.doorbellWrite
  repeat' (first | with_reducible assumption | (simp (maxDischargeDepth := 100) +contextual only [hk, kept_lit, kept_markN, kept_copy, kept_zeroWrN, kept_ite, ite_self, implies_true, forall_const, kept_modDbPage, kept_takeDoorbell]; done) | (intro _ _ hk) | with_reducible apply kept_ite | with_reducible apply kept_modDbPage | with_reducible apply kept_takeDoorbell | with_reducible exact kept_lit hk .. | dsimp only | split)

theorem kept_execDoorbell {z0 zt : State} (page : Fin 256) (mapping : W32) (offset : Nat) (aligned64 : Bool) (value : W64) {s : State} (hk : Kept z0 s) (ht : execDoorbell page mapping offset aligned64 value s = .next zt) : Kept z0 zt := by
  unfold execDoorbell at ht
  cases ht
  repeat' (first | with_reducible assumption | (simp (maxDischargeDepth := 100) +contextual only [hk, kept_lit, kept_markN, kept_copy, kept_zeroWrN, kept_ite, ite_self, implies_true, forall_const, kept_doorbellWrite]; done) | (intro _ _ hk) | with_reducible apply kept_ite | with_reducible apply kept_doorbellWrite | with_reducible exact kept_lit hk .. | dsimp only | split)

theorem kept_execQueueEvict {z0 zt : State} (now : Nat) (queue : Nat) {s : State} (hk : Kept z0 s) (ht : execQueueEvict now queue s = .next zt) : Kept z0 zt := by
  unfold execQueueEvict at ht
  cases ht
  repeat' (first | with_reducible assumption | (simp (maxDischargeDepth := 100) +contextual only [hk, kept_lit, kept_markN, kept_copy, kept_zeroWrN, kept_ite, ite_self, implies_true, forall_const, kept_at, kept_evict, kept_retryDoorbells]; done) | (intro _ _ hk) | with_reducible apply kept_ite | with_reducible apply kept_at | with_reducible apply kept_evict | with_reducible apply kept_retryDoorbells | with_reducible exact kept_lit hk .. | dsimp only | split)

end Sys2Proof.Machine
end

