-- ==== Sys2Proof/Laws/KeptTasks.lean ====
section
/-! SUPPORT. The operations of Sys2Proof/Machine/Tasks.lean keep what every step keeps. -/

namespace Sys2Proof.Machine

set_option linter.all false
set_option Elab.async false

theorem kept_putDirect {z0 : State} (r : CmpRec) {s : State} (hk : Kept z0 s) : Kept z0 (State.putDirect r s) := by
  unfold State.putDirect
  repeat' (first | with_reducible assumption | (simp (maxDischargeDepth := 100) +contextual only [hk, kept_lit, kept_markN, kept_copy, kept_zeroWrN, kept_ite, ite_self, implies_true, forall_const, kept_addCompletion, kept_countTask, kept_modDisp]; done) | (intro _ _ hk) | with_reducible apply kept_ite | with_reducible apply kept_addCompletion | with_reducible apply kept_countTask | with_reducible apply kept_modDisp | with_reducible exact kept_lit hk .. | dsimp only | split)

theorem kept_endDirect {z0 : State} (q : Nat) (owner : Nat) (d : TaskDesc) (st : Status) {s : State} (hk : Kept z0 s) : Kept z0 (State.endDirect q owner d st s) := by
  unfold State.endDirect
  repeat' (first | with_reducible assumption | (simp (maxDischargeDepth := 100) +contextual only [hk, kept_lit, kept_markN, kept_copy, kept_zeroWrN, kept_ite, ite_self, implies_true, forall_const, kept_modDisp, kept_popHead, kept_putDirect]; done) | (intro _ _ hk) | with_reducible apply kept_ite | with_reducible apply kept_modDisp | with_reducible apply kept_popHead | with_reducible apply kept_putDirect | with_reducible exact kept_lit hk .. | dsimp only | split)

theorem kept_startReside {z0 : State} (d : TaskDesc) (q : Nat) (fs : List (Nat × Nat × Nat × List Nat)) {s : State} (hk : Kept z0 s) : Kept z0 (State.startReside d q fs s) := by
  unfold State.startReside
  repeat' (first | with_reducible assumption | (simp (maxDischargeDepth := 100) +contextual only [hk, kept_lit, kept_markN, kept_copy, kept_zeroWrN, kept_ite, ite_self, implies_true, forall_const, kept_forEach, kept_modDisp, kept_modFold, kept_popHead, kept_setTask, kept_zeroMem]; done) | (with_reducible refine kept_forEach ?_ ?_) | (intro _ _ hk) | with_reducible apply kept_ite | with_reducible apply kept_modDisp | with_reducible apply kept_modFold | with_reducible apply kept_popHead | with_reducible apply kept_setTask | with_reducible apply kept_zeroMem | with_reducible exact kept_lit hk .. | dsimp only | split)

theorem kept_actReside {z0 zt : State} (q : Nat) (d : TaskDesc) {s : State} (hk : Kept z0 s) (ht : State.actReside q d s = some zt) : Kept z0 zt := by
  simp only [State.actReside, Option.map_eq_some_iff] at ht
  repeat' split at ht
  all_goals (try simp only [Option.map_eq_some_iff] at ht)
  all_goals first | (obtain ⟨_, _, rfl⟩ := ht) | cases ht | skip
  repeat' (first | with_reducible assumption | (simp (maxDischargeDepth := 100) +contextual only [hk, kept_lit, kept_markN, kept_copy, kept_zeroWrN, kept_ite, ite_self, implies_true, forall_const, kept_endDirect, kept_fetchObj, kept_startReside]; done) | (rename_i hq; have hz := congrArg Prod.snd hq; dsimp only at hz; subst hz; try clear hq) | (have hz := congrArg Prod.snd ‹_ = (_, _)›; dsimp only at hz; subst hz) | (intro _ _ hk) | with_reducible apply kept_ite | with_reducible apply kept_endDirect | with_reducible apply kept_fetchObj | with_reducible apply kept_startReside | with_reducible exact kept_lit hk .. | dsimp only | split)

theorem kept_execResideDone {z0 zt : State} (fold : Fin 32) (slot : Fin 8) {s : State} (hk : Kept z0 s) (ht : execResideDone fold slot s = .next zt) : Kept z0 zt := by
  unfold execResideDone at ht
  cases ht
  repeat' (first | with_reducible assumption | (simp (maxDischargeDepth := 100) +contextual only [hk, kept_lit, kept_markN, kept_copy, kept_zeroWrN, kept_ite, ite_self, implies_true, forall_const, kept_forEach, kept_modFold, kept_putDirect, kept_taskEnded]; done) | (with_reducible refine kept_forEach ?_ ?_) | (intro _ _ hk) | with_reducible apply kept_ite | with_reducible apply kept_modFold | with_reducible apply kept_putDirect | with_reducible apply kept_taskEnded | with_reducible exact kept_lit hk .. | dsimp only | split)

theorem kept_actRelease {z0 zt : State} (q : Nat) (d : TaskDesc) {s : State} (hk : Kept z0 s) (ht : State.actRelease q d s = some zt) : Kept z0 zt := by
  simp only [State.actRelease, Option.map_eq_some_iff] at ht
  repeat' split at ht
  all_goals (try simp only [Option.map_eq_some_iff] at ht)
  all_goals first | (obtain ⟨_, _, rfl⟩ := ht) | cases ht | skip
  repeat' (first | with_reducible assumption | (simp (maxDischargeDepth := 100) +contextual only [hk, kept_lit, kept_markN, kept_copy, kept_zeroWrN, kept_ite, ite_self, implies_true, forall_const, kept_dropRef, kept_endDirect, kept_forEach, kept_modDisp, kept_modFold, kept_place, kept_popHead, kept_setTask]; done) | (with_reducible refine kept_forEach ?_ ?_) | (intro _ _ hk) | with_reducible apply kept_ite | with_reducible apply kept_dropRef | with_reducible apply kept_endDirect | with_reducible apply kept_modDisp | with_reducible apply kept_modFold | with_reducible apply kept_place | with_reducible apply kept_popHead | with_reducible apply kept_setTask | with_reducible exact kept_lit hk .. | dsimp only | split)

theorem kept_execReleaseDone {z0 zt : State} (inst : Fin 256) (ctx : Fin 256) {s : State} (hk : Kept z0 s) (ht : execReleaseDone inst ctx s = .next zt) : Kept z0 zt := by
  unfold execReleaseDone at ht
  cases ht
  repeat' (first | with_reducible assumption | (simp (maxDischargeDepth := 100) +contextual only [hk, kept_lit, kept_markN, kept_copy, kept_zeroWrN, kept_ite, ite_self, implies_true, forall_const, kept_forEach, kept_modFold, kept_putDirect, kept_taskEnded]; done) | (with_reducible refine kept_forEach ?_ ?_) | (intro _ _ hk) | with_reducible apply kept_ite | with_reducible apply kept_modFold | with_reducible apply kept_putDirect | with_reducible apply kept_taskEnded | with_reducible exact kept_lit hk .. | dsimp only | split)

theorem kept_failTask {z0 : State} (st : Status) (n : Nat) {s : State} (hk : Kept z0 s) : Kept z0 (State.failTask st n s) := by
  unfold State.failTask
  repeat' (first | with_reducible assumption | (simp (maxDischargeDepth := 100) +contextual only [hk, kept_lit, kept_markN, kept_copy, kept_zeroWrN, kept_ite, ite_self, implies_true, forall_const, kept_putDirect, kept_taskEnded]; done) | (intro _ _ hk) | with_reducible apply kept_ite | with_reducible apply kept_putDirect | with_reducible apply kept_taskEnded | with_reducible exact kept_lit hk .. | dsimp only | split)

theorem kept_killTask {z0 : State} (n : Nat) {s : State} (hk : Kept z0 s) : Kept z0 (State.killTask n s) := by
  unfold State.killTask
  repeat' (first | with_reducible assumption | (simp (maxDischargeDepth := 100) +contextual only [hk, kept_lit, kept_markN, kept_copy, kept_zeroWrN, kept_ite, ite_self, implies_true, forall_const, kept_forEach, kept_modFold, kept_setTask]; done) | (with_reducible refine kept_forEach ?_ ?_) | (intro _ _ hk) | with_reducible apply kept_ite | with_reducible apply kept_modFold | with_reducible apply kept_setTask | with_reducible exact kept_lit hk .. | dsimp only | split)

theorem kept_loseTask {z0 : State} (n : Nat) (st : Status) {s : State} (hk : Kept z0 s) : Kept z0 (State.loseTask n st s) := by
  unfold State.loseTask
  repeat' (first | with_reducible assumption | (simp (maxDischargeDepth := 100) +contextual only [hk, kept_lit, kept_markN, kept_copy, kept_zeroWrN, kept_ite, ite_self, implies_true, forall_const, kept_flushRecords, kept_forEach, kept_modFold, kept_modTask, kept_putCmp, kept_taskEnded]; done) | (with_reducible refine kept_forEach ?_ ?_) | (intro _ _ hk) | with_reducible apply kept_ite | with_reducible apply kept_flushRecords | with_reducible apply kept_modFold | with_reducible apply kept_modTask | with_reducible apply kept_putCmp | with_reducible apply kept_taskEnded | with_reducible exact kept_lit hk .. | dsimp only | split)

theorem kept_leaveNow {z0 : State} (inst : Nat) (ctx : Nat) {s : State} (hk : Kept z0 s) : Kept z0 (State.leaveNow inst ctx s) := by
  unfold State.leaveNow
  repeat' (first | with_reducible assumption | (simp (maxDischargeDepth := 100) +contextual only [hk, kept_lit, kept_markN, kept_copy, kept_zeroWrN, kept_ite, ite_self, implies_true, forall_const, kept_dmaLose, kept_dropRef, kept_forEach, kept_modFold, kept_place, kept_setTask]; done) | (with_reducible refine kept_forEach ?_ ?_) | (intro _ _ hk) | with_reducible apply kept_ite | with_reducible apply kept_dmaLose | with_reducible apply kept_dropRef | with_reducible apply kept_modFold | with_reducible apply kept_place | with_reducible apply kept_setTask | with_reducible exact kept_lit hk .. | dsimp only | split)

theorem kept_place {z0 : State} (q : Nat) (d : TaskDesc) (tiles : List (TileEntry × List PassEntry)) (fs : List (Nat × Nat)) (digest : Bytes) (args : Bytes) {s : State} (hk : Kept z0 s) : Kept z0 (State.place q d tiles fs digest args s) := by
  unfold State.place
  repeat' (first | with_reducible assumption | (simp (maxDischargeDepth := 100) +contextual only [hk, kept_lit, kept_markN, kept_copy, kept_zeroWrN, kept_ite, ite_self, implies_true, forall_const, kept_forEach, kept_modDisp, kept_modFold, kept_popHead, kept_setTask]; done) | (with_reducible refine kept_forEach ?_ ?_) | (intro _ _ hk) | with_reducible apply kept_ite | with_reducible apply kept_modDisp | with_reducible apply kept_modFold | with_reducible apply kept_popHead | with_reducible apply kept_setTask | with_reducible exact kept_lit hk .. | dsimp only | split)

theorem kept_readArgsObj {z0 : State} (d : TaskDesc) {s : State} (hk : Kept z0 s) : Kept z0 (State.readArgsObj d s).2 := by
  unfold State.readArgsObj
  repeat' (first | with_reducible assumption | (simp (maxDischargeDepth := 100) +contextual only [hk, kept_lit, kept_markN, kept_copy, kept_zeroWrN, kept_ite, ite_self, implies_true, forall_const, kept_fetchObj]; done) | (rename_i hq; have hz := congrArg Prod.snd hq; dsimp only at hz; subst hz; try clear hq) | (have hz := congrArg Prod.snd ‹_ = (_, _)›; dsimp only at hz; subst hz) | (intro _ _ hk) | with_reducible apply kept_ite | with_reducible apply kept_fetchObj | with_reducible exact kept_lit hk .. | dsimp only | split)

theorem kept_actRun {z0 zt : State} (q : Nat) (d : TaskDesc) {s : State} (hk : Kept z0 s) (ht : State.actRun q d s = some zt) : Kept z0 zt := by
  simp only [State.actRun, Option.map_eq_some_iff] at ht
  repeat' split at ht
  all_goals (try simp only [Option.map_eq_some_iff] at ht)
  all_goals first | (obtain ⟨_, _, rfl⟩ := ht) | cases ht | skip
  repeat' (first | with_reducible assumption | (simp (maxDischargeDepth := 100) +contextual only [hk, kept_lit, kept_markN, kept_copy, kept_zeroWrN, kept_ite, ite_self, implies_true, forall_const, kept_endDirect, kept_place, kept_readArgsObj, kept_readTiles]; done) | (rename_i hq; have hz := congrArg Prod.snd (congrArg Prod.snd hq); dsimp only at hz; subst hz; try clear hq) | (rename_i hq; have hz := congrArg Prod.snd hq; dsimp only at hz; subst hz; try clear hq) | (have hz := congrArg Prod.snd ‹_ = (_, _)›; dsimp only at hz; subst hz) | (have hz := congrArg Prod.snd (congrArg Prod.snd ‹_ = (_, _, _)›); dsimp only at hz; subst hz) | (intro _ _ hk) | with_reducible apply kept_ite | with_reducible apply kept_endDirect | with_reducible apply kept_place | with_reducible apply kept_readArgsObj | with_reducible apply kept_readTiles | with_reducible exact kept_lit hk .. | dsimp only | split)

theorem kept_act {z0 zt : State} (q : Nat) {s : State} (hk : Kept z0 s) (ht : State.act q s = some zt) : Kept z0 zt := by
  simp only [State.act, Option.map_eq_some_iff] at ht
  repeat' split at ht
  all_goals (try simp only [Option.map_eq_some_iff] at ht)
  all_goals first | (obtain ⟨_, _, rfl⟩ := ht) | cases ht | skip
  repeat' (first | with_reducible assumption | (simp (maxDischargeDepth := 100) +contextual only [hk, kept_lit, kept_markN, kept_copy, kept_zeroWrN, kept_ite, ite_self, implies_true, forall_const, kept_countSpoof, kept_endDirect]; done) | (intro _ _ hk) | (refine kept_actRelease _ _  ?_ (by assumption)) | (refine kept_actReside _ _  ?_ (by assumption)) | (refine kept_actRun _ _  ?_ (by assumption)) | with_reducible apply kept_ite | with_reducible apply kept_countSpoof | with_reducible apply kept_endDirect | with_reducible exact kept_lit hk .. | dsimp only | split)

theorem kept_execTaskPlace {z0 zt : State} (queue : Nat) {s : State} (hk : Kept z0 s) (ht : execTaskPlace queue s = .next zt) : Kept z0 zt := by
  unfold execTaskPlace at ht
  cases ht
  repeat' (first | with_reducible assumption | (simp (maxDischargeDepth := 100) +contextual only [hk, kept_lit, kept_markN, kept_copy, kept_zeroWrN, kept_ite, ite_self, implies_true, forall_const, kept_modDisp]; done) | (intro _ _ hk) | (refine kept_act _  ?_ (by assumption)) | with_reducible apply kept_ite | with_reducible apply kept_modDisp | with_reducible exact kept_lit hk .. | dsimp only | split)

end Sys2Proof.Machine
end

