-- ==== Sys2Proof/Laws/KeptDma.lean ====
section
/-! SUPPORT. The operations of Sys2Proof/Machine/Dma.lean keep what every step keeps. -/

namespace Sys2Proof.Machine

set_option linter.all false
set_option Elab.async false

theorem kept_execDmaDescriptorPost {z0 zt : State} (engine : Fin 64) (chan : Fin 16) (d : Bytes) {s : State} (hk : Kept z0 s) (ht : execDmaDescriptorPost engine chan d s = .next zt) : Kept z0 zt := by
  unfold execDmaDescriptorPost at ht
  cases ht
  repeat' (first | with_reducible assumption | (simp (maxDischargeDepth := 100) +contextual only [hk, kept_lit, kept_markN, kept_copy, kept_zeroWrN, kept_ite, ite_self, implies_true, forall_const, kept_emit, kept_modChan, kept_wr]; done) | (intro _ _ hk) | with_reducible apply kept_ite | with_reducible apply kept_emit | with_reducible apply kept_modChan | with_reducible apply kept_wr | with_reducible exact kept_lit hk .. | dsimp only | split)

theorem kept_execDmaLevelAdd {z0 zt : State} (engine : Fin 64) (chan : Fin 16) (bytes : Nat) {s : State} (hk : Kept z0 s) (ht : execDmaLevelAdd engine chan bytes s = .next zt) : Kept z0 zt := by
  unfold execDmaLevelAdd at ht
  cases ht
  repeat' (first | with_reducible assumption | (simp (maxDischargeDepth := 100) +contextual only [hk, kept_lit, kept_markN, kept_copy, kept_zeroWrN, kept_ite, ite_self, implies_true, forall_const, kept_modChan]; done) | (intro _ _ hk) | with_reducible apply kept_ite | with_reducible apply kept_modChan | with_reducible exact kept_lit hk .. | dsimp only | split)

theorem kept_dmaStart {z0 : State} (e : Nat) (c : Nat) {s : State} (hk : Kept z0 s) : Kept z0 (State.dmaStart e c s) := by
  unfold State.dmaStart
  repeat' (first | with_reducible assumption | (simp (maxDischargeDepth := 100) +contextual only [hk, kept_lit, kept_markN, kept_copy, kept_zeroWrN, kept_ite, ite_self, implies_true, forall_const, kept_modChan, kept_modDma]; done) | (intro _ _ hk) | with_reducible apply kept_ite | with_reducible apply kept_modChan | with_reducible apply kept_modDma | with_reducible exact kept_lit hk .. | dsimp only | split)

theorem kept_execDmaDescriptorStart {z0 zt : State} (engine : Fin 64) {s : State} (hk : Kept z0 s) (ht : execDmaDescriptorStart engine s = .next zt) : Kept z0 zt := by
  unfold execDmaDescriptorStart at ht
  cases ht
  repeat' (first | with_reducible assumption | (simp (maxDischargeDepth := 100) +contextual only [hk, kept_lit, kept_markN, kept_copy, kept_zeroWrN, kept_ite, ite_self, implies_true, forall_const, kept_dmaStart]; done) | (intro _ _ hk) | with_reducible apply kept_ite | with_reducible apply kept_dmaStart | with_reducible exact kept_lit hk .. | dsimp only | split)

theorem kept_recallAll {z0 : State} (l : List Nat) {s : State} (hk : Kept z0 s) : Kept z0 (State.recallAll l s) := by
  unfold State.recallAll
  repeat' (first | with_reducible assumption | (simp (maxDischargeDepth := 100) +contextual only [hk, kept_lit, kept_markN, kept_copy, kept_zeroWrN, kept_ite, ite_self, implies_true, forall_const, kept_forEach, kept_startRecall]; done) | (with_reducible refine kept_forEach ?_ ?_) | (intro _ _ hk) | with_reducible apply kept_ite | with_reducible apply kept_startRecall | with_reducible exact kept_lit hk .. | dsimp only | split)

theorem kept_keepT2 {z0 : State} (a : Nat) {s : State} (hk : Kept z0 s) : Kept z0 (State.keepT2 a s) := by
  unfold State.keepT2
  repeat' (first | with_reducible assumption | (simp (maxDischargeDepth := 100) +contextual only [hk, kept_lit, kept_markN, kept_copy, kept_zeroWrN, kept_ite, ite_self, implies_true, forall_const, kept_modPower, kept_takeFree]; done) | (rename_i hq; have hz := congrArg Prod.snd hq; dsimp only at hz; subst hz; try clear hq) | (have hz := congrArg Prod.snd ‹_ = (_, _)›; dsimp only at hz; subst hz) | (intro _ _ hk) | with_reducible apply kept_ite | with_reducible apply kept_modPower | with_reducible apply kept_takeFree | with_reducible exact kept_lit hk .. | dsimp only | split)

theorem kept_dmaRead {z0 : State} (e : Nat) (w : Nat) (noted : Bool) (l : Loc) (n : Nat) (finding : ReadFinding) {s : State} (hk : Kept z0 s) : Kept z0 (State.dmaRead e w noted l n finding s).2 := by
  unfold State.dmaRead
  repeat' (first | with_reducible assumption | (simp (maxDischargeDepth := 100) +contextual only [hk, kept_lit, kept_markN, kept_copy, kept_zeroWrN, kept_ite, ite_self, implies_true, forall_const, kept_freeBytes, kept_keepT2, kept_modTiers, kept_recallAll, kept_scrubBad]; done) | (rename_i hq; have hz := congrArg Prod.snd hq; dsimp only at hz; subst hz; try clear hq) | (have hz := congrArg Prod.snd ‹_ = (_, _)›; dsimp only at hz; subst hz) | (intro _ _ hk) | with_reducible apply kept_ite | with_reducible apply kept_freeBytes | with_reducible apply kept_keepT2 | with_reducible apply kept_modTiers | with_reducible apply kept_recallAll | with_reducible apply kept_scrubBad | with_reducible exact kept_lit hk .. | dsimp only | split)

theorem kept_dmaWrite {z0 : State} (l : Loc) (b : Bytes) (poison : Bool) {s : State} (hk : Kept z0 s) : Kept z0 (State.dmaWrite l b poison s) := by
  unfold State.dmaWrite
  repeat' (first | with_reducible assumption | (simp (maxDischargeDepth := 100) +contextual only [hk, kept_lit, kept_markN, kept_copy, kept_zeroWrN, kept_ite, ite_self, implies_true, forall_const, kept_objPoison, kept_objWrite, kept_wr, kept_wrCompanion]; done) | (intro _ _ hk) | (with_reducible refine kept_zeroWrN ?_ ..) | (with_reducible refine kept_copy ?_ ..) | (with_reducible refine kept_markN ?_ ..) | with_reducible apply kept_ite | with_reducible apply kept_objPoison | with_reducible apply kept_objWrite | with_reducible apply kept_wr | with_reducible apply kept_wrCompanion | with_reducible exact kept_lit hk .. | dsimp only | split)

theorem kept_accessLine {z0 : State} (e : Nat) (w : Nat) (r : DmaRun) (finding : ReadFinding) (held : Bool) {s : State} (hk : Kept z0 s) : Kept z0 (State.accessLine e w r finding held s).2 := by
  unfold State.accessLine
  repeat' (first | with_reducible assumption | (simp (maxDischargeDepth := 100) +contextual only [hk, kept_lit, kept_markN, kept_copy, kept_zeroWrN, kept_ite, ite_self, implies_true, forall_const, kept_at, kept_dmaRead, kept_dmaWrite, kept_modMover, kept_recallAll]; done) | (rename_i hq; have hz := congrArg Prod.snd hq; dsimp only at hz; subst hz; try clear hq) | (have hz := congrArg Prod.snd ‹_ = (_, _)›; dsimp only at hz; subst hz) | (intro _ _ hk) | with_reducible apply kept_ite | with_reducible apply kept_at | with_reducible apply kept_dmaRead | with_reducible apply kept_dmaWrite | with_reducible apply kept_modMover | with_reducible apply kept_recallAll | with_reducible exact kept_lit hk .. | dsimp only | split)

theorem kept_access {z0 : State} (e : Nat) (radio : Bool) (r : DmaRun) (finding : ReadFinding) (held : Bool) {s : State} (hk : Kept z0 s) : Kept z0 (State.access e radio r finding held s) := by
  unfold State.access
  repeat' (first | with_reducible assumption | (simp (maxDischargeDepth := 100) +contextual only [hk, kept_lit, kept_markN, kept_copy, kept_zeroWrN, kept_ite, ite_self, implies_true, forall_const, kept_accessLine, kept_dmaNotify, kept_modChan, kept_modDma]; done) | (rename_i hq; have hz := congrArg Prod.snd hq; dsimp only at hz; subst hz; try clear hq) | (have hz := congrArg Prod.snd ‹_ = (_, _)›; dsimp only at hz; subst hz) | (intro _ _ hk) | with_reducible apply kept_ite | with_reducible apply kept_accessLine | with_reducible apply kept_dmaNotify | with_reducible apply kept_modChan | with_reducible apply kept_modDma | with_reducible exact kept_lit hk .. | dsimp only | split)

theorem kept_modCrossing {z0 : State} (g : Nat) (f : List ExtAccess → List ExtAccess) {s : State} (hk : Kept z0 s) : Kept z0 (State.modCrossing g f s) := by
  unfold State.modCrossing
  repeat' (first | with_reducible assumption | (simp (maxDischargeDepth := 100) +contextual only [hk, kept_lit, kept_markN, kept_copy, kept_zeroWrN, kept_ite, ite_self, implies_true, forall_const]; done) | (intro _ _ hk) | with_reducible apply kept_ite | with_reducible exact kept_lit hk .. | dsimp only | split)

theorem kept_present {z0 : State} (core : Nat) (src : ExtSource) {s : State} (hk : Kept z0 s) : Kept z0 (State.present core src s) := by
  unfold State.present
  repeat' (first | with_reducible assumption | (simp (maxDischargeDepth := 100) +contextual only [hk, kept_lit, kept_markN, kept_copy, kept_zeroWrN, kept_ite, ite_self, implies_true, forall_const, kept_modCrossing]; done) | (intro _ _ hk) | with_reducible apply kept_ite | with_reducible apply kept_modCrossing | with_reducible exact kept_lit hk .. | dsimp only | split)

theorem kept_lineAccess {z0 : State} (e : Fin 64) (radio : Bool) (r : DmaRun) (finding : ReadFinding) {s : State} (hk : Kept z0 s) : Kept z0 (State.lineAccess e radio r finding s) := by
  unfold State.lineAccess
  repeat' (first | with_reducible assumption | (simp (maxDischargeDepth := 100) +contextual only [hk, kept_lit, kept_markN, kept_copy, kept_zeroWrN, kept_ite, ite_self, implies_true, forall_const, kept_access, kept_present]; done) | (intro _ _ hk) | with_reducible apply kept_ite | with_reducible apply kept_access | with_reducible apply kept_present | with_reducible exact kept_lit hk .. | dsimp only | split)

theorem kept_execDmaLineAccess {z0 zt : State} (engine : Fin 64) (finding : ReadFinding) {s : State} (hk : Kept z0 s) (ht : execDmaLineAccess engine finding s = .next zt) : Kept z0 zt := by
  unfold execDmaLineAccess at ht
  cases ht
  repeat' (first | with_reducible assumption | (simp (maxDischargeDepth := 100) +contextual only [hk, kept_lit, kept_markN, kept_copy, kept_zeroWrN, kept_ite, ite_self, implies_true, forall_const, kept_lineAccess, kept_modDma]; done) | (intro _ _ hk) | with_reducible apply kept_ite | with_reducible apply kept_lineAccess | with_reducible apply kept_modDma | with_reducible exact kept_lit hk .. | dsimp only | split)

theorem kept_dmaFinish {z0 : State} (e : Nat) (radio : Bool) (r : DmaRun) {s : State} (hk : Kept z0 s) : Kept z0 (State.dmaFinish e radio r s) := by
  unfold State.dmaFinish
  repeat' (first | with_reducible assumption | (simp (maxDischargeDepth := 100) +contextual only [hk, kept_lit, kept_markN, kept_copy, kept_zeroWrN, kept_ite, ite_self, implies_true, forall_const, kept_dmaDone, kept_dmaStart, kept_modDma]; done) | (intro _ _ hk) | with_reducible apply kept_ite | with_reducible apply kept_dmaDone | with_reducible apply kept_dmaStart | with_reducible apply kept_modDma | with_reducible exact kept_lit hk .. | dsimp only | split)

theorem kept_execDmaDescriptorComplete {z0 zt : State} (engine : Fin 64) {s : State} (hk : Kept z0 s) (ht : execDmaDescriptorComplete engine s = .next zt) : Kept z0 zt := by
  unfold execDmaDescriptorComplete at ht
  cases ht
  repeat' (first | with_reducible assumption | (simp (maxDischargeDepth := 100) +contextual only [hk, kept_lit, kept_markN, kept_copy, kept_zeroWrN, kept_ite, ite_self, implies_true, forall_const, kept_dmaFinish, kept_settleDrained]; done) | (intro _ _ hk) | with_reducible apply kept_ite | with_reducible apply kept_dmaFinish | with_reducible apply kept_settleDrained | with_reducible exact kept_lit hk .. | dsimp only | split)

end Sys2Proof.Machine
end

