-- ==== Sys2Proof/Laws/KeptCells.lean ====
section
/-! SUPPORT. The operations of Sys2Proof/Machine/Cells.lean keep what every step keeps. -/

namespace Sys2Proof.Machine

set_option linter.all false
set_option Elab.async false

theorem kept_makePool {z0 : State} (mib : Nat) {s : State} (hk : Kept z0 s) : Kept z0 (State.makePool mib s).2 := by
  unfold State.makePool
  repeat' (first | with_reducible assumption | (simp (maxDischargeDepth := 100) +contextual only [hk, kept_lit, kept_markN, kept_copy, kept_zeroWrN, kept_ite, ite_self, implies_true, forall_const, kept_forEach, kept_nextOrder, kept_place, kept_zeroMem]; done) | (rename_i hq; have hz := congrArg Prod.snd hq; dsimp only at hz; subst hz; try clear hq) | (have hz := congrArg Prod.snd ‹_ = (_, _)›; dsimp only at hz; subst hz) | (with_reducible refine kept_forEach ?_ ?_) | (intro _ _ hk) | with_reducible apply kept_ite | with_reducible apply kept_nextOrder | with_reducible apply kept_place | with_reducible apply kept_zeroMem | with_reducible exact kept_lit hk .. | dsimp only | split)

theorem kept_dropPool {z0 : State} (e : Nat) {s : State} (hk : Kept z0 s) : Kept z0 (State.dropPool e s) := by
  unfold State.dropPool
  repeat' (first | with_reducible assumption | (simp (maxDischargeDepth := 100) +contextual only [hk, kept_lit, kept_markN, kept_copy, kept_zeroWrN, kept_ite, ite_self, implies_true, forall_const, kept_modObj]; done) | (intro _ _ hk) | with_reducible apply kept_ite | with_reducible apply kept_modObj | with_reducible exact kept_lit hk .. | dsimp only | split)

theorem kept_setPool {z0 : State} (c : Nat) (mib : Nat) {s : State} (hk : Kept z0 s) : Kept z0 (State.setPool c mib s) := by
  unfold State.setPool
  repeat' (first | with_reducible assumption | (simp (maxDischargeDepth := 100) +contextual only [hk, kept_lit, kept_markN, kept_copy, kept_zeroWrN, kept_ite, ite_self, implies_true, forall_const, kept_dropPool, kept_makePool, kept_modCell]; done) | (rename_i hq; have hz := congrArg Prod.snd hq; dsimp only at hz; subst hz; try clear hq) | (have hz := congrArg Prod.snd ‹_ = (_, _)›; dsimp only at hz; subst hz) | (intro _ _ hk) | with_reducible apply kept_ite | with_reducible apply kept_dropPool | with_reducible apply kept_makePool | with_reducible apply kept_modCell | with_reducible exact kept_lit hk .. | dsimp only | split)

theorem kept_setPortMode {z0 : State} (p : Nat) (mode : Nat) {s : State} (hk : Kept z0 s) : Kept z0 (State.setPortMode p mode s) := by
  unfold State.setPortMode
  repeat' (first | with_reducible assumption | (simp (maxDischargeDepth := 100) +contextual only [hk, kept_lit, kept_markN, kept_copy, kept_zeroWrN, kept_ite, ite_self, implies_true, forall_const, kept_forEach, kept_modFhPort, kept_modLane]; done) | (with_reducible refine kept_forEach ?_ ?_) | (intro _ _ hk) | with_reducible apply kept_ite | with_reducible apply kept_modFhPort | with_reducible apply kept_modLane | with_reducible exact kept_lit hk .. | dsimp only | split)

theorem kept_setCellPolicer {z0 : State} (c : Nat) (x : CellCfg) {s : State} (hk : Kept z0 s) : Kept z0 (State.setCellPolicer c x s) := by
  unfold State.setCellPolicer
  repeat' (first | with_reducible assumption | (simp (maxDischargeDepth := 100) +contextual only [hk, kept_lit, kept_markN, kept_copy, kept_zeroWrN, kept_ite, ite_self, implies_true, forall_const, kept_modLane]; done) | (intro _ _ hk) | with_reducible apply kept_ite | with_reducible apply kept_modLane | with_reducible exact kept_lit hk .. | dsimp only | split)

theorem kept_reassign {z0 : State} {s : State} (hk : Kept z0 s) : Kept z0 (State.reassign s) := by
  unfold State.reassign
  repeat' (first | with_reducible assumption | (simp (maxDischargeDepth := 100) +contextual only [hk, kept_lit, kept_markN, kept_copy, kept_zeroWrN, kept_ite, ite_self, implies_true, forall_const, kept_modShep]; done) | (intro _ _ hk) | with_reducible apply kept_ite | with_reducible apply kept_modShep | with_reducible exact kept_lit hk .. | dsimp only | split)

theorem kept_admitCell {z0 : State} (c : Nat) (inc : Nat) (notBefore : Nat) (x : CellCfg) {s : State} (hk : Kept z0 s) : Kept z0 (State.admitCell c inc notBefore x s) := by
  unfold State.admitCell
  repeat' (first | with_reducible assumption | (simp (maxDischargeDepth := 100) +contextual only [hk, kept_lit, kept_markN, kept_copy, kept_zeroWrN, kept_ite, ite_self, implies_true, forall_const, kept_modCell, kept_setCellPolicer, kept_setPool, kept_setPortMode]; done) | (intro _ _ hk) | with_reducible apply kept_ite | with_reducible apply kept_modCell | with_reducible apply kept_setCellPolicer | with_reducible apply kept_setPool | with_reducible apply kept_setPortMode | with_reducible exact kept_lit hk .. | dsimp only | split)

theorem kept_freeCellNo {z0 : State} (c : Nat) {s : State} (hk : Kept z0 s) : Kept z0 (State.freeCellNo c s) := by
  unfold State.freeCellNo
  repeat' (first | with_reducible assumption | (simp (maxDischargeDepth := 100) +contextual only [hk, kept_lit, kept_markN, kept_copy, kept_zeroWrN, kept_ite, ite_self, implies_true, forall_const, kept_dropPool, kept_modCell, kept_modLane, kept_modNrx]; done) | (intro _ _ hk) | with_reducible apply kept_ite | with_reducible apply kept_dropPool | with_reducible apply kept_modCell | with_reducible apply kept_modLane | with_reducible apply kept_modNrx | with_reducible exact kept_lit hk .. | dsimp only | split)

theorem kept_execCellAdd {z0 zt : State} (m : Fin 16) {s : State} (hk : Kept z0 s) (ht : execCellAdd m s = .next zt) : Kept z0 zt := by
  unfold execCellAdd at ht
  cases ht
  repeat' (first | with_reducible assumption | (simp (maxDischargeDepth := 100) +contextual only [hk, kept_lit, kept_markN, kept_copy, kept_zeroWrN, kept_ite, ite_self, implies_true, forall_const, kept_admitCell, kept_runCommand]; done) | (intro _ _ hk) | with_reducible apply kept_ite | with_reducible apply kept_admitCell | with_reducible apply kept_runCommand | with_reducible exact kept_lit hk .. | dsimp only | split)

theorem kept_execCellRemove {z0 zt : State} (m : Fin 16) {s : State} (hk : Kept z0 s) (ht : execCellRemove m s = .next zt) : Kept z0 zt := by
  unfold execCellRemove at ht
  cases ht
  repeat' (first | with_reducible assumption | (simp (maxDischargeDepth := 100) +contextual only [hk, kept_lit, kept_markN, kept_copy, kept_zeroWrN, kept_ite, ite_self, implies_true, forall_const, kept_modCell, kept_runCommand]; done) | (intro _ _ hk) | with_reducible apply kept_ite | with_reducible apply kept_modCell | with_reducible apply kept_runCommand | with_reducible exact kept_lit hk .. | dsimp only | split)

theorem kept_execCellReconfigure {z0 zt : State} (m : Fin 16) {s : State} (hk : Kept z0 s) (ht : execCellReconfigure m s = .next zt) : Kept z0 zt := by
  unfold execCellReconfigure at ht
  cases ht
  repeat' (first | with_reducible assumption | (simp (maxDischargeDepth := 100) +contextual only [hk, kept_lit, kept_markN, kept_copy, kept_zeroWrN, kept_ite, ite_self, implies_true, forall_const, kept_modCell, kept_runCommand]; done) | (intro _ _ hk) | with_reducible apply kept_ite | with_reducible apply kept_modCell | with_reducible apply kept_runCommand | with_reducible exact kept_lit hk .. | dsimp only | split)

theorem kept_settings {a s : State} (h : Kept a s) {x : Settings} (hx : s.settings.legal → x.legal) :
    Kept a { s with settings := x } :=
  ⟨h.pending, h.mem, fun l => hx (h.legal l), h.fuses, h.flash⟩

theorem kept_execRadioShareSet {z0 zt : State} (m : Fin 16) {s : State} (hk : Kept z0 s) (ht : execRadioShareSet m s = .next zt) :
    Kept z0 zt := by
  unfold execRadioShareSet at ht
  cases ht
  refine kept_runChecked (fun c hv => kept_settings hk (fun hl => ?_)) hk
  have := failIf_none (verdict_early hv (failIf (decide (50 < c.arg 0x20 1)) .badArg) (by simp))
  simp only [Settings.legal] at hl ⊢
  simp only [decide_eq_false_iff_not] at this
  omega

theorem kept_execPenumbraSet {z0 zt : State} (m : Fin 16) {s : State} (hk : Kept z0 s) (ht : execPenumbraSet m s = .next zt) :
    Kept z0 zt := by
  unfold execPenumbraSet at ht
  cases ht
  refine kept_runChecked (fun c hv => kept_settings hk (fun hl => ?_)) hk
  have := failIf_none (verdict_early hv (failIf (decide (c.arg 0x20 4 < 3000 ∨ 100000 < c.arg 0x20 4)) .badArg) (by simp))
  simp only [Settings.legal] at hl ⊢
  simp only [decide_eq_false_iff_not] at this
  omega

theorem kept_execNrxLoad {z0 zt : State} (m : Fin 16) {s : State} (hk : Kept z0 s) (ht : execNrxLoad m s = .next zt) : Kept z0 zt := by
  unfold execNrxLoad at ht
  cases ht
  repeat' (first | with_reducible assumption | (simp (maxDischargeDepth := 100) +contextual only [hk, kept_lit, kept_markN, kept_copy, kept_zeroWrN, kept_ite, ite_self, implies_true, forall_const, kept_extend, kept_forEach, kept_modFold, kept_modNrx, kept_runCommand]; done) | (with_reducible refine kept_forEach ?_ ?_) | (intro _ _ hk) | with_reducible apply kept_ite | with_reducible apply kept_extend | with_reducible apply kept_modFold | with_reducible apply kept_modNrx | with_reducible apply kept_runCommand | with_reducible exact kept_lit hk .. | dsimp only | split)

end Sys2Proof.Machine
end

