-- ==== Sys2Proof/Laws/KeptRadioOps.lean ====
section
/-! SUPPORT. The operations of Sys2Proof/Machine/RadioOps.lean keep what every step keeps. -/

namespace Sys2Proof.Machine

set_option linter.all false
set_option Elab.async false

theorem kept_rebuildShare {z0 : State} (f : Nat) (ctx : Nat) (base : Nat) (n : Nat) {s : State} (hk : Kept z0 s) : Kept z0 (State.rebuildShare f ctx base n s) := by
  unfold State.rebuildShare
  repeat' (first | with_reducible assumption | (simp (maxDischargeDepth := 100) +contextual only [hk, kept_lit, kept_markN, kept_copy, kept_zeroWrN, kept_ite, ite_self, implies_true, forall_const, kept_forEach, kept_zeroMem]; done) | (with_reducible refine kept_forEach ?_ ?_) | (intro _ _ hk) | (with_reducible refine kept_zeroWrN ?_ ..) | (with_reducible refine kept_copy ?_ ..) | (with_reducible refine kept_markN ?_ ..) | with_reducible apply kept_ite | with_reducible apply kept_zeroMem | with_reducible exact kept_lit hk .. | dsimp only | split)

theorem kept_placeRadioOn {z0 : State} (f : Nat) (d : TaskDesc) {s : State} (hk : Kept z0 s) : Kept z0 (State.placeRadioOn f d s) := by
  unfold State.placeRadioOn
  repeat' (first | with_reducible assumption | (simp (maxDischargeDepth := 100) +contextual only [hk, kept_lit, kept_markN, kept_copy, kept_zeroWrN, kept_ite, ite_self, implies_true, forall_const, kept_modFold, kept_rebuildShare]; done) | (intro _ _ hk) | with_reducible apply kept_ite | with_reducible apply kept_modFold | with_reducible apply kept_rebuildShare | with_reducible exact kept_lit hk .. | dsimp only | split)

theorem kept_ensureRadio {z0 : State} (f : Nat) {s : State} (hk : Kept z0 s) : Kept z0 (State.ensureRadio f s) := by
  unfold State.ensureRadio
  repeat' (first | with_reducible assumption | (simp (maxDischargeDepth := 100) +contextual only [hk, kept_lit, kept_markN, kept_copy, kept_zeroWrN, kept_ite, ite_self, implies_true, forall_const, kept_placeRadioOn]; done) | (intro _ _ hk) | with_reducible apply kept_ite | with_reducible apply kept_placeRadioOn | with_reducible exact kept_lit hk .. | dsimp only | split)

theorem kept_moveRank {z0 : State} (f : Nat) (slot : Nat) {s : State} (hk : Kept z0 s) : Kept z0 (State.moveRank f slot s) := by
  unfold State.moveRank
  repeat' (first | with_reducible assumption | (simp (maxDischargeDepth := 100) +contextual only [hk, kept_lit, kept_markN, kept_copy, kept_zeroWrN, kept_ite, ite_self, implies_true, forall_const, kept_modFold, kept_modTask]; done) | (intro _ _ hk) | with_reducible apply kept_ite | with_reducible apply kept_modFold | with_reducible apply kept_modTask | with_reducible exact kept_lit hk .. | dsimp only | split)

theorem kept_moveRadio {z0 : State} (f : Nat) {s : State} (hk : Kept z0 s) : Kept z0 (State.moveRadio f s) := by
  unfold State.moveRadio
  repeat' (first | with_reducible assumption | (simp (maxDischargeDepth := 100) +contextual only [hk, kept_lit, kept_markN, kept_copy, kept_zeroWrN, kept_ite, ite_self, implies_true, forall_const, kept_forEach, kept_moveRank]; done) | (with_reducible refine kept_forEach ?_ ?_) | (intro _ _ hk) | with_reducible apply kept_ite | with_reducible apply kept_moveRank | with_reducible exact kept_lit hk .. | dsimp only | split)

theorem kept_radioOn {z0 : State} (f : Nat) {s : State} (hk : Kept z0 s) : Kept z0 (State.radioOn f s) := by
  unfold State.radioOn
  repeat' (first | with_reducible assumption | (simp (maxDischargeDepth := 100) +contextual only [hk, kept_lit, kept_markN, kept_copy, kept_zeroWrN, kept_ite, ite_self, implies_true, forall_const, kept_ensureRadio, kept_moveRadio]; done) | (intro _ _ hk) | with_reducible apply kept_ite | with_reducible apply kept_ensureRadio | with_reducible apply kept_moveRadio | with_reducible exact kept_lit hk .. | dsimp only | split)

end Sys2Proof.Machine
end

