-- ==== Sys2Proof/Laws/KeptFoldCmds.lean ====
section
/-! SUPPORT. The operations of Sys2Proof/Machine/FoldCmds.lean keep what every step keeps. -/

namespace Sys2Proof.Machine

set_option linter.all false
set_option Elab.async false

theorem kept_endDebug {z0 : State} (u : UnitId) {s : State} (hk : Kept z0 s) : Kept z0 (State.endDebug u s) := by
  unfold State.endDebug
  repeat' (first | with_reducible assumption | (simp (maxDischargeDepth := 100) +contextual only [hk, kept_lit, kept_markN, kept_copy, kept_zeroWrN, kept_ite, ite_self, implies_true, forall_const, kept_radioOn, kept_setEntry]; done) | (intro _ _ hk) | with_reducible apply kept_ite | with_reducible apply kept_radioOn | with_reducible apply kept_setEntry | with_reducible exact kept_lit hk .. | dsimp only | split)

theorem kept_settleHold {z0 : State} (f : Nat) {s : State} (hk : Kept z0 s) : Kept z0 (State.settleHold f s) := by
  unfold State.settleHold
  repeat' (first | with_reducible assumption | (simp (maxDischargeDepth := 100) +contextual only [hk, kept_lit, kept_markN, kept_copy, kept_zeroWrN, kept_ite, ite_self, implies_true, forall_const, kept_modFold, kept_modMbox, kept_radioOn, kept_respond, kept_setEntry]; done) | (intro _ _ hk) | with_reducible apply kept_ite | with_reducible apply kept_modFold | with_reducible apply kept_modMbox | with_reducible apply kept_radioOn | with_reducible apply kept_respond | with_reducible apply kept_setEntry | with_reducible exact kept_lit hk .. | dsimp only | split)

theorem kept_settleHolds {z0 : State} {s : State} (hk : Kept z0 s) : Kept z0 (State.settleHolds s) := by
  unfold State.settleHolds
  repeat' (first | with_reducible assumption | (simp (maxDischargeDepth := 100) +contextual only [hk, kept_lit, kept_markN, kept_copy, kept_zeroWrN, kept_ite, ite_self, implies_true, forall_const, kept_forEach, kept_settleHold]; done) | (with_reducible refine kept_forEach ?_ ?_) | (intro _ _ hk) | with_reducible apply kept_ite | with_reducible apply kept_settleHold | with_reducible exact kept_lit hk .. | dsimp only | split)

theorem kept_execTileEnd {z0 zt : State} (fold : Fin 32) {s : State} (hk : Kept z0 s) (ht : execTileEnd fold s = .next zt) : Kept z0 zt := by
  unfold execTileEnd at ht
  cases ht
  repeat' (first | with_reducible assumption | (simp (maxDischargeDepth := 100) +contextual only [hk, kept_lit, kept_markN, kept_copy, kept_zeroWrN, kept_ite, ite_self, implies_true, forall_const, kept_endWithout, kept_leaveTile, kept_modFold, kept_settleDrained, kept_settleHold]; done) | (intro _ _ hk) | with_reducible apply kept_ite | with_reducible apply kept_endWithout | with_reducible apply kept_leaveTile | with_reducible apply kept_modFold | with_reducible apply kept_settleDrained | with_reducible apply kept_settleHold | with_reducible exact kept_lit hk .. | dsimp only | split)

theorem kept_execTileAbandon {z0 zt : State} (fold : Fin 32) (now : Nat) {s : State} (hk : Kept z0 s) (ht : execTileAbandon fold now s = .next zt) : Kept z0 zt := by
  unfold execTileAbandon at ht
  cases ht
  repeat' (first | with_reducible assumption | (simp (maxDischargeDepth := 100) +contextual only [hk, kept_lit, kept_markN, kept_copy, kept_zeroWrN, kept_ite, ite_self, implies_true, forall_const, kept_abandonTile, kept_at, kept_settleHold]; done) | (intro _ _ hk) | with_reducible apply kept_ite | with_reducible apply kept_abandonTile | with_reducible apply kept_at | with_reducible apply kept_settleHold | with_reducible exact kept_lit hk .. | dsimp only | split)

theorem kept_execGroupActionDone {z0 zt : State} (fold : Fin 32) (group : Fin 8) {s : State} (hk : Kept z0 s) (ht : execGroupActionDone fold group s = .next zt) : Kept z0 zt := by
  unfold execGroupActionDone at ht
  cases ht
  repeat' (first | with_reducible assumption | (simp (maxDischargeDepth := 100) +contextual only [hk, kept_lit, kept_markN, kept_copy, kept_zeroWrN, kept_ite, ite_self, implies_true, forall_const, kept_convertDone, kept_foldDone, kept_mergeDone, kept_modFold, kept_restoreDone, kept_settleHold, kept_spillDone, kept_targetDone]; done) | (intro _ _ hk) | with_reducible apply kept_ite | with_reducible apply kept_convertDone | with_reducible apply kept_foldDone | with_reducible apply kept_mergeDone | with_reducible apply kept_modFold | with_reducible apply kept_restoreDone | with_reducible apply kept_settleHold | with_reducible apply kept_spillDone | with_reducible apply kept_targetDone | with_reducible exact kept_lit hk .. | dsimp only | split)

theorem kept_execFoldDebugHold {z0 zt : State} (m : Fin 16) {s : State} (hk : Kept z0 s) (ht : execFoldDebugHold m s = .next zt) : Kept z0 zt := by
  unfold execFoldDebugHold at ht
  cases ht
  repeat' (first | with_reducible assumption | (simp (maxDischargeDepth := 100) +contextual only [hk, kept_lit, kept_markN, kept_copy, kept_zeroWrN, kept_ite, ite_self, implies_true, forall_const, kept_modFold, kept_respond, kept_settleHold]; done) | (intro _ _ hk) | with_reducible apply kept_ite | with_reducible apply kept_modFold | with_reducible apply kept_respond | with_reducible apply kept_settleHold | with_reducible exact kept_lit hk .. | dsimp only | split)

theorem kept_execFoldDebugRead {z0 zt : State} (m : Fin 16) {s : State} (hk : Kept z0 s) (ht : execFoldDebugRead m s = .next zt) : Kept z0 zt := by
  unfold execFoldDebugRead at ht
  cases ht
  repeat' (first | with_reducible assumption | (simp (maxDischargeDepth := 100) +contextual only [hk, kept_lit, kept_markN, kept_copy, kept_zeroWrN, kept_ite, ite_self, implies_true, forall_const, kept_accRecords, kept_runCommand, kept_wrCompanion]; done) | (rename_i hq; have hz := congrArg Prod.snd hq; dsimp only at hz; subst hz; try clear hq) | (have hz := congrArg Prod.snd ‹_ = (_, _)›; dsimp only at hz; subst hz) | (intro _ _ hk) | with_reducible apply kept_ite | with_reducible apply kept_accRecords | with_reducible apply kept_runCommand | with_reducible apply kept_wrCompanion | with_reducible exact kept_lit hk .. | dsimp only | split)

theorem kept_execFoldDebugRelease {z0 zt : State} (m : Fin 16) {s : State} (hk : Kept z0 s) (ht : execFoldDebugRelease m s = .next zt) : Kept z0 zt := by
  unfold execFoldDebugRelease at ht
  cases ht
  repeat' (first | with_reducible assumption | (simp (maxDischargeDepth := 100) +contextual only [hk, kept_lit, kept_markN, kept_copy, kept_zeroWrN, kept_ite, ite_self, implies_true, forall_const, kept_endDebug, kept_runCommand]; done) | (intro _ _ hk) | with_reducible apply kept_ite | with_reducible apply kept_endDebug | with_reducible apply kept_runCommand | with_reducible exact kept_lit hk .. | dsimp only | split)

end Sys2Proof.Machine
end

