-- ==== Sys2Proof/Laws/KeptVector.lean ====
section
/-! SUPPORT. The operations of Sys2Proof/Machine/Vector.lean keep what every step keeps. -/

namespace Sys2Proof.Machine

set_option linter.all false
set_option Elab.async false

theorem kept_containedIn {z0 : State} (f : Nat) (slot : Nat) (core : Nat) (bundle : Nat) (addr : Nat) (code : ContainedCode) {s : State} (hk : Kept z0 s) : Kept z0 (State.containedIn f slot core bundle addr code s) := by
  unfold State.containedIn
  repeat' (first | with_reducible assumption | (simp (maxDischargeDepth := 100) +contextual only [hk, kept_lit, kept_markN, kept_copy, kept_zeroWrN, kept_ite, ite_self, implies_true, forall_const, kept_evidence, kept_forEach, kept_modDisp, kept_modFold, kept_settleHolds]; done) | (with_reducible refine kept_forEach ?_ ?_) | (intro _ _ hk) | with_reducible apply kept_ite | with_reducible apply kept_evidence | with_reducible apply kept_modDisp | with_reducible apply kept_modFold | with_reducible apply kept_settleHolds | with_reducible exact kept_lit hk .. | dsimp only | split)

theorem kept_contextFault {z0 : State} (f : Nat) (slot : Nat) (core : Nat) (bundle : Nat) (addr : Nat) (code : ContainedCode) {s : State} (hk : Kept z0 s) : Kept z0 (State.contextFault f slot core bundle addr code s) := by
  unfold State.contextFault
  repeat' (first | with_reducible assumption | (simp (maxDischargeDepth := 100) +contextual only [hk, kept_lit, kept_markN, kept_copy, kept_zeroWrN, kept_ite, ite_self, implies_true, forall_const, kept_containedIn, kept_enterFenced]; done) | (intro _ _ hk) | with_reducible apply kept_ite | with_reducible apply kept_containedIn | with_reducible apply kept_enterFenced | with_reducible exact kept_lit hk .. | dsimp only | split)

theorem kept_execContainedFault {z0 zt : State} (fold : Fin 32) (slot : Fin 8) (place : FaultPlace) (code : ContainedCode) {s : State} (hk : Kept z0 s) (ht : execContainedFault fold slot place code s = .next zt) : Kept z0 zt := by
  unfold execContainedFault at ht
  cases ht
  repeat' (first | with_reducible assumption | (simp (maxDischargeDepth := 100) +contextual only [hk, kept_lit, kept_markN, kept_copy, kept_zeroWrN, kept_ite, ite_self, implies_true, forall_const, kept_contextFault, kept_place]; done) | (intro _ _ hk) | with_reducible apply kept_ite | with_reducible apply kept_contextFault | with_reducible apply kept_place | with_reducible exact kept_lit hk .. | dsimp only | split)

theorem kept_jobLost {z0 : State} (i : Nat) {s : State} (hk : Kept z0 s) : Kept z0 (State.jobLost i s) := by
  unfold State.jobLost
  repeat' (first | with_reducible assumption | (simp (maxDischargeDepth := 100) +contextual only [hk, kept_lit, kept_markN, kept_copy, kept_zeroWrN, kept_ite, ite_self, implies_true, forall_const, kept_raise]; done) | (intro _ _ hk) | with_reducible apply kept_ite | with_reducible apply kept_raise | with_reducible exact kept_lit hk .. | dsimp only | split)

theorem kept_dropContext {z0 : State} (inst : Nat) (ctx : Nat) {s : State} (hk : Kept z0 s) : Kept z0 (State.dropContext inst ctx s) := by
  unfold State.dropContext
  repeat' (first | with_reducible assumption | (simp (maxDischargeDepth := 100) +contextual only [hk, kept_lit, kept_markN, kept_copy, kept_zeroWrN, kept_ite, ite_self, implies_true, forall_const, kept_failTask, kept_forEach, kept_jobLost]; done) | (with_reducible refine kept_forEach ?_ ?_) | (intro _ _ hk) | with_reducible apply kept_ite | with_reducible apply kept_failTask | with_reducible apply kept_jobLost | with_reducible exact kept_lit hk .. | dsimp only | split)

theorem kept_execPartitionResetDone {z0 zt : State} {s : State} (hk : Kept z0 s) (ht : execPartitionResetDone s = .next zt) : Kept z0 zt := by
  unfold execPartitionResetDone at ht
  cases ht
  repeat' (first | with_reducible assumption | (simp (maxDischargeDepth := 100) +contextual only [hk, kept_lit, kept_markN, kept_copy, kept_zeroWrN, kept_ite, ite_self, implies_true, forall_const, kept_dropContext, kept_forEach, kept_jobLost, kept_leaveNow, kept_loseTask, kept_modDisp, kept_modFold, kept_modHealth, kept_settleHolds]; done) | (with_reducible refine kept_forEach ?_ ?_) | (intro _ _ hk) | with_reducible apply kept_ite | with_reducible apply kept_dropContext | with_reducible apply kept_jobLost | with_reducible apply kept_leaveNow | with_reducible apply kept_loseTask | with_reducible apply kept_modDisp | with_reducible apply kept_modFold | with_reducible apply kept_modHealth | with_reducible apply kept_settleHolds | with_reducible exact kept_lit hk .. | dsimp only | split)

theorem kept_shareWrite {z0 : State} (f : Nat) (slot : Nat) (a : Nat) (b : Bytes) {s : State} (hk : Kept z0 s) : Kept z0 (State.shareWrite f slot a b s) := by
  unfold State.shareWrite
  repeat' (first | with_reducible assumption | (simp (maxDischargeDepth := 100) +contextual only [hk, kept_lit, kept_markN, kept_copy, kept_zeroWrN, kept_ite, ite_self, implies_true, forall_const, kept_wr]; done) | (intro _ _ hk) | with_reducible apply kept_ite | with_reducible apply kept_wr | with_reducible exact kept_lit hk .. | dsimp only | split)

theorem kept_roundings {z0 : State} (f : Nat) (slot : Nat) (x0 : Nat) {s : State} (hk : Kept z0 s) : Kept z0 (State.roundings f slot x0 s).2 := by
  induction x0 generalizing s with
  | zero =>
    first | exact hk | (simp only [State.roundings]; repeat' (first | with_reducible assumption | with_reducible apply ih | (simp (maxDischargeDepth := 100) +contextual only [hk, kept_lit, kept_markN, kept_copy, kept_zeroWrN, kept_ite, ite_self, implies_true, forall_const, kept_takeFree]; done) | (rename_i hq; have hz := congrArg Prod.snd hq; dsimp only at hz; subst hz; try clear hq) | (rename_i hq; have hz := congrArg Prod.snd hq; dsimp only at hz; subst hz; try clear hq) | (have hz := congrArg Prod.snd ‹_ = (_, _)›; dsimp only at hz; subst hz) | (intro _ _ hk) | with_reducible apply kept_ite | with_reducible apply kept_takeFree | with_reducible exact kept_lit hk .. | dsimp only | split))
  | succ n ih =>
    simp only [State.roundings]
    repeat' (first | with_reducible assumption | with_reducible apply ih | (simp (maxDischargeDepth := 100) +contextual only [hk, kept_lit, kept_markN, kept_copy, kept_zeroWrN, kept_ite, ite_self, implies_true, forall_const, kept_takeFree]; done) | (rename_i hq; have hz := congrArg Prod.snd hq; dsimp only at hz; subst hz; try clear hq) | (rename_i hq; have hz := congrArg Prod.snd hq; dsimp only at hz; subst hz; try clear hq) | (have hz := congrArg Prod.snd ‹_ = (_, _)›; dsimp only at hz; subst hz) | (intro _ _ hk) | with_reducible apply kept_ite | with_reducible apply kept_takeFree | with_reducible exact kept_lit hk .. | dsimp only | split)

theorem kept_mxBytes {z0 : State} (code : Nat) (blk : Nat × List Nat) {s : State} (hk : Kept z0 s) : Kept z0 (State.mxBytes code blk s).2 := by
  unfold State.mxBytes
  repeat' (first | with_reducible assumption | (simp (maxDischargeDepth := 100) +contextual only [hk, kept_lit, kept_markN, kept_copy, kept_zeroWrN, kept_ite, ite_self, implies_true, forall_const, kept_freeBytes]; done) | (rename_i hq; have hz := congrArg Prod.snd hq; dsimp only at hz; subst hz; try clear hq) | (have hz := congrArg Prod.snd ‹_ = (_, _)›; dsimp only at hz; subst hz) | (intro _ _ hk) | with_reducible apply kept_ite | with_reducible apply kept_freeBytes | with_reducible exact kept_lit hk .. | dsimp only | split)

theorem kept_vectorOp {z0 : State} (f : Nat) (slot : Nat) (op : VOp) (v : VBundle) {s : State} (hk : Kept z0 s) : Kept z0 (State.vectorOp f slot op v s).1 := by
  unfold State.vectorOp
  repeat' (first | with_reducible assumption | (simp (maxDischargeDepth := 100) +contextual only [hk, kept_lit, kept_markN, kept_copy, kept_zeroWrN, kept_ite, ite_self, implies_true, forall_const, kept_forEach, kept_modTask, kept_mxBytes, kept_roundings, kept_shareWrite]; done) | (rename_i hq; have hz := congrArg Prod.snd hq; dsimp only at hz; subst hz; try clear hq) | (have hz := congrArg Prod.snd ‹_ = (_, _)›; dsimp only at hz; subst hz) | (with_reducible refine kept_forEach ?_ ?_) | (intro _ _ hk) | with_reducible apply kept_ite | with_reducible apply kept_modTask | with_reducible apply kept_mxBytes | with_reducible apply kept_roundings | with_reducible apply kept_shareWrite | with_reducible exact kept_lit hk .. | dsimp only | split)

theorem kept_fillIcache {z0 : State} (f : Nat) (core : Nat) (slot : Nat) (line : Nat) {s : State} (hk : Kept z0 s) : Kept z0 (State.fillIcache f core slot line s) := by
  unfold State.fillIcache
  repeat' (first | with_reducible assumption | (simp (maxDischargeDepth := 100) +contextual only [hk, kept_lit, kept_markN, kept_copy, kept_zeroWrN, kept_ite, ite_self, implies_true, forall_const, kept_modFold]; done) | (intro _ _ hk) | with_reducible apply kept_ite | with_reducible apply kept_modFold | with_reducible exact kept_lit hk .. | dsimp only | split)

theorem kept_issueVector {z0 : State} (f : Nat) (core : Nat) (b : Nat) (slot : Nat) (radio : Bool) (op : VOp) {s : State} (hk : Kept z0 s) : Kept z0 (State.issueVector f core b slot radio op s) := by
  unfold State.issueVector
  repeat' (first | with_reducible assumption | (simp (maxDischargeDepth := 100) +contextual only [hk, kept_lit, kept_markN, kept_copy, kept_zeroWrN, kept_ite, ite_self, implies_true, forall_const, kept_contextFault, kept_fetch, kept_fillIcache, kept_modFold, kept_vectorOp]; done) | (rename_i hq; have hz := congrArg Prod.snd (congrArg Prod.snd hq); dsimp only at hz; subst hz; try clear hq) | (rename_i hq; have hz := congrArg Prod.snd hq; dsimp only at hz; subst hz; try clear hq) | (have hz := congrArg Prod.snd ‹_ = (_, _)›; dsimp only at hz; subst hz) | (have hz := congrArg Prod.snd (congrArg Prod.snd ‹_ = (_, _, _)›); dsimp only at hz; subst hz) | (have hz := congrArg Prod.fst ‹_ = (_, _)›; dsimp only at hz; subst hz) | (intro _ _ hk) | with_reducible apply kept_ite | with_reducible apply kept_contextFault | with_reducible apply kept_fetch | with_reducible apply kept_fillIcache | with_reducible apply kept_modFold | with_reducible apply kept_vectorOp | with_reducible exact kept_lit hk .. | dsimp only | split)

theorem kept_execVectorIssue {z0 zt : State} (fold : Fin 32) (core : Fin 16) (radio : Bool) (op : VOp) {s : State} (hk : Kept z0 s) (ht : execVectorIssue fold core radio op s = .next zt) : Kept z0 zt := by
  unfold execVectorIssue at ht
  cases ht
  repeat' (first | with_reducible assumption | (simp (maxDischargeDepth := 100) +contextual only [hk, kept_lit, kept_markN, kept_copy, kept_zeroWrN, kept_ite, ite_self, implies_true, forall_const, kept_issueVector]; done) | (intro _ _ hk) | with_reducible apply kept_ite | with_reducible apply kept_issueVector | with_reducible exact kept_lit hk .. | dsimp only | split)

theorem kept_modCollector {z0 : State} (d : Nat) (f : Collector → Collector) {s : State} (hk : Kept z0 s) : Kept z0 (State.modCollector d f s) := by
  unfold State.modCollector
  repeat' (first | with_reducible assumption | (simp (maxDischargeDepth := 100) +contextual only [hk, kept_lit, kept_markN, kept_copy, kept_zeroWrN, kept_ite, ite_self, implies_true, forall_const, kept_modDisp]; done) | (intro _ _ hk) | with_reducible apply kept_ite | with_reducible apply kept_modDisp | with_reducible exact kept_lit hk .. | dsimp only | split)

theorem kept_writeRecord {z0 : State} (r : CmpRec) {s : State} (hk : Kept z0 s) : Kept z0 (State.writeRecord r s) := by
  unfold State.writeRecord
  repeat' (first | with_reducible assumption | (simp (maxDischargeDepth := 100) +contextual only [hk, kept_lit, kept_markN, kept_copy, kept_zeroWrN, kept_ite, ite_self, implies_true, forall_const, kept_addCompletion, kept_provLeaf, kept_staleDiscard]; done) | (intro _ _ hk) | with_reducible apply kept_ite | with_reducible apply kept_addCompletion | with_reducible apply kept_provLeaf | with_reducible apply kept_staleDiscard | with_reducible exact kept_lit hk .. | dsimp only | split)

theorem kept_takeFrom {z0 : State} (d : Nat) (f : Nat) {s : State} (hk : Kept z0 s) : Kept z0 (State.takeFrom d f s) := by
  unfold State.takeFrom
  repeat' (first | with_reducible assumption | (simp (maxDischargeDepth := 100) +contextual only [hk, kept_lit, kept_markN, kept_copy, kept_zeroWrN, kept_ite, ite_self, implies_true, forall_const, kept_modCollector, kept_modFold, kept_writeRecord]; done) | (intro _ _ hk) | with_reducible apply kept_ite | with_reducible apply kept_modCollector | with_reducible apply kept_modFold | with_reducible apply kept_writeRecord | with_reducible exact kept_lit hk .. | dsimp only | split)

theorem kept_flushDirect {z0 : State} (x0 : List CmpRec) {s : State} (hk : Kept z0 s) : Kept z0 (State.flushDirect x0 s) := by
  induction x0 generalizing s with
  | nil =>
    first | exact hk | (simp only [State.flushDirect]; repeat' (first | with_reducible assumption | with_reducible apply ih | (simp (maxDischargeDepth := 100) +contextual only [hk, kept_lit, kept_markN, kept_copy, kept_zeroWrN, kept_ite, ite_self, implies_true, forall_const, kept_modDisp, kept_writeRecord]; done) | (intro _ _ hk) | with_reducible apply kept_ite | with_reducible apply kept_modDisp | with_reducible apply kept_writeRecord | with_reducible exact kept_lit hk .. | dsimp only | split))
  | cons x r ih =>
    simp only [State.flushDirect]
    repeat' (first | with_reducible assumption | with_reducible apply ih | (simp (maxDischargeDepth := 100) +contextual only [hk, kept_lit, kept_markN, kept_copy, kept_zeroWrN, kept_ite, ite_self, implies_true, forall_const, kept_modDisp, kept_writeRecord]; done) | (intro _ _ hk) | with_reducible apply kept_ite | with_reducible apply kept_modDisp | with_reducible apply kept_writeRecord | with_reducible exact kept_lit hk .. | dsimp only | split)

theorem kept_execCollectorCycle {z0 zt : State} (die : Fin 2) {s : State} (hk : Kept z0 s) (ht : execCollectorCycle die s = .next zt) : Kept z0 zt := by
  unfold execCollectorCycle at ht
  cases ht
  repeat' (first | with_reducible assumption | (simp (maxDischargeDepth := 100) +contextual only [hk, kept_lit, kept_markN, kept_copy, kept_zeroWrN, kept_ite, ite_self, implies_true, forall_const, kept_flushDirect, kept_forEach, kept_modCollector, kept_takeFrom]; done) | (with_reducible refine kept_forEach ?_ ?_) | (intro _ _ hk) | with_reducible apply kept_ite | with_reducible apply kept_flushDirect | with_reducible apply kept_modCollector | with_reducible apply kept_takeFrom | with_reducible exact kept_lit hk .. | dsimp only | split)

theorem kept_closePenumbra {z0 : State} (f : Nat) {s : State} (hk : Kept z0 s) : Kept z0 (State.closePenumbra f s) := by
  unfold State.closePenumbra
  repeat' (first | with_reducible assumption | (simp (maxDischargeDepth := 100) +contextual only [hk, kept_lit, kept_markN, kept_copy, kept_zeroWrN, kept_ite, ite_self, implies_true, forall_const, kept_modFold, kept_modShep]; done) | (intro _ _ hk) | with_reducible apply kept_ite | with_reducible apply kept_modFold | with_reducible apply kept_modShep | with_reducible exact kept_lit hk .. | dsimp only | split)

theorem kept_endWindow {z0 : State} (w : Nat) {s : State} (hk : Kept z0 s) : Kept z0 (State.endWindow w s) := by
  unfold State.endWindow
  repeat' (first | with_reducible assumption | (simp (maxDischargeDepth := 100) +contextual only [hk, kept_lit, kept_markN, kept_copy, kept_zeroWrN, kept_ite, ite_self, implies_true, forall_const, kept_closePenumbra, kept_forEach, kept_modShep]; done) | (with_reducible refine kept_forEach ?_ ?_) | (intro _ _ hk) | with_reducible apply kept_ite | with_reducible apply kept_closePenumbra | with_reducible apply kept_modShep | with_reducible exact kept_lit hk .. | dsimp only | split)

theorem kept_fire {z0 : State} (a : BarrierAction) {s : State} (hk : Kept z0 s) : Kept z0 (State.fire a s) := by
  unfold State.fire
  repeat' (first | with_reducible assumption | (simp (maxDischargeDepth := 100) +contextual only [hk, kept_lit, kept_markN, kept_copy, kept_zeroWrN, kept_ite, ite_self, implies_true, forall_const, kept_endWindow, kept_modDisp]; done) | (intro _ _ hk) | with_reducible apply kept_ite | with_reducible apply kept_endWindow | with_reducible apply kept_modDisp | with_reducible exact kept_lit hk .. | dsimp only | split)

theorem kept_barrierCount {z0 : State} (b : Nat) {s : State} (hk : Kept z0 s) : Kept z0 (State.barrierCount b s) := by
  unfold State.barrierCount
  repeat' (first | with_reducible assumption | (simp (maxDischargeDepth := 100) +contextual only [hk, kept_lit, kept_markN, kept_copy, kept_zeroWrN, kept_ite, ite_self, implies_true, forall_const, kept_fire, kept_modBarrier]; done) | (intro _ _ hk) | with_reducible apply kept_ite | with_reducible apply kept_fire | with_reducible apply kept_modBarrier | with_reducible exact kept_lit hk .. | dsimp only | split)

theorem kept_execBarrierAdd {z0 zt : State} (b : Fin 256) {s : State} (hk : Kept z0 s) (ht : execBarrierAdd b s = .next zt) : Kept z0 zt := by
  unfold execBarrierAdd at ht
  cases ht
  repeat' (first | with_reducible assumption | (simp (maxDischargeDepth := 100) +contextual only [hk, kept_lit, kept_markN, kept_copy, kept_zeroWrN, kept_ite, ite_self, implies_true, forall_const, kept_barrierCount, kept_modDisp]; done) | (intro _ _ hk) | with_reducible apply kept_ite | with_reducible apply kept_barrierCount | with_reducible apply kept_modDisp | with_reducible exact kept_lit hk .. | dsimp only | split)

end Sys2Proof.Machine
end

