-- ==== Sys2Proof/Laws/KeptSignalCores.lean ====
section
/-! SUPPORT. The operations of Sys2Proof/Machine/SignalCores.lean keep what every step keeps. -/

namespace Sys2Proof.Machine

set_option linter.all false
set_option Elab.async false

theorem kept_fit16 {z0 : State} (v : Int) {s : State} (hk : Kept z0 s) : Kept z0 (State.fit16 v s).2 := by
  unfold State.fit16
  repeat' (first | with_reducible assumption | (simp (maxDischargeDepth := 100) +contextual only [hk, kept_lit, kept_markN, kept_copy, kept_zeroWrN, kept_ite, ite_self, implies_true, forall_const, kept_takeFree]; done) | (rename_i hq; have hz := congrArg Prod.snd hq; dsimp only at hz; subst hz; try clear hq) | (have hz := congrArg Prod.snd ‹_ = (_, _)›; dsimp only at hz; subst hz) | (intro _ _ hk) | with_reducible apply kept_ite | with_reducible apply kept_takeFree | with_reducible exact kept_lit hk .. | dsimp only | split)

theorem kept_free16 {z0 : State} {s : State} (hk : Kept z0 s) : Kept z0 (State.free16 s).2 := by
  unfold State.free16
  repeat' (first | with_reducible assumption | (simp (maxDischargeDepth := 100) +contextual only [hk, kept_lit, kept_markN, kept_copy, kept_zeroWrN, kept_ite, ite_self, implies_true, forall_const, kept_takeFree]; done) | (rename_i hq; have hz := congrArg Prod.snd hq; dsimp only at hz; subst hz; try clear hq) | (have hz := congrArg Prod.snd ‹_ = (_, _)›; dsimp only at hz; subst hz) | (intro _ _ hk) | with_reducible apply kept_ite | with_reducible apply kept_takeFree | with_reducible exact kept_lit hk .. | dsimp only | split)

theorem kept_laneOps {z0 : State} (op : LaneOp) (x0 : List ((Int × Int) × (Int × Int))) {s : State} (hk : Kept z0 s) : Kept z0 (State.laneOps op x0 s).2 := by
  induction x0 generalizing s with
  | nil =>
    first | exact hk | (simp only [State.laneOps]; repeat' (first | with_reducible assumption | with_reducible apply ih | (simp (maxDischargeDepth := 100) +contextual only [hk, kept_lit, kept_markN, kept_copy, kept_zeroWrN, kept_ite, ite_self, implies_true, forall_const, kept_fit16, kept_free16]; done) | (rename_i hq; have hz := congrArg Prod.snd hq; dsimp only at hz; subst hz; try clear hq) | (rename_i hq; have hz := congrArg Prod.snd hq; dsimp only at hz; subst hz; try clear hq) | (have hz := congrArg Prod.snd ‹_ = (_, _)›; dsimp only at hz; subst hz) | (intro _ _ hk) | with_reducible apply kept_ite | with_reducible apply kept_fit16 | with_reducible apply kept_free16 | with_reducible exact kept_lit hk .. | dsimp only | split))
  | cons x r ih =>
    simp only [State.laneOps]
    repeat' (first | with_reducible assumption | with_reducible apply ih | (simp (maxDischargeDepth := 100) +contextual only [hk, kept_lit, kept_markN, kept_copy, kept_zeroWrN, kept_ite, ite_self, implies_true, forall_const, kept_fit16, kept_free16]; done) | (rename_i hq; have hz := congrArg Prod.snd hq; dsimp only at hz; subst hz; try clear hq) | (rename_i hq; have hz := congrArg Prod.snd hq; dsimp only at hz; subst hz; try clear hq) | (have hz := congrArg Prod.snd ‹_ = (_, _)›; dsimp only at hz; subst hz) | (intro _ _ hk) | with_reducible apply kept_ite | with_reducible apply kept_fit16 | with_reducible apply kept_free16 | with_reducible exact kept_lit hk .. | dsimp only | split)

theorem kept_SigCore_aSlot {z0 : State} (op : AOp) (r : SigCore) (c : SigCore) {s : State} (hk : Kept z0 s) : Kept z0 (SigCore.aSlot op r c s).2 := by
  unfold SigCore.aSlot
  repeat' (first | with_reducible assumption | (simp (maxDischargeDepth := 100) +contextual only [hk, kept_lit, kept_markN, kept_copy, kept_zeroWrN, kept_ite, ite_self, implies_true, forall_const, kept_fit16, kept_laneOps]; done) | (rename_i hq; have hz := congrArg Prod.snd hq; dsimp only at hz; subst hz; try clear hq) | (have hz := congrArg Prod.snd ‹_ = (_, _)›; dsimp only at hz; subst hz) | (intro _ _ hk) | with_reducible apply kept_ite | with_reducible apply kept_fit16 | with_reducible apply kept_laneOps | with_reducible exact kept_lit hk .. | dsimp only | split)

theorem kept_scalar {z0 : State} (op : SAlu) (a : W32) (b : W32) {s : State} (hk : Kept z0 s) : Kept z0 (State.scalar op a b s).2 := by
  unfold State.scalar
  repeat' (first | with_reducible assumption | (simp (maxDischargeDepth := 100) +contextual only [hk, kept_lit, kept_markN, kept_copy, kept_zeroWrN, kept_ite, ite_self, implies_true, forall_const, kept_takeFree]; done) | (rename_i hq; have hz := congrArg Prod.snd hq; dsimp only at hz; subst hz; try clear hq) | (have hz := congrArg Prod.snd ‹_ = (_, _)›; dsimp only at hz; subst hz) | (intro _ _ hk) | with_reducible apply kept_ite | with_reducible apply kept_takeFree | with_reducible exact kept_lit hk .. | dsimp only | split)

theorem kept_SigCore_cSlot {z0 : State} (core : Nat) (op : COp) (a : Nat) (r : SigCore) (c : SigCore) {s : State} (hk : Kept z0 s) : Kept z0 (SigCore.cSlot core op a r c s).2 := by
  unfold SigCore.cSlot
  repeat' (first | with_reducible assumption | (simp (maxDischargeDepth := 100) +contextual only [hk, kept_lit, kept_markN, kept_copy, kept_zeroWrN, kept_ite, ite_self, implies_true, forall_const, kept_raiseIrq, kept_scalar]; done) | (rename_i hq; have hz := congrArg Prod.snd hq; dsimp only at hz; subst hz; try clear hq) | (have hz := congrArg Prod.snd ‹_ = (_, _)›; dsimp only at hz; subst hz) | (intro _ _ hk) | with_reducible apply kept_ite | with_reducible apply kept_raiseIrq | with_reducible apply kept_scalar | with_reducible exact kept_lit hk .. | dsimp only | split)

theorem kept_coreFault {z0 : State} (core : Nat) (code : Nat) (addr : Nat) {s : State} (hk : Kept z0 s) : Kept z0 (State.coreFault core code addr s) := by
  unfold State.coreFault
  repeat' (first | with_reducible assumption | (simp (maxDischargeDepth := 100) +contextual only [hk, kept_lit, kept_markN, kept_copy, kept_zeroWrN, kept_ite, ite_self, implies_true, forall_const, kept_enterFenced, kept_modSigCore, kept_setUnit]; done) | (intro _ _ hk) | with_reducible apply kept_ite | with_reducible apply kept_enterFenced | with_reducible apply kept_modSigCore | with_reducible apply kept_setUnit | with_reducible exact kept_lit hk .. | dsimp only | split)

theorem kept_writeStore {z0 : State} (core : Nat) {s : State} (hk : Kept z0 s) : Kept z0 (State.writeStore core s) := by
  unfold State.writeStore
  repeat' (first | with_reducible assumption | (simp (maxDischargeDepth := 100) +contextual only [hk, kept_lit, kept_markN, kept_copy, kept_zeroWrN, kept_ite, ite_self, implies_true, forall_const, kept_modSigCore, kept_wr]; done) | (intro _ _ hk) | with_reducible apply kept_ite | with_reducible apply kept_modSigCore | with_reducible apply kept_wr | with_reducible exact kept_lit hk .. | dsimp only | split)

theorem kept_issueBundle {z0 : State} (core : Nat) (b : Bundle) (ecc : ScEcc) (taken : Bool) {s : State} (hk : Kept z0 s) : Kept z0 (State.issueBundle core b ecc taken s) := by
  unfold State.issueBundle
  repeat' (first | with_reducible assumption | (simp (maxDischargeDepth := 100) +contextual only [hk, kept_lit, kept_markN, kept_copy, kept_zeroWrN, kept_ite, ite_self, implies_true, forall_const, kept_SigCore_aSlot, kept_SigCore_cSlot, kept_access, kept_coreFault, kept_modSigCore, kept_writeStore]; done) | (rename_i hq; have hz := congrArg Prod.snd hq; dsimp only at hz; subst hz; try clear hq) | (have hz := congrArg Prod.snd ‹_ = (_, _)›; dsimp only at hz; subst hz) | (intro _ _ hk) | with_reducible apply kept_ite | with_reducible apply kept_SigCore_aSlot | with_reducible apply kept_SigCore_cSlot | with_reducible apply kept_access | with_reducible apply kept_coreFault | with_reducible apply kept_modSigCore | with_reducible apply kept_writeStore | with_reducible exact kept_lit hk .. | dsimp only | split)

theorem kept_idleCycle {z0 : State} (core : Nat) (taken : Bool) (f : SigCore → SigCore) {s : State} (hk : Kept z0 s) : Kept z0 (State.idleCycle core taken f s) := by
  unfold State.idleCycle
  repeat' (first | with_reducible assumption | (simp (maxDischargeDepth := 100) +contextual only [hk, kept_lit, kept_markN, kept_copy, kept_zeroWrN, kept_ite, ite_self, implies_true, forall_const, kept_modSigCore, kept_writeStore]; done) | (intro _ _ hk) | with_reducible apply kept_ite | with_reducible apply kept_modSigCore | with_reducible apply kept_writeStore | with_reducible exact kept_lit hk .. | dsimp only | split)

theorem kept_runBundle {z0 : State} (core : Nat) (ecc : ScEcc) (taken : Bool) {s : State} (hk : Kept z0 s) : Kept z0 (State.runBundle core ecc taken s) := by
  unfold State.runBundle
  repeat' (first | with_reducible assumption | (simp (maxDischargeDepth := 100) +contextual only [hk, kept_lit, kept_markN, kept_copy, kept_zeroWrN, kept_ite, ite_self, implies_true, forall_const, kept_idleCycle, kept_issueBundle, kept_modSigCore]; done) | (intro _ _ hk) | with_reducible apply kept_ite | with_reducible apply kept_idleCycle | with_reducible apply kept_issueBundle | with_reducible apply kept_modSigCore | with_reducible exact kept_lit hk .. | dsimp only | split)

theorem kept_execBundleIssue {z0 zt : State} (core : Fin 384) (irq : ScIrq) (ecc : ScEcc) {s : State} (hk : Kept z0 s) (ht : execBundleIssue core irq ecc s = .next zt) : Kept z0 zt := by
  unfold execBundleIssue at ht
  cases ht
  repeat' (first | with_reducible assumption | (simp (maxDischargeDepth := 100) +contextual only [hk, kept_lit, kept_markN, kept_copy, kept_zeroWrN, kept_ite, ite_self, implies_true, forall_const, kept_idleCycle, kept_modCrossing, kept_modSigCore, kept_raiseIrq, kept_runBundle]; done) | (intro _ _ hk) | with_reducible apply kept_ite | with_reducible apply kept_idleCycle | with_reducible apply kept_modCrossing | with_reducible apply kept_modSigCore | with_reducible apply kept_raiseIrq | with_reducible apply kept_runBundle | with_reducible exact kept_lit hk .. | dsimp only | split)

theorem kept_serveExt {z0 : State} (core : Nat) (x : ExtAccess) (finding : ReadFinding) {s : State} (hk : Kept z0 s) : Kept z0 (State.serveExt core x finding s) := by
  unfold State.serveExt
  repeat' (first | with_reducible assumption | (simp (maxDischargeDepth := 100) +contextual only [hk, kept_lit, kept_markN, kept_copy, kept_zeroWrN, kept_ite, ite_self, implies_true, forall_const, kept_access, kept_modCrossing]; done) | (intro _ _ hk) | with_reducible apply kept_ite | with_reducible apply kept_access | with_reducible apply kept_modCrossing | with_reducible exact kept_lit hk .. | dsimp only | split)

theorem kept_execLdmExtAccess {z0 zt : State} (core : Fin 384) (arrives : Option ExtSource) (finding : ReadFinding) {s : State} (hk : Kept z0 s) (ht : execLdmExtAccess core arrives finding s = .next zt) : Kept z0 zt := by
  unfold execLdmExtAccess at ht
  cases ht
  repeat' (first | with_reducible assumption | (simp (maxDischargeDepth := 100) +contextual only [hk, kept_lit, kept_markN, kept_copy, kept_zeroWrN, kept_ite, ite_self, implies_true, forall_const, kept_modSigCore, kept_present, kept_serveExt]; done) | (intro _ _ hk) | with_reducible apply kept_ite | with_reducible apply kept_modSigCore | with_reducible apply kept_present | with_reducible apply kept_serveExt | with_reducible exact kept_lit hk .. | dsimp only | split)

theorem kept_execProgramLoad {z0 zt : State} (group : Fin 48) (cores : List (Fin 8)) (image : ImageRange) (start : BitVec 12) {s : State} (hk : Kept z0 s) (ht : execProgramLoad group cores image start s = .next zt) : Kept z0 zt := by
  unfold execProgramLoad at ht
  cases ht
  repeat' (first | with_reducible assumption | (simp (maxDischargeDepth := 100) +contextual only [hk, kept_lit, kept_markN, kept_copy, kept_zeroWrN, kept_ite, ite_self, implies_true, forall_const, kept_emit, kept_forEach, kept_modSigCore]; done) | (with_reducible refine kept_forEach ?_ ?_) | (intro _ _ hk) | with_reducible apply kept_ite | with_reducible apply kept_emit | with_reducible apply kept_modSigCore | with_reducible exact kept_lit hk .. | dsimp only | split)

end Sys2Proof.Machine
end

