-- ==== Sys2Proof/Laws/KeptEngines.lean ====
section
/-! SUPPORT. The operations of Sys2Proof/Machine/Engines.lean keep what every step keeps. -/

namespace Sys2Proof.Machine

set_option linter.all false
set_option Elab.async false

theorem kept_objWriteAll {z0 : State} (e : Nat) (x0 : Nat) (x1 : Nat) (x2 : Bytes) {s : State} (hk : Kept z0 s) : Kept z0 (State.objWriteAll e x0 x1 x2 s) := by
  induction x0 generalizing x1 x2 s with
  | zero =>
    first | exact hk | (simp only [State.objWriteAll]; repeat' (first | with_reducible assumption | with_reducible apply ih | (simp (maxDischargeDepth := 100) +contextual only [hk, kept_lit, kept_markN, kept_copy, kept_zeroWrN, kept_ite, ite_self, implies_true, forall_const, kept_objWrite]; done) | (intro _ _ hk) | with_reducible apply kept_ite | with_reducible apply kept_objWrite | with_reducible exact kept_lit hk .. | dsimp only | split))
  | succ n ih =>
    simp only [State.objWriteAll]
    repeat' (first | with_reducible assumption | with_reducible apply ih | (simp (maxDischargeDepth := 100) +contextual only [hk, kept_lit, kept_markN, kept_copy, kept_zeroWrN, kept_ite, ite_self, implies_true, forall_const, kept_objWrite]; done) | (intro _ _ hk) | with_reducible apply kept_ite | with_reducible apply kept_objWrite | with_reducible exact kept_lit hk .. | dsimp only | split)

theorem kept_softWrite {z0 : State} (b : Bytes) (e : Nat) (comb : List Bytes) (crcOk : Bool) {s : State} (hk : Kept z0 s) : Kept z0 (State.softWrite b e comb crcOk s) := by
  unfold State.softWrite
  repeat' (first | with_reducible assumption | (simp (maxDischargeDepth := 100) +contextual only [hk, kept_lit, kept_markN, kept_copy, kept_zeroWrN, kept_ite, ite_self, implies_true, forall_const, kept_forEach, kept_objWriteAll]; done) | (with_reducible refine kept_forEach ?_ ?_) | (intro _ _ hk) | with_reducible apply kept_ite | with_reducible apply kept_objWriteAll | with_reducible exact kept_lit hk .. | dsimp only | split)

theorem kept_engineDone {z0 : State} (b : Bytes) {s : State} (hk : Kept z0 s) : Kept z0 (State.engineDone b s) := by
  unfold State.engineDone
  repeat' (first | with_reducible assumption | (simp (maxDischargeDepth := 100) +contextual only [hk, kept_lit, kept_markN, kept_copy, kept_zeroWrN, kept_ite, ite_self, implies_true, forall_const, kept_emit, kept_raiseIrq]; done) | (intro _ _ hk) | with_reducible apply kept_ite | with_reducible apply kept_emit | with_reducible apply kept_raiseIrq | with_reducible exact kept_lit hk .. | dsimp only | split)

theorem kept_putStatus {z0 : State} (b : Bytes) (r : Bytes) {s : State} (hk : Kept z0 s) : Kept z0 (State.putStatus b r s) := by
  unfold State.putStatus
  repeat' (first | with_reducible assumption | (simp (maxDischargeDepth := 100) +contextual only [hk, kept_lit, kept_markN, kept_copy, kept_zeroWrN, kept_ite, ite_self, implies_true, forall_const, kept_wr]; done) | (intro _ _ hk) | with_reducible apply kept_ite | with_reducible apply kept_wr | with_reducible exact kept_lit hk .. | dsimp only | split)

theorem kept_queueJob {z0 : State} (engine : Nat) (b : Bytes) {s : State} (hk : Kept z0 s) : Kept z0 (State.queueJob engine b s) := by
  unfold State.queueJob
  repeat' (first | with_reducible assumption | (simp (maxDischargeDepth := 100) +contextual only [hk, kept_lit, kept_markN, kept_copy, kept_zeroWrN, kept_ite, ite_self, implies_true, forall_const, kept_engineDone, kept_modEngine, kept_putStatus]; done) | (intro _ _ hk) | with_reducible apply kept_ite | with_reducible apply kept_engineDone | with_reducible apply kept_modEngine | with_reducible apply kept_putStatus | with_reducible exact kept_lit hk .. | dsimp only | split)

theorem kept_releaseHeld {z0 : State} (engine : Nat) {s : State} (hk : Kept z0 s) : Kept z0 (State.releaseHeld engine s) := by
  unfold State.releaseHeld
  repeat' (first | with_reducible assumption | (simp (maxDischargeDepth := 100) +contextual only [hk, kept_lit, kept_markN, kept_copy, kept_zeroWrN, kept_ite, ite_self, implies_true, forall_const, kept_emit, kept_forEach, kept_modEngine, kept_queueJob]; done) | (with_reducible refine kept_forEach ?_ ?_) | (intro _ _ hk) | with_reducible apply kept_ite | with_reducible apply kept_emit | with_reducible apply kept_modEngine | with_reducible apply kept_queueJob | with_reducible exact kept_lit hk .. | dsimp only | split)

theorem kept_execJobPost {z0 zt : State} (engine : Fin 100) (fromWindow : Bool) (job : Bytes) {s : State} (hk : Kept z0 s) (ht : execJobPost engine fromWindow job s = .next zt) : Kept z0 zt := by
  unfold execJobPost at ht
  cases ht
  repeat' (first | with_reducible assumption | (simp (maxDischargeDepth := 100) +contextual only [hk, kept_lit, kept_markN, kept_copy, kept_zeroWrN, kept_ite, ite_self, implies_true, forall_const, kept_emit, kept_modEngine, kept_queueJob]; done) | (intro _ _ hk) | with_reducible apply kept_ite | with_reducible apply kept_emit | with_reducible apply kept_modEngine | with_reducible apply kept_queueJob | with_reducible exact kept_lit hk .. | dsimp only | split)

theorem kept_execJobStart {z0 zt : State} (engine : Fin 100) {s : State} (hk : Kept z0 s) (ht : execJobStart engine s = .next zt) : Kept z0 zt := by
  unfold execJobStart at ht
  cases ht
  repeat' (first | with_reducible assumption | (simp (maxDischargeDepth := 100) +contextual only [hk, kept_lit, kept_markN, kept_copy, kept_zeroWrN, kept_ite, ite_self, implies_true, forall_const, kept_modEngine]; done) | (intro _ _ hk) | with_reducible apply kept_ite | with_reducible apply kept_modEngine | with_reducible exact kept_lit hk .. | dsimp only | split)

theorem kept_runJob {z0 : State} (b : Bytes) (lost : List Nat) {s : State} (hk : Kept z0 s) : Kept z0 (State.runJob b lost s).2 := by
  unfold State.runJob
  repeat' (first | with_reducible assumption | (simp (maxDischargeDepth := 100) +contextual only [hk, kept_lit, kept_markN, kept_copy, kept_zeroWrN, kept_ite, ite_self, implies_true, forall_const, kept_softWrite]; done) | (intro _ _ hk) | with_reducible apply kept_ite | with_reducible apply kept_softWrite | with_reducible exact kept_lit hk .. | dsimp only | split)

theorem kept_execJobComplete {z0 zt : State} (engine : Fin 100) (now : Nat) (lost : List Nat) {s : State} (hk : Kept z0 s) (ht : execJobComplete engine now lost s = .next zt) : Kept z0 zt := by
  unfold execJobComplete at ht
  cases ht
  repeat' (first | with_reducible assumption | (simp (maxDischargeDepth := 100) +contextual only [hk, kept_lit, kept_markN, kept_copy, kept_zeroWrN, kept_ite, ite_self, implies_true, forall_const, kept_at, kept_engineDone, kept_modDisp, kept_modEngine, kept_putStatus, kept_record, kept_runJob, kept_wr]; done) | (rename_i hq; have hz := congrArg Prod.snd hq; dsimp only at hz; subst hz; try clear hq) | (have hz := congrArg Prod.snd ‹_ = (_, _)›; dsimp only at hz; subst hz) | (intro _ _ hk) | with_reducible apply kept_ite | with_reducible apply kept_at | with_reducible apply kept_engineDone | with_reducible apply kept_modDisp | with_reducible apply kept_modEngine | with_reducible apply kept_putStatus | with_reducible apply kept_record | with_reducible apply kept_runJob | with_reducible apply kept_wr | with_reducible exact kept_lit hk .. | dsimp only | split)

end Sys2Proof.Machine
end

