-- ==== Sys2Proof/Laws/KeptShepherd.lean ====
section
/-! SUPPORT. The operations of Sys2Proof/Machine/Shepherd.lean keep what every step keeps. -/

namespace Sys2Proof.Machine

set_option linter.all false
set_option Elab.async false

theorem Settings.advance_legal {x : Settings} (h : x.legal) : x.advance.legal := by
  simp only [Settings.legal, Settings.advance] at h ⊢
  omega

theorem kept_litAdvance {a s : State} (h : Kept a s) (d u m r ep dp i sp ti fo di q ra sh dm fh tm fb fm pv hl sc pw pk o fr) :
    Kept a (State.mk s.pending d u m r ep dp i sp ti s.mem fo di q ra sh s.settings.advance dm fh tm fb fm pv hl s.flash
      s.fuses sc pw pk o fr) :=
  ⟨h.pending, h.mem, fun l => Settings.advance_legal (h.legal l), h.fuses, h.flash⟩

theorem kept_miss {z0 : State} (cell : Nat) (slot : Nat) (stage : Nat) (cause : Nat) (late : Nat) {s : State} (hk : Kept z0 s) : Kept z0 (State.miss cell slot stage cause late s) := by
  unfold State.miss
  repeat' (first | with_reducible assumption | (simp (maxDischargeDepth := 100) +contextual only [hk, kept_lit, kept_markN, kept_copy, kept_zeroWrN, kept_ite, ite_self, implies_true, forall_const, kept_evidence, kept_ledgerSnap, kept_modCell, kept_modShep, kept_raise]; done) | (intro _ _ hk) | with_reducible apply kept_ite | with_reducible apply kept_evidence | with_reducible apply kept_ledgerSnap | with_reducible apply kept_modCell | with_reducible apply kept_modShep | with_reducible apply kept_raise | with_reducible exact kept_lit hk .. | dsimp only | split)

theorem kept_execStageDeadline {z0 zt : State} (now : Nat) (cell : Fin 512) (slot : W32) (stage : Stage) (lateNs : Nat) (inputLate : Bool) (unitLost : Bool) (rerun : Bool) {s : State} (hk : Kept z0 s) (ht : execStageDeadline now cell slot stage lateNs inputLate unitLost rerun s = .next zt) : Kept z0 zt := by
  unfold execStageDeadline at ht
  cases ht
  repeat' (first | with_reducible assumption | (simp (maxDischargeDepth := 100) +contextual only [hk, kept_lit, kept_markN, kept_copy, kept_zeroWrN, kept_ite, ite_self, implies_true, forall_const, kept_at, kept_miss]; done) | (intro _ _ hk) | with_reducible apply kept_ite | with_reducible apply kept_at | with_reducible apply kept_miss | with_reducible exact kept_lit hk .. | dsimp only | split)

theorem kept_recheck {z0 : State} {s : State} (hk : Kept z0 s) : Kept z0 (State.recheck s) := by
  unfold State.recheck
  repeat' (first | with_reducible assumption | (simp (maxDischargeDepth := 100) +contextual only [hk, kept_lit, kept_markN, kept_copy, kept_zeroWrN, kept_ite, ite_self, implies_true, forall_const, kept_forEach, kept_modCell]; done) | (with_reducible refine kept_forEach ?_ ?_) | (intro _ _ hk) | with_reducible apply kept_ite | with_reducible apply kept_modCell | with_reducible exact kept_lit hk .. | dsimp only | split)

theorem kept_openWindow {z0 : State} (w : Nat) {s : State} (hk : Kept z0 s) : Kept z0 (State.openWindow w s) := by
  unfold State.openWindow
  repeat' (first | with_reducible assumption | (simp (maxDischargeDepth := 100) +contextual only [hk, kept_lit, kept_markN, kept_copy, kept_zeroWrN, kept_ite, ite_self, implies_true, forall_const, kept_forEach, kept_modFold, kept_modShep, kept_settleHolds]; done) | (with_reducible refine kept_forEach ?_ ?_) | (intro _ _ hk) | with_reducible apply kept_ite | with_reducible apply kept_modFold | with_reducible apply kept_modShep | with_reducible apply kept_settleHolds | with_reducible exact kept_lit hk .. | dsimp only | split)

theorem kept_execPenumbraOpen {z0 zt : State} (now : Nat) {s : State} (hk : Kept z0 s) (ht : execPenumbraOpen now s = .next zt) : Kept z0 zt := by
  unfold execPenumbraOpen at ht
  cases ht
  repeat' (first | with_reducible assumption | (simp (maxDischargeDepth := 100) +contextual only [hk, kept_lit, kept_markN, kept_copy, kept_zeroWrN, kept_ite, ite_self, implies_true, forall_const, kept_at, kept_openWindow]; done) | (intro _ _ hk) | with_reducible apply kept_ite | with_reducible apply kept_at | with_reducible apply kept_openWindow | with_reducible exact kept_lit hk .. | dsimp only | split)

theorem kept_startWindow {z0 : State} (w : Nat) {s : State} (hk : Kept z0 s) : Kept z0 (State.startWindow w s) := by
  unfold State.startWindow
  repeat' (first | with_reducible assumption | (simp (maxDischargeDepth := 100) +contextual only [hk, kept_lit, kept_markN, kept_copy, kept_zeroWrN, kept_ite, ite_self, implies_true, forall_const, kept_endWindow, kept_modBarrier, kept_openWindow]; done) | (intro _ _ hk) | with_reducible apply kept_ite | with_reducible apply kept_endWindow | with_reducible apply kept_modBarrier | with_reducible apply kept_openWindow | with_reducible exact kept_lit hk .. | dsimp only | split)

theorem kept_execWindowBoundary {z0 zt : State} (now : Nat) {s : State} (hk : Kept z0 s) (ht : execWindowBoundary now s = .next zt) : Kept z0 zt := by
  unfold execWindowBoundary at ht
  cases ht
  repeat' (first | with_reducible assumption | (simp (maxDischargeDepth := 100) +contextual only [hk, kept_lit, kept_markN, kept_copy, kept_zeroWrN, kept_ite, ite_self, implies_true, forall_const, kept_advance, kept_at, kept_forEach, kept_modShep, kept_radioOn, kept_recheck, kept_startWindow, kept_litAdvance]; done) | (with_reducible refine kept_forEach ?_ ?_) | (intro _ _ hk) | (with_reducible refine kept_litAdvance ?_ ..) | with_reducible apply kept_ite | with_reducible apply kept_advance | with_reducible apply kept_at | with_reducible apply kept_modShep | with_reducible apply kept_radioOn | with_reducible apply kept_recheck | with_reducible apply kept_startWindow | with_reducible exact kept_lit hk .. | dsimp only | split)

theorem kept_startCell {z0 : State} (c : Nat) {s : State} (hk : Kept z0 s) : Kept z0 (State.startCell c s) := by
  unfold State.startCell
  repeat' (first | with_reducible assumption | (simp (maxDischargeDepth := 100) +contextual only [hk, kept_lit, kept_markN, kept_copy, kept_zeroWrN, kept_ite, ite_self, implies_true, forall_const, kept_modCell, kept_modShep]; done) | (intro _ _ hk) | with_reducible apply kept_ite | with_reducible apply kept_modCell | with_reducible apply kept_modShep | with_reducible exact kept_lit hk .. | dsimp only | split)

theorem kept_cellFrame {z0 : State} (c : Nat) {s : State} (hk : Kept z0 s) : Kept z0 (State.cellFrame c s) := by
  unfold State.cellFrame
  repeat' (first | with_reducible assumption | (simp (maxDischargeDepth := 100) +contextual only [hk, kept_lit, kept_markN, kept_copy, kept_zeroWrN, kept_ite, ite_self, implies_true, forall_const, kept_freeCellNo, kept_modCell, kept_modLane, kept_modShep, kept_setCellPolicer, kept_setPool, kept_startCell]; done) | (intro _ _ hk) | with_reducible apply kept_ite | with_reducible apply kept_freeCellNo | with_reducible apply kept_modCell | with_reducible apply kept_modLane | with_reducible apply kept_modShep | with_reducible apply kept_setCellPolicer | with_reducible apply kept_setPool | with_reducible apply kept_startCell | with_reducible exact kept_lit hk .. | dsimp only | split)

theorem kept_handOver {z0 : State} {s : State} (hk : Kept z0 s) : Kept z0 (State.handOver s) := by
  unfold State.handOver
  repeat' (first | with_reducible assumption | (simp (maxDischargeDepth := 100) +contextual only [hk, kept_lit, kept_markN, kept_copy, kept_zeroWrN, kept_ite, ite_self, implies_true, forall_const, kept_forEach, kept_freeCellNo, kept_takeFree]; done) | (rename_i hq; have hz := congrArg Prod.snd hq; dsimp only at hz; subst hz; try clear hq) | (have hz := congrArg Prod.snd ‹_ = (_, _)›; dsimp only at hz; subst hz) | (with_reducible refine kept_forEach ?_ ?_) | (intro _ _ hk) | with_reducible apply kept_ite | with_reducible apply kept_freeCellNo | with_reducible apply kept_takeFree | with_reducible exact kept_lit hk .. | dsimp only | split)

theorem kept_execFrameBoundary {z0 zt : State} (now : Nat) {s : State} (hk : Kept z0 s) (ht : execFrameBoundary now s = .next zt) : Kept z0 zt := by
  unfold execFrameBoundary at ht
  cases ht
  repeat' (first | with_reducible assumption | (simp (maxDischargeDepth := 100) +contextual only [hk, kept_lit, kept_markN, kept_copy, kept_zeroWrN, kept_ite, ite_self, implies_true, forall_const, kept_at, kept_cellFrame, kept_forEach, kept_handOver, kept_reassign]; done) | (with_reducible refine kept_forEach ?_ ?_) | (intro _ _ hk) | with_reducible apply kept_ite | with_reducible apply kept_at | with_reducible apply kept_cellFrame | with_reducible apply kept_handOver | with_reducible apply kept_reassign | with_reducible exact kept_lit hk .. | dsimp only | split)

theorem kept_slotTick {z0 : State} (c : Nat) {s : State} (hk : Kept z0 s) : Kept z0 (State.slotTick c s) := by
  unfold State.slotTick
  repeat' (first | with_reducible assumption | (simp (maxDischargeDepth := 100) +contextual only [hk, kept_lit, kept_markN, kept_copy, kept_zeroWrN, kept_ite, ite_self, implies_true, forall_const, kept_forEach, kept_raiseIrq]; done) | (with_reducible refine kept_forEach ?_ ?_) | (intro _ _ hk) | with_reducible apply kept_ite | with_reducible apply kept_raiseIrq | with_reducible exact kept_lit hk .. | dsimp only | split)

theorem kept_cellSlot {z0 : State} (c : Nat) {s : State} (hk : Kept z0 s) : Kept z0 (State.cellSlot c s) := by
  unfold State.cellSlot
  repeat' (first | with_reducible assumption | (simp (maxDischargeDepth := 100) +contextual only [hk, kept_lit, kept_markN, kept_copy, kept_zeroWrN, kept_ite, ite_self, implies_true, forall_const, kept_modCell, kept_modShep, kept_slotTick]; done) | (intro _ _ hk) | with_reducible apply kept_ite | with_reducible apply kept_modCell | with_reducible apply kept_modShep | with_reducible apply kept_slotTick | with_reducible exact kept_lit hk .. | dsimp only | split)

theorem kept_assumedSlot {z0 : State} (c : Nat) {s : State} (hk : Kept z0 s) : Kept z0 (State.assumedSlot c s) := by
  unfold State.assumedSlot
  repeat' (first | with_reducible assumption | (simp (maxDischargeDepth := 100) +contextual only [hk, kept_lit, kept_markN, kept_copy, kept_zeroWrN, kept_ite, ite_self, implies_true, forall_const, kept_modCell, kept_modHealth, kept_startCell]; done) | (intro _ _ hk) | with_reducible apply kept_ite | with_reducible apply kept_modCell | with_reducible apply kept_modHealth | with_reducible apply kept_startCell | with_reducible exact kept_lit hk .. | dsimp only | split)

theorem kept_applyNrx {z0 : State} {s : State} (hk : Kept z0 s) : Kept z0 (State.applyNrx s) := by
  unfold State.applyNrx
  repeat' (first | with_reducible assumption | (simp (maxDischargeDepth := 100) +contextual only [hk, kept_lit, kept_markN, kept_copy, kept_zeroWrN, kept_ite, ite_self, implies_true, forall_const, kept_commandDone, kept_forEach, kept_modCell, kept_modFold, kept_modNrx]; done) | (with_reducible refine kept_forEach ?_ ?_) | (intro _ _ hk) | with_reducible apply kept_ite | with_reducible apply kept_commandDone | with_reducible apply kept_modCell | with_reducible apply kept_modFold | with_reducible apply kept_modNrx | with_reducible exact kept_lit hk .. | dsimp only | split)

theorem kept_nrxSlot {z0 : State} (gradient : Option (List W32)) (blocks : Nat) (failures : Nat) {s : State} (hk : Kept z0 s) : Kept z0 (State.nrxSlot gradient blocks failures s) := by
  unfold State.nrxSlot
  repeat' (first | with_reducible assumption | (simp (maxDischargeDepth := 100) +contextual only [hk, kept_lit, kept_markN, kept_copy, kept_zeroWrN, kept_ite, ite_self, implies_true, forall_const, kept_forEach, kept_ledger, kept_miss, kept_modNrx]; done) | (with_reducible refine kept_forEach ?_ ?_) | (intro _ _ hk) | with_reducible apply kept_ite | with_reducible apply kept_ledger | with_reducible apply kept_miss | with_reducible apply kept_modNrx | with_reducible exact kept_lit hk .. | dsimp only | split)

theorem kept_execSlotBoundary {z0 zt : State} (now : Nat) (gradient : Option (List W32)) (blocks : Nat) (failures : Nat) {s : State} (hk : Kept z0 s) (ht : execSlotBoundary now gradient blocks failures s = .next zt) : Kept z0 zt := by
  unfold execSlotBoundary at ht
  cases ht
  repeat' (first | with_reducible assumption | (simp (maxDischargeDepth := 100) +contextual only [hk, kept_lit, kept_markN, kept_copy, kept_zeroWrN, kept_ite, ite_self, implies_true, forall_const, kept_applyNrx, kept_assumedSlot, kept_at, kept_cellSlot, kept_forEach, kept_nrxSlot]; done) | (with_reducible refine kept_forEach ?_ ?_) | (intro _ _ hk) | with_reducible apply kept_ite | with_reducible apply kept_applyNrx | with_reducible apply kept_assumedSlot | with_reducible apply kept_at | with_reducible apply kept_cellSlot | with_reducible apply kept_nrxSlot | with_reducible exact kept_lit hk .. | dsimp only | split)

end Sys2Proof.Machine
end

