-- ==== Sys2Proof/Laws/KeptShaping.lean ====
section
/-! SUPPORT. The operations of Sys2Proof/Machine/Shaping.lean keep what every step keeps. -/

namespace Sys2Proof.Machine

set_option linter.all false
set_option Elab.async false

theorem kept_maskShape {z0 : State} (lane : Nat) (cell : Nat) (p : Bytes) {s : State} (hk : Kept z0 s) : Kept z0 (State.maskShape lane cell p s).2 := by
  unfold State.maskShape
  repeat' (first | with_reducible assumption | (simp (maxDischargeDepth := 100) +contextual only [hk, kept_lit, kept_markN, kept_copy, kept_zeroWrN, kept_ite, ite_self, implies_true, forall_const, kept_modCell, kept_modFhPort, kept_modLane, kept_takeUp]; done) | (intro _ _ hk) | with_reducible apply kept_ite | with_reducible apply kept_modCell | with_reducible apply kept_modFhPort | with_reducible apply kept_modLane | with_reducible apply kept_takeUp | with_reducible exact kept_lit hk .. | dsimp only | split)

end Sys2Proof.Machine
end

