-- ==== Sys2Proof/Laws/KeptFronthaul.lean ====
section
/-! SUPPORT. The operations of Sys2Proof/Machine/Fronthaul.lean keep what every step keeps. -/

namespace Sys2Proof.Machine

set_option linter.all false
set_option Elab.async false

theorem kept_police {z0 : State} (lane : Nat) (k : Nat) (n : Nat) (f : Frame) {s : State} (hk : Kept z0 s) : Kept z0 (State.police lane k n f s).2.2 := by
  unfold State.police
  repeat' (first | with_reducible assumption | (simp (maxDischargeDepth := 100) +contextual only [hk, kept_lit, kept_markN, kept_copy, kept_zeroWrN, kept_ite, ite_self, implies_true, forall_const, kept_modLane]; done) | (intro _ _ hk) | with_reducible apply kept_ite | with_reducible apply kept_modLane | with_reducible exact kept_lit hk .. | dsimp only | split)

theorem kept_toPort {z0 : State} (lane : Nat) (b : Bytes) {s : State} (hk : Kept z0 s) : Kept z0 (State.toPort lane b s) := by
  unfold State.toPort
  repeat' (first | with_reducible assumption | (simp (maxDischargeDepth := 100) +contextual only [hk, kept_lit, kept_markN, kept_copy, kept_zeroWrN, kept_ite, ite_self, implies_true, forall_const, kept_modChan, kept_modLane, kept_wr]; done) | (intro _ _ hk) | with_reducible apply kept_ite | with_reducible apply kept_modChan | with_reducible apply kept_modLane | with_reducible apply kept_wr | with_reducible exact kept_lit hk .. | dsimp only | split)

theorem kept_uplane {z0 : State} (lane : Nat) (cell : Nat) (f : Frame) (due : Int) {s : State} (hk : Kept z0 s) : Kept z0 (State.uplane lane cell f due s) := by
  unfold State.uplane
  repeat' (first | with_reducible assumption | (simp (maxDischargeDepth := 100) +contextual only [hk, kept_lit, kept_markN, kept_copy, kept_zeroWrN, kept_ite, ite_self, implies_true, forall_const, kept_miss, kept_modCell, kept_modFhPort, kept_modLane, kept_toPort]; done) | (intro _ _ hk) | with_reducible apply kept_ite | with_reducible apply kept_miss | with_reducible apply kept_modCell | with_reducible apply kept_modFhPort | with_reducible apply kept_modLane | with_reducible apply kept_toPort | with_reducible exact kept_lit hk .. | dsimp only | split)

theorem kept_deliverFrame {z0 : State} (lane : Nat) (inst : Nat) (w : Flow) (colour : Nat) (b : Bytes) {s : State} (hk : Kept z0 s) : Kept z0 (State.deliverFrame lane inst w colour b s) := by
  unfold State.deliverFrame
  repeat' (first | with_reducible assumption | (simp (maxDischargeDepth := 100) +contextual only [hk, kept_lit, kept_markN, kept_copy, kept_zeroWrN, kept_ite, ite_self, implies_true, forall_const, kept_addCompletion, kept_modLane, kept_objWrite]; done) | (intro _ _ hk) | (refine kept_bringIn _  ?_ (by assumption)) | with_reducible apply kept_ite | with_reducible apply kept_addCompletion | with_reducible apply kept_modLane | with_reducible apply kept_objWrite | with_reducible exact kept_lit hk .. | dsimp only | split)

theorem kept_tenantFrame {z0 : State} (lane : Nat) (inst : Nat) (w : Flow) (n : Nat) (f : Frame) {s : State} (hk : Kept z0 s) : Kept z0 (State.tenantFrame lane inst w n f s) := by
  unfold State.tenantFrame
  repeat' (first | with_reducible assumption | (simp (maxDischargeDepth := 100) +contextual only [hk, kept_lit, kept_markN, kept_copy, kept_zeroWrN, kept_ite, ite_self, implies_true, forall_const, kept_deliverFrame, kept_modInst, kept_police]; done) | (rename_i hq; have hz := congrArg Prod.snd (congrArg Prod.snd hq); dsimp only at hz; subst hz; try clear hq) | (rename_i hq; have hz := congrArg Prod.snd hq; dsimp only at hz; subst hz; try clear hq) | (have hz := congrArg Prod.snd ‹_ = (_, _)›; dsimp only at hz; subst hz) | (have hz := congrArg Prod.snd (congrArg Prod.snd ‹_ = (_, _, _)›); dsimp only at hz; subst hz) | (intro _ _ hk) | with_reducible apply kept_ite | with_reducible apply kept_deliverFrame | with_reducible apply kept_modInst | with_reducible apply kept_police | with_reducible exact kept_lit hk .. | dsimp only | split)

theorem kept_unmatched {z0 : State} (lane : Nat) {s : State} (hk : Kept z0 s) : Kept z0 (State.unmatched lane s) := by
  unfold State.unmatched
  repeat' (first | with_reducible assumption | (simp (maxDischargeDepth := 100) +contextual only [hk, kept_lit, kept_markN, kept_copy, kept_zeroWrN, kept_ite, ite_self, implies_true, forall_const, kept_modLane]; done) | (intro _ _ hk) | with_reducible apply kept_ite | with_reducible apply kept_modLane | with_reducible exact kept_lit hk .. | dsimp only | split)

theorem kept_classify {z0 : State} (lane : Nat) (n : Nat) (f : Frame) (due : Int) {s : State} (hk : Kept z0 s) : Kept z0 (State.classify lane n f due s) := by
  unfold State.classify
  repeat' (first | with_reducible assumption | (simp (maxDischargeDepth := 100) +contextual only [hk, kept_lit, kept_markN, kept_copy, kept_zeroWrN, kept_ite, ite_self, implies_true, forall_const, kept_emit, kept_police, kept_tenantFrame, kept_unmatched, kept_uplane]; done) | (rename_i hq; have hz := congrArg Prod.snd (congrArg Prod.snd hq); dsimp only at hz; subst hz; try clear hq) | (rename_i hq; have hz := congrArg Prod.snd hq; dsimp only at hz; subst hz; try clear hq) | (have hz := congrArg Prod.snd ‹_ = (_, _)›; dsimp only at hz; subst hz) | (have hz := congrArg Prod.snd (congrArg Prod.snd ‹_ = (_, _, _)›); dsimp only at hz; subst hz) | (intro _ _ hk) | with_reducible apply kept_ite | with_reducible apply kept_emit | with_reducible apply kept_police | with_reducible apply kept_tenantFrame | with_reducible apply kept_unmatched | with_reducible apply kept_uplane | with_reducible exact kept_lit hk .. | dsimp only | split)

theorem kept_execFhRxFrame {z0 zt : State} (now : Nat) (lane : Fin 32) (f : Frame) (dueNs : Int) {s : State} (hk : Kept z0 s) (ht : execFhRxFrame now lane f dueNs s = .next zt) : Kept z0 zt := by
  unfold execFhRxFrame at ht
  cases ht
  repeat' (first | with_reducible assumption | (simp (maxDischargeDepth := 100) +contextual only [hk, kept_lit, kept_markN, kept_copy, kept_zeroWrN, kept_ite, ite_self, implies_true, forall_const, kept_at, kept_classify, kept_modLane]; done) | (intro _ _ hk) | with_reducible apply kept_ite | with_reducible apply kept_at | with_reducible apply kept_classify | with_reducible apply kept_modLane | with_reducible exact kept_lit hk .. | dsimp only | split)

theorem kept_endEgress {z0 : State} (q : Nat) (c : QCtx) (st : Status) (sent : Bool) (late : Bool) (ts : Option Nat) {s : State} (hk : Kept z0 s) : Kept z0 (State.endEgress q c st sent late ts s) := by
  unfold State.endEgress
  repeat' (first | with_reducible assumption | (simp (maxDischargeDepth := 100) +contextual only [hk, kept_lit, kept_markN, kept_copy, kept_zeroWrN, kept_ite, ite_self, implies_true, forall_const, kept_popHead, kept_ringWrite]; done) | (intro _ _ hk) | with_reducible apply kept_ite | with_reducible apply kept_popHead | with_reducible apply kept_ringWrite | with_reducible exact kept_lit hk .. | dsimp only | split)

theorem kept_bringGroups {z0 : State} (lane : Nat) {s : State} (hk : Kept z0 s) : Kept z0 (State.bringGroups lane s) := by
  unfold State.bringGroups
  repeat' (first | with_reducible assumption | (simp (maxDischargeDepth := 100) +contextual only [hk, kept_lit, kept_markN, kept_copy, kept_zeroWrN, kept_ite, ite_self, implies_true, forall_const, kept_bringGroup, kept_forEach]; done) | (with_reducible refine kept_forEach ?_ ?_) | (intro _ _ hk) | with_reducible apply kept_ite | with_reducible apply kept_bringGroup | with_reducible exact kept_lit hk .. | dsimp only | split)

theorem kept_charge' {z0 : State} (lane : Nat) (n : Nat) (ch : Choice) {s : State} (hk : Kept z0 s) : Kept z0 (State.charge' lane n ch s) := by
  unfold State.charge'
  repeat' (first | with_reducible assumption | (simp (maxDischargeDepth := 100) +contextual only [hk, kept_lit, kept_markN, kept_copy, kept_zeroWrN, kept_ite, ite_self, implies_true, forall_const, kept_forEach, kept_modLane, kept_modQueue, kept_setGroup]; done) | (with_reducible refine kept_forEach ?_ ?_) | (intro _ _ hk) | with_reducible apply kept_ite | with_reducible apply kept_modLane | with_reducible apply kept_modQueue | with_reducible apply kept_setGroup | with_reducible exact kept_lit hk .. | dsimp only | split)

theorem kept_egressRead {z0 : State} (c : QCtx) (d : Bytes) {s : State} (hk : Kept z0 s) : Kept z0 (State.egressRead c d s).2 := by
  unfold State.egressRead
  repeat' (first | with_reducible assumption | (simp (maxDischargeDepth := 100) +contextual only [hk, kept_lit, kept_markN, kept_copy, kept_zeroWrN, kept_ite, ite_self, implies_true, forall_const, kept_fetch]; done) | (rename_i hq; have hz := congrArg Prod.snd hq; dsimp only at hz; subst hz; try clear hq) | (have hz := congrArg Prod.snd ‹_ = (_, _)›; dsimp only at hz; subst hz) | (intro _ _ hk) | with_reducible apply kept_ite | with_reducible apply kept_fetch | with_reducible exact kept_lit hk .. | dsimp only | split)

theorem kept_shapeFrame {z0 : State} (lane : Nat) (b : Bytes) {s : State} (hk : Kept z0 s) : Kept z0 (State.shapeFrame lane b s).2 := by
  unfold State.shapeFrame
  repeat' (first | with_reducible assumption | (simp (maxDischargeDepth := 100) +contextual only [hk, kept_lit, kept_markN, kept_copy, kept_zeroWrN, kept_ite, ite_self, implies_true, forall_const, kept_maskShape]; done) | (rename_i hq; have hz := congrArg Prod.snd hq; dsimp only at hz; subst hz; try clear hq) | (have hz := congrArg Prod.snd ‹_ = (_, _)›; dsimp only at hz; subst hz) | (intro _ _ hk) | with_reducible apply kept_ite | with_reducible apply kept_maskShape | with_reducible exact kept_lit hk .. | dsimp only | split)

theorem kept_startFrame {z0 : State} (lane : Nat) (ch : Choice) {s : State} (hk : Kept z0 s) : Kept z0 (State.startFrame lane ch s) := by
  unfold State.startFrame
  repeat' (first | with_reducible assumption | (simp (maxDischargeDepth := 100) +contextual only [hk, kept_lit, kept_markN, kept_copy, kept_zeroWrN, kept_ite, ite_self, implies_true, forall_const, kept_charge', kept_countSpoof, kept_egressRead, kept_endEgress, kept_modLane, kept_shapeFrame]; done) | (rename_i hq; have hz := congrArg Prod.snd hq; dsimp only at hz; subst hz; try clear hq) | (have hz := congrArg Prod.snd ‹_ = (_, _)›; dsimp only at hz; subst hz) | (intro _ _ hk) | with_reducible apply kept_ite | with_reducible apply kept_charge' | with_reducible apply kept_countSpoof | with_reducible apply kept_egressRead | with_reducible apply kept_endEgress | with_reducible apply kept_modLane | with_reducible apply kept_shapeFrame | with_reducible exact kept_lit hk .. | dsimp only | split)

theorem kept_execEgressFrameStart {z0 zt : State} (now : Nat) (lane : Fin 32) {s : State} (hk : Kept z0 s) (ht : execEgressFrameStart now lane s = .next zt) : Kept z0 zt := by
  unfold execEgressFrameStart at ht
  cases ht
  repeat' (first | with_reducible assumption | (simp (maxDischargeDepth := 100) +contextual only [hk, kept_lit, kept_markN, kept_copy, kept_zeroWrN, kept_ite, ite_self, implies_true, forall_const, kept_at, kept_bringGroups, kept_modLane, kept_startFrame]; done) | (intro _ _ hk) | with_reducible apply kept_ite | with_reducible apply kept_at | with_reducible apply kept_bringGroups | with_reducible apply kept_modLane | with_reducible apply kept_startFrame | with_reducible exact kept_lit hk .. | dsimp only | split)

theorem kept_execEgressFrameDone {z0 zt : State} (now : Nat) (lane : Fin 32) {s : State} (hk : Kept z0 s) (ht : execEgressFrameDone now lane s = .next zt) : Kept z0 zt := by
  unfold execEgressFrameDone at ht
  cases ht
  repeat' (first | with_reducible assumption | (simp (maxDischargeDepth := 100) +contextual only [hk, kept_lit, kept_markN, kept_copy, kept_zeroWrN, kept_ite, ite_self, implies_true, forall_const, kept_at, kept_emit, kept_endEgress, kept_modLane, kept_staleDiscard]; done) | (intro _ _ hk) | with_reducible apply kept_ite | with_reducible apply kept_at | with_reducible apply kept_emit | with_reducible apply kept_endEgress | with_reducible apply kept_modLane | with_reducible apply kept_staleDiscard | with_reducible exact kept_lit hk .. | dsimp only | split)

theorem kept_execEgressDeadlineExpiry {z0 zt : State} (now : Nat) (queue : Nat) {s : State} (hk : Kept z0 s) (ht : execEgressDeadlineExpiry now queue s = .next zt) : Kept z0 zt := by
  unfold execEgressDeadlineExpiry at ht
  cases ht
  repeat' (first | with_reducible assumption | (simp (maxDischargeDepth := 100) +contextual only [hk, kept_lit, kept_markN, kept_copy, kept_zeroWrN, kept_ite, ite_self, implies_true, forall_const, kept_at, kept_endEgress, kept_miss, kept_modFhPort, kept_modLane, kept_takeFree]; done) | (rename_i hq; have hz := congrArg Prod.snd hq; dsimp only at hz; subst hz; try clear hq) | (have hz := congrArg Prod.snd ‹_ = (_, _)›; dsimp only at hz; subst hz) | (intro _ _ hk) | with_reducible apply kept_ite | with_reducible apply kept_at | with_reducible apply kept_endEgress | with_reducible apply kept_miss | with_reducible apply kept_modFhPort | with_reducible apply kept_modLane | with_reducible apply kept_takeFree | with_reducible exact kept_lit hk .. | dsimp only | split)

theorem kept_execFhLaneLinkChange {z0 zt : State} (lane : Fin 32) (up : Bool) {s : State} (hk : Kept z0 s) (ht : execFhLaneLinkChange lane up s = .next zt) : Kept z0 zt := by
  unfold execFhLaneLinkChange at ht
  cases ht
  repeat' (first | with_reducible assumption | (simp (maxDischargeDepth := 100) +contextual only [hk, kept_lit, kept_markN, kept_copy, kept_zeroWrN, kept_ite, ite_self, implies_true, forall_const, kept_evidence, kept_ledger, kept_modFhPort, kept_modLane]; done) | (intro _ _ hk) | with_reducible apply kept_ite | with_reducible apply kept_evidence | with_reducible apply kept_ledger | with_reducible apply kept_modFhPort | with_reducible apply kept_modLane | with_reducible exact kept_lit hk .. | dsimp only | split)

end Sys2Proof.Machine
end

