-- ==== Sys2Proof/Laws/KeptTime.lean ====
section
/-! SUPPORT. The operations of Sys2Proof/Machine/Time.lean keep what every step keeps. -/

namespace Sys2Proof.Machine

set_option linter.all false
set_option Elab.async false

theorem kept_modDom {z0 : State} (mirror : Bool) (f : Domain → Domain) {s : State} (hk : Kept z0 s) : Kept z0 (State.modDom mirror f s) := by
  unfold State.modDom
  repeat' (first | with_reducible assumption | (simp (maxDischargeDepth := 100) +contextual only [hk, kept_lit, kept_markN, kept_copy, kept_zeroWrN, kept_ite, ite_self, implies_true, forall_const, kept_modTime]; done) | (intro _ _ hk) | with_reducible apply kept_ite | with_reducible apply kept_modTime | with_reducible exact kept_lit hk .. | dsimp only | split)

theorem kept_atTime {z0 : State} (now : Nat) {s : State} (hk : Kept z0 s) : Kept z0 (State.atTime now s) := by
  unfold State.atTime
  repeat' (first | with_reducible assumption | (simp (maxDischargeDepth := 100) +contextual only [hk, kept_lit, kept_markN, kept_copy, kept_zeroWrN, kept_ite, ite_self, implies_true, forall_const, kept_at, kept_modTime]; done) | (intro _ _ hk) | with_reducible apply kept_ite | with_reducible apply kept_at | with_reducible apply kept_modTime | with_reducible exact kept_lit hk .. | dsimp only | split)

theorem kept_timeAlert {z0 : State} (reason : Nat) {s : State} (hk : Kept z0 s) : Kept z0 (State.timeAlert reason s) := by
  unfold State.timeAlert
  repeat' (first | with_reducible assumption | (simp (maxDischargeDepth := 100) +contextual only [hk, kept_lit, kept_markN, kept_copy, kept_zeroWrN, kept_ite, ite_self, implies_true, forall_const, kept_raise]; done) | (intro _ _ hk) | with_reducible apply kept_ite | with_reducible apply kept_raise | with_reducible exact kept_lit hk .. | dsimp only | split)

theorem kept_decayRestored {z0 : State} {s : State} (hk : Kept z0 s) : Kept z0 (State.decayRestored s) := by
  unfold State.decayRestored
  repeat' (first | with_reducible assumption | (simp (maxDischargeDepth := 100) +contextual only [hk, kept_lit, kept_markN, kept_copy, kept_zeroWrN, kept_ite, ite_self, implies_true, forall_const, kept_modHealth]; done) | (intro _ _ hk) | with_reducible apply kept_ite | with_reducible apply kept_modHealth | with_reducible exact kept_lit hk .. | dsimp only | split)

theorem kept_haveLocked {z0 : State} {s : State} (hk : Kept z0 s) : Kept z0 (State.haveLocked s) := by
  unfold State.haveLocked
  repeat' (first | with_reducible assumption | (simp (maxDischargeDepth := 100) +contextual only [hk, kept_lit, kept_markN, kept_copy, kept_zeroWrN, kept_ite, ite_self, implies_true, forall_const, kept_decayRestored, kept_modTime]; done) | (intro _ _ hk) | with_reducible apply kept_ite | with_reducible apply kept_decayRestored | with_reducible apply kept_modTime | with_reducible exact kept_lit hk .. | dsimp only | split)

theorem kept_selectDomain {z0 : State} (mirror : Bool) {s : State} (hk : Kept z0 s) : Kept z0 (State.selectDomain mirror s) := by
  unfold State.selectDomain
  repeat' (first | with_reducible assumption | (simp (maxDischargeDepth := 100) +contextual only [hk, kept_lit, kept_markN, kept_copy, kept_zeroWrN, kept_ite, ite_self, implies_true, forall_const, kept_haveLocked, kept_modTime]; done) | (intro _ _ hk) | with_reducible apply kept_ite | with_reducible apply kept_haveLocked | with_reducible apply kept_modTime | with_reducible exact kept_lit hk .. | dsimp only | split)

theorem kept_holdoverMean {z0 : State} (d : Domain) {s : State} (hk : Kept z0 s) : Kept z0 (State.holdoverMean d s).2 := by
  unfold State.holdoverMean
  repeat' (first | with_reducible assumption | (simp (maxDischargeDepth := 100) +contextual only [hk, kept_lit, kept_markN, kept_copy, kept_zeroWrN, kept_ite, ite_self, implies_true, forall_const, kept_takeFree]; done) | (rename_i hq; have hz := congrArg Prod.snd hq; dsimp only at hz; subst hz; try clear hq) | (have hz := congrArg Prod.snd ‹_ = (_, _)›; dsimp only at hz; subst hz) | (intro _ _ hk) | with_reducible apply kept_ite | with_reducible apply kept_takeFree | with_reducible exact kept_lit hk .. | dsimp only | split)

theorem kept_enterHoldover {z0 : State} (mirror : Bool) {s : State} (hk : Kept z0 s) : Kept z0 (State.enterHoldover mirror s) := by
  unfold State.enterHoldover
  repeat' (first | with_reducible assumption | (simp (maxDischargeDepth := 100) +contextual only [hk, kept_lit, kept_markN, kept_copy, kept_zeroWrN, kept_ite, ite_self, implies_true, forall_const, kept_holdoverMean, kept_modDom, kept_modTime, kept_selectDomain, kept_timeAlert]; done) | (rename_i hq; have hz := congrArg Prod.snd hq; dsimp only at hz; subst hz; try clear hq) | (have hz := congrArg Prod.snd ‹_ = (_, _)›; dsimp only at hz; subst hz) | (intro _ _ hk) | with_reducible apply kept_ite | with_reducible apply kept_holdoverMean | with_reducible apply kept_modDom | with_reducible apply kept_modTime | with_reducible apply kept_selectDomain | with_reducible apply kept_timeAlert | with_reducible exact kept_lit hk .. | dsimp only | split)

theorem kept_servoSum {z0 : State} (kp : W32) (ki : W32) (o : Int) (sum : Int) {s : State} (hk : Kept z0 s) : Kept z0 (State.servoSum kp ki o sum s).2 := by
  unfold State.servoSum
  repeat' (first | with_reducible assumption | (simp (maxDischargeDepth := 100) +contextual only [hk, kept_lit, kept_markN, kept_copy, kept_zeroWrN, kept_ite, ite_self, implies_true, forall_const, kept_takeFree]; done) | (rename_i hq; have hz := congrArg Prod.snd hq; dsimp only at hz; subst hz; try clear hq) | (have hz := congrArg Prod.snd ‹_ = (_, _)›; dsimp only at hz; subst hz) | (intro _ _ hk) | with_reducible apply kept_ite | with_reducible apply kept_takeFree | with_reducible exact kept_lit hk .. | dsimp only | split)

theorem kept_stepTime {z0 : State} (o : Int) {s : State} (hk : Kept z0 s) : Kept z0 (State.stepTime o s) := by
  unfold State.stepTime
  repeat' (first | with_reducible assumption | (simp (maxDischargeDepth := 100) +contextual only [hk, kept_lit, kept_markN, kept_copy, kept_zeroWrN, kept_ite, ite_self, implies_true, forall_const, kept_modHealth, kept_modPower, kept_modTime]; done) | (intro _ _ hk) | with_reducible apply kept_ite | with_reducible apply kept_modHealth | with_reducible apply kept_modPower | with_reducible apply kept_modTime | with_reducible exact kept_lit hk .. | dsimp only | split)

theorem kept_noteOffset {z0 : State} {s : State} (hk : Kept z0 s) : Kept z0 (State.noteOffset s) := by
  unfold State.noteOffset
  repeat' (first | with_reducible assumption | (simp (maxDischargeDepth := 100) +contextual only [hk, kept_lit, kept_markN, kept_copy, kept_zeroWrN, kept_ite, ite_self, implies_true, forall_const, kept_modTime, kept_timeAlert]; done) | (intro _ _ hk) | with_reducible apply kept_ite | with_reducible apply kept_modTime | with_reducible apply kept_timeAlert | with_reducible exact kept_lit hk .. | dsimp only | split)

theorem kept_measurement {z0 : State} (mirror : Bool) (o : Int) (path : Int) {s : State} (hk : Kept z0 s) : Kept z0 (State.measurement mirror o path s) := by
  unfold State.measurement
  repeat' (first | with_reducible assumption | (rename_i hq; have hz := congrArg Prod.snd hq; dsimp only at hz; subst hz; try clear hq) | (have hz := congrArg Prod.snd ‹_ = (_, _)›; dsimp only at hz; subst hz) | (intro _ _ hk) | with_reducible apply kept_ite | with_reducible apply kept_enterHoldover | with_reducible apply kept_haveLocked | with_reducible apply kept_modDom | with_reducible apply kept_modTime | with_reducible apply kept_noteOffset | with_reducible apply kept_servoSum | with_reducible apply kept_stepTime | with_reducible apply kept_timeAlert | with_reducible exact kept_lit hk .. | dsimp only | split)

theorem kept_announced {z0 : State} (mirror : Bool) (gm : W64) (cls : Nat) (acc : Nat) {s : State} (hk : Kept z0 s) : Kept z0 (State.announced mirror gm cls acc s) := by
  unfold State.announced
  repeat' (first | with_reducible assumption | (simp (maxDischargeDepth := 100) +contextual only [hk, kept_lit, kept_markN, kept_copy, kept_zeroWrN, kept_ite, ite_self, implies_true, forall_const, kept_enterHoldover, kept_modDom]; done) | (intro _ _ hk) | with_reducible apply kept_ite | with_reducible apply kept_enterHoldover | with_reducible apply kept_modDom | with_reducible exact kept_lit hk .. | dsimp only | split)

theorem kept_slaveMsg {z0 : State} (mirror : Bool) (lane : Nat) (rx : Int) (msg : PtpMsg) {s : State} (hk : Kept z0 s) : Kept z0 (State.slaveMsg mirror lane rx msg s) := by
  unfold State.slaveMsg
  repeat' (first | with_reducible assumption | (simp (maxDischargeDepth := 100) +contextual only [hk, kept_lit, kept_markN, kept_copy, kept_zeroWrN, kept_ite, ite_self, implies_true, forall_const, kept_announce, kept_announced, kept_measurement, kept_modDom, kept_takeFree]; done) | (rename_i hq; have hz := congrArg Prod.snd hq; dsimp only at hz; subst hz; try clear hq) | (have hz := congrArg Prod.snd ‹_ = (_, _)›; dsimp only at hz; subst hz) | (intro _ _ hk) | with_reducible apply kept_ite | with_reducible apply kept_announce | with_reducible apply kept_announced | with_reducible apply kept_measurement | with_reducible apply kept_modDom | with_reducible apply kept_takeFree | with_reducible exact kept_lit hk .. | dsimp only | split)

theorem kept_execPtpRx {z0 zt : State} (now : Nat) (lane : Fin 32) (domain : Byte) (msg : PtpMsg) {s : State} (hk : Kept z0 s) (ht : execPtpRx now lane domain msg s = .next zt) : Kept z0 zt := by
  unfold execPtpRx at ht
  cases ht
  repeat' (first | with_reducible assumption | (simp (maxDischargeDepth := 100) +contextual only [hk, kept_lit, kept_markN, kept_copy, kept_zeroWrN, kept_ite, ite_self, implies_true, forall_const, kept_atTime, kept_emit, kept_slaveMsg]; done) | (intro _ _ hk) | with_reducible apply kept_ite | with_reducible apply kept_atTime | with_reducible apply kept_emit | with_reducible apply kept_slaveMsg | with_reducible exact kept_lit hk .. | dsimp only | split)

theorem kept_execPtpTxTick {z0 zt : State} (now : Nat) (lane : Fin 32) (kind : Fin 3) {s : State} (hk : Kept z0 s) (ht : execPtpTxTick now lane kind s = .next zt) : Kept z0 zt := by
  unfold execPtpTxTick at ht
  cases ht
  repeat' (first | with_reducible assumption | (simp (maxDischargeDepth := 100) +contextual only [hk, kept_lit, kept_markN, kept_copy, kept_zeroWrN, kept_ite, ite_self, implies_true, forall_const, kept_atTime, kept_emit, kept_forEach]; done) | (with_reducible refine kept_forEach ?_ ?_) | (intro _ _ hk) | with_reducible apply kept_ite | with_reducible apply kept_atTime | with_reducible apply kept_emit | with_reducible exact kept_lit hk .. | dsimp only | split)

theorem kept_execAnnounceTimeout {z0 zt : State} (now : Nat) (mirror : Bool) {s : State} (hk : Kept z0 s) (ht : execAnnounceTimeout now mirror s = .next zt) : Kept z0 zt := by
  unfold execAnnounceTimeout at ht
  cases ht
  repeat' (first | with_reducible assumption | (simp (maxDischargeDepth := 100) +contextual only [hk, kept_lit, kept_markN, kept_copy, kept_zeroWrN, kept_ite, ite_self, implies_true, forall_const, kept_atTime, kept_enterHoldover, kept_modDom]; done) | (intro _ _ hk) | with_reducible apply kept_ite | with_reducible apply kept_atTime | with_reducible apply kept_enterHoldover | with_reducible apply kept_modDom | with_reducible exact kept_lit hk .. | dsimp only | split)

theorem kept_execTimeDomainSelect {z0 zt : State} (m : Fin 16) {s : State} (hk : Kept z0 s) (ht : execTimeDomainSelect m s = .next zt) : Kept z0 zt := by
  unfold execTimeDomainSelect at ht
  cases ht
  repeat' (first | with_reducible assumption | (simp (maxDischargeDepth := 100) +contextual only [hk, kept_lit, kept_markN, kept_copy, kept_zeroWrN, kept_ite, ite_self, implies_true, forall_const, kept_modTime, kept_runCommand, kept_selectDomain]; done) | (intro _ _ hk) | with_reducible apply kept_ite | with_reducible apply kept_modTime | with_reducible apply kept_runCommand | with_reducible apply kept_selectDomain | with_reducible exact kept_lit hk .. | dsimp only | split)

theorem kept_execDomainSwitchDone {z0 zt : State} (now : Nat) {s : State} (hk : Kept z0 s) (ht : execDomainSwitchDone now s = .next zt) : Kept z0 zt := by
  unfold execDomainSwitchDone at ht
  cases ht
  repeat' (first | with_reducible assumption | (simp (maxDischargeDepth := 100) +contextual only [hk, kept_lit, kept_markN, kept_copy, kept_zeroWrN, kept_ite, ite_self, implies_true, forall_const, kept_atTime, kept_modDom, kept_modTime]; done) | (intro _ _ hk) | with_reducible apply kept_ite | with_reducible apply kept_atTime | with_reducible apply kept_modDom | with_reducible apply kept_modTime | with_reducible exact kept_lit hk .. | dsimp only | split)

theorem kept_execEsmcRx {z0 zt : State} (lane : Fin 32) (good : Bool) {s : State} (hk : Kept z0 s) (ht : execEsmcRx lane good s = .next zt) : Kept z0 zt := by
  unfold execEsmcRx at ht
  cases ht
  repeat' (first | with_reducible assumption | (simp (maxDischargeDepth := 100) +contextual only [hk, kept_lit, kept_markN, kept_copy, kept_zeroWrN, kept_ite, ite_self, implies_true, forall_const, kept_modTime]; done) | (intro _ _ hk) | with_reducible apply kept_ite | with_reducible apply kept_modTime | with_reducible exact kept_lit hk .. | dsimp only | split)

theorem kept_execEsmcTxTick {z0 zt : State} (now : Nat) {s : State} (hk : Kept z0 s) (ht : execEsmcTxTick now s = .next zt) : Kept z0 zt := by
  unfold execEsmcTxTick at ht
  cases ht
  repeat' (first | with_reducible assumption | (simp (maxDischargeDepth := 100) +contextual only [hk, kept_lit, kept_markN, kept_copy, kept_zeroWrN, kept_ite, ite_self, implies_true, forall_const, kept_atTime, kept_emit]; done) | (intro _ _ hk) | with_reducible apply kept_ite | with_reducible apply kept_atTime | with_reducible apply kept_emit | with_reducible exact kept_lit hk .. | dsimp only | split)

theorem kept_execSnapRefresh {z0 zt : State} (now : Nat) {s : State} (hk : Kept z0 s) (ht : execSnapRefresh now s = .next zt) : Kept z0 zt := by
  unfold execSnapRefresh at ht
  cases ht
  repeat' (first | with_reducible assumption | (simp (maxDischargeDepth := 100) +contextual only [hk, kept_lit, kept_markN, kept_copy, kept_zeroWrN, kept_ite, ite_self, implies_true, forall_const, kept_atTime, kept_modTime]; done) | (intro _ _ hk) | with_reducible apply kept_ite | with_reducible apply kept_atTime | with_reducible apply kept_modTime | with_reducible exact kept_lit hk .. | dsimp only | split)

theorem kept_modTpo {z0 : State} (k : Nat) (f : Tpo → Tpo) {s : State} (hk : Kept z0 s) : Kept z0 (State.modTpo k f s) := by
  unfold State.modTpo
  repeat' (first | with_reducible assumption | (simp (maxDischargeDepth := 100) +contextual only [hk, kept_lit, kept_markN, kept_copy, kept_zeroWrN, kept_ite, ite_self, implies_true, forall_const, kept_modTime]; done) | (intro _ _ hk) | with_reducible apply kept_ite | with_reducible apply kept_modTime | with_reducible exact kept_lit hk .. | dsimp only | split)

theorem kept_execTpoSet {z0 zt : State} (m : Fin 16) {s : State} (hk : Kept z0 s) (ht : execTpoSet m s = .next zt) : Kept z0 zt := by
  unfold execTpoSet at ht
  cases ht
  repeat' (first | with_reducible assumption | (simp (maxDischargeDepth := 100) +contextual only [hk, kept_lit, kept_markN, kept_copy, kept_zeroWrN, kept_ite, ite_self, implies_true, forall_const, kept_modTpo, kept_runCommand]; done) | (intro _ _ hk) | with_reducible apply kept_ite | with_reducible apply kept_modTpo | with_reducible apply kept_runCommand | with_reducible exact kept_lit hk .. | dsimp only | split)

theorem kept_execTpoEdge {z0 zt : State} (now : Nat) (output : Fin 8) {s : State} (hk : Kept z0 s) (ht : execTpoEdge now output s = .next zt) : Kept z0 zt := by
  unfold execTpoEdge at ht
  cases ht
  repeat' (first | with_reducible assumption | (simp (maxDischargeDepth := 100) +contextual only [hk, kept_lit, kept_markN, kept_copy, kept_zeroWrN, kept_ite, ite_self, implies_true, forall_const, kept_atTime, kept_modTpo]; done) | (intro _ _ hk) | with_reducible apply kept_ite | with_reducible apply kept_atTime | with_reducible apply kept_modTpo | with_reducible exact kept_lit hk .. | dsimp only | split)

theorem kept_modCapture {z0 : State} (k : Nat) (f : Capture → Capture) {s : State} (hk : Kept z0 s) : Kept z0 (State.modCapture k f s) := by
  unfold State.modCapture
  repeat' (first | with_reducible assumption | (simp (maxDischargeDepth := 100) +contextual only [hk, kept_lit, kept_markN, kept_copy, kept_zeroWrN, kept_ite, ite_self, implies_true, forall_const, kept_modTime]; done) | (intro _ _ hk) | with_reducible apply kept_ite | with_reducible apply kept_modTime | with_reducible exact kept_lit hk .. | dsimp only | split)

theorem kept_execCaptureArm {z0 zt : State} (m : Fin 16) {s : State} (hk : Kept z0 s) (ht : execCaptureArm m s = .next zt) : Kept z0 zt := by
  unfold execCaptureArm at ht
  cases ht
  repeat' (first | with_reducible assumption | (simp (maxDischargeDepth := 100) +contextual only [hk, kept_lit, kept_markN, kept_copy, kept_zeroWrN, kept_ite, ite_self, implies_true, forall_const, kept_modCapture, kept_runCommand]; done) | (intro _ _ hk) | with_reducible apply kept_ite | with_reducible apply kept_modCapture | with_reducible apply kept_runCommand | with_reducible exact kept_lit hk .. | dsimp only | split)

theorem kept_execCaptureEdge {z0 zt : State} (now : Nat) (input : Fin 4) (rising : Bool) {s : State} (hk : Kept z0 s) (ht : execCaptureEdge now input rising s = .next zt) : Kept z0 zt := by
  unfold execCaptureEdge at ht
  cases ht
  repeat' (first | with_reducible assumption | (simp (maxDischargeDepth := 100) +contextual only [hk, kept_lit, kept_markN, kept_copy, kept_zeroWrN, kept_ite, ite_self, implies_true, forall_const, kept_atTime, kept_modCapture, kept_modTime]; done) | (intro _ _ hk) | with_reducible apply kept_ite | with_reducible apply kept_atTime | with_reducible apply kept_modCapture | with_reducible apply kept_modTime | with_reducible exact kept_lit hk .. | dsimp only | split)

theorem kept_popCapture {z0 : State} (input : Nat) {s : State} (hk : Kept z0 s) : Kept z0 (State.popCapture input s) := by
  unfold State.popCapture
  repeat' (first | with_reducible assumption | (simp (maxDischargeDepth := 100) +contextual only [hk, kept_lit, kept_markN, kept_copy, kept_zeroWrN, kept_ite, ite_self, implies_true, forall_const, kept_modCapture]; done) | (intro _ _ hk) | with_reducible apply kept_ite | with_reducible apply kept_modCapture | with_reducible exact kept_lit hk .. | dsimp only | split)

theorem kept_execCapPop {z0 zt : State} (mapping : W32) (input : Fin 4) {s : State} (hk : Kept z0 s) (ht : execCapPop mapping input s = .next zt) : Kept z0 zt := by
  unfold execCapPop at ht
  cases ht
  repeat' (first | with_reducible assumption | (simp (maxDischargeDepth := 100) +contextual only [hk, kept_lit, kept_markN, kept_copy, kept_zeroWrN, kept_ite, ite_self, implies_true, forall_const, kept_popCapture]; done) | (intro _ _ hk) | with_reducible apply kept_ite | with_reducible apply kept_popCapture | with_reducible exact kept_lit hk .. | dsimp only | split)

end Sys2Proof.Machine
end

