-- ==== Sys2Proof/Laws/KeptRoutes.lean ====
section
/-! SUPPORT. The operations of Sys2Proof/Machine/Routes.lean keep what every step keeps. -/

namespace Sys2Proof.Machine

set_option linter.all false
set_option Elab.async false

theorem kept_unroute {z0 : State} (p : Nat) {s : State} (hk : Kept z0 s) : Kept z0 (State.unroute p s) := by
  unfold State.unroute
  repeat' (first | with_reducible assumption | (simp (maxDischargeDepth := 100) +contextual only [hk, kept_lit, kept_markN, kept_copy, kept_zeroWrN, kept_ite, ite_self, implies_true, forall_const, kept_modFab]; done) | (intro _ _ hk) | with_reducible apply kept_ite | with_reducible apply kept_modFab | with_reducible exact kept_lit hk .. | dsimp only | split)

theorem kept_nextFseq {z0 : State} {s : State} (hk : Kept z0 s) : Kept z0 (State.nextFseq s).2 := by
  unfold State.nextFseq
  repeat' (first | with_reducible assumption | (simp (maxDischargeDepth := 100) +contextual only [hk, kept_lit, kept_markN, kept_copy, kept_zeroWrN, kept_ite, ite_self, implies_true, forall_const, kept_modFab]; done) | (intro _ _ hk) | with_reducible apply kept_ite | with_reducible apply kept_modFab | with_reducible exact kept_lit hk .. | dsimp only | split)

theorem kept_keepReport {z0 : State} (uid : W64) (l : List LinkInfo) {s : State} (hk : Kept z0 s) : Kept z0 (State.keepReport uid l s) := by
  unfold State.keepReport
  repeat' (first | with_reducible assumption | (simp (maxDischargeDepth := 100) +contextual only [hk, kept_lit, kept_markN, kept_copy, kept_zeroWrN, kept_ite, ite_self, implies_true, forall_const, kept_modFab]; done) | (intro _ _ hk) | with_reducible apply kept_ite | with_reducible apply kept_modFab | with_reducible exact kept_lit hk .. | dsimp only | split)

theorem kept_floodNodes {z0 : State} (l : List Nat) {s : State} (hk : Kept z0 s) : Kept z0 (State.floodNodes l s) := by
  unfold State.floodNodes
  repeat' (first | with_reducible assumption | (simp (maxDischargeDepth := 100) +contextual only [hk, kept_lit, kept_markN, kept_copy, kept_zeroWrN, kept_ite, ite_self, implies_true, forall_const, kept_emit, kept_modFab, kept_nextFseq]; done) | (rename_i hq; have hz := congrArg Prod.snd hq; dsimp only at hz; subst hz; try clear hq) | (have hz := congrArg Prod.snd ‹_ = (_, _)›; dsimp only at hz; subst hz) | (intro _ _ hk) | with_reducible apply kept_ite | with_reducible apply kept_emit | with_reducible apply kept_modFab | with_reducible apply kept_nextFseq | with_reducible exact kept_lit hk .. | dsimp only | split)

theorem kept_floodFull {z0 : State} {s : State} (hk : Kept z0 s) : Kept z0 (State.floodFull s) := by
  unfold State.floodFull
  repeat' (first | with_reducible assumption | (simp (maxDischargeDepth := 100) +contextual only [hk, kept_lit, kept_markN, kept_copy, kept_zeroWrN, kept_ite, ite_self, implies_true, forall_const, kept_emit, kept_nextFseq]; done) | (rename_i hq; have hz := congrArg Prod.snd hq; dsimp only at hz; subst hz; try clear hq) | (have hz := congrArg Prod.snd ‹_ = (_, _)›; dsimp only at hz; subst hz) | (intro _ _ hk) | with_reducible apply kept_ite | with_reducible apply kept_emit | with_reducible apply kept_nextFseq | with_reducible exact kept_lit hk .. | dsimp only | split)

theorem kept_modNode {z0 : State} (n : Nat) (f : Node → Node) {s : State} (hk : Kept z0 s) : Kept z0 (State.modNode n f s) := by
  unfold State.modNode
  repeat' (first | with_reducible assumption | (simp (maxDischargeDepth := 100) +contextual only [hk, kept_lit, kept_markN, kept_copy, kept_zeroWrN, kept_ite, ite_self, implies_true, forall_const, kept_modFab]; done) | (intro _ _ hk) | with_reducible apply kept_ite | with_reducible apply kept_modFab | with_reducible exact kept_lit hk .. | dsimp only | split)

theorem kept_goneNodes {z0 : State} (l : List Nat) {s : State} (hk : Kept z0 s) : Kept z0 (State.goneNodes l s) := by
  unfold State.goneNodes
  repeat' (first | with_reducible assumption | (simp (maxDischargeDepth := 100) +contextual only [hk, kept_lit, kept_markN, kept_copy, kept_zeroWrN, kept_ite, ite_self, implies_true, forall_const, kept_floodNodes, kept_forEach, kept_modNode]; done) | (with_reducible refine kept_forEach ?_ ?_) | (intro _ _ hk) | with_reducible apply kept_ite | with_reducible apply kept_floodNodes | with_reducible apply kept_modNode | with_reducible exact kept_lit hk .. | dsimp only | split)

theorem kept_topologyChanged {z0 : State} {s : State} (hk : Kept z0 s) : Kept z0 (State.topologyChanged s) := by
  unfold State.topologyChanged
  repeat' (first | with_reducible assumption | (simp (maxDischargeDepth := 100) +contextual only [hk, kept_lit, kept_markN, kept_copy, kept_zeroWrN, kept_ite, ite_self, implies_true, forall_const, kept_goneNodes, kept_modFab]; done) | (intro _ _ hk) | with_reducible apply kept_ite | with_reducible apply kept_goneNodes | with_reducible apply kept_modFab | with_reducible exact kept_lit hk .. | dsimp only | split)

theorem kept_floodLinks {z0 : State} {s : State} (hk : Kept z0 s) : Kept z0 (State.floodLinks s) := by
  unfold State.floodLinks
  repeat' (first | with_reducible assumption | (simp (maxDischargeDepth := 100) +contextual only [hk, kept_lit, kept_markN, kept_copy, kept_zeroWrN, kept_ite, ite_self, implies_true, forall_const, kept_emit, kept_keepReport, kept_nextFseq, kept_topologyChanged]; done) | (rename_i hq; have hz := congrArg Prod.snd hq; dsimp only at hz; subst hz; try clear hq) | (have hz := congrArg Prod.snd ‹_ = (_, _)›; dsimp only at hz; subst hz) | (intro _ _ hk) | with_reducible apply kept_ite | with_reducible apply kept_emit | with_reducible apply kept_keepReport | with_reducible apply kept_nextFseq | with_reducible apply kept_topologyChanged | with_reducible exact kept_lit hk .. | dsimp only | split)

theorem kept_sendRefresh {z0 : State} (node : Option Nat) {s : State} (hk : Kept z0 s) : Kept z0 (State.sendRefresh node s) := by
  unfold State.sendRefresh
  repeat' (first | with_reducible assumption | (simp (maxDischargeDepth := 100) +contextual only [hk, kept_lit, kept_markN, kept_copy, kept_zeroWrN, kept_ite, ite_self, implies_true, forall_const, kept_emit]; done) | (intro _ _ hk) | with_reducible apply kept_ite | with_reducible apply kept_emit | with_reducible exact kept_lit hk .. | dsimp only | split)

theorem kept_sendHello {z0 : State} (p : Nat) {s : State} (hk : Kept z0 s) : Kept z0 (State.sendHello p s) := by
  unfold State.sendHello
  repeat' (first | with_reducible assumption | (simp (maxDischargeDepth := 100) +contextual only [hk, kept_lit, kept_markN, kept_copy, kept_zeroWrN, kept_ite, ite_self, implies_true, forall_const, kept_emit]; done) | (intro _ _ hk) | with_reducible apply kept_ite | with_reducible apply kept_emit | with_reducible exact kept_lit hk .. | dsimp only | split)

theorem kept_ownNode {z0 : State} (old : List (Nat × Node)) {s : State} (hk : Kept z0 s) : Kept z0 (State.ownNode old s) := by
  unfold State.ownNode
  repeat' (first | with_reducible assumption | (simp (maxDischargeDepth := 100) +contextual only [hk, kept_lit, kept_markN, kept_copy, kept_zeroWrN, kept_ite, ite_self, implies_true, forall_const, kept_forEach, kept_modFab, kept_sendHello, kept_tableChange]; done) | (with_reducible refine kept_forEach ?_ ?_) | (intro _ _ hk) | with_reducible apply kept_ite | with_reducible apply kept_modFab | with_reducible apply kept_sendHello | with_reducible apply kept_tableChange | with_reducible exact kept_lit hk .. | dsimp only | split)

end Sys2Proof.Machine
end

