-- ==== Sys2Proof/Laws/KeptFabric.lean ====
section
/-! SUPPORT. The operations of Sys2Proof/Machine/Fabric.lean keep what every step keeps. -/

namespace Sys2Proof.Machine

set_option linter.all false
set_option Elab.async false

theorem kept_modLink {z0 : State} (p : Nat) (f : FabPort → FabPort) {s : State} (hk : Kept z0 s) : Kept z0 (State.modLink p f s) := by
  unfold State.modLink
  repeat' (first | with_reducible assumption | (simp (maxDischargeDepth := 100) +contextual only [hk, kept_lit, kept_markN, kept_copy, kept_zeroWrN, kept_ite, ite_self, implies_true, forall_const, kept_modFport, kept_tableChange]; done) | (intro _ _ hk) | with_reducible apply kept_ite | with_reducible apply kept_modFport | with_reducible apply kept_tableChange | with_reducible exact kept_lit hk .. | dsimp only | split)

theorem kept_linkRecord {z0 : State} (p : Nat) (reason : Nat) {s : State} (hk : Kept z0 s) : Kept z0 (State.linkRecord p reason s) := by
  unfold State.linkRecord
  repeat' (first | with_reducible assumption | (simp (maxDischargeDepth := 100) +contextual only [hk, kept_lit, kept_markN, kept_copy, kept_zeroWrN, kept_ite, ite_self, implies_true, forall_const, kept_ledger]; done) | (intro _ _ hk) | with_reducible apply kept_ite | with_reducible apply kept_ledger | with_reducible exact kept_lit hk .. | dsimp only | split)

theorem kept_freeInput {z0 : State} (e : Queued) {s : State} (hk : Kept z0 s) : Kept z0 (State.freeInput e s) := by
  unfold State.freeInput
  repeat' (first | with_reducible assumption | (simp (maxDischargeDepth := 100) +contextual only [hk, kept_lit, kept_markN, kept_copy, kept_zeroWrN, kept_ite, ite_self, implies_true, forall_const, kept_emit]; done) | (intro _ _ hk) | with_reducible apply kept_ite | with_reducible apply kept_emit | with_reducible exact kept_lit hk .. | dsimp only | split)

theorem kept_detect {z0 : State} (p : Nat) {s : State} (hk : Kept z0 s) : Kept z0 (State.detect p s) := by
  unfold State.detect
  repeat' (first | with_reducible assumption | (simp (maxDischargeDepth := 100) +contextual only [hk, kept_lit, kept_markN, kept_copy, kept_zeroWrN, kept_ite, ite_self, implies_true, forall_const, kept_emit, kept_modLink]; done) | (intro _ _ hk) | with_reducible apply kept_ite | with_reducible apply kept_emit | with_reducible apply kept_modLink | with_reducible exact kept_lit hk .. | dsimp only | split)

theorem kept_holdPort {z0 : State} (p : Nat) (reason : Nat) {s : State} (hk : Kept z0 s) : Kept z0 (State.holdPort p reason s) := by
  unfold State.holdPort
  repeat' (first | with_reducible assumption | (simp (maxDischargeDepth := 100) +contextual only [hk, kept_lit, kept_markN, kept_copy, kept_zeroWrN, kept_ite, ite_self, implies_true, forall_const, kept_linkRecord, kept_modLink]; done) | (intro _ _ hk) | with_reducible apply kept_ite | with_reducible apply kept_linkRecord | with_reducible apply kept_modLink | with_reducible exact kept_lit hk .. | dsimp only | split)

theorem kept_trainFail {z0 : State} (p : Nat) {s : State} (hk : Kept z0 s) : Kept z0 (State.trainFail p s) := by
  unfold State.trainFail
  repeat' (first | with_reducible assumption | (simp (maxDischargeDepth := 100) +contextual only [hk, kept_lit, kept_markN, kept_copy, kept_zeroWrN, kept_ite, ite_self, implies_true, forall_const, kept_detect, kept_linkRecord, kept_modLink]; done) | (intro _ _ hk) | with_reducible apply kept_ite | with_reducible apply kept_detect | with_reducible apply kept_linkRecord | with_reducible apply kept_modLink | with_reducible exact kept_lit hk .. | dsimp only | split)

theorem kept_leaveUp {z0 : State} (p : Nat) (dst : LinkState) (byCommand : Bool) {s : State} (hk : Kept z0 s) : Kept z0 (State.leaveUp p dst byCommand s) := by
  unfold State.leaveUp
  repeat' (first | with_reducible assumption | (simp (maxDischargeDepth := 100) +contextual only [hk, kept_lit, kept_markN, kept_copy, kept_zeroWrN, kept_ite, ite_self, implies_true, forall_const, kept_detect, kept_emit, kept_evidence, kept_floodLinks, kept_forEach, kept_freeInput, kept_linkRecord, kept_modFab, kept_modLink, kept_setUnit, kept_unroute]; done) | (with_reducible refine kept_forEach ?_ ?_) | (intro _ _ hk) | with_reducible apply kept_ite | with_reducible apply kept_detect | with_reducible apply kept_emit | with_reducible apply kept_evidence | with_reducible apply kept_floodLinks | with_reducible apply kept_freeInput | with_reducible apply kept_linkRecord | with_reducible apply kept_modFab | with_reducible apply kept_modLink | with_reducible apply kept_setUnit | with_reducible apply kept_unroute | with_reducible exact kept_lit hk .. | dsimp only | split)

theorem kept_portUnitChanged {z0 : State} (p : Nat) {s : State} (hk : Kept z0 s) : Kept z0 (State.portUnitChanged p s) := by
  unfold State.portUnitChanged
  repeat' (first | with_reducible assumption | (simp (maxDischargeDepth := 100) +contextual only [hk, kept_lit, kept_markN, kept_copy, kept_zeroWrN, kept_ite, ite_self, implies_true, forall_const, kept_detect, kept_leaveUp, kept_modLink]; done) | (intro _ _ hk) | with_reducible apply kept_ite | with_reducible apply kept_detect | with_reducible apply kept_leaveUp | with_reducible apply kept_modLink | with_reducible exact kept_lit hk .. | dsimp only | split)

theorem kept_enterUp {z0 : State} (p : Nat) {s : State} (hk : Kept z0 s) : Kept z0 (State.enterUp p s) := by
  unfold State.enterUp
  repeat' (first | with_reducible assumption | (simp (maxDischargeDepth := 100) +contextual only [hk, kept_lit, kept_markN, kept_copy, kept_zeroWrN, kept_ite, ite_self, implies_true, forall_const, kept_floodLinks, kept_modLink, kept_setUnit]; done) | (intro _ _ hk) | with_reducible apply kept_ite | with_reducible apply kept_floodLinks | with_reducible apply kept_modLink | with_reducible apply kept_setUnit | with_reducible exact kept_lit hk .. | dsimp only | split)

theorem kept_execIdentifyRx {z0 zt : State} (port : Fin 32) (uid : W64) (farPort : Fin 32) {s : State} (hk : Kept z0 s)
    (ht : execIdentifyRx port uid farPort s = .next zt) : Kept z0 zt := by
  unfold execIdentifyRx at ht
  cases ht
  split
  · exact hk
  · dsimp only
    split
    · exact kept_holdPort _ _ (kept_modLink _ _ hk)
    · exact kept_modLink _ _ (kept_modLink _ _ hk)

theorem kept_execTrainPhaseDone {z0 zt : State} (port : Fin 32) (lanesOk : Byte) (offsetPpb : Int) (eye : EyeReading) {s : State} (hk : Kept z0 s) (ht : execTrainPhaseDone port lanesOk offsetPpb eye s = .next zt) : Kept z0 zt := by
  unfold execTrainPhaseDone at ht
  cases ht
  repeat' (first | with_reducible assumption | (simp (maxDischargeDepth := 100) +contextual only [hk, kept_lit, kept_markN, kept_copy, kept_zeroWrN, kept_ite, ite_self, implies_true, forall_const, kept_enterUp, kept_holdPort, kept_modFport, kept_modLink, kept_sendHello]; done) | (intro _ _ hk) | with_reducible apply kept_ite | with_reducible apply kept_enterUp | with_reducible apply kept_holdPort | with_reducible apply kept_modFport | with_reducible apply kept_modLink | with_reducible apply kept_sendHello | with_reducible exact kept_lit hk .. | dsimp only | split)

theorem kept_execTrainPhaseTimeout {z0 zt : State} (port : Fin 32) {s : State} (hk : Kept z0 s) (ht : execTrainPhaseTimeout port s = .next zt) : Kept z0 zt := by
  unfold execTrainPhaseTimeout at ht
  cases ht
  repeat' (first | with_reducible assumption | (simp (maxDischargeDepth := 100) +contextual only [hk, kept_lit, kept_markN, kept_copy, kept_zeroWrN, kept_ite, ite_self, implies_true, forall_const, kept_trainFail]; done) | (intro _ _ hk) | with_reducible apply kept_ite | with_reducible apply kept_trainFail | with_reducible exact kept_lit hk .. | dsimp only | split)

theorem kept_execDetectRetry {z0 zt : State} (now : Nat) (port : Fin 32) {s : State} (hk : Kept z0 s) (ht : execDetectRetry now port s = .next zt) : Kept z0 zt := by
  unfold execDetectRetry at ht
  cases ht
  repeat' (first | with_reducible assumption | (simp (maxDischargeDepth := 100) +contextual only [hk, kept_lit, kept_markN, kept_copy, kept_zeroWrN, kept_ite, ite_self, implies_true, forall_const, kept_at, kept_detect]; done) | (intro _ _ hk) | with_reducible apply kept_ite | with_reducible apply kept_at | with_reducible apply kept_detect | with_reducible exact kept_lit hk .. | dsimp only | split)

theorem kept_execHeldRetrain {z0 zt : State} (now : Nat) (port : Fin 32) {s : State} (hk : Kept z0 s) (ht : execHeldRetrain now port s = .next zt) : Kept z0 zt := by
  unfold execHeldRetrain at ht
  cases ht
  repeat' (first | with_reducible assumption | (simp (maxDischargeDepth := 100) +contextual only [hk, kept_lit, kept_markN, kept_copy, kept_zeroWrN, kept_ite, ite_self, implies_true, forall_const, kept_at, kept_detect]; done) | (intro _ _ hk) | with_reducible apply kept_ite | with_reducible apply kept_at | with_reducible apply kept_detect | with_reducible exact kept_lit hk .. | dsimp only | split)

theorem kept_execLinkLoss {z0 zt : State} (port : Fin 32) {s : State} (hk : Kept z0 s) (ht : execLinkLoss port s = .next zt) : Kept z0 zt := by
  unfold execLinkLoss at ht
  cases ht
  repeat' (first | with_reducible assumption | (simp (maxDischargeDepth := 100) +contextual only [hk, kept_lit, kept_markN, kept_copy, kept_zeroWrN, kept_ite, ite_self, implies_true, forall_const, kept_detect, kept_leaveUp]; done) | (intro _ _ hk) | with_reducible apply kept_ite | with_reducible apply kept_detect | with_reducible apply kept_leaveUp | with_reducible exact kept_lit hk .. | dsimp only | split)

theorem kept_execHelloRx {z0 zt : State} (port : Fin 32) (uid : W64) (inc : Nat) (node : Option Nat) (versions : List W16) (_term : Nat) (_bwUid : W64) {s : State} (hk : Kept z0 s) (ht : execHelloRx port uid inc node versions _term _bwUid s = .next zt) : Kept z0 zt := by
  unfold execHelloRx at ht
  cases ht
  repeat' (first | with_reducible assumption | (simp (maxDischargeDepth := 100) +contextual only [hk, kept_lit, kept_markN, kept_copy, kept_zeroWrN, kept_ite, ite_self, implies_true, forall_const, kept_holdPort, kept_modLink]; done) | (intro _ _ hk) | with_reducible apply kept_ite | with_reducible apply kept_holdPort | with_reducible apply kept_modLink | with_reducible exact kept_lit hk .. | dsimp only | split)

theorem kept_pump {z0 : State} (p : Nat) (x0 : Nat) {s : State} (hk : Kept z0 s) : Kept z0 (State.pump p x0 s) := by
  induction x0 generalizing s with
  | zero =>
    first | exact hk | (simp only [State.pump]; repeat' (first | with_reducible assumption | with_reducible apply ih | (simp (maxDischargeDepth := 100) +contextual only [hk, kept_lit, kept_markN, kept_copy, kept_zeroWrN, kept_ite, ite_self, implies_true, forall_const, kept_emit, kept_freeInput, kept_modFport]; done) | (intro _ _ hk) | with_reducible apply kept_ite | with_reducible apply kept_emit | with_reducible apply kept_freeInput | with_reducible apply kept_modFport | with_reducible exact kept_lit hk .. | dsimp only | split))
  | succ n ih =>
    simp only [State.pump]
    repeat' (first | with_reducible assumption | with_reducible apply ih | (simp (maxDischargeDepth := 100) +contextual only [hk, kept_lit, kept_markN, kept_copy, kept_zeroWrN, kept_ite, ite_self, implies_true, forall_const, kept_emit, kept_freeInput, kept_modFport]; done) | (intro _ _ hk) | with_reducible apply kept_ite | with_reducible apply kept_emit | with_reducible apply kept_freeInput | with_reducible apply kept_modFport | with_reducible exact kept_lit hk .. | dsimp only | split)

theorem kept_finishClose {z0 : State} (p : Nat) {s : State} (hk : Kept z0 s) : Kept z0 (State.finishClose p s) := by
  unfold State.finishClose
  repeat' (first | with_reducible assumption | (simp (maxDischargeDepth := 100) +contextual only [hk, kept_lit, kept_markN, kept_copy, kept_zeroWrN, kept_ite, ite_self, implies_true, forall_const, kept_leaveUp]; done) | (intro _ _ hk) | with_reducible apply kept_ite | with_reducible apply kept_leaveUp | with_reducible exact kept_lit hk .. | dsimp only | split)

theorem kept_execCodewordRx {z0 zt : State} (now : Nat) (port : Fin 32) (n : W16) (corrected : Nat) (uncorrectable : Bool) (flits : Nat) {s : State} (hk : Kept z0 s) (ht : execCodewordRx now port n corrected uncorrectable flits s = .next zt) : Kept z0 zt := by
  unfold execCodewordRx at ht
  cases ht
  repeat' (first | with_reducible assumption | (simp (maxDischargeDepth := 100) +contextual only [hk, kept_lit, kept_markN, kept_copy, kept_zeroWrN, kept_ite, ite_self, implies_true, forall_const, kept_at, kept_detect, kept_emit, kept_evidence, kept_finishClose, kept_leaveUp, kept_modFport]; done) | (intro _ _ hk) | with_reducible apply kept_ite | with_reducible apply kept_at | with_reducible apply kept_detect | with_reducible apply kept_emit | with_reducible apply kept_evidence | with_reducible apply kept_finishClose | with_reducible apply kept_leaveUp | with_reducible apply kept_modFport | with_reducible exact kept_lit hk .. | dsimp only | split)

theorem kept_execCreditRx {z0 zt : State} (port : Fin 32) (cw : W16) (nak : Bool) (credits : List Nat) {s : State} (hk : Kept z0 s) (ht : execCreditRx port cw nak credits s = .next zt) : Kept z0 zt := by
  unfold execCreditRx at ht
  cases ht
  repeat' (first | with_reducible assumption | (simp (maxDischargeDepth := 100) +contextual only [hk, kept_lit, kept_markN, kept_copy, kept_zeroWrN, kept_ite, ite_self, implies_true, forall_const, kept_detect, kept_emit, kept_finishClose, kept_leaveUp, kept_modFport, kept_pump]; done) | (intro _ _ hk) | with_reducible apply kept_ite | with_reducible apply kept_detect | with_reducible apply kept_emit | with_reducible apply kept_finishClose | with_reducible apply kept_leaveUp | with_reducible apply kept_modFport | with_reducible apply kept_pump | with_reducible exact kept_lit hk .. | dsimp only | split)

theorem kept_route {z0 : State} (inPort : Nat) (k : Packet) {s : State} (hk : Kept z0 s) : Kept z0 (State.route inPort k s) := by
  unfold State.route
  repeat' (first | with_reducible assumption | (simp (maxDischargeDepth := 100) +contextual only [hk, kept_lit, kept_markN, kept_copy, kept_zeroWrN, kept_ite, ite_self, implies_true, forall_const, kept_freeInput, kept_modFab, kept_modFport, kept_pump]; done) | (intro _ _ hk) | with_reducible apply kept_ite | with_reducible apply kept_freeInput | with_reducible apply kept_modFab | with_reducible apply kept_modFport | with_reducible apply kept_pump | with_reducible exact kept_lit hk .. | dsimp only | split)

theorem kept_sendPacket {z0 : State} (k : Packet) {s : State} (hk : Kept z0 s) : Kept z0 (State.sendPacket k s) := by
  unfold State.sendPacket
  repeat' (first | with_reducible assumption | (simp (maxDischargeDepth := 100) +contextual only [hk, kept_lit, kept_markN, kept_copy, kept_zeroWrN, kept_ite, ite_self, implies_true, forall_const, kept_modFab, kept_route]; done) | (intro _ _ hk) | with_reducible apply kept_ite | with_reducible apply kept_modFab | with_reducible apply kept_route | with_reducible exact kept_lit hk .. | dsimp only | split)

theorem kept_sendResponse {z0 : State} (k : Packet) {s : State} (hk : Kept z0 s) : Kept z0 (State.sendResponse k s) := by
  unfold State.sendResponse
  repeat' (first | with_reducible assumption | (simp (maxDischargeDepth := 100) +contextual only [hk, kept_lit, kept_markN, kept_copy, kept_zeroWrN, kept_ite, ite_self, implies_true, forall_const, kept_sendPacket]; done) | (intro _ _ hk) | with_reducible apply kept_ite | with_reducible apply kept_sendPacket | with_reducible exact kept_lit hk .. | dsimp only | split)

theorem kept_admitHeader {z0 : State} (p : Nat) (k : Packet) {s : State} (hk : Kept z0 s) : Kept z0 (State.admitHeader p k s).2 := by
  unfold State.admitHeader
  repeat' (first | with_reducible assumption | (simp (maxDischargeDepth := 100) +contextual only [hk, kept_lit, kept_markN, kept_copy, kept_zeroWrN, kept_ite, ite_self, implies_true, forall_const, kept_countSpoof, kept_freeInput, kept_modFab, kept_modFport]; done) | (intro _ _ hk) | with_reducible apply kept_ite | with_reducible apply kept_countSpoof | with_reducible apply kept_freeInput | with_reducible apply kept_modFab | with_reducible apply kept_modFport | with_reducible exact kept_lit hk .. | dsimp only | split)

theorem kept_takePacket {z0 : State} (port : Nat) (k : Packet) {s : State} (hk : Kept z0 s) : Kept z0 (State.takePacket port k s) := by
  unfold State.takePacket
  repeat' (first | with_reducible assumption | (simp (maxDischargeDepth := 100) +contextual only [hk, kept_lit, kept_markN, kept_copy, kept_zeroWrN, kept_ite, ite_self, implies_true, forall_const, kept_freeInput, kept_modFab, kept_sendRefresh, kept_sendResponse]; done) | (intro _ _ hk) | with_reducible apply kept_ite | with_reducible apply kept_freeInput | with_reducible apply kept_modFab | with_reducible apply kept_sendRefresh | with_reducible apply kept_sendResponse | with_reducible exact kept_lit hk .. | dsimp only | split)

theorem kept_execPacketForward {z0 zt : State} (port : Fin 32) (p : Packet) {s : State} (hk : Kept z0 s) (ht : execPacketForward port p s = .next zt) : Kept z0 zt := by
  unfold execPacketForward at ht
  cases ht
  repeat' (first | with_reducible assumption | (simp (maxDischargeDepth := 100) +contextual only [hk, kept_lit, kept_markN, kept_copy, kept_zeroWrN, kept_ite, ite_self, implies_true, forall_const, kept_admitHeader, kept_route]; done) | (rename_i hq; have hz := congrArg Prod.snd hq; dsimp only at hz; subst hz; try clear hq) | (have hz := congrArg Prod.snd ‹_ = (_, _)›; dsimp only at hz; subst hz) | (intro _ _ hk) | with_reducible apply kept_ite | with_reducible apply kept_admitHeader | with_reducible apply kept_route | with_reducible exact kept_lit hk .. | dsimp only | split)

theorem kept_execPacketDeliver {z0 zt : State} (port : Fin 32) (p : Packet) {s : State} (hk : Kept z0 s) (ht : execPacketDeliver port p s = .next zt) : Kept z0 zt := by
  unfold execPacketDeliver at ht
  cases ht
  repeat' (first | with_reducible assumption | (simp (maxDischargeDepth := 100) +contextual only [hk, kept_lit, kept_markN, kept_copy, kept_zeroWrN, kept_ite, ite_self, implies_true, forall_const, kept_admitHeader, kept_takePacket]; done) | (rename_i hq; have hz := congrArg Prod.snd hq; dsimp only at hz; subst hz; try clear hq) | (have hz := congrArg Prod.snd ‹_ = (_, _)›; dsimp only at hz; subst hz) | (intro _ _ hk) | with_reducible apply kept_ite | with_reducible apply kept_admitHeader | with_reducible apply kept_takePacket | with_reducible exact kept_lit hk .. | dsimp only | split)

theorem kept_execFabPortSet {z0 zt : State} (m : Fin 16) {s : State} (hk : Kept z0 s) (ht : execFabPortSet m s = .next zt) : Kept z0 zt := by
  unfold execFabPortSet at ht
  cases ht
  repeat' (first | with_reducible assumption | (simp (maxDischargeDepth := 100) +contextual only [hk, kept_lit, kept_markN, kept_copy, kept_zeroWrN, kept_ite, ite_self, implies_true, forall_const, kept_detect, kept_finishClose, kept_floodLinks, kept_modFport, kept_modLink, kept_pump, kept_runCommand, kept_unroute]; done) | (intro _ _ hk) | with_reducible apply kept_ite | with_reducible apply kept_detect | with_reducible apply kept_finishClose | with_reducible apply kept_floodLinks | with_reducible apply kept_modFport | with_reducible apply kept_modLink | with_reducible apply kept_pump | with_reducible apply kept_runCommand | with_reducible apply kept_unroute | with_reducible exact kept_lit hk .. | dsimp only | split)

theorem kept_execFabTopologyGet {z0 zt : State} (m : Fin 16) {s : State} (hk : Kept z0 s) (ht : execFabTopologyGet m s = .next zt) : Kept z0 zt := by
  unfold execFabTopologyGet at ht
  cases ht
  repeat' (first | with_reducible assumption | (simp (maxDischargeDepth := 100) +contextual only [hk, kept_lit, kept_markN, kept_copy, kept_zeroWrN, kept_ite, ite_self, implies_true, forall_const, kept_runCommand]; done) | (intro _ _ hk) | with_reducible apply kept_ite | with_reducible apply kept_runCommand | with_reducible exact kept_lit hk .. | dsimp only | split)

end Sys2Proof.Machine
end

