-- ==== Sys2Proof/Laws/KeptFlock.lean ====
section
/-! SUPPORT. The operations of Sys2Proof/Machine/Flock.lean keep what every step keeps. -/

namespace Sys2Proof.Machine

set_option linter.all false
set_option Elab.async false

theorem kept_flooded {z0 zt : State} (msg : Nat) (port : Nat) (origin : W64) (fseq : Nat) {s : State} (hk : Kept z0 s) (ht : State.flooded msg port origin fseq s = some zt) : Kept z0 zt := by
  simp only [State.flooded, Option.map_eq_some_iff] at ht
  repeat' split at ht
  all_goals (try simp only [Option.map_eq_some_iff] at ht)
  all_goals first | (obtain ⟨_, _, rfl⟩ := ht) | cases ht | skip
  repeat' (first | with_reducible assumption | (simp (maxDischargeDepth := 100) +contextual only [hk, kept_lit, kept_markN, kept_copy, kept_zeroWrN, kept_ite, ite_self, implies_true, forall_const, kept_emit, kept_modFab]; done) | (intro _ _ hk) | with_reducible apply kept_ite | with_reducible apply kept_emit | with_reducible apply kept_modFab | with_reducible exact kept_lit hk .. | dsimp only | split)

theorem kept_sendUp {z0 : State} (msg : Nat) (uid : W64) {s : State} (hk : Kept z0 s) : Kept z0 (State.sendUp msg uid s) := by
  unfold State.sendUp
  repeat' (first | with_reducible assumption | (simp (maxDischargeDepth := 100) +contextual only [hk, kept_lit, kept_markN, kept_copy, kept_zeroWrN, kept_ite, ite_self, implies_true, forall_const, kept_emit]; done) | (intro _ _ hk) | with_reducible apply kept_ite | with_reducible apply kept_emit | with_reducible exact kept_lit hk .. | dsimp only | split)

theorem kept_floodCandidate {z0 : State} {s : State} (hk : Kept z0 s) : Kept z0 (State.floodCandidate s) := by
  unfold State.floodCandidate
  repeat' (first | with_reducible assumption | (simp (maxDischargeDepth := 100) +contextual only [hk, kept_lit, kept_markN, kept_copy, kept_zeroWrN, kept_ite, ite_self, implies_true, forall_const, kept_emit, kept_nextFseq]; done) | (rename_i hq; have hz := congrArg Prod.snd hq; dsimp only at hz; subst hz; try clear hq) | (have hz := congrArg Prod.snd ‹_ = (_, _)›; dsimp only at hz; subst hz) | (intro _ _ hk) | with_reducible apply kept_ite | with_reducible apply kept_emit | with_reducible apply kept_nextFseq | with_reducible exact kept_lit hk .. | dsimp only | split)

theorem kept_elect {z0 : State} (term : Nat) {s : State} (hk : Kept z0 s) : Kept z0 (State.elect term s) := by
  unfold State.elect
  repeat' (first | with_reducible assumption | (simp (maxDischargeDepth := 100) +contextual only [hk, kept_lit, kept_markN, kept_copy, kept_zeroWrN, kept_ite, ite_self, implies_true, forall_const, kept_floodCandidate, kept_modFab]; done) | (intro _ _ hk) | with_reducible apply kept_ite | with_reducible apply kept_floodCandidate | with_reducible apply kept_modFab | with_reducible exact kept_lit hk .. | dsimp only | split)

theorem kept_adopt {z0 : State} (term : Nat) (vote : W64) {s : State} (hk : Kept z0 s) : Kept z0 (State.adopt term vote s) := by
  unfold State.adopt
  repeat' (first | with_reducible assumption | (simp (maxDischargeDepth := 100) +contextual only [hk, kept_lit, kept_markN, kept_copy, kept_zeroWrN, kept_ite, ite_self, implies_true, forall_const, kept_floodCandidate, kept_modFab]; done) | (intro _ _ hk) | with_reducible apply kept_ite | with_reducible apply kept_floodCandidate | with_reducible apply kept_modFab | with_reducible exact kept_lit hk .. | dsimp only | split)

theorem kept_beacon {z0 : State} {s : State} (hk : Kept z0 s) : Kept z0 (State.beacon s) := by
  unfold State.beacon
  repeat' (first | with_reducible assumption | (simp (maxDischargeDepth := 100) +contextual only [hk, kept_lit, kept_markN, kept_copy, kept_zeroWrN, kept_ite, ite_self, implies_true, forall_const, kept_emit, kept_modFab, kept_nextFseq]; done) | (rename_i hq; have hz := congrArg Prod.snd hq; dsimp only at hz; subst hz; try clear hq) | (have hz := congrArg Prod.snd ‹_ = (_, _)›; dsimp only at hz; subst hz) | (intro _ _ hk) | with_reducible apply kept_ite | with_reducible apply kept_emit | with_reducible apply kept_modFab | with_reducible apply kept_nextFseq | with_reducible exact kept_lit hk .. | dsimp only | split)

theorem kept_acceptBellwether {z0 : State} (uid : W64) {s : State} (hk : Kept z0 s) : Kept z0 (State.acceptBellwether uid s) := by
  unfold State.acceptBellwether
  repeat' (first | with_reducible assumption | (simp (maxDischargeDepth := 100) +contextual only [hk, kept_lit, kept_markN, kept_copy, kept_zeroWrN, kept_ite, ite_self, implies_true, forall_const, kept_modFab]; done) | (intro _ _ hk) | with_reducible apply kept_ite | with_reducible apply kept_modFab | with_reducible exact kept_lit hk .. | dsimp only | split)

theorem kept_execBeaconTick {z0 zt : State} (now : Nat) {s : State} (hk : Kept z0 s) (ht : execBeaconTick now s = .next zt) : Kept z0 zt := by
  unfold execBeaconTick at ht
  cases ht
  repeat' (first | with_reducible assumption | (simp (maxDischargeDepth := 100) +contextual only [hk, kept_lit, kept_markN, kept_copy, kept_zeroWrN, kept_ite, ite_self, implies_true, forall_const, kept_at, kept_beacon]; done) | (intro _ _ hk) | with_reducible apply kept_ite | with_reducible apply kept_at | with_reducible apply kept_beacon | with_reducible exact kept_lit hk .. | dsimp only | split)

theorem kept_execBeaconTimeout {z0 zt : State} (now : Nat) {s : State} (hk : Kept z0 s) (ht : execBeaconTimeout now s = .next zt) : Kept z0 zt := by
  unfold execBeaconTimeout at ht
  cases ht
  repeat' (first | with_reducible assumption | (simp (maxDischargeDepth := 100) +contextual only [hk, kept_lit, kept_markN, kept_copy, kept_zeroWrN, kept_ite, ite_self, implies_true, forall_const, kept_at, kept_elect]; done) | (intro _ _ hk) | with_reducible apply kept_ite | with_reducible apply kept_at | with_reducible apply kept_elect | with_reducible exact kept_lit hk .. | dsimp only | split)

theorem kept_execBeaconRx {z0 zt : State} (now : Nat) (port : Fin 32) (origin : W64) (fseq term tableVersion epoch : Nat) {s : State}
    (hk : Kept z0 s) (ht : execBeaconRx now port origin fseq term tableVersion epoch s = .next zt) : Kept z0 zt := by
  unfold execBeaconRx at ht
  cases ht
  dsimp only
  split
  · exact kept_at _ hk
  · rename_i s1 h1
    have h := kept_flooded _ _ _ _ (kept_at now hk) h1
    clear h1
    generalize s1.fab = f
    split
    · exact kept_elect _ h
    · split
      · exact h
      · have h2 := kept_acceptBellwether origin (kept_modFab (fun f => { f with term, parent := some port.val, lastBeacon := s1.time.now, bellwether := false }) h)
        revert h2
        generalize State.acceptBellwether _ _ = s2
        intro h2
        split
        · exact kept_elect _ h2
        · split
          · exact kept_sendRefresh _ h2
          · split
            · exact kept_sendRefresh _ h2
            · exact h2

theorem kept_execCandidateRx {z0 zt : State} (now : Nat) (port : Fin 32) (origin : W64) (fseq : Nat) (term : Nat) (vote : W64) {s : State} (hk : Kept z0 s) (ht : execCandidateRx now port origin fseq term vote s = .next zt) : Kept z0 zt := by
  unfold execCandidateRx at ht
  cases ht
  repeat' (first | with_reducible assumption | (simp (maxDischargeDepth := 100) +contextual only [hk, kept_lit, kept_markN, kept_copy, kept_zeroWrN, kept_ite, ite_self, implies_true, forall_const, kept_adopt, kept_at]; done) | (intro _ _ hk) | (refine kept_flooded _ _ _ _  ?_ (by assumption)) | with_reducible apply kept_ite | with_reducible apply kept_adopt | with_reducible apply kept_at | with_reducible exact kept_lit hk .. | dsimp only | split)

theorem kept_record {z0 : State} (n : Nat) (uid : W64) (inc : Nat) (versions : List W16) {s : State} (hk : Kept z0 s) : Kept z0 (State.record n uid inc versions s) := by
  unfold State.record
  repeat' (first | with_reducible assumption | (simp (maxDischargeDepth := 100) +contextual only [hk, kept_lit, kept_markN, kept_copy, kept_zeroWrN, kept_ite, ite_self, implies_true, forall_const, kept_floodNodes, kept_modNode, kept_ownNode]; done) | (intro _ _ hk) | with_reducible apply kept_ite | with_reducible apply kept_floodNodes | with_reducible apply kept_modNode | with_reducible apply kept_ownNode | with_reducible exact kept_lit hk .. | dsimp only | split)

theorem kept_join {z0 : State} (uid : W64) (hint : Option Nat) (inc : Nat) (versions : List W16) {s : State} (hk : Kept z0 s) : Kept z0 (State.join uid hint inc versions s) := by
  unfold State.join
  repeat' (first | with_reducible assumption | (simp (maxDischargeDepth := 100) +contextual only [hk, kept_lit, kept_markN, kept_copy, kept_zeroWrN, kept_ite, ite_self, implies_true, forall_const, kept_floodNodes, kept_modNode, kept_record]; done) | (intro _ _ hk) | with_reducible apply kept_ite | with_reducible apply kept_floodNodes | with_reducible apply kept_modNode | with_reducible apply kept_record | with_reducible exact kept_lit hk .. | dsimp only | split)

theorem kept_becomeBellwether {z0 : State} {s : State} (hk : Kept z0 s) : Kept z0 (State.becomeBellwether s) := by
  unfold State.becomeBellwether
  repeat' (first | with_reducible assumption | (simp (maxDischargeDepth := 100) +contextual only [hk, kept_lit, kept_markN, kept_copy, kept_zeroWrN, kept_ite, ite_self, implies_true, forall_const, kept_acceptBellwether, kept_beacon, kept_join, kept_keepReport, kept_modFab, kept_topologyChanged]; done) | (intro _ _ hk) | with_reducible apply kept_ite | with_reducible apply kept_acceptBellwether | with_reducible apply kept_beacon | with_reducible apply kept_join | with_reducible apply kept_keepReport | with_reducible apply kept_modFab | with_reducible apply kept_topologyChanged | with_reducible exact kept_lit hk .. | dsimp only | split)

theorem kept_execElectionSettle {z0 zt : State} (now : Nat) {s : State} (hk : Kept z0 s) (ht : execElectionSettle now s = .next zt) : Kept z0 zt := by
  unfold execElectionSettle at ht
  cases ht
  repeat' (first | with_reducible assumption | (simp (maxDischargeDepth := 100) +contextual only [hk, kept_lit, kept_markN, kept_copy, kept_zeroWrN, kept_ite, ite_self, implies_true, forall_const, kept_at, kept_becomeBellwether, kept_modFab]; done) | (intro _ _ hk) | with_reducible apply kept_ite | with_reducible apply kept_at | with_reducible apply kept_becomeBellwether | with_reducible apply kept_modFab | with_reducible exact kept_lit hk .. | dsimp only | split)

theorem kept_execLinkReportRx {z0 zt : State} (port : Fin 32) (origin : W64) (fseq : Nat) (links : List LinkInfo) {s : State} (hk : Kept z0 s) (ht : execLinkReportRx port origin fseq links s = .next zt) : Kept z0 zt := by
  unfold execLinkReportRx at ht
  cases ht
  repeat' (first | with_reducible assumption | (simp (maxDischargeDepth := 100) +contextual only [hk, kept_lit, kept_markN, kept_copy, kept_zeroWrN, kept_ite, ite_self, implies_true, forall_const, kept_keepReport, kept_topologyChanged]; done) | (intro _ _ hk) | (refine kept_flooded _ _ _ _  ?_ (by assumption)) | with_reducible apply kept_ite | with_reducible apply kept_keepReport | with_reducible apply kept_topologyChanged | with_reducible exact kept_lit hk .. | dsimp only | split)

theorem kept_execLinkReportTick {z0 zt : State} (now : Nat) {s : State} (hk : Kept z0 s) (ht : execLinkReportTick now s = .next zt) : Kept z0 zt := by
  unfold execLinkReportTick at ht
  cases ht
  repeat' (first | with_reducible assumption | (simp (maxDischargeDepth := 100) +contextual only [hk, kept_lit, kept_markN, kept_copy, kept_zeroWrN, kept_ite, ite_self, implies_true, forall_const, kept_at, kept_floodLinks]; done) | (intro _ _ hk) | with_reducible apply kept_ite | with_reducible apply kept_at | with_reducible apply kept_floodLinks | with_reducible exact kept_lit hk .. | dsimp only | split)

theorem kept_putNodes {z0 : State} (l : List NodeEntry) {s : State} (hk : Kept z0 s) : Kept z0 (State.putNodes l s) := by
  unfold State.putNodes
  repeat' (first | with_reducible assumption | (simp (maxDischargeDepth := 100) +contextual only [hk, kept_lit, kept_markN, kept_copy, kept_zeroWrN, kept_ite, ite_self, implies_true, forall_const, kept_forEach, kept_modNode]; done) | (with_reducible refine kept_forEach ?_ ?_) | (intro _ _ hk) | with_reducible apply kept_ite | with_reducible apply kept_modNode | with_reducible exact kept_lit hk .. | dsimp only | split)

theorem kept_mergeEntry {z0 : State} (e : NodeEntry) {s : State} (hk : Kept z0 s) : Kept z0 (State.mergeEntry e s) := by
  unfold State.mergeEntry
  repeat' (first | with_reducible assumption | (simp (maxDischargeDepth := 100) +contextual only [hk, kept_lit, kept_markN, kept_copy, kept_zeroWrN, kept_ite, ite_self, implies_true, forall_const, kept_record]; done) | (intro _ _ hk) | with_reducible apply kept_ite | with_reducible apply kept_record | with_reducible exact kept_lit hk .. | dsimp only | split)

theorem kept_execNodeTableRx {z0 zt : State} (port : Fin 32) (origin : W64) (fseq : Nat) (version : Nat) (full : Bool) (entries : List NodeEntry) {s : State} (hk : Kept z0 s) (ht : execNodeTableRx port origin fseq version full entries s = .next zt) : Kept z0 zt := by
  unfold execNodeTableRx at ht
  cases ht
  repeat' (first | with_reducible assumption | (simp (maxDischargeDepth := 100) +contextual only [hk, kept_lit, kept_markN, kept_copy, kept_zeroWrN, kept_ite, ite_self, implies_true, forall_const, kept_forEach, kept_mergeEntry, kept_modFab, kept_ownNode, kept_putNodes, kept_sendRefresh]; done) | (with_reducible refine kept_forEach ?_ ?_) | (intro _ _ hk) | (refine kept_flooded _ _ _ _  ?_ (by assumption)) | with_reducible apply kept_ite | with_reducible apply kept_mergeEntry | with_reducible apply kept_modFab | with_reducible apply kept_ownNode | with_reducible apply kept_putNodes | with_reducible apply kept_sendRefresh | with_reducible exact kept_lit hk .. | dsimp only | split)

theorem kept_execRefreshRx {z0 zt : State} (now : Nat) (port : Fin 32) (uid : W64) (hint : Option Nat) (inc : Nat) (versions : List W16) (tableVersion : Nat) {s : State} (hk : Kept z0 s) (ht : execRefreshRx now port uid hint inc versions tableVersion s = .next zt) : Kept z0 zt := by
  unfold execRefreshRx at ht
  cases ht
  repeat' (first | with_reducible assumption | (simp (maxDischargeDepth := 100) +contextual only [hk, kept_lit, kept_markN, kept_copy, kept_zeroWrN, kept_ite, ite_self, implies_true, forall_const, kept_at, kept_floodFull, kept_join, kept_sendUp]; done) | (intro _ _ hk) | with_reducible apply kept_ite | with_reducible apply kept_at | with_reducible apply kept_floodFull | with_reducible apply kept_join | with_reducible apply kept_sendUp | with_reducible exact kept_lit hk .. | dsimp only | split)

theorem kept_execNodeReserveExpiry {z0 zt : State} (now : Nat) (node : Fin 4096) {s : State} (hk : Kept z0 s) (ht : execNodeReserveExpiry now node s = .next zt) : Kept z0 zt := by
  unfold execNodeReserveExpiry at ht
  cases ht
  repeat' (first | with_reducible assumption | (simp (maxDischargeDepth := 100) +contextual only [hk, kept_lit, kept_markN, kept_copy, kept_zeroWrN, kept_ite, ite_self, implies_true, forall_const, kept_at, kept_floodNodes, kept_modNode]; done) | (intro _ _ hk) | with_reducible apply kept_ite | with_reducible apply kept_at | with_reducible apply kept_floodNodes | with_reducible apply kept_modNode | with_reducible exact kept_lit hk .. | dsimp only | split)

theorem kept_loadPlan {z0 : State} (epoch : Nat) (torus : Bool) (root : Nat) (shape : W32) {s : State} (hk : Kept z0 s) : Kept z0 (State.loadPlan epoch torus root shape s) := by
  unfold State.loadPlan
  repeat' (first | with_reducible assumption | (simp (maxDischargeDepth := 100) +contextual only [hk, kept_lit, kept_markN, kept_copy, kept_zeroWrN, kept_ite, ite_self, implies_true, forall_const, kept_modFab]; done) | (intro _ _ hk) | with_reducible apply kept_ite | with_reducible apply kept_modFab | with_reducible exact kept_lit hk .. | dsimp only | split)

theorem kept_commitEpoch {z0 : State} (epoch : Nat) {s : State} (hk : Kept z0 s) : Kept z0 (State.commitEpoch epoch s) := by
  unfold State.commitEpoch
  repeat' (first | with_reducible assumption | (simp (maxDischargeDepth := 100) +contextual only [hk, kept_lit, kept_markN, kept_copy, kept_zeroWrN, kept_ite, ite_self, implies_true, forall_const, kept_modFab]; done) | (intro _ _ hk) | with_reducible apply kept_ite | with_reducible apply kept_modFab | with_reducible exact kept_lit hk .. | dsimp only | split)

theorem kept_commitIfAll {z0 : State} {s : State} (hk : Kept z0 s) : Kept z0 (State.commitIfAll s) := by
  unfold State.commitIfAll
  repeat' (first | with_reducible assumption | (simp (maxDischargeDepth := 100) +contextual only [hk, kept_lit, kept_markN, kept_copy, kept_zeroWrN, kept_ite, ite_self, implies_true, forall_const, kept_commitEpoch, kept_emit, kept_modFab, kept_nextFseq]; done) | (rename_i hq; have hz := congrArg Prod.snd hq; dsimp only at hz; subst hz; try clear hq) | (have hz := congrArg Prod.snd ‹_ = (_, _)›; dsimp only at hz; subst hz) | (intro _ _ hk) | with_reducible apply kept_ite | with_reducible apply kept_commitEpoch | with_reducible apply kept_emit | with_reducible apply kept_modFab | with_reducible apply kept_nextFseq | with_reducible exact kept_lit hk .. | dsimp only | split)

theorem kept_issuePlan {z0 : State} {s : State} (hk : Kept z0 s) : Kept z0 (State.issuePlan s) := by
  unfold State.issuePlan
  repeat' (first | with_reducible assumption | (simp (maxDischargeDepth := 100) +contextual only [hk, kept_lit, kept_markN, kept_copy, kept_zeroWrN, kept_ite, ite_self, implies_true, forall_const, kept_commitIfAll, kept_emit, kept_loadPlan, kept_modFab, kept_nextFseq]; done) | (rename_i hq; have hz := congrArg Prod.snd hq; dsimp only at hz; subst hz; try clear hq) | (have hz := congrArg Prod.snd ‹_ = (_, _)›; dsimp only at hz; subst hz) | (intro _ _ hk) | with_reducible apply kept_ite | with_reducible apply kept_commitIfAll | with_reducible apply kept_emit | with_reducible apply kept_loadPlan | with_reducible apply kept_modFab | with_reducible apply kept_nextFseq | with_reducible exact kept_lit hk .. | dsimp only | split)

theorem kept_execRoutePlanIssue {z0 zt : State} (now : Nat) {s : State} (hk : Kept z0 s) (ht : execRoutePlanIssue now s = .next zt) : Kept z0 zt := by
  unfold execRoutePlanIssue at ht
  cases ht
  repeat' (first | with_reducible assumption | (simp (maxDischargeDepth := 100) +contextual only [hk, kept_lit, kept_markN, kept_copy, kept_zeroWrN, kept_ite, ite_self, implies_true, forall_const, kept_at, kept_issuePlan]; done) | (intro _ _ hk) | with_reducible apply kept_ite | with_reducible apply kept_at | with_reducible apply kept_issuePlan | with_reducible exact kept_lit hk .. | dsimp only | split)

theorem kept_execRoutePlanRx {z0 zt : State} (port : Fin 32) (origin : W64) (fseq : Nat) (epoch : Nat) (torus : Bool) (root : Nat) (shape : W32) (tableVersion : Nat) {s : State} (hk : Kept z0 s) (ht : execRoutePlanRx port origin fseq epoch torus root shape tableVersion s = .next zt) : Kept z0 zt := by
  unfold execRoutePlanRx at ht
  cases ht
  repeat' (first | with_reducible assumption | (simp (maxDischargeDepth := 100) +contextual only [hk, kept_lit, kept_markN, kept_copy, kept_zeroWrN, kept_ite, ite_self, implies_true, forall_const, kept_emit, kept_loadPlan, kept_sendRefresh]; done) | (intro _ _ hk) | (refine kept_flooded _ _ _ _  ?_ (by assumption)) | with_reducible apply kept_ite | with_reducible apply kept_emit | with_reducible apply kept_loadPlan | with_reducible apply kept_sendRefresh | with_reducible exact kept_lit hk .. | dsimp only | split)

theorem kept_execPlanAckRx {z0 zt : State} (port : Fin 32) (uid : W64) (epoch : Nat) {s : State} (hk : Kept z0 s) (ht : execPlanAckRx port uid epoch s = .next zt) : Kept z0 zt := by
  unfold execPlanAckRx at ht
  cases ht
  repeat' (first | with_reducible assumption | (simp (maxDischargeDepth := 100) +contextual only [hk, kept_lit, kept_markN, kept_copy, kept_zeroWrN, kept_ite, ite_self, implies_true, forall_const, kept_commitIfAll, kept_modFab, kept_sendUp]; done) | (intro _ _ hk) | with_reducible apply kept_ite | with_reducible apply kept_commitIfAll | with_reducible apply kept_modFab | with_reducible apply kept_sendUp | with_reducible exact kept_lit hk .. | dsimp only | split)

theorem kept_execPlanAckTimeout {z0 zt : State} (now : Nat) {s : State} (hk : Kept z0 s) (ht : execPlanAckTimeout now s = .next zt) : Kept z0 zt := by
  unfold execPlanAckTimeout at ht
  cases ht
  repeat' (first | with_reducible assumption | (simp (maxDischargeDepth := 100) +contextual only [hk, kept_lit, kept_markN, kept_copy, kept_zeroWrN, kept_ite, ite_self, implies_true, forall_const, kept_at, kept_goneNodes, kept_issuePlan, kept_modFab]; done) | (intro _ _ hk) | with_reducible apply kept_ite | with_reducible apply kept_at | with_reducible apply kept_goneNodes | with_reducible apply kept_issuePlan | with_reducible apply kept_modFab | with_reducible exact kept_lit hk .. | dsimp only | split)

theorem kept_execCommitRx {z0 zt : State} (port : Fin 32) (origin : W64) (fseq : Nat) (epoch : Nat) {s : State} (hk : Kept z0 s) (ht : execCommitRx port origin fseq epoch s = .next zt) : Kept z0 zt := by
  unfold execCommitRx at ht
  cases ht
  repeat' (first | with_reducible assumption | (simp (maxDischargeDepth := 100) +contextual only [hk, kept_lit, kept_markN, kept_copy, kept_zeroWrN, kept_ite, ite_self, implies_true, forall_const, kept_commitEpoch]; done) | (intro _ _ hk) | (refine kept_flooded _ _ _ _  ?_ (by assumption)) | with_reducible apply kept_ite | with_reducible apply kept_commitEpoch | with_reducible exact kept_lit hk .. | dsimp only | split)

end Sys2Proof.Machine
end

