-- ==== Sys2Proof/Laws/KeptFabOps.lean ====
section
/-! SUPPORT. The operations of Sys2Proof/Machine/FabOps.lean keep what every step keeps. -/

namespace Sys2Proof.Machine

set_option linter.all false
set_option Elab.async false

theorem kept_objPutN {z0 : State} (e : Nat) (x0 : Nat) (x1 : Nat) (x2 : Bytes) {s : State} (hk : Kept z0 s) : Kept z0 (State.objPutN e x0 x1 x2 s) := by
  induction x0 generalizing x1 x2 s with
  | zero =>
    first | exact hk | (simp only [State.objPutN]; repeat' (first | with_reducible assumption | with_reducible apply ih | (simp (maxDischargeDepth := 100) +contextual only [hk, kept_lit, kept_markN, kept_copy, kept_zeroWrN, kept_ite, ite_self, implies_true, forall_const, kept_objWrite]; done) | (intro _ _ hk) | with_reducible apply kept_ite | with_reducible apply kept_objWrite | with_reducible exact kept_lit hk .. | dsimp only | split))
  | succ n ih =>
    simp only [State.objPutN]
    repeat' (first | with_reducible assumption | with_reducible apply ih | (simp (maxDischargeDepth := 100) +contextual only [hk, kept_lit, kept_markN, kept_copy, kept_zeroWrN, kept_ite, ite_self, implies_true, forall_const, kept_objWrite]; done) | (intro _ _ hk) | with_reducible apply kept_ite | with_reducible apply kept_objWrite | with_reducible exact kept_lit hk .. | dsimp only | split)

theorem kept_objPut {z0 : State} (e : Nat) (off : Nat) (b : Bytes) {s : State} (hk : Kept z0 s) : Kept z0 (State.objPut e off b s) := by
  unfold State.objPut
  repeat' (first | with_reducible assumption | (simp (maxDischargeDepth := 100) +contextual only [hk, kept_lit, kept_markN, kept_copy, kept_zeroWrN, kept_ite, ite_self, implies_true, forall_const, kept_objPutN]; done) | (intro _ _ hk) | with_reducible apply kept_ite | with_reducible apply kept_objPutN | with_reducible exact kept_lit hk .. | dsimp only | split)

theorem kept_fetchN {z0 : State} (e : Nat) (x0 : Nat) (x1 : Nat) (x2 : Nat) {s : State} (hk : Kept z0 s) : Kept z0 (State.fetchN e x0 x1 x2 s).2 := by
  induction x0 generalizing x1 x2 s with
  | zero =>
    first | exact hk | (simp only [State.fetchN]; repeat' (first | with_reducible assumption | with_reducible apply ih | (simp (maxDischargeDepth := 100) +contextual only [hk, kept_lit, kept_markN, kept_copy, kept_zeroWrN, kept_ite, ite_self, implies_true, forall_const, kept_fetch]; done) | (rename_i hq; have hz := congrArg Prod.snd hq; dsimp only at hz; subst hz; try clear hq) | (rename_i hq; have hz := congrArg Prod.snd hq; dsimp only at hz; subst hz; try clear hq) | (have hz := congrArg Prod.snd ‹_ = (_, _)›; dsimp only at hz; subst hz) | (intro _ _ hk) | with_reducible apply kept_ite | with_reducible apply kept_fetch | with_reducible exact kept_lit hk .. | dsimp only | split))
  | succ n ih =>
    simp only [State.fetchN]
    repeat' (first | with_reducible assumption | with_reducible apply ih | (simp (maxDischargeDepth := 100) +contextual only [hk, kept_lit, kept_markN, kept_copy, kept_zeroWrN, kept_ite, ite_self, implies_true, forall_const, kept_fetch]; done) | (rename_i hq; have hz := congrArg Prod.snd hq; dsimp only at hz; subst hz; try clear hq) | (rename_i hq; have hz := congrArg Prod.snd hq; dsimp only at hz; subst hz; try clear hq) | (have hz := congrArg Prod.snd ‹_ = (_, _)›; dsimp only at hz; subst hz) | (intro _ _ hk) | with_reducible apply kept_ite | with_reducible apply kept_fetch | with_reducible exact kept_lit hk .. | dsimp only | split)

theorem kept_fetchWhole {z0 : State} (e : Nat) (off : Nat) (n : Nat) {s : State} (hk : Kept z0 s) : Kept z0 (State.fetchWhole e off n s).2 := by
  unfold State.fetchWhole
  repeat' (first | with_reducible assumption | (simp (maxDischargeDepth := 100) +contextual only [hk, kept_lit, kept_markN, kept_copy, kept_zeroWrN, kept_ite, ite_self, implies_true, forall_const, kept_fetchN]; done) | (rename_i hq; have hz := congrArg Prod.snd hq; dsimp only at hz; subst hz; try clear hq) | (have hz := congrArg Prod.snd ‹_ = (_, _)›; dsimp only at hz; subst hz) | (intro _ _ hk) | with_reducible apply kept_ite | with_reducible apply kept_fetchN | with_reducible exact kept_lit hk .. | dsimp only | split)

theorem kept_setFdesc {z0 : State} (id : Nat) (d : Option FabDesc) {s : State} (hk : Kept z0 s) : Kept z0 (State.setFdesc id d s) := by
  unfold State.setFdesc
  repeat' (first | with_reducible assumption | (simp (maxDischargeDepth := 100) +contextual only [hk, kept_lit, kept_markN, kept_copy, kept_zeroWrN, kept_ite, ite_self, implies_true, forall_const, kept_modFabMem]; done) | (intro _ _ hk) | with_reducible apply kept_ite | with_reducible apply kept_modFabMem | with_reducible exact kept_lit hk .. | dsimp only | split)

theorem kept_modFdesc {z0 : State} (id : Nat) (f : FabDesc → FabDesc) {s : State} (hk : Kept z0 s) : Kept z0 (State.modFdesc id f s) := by
  unfold State.modFdesc
  repeat' (first | with_reducible assumption | (simp (maxDischargeDepth := 100) +contextual only [hk, kept_lit, kept_markN, kept_copy, kept_zeroWrN, kept_ite, ite_self, implies_true, forall_const, kept_setFdesc]; done) | (intro _ _ hk) | with_reducible apply kept_ite | with_reducible apply kept_setFdesc | with_reducible exact kept_lit hk .. | dsimp only | split)

theorem kept_modDest {z0 : State} (n : Nat) (f : Dest → Dest) {s : State} (hk : Kept z0 s) : Kept z0 (State.modDest n f s) := by
  unfold State.modDest
  repeat' (first | with_reducible assumption | (simp (maxDischargeDepth := 100) +contextual only [hk, kept_lit, kept_markN, kept_copy, kept_zeroWrN, kept_ite, ite_self, implies_true, forall_const, kept_modFabMem]; done) | (intro _ _ hk) | with_reducible apply kept_ite | with_reducible apply kept_modFabMem | with_reducible exact kept_lit hk .. | dsimp only | split)

theorem kept_finishDesc {z0 : State} (id : Nat) {s : State} (hk : Kept z0 s) : Kept z0 (State.finishDesc id s) := by
  unfold State.finishDesc
  repeat' (first | with_reducible assumption | (simp (maxDischargeDepth := 100) +contextual only [hk, kept_lit, kept_markN, kept_copy, kept_zeroWrN, kept_ite, ite_self, implies_true, forall_const, kept_fetch, kept_modFabMem, kept_objPut, kept_setFdesc, kept_staleDiscard]; done) | (rename_i hq; have hz := congrArg Prod.snd hq; dsimp only at hz; subst hz; try clear hq) | (have hz := congrArg Prod.snd ‹_ = (_, _)›; dsimp only at hz; subst hz) | (intro _ _ hk) | with_reducible apply kept_ite | with_reducible apply kept_fetch | with_reducible apply kept_modFabMem | with_reducible apply kept_objPut | with_reducible apply kept_setFdesc | with_reducible apply kept_staleDiscard | with_reducible exact kept_lit hk .. | dsimp only | split)

theorem kept_settleDesc {z0 : State} (id : Nat) {s : State} (hk : Kept z0 s) : Kept z0 (State.settleDesc id s) := by
  unfold State.settleDesc
  repeat' (first | with_reducible assumption | (simp (maxDischargeDepth := 100) +contextual only [hk, kept_lit, kept_markN, kept_copy, kept_zeroWrN, kept_ite, ite_self, implies_true, forall_const, kept_finishDesc]; done) | (intro _ _ hk) | with_reducible apply kept_ite | with_reducible apply kept_finishDesc | with_reducible exact kept_lit hk .. | dsimp only | split)

theorem kept_sendRequest {z0 : State} (id : Nat) (off : Nat) (counter : Bool) (k : Packet) {s : State} (hk : Kept z0 s) : Kept z0 (State.sendRequest id off counter k s) := by
  unfold State.sendRequest
  repeat' (first | with_reducible assumption | (simp (maxDischargeDepth := 100) +contextual only [hk, kept_lit, kept_markN, kept_copy, kept_zeroWrN, kept_ite, ite_self, implies_true, forall_const, kept_modDest, kept_modFabMem, kept_modFdesc, kept_sendPacket]; done) | (intro _ _ hk) | with_reducible apply kept_ite | with_reducible apply kept_modDest | with_reducible apply kept_modFabMem | with_reducible apply kept_modFdesc | with_reducible apply kept_sendPacket | with_reducible exact kept_lit hk .. | dsimp only | split)

theorem kept_sendPiece {z0 zt : State} (id : Nat) (d : FabDesc) (off : Nat) {s : State} (hk : Kept z0 s) (ht : State.sendPiece id d off s = some zt) : Kept z0 zt := by
  simp only [State.sendPiece, Option.map_eq_some_iff] at ht
  repeat' split at ht
  all_goals (try simp only [Option.map_eq_some_iff] at ht)
  all_goals first | (obtain ⟨_, _, rfl⟩ := ht) | cases ht | skip
  repeat' (first | with_reducible assumption | (simp (maxDischargeDepth := 100) +contextual only [hk, kept_lit, kept_markN, kept_copy, kept_zeroWrN, kept_ite, ite_self, implies_true, forall_const, kept_fetch, kept_modFdesc, kept_sendRequest]; done) | (rename_i hq; have hz := congrArg Prod.snd hq; dsimp only at hz; subst hz; try clear hq) | (have hz := congrArg Prod.snd ‹_ = (_, _)›; dsimp only at hz; subst hz) | (intro _ _ hk) | with_reducible apply kept_ite | with_reducible apply kept_fetch | with_reducible apply kept_modFdesc | with_reducible apply kept_sendRequest | with_reducible exact kept_lit hk .. | dsimp only | split)

theorem kept_pumpDesc {z0 : State} (id : Nat) (x0 : Nat) {s : State} (hk : Kept z0 s) : Kept z0 (State.pumpDesc id x0 s) := by
  induction x0 generalizing s with
  | zero =>
    first | exact hk | (simp only [State.pumpDesc]; repeat' (first | with_reducible assumption | with_reducible apply ih | (simp (maxDischargeDepth := 100) +contextual only [hk, kept_lit, kept_markN, kept_copy, kept_zeroWrN, kept_ite, ite_self, implies_true, forall_const, kept_modFdesc, kept_sendRequest]; done) | (intro _ _ hk) | (refine kept_sendPiece _ _ _  ?_ (by assumption)) | with_reducible apply kept_ite | with_reducible apply kept_modFdesc | with_reducible apply kept_sendRequest | with_reducible exact kept_lit hk .. | dsimp only | split))
  | succ n ih =>
    simp only [State.pumpDesc]
    repeat' (first | with_reducible assumption | with_reducible apply ih | (simp (maxDischargeDepth := 100) +contextual only [hk, kept_lit, kept_markN, kept_copy, kept_zeroWrN, kept_ite, ite_self, implies_true, forall_const, kept_modFdesc, kept_sendRequest]; done) | (intro _ _ hk) | (refine kept_sendPiece _ _ _  ?_ (by assumption)) | with_reducible apply kept_ite | with_reducible apply kept_modFdesc | with_reducible apply kept_sendRequest | with_reducible exact kept_lit hk .. | dsimp only | split)

theorem kept_pumpAll {z0 : State} {s : State} (hk : Kept z0 s) : Kept z0 (State.pumpAll s) := by
  unfold State.pumpAll
  repeat' (first | with_reducible assumption | (simp (maxDischargeDepth := 100) +contextual only [hk, kept_lit, kept_markN, kept_copy, kept_zeroWrN, kept_ite, ite_self, implies_true, forall_const, kept_forEach, kept_pumpDesc, kept_settleDesc]; done) | (with_reducible refine kept_forEach ?_ ?_) | (intro _ _ hk) | with_reducible apply kept_ite | with_reducible apply kept_pumpDesc | with_reducible apply kept_settleDesc | with_reducible exact kept_lit hk .. | dsimp only | split)

theorem kept_endRequest {z0 : State} (r : Request) (st : Status) {s : State} (hk : Kept z0 s) : Kept z0 (State.endRequest r st s) := by
  unfold State.endRequest
  repeat' (first | with_reducible assumption | (simp (maxDischargeDepth := 100) +contextual only [hk, kept_lit, kept_markN, kept_copy, kept_zeroWrN, kept_ite, ite_self, implies_true, forall_const, kept_complete, kept_modDest, kept_modFabMem, kept_modFdesc, kept_pumpAll, kept_settleDesc]; done) | (intro _ _ hk) | with_reducible apply kept_ite | with_reducible apply kept_complete | with_reducible apply kept_modDest | with_reducible apply kept_modFabMem | with_reducible apply kept_modFdesc | with_reducible apply kept_pumpAll | with_reducible apply kept_settleDesc | with_reducible exact kept_lit hk .. | dsimp only | split)

theorem kept_takeInbox {z0 : State} (p : Packet) {s : State} (hk : Kept z0 s) : Kept z0 (State.takeInbox p s) := by
  unfold State.takeInbox
  repeat' (first | with_reducible assumption | (simp (maxDischargeDepth := 100) +contextual only [hk, kept_lit, kept_markN, kept_copy, kept_zeroWrN, kept_ite, ite_self, implies_true, forall_const, kept_freeInput, kept_modFab]; done) | (intro _ _ hk) | with_reducible apply kept_ite | with_reducible apply kept_freeInput | with_reducible apply kept_modFab | with_reducible exact kept_lit hk .. | dsimp only | split)

end Sys2Proof.Machine
end

