-- ==== Sys2Proof/Laws/KeptCollective.lean ====
section
/-! SUPPORT. The operations of Sys2Proof/Machine/Collective.lean keep what every step keeps. -/

namespace Sys2Proof.Machine

set_option linter.all false
set_option Elab.async false

theorem kept_placeResult {z0 : State} (id : Nat) (off : Nat) (b : Bytes) {s : State} (hk : Kept z0 s) : Kept z0 (State.placeResult id off b s) := by
  unfold State.placeResult
  repeat' (first | with_reducible assumption | (simp (maxDischargeDepth := 100) +contextual only [hk, kept_lit, kept_markN, kept_copy, kept_zeroWrN, kept_ite, ite_self, implies_true, forall_const, kept_modFdesc, kept_objPut]; done) | (intro _ _ hk) | with_reducible apply kept_ite | with_reducible apply kept_modFdesc | with_reducible apply kept_objPut | with_reducible exact kept_lit hk .. | dsimp only | split)

theorem kept_sendDown {z0 : State} (id : Nat) (seg : Nat) (v : Nat) (top : Nat) (b : Bytes) {s : State} (hk : Kept z0 s) : Kept z0 (State.sendDown id seg v top b s) := by
  unfold State.sendDown
  repeat' (first | with_reducible assumption | (simp (maxDischargeDepth := 100) +contextual only [hk, kept_lit, kept_markN, kept_copy, kept_zeroWrN, kept_ite, ite_self, implies_true, forall_const, kept_modFdesc]; done) | (intro _ _ hk) | with_reducible apply kept_ite | with_reducible apply kept_modFdesc | with_reducible exact kept_lit hk .. | dsimp only | split)

theorem kept_advanceSeg {z0 : State} (id : Nat) (seg : Nat) (x0 : Nat) {s : State} (hk : Kept z0 s) : Kept z0 (State.advanceSeg id seg x0 s) := by
  induction x0 generalizing s with
  | zero =>
    first | exact hk | (simp only [State.advanceSeg]; repeat' (first | with_reducible assumption | with_reducible apply ih | (simp (maxDischargeDepth := 100) +contextual only [hk, kept_lit, kept_markN, kept_copy, kept_zeroWrN, kept_ite, ite_self, implies_true, forall_const, kept_modFdesc, kept_placeResult, kept_sendDown]; done) | (intro _ _ hk) | with_reducible apply kept_ite | with_reducible apply kept_modFdesc | with_reducible apply kept_placeResult | with_reducible apply kept_sendDown | with_reducible exact kept_lit hk .. | dsimp only | split))
  | succ n ih =>
    simp only [State.advanceSeg]
    repeat' (first | with_reducible assumption | with_reducible apply ih | (simp (maxDischargeDepth := 100) +contextual only [hk, kept_lit, kept_markN, kept_copy, kept_zeroWrN, kept_ite, ite_self, implies_true, forall_const, kept_modFdesc, kept_placeResult, kept_sendDown]; done) | (intro _ _ hk) | with_reducible apply kept_ite | with_reducible apply kept_modFdesc | with_reducible apply kept_placeResult | with_reducible apply kept_sendDown | with_reducible exact kept_lit hk .. | dsimp only | split)

theorem kept_advance {z0 : State} (id : Nat) {s : State} (hk : Kept z0 s) : Kept z0 (State.advance id s) := by
  unfold State.advance
  repeat' (first | with_reducible assumption | (simp (maxDischargeDepth := 100) +contextual only [hk, kept_lit, kept_markN, kept_copy, kept_zeroWrN, kept_ite, ite_self, implies_true, forall_const, kept_advanceSeg, kept_forEach]; done) | (with_reducible refine kept_forEach ?_ ?_) | (intro _ _ hk) | with_reducible apply kept_ite | with_reducible apply kept_advanceSeg | with_reducible exact kept_lit hk .. | dsimp only | split)

theorem kept_startColl {z0 : State} (id : Nat) {s : State} (hk : Kept z0 s) : Kept z0 (State.startColl id s) := by
  unfold State.startColl
  repeat' (first | with_reducible assumption | (simp (maxDischargeDepth := 100) +contextual only [hk, kept_lit, kept_markN, kept_copy, kept_zeroWrN, kept_ite, ite_self, implies_true, forall_const, kept_advance, kept_modFdesc, kept_placeResult]; done) | (intro _ _ hk) | with_reducible apply kept_ite | with_reducible apply kept_advance | with_reducible apply kept_modFdesc | with_reducible apply kept_placeResult | with_reducible exact kept_lit hk .. | dsimp only | split)

theorem kept_gather {z0 : State} (id : Nat) (c : Coll) (data : Bytes) {s : State} (hk : Kept z0 s) : Kept z0 (State.gather id c data s) := by
  unfold State.gather
  repeat' (first | with_reducible assumption | (simp (maxDischargeDepth := 100) +contextual only [hk, kept_lit, kept_markN, kept_copy, kept_zeroWrN, kept_ite, ite_self, implies_true, forall_const, kept_modFdesc]; done) | (intro _ _ hk) | with_reducible apply kept_ite | with_reducible apply kept_modFdesc | with_reducible exact kept_lit hk .. | dsimp only | split)

theorem kept_takeDown {z0 : State} (id : Nat) (seg : Nat) {s : State} (hk : Kept z0 s) : Kept z0 (State.takeDown id seg s) := by
  unfold State.takeDown
  repeat' (first | with_reducible assumption | (simp (maxDischargeDepth := 100) +contextual only [hk, kept_lit, kept_markN, kept_copy, kept_zeroWrN, kept_ite, ite_self, implies_true, forall_const, kept_placeResult, kept_sendDown]; done) | (intro _ _ hk) | with_reducible apply kept_ite | with_reducible apply kept_placeResult | with_reducible apply kept_sendDown | with_reducible exact kept_lit hk .. | dsimp only | split)

theorem kept_failColl {z0 : State} (id : Nat) (st : Status) {s : State} (hk : Kept z0 s) : Kept z0 (State.failColl id st s) := by
  unfold State.failColl
  repeat' (first | with_reducible assumption | (simp (maxDischargeDepth := 100) +contextual only [hk, kept_lit, kept_markN, kept_copy, kept_zeroWrN, kept_ite, ite_self, implies_true, forall_const, kept_finishDesc, kept_freeBytes, kept_modFabMem, kept_modFdesc, kept_objPut]; done) | (rename_i hq; have hz := congrArg Prod.snd hq; dsimp only at hz; subst hz; try clear hq) | (have hz := congrArg Prod.snd ‹_ = (_, _)›; dsimp only at hz; subst hz) | (intro _ _ hk) | with_reducible apply kept_ite | with_reducible apply kept_finishDesc | with_reducible apply kept_freeBytes | with_reducible apply kept_modFabMem | with_reducible apply kept_modFdesc | with_reducible apply kept_objPut | with_reducible exact kept_lit hk .. | dsimp only | split)

theorem kept_execFabCollRx {z0 zt : State} (p : Packet) {s : State} (hk : Kept z0 s) (ht : execFabCollRx p s = .next zt) : Kept z0 zt := by
  unfold execFabCollRx at ht
  cases ht
  repeat' (first | with_reducible assumption | (simp (maxDischargeDepth := 100) +contextual only [hk, kept_lit, kept_markN, kept_copy, kept_zeroWrN, kept_ite, ite_self, implies_true, forall_const, kept_advance, kept_failColl, kept_gather, kept_pumpAll, kept_sendResponse, kept_takeDown, kept_takeInbox]; done) | (intro _ _ hk) | with_reducible apply kept_ite | with_reducible apply kept_advance | with_reducible apply kept_failColl | with_reducible apply kept_gather | with_reducible apply kept_pumpAll | with_reducible apply kept_sendResponse | with_reducible apply kept_takeDown | with_reducible apply kept_takeInbox | with_reducible exact kept_lit hk .. | dsimp only | split)

theorem kept_execCollectiveTimeout {z0 zt : State} (now : Nat) (id : Nat) {s : State} (hk : Kept z0 s) (ht : execCollectiveTimeout now id s = .next zt) : Kept z0 zt := by
  unfold execCollectiveTimeout at ht
  cases ht
  repeat' (first | with_reducible assumption | (simp (maxDischargeDepth := 100) +contextual only [hk, kept_lit, kept_markN, kept_copy, kept_zeroWrN, kept_ite, ite_self, implies_true, forall_const, kept_at, kept_failColl]; done) | (intro _ _ hk) | with_reducible apply kept_ite | with_reducible apply kept_at | with_reducible apply kept_failColl | with_reducible exact kept_lit hk .. | dsimp only | split)

end Sys2Proof.Machine
end

