-- ==== Sys2Proof/Laws/KeptFabMem.lean ====
section
/-! SUPPORT. The operations of Sys2Proof/Machine/FabMem.lean keep what every step keeps. -/

namespace Sys2Proof.Machine

set_option linter.all false
set_option Elab.async false

theorem kept_execFabRegionSet {z0 zt : State} (m : Fin 16) {s : State} (hk : Kept z0 s) (ht : execFabRegionSet m s = .next zt) : Kept z0 zt := by
  unfold execFabRegionSet at ht
  cases ht
  repeat' (first | with_reducible assumption | (simp (maxDischargeDepth := 100) +contextual only [hk, kept_lit, kept_markN, kept_copy, kept_zeroWrN, kept_ite, ite_self, implies_true, forall_const, kept_modRegion, kept_runCommand]; done) | (intro _ _ hk) | with_reducible apply kept_ite | with_reducible apply kept_modRegion | with_reducible apply kept_runCommand | with_reducible exact kept_lit hk .. | dsimp only | split)

theorem kept_execFabCompatSet {z0 zt : State} (m : Fin 16) {s : State} (hk : Kept z0 s) (ht : execFabCompatSet m s = .next zt) : Kept z0 zt := by
  unfold execFabCompatSet at ht
  cases ht
  repeat' (first | with_reducible assumption | (simp (maxDischargeDepth := 100) +contextual only [hk, kept_lit, kept_markN, kept_copy, kept_zeroWrN, kept_ite, ite_self, implies_true, forall_const, kept_extend, kept_modRegion, kept_runCommand]; done) | (intro _ _ hk) | with_reducible apply kept_ite | with_reducible apply kept_extend | with_reducible apply kept_modRegion | with_reducible apply kept_runCommand | with_reducible exact kept_lit hk .. | dsimp only | split)

theorem kept_execRegionCloseDone {z0 zt : State} (region : Fin 4096) {s : State} (hk : Kept z0 s) (ht : execRegionCloseDone region s = .next zt) : Kept z0 zt := by
  unfold execRegionCloseDone at ht
  cases ht
  repeat' (first | with_reducible assumption | (simp (maxDischargeDepth := 100) +contextual only [hk, kept_lit, kept_markN, kept_copy, kept_zeroWrN, kept_ite, ite_self, implies_true, forall_const, kept_modRegion]; done) | (intro _ _ hk) | with_reducible apply kept_ite | with_reducible apply kept_modRegion | with_reducible exact kept_lit hk .. | dsimp only | split)

theorem kept_refuse {z0 : State} (k : Packet) (st : Status) {s : State} (hk : Kept z0 s) : Kept z0 (State.refuse k st s) := by
  unfold State.refuse
  repeat' (first | with_reducible assumption | (simp (maxDischargeDepth := 100) +contextual only [hk, kept_lit, kept_markN, kept_copy, kept_zeroWrN, kept_ite, ite_self, implies_true, forall_const, kept_modFabMem, kept_sendResponse]; done) | (intro _ _ hk) | with_reducible apply kept_ite | with_reducible apply kept_modFabMem | with_reducible apply kept_sendResponse | with_reducible exact kept_lit hk .. | dsimp only | split)

theorem kept_countCompat {z0 : State} (k : Packet) {s : State} (hk : Kept z0 s) : Kept z0 (State.countCompat k s) := by
  unfold State.countCompat
  repeat' (first | with_reducible assumption | (simp (maxDischargeDepth := 100) +contextual only [hk, kept_lit, kept_markN, kept_copy, kept_zeroWrN, kept_ite, ite_self, implies_true, forall_const, kept_modFabMem]; done) | (intro _ _ hk) | with_reducible apply kept_ite | with_reducible apply kept_modFabMem | with_reducible exact kept_lit hk .. | dsimp only | split)

theorem kept_noteSource {z0 : State} (k : Packet) {s : State} (hk : Kept z0 s) : Kept z0 (State.noteSource k s) := by
  unfold State.noteSource
  repeat' (first | with_reducible assumption | (simp (maxDischargeDepth := 100) +contextual only [hk, kept_lit, kept_markN, kept_copy, kept_zeroWrN, kept_ite, ite_self, implies_true, forall_const, kept_modFabMem]; done) | (intro _ _ hk) | with_reducible apply kept_ite | with_reducible apply kept_modFabMem | with_reducible exact kept_lit hk .. | dsimp only | split)

theorem kept_nightNak {z0 : State} (k : Packet) {s : State} (hk : Kept z0 s) : Kept z0 (State.nightNak k s) := by
  unfold State.nightNak
  repeat' (first | with_reducible assumption | (simp (maxDischargeDepth := 100) +contextual only [hk, kept_lit, kept_markN, kept_copy, kept_zeroWrN, kept_ite, ite_self, implies_true, forall_const, kept_noteSource, kept_refuse, kept_takeInbox]; done) | (intro _ _ hk) | with_reducible apply kept_ite | with_reducible apply kept_noteSource | with_reducible apply kept_refuse | with_reducible apply kept_takeInbox | with_reducible exact kept_lit hk .. | dsimp only | split)

theorem kept_execFabReadRx {z0 zt : State} (p : Packet) {s : State} (hk : Kept z0 s) (ht : execFabReadRx p s = .next zt) : Kept z0 zt := by
  unfold execFabReadRx at ht
  cases ht
  repeat' (first | with_reducible assumption | (simp (maxDischargeDepth := 100) +contextual only [hk, kept_lit, kept_markN, kept_copy, kept_zeroWrN, kept_ite, ite_self, implies_true, forall_const, kept_countCompat, kept_fetch, kept_nightNak, kept_noteSource, kept_refuse, kept_sendResponse, kept_takeInbox]; done) | (rename_i hq; have hz := congrArg Prod.snd hq; dsimp only at hz; subst hz; try clear hq) | (have hz := congrArg Prod.snd ‹_ = (_, _)›; dsimp only at hz; subst hz) | (intro _ _ hk) | with_reducible apply kept_ite | with_reducible apply kept_countCompat | with_reducible apply kept_fetch | with_reducible apply kept_nightNak | with_reducible apply kept_noteSource | with_reducible apply kept_refuse | with_reducible apply kept_sendResponse | with_reducible apply kept_takeInbox | with_reducible exact kept_lit hk .. | dsimp only | split)

theorem kept_hotLine {z0 : State} (space : Bool) (line : Nat) {s : State} (hk : Kept z0 s) : Kept z0 (State.hotLine space line s) := by
  unfold State.hotLine
  repeat' (first | with_reducible assumption | (simp (maxDischargeDepth := 100) +contextual only [hk, kept_lit, kept_markN, kept_copy, kept_zeroWrN, kept_ite, ite_self, implies_true, forall_const, kept_modFabMem, kept_raise]; done) | (intro _ _ hk) | with_reducible apply kept_ite | with_reducible apply kept_modFabMem | with_reducible apply kept_raise | with_reducible exact kept_lit hk .. | dsimp only | split)

theorem kept_joinHome {z0 : State} (k : Packet) (r : Region) {s : State} (hk : Kept z0 s) : Kept z0 (State.joinHome k r s) := by
  unfold State.joinHome
  repeat' (first | with_reducible assumption | (simp (maxDischargeDepth := 100) +contextual only [hk, kept_lit, kept_markN, kept_copy, kept_zeroWrN, kept_ite, ite_self, implies_true, forall_const, kept_countCompat, kept_forEach, kept_hotLine, kept_modFabMem, kept_takeInbox]; done) | (with_reducible refine kept_forEach ?_ ?_) | (intro _ _ hk) | with_reducible apply kept_ite | with_reducible apply kept_countCompat | with_reducible apply kept_hotLine | with_reducible apply kept_modFabMem | with_reducible apply kept_takeInbox | with_reducible exact kept_lit hk .. | dsimp only | split)

theorem kept_execFabWriteRx {z0 zt : State} (p : Packet) {s : State} (hk : Kept z0 s) (ht : execFabWriteRx p s = .next zt) : Kept z0 zt := by
  unfold execFabWriteRx at ht
  cases ht
  repeat' (first | with_reducible assumption | (simp (maxDischargeDepth := 100) +contextual only [hk, kept_lit, kept_markN, kept_copy, kept_zeroWrN, kept_ite, ite_self, implies_true, forall_const, kept_joinHome, kept_nightNak, kept_noteSource, kept_refuse, kept_takeInbox]; done) | (intro _ _ hk) | with_reducible apply kept_ite | with_reducible apply kept_joinHome | with_reducible apply kept_nightNak | with_reducible apply kept_noteSource | with_reducible apply kept_refuse | with_reducible apply kept_takeInbox | with_reducible exact kept_lit hk .. | dsimp only | split)

theorem kept_nakFull {z0 : State} (k : Packet) (ce : Bool) {s : State} (hk : Kept z0 s) : Kept z0 (State.nakFull k ce s) := by
  unfold State.nakFull
  repeat' (first | with_reducible assumption | (simp (maxDischargeDepth := 100) +contextual only [hk, kept_lit, kept_markN, kept_copy, kept_zeroWrN, kept_ite, ite_self, implies_true, forall_const, kept_modFabMem, kept_sendResponse]; done) | (intro _ _ hk) | with_reducible apply kept_ite | with_reducible apply kept_modFabMem | with_reducible apply kept_sendResponse | with_reducible exact kept_lit hk .. | dsimp only | split)

theorem kept_replayed {z0 zt : State} (k : Packet) {s : State} (hk : Kept z0 s) (ht : State.replayed k s = some zt) : Kept z0 zt := by
  simp only [State.replayed, Option.map_eq_some_iff] at ht
  repeat' split at ht
  all_goals (try simp only [Option.map_eq_some_iff] at ht)
  all_goals first | (obtain ⟨_, _, rfl⟩ := ht) | cases ht | skip
  repeat' (first | with_reducible assumption | (simp (maxDischargeDepth := 100) +contextual only [hk, kept_lit, kept_markN, kept_copy, kept_zeroWrN, kept_ite, ite_self, implies_true, forall_const, kept_modFabMem, kept_sendResponse, kept_takeInbox]; done) | (intro _ _ hk) | with_reducible apply kept_ite | with_reducible apply kept_modFabMem | with_reducible apply kept_sendResponse | with_reducible apply kept_takeInbox | with_reducible exact kept_lit hk .. | dsimp only | split)

theorem kept_onceRx {z0 : State} (k : Packet) (perm : Region → Bool) (shape : Bool) {s : State} (hk : Kept z0 s) : Kept z0 (State.onceRx k perm shape s) := by
  unfold State.onceRx
  repeat' (first | with_reducible assumption | (simp (maxDischargeDepth := 100) +contextual only [hk, kept_lit, kept_markN, kept_copy, kept_zeroWrN, kept_ite, ite_self, implies_true, forall_const, kept_joinHome, kept_nakFull, kept_noteSource, kept_refuse, kept_takeInbox]; done) | (intro _ _ hk) | (refine kept_replayed _  ?_ (by assumption)) | with_reducible apply kept_ite | with_reducible apply kept_joinHome | with_reducible apply kept_nakFull | with_reducible apply kept_noteSource | with_reducible apply kept_refuse | with_reducible apply kept_takeInbox | with_reducible exact kept_lit hk .. | dsimp only | split)

theorem kept_execFabFlagRx {z0 zt : State} (p : Packet) {s : State} (hk : Kept z0 s) (ht : execFabFlagRx p s = .next zt) : Kept z0 zt := by
  unfold execFabFlagRx at ht
  cases ht
  repeat' (first | with_reducible assumption | (simp (maxDischargeDepth := 100) +contextual only [hk, kept_lit, kept_markN, kept_copy, kept_zeroWrN, kept_ite, ite_self, implies_true, forall_const, kept_nightNak, kept_onceRx]; done) | (intro _ _ hk) | with_reducible apply kept_ite | with_reducible apply kept_nightNak | with_reducible apply kept_onceRx | with_reducible exact kept_lit hk .. | dsimp only | split)

theorem kept_execFabAtomicRx {z0 zt : State} (p : Packet) {s : State} (hk : Kept z0 s) (ht : execFabAtomicRx p s = .next zt) : Kept z0 zt := by
  unfold execFabAtomicRx at ht
  cases ht
  repeat' (first | with_reducible assumption | (simp (maxDischargeDepth := 100) +contextual only [hk, kept_lit, kept_markN, kept_copy, kept_zeroWrN, kept_ite, ite_self, implies_true, forall_const, kept_nightNak, kept_onceRx]; done) | (intro _ _ hk) | with_reducible apply kept_ite | with_reducible apply kept_nightNak | with_reducible apply kept_onceRx | with_reducible exact kept_lit hk .. | dsimp only | split)

theorem kept_execFabAckRx {z0 zt : State} (p : Packet) {s : State} (hk : Kept z0 s) (ht : execFabAckRx p s = .next zt) : Kept z0 zt := by
  unfold execFabAckRx at ht
  cases ht
  repeat' (first | with_reducible assumption | (simp (maxDischargeDepth := 100) +contextual only [hk, kept_lit, kept_markN, kept_copy, kept_zeroWrN, kept_ite, ite_self, implies_true, forall_const, kept_modFabMem, kept_noteSource, kept_refuse, kept_takeInbox]; done) | (intro _ _ hk) | with_reducible apply kept_ite | with_reducible apply kept_modFabMem | with_reducible apply kept_noteSource | with_reducible apply kept_refuse | with_reducible apply kept_takeInbox | with_reducible exact kept_lit hk .. | dsimp only | split)

theorem kept_recordReplay {z0 : State} (k : Packet) (resp : Packet) {s : State} (hk : Kept z0 s) : Kept z0 (State.recordReplay k resp s) := by
  unfold State.recordReplay
  repeat' (first | with_reducible assumption | (simp (maxDischargeDepth := 100) +contextual only [hk, kept_lit, kept_markN, kept_copy, kept_zeroWrN, kept_ite, ite_self, implies_true, forall_const, kept_modFabMem, kept_sendResponse]; done) | (intro _ _ hk) | with_reducible apply kept_ite | with_reducible apply kept_modFabMem | with_reducible apply kept_sendResponse | with_reducible exact kept_lit hk .. | dsimp only | split)

theorem kept_applyUpdate {z0 : State} (w : Waiting) (ce : Bool) {s : State} (hk : Kept z0 s) : Kept z0 (State.applyUpdate w ce s) := by
  unfold State.applyUpdate
  repeat' (first | with_reducible assumption | (simp (maxDischargeDepth := 100) +contextual only [hk, kept_lit, kept_markN, kept_copy, kept_zeroWrN, kept_ite, ite_self, implies_true, forall_const, kept_fetch, kept_modFabMem, kept_nakFull, kept_objPoison, kept_objPut, kept_recordReplay, kept_sendResponse]; done) | (rename_i hq; have hz := congrArg Prod.snd hq; dsimp only at hz; subst hz; try clear hq) | (have hz := congrArg Prod.snd ‹_ = (_, _)›; dsimp only at hz; subst hz) | (intro _ _ hk) | with_reducible apply kept_ite | with_reducible apply kept_fetch | with_reducible apply kept_modFabMem | with_reducible apply kept_nakFull | with_reducible apply kept_objPoison | with_reducible apply kept_objPut | with_reducible apply kept_recordReplay | with_reducible apply kept_sendResponse | with_reducible exact kept_lit hk .. | dsimp only | split)

theorem kept_execHomeUpdateApply {z0 zt : State} (now : Nat) (space : Bool) (line : Nat) {s : State} (hk : Kept z0 s) (ht : execHomeUpdateApply now space line s = .next zt) : Kept z0 zt := by
  unfold execHomeUpdateApply at ht
  cases ht
  repeat' (first | with_reducible assumption | (simp (maxDischargeDepth := 100) +contextual only [hk, kept_lit, kept_markN, kept_copy, kept_zeroWrN, kept_ite, ite_self, implies_true, forall_const, kept_applyUpdate, kept_at, kept_fetch, kept_modFabMem]; done) | (rename_i hq; have hz := congrArg Prod.snd hq; dsimp only at hz; subst hz; try clear hq) | (have hz := congrArg Prod.snd ‹_ = (_, _)›; dsimp only at hz; subst hz) | (intro _ _ hk) | with_reducible apply kept_ite | with_reducible apply kept_applyUpdate | with_reducible apply kept_at | with_reducible apply kept_fetch | with_reducible apply kept_modFabMem | with_reducible exact kept_lit hk .. | dsimp only | split)

theorem kept_execReplayEntryExpiry {z0 zt : State} (now : Nat) (src : Fin 4096) (seq : Nat) {s : State} (hk : Kept z0 s) (ht : execReplayEntryExpiry now src seq s = .next zt) : Kept z0 zt := by
  unfold execReplayEntryExpiry at ht
  cases ht
  repeat' (first | with_reducible assumption | (simp (maxDischargeDepth := 100) +contextual only [hk, kept_lit, kept_markN, kept_copy, kept_zeroWrN, kept_ite, ite_self, implies_true, forall_const, kept_at, kept_modFabMem]; done) | (intro _ _ hk) | with_reducible apply kept_ite | with_reducible apply kept_at | with_reducible apply kept_modFabMem | with_reducible exact kept_lit hk .. | dsimp only | split)

theorem kept_readColl {z0 zt : State} (d : Bytes) {s : State} {r : Except Status (List Nat × Bytes)} (hk : Kept z0 s)
    (ht : State.readColl d s = some (r, zt)) : Kept z0 zt := by
  have h1 := kept_fetch (hdlEntry (fParts d)) 0 8192 none hk
  unfold State.readColl at ht
  revert h1 ht
  generalize State.fetch (hdlEntry (fParts d)) 0 8192 none s = q
  intro ht h1
  split at ht
  · cases ht
  · cases ht
    exact h1
  · rename_i pb p s1
    dsimp only at ht
    generalize readParts 4096 pb none = parts at ht
    split at ht
    · cases ht
      exact h1
    · have h2 := kept_fetchWhole (hdlEntry (fLocal d)) (fLocalOff d) (fLength d) h1
      revert h2 ht
      generalize State.fetchWhole _ _ _ _ = q
      intro ht h2
      split at ht
      · cases ht
      · cases ht
        exact h2
      · cases ht
        exact h2
      · cases ht
        exact h2

theorem kept_postDesc {z0 : State} (queue : Nat) (i : Nat) (c : QCtx) (b : Bytes) (st : Status) (parts : List Nat) (v : Bytes) {s : State} (hk : Kept z0 s) : Kept z0 (State.postDesc queue i c b st parts v s) := by
  unfold State.postDesc
  repeat' (first | with_reducible assumption | (simp (maxDischargeDepth := 100) +contextual only [hk, kept_lit, kept_markN, kept_copy, kept_zeroWrN, kept_ite, ite_self, implies_true, forall_const, kept_finishDesc, kept_modFabMem, kept_popHead, kept_pumpAll, kept_setFdesc, kept_startColl]; done) | (intro _ _ hk) | with_reducible apply kept_ite | with_reducible apply kept_finishDesc | with_reducible apply kept_modFabMem | with_reducible apply kept_popHead | with_reducible apply kept_pumpAll | with_reducible apply kept_setFdesc | with_reducible apply kept_startColl | with_reducible exact kept_lit hk .. | dsimp only | split)

theorem kept_execFabRequestSend {z0 zt : State} (now : Nat) (queue : Nat) {s : State} (hk : Kept z0 s) (ht : execFabRequestSend now queue s = .next zt) : Kept z0 zt := by
  unfold execFabRequestSend at ht
  cases ht
  repeat' (first | with_reducible assumption | (simp (maxDischargeDepth := 100) +contextual only [hk, kept_lit, kept_markN, kept_copy, kept_zeroWrN, kept_ite, ite_self, implies_true, forall_const, kept_at, kept_postDesc]; done) | (intro _ _ hk) | (refine kept_readColl _  ?_ (by assumption)) | with_reducible apply kept_ite | with_reducible apply kept_at | with_reducible apply kept_postDesc | with_reducible exact kept_lit hk .. | dsimp only | split)

theorem kept_execFlagRelease {z0 zt : State} (now : Nat) (id : Nat) {s : State} (hk : Kept z0 s) (ht : execFlagRelease now id s = .next zt) : Kept z0 zt := by
  unfold execFlagRelease at ht
  cases ht
  repeat' (first | with_reducible assumption | (simp (maxDischargeDepth := 100) +contextual only [hk, kept_lit, kept_markN, kept_copy, kept_zeroWrN, kept_ite, ite_self, implies_true, forall_const, kept_at, kept_modFdesc, kept_pumpAll, kept_settleDesc]; done) | (intro _ _ hk) | with_reducible apply kept_ite | with_reducible apply kept_at | with_reducible apply kept_modFdesc | with_reducible apply kept_pumpAll | with_reducible apply kept_settleDesc | with_reducible exact kept_lit hk .. | dsimp only | split)

theorem kept_execCopyCounterSend {z0 zt : State} (now : Nat) (id : Nat) {s : State} (hk : Kept z0 s) (ht : execCopyCounterSend now id s = .next zt) : Kept z0 zt := by
  unfold execCopyCounterSend at ht
  cases ht
  repeat' (first | with_reducible assumption | (simp (maxDischargeDepth := 100) +contextual only [hk, kept_lit, kept_markN, kept_copy, kept_zeroWrN, kept_ite, ite_self, implies_true, forall_const, kept_at, kept_modFdesc, kept_sendRequest]; done) | (intro _ _ hk) | with_reducible apply kept_ite | with_reducible apply kept_at | with_reducible apply kept_modFdesc | with_reducible apply kept_sendRequest | with_reducible exact kept_lit hk .. | dsimp only | split)

theorem kept_takeAnswer {z0 : State} (r : Request) (p : Packet) {s : State} (hk : Kept z0 s) : Kept z0 (State.takeAnswer r p s).2 := by
  unfold State.takeAnswer
  repeat' (first | with_reducible assumption | (simp (maxDischargeDepth := 100) +contextual only [hk, kept_lit, kept_markN, kept_copy, kept_zeroWrN, kept_ite, ite_self, implies_true, forall_const, kept_modFdesc, kept_objPoison, kept_objPut]; done) | (intro _ _ hk) | with_reducible apply kept_ite | with_reducible apply kept_modFdesc | with_reducible apply kept_objPoison | with_reducible apply kept_objPut | with_reducible exact kept_lit hk .. | dsimp only | split)

theorem kept_execFabResponseRx {z0 zt : State} (now : Nat) (p : Packet) {s : State} (hk : Kept z0 s) (ht : execFabResponseRx now p s = .next zt) : Kept z0 zt := by
  unfold execFabResponseRx at ht
  cases ht
  repeat' (first | with_reducible assumption | (simp (maxDischargeDepth := 100) +contextual only [hk, kept_lit, kept_markN, kept_copy, kept_zeroWrN, kept_ite, ite_self, implies_true, forall_const, kept_at, kept_endRequest, kept_modDest, kept_modFabMem, kept_modFdesc, kept_takeAnswer, kept_takeInbox]; done) | (rename_i hq; have hz := congrArg Prod.snd hq; dsimp only at hz; subst hz; try clear hq) | (have hz := congrArg Prod.snd ‹_ = (_, _)›; dsimp only at hz; subst hz) | (intro _ _ hk) | with_reducible apply kept_ite | with_reducible apply kept_at | with_reducible apply kept_endRequest | with_reducible apply kept_modDest | with_reducible apply kept_modFabMem | with_reducible apply kept_modFdesc | with_reducible apply kept_takeAnswer | with_reducible apply kept_takeInbox | with_reducible exact kept_lit hk .. | dsimp only | split)

theorem kept_execFabRetryTimeout {z0 zt : State} (now : Nat) (dst : Fin 4096) (seq : Nat) {s : State} (hk : Kept z0 s) (ht : execFabRetryTimeout now dst seq s = .next zt) : Kept z0 zt := by
  unfold execFabRetryTimeout at ht
  cases ht
  repeat' (first | with_reducible assumption | (simp (maxDischargeDepth := 100) +contextual only [hk, kept_lit, kept_markN, kept_copy, kept_zeroWrN, kept_ite, ite_self, implies_true, forall_const, kept_at, kept_modFabMem, kept_sendPacket]; done) | (intro _ _ hk) | with_reducible apply kept_ite | with_reducible apply kept_at | with_reducible apply kept_modFabMem | with_reducible apply kept_sendPacket | with_reducible exact kept_lit hk .. | dsimp only | split)

theorem kept_execFabOutcomeTimeout {z0 zt : State} (now : Nat) (dst : Fin 4096) (seq : Nat) {s : State} (hk : Kept z0 s) (ht : execFabOutcomeTimeout now dst seq s = .next zt) : Kept z0 zt := by
  unfold execFabOutcomeTimeout at ht
  cases ht
  repeat' (first | with_reducible assumption | (simp (maxDischargeDepth := 100) +contextual only [hk, kept_lit, kept_markN, kept_copy, kept_zeroWrN, kept_ite, ite_self, implies_true, forall_const, kept_at, kept_complete, kept_endRequest, kept_modDest, kept_modFabMem]; done) | (intro _ _ hk) | with_reducible apply kept_ite | with_reducible apply kept_at | with_reducible apply kept_complete | with_reducible apply kept_endRequest | with_reducible apply kept_modDest | with_reducible apply kept_modFabMem | with_reducible exact kept_lit hk .. | dsimp only | split)

theorem kept_execAckSend {z0 zt : State} (now : Nat) (dst : Fin 4096) {s : State} (hk : Kept z0 s) (ht : execAckSend now dst s = .next zt) : Kept z0 zt := by
  unfold execAckSend at ht
  cases ht
  repeat' (first | with_reducible assumption | (simp (maxDischargeDepth := 100) +contextual only [hk, kept_lit, kept_markN, kept_copy, kept_zeroWrN, kept_ite, ite_self, implies_true, forall_const, kept_at, kept_modDest, kept_sendPacket]; done) | (intro _ _ hk) | with_reducible apply kept_ite | with_reducible apply kept_at | with_reducible apply kept_modDest | with_reducible apply kept_sendPacket | with_reducible exact kept_lit hk .. | dsimp only | split)

end Sys2Proof.Machine
end

