-- ==== Sys2Proof/Laws/KeptProvenance.lean ====
section
/-! SUPPORT. The operations of Sys2Proof/Machine/Provenance.lean keep what every step keeps. -/

namespace Sys2Proof.Machine

set_option linter.all false
set_option Elab.async false

theorem kept_execProvenanceSet {z0 zt : State} (m : Fin 16) {s : State} (hk : Kept z0 s) (ht : execProvenanceSet m s = .next zt) : Kept z0 zt := by
  unfold execProvenanceSet at ht
  cases ht
  repeat' (first | with_reducible assumption | (simp (maxDischargeDepth := 100) +contextual only [hk, kept_lit, kept_markN, kept_copy, kept_zeroWrN, kept_ite, ite_self, implies_true, forall_const, kept_closeInterval, kept_modProv, kept_provFlush, kept_runCommand]; done) | (intro _ _ hk) | with_reducible apply kept_ite | with_reducible apply kept_closeInterval | with_reducible apply kept_modProv | with_reducible apply kept_provFlush | with_reducible apply kept_runCommand | with_reducible exact kept_lit hk .. | dsimp only | split)

theorem kept_execProvenanceIntervalEnd {z0 zt : State} (now : Nat) {s : State} (hk : Kept z0 s) (ht : execProvenanceIntervalEnd now s = .next zt) : Kept z0 zt := by
  unfold execProvenanceIntervalEnd at ht
  cases ht
  repeat' (first | with_reducible assumption | (simp (maxDischargeDepth := 100) +contextual only [hk, kept_lit, kept_markN, kept_copy, kept_zeroWrN, kept_ite, ite_self, implies_true, forall_const, kept_at, kept_closeInterval]; done) | (intro _ _ hk) | with_reducible apply kept_ite | with_reducible apply kept_at | with_reducible apply kept_closeInterval | with_reducible exact kept_lit hk .. | dsimp only | split)

end Sys2Proof.Machine
end

