-- ==== Sys2Proof/Laws/KeptInstances.lean ====
section
/-! SUPPORT. The operations of Sys2Proof/Machine/Instances.lean keep what every step keeps. -/

namespace Sys2Proof.Machine

set_option linter.all false
set_option Elab.async false

theorem kept_makeTable' {z0 : State} (i : Nat) (g : Grant) {s : State} (hk : Kept z0 s) : Kept z0 (State.makeTable' i g s).2 := by
  unfold State.makeTable'
  repeat' (first | with_reducible assumption | (simp (maxDischargeDepth := 100) +contextual only [hk, kept_lit, kept_markN, kept_copy, kept_zeroWrN, kept_ite, ite_self, implies_true, forall_const, kept_forEach, kept_nextOrder, kept_place, kept_zeroMem]; done) | (rename_i hq; have hz := congrArg Prod.snd hq; dsimp only at hz; subst hz; try clear hq) | (have hz := congrArg Prod.snd ‹_ = (_, _)›; dsimp only at hz; subst hz) | (with_reducible refine kept_forEach ?_ ?_) | (intro _ _ hk) | with_reducible apply kept_ite | with_reducible apply kept_nextOrder | with_reducible apply kept_place | with_reducible apply kept_zeroMem | with_reducible exact kept_lit hk .. | dsimp only | split)

theorem kept_setPolicers {z0 : State} (g : Grant) {s : State} (hk : Kept z0 s) : Kept z0 (State.setPolicers g s) := by
  unfold State.setPolicers
  repeat' (first | with_reducible assumption | (simp (maxDischargeDepth := 100) +contextual only [hk, kept_lit, kept_markN, kept_copy, kept_zeroWrN, kept_ite, ite_self, implies_true, forall_const, kept_forEach, kept_modLane, kept_police]; done) | (rename_i hq; have hz := congrArg Prod.snd (congrArg Prod.snd hq); dsimp only at hz; subst hz; try clear hq) | (rename_i hq; have hz := congrArg Prod.snd hq; dsimp only at hz; subst hz; try clear hq) | (have hz := congrArg Prod.snd ‹_ = (_, _)›; dsimp only at hz; subst hz) | (have hz := congrArg Prod.snd (congrArg Prod.snd ‹_ = (_, _, _)›); dsimp only at hz; subst hz) | (with_reducible refine kept_forEach ?_ ?_) | (intro _ _ hk) | with_reducible apply kept_ite | with_reducible apply kept_modLane | with_reducible apply kept_police | with_reducible exact kept_lit hk .. | dsimp only | split)

theorem kept_makeInst {z0 : State} (i : Nat) (g : Grant) (gen : Nat) (st : IState) {s : State} (hk : Kept z0 s) : Kept z0 (State.makeInst i g gen st s) := by
  unfold State.makeInst
  repeat' (first | with_reducible assumption | (simp (maxDischargeDepth := 100) +contextual only [hk, kept_lit, kept_markN, kept_copy, kept_zeroWrN, kept_ite, ite_self, implies_true, forall_const, kept_makeTable', kept_modInst, kept_setPolicers]; done) | (rename_i hq; have hz := congrArg Prod.snd hq; dsimp only at hz; subst hz; try clear hq) | (have hz := congrArg Prod.snd ‹_ = (_, _)›; dsimp only at hz; subst hz) | (intro _ _ hk) | with_reducible apply kept_ite | with_reducible apply kept_makeTable' | with_reducible apply kept_modInst | with_reducible apply kept_setPolicers | with_reducible exact kept_lit hk .. | dsimp only | split)

theorem kept_execInstCreate {z0 zt : State} (m : Fin 16) {s : State} (hk : Kept z0 s) (ht : execInstCreate m s = .next zt) : Kept z0 zt := by
  unfold execInstCreate at ht
  cases ht
  repeat' (first | with_reducible assumption | (simp (maxDischargeDepth := 100) +contextual only [hk, kept_lit, kept_markN, kept_copy, kept_zeroWrN, kept_ite, ite_self, implies_true, forall_const, kept_makeInst, kept_runCommand]; done) | (intro _ _ hk) | with_reducible apply kept_ite | with_reducible apply kept_makeInst | with_reducible apply kept_runCommand | with_reducible exact kept_lit hk .. | dsimp only | split)

theorem kept_execQuotaSet {z0 zt : State} (m : Fin 16) {s : State} (hk : Kept z0 s) (ht : execQuotaSet m s = .next zt) : Kept z0 zt := by
  unfold execQuotaSet at ht
  cases ht
  repeat' (first | with_reducible assumption | (simp (maxDischargeDepth := 100) +contextual only [hk, kept_lit, kept_markN, kept_copy, kept_zeroWrN, kept_ite, ite_self, implies_true, forall_const, kept_modInst, kept_runCommand]; done) | (intro _ _ hk) | with_reducible apply kept_ite | with_reducible apply kept_modInst | with_reducible apply kept_runCommand | with_reducible exact kept_lit hk .. | dsimp only | split)

theorem kept_dropDoorbells {z0 : State} (i : Nat) {s : State} (hk : Kept z0 s) : Kept z0 (State.dropDoorbells i s) := by
  unfold State.dropDoorbells
  repeat' (first | with_reducible assumption | (simp (maxDischargeDepth := 100) +contextual only [hk, kept_lit, kept_markN, kept_copy, kept_zeroWrN, kept_ite, ite_self, implies_true, forall_const, kept_modDbPage]; done) | (intro _ _ hk) | with_reducible apply kept_ite | with_reducible apply kept_modDbPage | with_reducible exact kept_lit hk .. | dsimp only | split)

theorem kept_stopTasks {z0 : State} (i : Nat) {s : State} (hk : Kept z0 s) : Kept z0 (State.stopTasks i s) := by
  unfold State.stopTasks
  repeat' (first | with_reducible assumption | (simp (maxDischargeDepth := 100) +contextual only [hk, kept_lit, kept_markN, kept_copy, kept_zeroWrN, kept_ite, ite_self, implies_true, forall_const, kept_forEach, kept_killTask, kept_leaveNow, kept_settleHolds]; done) | (with_reducible refine kept_forEach ?_ ?_) | (intro _ _ hk) | with_reducible apply kept_ite | with_reducible apply kept_killTask | with_reducible apply kept_leaveNow | with_reducible apply kept_settleHolds | with_reducible exact kept_lit hk .. | dsimp only | split)

theorem kept_stopFabric {z0 : State} (i : Nat) {s : State} (hk : Kept z0 s) : Kept z0 (State.stopFabric i s) := by
  unfold State.stopFabric
  repeat' (first | with_reducible assumption | (simp (maxDischargeDepth := 100) +contextual only [hk, kept_lit, kept_markN, kept_copy, kept_zeroWrN, kept_ite, ite_self, implies_true, forall_const, kept_forEach, kept_jobLost, kept_modFdesc, kept_settleDesc]; done) | (with_reducible refine kept_forEach ?_ ?_) | (intro _ _ hk) | with_reducible apply kept_ite | with_reducible apply kept_jobLost | with_reducible apply kept_modFdesc | with_reducible apply kept_settleDesc | with_reducible exact kept_lit hk .. | dsimp only | split)

theorem kept_clearFailed {z0 : State} (i : Nat) {s : State} (hk : Kept z0 s) : Kept z0 (State.clearFailed i s) := by
  unfold State.clearFailed
  repeat' (first | with_reducible assumption | (simp (maxDischargeDepth := 100) +contextual only [hk, kept_lit, kept_markN, kept_copy, kept_zeroWrN, kept_ite, ite_self, implies_true, forall_const, kept_modFabMem]; done) | (intro _ _ hk) | with_reducible apply kept_ite | with_reducible apply kept_modFabMem | with_reducible exact kept_lit hk .. | dsimp only | split)

theorem kept_resetQueue {z0 : State} (i : Nat) (q : Nat) {s : State} (hk : Kept z0 s) : Kept z0 (State.resetQueue i q s) := by
  unfold State.resetQueue
  repeat' (first | with_reducible assumption | (simp (maxDischargeDepth := 100) +contextual only [hk, kept_lit, kept_markN, kept_copy, kept_zeroWrN, kept_ite, ite_self, implies_true, forall_const, kept_evict, kept_tableWrite]; done) | (intro _ _ hk) | with_reducible apply kept_ite | with_reducible apply kept_evict | with_reducible apply kept_tableWrite | with_reducible exact kept_lit hk .. | dsimp only | split)

theorem kept_stopInst {z0 : State} (i : Nat) {s : State} (hk : Kept z0 s) : Kept z0 (State.stopInst i s) := by
  unfold State.stopInst
  repeat' (first | with_reducible assumption | (simp (maxDischargeDepth := 100) +contextual only [hk, kept_lit, kept_markN, kept_copy, kept_zeroWrN, kept_ite, ite_self, implies_true, forall_const, kept_clearFailed, kept_dropDoorbells, kept_forEach, kept_resetQueue, kept_stopTasks]; done) | (with_reducible refine kept_forEach ?_ ?_) | (intro _ _ hk) | with_reducible apply kept_ite | with_reducible apply kept_clearFailed | with_reducible apply kept_dropDoorbells | with_reducible apply kept_resetQueue | with_reducible apply kept_stopTasks | with_reducible exact kept_lit hk .. | dsimp only | split)

theorem kept_execInstReset {z0 zt : State} (m : Fin 16) {s : State} (hk : Kept z0 s) (ht : execInstReset m s = .next zt) : Kept z0 zt := by
  unfold execInstReset at ht
  cases ht
  repeat' (first | with_reducible assumption | (simp (maxDischargeDepth := 100) +contextual only [hk, kept_lit, kept_markN, kept_copy, kept_zeroWrN, kept_ite, ite_self, implies_true, forall_const, kept_jobLost, kept_modInst, kept_runCommand, kept_stopFabric, kept_stopInst]; done) | (intro _ _ hk) | with_reducible apply kept_ite | with_reducible apply kept_jobLost | with_reducible apply kept_modInst | with_reducible apply kept_runCommand | with_reducible apply kept_stopFabric | with_reducible apply kept_stopInst | with_reducible exact kept_lit hk .. | dsimp only | split)

theorem kept_orphanAll {z0 : State} (i : Nat) {s : State} (hk : Kept z0 s) : Kept z0 (State.orphanAll i s) := by
  unfold State.orphanAll
  repeat' (first | with_reducible assumption | (simp (maxDischargeDepth := 100) +contextual only [hk, kept_lit, kept_markN, kept_copy, kept_zeroWrN, kept_ite, ite_self, implies_true, forall_const, kept_forEach, kept_modDisp, kept_modFdesc, kept_modFold, kept_modLane]; done) | (with_reducible refine kept_forEach ?_ ?_) | (intro _ _ hk) | with_reducible apply kept_ite | with_reducible apply kept_modDisp | with_reducible apply kept_modFdesc | with_reducible apply kept_modFold | with_reducible apply kept_modLane | with_reducible exact kept_lit hk .. | dsimp only | split)

theorem kept_closeRegions {z0 : State} (i : Nat) {s : State} (hk : Kept z0 s) : Kept z0 (State.closeRegions i s) := by
  unfold State.closeRegions
  repeat' (first | with_reducible assumption | (simp (maxDischargeDepth := 100) +contextual only [hk, kept_lit, kept_markN, kept_copy, kept_zeroWrN, kept_ite, ite_self, implies_true, forall_const, kept_forEach, kept_modRegion]; done) | (with_reducible refine kept_forEach ?_ ?_) | (intro _ _ hk) | with_reducible apply kept_ite | with_reducible apply kept_modRegion | with_reducible exact kept_lit hk .. | dsimp only | split)

theorem kept_dropPages {z0 : State} (i : Nat) {s : State} (hk : Kept z0 s) : Kept z0 (State.dropPages i s) := by
  unfold State.dropPages
  repeat' (first | with_reducible assumption | (simp (maxDischargeDepth := 100) +contextual only [hk, kept_lit, kept_markN, kept_copy, kept_zeroWrN, kept_ite, ite_self, implies_true, forall_const, kept_forEach, kept_modRing]; done) | (with_reducible refine kept_forEach ?_ ?_) | (intro _ _ hk) | with_reducible apply kept_ite | with_reducible apply kept_modRing | with_reducible exact kept_lit hk .. | dsimp only | split)

theorem kept_freeGrants {z0 : State} (i : Nat) {s : State} (hk : Kept z0 s) : Kept z0 (State.freeGrants i s) := by
  unfold State.freeGrants
  repeat' (first | with_reducible assumption | (simp (maxDischargeDepth := 100) +contextual only [hk, kept_lit, kept_markN, kept_copy, kept_zeroWrN, kept_ite, ite_self, implies_true, forall_const, kept_forEach, kept_modInst, kept_modLane]; done) | (with_reducible refine kept_forEach ?_ ?_) | (intro _ _ hk) | with_reducible apply kept_ite | with_reducible apply kept_modInst | with_reducible apply kept_modLane | with_reducible exact kept_lit hk .. | dsimp only | split)

theorem kept_dropObjects {z0 : State} (i : Nat) {s : State} (hk : Kept z0 s) : Kept z0 (State.dropObjects i s) := by
  unfold State.dropObjects
  repeat' (first | with_reducible assumption | (simp (maxDischargeDepth := 100) +contextual only [hk, kept_lit, kept_markN, kept_copy, kept_zeroWrN, kept_ite, ite_self, implies_true, forall_const, kept_destroyHandle, kept_forEach]; done) | (with_reducible refine kept_forEach ?_ ?_) | (intro _ _ hk) | with_reducible apply kept_ite | with_reducible apply kept_destroyHandle | with_reducible exact kept_lit hk .. | dsimp only | split)

theorem kept_execInstDestroy {z0 zt : State} (m : Fin 16) {s : State} (hk : Kept z0 s) (ht : execInstDestroy m s = .next zt) : Kept z0 zt := by
  unfold execInstDestroy at ht
  cases ht
  repeat' (first | with_reducible assumption | (simp (maxDischargeDepth := 100) +contextual only [hk, kept_lit, kept_markN, kept_copy, kept_zeroWrN, kept_ite, ite_self, implies_true, forall_const, kept_cancelLong, kept_closeRegions, kept_dropObjects, kept_dropPages, kept_forEach, kept_freeGrants, kept_modMbox, kept_orphanAll, kept_runCommand, kept_stopFabric, kept_stopInst]; done) | (with_reducible refine kept_forEach ?_ ?_) | (intro _ _ hk) | with_reducible apply kept_ite | with_reducible apply kept_cancelLong | with_reducible apply kept_closeRegions | with_reducible apply kept_dropObjects | with_reducible apply kept_dropPages | with_reducible apply kept_freeGrants | with_reducible apply kept_modMbox | with_reducible apply kept_orphanAll | with_reducible apply kept_runCommand | with_reducible apply kept_stopFabric | with_reducible apply kept_stopInst | with_reducible exact kept_lit hk .. | dsimp only | split)

theorem kept_setPaused {z0 : State} (i : Nat) (on : Bool) {s : State} (hk : Kept z0 s) : Kept z0 (State.setPaused i on s) := by
  unfold State.setPaused
  repeat' (first | with_reducible assumption | (simp (maxDischargeDepth := 100) +contextual only [hk, kept_lit, kept_markN, kept_copy, kept_zeroWrN, kept_ite, ite_self, implies_true, forall_const, kept_forEach, kept_modFold]; done) | (with_reducible refine kept_forEach ?_ ?_) | (intro _ _ hk) | with_reducible apply kept_ite | with_reducible apply kept_modFold | with_reducible exact kept_lit hk .. | dsimp only | split)

theorem kept_execInstFreeze {z0 zt : State} (m : Fin 16) {s : State} (hk : Kept z0 s) (ht : execInstFreeze m s = .next zt) : Kept z0 zt := by
  unfold execInstFreeze at ht
  cases ht
  repeat' (first | with_reducible assumption | (simp (maxDischargeDepth := 100) +contextual only [hk, kept_lit, kept_markN, kept_copy, kept_zeroWrN, kept_ite, ite_self, implies_true, forall_const, kept_forEach, kept_modInst, kept_modRegion, kept_runCommand, kept_setPaused]; done) | (with_reducible refine kept_forEach ?_ ?_) | (intro _ _ hk) | with_reducible apply kept_ite | with_reducible apply kept_modInst | with_reducible apply kept_modRegion | with_reducible apply kept_runCommand | with_reducible apply kept_setPaused | with_reducible exact kept_lit hk .. | dsimp only | split)

theorem kept_execInstThaw {z0 zt : State} (m : Fin 16) {s : State} (hk : Kept z0 s) (ht : execInstThaw m s = .next zt) : Kept z0 zt := by
  unfold execInstThaw at ht
  cases ht
  repeat' (first | with_reducible assumption | (simp (maxDischargeDepth := 100) +contextual only [hk, kept_lit, kept_markN, kept_copy, kept_zeroWrN, kept_ite, ite_self, implies_true, forall_const, kept_forEach, kept_modInst, kept_modRegion, kept_runCommand, kept_setPaused]; done) | (with_reducible refine kept_forEach ?_ ?_) | (intro _ _ hk) | with_reducible apply kept_ite | with_reducible apply kept_modInst | with_reducible apply kept_modRegion | with_reducible apply kept_runCommand | with_reducible apply kept_setPaused | with_reducible exact kept_lit hk .. | dsimp only | split)

theorem kept_execDirtySwap {z0 zt : State} (m : Fin 16) {s : State} (hk : Kept z0 s) (ht : execDirtySwap m s = .next zt) : Kept z0 zt := by
  unfold execDirtySwap at ht
  cases ht
  repeat' (first | with_reducible assumption | (simp (maxDischargeDepth := 100) +contextual only [hk, kept_lit, kept_markN, kept_copy, kept_zeroWrN, kept_ite, ite_self, implies_true, forall_const, kept_modInst, kept_runCommand]; done) | (intro _ _ hk) | with_reducible apply kept_ite | with_reducible apply kept_modInst | with_reducible apply kept_runCommand | with_reducible exact kept_lit hk .. | dsimp only | split)

end Sys2Proof.Machine
end

