-- ==== Sys2Proof/Laws/KeptImages.lean ====
section
/-! SUPPORT. The operations of Sys2Proof/Machine/Images.lean keep what every step keeps. -/

namespace Sys2Proof.Machine

set_option linter.all false
set_option Elab.async false

theorem kept_imgGroups {z0 : State} (f : Nat) (slot : Nat) (x0 : List Nat) {s : State} (hk : Kept z0 s) : Kept z0 (State.imgGroups f slot x0 s).2 := by
  induction x0 generalizing s with
  | nil =>
    first | exact hk | (simp only [State.imgGroups]; repeat' (first | with_reducible assumption | with_reducible apply ih | (simp (maxDischargeDepth := 100) +contextual only [hk, kept_lit, kept_markN, kept_copy, kept_zeroWrN, kept_ite, ite_self, implies_true, forall_const, kept_accRecords]; done) | (rename_i hq; have hz := congrArg Prod.snd hq; dsimp only at hz; subst hz; try clear hq) | (rename_i hq; have hz := congrArg Prod.snd hq; dsimp only at hz; subst hz; try clear hq) | (have hz := congrArg Prod.snd ‹_ = (_, _)›; dsimp only at hz; subst hz) | (intro _ _ hk) | with_reducible apply kept_ite | with_reducible apply kept_accRecords | with_reducible exact kept_lit hk .. | dsimp only | split))
  | cons x r ih =>
    simp only [State.imgGroups]
    repeat' (first | with_reducible assumption | with_reducible apply ih | (simp (maxDischargeDepth := 100) +contextual only [hk, kept_lit, kept_markN, kept_copy, kept_zeroWrN, kept_ite, ite_self, implies_true, forall_const, kept_accRecords]; done) | (rename_i hq; have hz := congrArg Prod.snd hq; dsimp only at hz; subst hz; try clear hq) | (rename_i hq; have hz := congrArg Prod.snd hq; dsimp only at hz; subst hz; try clear hq) | (have hz := congrArg Prod.snd ‹_ = (_, _)›; dsimp only at hz; subst hz) | (intro _ _ hk) | with_reducible apply kept_ite | with_reducible apply kept_accRecords | with_reducible exact kept_lit hk .. | dsimp only | split)

theorem kept_imgAllGroups {z0 : State} (x0 : List (Nat × Nat)) {s : State} (hk : Kept z0 s) : Kept z0 (State.imgAllGroups x0 s).2 := by
  induction x0 generalizing s with
  | nil =>
    first | exact hk | (simp only [State.imgAllGroups]; repeat' (first | with_reducible assumption | with_reducible apply ih | (simp (maxDischargeDepth := 100) +contextual only [hk, kept_lit, kept_markN, kept_copy, kept_zeroWrN, kept_ite, ite_self, implies_true, forall_const, kept_imgGroups]; done) | (rename_i hq; have hz := congrArg Prod.snd hq; dsimp only at hz; subst hz; try clear hq) | (rename_i hq; have hz := congrArg Prod.snd hq; dsimp only at hz; subst hz; try clear hq) | (have hz := congrArg Prod.snd ‹_ = (_, _)›; dsimp only at hz; subst hz) | (intro _ _ hk) | with_reducible apply kept_ite | with_reducible apply kept_imgGroups | with_reducible exact kept_lit hk .. | dsimp only | split))
  | cons x r ih =>
    simp only [State.imgAllGroups]
    repeat' (first | with_reducible assumption | with_reducible apply ih | (simp (maxDischargeDepth := 100) +contextual only [hk, kept_lit, kept_markN, kept_copy, kept_zeroWrN, kept_ite, ite_self, implies_true, forall_const, kept_imgGroups]; done) | (rename_i hq; have hz := congrArg Prod.snd hq; dsimp only at hz; subst hz; try clear hq) | (rename_i hq; have hz := congrArg Prod.snd hq; dsimp only at hz; subst hz; try clear hq) | (have hz := congrArg Prod.snd ‹_ = (_, _)›; dsimp only at hz; subst hz) | (intro _ _ hk) | with_reducible apply kept_ite | with_reducible apply kept_imgGroups | with_reducible exact kept_lit hk .. | dsimp only | split)

theorem kept_imgCtxs {z0 : State} (i : Nat) (x0 : List Nat) {s : State} (hk : Kept z0 s) : Kept z0 (State.imgCtxs i x0 s).2 := by
  induction x0 generalizing s with
  | nil =>
    first | exact hk | (simp only [State.imgCtxs]; repeat' (first | with_reducible assumption | with_reducible apply ih | (simp (maxDischargeDepth := 100) +contextual only [hk, kept_lit, kept_markN, kept_copy, kept_zeroWrN, kept_ite, ite_self, implies_true, forall_const, kept_imgAllGroups]; done) | (rename_i hq; have hz := congrArg Prod.snd hq; dsimp only at hz; subst hz; try clear hq) | (rename_i hq; have hz := congrArg Prod.snd hq; dsimp only at hz; subst hz; try clear hq) | (have hz := congrArg Prod.snd ‹_ = (_, _)›; dsimp only at hz; subst hz) | (intro _ _ hk) | with_reducible apply kept_ite | with_reducible apply kept_imgAllGroups | with_reducible exact kept_lit hk .. | dsimp only | split))
  | cons x r ih =>
    simp only [State.imgCtxs]
    repeat' (first | with_reducible assumption | with_reducible apply ih | (simp (maxDischargeDepth := 100) +contextual only [hk, kept_lit, kept_markN, kept_copy, kept_zeroWrN, kept_ite, ite_self, implies_true, forall_const, kept_imgAllGroups]; done) | (rename_i hq; have hz := congrArg Prod.snd hq; dsimp only at hz; subst hz; try clear hq) | (rename_i hq; have hz := congrArg Prod.snd hq; dsimp only at hz; subst hz; try clear hq) | (have hz := congrArg Prod.snd ‹_ = (_, _)›; dsimp only at hz; subst hz) | (intro _ _ hk) | with_reducible apply kept_ite | with_reducible apply kept_imgAllGroups | with_reducible exact kept_lit hk .. | dsimp only | split)

theorem kept_imageOf {z0 : State} (i : Nat) {s : State} (hk : Kept z0 s) : Kept z0 (State.imageOf i s).2 := by
  unfold State.imageOf
  repeat' (first | with_reducible assumption | (simp (maxDischargeDepth := 100) +contextual only [hk, kept_lit, kept_markN, kept_copy, kept_zeroWrN, kept_ite, ite_self, implies_true, forall_const, kept_imgCtxs]; done) | (rename_i hq; have hz := congrArg Prod.snd hq; dsimp only at hz; subst hz; try clear hq) | (have hz := congrArg Prod.snd ‹_ = (_, _)›; dsimp only at hz; subst hz) | (intro _ _ hk) | with_reducible apply kept_ite | with_reducible apply kept_imgCtxs | with_reducible exact kept_lit hk .. | dsimp only | split)

theorem kept_execInstExport {z0 zt : State} (m : Fin 16) {s : State} (hk : Kept z0 s) (ht : execInstExport m s = .next zt) : Kept z0 zt := by
  unfold execInstExport at ht
  cases ht
  repeat' (first | with_reducible assumption | (simp (maxDischargeDepth := 100) +contextual only [hk, kept_lit, kept_markN, kept_copy, kept_zeroWrN, kept_ite, ite_self, implies_true, forall_const, kept_modInst, kept_runCommand]; done) | (intro _ _ hk) | with_reducible apply kept_ite | with_reducible apply kept_modInst | with_reducible apply kept_runCommand | with_reducible exact kept_lit hk .. | dsimp only | split)

theorem kept_flushCopy {z0 : State} (e : Nat) (t : Nat) {s : State} (hk : Kept z0 s) : Kept z0 (State.flushCopy e t s) := by
  unfold State.flushCopy
  repeat' (first | with_reducible assumption | (simp (maxDischargeDepth := 100) +contextual only [hk, kept_lit, kept_markN, kept_copy, kept_zeroWrN, kept_ite, ite_self, implies_true, forall_const, kept_forEach, kept_logDirty, kept_modCopy]; done) | (with_reducible refine kept_forEach ?_ ?_) | (intro _ _ hk) | (with_reducible refine kept_zeroWrN ?_ ..) | (with_reducible refine kept_copy ?_ ..) | (with_reducible refine kept_markN ?_ ..) | with_reducible apply kept_ite | with_reducible apply kept_logDirty | with_reducible apply kept_modCopy | with_reducible exact kept_lit hk .. | dsimp only | split)

theorem kept_drainHome {z0 : State} (i : Nat) {s : State} (hk : Kept z0 s) : Kept z0 (State.drainHome i s) := by
  unfold State.drainHome
  repeat' (first | with_reducible assumption | (simp (maxDischargeDepth := 100) +contextual only [hk, kept_lit, kept_markN, kept_copy, kept_zeroWrN, kept_ite, ite_self, implies_true, forall_const, kept_flushCopy, kept_forEach]; done) | (with_reducible refine kept_forEach ?_ ?_) | (intro _ _ hk) | with_reducible apply kept_ite | with_reducible apply kept_flushCopy | with_reducible exact kept_lit hk .. | dsimp only | split)

theorem kept_evictAll {z0 : State} (i : Nat) {s : State} (hk : Kept z0 s) : Kept z0 (State.evictAll i s) := by
  unfold State.evictAll
  repeat' (first | with_reducible assumption | (simp (maxDischargeDepth := 100) +contextual only [hk, kept_lit, kept_markN, kept_copy, kept_zeroWrN, kept_ite, ite_self, implies_true, forall_const, kept_evict, kept_forEach]; done) | (with_reducible refine kept_forEach ?_ ?_) | (intro _ _ hk) | with_reducible apply kept_ite | with_reducible apply kept_evict | with_reducible exact kept_lit hk .. | dsimp only | split)

theorem kept_execInstExportDone {z0 zt : State} (inst : Fin 256) {s : State} (hk : Kept z0 s) (ht : execInstExportDone inst s = .next zt) : Kept z0 zt := by
  unfold execInstExportDone at ht
  cases ht
  repeat' (first | with_reducible assumption | (simp (maxDischargeDepth := 100) +contextual only [hk, kept_lit, kept_markN, kept_copy, kept_zeroWrN, kept_ite, ite_self, implies_true, forall_const, kept_commandDone, kept_drainHome, kept_emit, kept_evictAll, kept_imageOf, kept_modInst, kept_wrCompanion]; done) | (rename_i hq; have hz := congrArg Prod.snd hq; dsimp only at hz; subst hz; try clear hq) | (have hz := congrArg Prod.snd ‹_ = (_, _)›; dsimp only at hz; subst hz) | (intro _ _ hk) | with_reducible apply kept_ite | with_reducible apply kept_commandDone | with_reducible apply kept_drainHome | with_reducible apply kept_emit | with_reducible apply kept_evictAll | with_reducible apply kept_imageOf | with_reducible apply kept_modInst | with_reducible apply kept_wrCompanion | with_reducible exact kept_lit hk .. | dsimp only | split)

theorem kept_execInstImport {z0 zt : State} (m : Fin 16) (image : Image) {s : State} (hk : Kept z0 s) (ht : execInstImport m image s = .next zt) : Kept z0 zt := by
  unfold execInstImport at ht
  cases ht
  repeat' (first | with_reducible assumption | (simp (maxDischargeDepth := 100) +contextual only [hk, kept_lit, kept_markN, kept_copy, kept_zeroWrN, kept_ite, ite_self, implies_true, forall_const, kept_modInst, kept_runCommand]; done) | (intro _ _ hk) | with_reducible apply kept_ite | with_reducible apply kept_modInst | with_reducible apply kept_runCommand | with_reducible exact kept_lit hk .. | dsimp only | split)

theorem kept_putContent {z0 : State} (e : Nat) (x : ImgObj) {s : State} (hk : Kept z0 s) : Kept z0 (State.putContent e x s) := by
  unfold State.putContent
  repeat' (first | with_reducible assumption | (simp (maxDischargeDepth := 100) +contextual only [hk, kept_lit, kept_markN, kept_copy, kept_zeroWrN, kept_ite, ite_self, implies_true, forall_const, kept_forEach, kept_wr]; done) | (with_reducible refine kept_forEach ?_ ?_) | (intro _ _ hk) | (with_reducible refine kept_zeroWrN ?_ ..) | (with_reducible refine kept_copy ?_ ..) | (with_reducible refine kept_markN ?_ ..) | with_reducible apply kept_ite | with_reducible apply kept_wr | with_reducible exact kept_lit hk .. | dsimp only | split)

theorem kept_refill {z0 : State} (e : Nat) (i : Nat) {s : State} (hk : Kept z0 s) : Kept z0 (State.refill e i s) := by
  unfold State.refill
  repeat' (first | with_reducible assumption | (simp (maxDischargeDepth := 100) +contextual only [hk, kept_lit, kept_markN, kept_copy, kept_zeroWrN, kept_ite, ite_self, implies_true, forall_const, kept_promote]; done) | (intro _ _ hk) | with_reducible apply kept_ite | with_reducible apply kept_promote | with_reducible exact kept_lit hk .. | dsimp only | split)

theorem kept_fillImport {z0 : State} (i : Nat) (e : Nat) (x : ImgObj) {s : State} (hk : Kept z0 s) : Kept z0 (State.fillImport i e x s) := by
  unfold State.fillImport
  repeat' (first | with_reducible assumption | (simp (maxDischargeDepth := 100) +contextual only [hk, kept_lit, kept_markN, kept_copy, kept_zeroWrN, kept_ite, ite_self, implies_true, forall_const, kept_modCopy, kept_modObj, kept_putContent, kept_recordSums, kept_refill]; done) | (intro _ _ hk) | with_reducible apply kept_ite | with_reducible apply kept_modCopy | with_reducible apply kept_modObj | with_reducible apply kept_putContent | with_reducible apply kept_recordSums | with_reducible apply kept_refill | with_reducible exact kept_lit hk .. | dsimp only | split)

theorem kept_importObj {z0 zt : State} {e : Nat} (i : Nat) (x : ImgObj) {s : State} (hk : Kept z0 s)
    (ht : State.importObj i x s = .ok (e, zt)) : Kept z0 zt := by
  have h1 := kept_fillImport i (State.createObj (imgCreate i x) s).1 x (kept_createObj (imgCreate i x) hk)
  have h2 := fun e => kept_joinObj e i hk
  unfold State.importObj at ht
  dsimp only at ht
  revert h1 ht
  generalize State.importStop i _ s = st
  generalize State.joinOf s _ = jn
  generalize State.fillImport _ _ _ _ = n
  generalize (!objCreateArgs _ || !State.sourceOk s _) = ok
  intro ht h1
  cases ok
  rotate_left
  · cases ht
  · cases jn with
    | some j =>
      simp only [Bool.false_eq_true, ↓reduceIte, Except.ok.injEq, Prod.mk.injEq] at ht
      obtain ⟨-, rfl⟩ := ht
      exact h2 j
    | none =>
      cases st with
      | some st => cases ht
      | none =>
        simp only [Bool.false_eq_true, ↓reduceIte, Except.ok.injEq, Prod.mk.injEq] at ht
        obtain ⟨-, rfl⟩ := ht
        exact h1

theorem kept_importNext {z0 : State} (i : Nat) (x : ImgObj) {q : Except Status (List (Nat × Nat) × State)}
    (hq : ∀ p, q = .ok p → Kept z0 p.2) : ∀ p, State.importNext i q x = .ok p → Kept z0 p.2 := by
  intro p hp
  unfold State.importNext at hp
  cases q with
  | error st => cases hp
  | ok r =>
    have h1 := fun e t (h : State.importObj i x r.2 = .ok (e, t)) => kept_importObj i x (hq r rfl) h
    simp only at hp
    revert h1 hp
    generalize State.importObj i x r.2 = q
    intro hp h1
    cases q with
    | error st => cases hp
    | ok y =>
      simp only [Except.ok.injEq] at hp
      subst hp
      exact h1 y.1 y.2 rfl

theorem kept_importObjs {z0 zt : State} {l : List (Nat × Nat)} (i : Nat) (xs : List ImgObj) {s : State} (hk : Kept z0 s)
    (ht : State.importObjs i xs s = .ok (l, zt)) : Kept z0 zt := by
  unfold State.importObjs at ht
  have key : ∀ (ys : List ImgObj) (q : Except Status (List (Nat × Nat) × State)), (∀ p, q = .ok p → Kept z0 p.2) →
      ∀ p, ys.foldl (State.importNext i) q = .ok p → Kept z0 p.2 := by
    intro ys
    induction ys with
    | nil => exact fun q h => h
    | cons x ys ih => exact fun q h => ih _ (kept_importNext i x h)
  exact key xs _ (fun p hp => by cases hp; exact hk) _ ht

theorem kept_putShare {z0 : State} (f : Nat) (base : Nat) (l : List (Nat × Byte)) {s : State} (hk : Kept z0 s) : Kept z0 (State.putShare f base l s) := by
  unfold State.putShare
  repeat' (first | with_reducible assumption | (simp (maxDischargeDepth := 100) +contextual only [hk, kept_lit, kept_markN, kept_copy, kept_zeroWrN, kept_ite, ite_self, implies_true, forall_const, kept_forEach, kept_wr]; done) | (with_reducible refine kept_forEach ?_ ?_) | (intro _ _ hk) | with_reducible apply kept_ite | with_reducible apply kept_wr | with_reducible exact kept_lit hk .. | dsimp only | split)

theorem kept_importCtx {z0 zt : State} (i : Nat) (tr : List (Nat × Nat)) (x : ImgCtx) {s : State} (hk : Kept z0 s)
    (ht : State.importCtx i tr x s = .ok zt) : Kept z0 zt := by
  unfold State.importCtx at ht
  dsimp only at ht
  split at ht
  · cases ht
  · split at ht
    · cases ht
    · split at ht
      · cases ht
      · cases ht
        refine kept_forEach (fun p s hk => ?_) hk
        exact kept_modFold _ _ (kept_putShare _ _ _ (kept_zeroMem _ _ _ (kept_modFold _ _ hk)))

theorem kept_importTask {z0 : State} (i : Nat) (tr : List (Nat × Nat)) (x : ImgTask) {s : State} (hk : Kept z0 s) : Kept z0 (State.importTask i tr x s) := by
  unfold State.importTask
  repeat' (first | with_reducible assumption | (simp (maxDischargeDepth := 100) +contextual only [hk, kept_lit, kept_markN, kept_copy, kept_zeroWrN, kept_ite, ite_self, implies_true, forall_const, kept_forEach, kept_modDisp, kept_modFold, kept_setTask]; done) | (with_reducible refine kept_forEach ?_ ?_) | (intro _ _ hk) | with_reducible apply kept_ite | with_reducible apply kept_modDisp | with_reducible apply kept_modFold | with_reducible apply kept_setTask | with_reducible exact kept_lit hk .. | dsimp only | split)

theorem kept_importRegion {z0 : State} (i : Nat) (oldFirst : Nat) (tr : List (Nat × Nat)) (b : Bytes) {s : State} (hk : Kept z0 s) : Kept z0 (State.importRegion i oldFirst tr b s) := by
  unfold State.importRegion
  repeat' (first | with_reducible assumption | (simp (maxDischargeDepth := 100) +contextual only [hk, kept_lit, kept_markN, kept_copy, kept_zeroWrN, kept_ite, ite_self, implies_true, forall_const, kept_modRegion]; done) | (intro _ _ hk) | with_reducible apply kept_ite | with_reducible apply kept_modRegion | with_reducible exact kept_lit hk .. | dsimp only | split)

theorem kept_importCtxs {z0 zt : State} (i : Nat) (tr : List (Nat × Nat)) (xs : List ImgCtx) {s : State} (hk : Kept z0 s)
    (ht : State.importCtxs i tr xs s = .ok zt) : Kept z0 zt := by
  induction xs generalizing s with
  | nil => cases ht; exact hk
  | cons x xs ih =>
    simp only [State.importCtxs] at ht
    split at ht
    · cases ht
    · exact ih (kept_importCtx i tr x hk ‹_›) ht

theorem kept_importAll {z0 zt : State} {l : List (Nat × Nat)} (i : Nat) (img : Image) {s : State} (hk : Kept z0 s)
    (ht : State.importAll i img s = .ok (l, zt)) : Kept z0 zt := by
  unfold State.importAll at ht
  dsimp only at ht
  split at ht
  · cases ht
  · have h0 := kept_makeInst i (s.inst i).grant img.generation .frozen hk
    split at ht
    · cases ht
    · rename_i h1
      have h2 := kept_importObjs i _ (by
        split
        · exact kept_putContent _ _ h0
        · exact h0) h1
      split at ht
      · cases ht
      · cases ht
        exact kept_forEach (fun b s hk => kept_importRegion _ _ _ b hk)
          (kept_forEach (fun x s hk => kept_importTask _ _ x hk) (kept_importCtxs i _ _ h2 ‹_›))

theorem kept_execInstImportDone {z0 zt : State} (inst : Fin 256) (ok : Bool) {s : State} (hk : Kept z0 s)
    (ht : execInstImportDone inst ok s = .next zt) : Kept z0 zt := by
  unfold execInstImportDone at ht
  cases ht
  dsimp only
  split
  · split
    · exact kept_commandDone _ _ _ _ (kept_freeGrants _ hk)
    · rename_i h1
      split at h1
      · exact kept_commandDone _ _ _ _ (kept_wrCompanion _ _ (kept_importAll _ _ hk h1))
      · cases h1
  · exact hk

end Sys2Proof.Machine
end

