-- ==== Sys2Proof/Laws/KeptUnitOps.lean ====
section
/-! SUPPORT. The operations of Sys2Proof/Machine/UnitOps.lean keep what every step keeps. -/

namespace Sys2Proof.Machine

set_option linter.all false
set_option Elab.async false

theorem kept_fhPortChanged {z0 : State} (p : Nat) {s : State} (hk : Kept z0 s) : Kept z0 (State.fhPortChanged p s) := by
  unfold State.fhPortChanged
  repeat' (first | with_reducible assumption | (simp (maxDischargeDepth := 100) +contextual only [hk, kept_lit, kept_markN, kept_copy, kept_zeroWrN, kept_ite, ite_self, implies_true, forall_const, kept_forEach, kept_modLane]; done) | (with_reducible refine kept_forEach ?_ ?_) | (intro _ _ hk) | with_reducible apply kept_ite | with_reducible apply kept_modLane | with_reducible exact kept_lit hk .. | dsimp only | split)

theorem kept_engineChanged {z0 : State} (e : Nat) {s : State} (hk : Kept z0 s) : Kept z0 (State.engineChanged e s) := by
  unfold State.engineChanged
  repeat' (first | with_reducible assumption | (simp (maxDischargeDepth := 100) +contextual only [hk, kept_lit, kept_markN, kept_copy, kept_zeroWrN, kept_ite, ite_self, implies_true, forall_const, kept_forEach, kept_modEngine, kept_queueJob, kept_releaseHeld]; done) | (with_reducible refine kept_forEach ?_ ?_) | (intro _ _ hk) | with_reducible apply kept_ite | with_reducible apply kept_modEngine | with_reducible apply kept_queueJob | with_reducible apply kept_releaseHeld | with_reducible exact kept_lit hk .. | dsimp only | split)

theorem kept_afterUnit {z0 : State} (u : UnitId) (before : Bool) {s : State} (hk : Kept z0 s) : Kept z0 (State.afterUnit u before s) := by
  unfold State.afterUnit
  repeat' (first | with_reducible assumption | (simp (maxDischargeDepth := 100) +contextual only [hk, kept_lit, kept_markN, kept_copy, kept_zeroWrN, kept_ite, ite_self, implies_true, forall_const, kept_engineChanged, kept_fhPortChanged, kept_forEach, kept_loseStack, kept_portUnitChanged, kept_radioOn]; done) | (with_reducible refine kept_forEach ?_ ?_) | (intro _ _ hk) | with_reducible apply kept_ite | with_reducible apply kept_engineChanged | with_reducible apply kept_fhPortChanged | with_reducible apply kept_loseStack | with_reducible apply kept_portUnitChanged | with_reducible apply kept_radioOn | with_reducible exact kept_lit hk .. | dsimp only | split)

theorem kept_changeUnit {z0 : State} (u : UnitId) (new : UState) {s : State} (hk : Kept z0 s) : Kept z0 (State.changeUnit u new s) := by
  unfold State.changeUnit
  repeat' (first | with_reducible assumption | (simp (maxDischargeDepth := 100) +contextual only [hk, kept_lit, kept_markN, kept_copy, kept_zeroWrN, kept_ite, ite_self, implies_true, forall_const, kept_afterUnit, kept_setUnit]; done) | (intro _ _ hk) | with_reducible apply kept_ite | with_reducible apply kept_afterUnit | with_reducible apply kept_setUnit | with_reducible exact kept_lit hk .. | dsimp only | split)

theorem kept_modFoldHealth {z0 : State} (f : Nat) (g : FoldHealth → FoldHealth) {s : State} (hk : Kept z0 s) : Kept z0 (State.modFoldHealth f g s) := by
  unfold State.modFoldHealth
  repeat' (first | with_reducible assumption | (simp (maxDischargeDepth := 100) +contextual only [hk, kept_lit, kept_markN, kept_copy, kept_zeroWrN, kept_ite, ite_self, implies_true, forall_const, kept_modHealth]; done) | (intro _ _ hk) | with_reducible apply kept_ite | with_reducible apply kept_modHealth | with_reducible exact kept_lit hk .. | dsimp only | split)

theorem kept_applyFences {z0 : State} (u : UnitId) {s : State} (hk : Kept z0 s) : Kept z0 (State.applyFences u s) := by
  unfold State.applyFences
  repeat' (first | with_reducible assumption | (simp (maxDischargeDepth := 100) +contextual only [hk, kept_lit, kept_markN, kept_copy, kept_zeroWrN, kept_ite, ite_self, implies_true, forall_const, kept_changeUnit]; done) | (intro _ _ hk) | with_reducible apply kept_ite | with_reducible apply kept_changeUnit | with_reducible exact kept_lit hk .. | dsimp only | split)

theorem kept_fenceUnit {z0 : State} (u : UnitId) (m : FenceMode) {s : State} (hk : Kept z0 s) : Kept z0 (State.fenceUnit u m s) := by
  unfold State.fenceUnit
  repeat' (first | with_reducible assumption | (simp (maxDischargeDepth := 100) +contextual only [hk, kept_lit, kept_markN, kept_copy, kept_zeroWrN, kept_ite, ite_self, implies_true, forall_const, kept_applyFences, kept_ledger, kept_setFences]; done) | (intro _ _ hk) | with_reducible apply kept_ite | with_reducible apply kept_applyFences | with_reducible apply kept_ledger | with_reducible apply kept_setFences | with_reducible exact kept_lit hk .. | dsimp only | split)

theorem kept_liftFences {z0 : State} (u : UnitId) (gone : FenceMode → Bool) {s : State} (hk : Kept z0 s) : Kept z0 (State.liftFences u gone s) := by
  unfold State.liftFences
  repeat' (first | with_reducible assumption | (simp (maxDischargeDepth := 100) +contextual only [hk, kept_lit, kept_markN, kept_copy, kept_zeroWrN, kept_ite, ite_self, implies_true, forall_const, kept_applyFences, kept_ledger, kept_modFoldHealth, kept_setFences]; done) | (intro _ _ hk) | with_reducible apply kept_ite | with_reducible apply kept_applyFences | with_reducible apply kept_ledger | with_reducible apply kept_modFoldHealth | with_reducible apply kept_setFences | with_reducible exact kept_lit hk .. | dsimp only | split)

theorem kept_endContexts {z0 : State} (f : Nat) {s : State} (hk : Kept z0 s) : Kept z0 (State.endContexts f s) := by
  unfold State.endContexts
  repeat' (first | with_reducible assumption | (simp (maxDischargeDepth := 100) +contextual only [hk, kept_lit, kept_markN, kept_copy, kept_zeroWrN, kept_ite, ite_self, implies_true, forall_const, kept_failTask, kept_forEach, kept_leaveNow]; done) | (with_reducible refine kept_forEach ?_ ?_) | (intro _ _ hk) | with_reducible apply kept_ite | with_reducible apply kept_failTask | with_reducible apply kept_leaveNow | with_reducible exact kept_lit hk .. | dsimp only | split)

theorem kept_dmaStale {z0 : State} (e : Nat) (chans : List Nat) {s : State} (hk : Kept z0 s) : Kept z0 (State.dmaStale e chans s) := by
  unfold State.dmaStale
  repeat' (first | with_reducible assumption | (simp (maxDischargeDepth := 100) +contextual only [hk, kept_lit, kept_markN, kept_copy, kept_zeroWrN, kept_ite, ite_self, implies_true, forall_const, kept_dmaFlush, kept_forEach, kept_modChan]; done) | (with_reducible refine kept_forEach ?_ ?_) | (intro _ _ hk) | with_reducible apply kept_ite | with_reducible apply kept_dmaFlush | with_reducible apply kept_modChan | with_reducible exact kept_lit hk .. | dsimp only | split)

theorem kept_stopRuns {z0 : State} (hit : Loc → Bool) {s : State} (hk : Kept z0 s) : Kept z0 (State.stopRuns hit s) := by
  unfold State.stopRuns
  repeat' (first | with_reducible assumption | (simp (maxDischargeDepth := 100) +contextual only [hk, kept_lit, kept_markN, kept_copy, kept_zeroWrN, kept_ite, ite_self, implies_true, forall_const, kept_forEach, kept_modDma]; done) | (with_reducible refine kept_forEach ?_ ?_) | (intro _ _ hk) | with_reducible apply kept_ite | with_reducible apply kept_modDma | with_reducible exact kept_lit hk .. | dsimp only | split)

theorem kept_endStreams {z0 : State} (l : List Nat) {s : State} (hk : Kept z0 s) : Kept z0 (State.endStreams l s) := by
  unfold State.endStreams
  repeat' (first | with_reducible assumption | (simp (maxDischargeDepth := 100) +contextual only [hk, kept_lit, kept_markN, kept_copy, kept_zeroWrN, kept_ite, ite_self, implies_true, forall_const, kept_endTile, kept_forEach]; done) | (with_reducible refine kept_forEach ?_ ?_) | (intro _ _ hk) | with_reducible apply kept_ite | with_reducible apply kept_endTile | with_reducible exact kept_lit hk .. | dsimp only | split)

theorem kept_wipeSpace {z0 : State} (sp : Space) {s : State} (hk : Kept z0 s) : Kept z0 (State.wipeSpace sp s) := by
  unfold State.wipeSpace
  repeat' (first | with_reducible assumption | (simp (maxDischargeDepth := 100) +contextual only [hk, kept_lit, kept_markN, kept_copy, kept_zeroWrN, kept_ite, ite_self, implies_true, forall_const, kept_endStreams, kept_loseSpace, kept_stopRuns, kept_zeroMem]; done) | (intro _ _ hk) | with_reducible apply kept_ite | with_reducible apply kept_endStreams | with_reducible apply kept_loseSpace | with_reducible apply kept_stopRuns | with_reducible apply kept_zeroMem | with_reducible exact kept_lit hk .. | dsimp only | split)

theorem kept_dropT2Lines {z0 : State} (d : Nat) {s : State} (hk : Kept z0 s) : Kept z0 (State.dropT2Lines d s) := by
  unfold State.dropT2Lines
  repeat' (first | with_reducible assumption | (simp (maxDischargeDepth := 100) +contextual only [hk, kept_lit, kept_markN, kept_copy, kept_zeroWrN, kept_ite, ite_self, implies_true, forall_const, kept_forEach, kept_modPower, kept_takeFree]; done) | (rename_i hq; have hz := congrArg Prod.snd hq; dsimp only at hz; subst hz; try clear hq) | (have hz := congrArg Prod.snd ‹_ = (_, _)›; dsimp only at hz; subst hz) | (with_reducible refine kept_forEach ?_ ?_) | (intro _ _ hk) | with_reducible apply kept_ite | with_reducible apply kept_modPower | with_reducible apply kept_takeFree | with_reducible exact kept_lit hk .. | dsimp only | split)

theorem kept_wipeFold {z0 : State} (f : Nat) {s : State} (hk : Kept z0 s) : Kept z0 (State.wipeFold f s) := by
  unfold State.wipeFold
  repeat' (first | with_reducible assumption | (simp (maxDischargeDepth := 100) +contextual only [hk, kept_lit, kept_markN, kept_copy, kept_zeroWrN, kept_ite, ite_self, implies_true, forall_const, kept_dmaStale, kept_endContexts, kept_forEach, kept_loseTask, kept_modDisp, kept_modFold, kept_moveRadio, kept_settleHold, kept_wipeSpace]; done) | (with_reducible refine kept_forEach ?_ ?_) | (intro _ _ hk) | with_reducible apply kept_ite | with_reducible apply kept_dmaStale | with_reducible apply kept_endContexts | with_reducible apply kept_loseTask | with_reducible apply kept_modDisp | with_reducible apply kept_modFold | with_reducible apply kept_moveRadio | with_reducible apply kept_settleHold | with_reducible apply kept_wipeSpace | with_reducible exact kept_lit hk .. | dsimp only | split)

theorem kept_wipeEngine {z0 : State} (e : Nat) {s : State} (hk : Kept z0 s) : Kept z0 (State.wipeEngine e s) := by
  unfold State.wipeEngine
  repeat' (first | with_reducible assumption | (simp (maxDischargeDepth := 100) +contextual only [hk, kept_lit, kept_markN, kept_copy, kept_zeroWrN, kept_ite, ite_self, implies_true, forall_const, kept_engineDone, kept_forEach, kept_modEngine, kept_putStatus]; done) | (with_reducible refine kept_forEach ?_ ?_) | (intro _ _ hk) | with_reducible apply kept_ite | with_reducible apply kept_engineDone | with_reducible apply kept_modEngine | with_reducible apply kept_putStatus | with_reducible exact kept_lit hk .. | dsimp only | split)

theorem kept_wipeRadio {z0 : State} (a : Nat) (n : Nat) {s : State} (hk : Kept z0 s) : Kept z0 (State.wipeRadio a n s) := by
  unfold State.wipeRadio
  repeat' (first | with_reducible assumption | (simp (maxDischargeDepth := 100) +contextual only [hk, kept_lit, kept_markN, kept_copy, kept_zeroWrN, kept_ite, ite_self, implies_true, forall_const, kept_stopRuns, kept_zeroMem]; done) | (intro _ _ hk) | with_reducible apply kept_ite | with_reducible apply kept_stopRuns | with_reducible apply kept_zeroMem | with_reducible exact kept_lit hk .. | dsimp only | split)

theorem kept_wipeCore {z0 : State} (c : Nat) {s : State} (hk : Kept z0 s) : Kept z0 (State.wipeCore c s) := by
  unfold State.wipeCore
  repeat' (first | with_reducible assumption | (simp (maxDischargeDepth := 100) +contextual only [hk, kept_lit, kept_markN, kept_copy, kept_zeroWrN, kept_ite, ite_self, implies_true, forall_const, kept_modCrossing, kept_modSigCore, kept_wipeRadio]; done) | (intro _ _ hk) | with_reducible apply kept_ite | with_reducible apply kept_modCrossing | with_reducible apply kept_modSigCore | with_reducible apply kept_wipeRadio | with_reducible exact kept_lit hk .. | dsimp only | split)

theorem kept_wipeUnit {z0 : State} (u : UnitId) {s : State} (hk : Kept z0 s) : Kept z0 (State.wipeUnit u s) := by
  unfold State.wipeUnit
  repeat' (first | with_reducible assumption | (simp (maxDischargeDepth := 100) +contextual only [hk, kept_lit, kept_markN, kept_copy, kept_zeroWrN, kept_ite, ite_self, implies_true, forall_const, kept_dmaStale, kept_dropT2Lines, kept_forEach, kept_leaveUp, kept_loseStack, kept_modCore, kept_modDisp, kept_modDma, kept_modFhPort, kept_modLane, kept_modLink, kept_modMover, kept_modStackCtl, kept_wipeCore, kept_wipeEngine, kept_wipeFold, kept_wipeRadio, kept_wipeSpace]; done) | (with_reducible refine kept_forEach ?_ ?_) | (intro _ _ hk) | with_reducible apply kept_ite | with_reducible apply kept_dmaStale | with_reducible apply kept_dropT2Lines | with_reducible apply kept_leaveUp | with_reducible apply kept_loseStack | with_reducible apply kept_modCore | with_reducible apply kept_modDisp | with_reducible apply kept_modDma | with_reducible apply kept_modFhPort | with_reducible apply kept_modLane | with_reducible apply kept_modLink | with_reducible apply kept_modMover | with_reducible apply kept_modStackCtl | with_reducible apply kept_wipeCore | with_reducible apply kept_wipeEngine | with_reducible apply kept_wipeFold | with_reducible apply kept_wipeRadio | with_reducible apply kept_wipeSpace | with_reducible exact kept_lit hk .. | dsimp only | split)

theorem kept_wakeRetained {z0 : State} (u : UnitId) {s : State} (hk : Kept z0 s) : Kept z0 (State.wakeRetained u s) := by
  unfold State.wakeRetained
  repeat' (first | with_reducible assumption | (simp (maxDischargeDepth := 100) +contextual only [hk, kept_lit, kept_markN, kept_copy, kept_zeroWrN, kept_ite, ite_self, implies_true, forall_const, kept_modFold, kept_modMover, kept_modSigCore, kept_setEntry, kept_wake]; done) | (intro _ _ hk) | with_reducible apply kept_ite | with_reducible apply kept_modFold | with_reducible apply kept_modMover | with_reducible apply kept_modSigCore | with_reducible apply kept_setEntry | with_reducible apply kept_wake | with_reducible exact kept_lit hk .. | dsimp only | split)

theorem kept_startUnit {z0 : State} (u : UnitId) {s : State} (hk : Kept z0 s) : Kept z0 (State.startUnit u s) := by
  unfold State.startUnit
  repeat' (first | with_reducible assumption | (simp (maxDischargeDepth := 100) +contextual only [hk, kept_lit, kept_markN, kept_copy, kept_zeroWrN, kept_ite, ite_self, implies_true, forall_const, kept_initialise, kept_wakeRetained, kept_wipeUnit]; done) | (intro _ _ hk) | with_reducible apply kept_ite | with_reducible apply kept_initialise | with_reducible apply kept_wakeRetained | with_reducible apply kept_wipeUnit | with_reducible exact kept_lit hk .. | dsimp only | split)

theorem kept_retryWaiting {z0 : State} {s : State} (hk : Kept z0 s) : Kept z0 (State.retryWaiting s) := by
  unfold State.retryWaiting
  repeat' (first | with_reducible assumption | (simp (maxDischargeDepth := 100) +contextual only [hk, kept_lit, kept_markN, kept_copy, kept_zeroWrN, kept_ite, ite_self, implies_true, forall_const, kept_forEach, kept_startUnit]; done) | (with_reducible refine kept_forEach ?_ ?_) | (intro _ _ hk) | with_reducible apply kept_ite | with_reducible apply kept_startUnit | with_reducible exact kept_lit hk .. | dsimp only | split)

theorem kept_resetUnit {z0 : State} (u : UnitId) {s : State} (hk : Kept z0 s) : Kept z0 (State.resetUnit u s) := by
  unfold State.resetUnit
  repeat' (first | with_reducible assumption | (simp (maxDischargeDepth := 100) +contextual only [hk, kept_lit, kept_markN, kept_copy, kept_zeroWrN, kept_ite, ite_self, implies_true, forall_const, kept_forEach, kept_startUnit]; done) | (with_reducible refine kept_forEach ?_ ?_) | (intro _ _ hk) | with_reducible apply kept_ite | with_reducible apply kept_startUnit | with_reducible exact kept_lit hk .. | dsimp only | split)

theorem kept_wakeAll {z0 : State} {s : State} (hk : Kept z0 s) : Kept z0 (State.wakeAll s) := by
  unfold State.wakeAll
  repeat' (first | with_reducible assumption | (simp (maxDischargeDepth := 100) +contextual only [hk, kept_lit, kept_markN, kept_copy, kept_zeroWrN, kept_ite, ite_self, implies_true, forall_const, kept_forEach, kept_modPower, kept_startUnit]; done) | (with_reducible refine kept_forEach ?_ ?_) | (intro _ _ hk) | with_reducible apply kept_ite | with_reducible apply kept_modPower | with_reducible apply kept_startUnit | with_reducible exact kept_lit hk .. | dsimp only | split)

end Sys2Proof.Machine
end

