-- ==== Sys2Proof/Laws/KeptUnits.lean ====
section
/-! SUPPORT. The operations of Sys2Proof/Machine/Units.lean keep what every step keeps. -/

namespace Sys2Proof.Machine

set_option linter.all false
set_option Elab.async false

theorem mem_tput_of_mem (t : List (Nat × Unit)) (k : Nat) (p : Nat × Unit) (h : p ∈ t) : p ∈ tput t k () := by
  induction t with
  | nil => cases h
  | cons q r ih =>
    obtain ⟨k', v'⟩ := q
    simp only [tput]
    split
    · subst_vars; exact h
    · split
      · exact List.mem_cons_of_mem _ h
      · rcases List.mem_cons.1 h with rfl | h
        · exact List.mem_cons_self
        · exact List.mem_cons_of_mem _ (ih h)

theorem kept_litRetired {a s : State} (h : Kept a s) (k : Nat) :
    Kept a { s with flash := { s.flash with retired := tput s.flash.retired k () } } :=
  kept_flash h ⟨⟨[], rfl⟩, fun _ => Nat.le_refl _, fun p hp => mem_tput_of_mem _ _ p hp⟩

theorem kept_memWr {a s : State} (h : Kept a s) (x : Nat) (b : Byte) : Kept a { s with mem := s.mem.wr x b } :=
  kept_litMem h (fun w => MemLaws.wf_wr _ _ _ w) ..

theorem kept_execUnitReset {z0 zt : State} (u : UnitId) {s : State} (hk : Kept z0 s) (ht : execUnitReset u s = .next zt) : Kept z0 zt := by
  unfold execUnitReset at ht
  cases ht
  repeat' (first | with_reducible assumption | (simp (maxDischargeDepth := 100) +contextual only [hk, kept_lit, kept_markN, kept_copy, kept_zeroWrN, kept_ite, ite_self, implies_true, forall_const, kept_resetUnit]; done) | (intro _ _ hk) | with_reducible apply kept_ite | with_reducible apply kept_resetUnit | with_reducible exact kept_lit hk .. | dsimp only | split)

theorem kept_milestones {z0 : State} (u : UnitId) {s : State} (hk : Kept z0 s) : Kept z0 (State.milestones u s) := by
  unfold State.milestones
  repeat' (first | with_reducible assumption | (simp (maxDischargeDepth := 100) +contextual only [hk, kept_lit, kept_markN, kept_copy, kept_zeroWrN, kept_ite, ite_self, implies_true, forall_const, kept_modPower]; done) | (intro _ _ hk) | with_reducible apply kept_ite | with_reducible apply kept_modPower | with_reducible exact kept_lit hk .. | dsimp only | split)

theorem kept_execUnitSelfTestDone {z0 zt : State} (u : UnitId) (r : SelfTest) {s : State} (hk : Kept z0 s) (ht : execUnitSelfTestDone u r s = .next zt) : Kept z0 zt := by
  unfold execUnitSelfTestDone at ht
  cases ht
  repeat' (first | with_reducible assumption | (simp (maxDischargeDepth := 100) +contextual only [hk, kept_lit, kept_markN, kept_copy, kept_zeroWrN, kept_ite, ite_self, implies_true, forall_const, kept_afterUnit, kept_milestones, kept_setEntry, kept_setUnit]; done) | (intro _ _ hk) | with_reducible apply kept_ite | with_reducible apply kept_afterUnit | with_reducible apply kept_milestones | with_reducible apply kept_setEntry | with_reducible apply kept_setUnit | with_reducible exact kept_lit hk .. | dsimp only | split)

theorem kept_checkChunk {z0 : State} (sp : Space) (a : Nat) (sum : Nat) {s : State} (hk : Kept z0 s) : Kept z0 (State.checkChunk sp a sum s) := by
  unfold State.checkChunk
  repeat' (first | with_reducible assumption | (simp (maxDischargeDepth := 100) +contextual only [hk, kept_lit, kept_markN, kept_copy, kept_zeroWrN, kept_ite, ite_self, implies_true, forall_const, kept_forEach, kept_loseCopy, kept_modPower, kept_zeroMem]; done) | (with_reducible refine kept_forEach ?_ ?_) | (intro _ _ hk) | with_reducible apply kept_ite | with_reducible apply kept_loseCopy | with_reducible apply kept_modPower | with_reducible apply kept_zeroMem | with_reducible exact kept_lit hk .. | dsimp only | split)

theorem kept_execRetentionCheckDone {z0 zt : State} (u : UnitId) (decayed : List (Nat × Byte)) {s : State} (hk : Kept z0 s) (ht : execRetentionCheckDone u decayed s = .next zt) : Kept z0 zt := by
  unfold execRetentionCheckDone at ht
  cases ht
  repeat' (first | with_reducible assumption | (simp (maxDischargeDepth := 100) +contextual only [hk, kept_lit, kept_markN, kept_copy, kept_zeroWrN, kept_ite, ite_self, implies_true, forall_const, kept_checkChunk, kept_forEach, kept_setEntry, kept_wr, kept_memWr]; done) | (with_reducible refine kept_forEach ?_ ?_) | (intro _ _ hk) | (with_reducible refine kept_zeroWrN ?_ ..) | (with_reducible refine kept_copy ?_ ..) | (with_reducible refine kept_markN ?_ ..) | (with_reducible refine kept_memWr ?_ ..) | with_reducible apply kept_ite | with_reducible apply kept_checkChunk | with_reducible apply kept_setEntry | with_reducible apply kept_wr | with_reducible exact kept_lit hk .. | dsimp only | split)

theorem kept_execNocIntegrityError {z0 zt : State} {s : State} (hk : Kept z0 s) (ht : execNocIntegrityError s = .next zt) : Kept z0 zt := by
  unfold execNocIntegrityError at ht
  cases ht
  repeat' (first | with_reducible assumption | (simp (maxDischargeDepth := 100) +contextual only [hk, kept_lit, kept_markN, kept_copy, kept_zeroWrN, kept_ite, ite_self, implies_true, forall_const, kept_enterFenced]; done) | (intro _ _ hk) | with_reducible apply kept_ite | with_reducible apply kept_enterFenced | with_reducible exact kept_lit hk .. | dsimp only | split)

theorem kept_execFatalFault {z0 zt : State} (cause : FatalCause) {s : State} (hk : Kept z0 s) (ht : execFatalFault cause s = .next zt) : Kept z0 zt := by
  unfold execFatalFault at ht
  cases ht
  repeat' (first | with_reducible assumption | (simp (maxDischargeDepth := 100) +contextual only [hk, kept_lit, kept_markN, kept_copy, kept_zeroWrN, kept_ite, ite_self, implies_true, forall_const, kept_changeUnit, kept_enterFenced]; done) | (intro _ _ hk) | with_reducible apply kept_ite | with_reducible apply kept_changeUnit | with_reducible apply kept_enterFenced | with_reducible exact kept_lit hk .. | dsimp only | split)

theorem kept_execUnitFence {z0 zt : State} (m : Fin 16) {s : State} (hk : Kept z0 s) (ht : execUnitFence m s = .next zt) : Kept z0 zt := by
  unfold execUnitFence at ht
  cases ht
  repeat' (first | with_reducible assumption | (simp (maxDischargeDepth := 100) +contextual only [hk, kept_lit, kept_markN, kept_copy, kept_zeroWrN, kept_ite, ite_self, implies_true, forall_const, kept_fenceUnit, kept_liftFences, kept_placeCond, kept_runCommand]; done) | (intro _ _ hk) | with_reducible apply kept_ite | with_reducible apply kept_fenceUnit | with_reducible apply kept_liftFences | with_reducible apply kept_placeCond | with_reducible apply kept_runCommand | with_reducible exact kept_lit hk .. | dsimp only | split)

theorem kept_execUnitRetire {z0 zt : State} (m : Fin 16) {s : State} (hk : Kept z0 s) (ht : execUnitRetire m s = .next zt) : Kept z0 zt := by
  unfold execUnitRetire at ht
  cases ht
  repeat' (first | with_reducible assumption | (simp (maxDischargeDepth := 100) +contextual only [hk, kept_lit, kept_markN, kept_copy, kept_zeroWrN, kept_ite, ite_self, implies_true, forall_const, kept_ledger, kept_retire, kept_runCommand, kept_setEntry, kept_litRetired]; done) | (intro _ _ hk) | (with_reducible refine kept_litRetired ?_ ..) | with_reducible apply kept_ite | with_reducible apply kept_ledger | with_reducible apply kept_retire | with_reducible apply kept_runCommand | with_reducible apply kept_setEntry | with_reducible exact kept_lit hk .. | dsimp only | split)

theorem kept_execPatrolTick {z0 zt : State} (now : Nat) (u : UnitId) {s : State} (hk : Kept z0 s) (ht : execPatrolTick now u s = .next zt) : Kept z0 zt := by
  unfold execPatrolTick at ht
  cases ht
  repeat' (first | with_reducible assumption | (simp (maxDischargeDepth := 100) +contextual only [hk, kept_lit, kept_markN, kept_copy, kept_zeroWrN, kept_ite, ite_self, implies_true, forall_const, kept_at, kept_modHealth]; done) | (intro _ _ hk) | with_reducible apply kept_ite | with_reducible apply kept_at | with_reducible apply kept_modHealth | with_reducible exact kept_lit hk .. | dsimp only | split)

theorem kept_patrolSnapshot {z0 : State} (u : UnitId) {s : State} (hk : Kept z0 s) : Kept z0 (State.patrolSnapshot u s).2 := by
  unfold State.patrolSnapshot
  repeat' (first | with_reducible assumption | (simp (maxDischargeDepth := 100) +contextual only [hk, kept_lit, kept_markN, kept_copy, kept_zeroWrN, kept_ite, ite_self, implies_true, forall_const, kept_foldSnapshot, kept_snapshot]; done) | (rename_i hq; have hz := congrArg Prod.snd (congrArg Prod.snd hq); dsimp only at hz; subst hz; try clear hq) | (rename_i hq; have hz := congrArg Prod.snd hq; dsimp only at hz; subst hz; try clear hq) | (have hz := congrArg Prod.snd ‹_ = (_, _)›; dsimp only at hz; subst hz) | (have hz := congrArg Prod.snd (congrArg Prod.snd ‹_ = (_, _, _)›); dsimp only at hz; subst hz) | (intro _ _ hk) | with_reducible apply kept_ite | with_reducible apply kept_foldSnapshot | with_reducible apply kept_snapshot | with_reducible exact kept_lit hk .. | dsimp only | split)

theorem kept_patrolFailed {z0 : State} (u : UnitId) {s : State} (hk : Kept z0 s) : Kept z0 (State.patrolFailed u s) := by
  unfold State.patrolFailed
  repeat' (first | with_reducible assumption | (simp (maxDischargeDepth := 100) +contextual only [hk, kept_lit, kept_markN, kept_copy, kept_zeroWrN, kept_ite, ite_self, implies_true, forall_const, kept_evidence, kept_fenceUnit, kept_ledgerWith, kept_modHealth, kept_patrolSnapshot]; done) | (rename_i hq; have hz := congrArg Prod.snd hq; dsimp only at hz; subst hz; try clear hq) | (have hz := congrArg Prod.snd ‹_ = (_, _)›; dsimp only at hz; subst hz) | (intro _ _ hk) | with_reducible apply kept_ite | with_reducible apply kept_evidence | with_reducible apply kept_fenceUnit | with_reducible apply kept_ledgerWith | with_reducible apply kept_modHealth | with_reducible apply kept_patrolSnapshot | with_reducible exact kept_lit hk .. | dsimp only | split)

theorem kept_execPatrolResult {z0 zt : State} (u : UnitId) (firstOk : Bool) (secondOk : Bool) {s : State} (hk : Kept z0 s) (ht : execPatrolResult u firstOk secondOk s = .next zt) : Kept z0 zt := by
  unfold execPatrolResult at ht
  cases ht
  repeat' (first | with_reducible assumption | (simp (maxDischargeDepth := 100) +contextual only [hk, kept_lit, kept_markN, kept_copy, kept_zeroWrN, kept_ite, ite_self, implies_true, forall_const, kept_patrolFailed]; done) | (intro _ _ hk) | with_reducible apply kept_ite | with_reducible apply kept_patrolFailed | with_reducible exact kept_lit hk .. | dsimp only | split)

theorem kept_execCondFenceSample {z0 zt : State} (now : Nat) (fold : Fin 32) (temp : Int) (activity : Nat) {s : State} (hk : Kept z0 s) (ht : execCondFenceSample now fold temp activity s = .next zt) : Kept z0 zt := by
  unfold execCondFenceSample at ht
  cases ht
  repeat' (first | with_reducible assumption | (simp (maxDischargeDepth := 100) +contextual only [hk, kept_lit, kept_markN, kept_copy, kept_zeroWrN, kept_ite, ite_self, implies_true, forall_const, kept_applyFences, kept_at, kept_forEach, kept_modFoldHealth]; done) | (with_reducible refine kept_forEach ?_ ?_) | (intro _ _ hk) | with_reducible apply kept_ite | with_reducible apply kept_applyFences | with_reducible apply kept_at | with_reducible apply kept_modFoldHealth | with_reducible exact kept_lit hk .. | dsimp only | split)

end Sys2Proof.Machine
end

