-- ==== Sys2Proof/Laws/KeptHealth.lean ====
section
/-! SUPPORT. The operations of Sys2Proof/Machine/Health.lean keep what every step keeps. -/

namespace Sys2Proof.Machine

set_option linter.all false
set_option Elab.async false

theorem kept_setScope {z0 : State} (k : Option Nat) (x : Scope) {s : State} (hk : Kept z0 s) : Kept z0 (State.setScope k x s) := by
  unfold State.setScope
  repeat' (first | with_reducible assumption | (simp (maxDischargeDepth := 100) +contextual only [hk, kept_lit, kept_markN, kept_copy, kept_zeroWrN, kept_ite, ite_self, implies_true, forall_const, kept_modHealth]; done) | (intro _ _ hk) | with_reducible apply kept_ite | with_reducible apply kept_modHealth | with_reducible exact kept_lit hk .. | dsimp only | split)

theorem kept_gradeScope {z0 : State} (k : Option Nat) (score : Nat) {s : State} (hk : Kept z0 s) : Kept z0 (State.gradeScope k score s) := by
  unfold State.gradeScope
  repeat' (first | with_reducible assumption | (simp (maxDischargeDepth := 100) +contextual only [hk, kept_lit, kept_markN, kept_copy, kept_zeroWrN, kept_ite, ite_self, implies_true, forall_const, kept_ledger, kept_modHealth, kept_raise, kept_setScope]; done) | (intro _ _ hk) | with_reducible apply kept_ite | with_reducible apply kept_ledger | with_reducible apply kept_modHealth | with_reducible apply kept_raise | with_reducible apply kept_setScope | with_reducible exact kept_lit hk .. | dsimp only | split)

theorem kept_addDroops {z0 : State} (n : Nat) {s : State} (hk : Kept z0 s) : Kept z0 (State.addDroops n s) := by
  unfold State.addDroops
  repeat' (first | with_reducible assumption | (simp (maxDischargeDepth := 100) +contextual only [hk, kept_lit, kept_markN, kept_copy, kept_zeroWrN, kept_ite, ite_self, implies_true, forall_const, kept_evidence, kept_forEach, kept_modHealth]; done) | (with_reducible refine kept_forEach ?_ ?_) | (intro _ _ hk) | with_reducible apply kept_ite | with_reducible apply kept_evidence | with_reducible apply kept_modHealth | with_reducible exact kept_lit hk .. | dsimp only | split)

theorem kept_monitors {z0 : State} (canary : List (Fin 32)) (ageing : List (Fin 32)) (droops : Nat) {s : State} (hk : Kept z0 s) : Kept z0 (State.monitors canary ageing droops s) := by
  unfold State.monitors
  repeat' (first | with_reducible assumption | (simp (maxDischargeDepth := 100) +contextual only [hk, kept_lit, kept_markN, kept_copy, kept_zeroWrN, kept_ite, ite_self, implies_true, forall_const, kept_addDroops, kept_evidence, kept_forEach]; done) | (with_reducible refine kept_forEach ?_ ?_) | (intro _ _ hk) | with_reducible apply kept_ite | with_reducible apply kept_addDroops | with_reducible apply kept_evidence | with_reducible exact kept_lit hk .. | dsimp only | split)

theorem kept_execHealthEvaluation {z0 zt : State} (found : MonitorReadings) {s : State} (hk : Kept z0 s) (ht : execHealthEvaluation found s = .next zt) : Kept z0 zt := by
  unfold execHealthEvaluation at ht
  cases ht
  repeat' (first | with_reducible assumption | (simp (maxDischargeDepth := 100) +contextual only [hk, kept_lit, kept_markN, kept_copy, kept_zeroWrN, kept_ite, ite_self, implies_true, forall_const, kept_at, kept_forEach, kept_gradeScope, kept_modHealth, kept_monitors]; done) | (with_reducible refine kept_forEach ?_ ?_) | (intro _ _ hk) | with_reducible apply kept_ite | with_reducible apply kept_at | with_reducible apply kept_gradeScope | with_reducible apply kept_modHealth | with_reducible apply kept_monitors | with_reducible exact kept_lit hk .. | dsimp only | split)

theorem kept_execWatchSet {z0 zt : State} (m : Fin 16) {s : State} (hk : Kept z0 s) (ht : execWatchSet m s = .next zt) : Kept z0 zt := by
  unfold execWatchSet at ht
  cases ht
  repeat' (first | with_reducible assumption | (simp (maxDischargeDepth := 100) +contextual only [hk, kept_lit, kept_markN, kept_copy, kept_zeroWrN, kept_ite, ite_self, implies_true, forall_const, kept_runCommand, kept_setDevice]; done) | (intro _ _ hk) | with_reducible apply kept_ite | with_reducible apply kept_runCommand | with_reducible apply kept_setDevice | with_reducible exact kept_lit hk .. | dsimp only | split)

theorem kept_execRetest {z0 zt : State} (m : Fin 16) {s : State} (hk : Kept z0 s) (ht : execRetest m s = .next zt) : Kept z0 zt := by
  unfold execRetest at ht
  cases ht
  repeat' (first | with_reducible assumption | (simp (maxDischargeDepth := 100) +contextual only [hk, kept_lit, kept_markN, kept_copy, kept_zeroWrN, kept_ite, ite_self, implies_true, forall_const, kept_modHealth, kept_runCommand, kept_wakeAll]; done) | (intro _ _ hk) | with_reducible apply kept_ite | with_reducible apply kept_modHealth | with_reducible apply kept_runCommand | with_reducible apply kept_wakeAll | with_reducible exact kept_lit hk .. | dsimp only | split)

theorem kept_liftPatrol {z0 : State} (failed : List UnitId) {s : State} (hk : Kept z0 s) : Kept z0 (State.liftPatrol failed s) := by
  unfold State.liftPatrol
  repeat' (first | with_reducible assumption | (simp (maxDischargeDepth := 100) +contextual only [hk, kept_lit, kept_markN, kept_copy, kept_zeroWrN, kept_ite, ite_self, implies_true, forall_const, kept_forEach, kept_liftFences]; done) | (with_reducible refine kept_forEach ?_ ?_) | (intro _ _ hk) | with_reducible apply kept_ite | with_reducible apply kept_liftFences | with_reducible exact kept_lit hk .. | dsimp only | split)

theorem kept_execRetestDone {z0 zt : State} (now : Nat) (failed : List UnitId) (heavyEvidence : Bool) (unitsTested : Nat) (tempMin : Int) (tempMax : Int) (supplyMin : Nat) {s : State} (hk : Kept z0 s) (ht : execRetestDone now failed heavyEvidence unitsTested tempMin tempMax supplyMin s = .next zt) : Kept z0 zt := by
  unfold execRetestDone at ht
  cases ht
  repeat' (first | with_reducible assumption | (simp (maxDischargeDepth := 100) +contextual only [hk, kept_lit, kept_markN, kept_copy, kept_zeroWrN, kept_ite, ite_self, implies_true, forall_const, kept_at, kept_commandDone, kept_enqueue, kept_forEach, kept_ledgerWith, kept_liftPatrol, kept_modHealth, kept_patrolFailed, kept_patrolSnapshot]; done) | (rename_i hq; have hz := congrArg Prod.snd hq; dsimp only at hz; subst hz; try clear hq) | (have hz := congrArg Prod.snd ‹_ = (_, _)›; dsimp only at hz; subst hz) | (with_reducible refine kept_forEach ?_ ?_) | (intro _ _ hk) | with_reducible apply kept_ite | with_reducible apply kept_at | with_reducible apply kept_commandDone | with_reducible apply kept_enqueue | with_reducible apply kept_ledgerWith | with_reducible apply kept_liftPatrol | with_reducible apply kept_modHealth | with_reducible apply kept_patrolFailed | with_reducible apply kept_patrolSnapshot | with_reducible exact kept_lit hk .. | dsimp only | split)

theorem kept_execMarginSweep {z0 zt : State} (m : Fin 16) {s : State} (hk : Kept z0 s) (ht : execMarginSweep m s = .next zt) : Kept z0 zt := by
  unfold execMarginSweep at ht
  cases ht
  repeat' (first | with_reducible assumption | (simp (maxDischargeDepth := 100) +contextual only [hk, kept_lit, kept_markN, kept_copy, kept_zeroWrN, kept_ite, ite_self, implies_true, forall_const, kept_modHealth, kept_runCommand]; done) | (intro _ _ hk) | with_reducible apply kept_ite | with_reducible apply kept_modHealth | with_reducible apply kept_runCommand | with_reducible exact kept_lit hk .. | dsimp only | split)

theorem kept_execMarginSweepDone {z0 zt : State} (fold : Fin 32) (lowest : List (Fin 4 × Int × Int)) (failed0 : List (Fin 4)) (skipped : List (Fin 4)) {s : State} (hk : Kept z0 s) (ht : execMarginSweepDone fold lowest failed0 skipped s = .next zt) : Kept z0 zt := by
  unfold execMarginSweepDone at ht
  cases ht
  repeat' (first | with_reducible assumption | (simp (maxDischargeDepth := 100) +contextual only [hk, kept_lit, kept_markN, kept_copy, kept_zeroWrN, kept_ite, ite_self, implies_true, forall_const, kept_commandDone, kept_ledger, kept_modHealth]; done) | (intro _ _ hk) | with_reducible apply kept_ite | with_reducible apply kept_commandDone | with_reducible apply kept_ledger | with_reducible apply kept_modHealth | with_reducible exact kept_lit hk .. | dsimp only | split)

theorem kept_execDevFence {z0 zt : State} (m : Fin 16) {s : State} (hk : Kept z0 s) (ht : execDevFence m s = .next zt) : Kept z0 zt := by
  unfold execDevFence at ht
  cases ht
  repeat' (first | with_reducible assumption | (simp (maxDischargeDepth := 100) +contextual only [hk, kept_lit, kept_markN, kept_copy, kept_zeroWrN, kept_ite, ite_self, implies_true, forall_const, kept_enterFenced, kept_runCommand]; done) | (intro _ _ hk) | with_reducible apply kept_ite | with_reducible apply kept_enterFenced | with_reducible apply kept_runCommand | with_reducible exact kept_lit hk .. | dsimp only | split)

theorem kept_execStandbyEnter {z0 zt : State} (m : Fin 16) {s : State} (hk : Kept z0 s) (ht : execStandbyEnter m s = .next zt) : Kept z0 zt := by
  unfold execStandbyEnter at ht
  cases ht
  repeat' (first | with_reducible assumption | (simp (maxDischargeDepth := 100) +contextual only [hk, kept_lit, kept_markN, kept_copy, kept_zeroWrN, kept_ite, ite_self, implies_true, forall_const, kept_modHealth, kept_runCommand, kept_setDevice]; done) | (intro _ _ hk) | with_reducible apply kept_ite | with_reducible apply kept_modHealth | with_reducible apply kept_runCommand | with_reducible apply kept_setDevice | with_reducible exact kept_lit hk .. | dsimp only | split)

theorem kept_assumeAll {z0 d : State} (planned : Bool) (l : List AssumeEntry) {s : State} (hd : Kept z0 d)
    (hk : Kept z0 s) : Kept z0 ((State.assumeAll planned l s).getD d) := by
  induction l generalizing s with
  | nil => exact hk
  | cons e r ih =>
    simp only [State.assumeAll]
    split
    · exact hd
    · exact ih (kept_modCell _ _ (kept_admitCell _ _ _ _ (kept_takeFree _ hk)))

theorem kept_execAssume {z0 zt : State} (m : Fin 16) {s : State} (hk : Kept z0 s) (ht : execAssume m s = .next zt) : Kept z0 zt := by
  unfold execAssume at ht
  cases ht
  repeat' (first | with_reducible assumption | (simp (maxDischargeDepth := 100) +contextual only [hk, kept_lit, kept_markN, kept_copy, kept_zeroWrN, kept_ite, ite_self, implies_true, forall_const, kept_ledger, kept_modHealth, kept_runCommand, kept_sendRefresh, kept_assumeAll]; done) | (intro _ _ hk) | (refine kept_assumeAll _  ?_ (by assumption)) | (with_reducible refine kept_assumeAll ?_ ..) | with_reducible apply kept_ite | with_reducible apply kept_ledger | with_reducible apply kept_modHealth | with_reducible apply kept_runCommand | with_reducible apply kept_sendRefresh | with_reducible exact kept_lit hk .. | dsimp only | split)

theorem kept_execAssumeDone {z0 zt : State} (now : Nat) {s : State} (hk : Kept z0 s) (ht : execAssumeDone now s = .next zt) : Kept z0 zt := by
  unfold execAssumeDone at ht
  cases ht
  repeat' (first | with_reducible assumption | (simp (maxDischargeDepth := 100) +contextual only [hk, kept_lit, kept_markN, kept_copy, kept_zeroWrN, kept_ite, ite_self, implies_true, forall_const, kept_at, kept_commandDone, kept_modHealth, kept_setDevice]; done) | (intro _ _ hk) | with_reducible apply kept_ite | with_reducible apply kept_at | with_reducible apply kept_commandDone | with_reducible apply kept_modHealth | with_reducible apply kept_setDevice | with_reducible exact kept_lit hk .. | dsimp only | split)

end Sys2Proof.Machine
end

