-- ==== Sys2Proof/Laws/KeptLedger.lean ====
section
/-! SUPPORT. The operations of Sys2Proof/Machine/Ledger.lean keep what every step keeps. -/

namespace Sys2Proof.Machine

set_option linter.all false
set_option Elab.async false

theorem kept_execLedgerBatchWrite {z0 zt : State} (now : Nat) {s : State} (hk : Kept z0 s) (ht : execLedgerBatchWrite now s = .next zt) : Kept z0 zt := by
  unfold execLedgerBatchWrite at ht
  cases ht
  repeat' (first | with_reducible assumption | (simp (maxDischargeDepth := 100) +contextual only [hk, kept_lit, kept_markN, kept_copy, kept_zeroWrN, kept_ite, ite_self, implies_true, forall_const, kept_at, kept_closeBatch, kept_retryWaiting]; done) | (intro _ _ hk) | with_reducible apply kept_ite | with_reducible apply kept_at | with_reducible apply kept_closeBatch | with_reducible apply kept_retryWaiting | with_reducible exact kept_lit hk .. | dsimp only | split)

theorem kept_execProgressRead {z0 zt : State} (m : Fin 16) {s : State} (hk : Kept z0 s) (ht : execProgressRead m s = .next zt) : Kept z0 zt := by
  unfold execProgressRead at ht
  cases ht
  repeat' (first | with_reducible assumption | (simp (maxDischargeDepth := 100) +contextual only [hk, kept_lit, kept_markN, kept_copy, kept_zeroWrN, kept_ite, ite_self, implies_true, forall_const, kept_runCommand]; done) | (intro _ _ hk) | with_reducible apply kept_ite | with_reducible apply kept_runCommand | with_reducible exact kept_lit hk .. | dsimp only | split)

theorem kept_hbmHist {z0 : State} (k : Nat) {s : State} (hk : Kept z0 s) : Kept z0 (State.hbmHist k s) := by
  unfold State.hbmHist
  repeat' (first | with_reducible assumption | (simp (maxDischargeDepth := 100) +contextual only [hk, kept_lit, kept_markN, kept_copy, kept_zeroWrN, kept_ite, ite_self, implies_true, forall_const, kept_ledger]; done) | (intro _ _ hk) | with_reducible apply kept_ite | with_reducible apply kept_ledger | with_reducible exact kept_lit hk .. | dsimp only | split)

theorem kept_thermalHist {z0 : State} (d : Nat) {s : State} (hk : Kept z0 s) : Kept z0 (State.thermalHist d s) := by
  unfold State.thermalHist
  repeat' (first | with_reducible assumption | (simp (maxDischargeDepth := 100) +contextual only [hk, kept_lit, kept_markN, kept_copy, kept_zeroWrN, kept_ite, ite_self, implies_true, forall_const, kept_ledger]; done) | (intro _ _ hk) | with_reducible apply kept_ite | with_reducible apply kept_ledger | with_reducible exact kept_lit hk .. | dsimp only | split)

theorem kept_execLedgerPeriodicRecord {z0 zt : State} (now : Nat) (daily : Bool) {s : State} (hk : Kept z0 s) (ht : execLedgerPeriodicRecord now daily s = .next zt) : Kept z0 zt := by
  unfold execLedgerPeriodicRecord at ht
  cases ht
  repeat' (first | with_reducible assumption | (simp (maxDischargeDepth := 100) +contextual only [hk, kept_lit, kept_markN, kept_copy, kept_zeroWrN, kept_ite, ite_self, implies_true, forall_const, kept_at, kept_forEach, kept_hbmHist, kept_ledger, kept_modPkg, kept_thermalHist]; done) | (with_reducible refine kept_forEach ?_ ?_) | (intro _ _ hk) | with_reducible apply kept_ite | with_reducible apply kept_at | with_reducible apply kept_hbmHist | with_reducible apply kept_ledger | with_reducible apply kept_modPkg | with_reducible apply kept_thermalHist | with_reducible exact kept_lit hk .. | dsimp only | split)

theorem kept_execLedgerRead {z0 zt : State} (m : Fin 16) {s : State} (hk : Kept z0 s) (ht : execLedgerRead m s = .next zt) : Kept z0 zt := by
  unfold execLedgerRead at ht
  cases ht
  repeat' (first | with_reducible assumption | (simp (maxDischargeDepth := 100) +contextual only [hk, kept_lit, kept_markN, kept_copy, kept_zeroWrN, kept_ite, ite_self, implies_true, forall_const, kept_modHealth, kept_runCommand]; done) | (intro _ _ hk) | with_reducible apply kept_ite | with_reducible apply kept_modHealth | with_reducible apply kept_runCommand | with_reducible exact kept_lit hk .. | dsimp only | split)

theorem kept_execLedgerReadDone {z0 zt : State} (m : Fin 16) {s : State} (hk : Kept z0 s) (ht : execLedgerReadDone m s = .next zt) : Kept z0 zt := by
  unfold execLedgerReadDone at ht
  cases ht
  repeat' (first | with_reducible assumption | (simp (maxDischargeDepth := 100) +contextual only [hk, kept_lit, kept_markN, kept_copy, kept_zeroWrN, kept_ite, ite_self, implies_true, forall_const, kept_commandDone, kept_modHealth, kept_wrCompanion]; done) | (intro _ _ hk) | with_reducible apply kept_ite | with_reducible apply kept_commandDone | with_reducible apply kept_modHealth | with_reducible apply kept_wrCompanion | with_reducible exact kept_lit hk .. | dsimp only | split)

end Sys2Proof.Machine
end

