-- ==== Sys2Proof/Laws/KeptBoot.lean ====
section
/-! SUPPORT. The operations of Sys2Proof/Machine/Boot.lean keep what every step keeps. -/

namespace Sys2Proof.Machine

set_option linter.all false
set_option Elab.async false

theorem kept_litImage {a s : State} (h : Kept a s) (x : Flash) (hb : x.batches = s.flash.batches)
    (hr : x.reserved = s.flash.reserved) (ht : x.retired = s.flash.retired) : Kept a { s with flash := x } :=
  kept_flash h ⟨⟨[], by simp only [hb, List.nil_append]⟩, fun _ => Nat.le_of_eq (by rw [hr]), fun _ h => ht ▸ h⟩

theorem wf_keptMem (m : Mem) (h : m.wf = true) : (keptMem m).wf = true := by
  simp only [Mem.wf, Bool.and_eq_true] at h ⊢
  exact ⟨twf_filter _ _ _ h.1, tsorted_filter _ _ h.2⟩

theorem reset_legal : State.reset.settings.legal := by
  simp only [Settings.legal, State.reset]
  decide

theorem kept_deviceReset {z0 s : State} (hk : Kept z0 s) : Kept z0 s.deviceReset := by
  have h := kept_setDevice .rom hk
  exact ⟨h.pending, fun hm => wf_keptMem _ (h.mem hm), fun _ => reset_legal, h.fuses, h.flash⟩

theorem kept_startRom {z0 : State} {s : State} (hk : Kept z0 s) : Kept z0 (State.startRom s) := by
  unfold State.startRom
  repeat' (first | with_reducible assumption | (simp (maxDischargeDepth := 100) +contextual only [hk, kept_lit, kept_markN, kept_copy, kept_zeroWrN, kept_ite, ite_self, implies_true, forall_const, kept_extend]; done) | (intro _ _ hk) | with_reducible apply kept_ite | with_reducible apply kept_extend | with_reducible exact kept_lit hk .. | dsimp only | split)

theorem kept_warmReset {z0 : State} (copy : Option (Bytes × Bool)) {s : State} (hk : Kept z0 s) : Kept z0 (State.warmReset copy s) := by
  unfold State.warmReset
  repeat' (first | with_reducible assumption | (simp (maxDischargeDepth := 100) +contextual only [hk, kept_lit, kept_markN, kept_copy, kept_zeroWrN, kept_ite, ite_self, implies_true, forall_const, kept_deviceReset, kept_modSec, kept_startRom]; done) | (intro _ _ hk) | with_reducible apply kept_ite | with_reducible apply kept_deviceReset | with_reducible apply kept_modSec | with_reducible apply kept_startRom | with_reducible exact kept_lit hk .. | dsimp only | split)

theorem kept_execBoardReset {z0 zt : State} {s : State} (hk : Kept z0 s) (ht : execBoardReset s = .next zt) : Kept z0 zt := by
  unfold execBoardReset at ht
  cases ht
  repeat' (first | with_reducible assumption | (simp (maxDischargeDepth := 100) +contextual only [hk, kept_lit, kept_markN, kept_copy, kept_zeroWrN, kept_ite, ite_self, implies_true, forall_const, kept_deviceReset]; done) | (intro _ _ hk) | with_reducible apply kept_ite | with_reducible apply kept_deviceReset | with_reducible exact kept_lit hk .. | dsimp only | split)

theorem kept_execBoardResetRelease {z0 zt : State} (hotInsertion : Bool) {s : State} (hk : Kept z0 s) (ht : execBoardResetRelease hotInsertion s = .next zt) : Kept z0 zt := by
  unfold execBoardResetRelease at ht
  cases ht
  repeat' (first | with_reducible assumption | (simp (maxDischargeDepth := 100) +contextual only [hk, kept_lit, kept_markN, kept_copy, kept_zeroWrN, kept_ite, ite_self, implies_true, forall_const, kept_modPkg, kept_startRom]; done) | (intro _ _ hk) | with_reducible apply kept_ite | with_reducible apply kept_modPkg | with_reducible apply kept_startRom | with_reducible exact kept_lit hk .. | dsimp only | split)

theorem kept_measureBoot {z0 : State} (b : Bytes) (recovered : Bool) (persist : Bool) {s : State} (hk : Kept z0 s) : Kept z0 (State.measureBoot b recovered persist s) := by
  unfold State.measureBoot
  repeat' (first | with_reducible assumption | (simp (maxDischargeDepth := 100) +contextual only [hk, kept_lit, kept_markN, kept_copy, kept_zeroWrN, kept_ite, ite_self, implies_true, forall_const, kept_extend, kept_forEach]; done) | (with_reducible refine kept_forEach ?_ ?_) | (intro _ _ hk) | with_reducible apply kept_ite | with_reducible apply kept_extend | with_reducible exact kept_lit hk .. | dsimp only | split)

theorem kept_restoreDeficits {z0 : State} {s : State} (hk : Kept z0 s) : Kept z0 (State.restoreDeficits s) := by
  unfold State.restoreDeficits
  repeat' (first | with_reducible assumption | (simp (maxDischargeDepth := 100) +contextual only [hk, kept_lit, kept_markN, kept_copy, kept_zeroWrN, kept_ite, ite_self, implies_true, forall_const, kept_modHealth]; done) | (intro _ _ hk) | with_reducible apply kept_ite | with_reducible apply kept_modHealth | with_reducible exact kept_lit hk .. | dsimp only | split)

theorem kept_numberUnit {z0 : State} (u : UnitId) {s : State} (hk : Kept z0 s) : Kept z0 (State.numberUnit u s).2 := by
  unfold State.numberUnit
  repeat' (first | with_reducible assumption | (simp (maxDischargeDepth := 100) +contextual only [hk, kept_lit, kept_markN, kept_copy, kept_zeroWrN, kept_ite, ite_self, implies_true, forall_const, kept_reserveInc]; done) | (intro _ _ hk) | with_reducible apply kept_ite | with_reducible apply kept_reserveInc | with_reducible exact kept_lit hk .. | dsimp only | split)

theorem kept_publish {z0 s : State} (hk : Kept z0 s) : Kept z0 s.publish := by
  unfold State.publish
  refine kept_lit (kept_forEach (fun f s h => ?_) (kept_forEach (fun u s h => ?_) hk)) ..
  · dsimp only
    split
    · exact h
    · exact kept_modFoldHealth _ _ (kept_modHealth _ h)
  · exact kept_lit (kept_numberUnit u h) ..

theorem kept_powerRecords {z0 : State} {s : State} (hk : Kept z0 s) : Kept z0 (State.powerRecords s) := by
  unfold State.powerRecords
  repeat' (first | with_reducible assumption | (simp (maxDischargeDepth := 100) +contextual only [hk, kept_lit, kept_markN, kept_copy, kept_zeroWrN, kept_ite, ite_self, implies_true, forall_const, kept_ledger, kept_modPkg, kept_litImage]; done) | (intro _ _ hk) | (with_reducible refine kept_litImage ?_ ..) | with_reducible apply kept_ite | with_reducible apply kept_ledger | with_reducible apply kept_modPkg | with_reducible exact kept_lit hk .. | dsimp only | split)

theorem kept_bootImage {z0 : State} (b : Bytes) (recovered : Bool) (persist : Bool) {s : State} (hk : Kept z0 s) : Kept z0 (State.bootImage b recovered persist s) := by
  unfold State.bootImage
  repeat' (first | with_reducible assumption | (simp (maxDischargeDepth := 100) +contextual only [hk, kept_lit, kept_markN, kept_copy, kept_zeroWrN, kept_ite, ite_self, implies_true, forall_const, kept_measureBoot, kept_modHealth, kept_modSec, kept_powerRecords, kept_publish, kept_restoreDeficits, kept_setDevice]; done) | (intro _ _ hk) | with_reducible apply kept_ite | with_reducible apply kept_measureBoot | with_reducible apply kept_modHealth | with_reducible apply kept_modSec | with_reducible apply kept_powerRecords | with_reducible apply kept_publish | with_reducible apply kept_restoreDeficits | with_reducible apply kept_setDevice | with_reducible exact kept_lit hk .. | dsimp only | split)

theorem kept_execImageVerify {z0 zt : State} (readOk : Bool) {s : State} (hk : Kept z0 s) (ht : execImageVerify readOk s = .next zt) : Kept z0 zt := by
  unfold execImageVerify at ht
  cases ht
  repeat' (first | with_reducible assumption | (simp (maxDischargeDepth := 100) +contextual only [hk, kept_lit, kept_markN, kept_copy, kept_zeroWrN, kept_ite, ite_self, implies_true, forall_const, kept_bootImage, kept_modPkg, kept_modSec]; done) | (intro _ _ hk) | with_reducible apply kept_ite | with_reducible apply kept_bootImage | with_reducible apply kept_modPkg | with_reducible apply kept_modSec | with_reducible exact kept_lit hk .. | dsimp only | split)

theorem kept_execFwRecoveryLoad {z0 zt : State} (m : Fin 16) {s : State} (hk : Kept z0 s) (ht : execFwRecoveryLoad m s = .next zt) : Kept z0 zt := by
  unfold execFwRecoveryLoad at ht
  cases ht
  repeat' (first | with_reducible assumption | (simp (maxDischargeDepth := 100) +contextual only [hk, kept_lit, kept_markN, kept_copy, kept_zeroWrN, kept_ite, ite_self, implies_true, forall_const, kept_modSec, kept_runCommand]; done) | (intro _ _ hk) | with_reducible apply kept_ite | with_reducible apply kept_modSec | with_reducible apply kept_runCommand | with_reducible exact kept_lit hk .. | dsimp only | split)

theorem kept_execFwRecoveryVerified {z0 zt : State} (transferOk : Bool) {s : State} (hk : Kept z0 s) (ht : execFwRecoveryVerified transferOk s = .next zt) : Kept z0 zt := by
  unfold execFwRecoveryVerified at ht
  cases ht
  repeat' (first | with_reducible assumption | (simp (maxDischargeDepth := 100) +contextual only [hk, kept_lit, kept_markN, kept_copy, kept_zeroWrN, kept_ite, ite_self, implies_true, forall_const, kept_modMbox, kept_modSec, kept_warmReset, kept_wr]; done) | (intro _ _ hk) | with_reducible apply kept_ite | with_reducible apply kept_modMbox | with_reducible apply kept_modSec | with_reducible apply kept_warmReset | with_reducible apply kept_wr | with_reducible exact kept_lit hk .. | dsimp only | split)

theorem kept_execImagePersistDone {z0 zt : State} (powerLost : Bool) {s : State} (hk : Kept z0 s) (ht : execImagePersistDone powerLost s = .next zt) : Kept z0 zt := by
  unfold execImagePersistDone at ht
  cases ht
  repeat' (first | with_reducible assumption | (simp (maxDischargeDepth := 100) +contextual only [hk, kept_lit, kept_markN, kept_copy, kept_zeroWrN, kept_ite, ite_self, implies_true, forall_const, kept_modSec, kept_litImage]; done) | (intro _ _ hk) | (with_reducible refine kept_litImage ?_ ..) | with_reducible apply kept_ite | with_reducible apply kept_modSec | with_reducible exact kept_lit hk .. | dsimp only | split)

theorem kept_burnFuses {z0 s : State} (hk : Kept z0 s) : Kept z0 s.burnFuses := by
  refine ⟨hk.pending, hk.mem, hk.legal, Fuses.burned_trans hk.fuses ⟨rfl, rfl, Nat.le_max_left _ _, Nat.le_refl _, ?_⟩, hk.flash⟩
  show s.fuses.revoked ||| (s.fuses.revoked ||| _) = s.fuses.revoked ||| _
  rw [← BitVec.or_assoc, BitVec.or_self]

theorem kept_execDevConfigure {z0 zt : State} (m : Fin 16) {s : State} (hk : Kept z0 s) (ht : execDevConfigure m s = .next zt) : Kept z0 zt := by
  unfold execDevConfigure at ht
  cases ht
  repeat' (first | with_reducible assumption | (simp (maxDischargeDepth := 100) +contextual only [hk, kept_lit, kept_markN, kept_copy, kept_zeroWrN, kept_ite, ite_self, implies_true, forall_const, kept_bindDma, kept_burnFuses, kept_ensureRadio, kept_forEach, kept_runCommand, kept_setDevice]; done) | (with_reducible refine kept_forEach ?_ ?_) | (intro _ _ hk) | with_reducible apply kept_ite | with_reducible apply kept_bindDma | with_reducible apply kept_burnFuses | with_reducible apply kept_ensureRadio | with_reducible apply kept_runCommand | with_reducible apply kept_setDevice | with_reducible exact kept_lit hk .. | dsimp only | split)

theorem kept_execDevCommit {z0 zt : State} (m : Fin 16) {s : State} (hk : Kept z0 s) (ht : execDevCommit m s = .next zt) : Kept z0 zt := by
  unfold execDevCommit at ht
  cases ht
  repeat' (first | with_reducible assumption | (simp (maxDischargeDepth := 100) +contextual only [hk, kept_lit, kept_markN, kept_copy, kept_zeroWrN, kept_ite, ite_self, implies_true, forall_const, kept_forEach, kept_modCell, kept_runCommand, kept_setDevice]; done) | (with_reducible refine kept_forEach ?_ ?_) | (intro _ _ hk) | with_reducible apply kept_ite | with_reducible apply kept_modCell | with_reducible apply kept_runCommand | with_reducible apply kept_setDevice | with_reducible exact kept_lit hk .. | dsimp only | split)

theorem kept_execDevReset {z0 zt : State} (m : Fin 16) {s : State} (hk : Kept z0 s) (ht : execDevReset m s = .next zt) : Kept z0 zt := by
  unfold execDevReset at ht
  cases ht
  repeat' (first | with_reducible assumption | (simp (maxDischargeDepth := 100) +contextual only [hk, kept_lit, kept_markN, kept_copy, kept_zeroWrN, kept_ite, ite_self, implies_true, forall_const, kept_closeBatch, kept_respond, kept_warmReset]; done) | (intro _ _ hk) | with_reducible apply kept_ite | with_reducible apply kept_closeBatch | with_reducible apply kept_respond | with_reducible apply kept_warmReset | with_reducible exact kept_lit hk .. | dsimp only | split)

theorem kept_execDebugAccess {z0 zt : State} (m : Fin 16) {s : State} (hk : Kept z0 s) (ht : execDebugAccess m s = .next zt) : Kept z0 zt := by
  unfold execDebugAccess at ht
  cases ht
  repeat' (first | with_reducible assumption | (simp (maxDischargeDepth := 100) +contextual only [hk, kept_lit, kept_markN, kept_copy, kept_zeroWrN, kept_ite, ite_self, implies_true, forall_const, kept_extend, kept_runCommand]; done) | (intro _ _ hk) | with_reducible apply kept_ite | with_reducible apply kept_extend | with_reducible apply kept_runCommand | with_reducible exact kept_lit hk .. | dsimp only | split)

end Sys2Proof.Machine
end

