-- ==== Sys2Proof/Laws/KeptSecurity.lean ====
section
/-! SUPPORT. The operations of Sys2Proof/Machine/Security.lean keep what every step keeps. -/

namespace Sys2Proof.Machine

set_option linter.all false
set_option Elab.async false

/-- Signing one batch changes no record. -/
theorem kept_litSign {a s : State} (h : Kept a s) (q : Nat) (sig : Bytes) :
    Kept a { s with flash := { s.flash with batches :=
                                              s.flash.batches.map (fun b => if b.seq = q then { b with signature := some sig } else b) } } := by
  refine kept_flash h ⟨⟨[], ?_⟩, fun _ => Nat.le_refl _, fun _ h => h⟩
  show List.map _ (List.map _ _) = _
  rw [List.map_map, List.nil_append]
  refine List.map_congr_left fun b _ => ?_
  simp only [Function.comp]
  split <;> rfl

theorem kept_execMeasureRead {z0 zt : State} (m : Fin 16) {s : State} (hk : Kept z0 s) (ht : execMeasureRead m s = .next zt) : Kept z0 zt := by
  unfold execMeasureRead at ht
  cases ht
  repeat' (first | with_reducible assumption | (simp (maxDischargeDepth := 100) +contextual only [hk, kept_lit, kept_markN, kept_copy, kept_zeroWrN, kept_ite, ite_self, implies_true, forall_const, kept_runCommand]; done) | (intro _ _ hk) | with_reducible apply kept_ite | with_reducible apply kept_runCommand | with_reducible exact kept_lit hk .. | dsimp only | split)

theorem kept_firstKey {z0 : State} {s : State} (hk : Kept z0 s) : Kept z0 (State.firstKey s) := by
  unfold State.firstKey
  repeat' (first | with_reducible assumption | (simp (maxDischargeDepth := 100) +contextual only [hk, kept_lit, kept_markN, kept_copy, kept_zeroWrN, kept_ite, ite_self, implies_true, forall_const, kept_certify, kept_modSec]; done) | (rename_i hq; have hz := congrArg Prod.snd hq; dsimp only at hz; subst hz; try clear hq) | (have hz := congrArg Prod.snd ‹_ = (_, _)›; dsimp only at hz; subst hz) | (intro _ _ hk) | with_reducible apply kept_ite | with_reducible apply kept_certify | with_reducible apply kept_modSec | with_reducible exact kept_lit hk .. | dsimp only | split)

theorem kept_renewKey {z0 : State} {s : State} (hk : Kept z0 s) : Kept z0 (State.renewKey s) := by
  unfold State.renewKey
  repeat' (first | with_reducible assumption | (simp (maxDischargeDepth := 100) +contextual only [hk, kept_lit, kept_markN, kept_copy, kept_zeroWrN, kept_ite, ite_self, implies_true, forall_const, kept_certify, kept_modSec, kept_switchKey]; done) | (rename_i hq; have hz := congrArg Prod.snd hq; dsimp only at hz; subst hz; try clear hq) | (have hz := congrArg Prod.snd ‹_ = (_, _)›; dsimp only at hz; subst hz) | (intro _ _ hk) | with_reducible apply kept_ite | with_reducible apply kept_certify | with_reducible apply kept_modSec | with_reducible apply kept_switchKey | with_reducible exact kept_lit hk .. | dsimp only | split)

theorem kept_execSessionKeyReady {z0 zt : State} {s : State} (hk : Kept z0 s) (ht : execSessionKeyReady s = .next zt) : Kept z0 zt := by
  unfold execSessionKeyReady at ht
  cases ht
  repeat' (first | with_reducible assumption | (simp (maxDischargeDepth := 100) +contextual only [hk, kept_lit, kept_markN, kept_copy, kept_zeroWrN, kept_ite, ite_self, implies_true, forall_const, kept_firstKey, kept_renewKey]; done) | (intro _ _ hk) | with_reducible apply kept_ite | with_reducible apply kept_firstKey | with_reducible apply kept_renewKey | with_reducible exact kept_lit hk .. | dsimp only | split)

theorem kept_answer {z0 : State} (code : Byte) (tag : Byte) (st : Status) (body : Bytes) {s : State} (hk : Kept z0 s) : Kept z0 (State.answer code tag st body s) := by
  unfold State.answer
  repeat' (first | with_reducible assumption | (simp (maxDischargeDepth := 100) +contextual only [hk, kept_lit, kept_markN, kept_copy, kept_zeroWrN, kept_ite, ite_self, implies_true, forall_const, kept_emit]; done) | (intro _ _ hk) | with_reducible apply kept_ite | with_reducible apply kept_emit | with_reducible exact kept_lit hk .. | dsimp only | split)

theorem kept_endRetest {z0 : State} (cert : Bytes) (st : Status) {s : State} (hk : Kept z0 s) : Kept z0 (State.endRetest cert st s) := by
  unfold State.endRetest
  repeat' (first | with_reducible assumption | (simp (maxDischargeDepth := 100) +contextual only [hk, kept_lit, kept_markN, kept_copy, kept_zeroWrN, kept_ite, ite_self, implies_true, forall_const, kept_commandDone, kept_modHealth]; done) | (intro _ _ hk) | with_reducible apply kept_ite | with_reducible apply kept_commandDone | with_reducible apply kept_modHealth | with_reducible exact kept_lit hk .. | dsimp only | split)

theorem kept_signed {z0 : State} (r : SignReq) (msg : Bytes) (sig : Bytes) {s : State} (hk : Kept z0 s) : Kept z0 (State.signed r msg sig s) := by
  unfold State.signed
  repeat' (first | with_reducible assumption | (simp (maxDischargeDepth := 100) +contextual only [hk, kept_lit, kept_markN, kept_copy, kept_zeroWrN, kept_ite, ite_self, implies_true, forall_const, kept_answer, kept_endRetest, kept_forEach, kept_ledger, kept_modHealth, kept_modSec, kept_provPut, kept_litSign]; done) | (with_reducible refine kept_forEach ?_ ?_) | (intro _ _ hk) | (with_reducible refine kept_litSign ?_ ..) | with_reducible apply kept_ite | with_reducible apply kept_answer | with_reducible apply kept_endRetest | with_reducible apply kept_ledger | with_reducible apply kept_modHealth | with_reducible apply kept_modSec | with_reducible apply kept_provPut | with_reducible exact kept_lit hk .. | dsimp only | split)

theorem kept_unsigned {z0 : State} (r : SignReq) {s : State} (hk : Kept z0 s) : Kept z0 (State.unsigned r s) := by
  unfold State.unsigned
  repeat' (first | with_reducible assumption | (simp (maxDischargeDepth := 100) +contextual only [hk, kept_lit, kept_markN, kept_copy, kept_zeroWrN, kept_ite, ite_self, implies_true, forall_const, kept_answer, kept_endRetest, kept_litSign]; done) | (intro _ _ hk) | (with_reducible refine kept_litSign ?_ ..) | with_reducible apply kept_ite | with_reducible apply kept_answer | with_reducible apply kept_endRetest | with_reducible exact kept_lit hk .. | dsimp only | split)

theorem kept_execSignRequestDone {z0 zt : State} (now : Nat) {s : State} (hk : Kept z0 s) (ht : execSignRequestDone now s = .next zt) : Kept z0 zt := by
  unfold execSignRequestDone at ht
  cases ht
  repeat' (first | with_reducible assumption | (simp (maxDischargeDepth := 100) +contextual only [hk, kept_lit, kept_markN, kept_copy, kept_zeroWrN, kept_ite, ite_self, implies_true, forall_const, kept_at, kept_modSec, kept_signed, kept_switchKey, kept_unsigned]; done) | (intro _ _ hk) | (refine kept_sessionSign _  ?_ (by assumption)) | with_reducible apply kept_ite | with_reducible apply kept_at | with_reducible apply kept_modSec | with_reducible apply kept_signed | with_reducible apply kept_switchKey | with_reducible apply kept_unsigned | with_reducible exact kept_lit hk .. | dsimp only | split)

theorem kept_attest {z0 : State} (code major tag : Byte) (f : State → State) {s : State}
    (hf : Kept z0 s → Kept z0 (f s)) (hk : Kept z0 s) : Kept z0 (State.attest code major tag f s) := by
  unfold State.attest
  split
  · exact hk
  · split
    · exact kept_answer _ _ _ _ hk
    · exact hf hk

theorem kept_execGetVersion {z0 zt : State} (major : Byte) (_minor : Byte) (tag : Byte) {s : State} (hk : Kept z0 s) (ht : execGetVersion major _minor tag s = .next zt) : Kept z0 zt := by
  unfold execGetVersion at ht
  cases ht
  repeat' (first | with_reducible assumption | (simp (maxDischargeDepth := 100) +contextual only [hk, kept_lit, kept_markN, kept_copy, kept_zeroWrN, kept_ite, ite_self, implies_true, forall_const, kept_answer, kept_attest]; done) | (intro _ _ hk) | with_reducible apply kept_ite | with_reducible apply kept_answer | with_reducible apply kept_attest | with_reducible exact kept_lit hk .. | dsimp only | split)

theorem kept_execGetCert {z0 zt : State} (major : Byte) (tag : Byte) (body : Bytes) {s : State} (hk : Kept z0 s) (ht : execGetCert major tag body s = .next zt) : Kept z0 zt := by
  unfold execGetCert at ht
  cases ht
  repeat' (first | with_reducible assumption | (simp (maxDischargeDepth := 100) +contextual only [hk, kept_lit, kept_markN, kept_copy, kept_zeroWrN, kept_ite, ite_self, implies_true, forall_const, kept_answer, kept_attest]; done) | (intro _ _ hk) | with_reducible apply kept_ite | with_reducible apply kept_answer | with_reducible apply kept_attest | with_reducible exact kept_lit hk .. | dsimp only | split)

theorem kept_refuseQuote {z0 : State} (tag : Byte) {s : State} (hk : Kept z0 s) : Kept z0 (State.refuseQuote tag s) := by
  unfold State.refuseQuote
  repeat' (first | with_reducible assumption | (simp (maxDischargeDepth := 100) +contextual only [hk, kept_lit, kept_markN, kept_copy, kept_zeroWrN, kept_ite, ite_self, implies_true, forall_const, kept_answer, kept_modSec]; done) | (intro _ _ hk) | with_reducible apply kept_ite | with_reducible apply kept_answer | with_reducible apply kept_modSec | with_reducible exact kept_lit hk .. | dsimp only | split)

theorem kept_execGetQuote {z0 zt : State} (now : Nat) (major : Byte) (tag : Byte) (body : Bytes) {s : State} (hk : Kept z0 s) (ht : execGetQuote now major tag body s = .next zt) : Kept z0 zt := by
  unfold execGetQuote at ht
  cases ht
  repeat' (first | with_reducible assumption | (simp (maxDischargeDepth := 100) +contextual only [hk, kept_lit, kept_markN, kept_copy, kept_zeroWrN, kept_ite, ite_self, implies_true, forall_const, kept_answer, kept_at, kept_attest, kept_enqueue, kept_modSec, kept_refuseQuote]; done) | (intro _ _ hk) | with_reducible apply kept_ite | with_reducible apply kept_answer | with_reducible apply kept_at | with_reducible apply kept_attest | with_reducible apply kept_enqueue | with_reducible apply kept_modSec | with_reducible apply kept_refuseQuote | with_reducible exact kept_lit hk .. | dsimp only | split)

theorem kept_execGetRoot {z0 zt : State} (major : Byte) (tag : Byte) (body : Bytes) {s : State} (hk : Kept z0 s) (ht : execGetRoot major tag body s = .next zt) : Kept z0 zt := by
  unfold execGetRoot at ht
  cases ht
  repeat' (first | with_reducible assumption | (simp (maxDischargeDepth := 100) +contextual only [hk, kept_lit, kept_markN, kept_copy, kept_zeroWrN, kept_ite, ite_self, implies_true, forall_const, kept_answer, kept_attest]; done) | (intro _ _ hk) | with_reducible apply kept_ite | with_reducible apply kept_answer | with_reducible apply kept_attest | with_reducible exact kept_lit hk .. | dsimp only | split)

theorem kept_execGetLedgerHead {z0 zt : State} (major : Byte) (tag : Byte) (body : Bytes) {s : State} (hk : Kept z0 s) (ht : execGetLedgerHead major tag body s = .next zt) : Kept z0 zt := by
  unfold execGetLedgerHead at ht
  cases ht
  repeat' (first | with_reducible assumption | (simp (maxDischargeDepth := 100) +contextual only [hk, kept_lit, kept_markN, kept_copy, kept_zeroWrN, kept_ite, ite_self, implies_true, forall_const, kept_answer, kept_attest]; done) | (intro _ _ hk) | with_reducible apply kept_ite | with_reducible apply kept_answer | with_reducible apply kept_attest | with_reducible exact kept_lit hk .. | dsimp only | split)

theorem kept_execUnknownAttestationCode {z0 zt : State} (major : Byte) (code : Byte) (tag : Byte) {s : State} (hk : Kept z0 s) (ht : execUnknownAttestationCode major code tag s = .next zt) : Kept z0 zt := by
  unfold execUnknownAttestationCode at ht
  cases ht
  repeat' (first | with_reducible assumption | (simp (maxDischargeDepth := 100) +contextual only [hk, kept_lit, kept_markN, kept_copy, kept_zeroWrN, kept_ite, ite_self, implies_true, forall_const, kept_answer, kept_attest]; done) | (intro _ _ hk) | with_reducible apply kept_ite | with_reducible apply kept_answer | with_reducible apply kept_attest | with_reducible exact kept_lit hk .. | dsimp only | split)

end Sys2Proof.Machine
end

