-- ==== Sys2Proof/Laws/KeptFyfoyx.lean ====
section
/-! SUPPORT. The operations of Sys2Proof/Machine/Fyfoyx.lean keep what every step keeps. -/

namespace Sys2Proof.Machine

set_option linter.all false
set_option Elab.async false

theorem kept_hbmWrite {z0 : State} (a : Nat) (bs : Bytes) {s : State} (hk : Kept z0 s) : Kept z0 (State.hbmWrite a bs s) := by
  unfold State.hbmWrite
  repeat' (first | with_reducible assumption | (simp (maxDischargeDepth := 100) +contextual only [hk, kept_lit, kept_markN, kept_copy, kept_zeroWrN, kept_ite, ite_self, implies_true, forall_const, kept_cleanCopy, kept_modCopy, kept_wr]; done) | (intro _ _ hk) | with_reducible apply kept_ite | with_reducible apply kept_cleanCopy | with_reducible apply kept_modCopy | with_reducible apply kept_wr | with_reducible exact kept_lit hk .. | dsimp only | split)

theorem kept_hbmWriteAll {z0 : State} (a : Nat) (bs : Bytes) {s : State} (hk : Kept z0 s) : Kept z0 (State.hbmWriteAll a bs s) := by
  unfold State.hbmWriteAll
  repeat' (first | with_reducible assumption | (simp (maxDischargeDepth := 100) +contextual only [hk, kept_lit, kept_markN, kept_copy, kept_zeroWrN, kept_ite, ite_self, implies_true, forall_const, kept_forEach, kept_hbmWrite]; done) | (with_reducible refine kept_forEach ?_ ?_) | (intro _ _ hk) | with_reducible apply kept_ite | with_reducible apply kept_hbmWrite | with_reducible exact kept_lit hk .. | dsimp only | split)

theorem kept_poisonLine {z0 : State} (line : Nat) {s : State} (hk : Kept z0 s) : Kept z0 (State.poisonLine line s) := by
  unfold State.poisonLine
  repeat' (first | with_reducible assumption | (simp (maxDischargeDepth := 100) +contextual only [hk, kept_lit, kept_markN, kept_copy, kept_zeroWrN, kept_ite, ite_self, implies_true, forall_const, kept_modPower, kept_poisonChunk]; done) | (intro _ _ hk) | (with_reducible refine kept_zeroWrN ?_ ..) | (with_reducible refine kept_copy ?_ ..) | (with_reducible refine kept_markN ?_ ..) | with_reducible apply kept_ite | with_reducible apply kept_modPower | with_reducible apply kept_poisonChunk | with_reducible exact kept_lit hk .. | dsimp only | split)

theorem kept_serveRead {z0 : State} (mapping : W32) (off : Nat) (len : Nat) {s : State} (hk : Kept z0 s) : Kept z0 (State.serveRead mapping off len s) := by
  unfold State.serveRead
  repeat' (first | with_reducible assumption | (simp (maxDischargeDepth := 100) +contextual only [hk, kept_lit, kept_markN, kept_copy, kept_zeroWrN, kept_ite, ite_self, implies_true, forall_const, kept_complete, kept_startRecall]; done) | (intro _ _ hk) | with_reducible apply kept_ite | with_reducible apply kept_complete | with_reducible apply kept_startRecall | with_reducible exact kept_lit hk .. | dsimp only | split)

theorem kept_serveWrite {z0 : State} (off : Nat) (bs : Bytes) {s : State} (hk : Kept z0 s) : Kept z0 (State.serveWrite off bs s) := by
  unfold State.serveWrite
  repeat' (first | with_reducible assumption | (simp (maxDischargeDepth := 100) +contextual only [hk, kept_lit, kept_markN, kept_copy, kept_zeroWrN, kept_ite, ite_self, implies_true, forall_const, kept_complete, kept_hbmWriteAll, kept_startRecall]; done) | (intro _ _ hk) | with_reducible apply kept_ite | with_reducible apply kept_complete | with_reducible apply kept_hbmWriteAll | with_reducible apply kept_startRecall | with_reducible exact kept_lit hk .. | dsimp only | split)

theorem kept_sendWaiting {z0 : State} (x0 : Nat) {s : State} (hk : Kept z0 s) : Kept z0 (State.sendWaiting x0 s) := by
  induction x0 generalizing s with
  | zero =>
    first | exact hk | (simp only [State.sendWaiting]; repeat' (first | with_reducible assumption | with_reducible apply ih | (simp (maxDischargeDepth := 100) +contextual only [hk, kept_lit, kept_markN, kept_copy, kept_zeroWrN, kept_ite, ite_self, implies_true, forall_const, kept_emit, kept_modPower]; done) | (intro _ _ hk) | with_reducible apply kept_ite | with_reducible apply kept_emit | with_reducible apply kept_modPower | with_reducible exact kept_lit hk .. | dsimp only | split))
  | succ n ih =>
    simp only [State.sendWaiting]
    repeat' (first | with_reducible assumption | with_reducible apply ih | (simp (maxDischargeDepth := 100) +contextual only [hk, kept_lit, kept_markN, kept_copy, kept_zeroWrN, kept_ite, ite_self, implies_true, forall_const, kept_emit, kept_modPower]; done) | (intro _ _ hk) | with_reducible apply kept_ite | with_reducible apply kept_emit | with_reducible apply kept_modPower | with_reducible exact kept_lit hk .. | dsimp only | split)

theorem kept_returned {z0 : State} (c : FyfCredits) {s : State} (hk : Kept z0 s) : Kept z0 (State.returned c s) := by
  unfold State.returned
  repeat' (first | with_reducible assumption | (simp (maxDischargeDepth := 100) +contextual only [hk, kept_lit, kept_markN, kept_copy, kept_zeroWrN, kept_ite, ite_self, implies_true, forall_const, kept_modPower, kept_sendWaiting]; done) | (intro _ _ hk) | with_reducible apply kept_ite | with_reducible apply kept_modPower | with_reducible apply kept_sendWaiting | with_reducible exact kept_lit hk .. | dsimp only | split)

theorem kept_execCoherentAccess {z0 zt : State} (mapping : W32) (offset : Nat) (len : Nat) (req : Credited CohReq) {s : State} (hk : Kept z0 s) (ht : execCoherentAccess mapping offset len req s = .next zt) : Kept z0 zt := by
  unfold execCoherentAccess at ht
  cases ht
  repeat' (first | with_reducible assumption | (simp (maxDischargeDepth := 100) +contextual only [hk, kept_lit, kept_markN, kept_copy, kept_zeroWrN, kept_ite, ite_self, implies_true, forall_const, kept_returned, kept_serveRead, kept_serveWrite]; done) | (intro _ _ hk) | with_reducible apply kept_ite | with_reducible apply kept_returned | with_reducible apply kept_serveRead | with_reducible apply kept_serveWrite | with_reducible exact kept_lit hk .. | dsimp only | split)

theorem kept_grantLine {z0 : State} (line : Nat) (own : Own) {s : State} (hk : Kept z0 s) : Kept z0 (State.grantLine line own s) := by
  unfold State.grantLine
  repeat' (first | with_reducible assumption | (simp (maxDischargeDepth := 100) +contextual only [hk, kept_lit, kept_markN, kept_copy, kept_zeroWrN, kept_ite, ite_self, implies_true, forall_const, kept_complete, kept_modPower, kept_startRecall]; done) | (intro _ _ hk) | with_reducible apply kept_ite | with_reducible apply kept_complete | with_reducible apply kept_modPower | with_reducible apply kept_startRecall | with_reducible exact kept_lit hk .. | dsimp only | split)

theorem kept_execCompanionOwnershipRequest {z0 zt : State} (line : Nat) (own : Credited Own) {s : State} (hk : Kept z0 s) (ht : execCompanionOwnershipRequest line own s = .next zt) : Kept z0 zt := by
  unfold execCompanionOwnershipRequest at ht
  cases ht
  repeat' (first | with_reducible assumption | (simp (maxDischargeDepth := 100) +contextual only [hk, kept_lit, kept_markN, kept_copy, kept_zeroWrN, kept_ite, ite_self, implies_true, forall_const, kept_grantLine, kept_returned]; done) | (intro _ _ hk) | with_reducible apply kept_ite | with_reducible apply kept_grantLine | with_reducible apply kept_returned | with_reducible exact kept_lit hk .. | dsimp only | split)

theorem kept_resumeHeld {z0 : State} (w : Held) {s : State} (hk : Kept z0 s) : Kept z0 (State.resumeHeld w s) := by
  unfold State.resumeHeld
  repeat' (first | with_reducible assumption | (simp (maxDischargeDepth := 100) +contextual only [hk, kept_lit, kept_markN, kept_copy, kept_zeroWrN, kept_ite, ite_self, implies_true, forall_const, kept_grantLine, kept_serveRead, kept_serveWrite]; done) | (intro _ _ hk) | with_reducible apply kept_ite | with_reducible apply kept_grantLine | with_reducible apply kept_serveRead | with_reducible apply kept_serveWrite | with_reducible exact kept_lit hk .. | dsimp only | split)

theorem kept_endRecall {z0 : State} (line : Nat) {s : State} (hk : Kept z0 s) : Kept z0 (State.endRecall line s) := by
  unfold State.endRecall
  repeat' (first | with_reducible assumption | (simp (maxDischargeDepth := 100) +contextual only [hk, kept_lit, kept_markN, kept_copy, kept_zeroWrN, kept_ite, ite_self, implies_true, forall_const, kept_dropLine, kept_forEach, kept_modPower, kept_resumeHeld]; done) | (with_reducible refine kept_forEach ?_ ?_) | (intro _ _ hk) | with_reducible apply kept_ite | with_reducible apply kept_dropLine | with_reducible apply kept_modPower | with_reducible apply kept_resumeHeld | with_reducible exact kept_lit hk .. | dsimp only | split)

theorem kept_execSnoopReply {z0 zt : State} (line : Nat) (data : Credited (Option Bytes)) {s : State} (hk : Kept z0 s) (ht : execSnoopReply line data s = .next zt) : Kept z0 zt := by
  unfold execSnoopReply at ht
  cases ht
  repeat' (first | with_reducible assumption | (simp (maxDischargeDepth := 100) +contextual only [hk, kept_lit, kept_markN, kept_copy, kept_zeroWrN, kept_ite, ite_self, implies_true, forall_const, kept_endRecall, kept_hbmWrite, kept_returned]; done) | (intro _ _ hk) | with_reducible apply kept_ite | with_reducible apply kept_endRecall | with_reducible apply kept_hbmWrite | with_reducible apply kept_returned | with_reducible exact kept_lit hk .. | dsimp only | split)

theorem kept_execRecallTimeout {z0 zt : State} (line : Nat) {s : State} (hk : Kept z0 s) (ht : execRecallTimeout line s = .next zt) : Kept z0 zt := by
  unfold execRecallTimeout at ht
  cases ht
  repeat' (first | with_reducible assumption | (simp (maxDischargeDepth := 100) +contextual only [hk, kept_lit, kept_markN, kept_copy, kept_zeroWrN, kept_ite, ite_self, implies_true, forall_const, kept_endRecall, kept_poisonLine]; done) | (intro _ _ hk) | with_reducible apply kept_ite | with_reducible apply kept_endRecall | with_reducible apply kept_poisonLine | with_reducible exact kept_lit hk .. | dsimp only | split)

theorem kept_execCompanionSnoop {z0 zt : State} (line : Credited Nat) {s : State} (hk : Kept z0 s) (ht : execCompanionSnoop line s = .next zt) : Kept z0 zt := by
  unfold execCompanionSnoop at ht
  cases ht
  repeat' (first | with_reducible assumption | (simp (maxDischargeDepth := 100) +contextual only [hk, kept_lit, kept_markN, kept_copy, kept_zeroWrN, kept_ite, ite_self, implies_true, forall_const, kept_complete, kept_modPower, kept_returned]; done) | (intro _ _ hk) | with_reducible apply kept_ite | with_reducible apply kept_complete | with_reducible apply kept_modPower | with_reducible apply kept_returned | with_reducible exact kept_lit hk .. | dsimp only | split)

theorem kept_execFyfLaneDetect {z0 zt : State} {s : State} (hk : Kept z0 s) (ht : execFyfLaneDetect s = .next zt) : Kept z0 zt := by
  unfold execFyfLaneDetect at ht
  cases ht
  repeat' (first | with_reducible assumption | (simp (maxDischargeDepth := 100) +contextual only [hk, kept_lit, kept_markN, kept_copy, kept_zeroWrN, kept_ite, ite_self, implies_true, forall_const, kept_modPower]; done) | (intro _ _ hk) | with_reducible apply kept_ite | with_reducible apply kept_modPower | with_reducible exact kept_lit hk .. | dsimp only | split)

theorem kept_execFyfTrainDone {z0 zt : State} (lanesOk : W32) (versions : List W16) {s : State} (hk : Kept z0 s) (ht : execFyfTrainDone lanesOk versions s = .next zt) : Kept z0 zt := by
  unfold execFyfTrainDone at ht
  cases ht
  repeat' (first | with_reducible assumption | (simp (maxDischargeDepth := 100) +contextual only [hk, kept_lit, kept_markN, kept_copy, kept_zeroWrN, kept_ite, ite_self, implies_true, forall_const, kept_modPower, kept_recheck]; done) | (intro _ _ hk) | with_reducible apply kept_ite | with_reducible apply kept_modPower | with_reducible apply kept_recheck | with_reducible exact kept_lit hk .. | dsimp only | split)

theorem kept_t2ReadsEnd {z0 : State} {s : State} (hk : Kept z0 s) : Kept z0 (State.t2ReadsEnd s) := by
  unfold State.t2ReadsEnd
  repeat' (first | with_reducible assumption | (simp (maxDischargeDepth := 100) +contextual only [hk, kept_lit, kept_markN, kept_copy, kept_zeroWrN, kept_ite, ite_self, implies_true, forall_const, kept_chunkArrives, kept_forEach]; done) | (with_reducible refine kept_forEach ?_ ?_) | (intro _ _ hk) | with_reducible apply kept_ite | with_reducible apply kept_chunkArrives | with_reducible exact kept_lit hk .. | dsimp only | split)

theorem kept_lostLine {z0 : State} (line : Nat) (st : LineState) {s : State} (hk : Kept z0 s) : Kept z0 (State.lostLine line st s) := by
  unfold State.lostLine
  repeat' (first | with_reducible assumption | (simp (maxDischargeDepth := 100) +contextual only [hk, kept_lit, kept_markN, kept_copy, kept_zeroWrN, kept_ite, ite_self, implies_true, forall_const, kept_poisonLine, kept_takeFree]; done) | (rename_i hq; have hz := congrArg Prod.snd hq; dsimp only at hz; subst hz; try clear hq) | (have hz := congrArg Prod.snd ‹_ = (_, _)›; dsimp only at hz; subst hz) | (intro _ _ hk) | with_reducible apply kept_ite | with_reducible apply kept_poisonLine | with_reducible apply kept_takeFree | with_reducible exact kept_lit hk .. | dsimp only | split)

theorem kept_linkDown {z0 : State} {s : State} (hk : Kept z0 s) : Kept z0 (State.linkDown s) := by
  unfold State.linkDown
  repeat' (first | with_reducible assumption | (simp (maxDischargeDepth := 100) +contextual only [hk, kept_lit, kept_markN, kept_copy, kept_zeroWrN, kept_ite, ite_self, implies_true, forall_const, kept_forEach, kept_lostLine, kept_modMbox, kept_modPower, kept_t2ReadsEnd]; done) | (with_reducible refine kept_forEach ?_ ?_) | (intro _ _ hk) | with_reducible apply kept_ite | with_reducible apply kept_lostLine | with_reducible apply kept_modMbox | with_reducible apply kept_modPower | with_reducible apply kept_t2ReadsEnd | with_reducible exact kept_lit hk .. | dsimp only | split)

theorem kept_execFyfLinkDown {z0 zt : State} {s : State} (hk : Kept z0 s) (ht : execFyfLinkDown s = .next zt) : Kept z0 zt := by
  unfold execFyfLinkDown at ht
  cases ht
  repeat' (first | with_reducible assumption | (simp (maxDischargeDepth := 100) +contextual only [hk, kept_lit, kept_markN, kept_copy, kept_zeroWrN, kept_ite, ite_self, implies_true, forall_const, kept_linkDown]; done) | (intro _ _ hk) | with_reducible apply kept_ite | with_reducible apply kept_linkDown | with_reducible exact kept_lit hk .. | dsimp only | split)

theorem kept_execFyfFlitCrcFail {z0 zt : State} (now : Nat) (held : Bool) {s : State} (hk : Kept z0 s) (ht : execFyfFlitCrcFail now held s = .next zt) : Kept z0 zt := by
  unfold execFyfFlitCrcFail at ht
  cases ht
  repeat' (first | with_reducible assumption | (simp (maxDischargeDepth := 100) +contextual only [hk, kept_lit, kept_markN, kept_copy, kept_zeroWrN, kept_ite, ite_self, implies_true, forall_const, kept_at, kept_modPower]; done) | (intro _ _ hk) | with_reducible apply kept_ite | with_reducible apply kept_at | with_reducible apply kept_modPower | with_reducible exact kept_lit hk .. | dsimp only | split)

theorem kept_execFyfRecoveryTimeout {z0 zt : State} {s : State} (hk : Kept z0 s) (ht : execFyfRecoveryTimeout s = .next zt) : Kept z0 zt := by
  unfold execFyfRecoveryTimeout at ht
  cases ht
  repeat' (first | with_reducible assumption | (simp (maxDischargeDepth := 100) +contextual only [hk, kept_lit, kept_markN, kept_copy, kept_zeroWrN, kept_ite, ite_self, implies_true, forall_const, kept_linkDown]; done) | (intro _ _ hk) | with_reducible apply kept_ite | with_reducible apply kept_linkDown | with_reducible exact kept_lit hk .. | dsimp only | split)

end Sys2Proof.Machine
end

