-- ==== Sys2Proof/Laws/KeptPower.lean ====
section
/-! SUPPORT. The operations of Sys2Proof/Machine/Power.lean keep what every step keeps. -/

namespace Sys2Proof.Machine

set_option linter.all false
set_option Elab.async false

theorem kept_endHolds {z0 : State} {s : State} (hk : Kept z0 s) : Kept z0 (State.endHolds s) := by
  unfold State.endHolds
  repeat' (first | with_reducible assumption | (simp (maxDischargeDepth := 100) +contextual only [hk, kept_lit, kept_markN, kept_copy, kept_zeroWrN, kept_ite, ite_self, implies_true, forall_const, kept_endDebug, kept_forEach]; done) | (with_reducible refine kept_forEach ?_ ?_) | (intro _ _ hk) | with_reducible apply kept_ite | with_reducible apply kept_endDebug | with_reducible exact kept_lit hk .. | dsimp only | split)

theorem kept_loseContext {z0 : State} (f : Nat) (k : Nat) {s : State} (hk : Kept z0 s) : Kept z0 (State.loseContext f k s) := by
  unfold State.loseContext
  repeat' (first | with_reducible assumption | (simp (maxDischargeDepth := 100) +contextual only [hk, kept_lit, kept_markN, kept_copy, kept_zeroWrN, kept_ite, ite_self, implies_true, forall_const, kept_failTask, kept_forEach, kept_jobLost, kept_leaveNow, kept_modFold]; done) | (with_reducible refine kept_forEach ?_ ?_) | (intro _ _ hk) | with_reducible apply kept_ite | with_reducible apply kept_failTask | with_reducible apply kept_jobLost | with_reducible apply kept_leaveNow | with_reducible apply kept_modFold | with_reducible exact kept_lit hk .. | dsimp only | split)

theorem kept_loseGrazing {z0 : State} {s : State} (hk : Kept z0 s) : Kept z0 (State.loseGrazing s) := by
  unfold State.loseGrazing
  repeat' (first | with_reducible assumption | (simp (maxDischargeDepth := 100) +contextual only [hk, kept_lit, kept_markN, kept_copy, kept_zeroWrN, kept_ite, ite_self, implies_true, forall_const, kept_forEach, kept_jobLost, kept_loseContext, kept_loseTask]; done) | (with_reducible refine kept_forEach ?_ ?_) | (intro _ _ hk) | with_reducible apply kept_ite | with_reducible apply kept_jobLost | with_reducible apply kept_loseContext | with_reducible apply kept_loseTask | with_reducible exact kept_lit hk .. | dsimp only | split)

theorem kept_stopGrazingDma {z0 : State} {s : State} (hk : Kept z0 s) : Kept z0 (State.stopGrazingDma s) := by
  unfold State.stopGrazingDma
  repeat' (first | with_reducible assumption | (simp (maxDischargeDepth := 100) +contextual only [hk, kept_lit, kept_markN, kept_copy, kept_zeroWrN, kept_ite, ite_self, implies_true, forall_const, kept_dmaLose, kept_forEach, kept_jobLost, kept_modDma]; done) | (with_reducible refine kept_forEach ?_ ?_) | (intro _ _ hk) | with_reducible apply kept_ite | with_reducible apply kept_dmaLose | with_reducible apply kept_jobLost | with_reducible apply kept_modDma | with_reducible exact kept_lit hk .. | dsimp only | split)

theorem kept_nightCancels {z0 : State} {s : State} (hk : Kept z0 s) : Kept z0 (State.nightCancels s) := by
  unfold State.nightCancels
  repeat' (first | with_reducible assumption | (simp (maxDischargeDepth := 100) +contextual only [hk, kept_lit, kept_markN, kept_copy, kept_zeroWrN, kept_ite, ite_self, implies_true, forall_const, kept_cancelAt, kept_forEach, kept_modHealth, kept_modNrx]; done) | (with_reducible refine kept_forEach ?_ ?_) | (intro _ _ hk) | with_reducible apply kept_ite | with_reducible apply kept_cancelAt | with_reducible apply kept_modHealth | with_reducible apply kept_modNrx | with_reducible exact kept_lit hk .. | dsimp only | split)

theorem kept_beginNight {z0 : State} (cmd : Option (Nat × Nat)) (removing : Bool) {s : State} (hk : Kept z0 s) : Kept z0 (State.beginNight cmd removing s) := by
  unfold State.beginNight
  repeat' (first | with_reducible assumption | (simp (maxDischargeDepth := 100) +contextual only [hk, kept_lit, kept_markN, kept_copy, kept_zeroWrN, kept_ite, ite_self, implies_true, forall_const, kept_endHolds, kept_loseGrazing, kept_modPower, kept_nightCancels, kept_setDevice, kept_settleHolds, kept_stopGrazingDma]; done) | (intro _ _ hk) | with_reducible apply kept_ite | with_reducible apply kept_endHolds | with_reducible apply kept_loseGrazing | with_reducible apply kept_modPower | with_reducible apply kept_nightCancels | with_reducible apply kept_setDevice | with_reducible apply kept_settleHolds | with_reducible apply kept_stopGrazingDma | with_reducible exact kept_lit hk .. | dsimp only | split)

theorem kept_endCoherence {z0 : State} {s : State} (hk : Kept z0 s) : Kept z0 (State.endCoherence s) := by
  unfold State.endCoherence
  repeat' (first | with_reducible assumption | (simp (maxDischargeDepth := 100) +contextual only [hk, kept_lit, kept_markN, kept_copy, kept_zeroWrN, kept_ite, ite_self, implies_true, forall_const, kept_endRecall, kept_forEach, kept_modPower, kept_recallNow, kept_wrCompanion]; done) | (with_reducible refine kept_forEach ?_ ?_) | (intro _ _ hk) | with_reducible apply kept_ite | with_reducible apply kept_endRecall | with_reducible apply kept_modPower | with_reducible apply kept_recallNow | with_reducible apply kept_wrCompanion | with_reducible exact kept_lit hk .. | dsimp only | split)

theorem kept_portsDown {z0 : State} {s : State} (hk : Kept z0 s) : Kept z0 (State.portsDown s) := by
  unfold State.portsDown
  repeat' (first | with_reducible assumption | (simp (maxDischargeDepth := 100) +contextual only [hk, kept_lit, kept_markN, kept_copy, kept_zeroWrN, kept_ite, ite_self, implies_true, forall_const, kept_forEach, kept_leaveUp, kept_modLane, kept_modLink]; done) | (with_reducible refine kept_forEach ?_ ?_) | (intro _ _ hk) | with_reducible apply kept_ite | with_reducible apply kept_leaveUp | with_reducible apply kept_modLane | with_reducible apply kept_modLink | with_reducible exact kept_lit hk .. | dsimp only | split)

theorem kept_writeBack {z0 : State} (e : Nat) (t : Nat) (k : Nat) {s : State} (hk : Kept z0 s) : Kept z0 (State.writeBack e t k s) := by
  unfold State.writeBack
  repeat' (first | with_reducible assumption | (simp (maxDischargeDepth := 100) +contextual only [hk, kept_lit, kept_markN, kept_copy, kept_zeroWrN, kept_ite, ite_self, implies_true, forall_const, kept_modCopy, kept_notePoison, kept_placeChunk]; done) | (rename_i hq; have hz := congrArg Prod.snd hq; dsimp only at hz; subst hz; try clear hq) | (have hz := congrArg Prod.snd ‹_ = (_, _)›; dsimp only at hz; subst hz) | (have hz := congrArg Prod.fst ‹_ = (_, _)›; dsimp only at hz; subst hz) | (intro _ _ hk) | with_reducible apply kept_ite | with_reducible apply kept_modCopy | with_reducible apply kept_notePoison | with_reducible apply kept_placeChunk | with_reducible exact kept_lit hk .. | dsimp only | split)

theorem kept_keepRegions {z0 : State} {s : State} (hk : Kept z0 s) : Kept z0 (State.keepRegions s) := by
  unfold State.keepRegions
  repeat' (first | with_reducible assumption | (simp (maxDischargeDepth := 100) +contextual only [hk, kept_lit, kept_markN, kept_copy, kept_zeroWrN, kept_ite, ite_self, implies_true, forall_const, kept_forEach, kept_modPower, kept_wipeSpace, kept_writeBack]; done) | (with_reducible refine kept_forEach ?_ ?_) | (intro _ _ hk) | with_reducible apply kept_ite | with_reducible apply kept_modPower | with_reducible apply kept_wipeSpace | with_reducible apply kept_writeBack | with_reducible exact kept_lit hk .. | dsimp only | split)

theorem kept_sleepUnits {z0 : State} {s : State} (hk : Kept z0 s) : Kept z0 (State.sleepUnits s) := by
  unfold State.sleepUnits
  repeat' (first | with_reducible assumption | (simp (maxDischargeDepth := 100) +contextual only [hk, kept_lit, kept_markN, kept_copy, kept_zeroWrN, kept_ite, ite_self, implies_true, forall_const, kept_forEach, kept_setUnit]; done) | (with_reducible refine kept_forEach ?_ ?_) | (intro _ _ hk) | with_reducible apply kept_ite | with_reducible apply kept_setUnit | with_reducible exact kept_lit hk .. | dsimp only | split)

theorem kept_leaveNight {z0 : State} {s : State} (hk : Kept z0 s) : Kept z0 (State.leaveNight s) := by
  unfold State.leaveNight
  repeat' (first | with_reducible assumption | (simp (maxDischargeDepth := 100) +contextual only [hk, kept_lit, kept_markN, kept_copy, kept_zeroWrN, kept_ite, ite_self, implies_true, forall_const, kept_forEach, kept_modPower, kept_setDevice, kept_setEntry, kept_startUnit, kept_wakeAll]; done) | (with_reducible refine kept_forEach ?_ ?_) | (intro _ _ hk) | with_reducible apply kept_ite | with_reducible apply kept_modPower | with_reducible apply kept_setDevice | with_reducible apply kept_setEntry | with_reducible apply kept_startUnit | with_reducible apply kept_wakeAll | with_reducible exact kept_lit hk .. | dsimp only | split)

theorem kept_nightReached {z0 : State} {s : State} (hk : Kept z0 s) : Kept z0 (State.nightReached s) := by
  unfold State.nightReached
  repeat' (first | with_reducible assumption | (simp (maxDischargeDepth := 100) +contextual only [hk, kept_lit, kept_markN, kept_copy, kept_zeroWrN, kept_ite, ite_self, implies_true, forall_const, kept_closeBatch, kept_commandDone, kept_forEach, kept_leaveNight, kept_ledger, kept_modPower]; done) | (with_reducible refine kept_forEach ?_ ?_) | (intro _ _ hk) | with_reducible apply kept_ite | with_reducible apply kept_closeBatch | with_reducible apply kept_commandDone | with_reducible apply kept_leaveNight | with_reducible apply kept_ledger | with_reducible apply kept_modPower | with_reducible exact kept_lit hk .. | dsimp only | split)

theorem kept_execNightEntryDone {z0 zt : State} {s : State} (hk : Kept z0 s) (ht : execNightEntryDone s = .next zt) : Kept z0 zt := by
  unfold execNightEntryDone at ht
  cases ht
  repeat' (first | with_reducible assumption | (simp (maxDischargeDepth := 100) +contextual only [hk, kept_lit, kept_markN, kept_copy, kept_zeroWrN, kept_ite, ite_self, implies_true, forall_const, kept_endCoherence, kept_keepRegions, kept_modPower, kept_nightReached, kept_portsDown, kept_sleepUnits]; done) | (intro _ _ hk) | with_reducible apply kept_ite | with_reducible apply kept_endCoherence | with_reducible apply kept_keepRegions | with_reducible apply kept_modPower | with_reducible apply kept_nightReached | with_reducible apply kept_portsDown | with_reducible apply kept_sleepUnits | with_reducible exact kept_lit hk .. | dsimp only | split)

theorem kept_execPowerSet {z0 zt : State} (m : Fin 16) {s : State} (hk : Kept z0 s) (ht : execPowerSet m s = .next zt) : Kept z0 zt := by
  unfold execPowerSet at ht
  cases ht
  repeat' (first | with_reducible assumption | (simp (maxDischargeDepth := 100) +contextual only [hk, kept_lit, kept_markN, kept_copy, kept_zeroWrN, kept_ite, ite_self, implies_true, forall_const, kept_beginNight, kept_leaveNight, kept_modPower, kept_runCommand, kept_setDevice]; done) | (intro _ _ hk) | with_reducible apply kept_ite | with_reducible apply kept_beginNight | with_reducible apply kept_leaveNight | with_reducible apply kept_modPower | with_reducible apply kept_runCommand | with_reducible apply kept_setDevice | with_reducible exact kept_lit hk .. | dsimp only | split)

theorem kept_execRetentionSelect {z0 zt : State} (m : Fin 16) {s : State} (hk : Kept z0 s) (ht : execRetentionSelect m s = .next zt) : Kept z0 zt := by
  unfold execRetentionSelect at ht
  cases ht
  repeat' (first | with_reducible assumption | (simp (maxDischargeDepth := 100) +contextual only [hk, kept_lit, kept_markN, kept_copy, kept_zeroWrN, kept_ite, ite_self, implies_true, forall_const, kept_modPower, kept_runCommand]; done) | (intro _ _ hk) | with_reducible apply kept_ite | with_reducible apply kept_modPower | with_reducible apply kept_runCommand | with_reducible exact kept_lit hk .. | dsimp only | split)

theorem kept_execPrepareRemoval {z0 zt : State} (m : Fin 16) {s : State} (hk : Kept z0 s) (ht : execPrepareRemoval m s = .next zt) : Kept z0 zt := by
  unfold execPrepareRemoval at ht
  cases ht
  repeat' (first | with_reducible assumption | (simp (maxDischargeDepth := 100) +contextual only [hk, kept_lit, kept_markN, kept_copy, kept_zeroWrN, kept_ite, ite_self, implies_true, forall_const, kept_cancelAssume, kept_forEach, kept_modCell, kept_modPower, kept_runCommand, kept_setDevice]; done) | (with_reducible refine kept_forEach ?_ ?_) | (intro _ _ hk) | with_reducible apply kept_ite | with_reducible apply kept_cancelAssume | with_reducible apply kept_modCell | with_reducible apply kept_modPower | with_reducible apply kept_runCommand | with_reducible apply kept_setDevice | with_reducible exact kept_lit hk .. | dsimp only | split)

theorem kept_execRemovalDrainDone {z0 zt : State} {s : State} (hk : Kept z0 s) (ht : execRemovalDrainDone s = .next zt) : Kept z0 zt := by
  unfold execRemovalDrainDone at ht
  cases ht
  repeat' (first | with_reducible assumption | (simp (maxDischargeDepth := 100) +contextual only [hk, kept_lit, kept_markN, kept_copy, kept_zeroWrN, kept_ite, ite_self, implies_true, forall_const, kept_beginNight, kept_modPower]; done) | (intro _ _ hk) | with_reducible apply kept_ite | with_reducible apply kept_beginNight | with_reducible apply kept_modPower | with_reducible exact kept_lit hk .. | dsimp only | split)

theorem kept_execDrainTimeout {z0 zt : State} (now : Nat) {s : State} (hk : Kept z0 s) (ht : execDrainTimeout now s = .next zt) : Kept z0 zt := by
  unfold execDrainTimeout at ht
  cases ht
  repeat' (first | with_reducible assumption | (simp (maxDischargeDepth := 100) +contextual only [hk, kept_lit, kept_markN, kept_copy, kept_zeroWrN, kept_ite, ite_self, implies_true, forall_const, kept_at, kept_loseGrazing]; done) | (intro _ _ hk) | with_reducible apply kept_ite | with_reducible apply kept_at | with_reducible apply kept_loseGrazing | with_reducible exact kept_lit hk .. | dsimp only | split)

theorem kept_execEvacuateTimeout {z0 zt : State} (now : Nat) {s : State} (hk : Kept z0 s) (ht : execEvacuateTimeout now s = .next zt) : Kept z0 zt := by
  unfold execEvacuateTimeout at ht
  cases ht
  repeat' (first | with_reducible assumption | (simp (maxDischargeDepth := 100) +contextual only [hk, kept_lit, kept_markN, kept_copy, kept_zeroWrN, kept_ite, ite_self, implies_true, forall_const, kept_at, kept_cancelRemoval]; done) | (intro _ _ hk) | with_reducible apply kept_ite | with_reducible apply kept_at | with_reducible apply kept_cancelRemoval | with_reducible exact kept_lit hk .. | dsimp only | split)

theorem kept_execDevUnfence {z0 zt : State} (m : Fin 16) {s : State} (hk : Kept z0 s) (ht : execDevUnfence m s = .next zt) : Kept z0 zt := by
  unfold execDevUnfence at ht
  cases ht
  repeat' (first | with_reducible assumption | (simp (maxDischargeDepth := 100) +contextual only [hk, kept_lit, kept_markN, kept_copy, kept_zeroWrN, kept_ite, ite_self, implies_true, forall_const, kept_beginNight, kept_runCommand, kept_setDevice]; done) | (intro _ _ hk) | with_reducible apply kept_ite | with_reducible apply kept_beginNight | with_reducible apply kept_runCommand | with_reducible apply kept_setDevice | with_reducible exact kept_lit hk .. | dsimp only | split)

end Sys2Proof.Machine
end

