-- ==== Sys2Proof/Laws/KeptPackage.lean ====
section
/-! SUPPORT. The operations of Sys2Proof/Machine/Package.lean keep what every step keeps. -/

namespace Sys2Proof.Machine

set_option linter.all false
set_option Elab.async false

theorem kept_deriveGrade {z0 : State} {s : State} (hk : Kept z0 s) : Kept z0 (State.deriveGrade s) := by
  unfold State.deriveGrade
  repeat' (first | with_reducible assumption | (simp (maxDischargeDepth := 100) +contextual only [hk, kept_lit, kept_markN, kept_copy, kept_zeroWrN, kept_ite, ite_self, implies_true, forall_const, kept_modPkg, kept_takeFree]; done) | (rename_i hq; have hz := congrArg Prod.snd hq; dsimp only at hz; subst hz; try clear hq) | (have hz := congrArg Prod.snd ‹_ = (_, _)›; dsimp only at hz; subst hz) | (intro _ _ hk) | with_reducible apply kept_ite | with_reducible apply kept_modPkg | with_reducible apply kept_takeFree | with_reducible exact kept_lit hk .. | dsimp only | split)

theorem kept_askFoldClocks {z0 : State} {s : State} (hk : Kept z0 s) : Kept z0 (State.askFoldClocks s) := by
  unfold State.askFoldClocks
  repeat' (first | with_reducible assumption | (simp (maxDischargeDepth := 100) +contextual only [hk, kept_lit, kept_markN, kept_copy, kept_zeroWrN, kept_ite, ite_self, implies_true, forall_const, kept_forEach]; done) | (with_reducible refine kept_forEach ?_ ?_) | (intro _ _ hk) | with_reducible apply kept_ite | with_reducible exact kept_lit hk .. | dsimp only | split)

theorem kept_execPwrBrake {z0 zt : State} (low : Bool) {s : State} (hk : Kept z0 s) (ht : execPwrBrake low s = .next zt) : Kept z0 zt := by
  unfold execPwrBrake at ht
  cases ht
  repeat' (first | with_reducible assumption | (simp (maxDischargeDepth := 100) +contextual only [hk, kept_lit, kept_markN, kept_copy, kept_zeroWrN, kept_ite, ite_self, implies_true, forall_const, kept_askFoldClocks, kept_modPkg]; done) | (intro _ _ hk) | with_reducible apply kept_ite | with_reducible apply kept_askFoldClocks | with_reducible apply kept_modPkg | with_reducible exact kept_lit hk .. | dsimp only | split)

theorem kept_hotEvidence {z0 : State} (x0 : Nat) {s : State} (hk : Kept z0 s) : Kept z0 (State.hotEvidence x0 s) := by
  induction x0 generalizing s with
  | zero =>
    first | exact hk | (simp only [State.hotEvidence]; repeat' (first | with_reducible assumption | with_reducible apply ih | (simp (maxDischargeDepth := 100) +contextual only [hk, kept_lit, kept_markN, kept_copy, kept_zeroWrN, kept_ite, ite_self, implies_true, forall_const, kept_evidence]; done) | (intro _ _ hk) | with_reducible apply kept_ite | with_reducible apply kept_evidence | with_reducible exact kept_lit hk .. | dsimp only | split))
  | succ n ih =>
    simp only [State.hotEvidence]
    repeat' (first | with_reducible assumption | with_reducible apply ih | (simp (maxDischargeDepth := 100) +contextual only [hk, kept_lit, kept_markN, kept_copy, kept_zeroWrN, kept_ite, ite_self, implies_true, forall_const, kept_evidence]; done) | (intro _ _ hk) | with_reducible apply kept_ite | with_reducible apply kept_evidence | with_reducible exact kept_lit hk .. | dsimp only | split)

theorem kept_execThermalSample {z0 zt : State} (now : Nat) (readings : Readings) {s : State} (hk : Kept z0 s) (ht : execThermalSample now readings s = .next zt) : Kept z0 zt := by
  unfold execThermalSample at ht
  cases ht
  repeat' (first | with_reducible assumption | (simp (maxDischargeDepth := 100) +contextual only [hk, kept_lit, kept_markN, kept_copy, kept_zeroWrN, kept_ite, ite_self, implies_true, forall_const, kept_askFoldClocks, kept_at, kept_deriveGrade, kept_hotEvidence, kept_modPkg]; done) | (intro _ _ hk) | with_reducible apply kept_ite | with_reducible apply kept_askFoldClocks | with_reducible apply kept_at | with_reducible apply kept_deriveGrade | with_reducible apply kept_hotEvidence | with_reducible apply kept_modPkg | with_reducible exact kept_lit hk .. | dsimp only | split)

theorem kept_latchReset {z0 : State} {s : State} (hk : Kept z0 s) : Kept z0 (State.latchReset s) := by
  unfold State.latchReset
  repeat' (first | with_reducible assumption | (simp (maxDischargeDepth := 100) +contextual only [hk, kept_lit, kept_markN, kept_copy, kept_zeroWrN, kept_ite, ite_self, implies_true, forall_const, kept_deviceReset, kept_modPkg]; done) | (intro _ _ hk) | with_reducible apply kept_ite | with_reducible apply kept_deviceReset | with_reducible apply kept_modPkg | with_reducible exact kept_lit hk .. | dsimp only | split)

theorem kept_execThermalTrip {z0 zt : State} (readings : Readings) {s : State} (hk : Kept z0 s) (ht : execThermalTrip readings s = .next zt) : Kept z0 zt := by
  unfold execThermalTrip at ht
  cases ht
  repeat' (first | with_reducible assumption | (simp (maxDischargeDepth := 100) +contextual only [hk, kept_lit, kept_markN, kept_copy, kept_zeroWrN, kept_ite, ite_self, implies_true, forall_const, kept_latchReset, kept_modPkg]; done) | (intro _ _ hk) | with_reducible apply kept_ite | with_reducible apply kept_latchReset | with_reducible apply kept_modPkg | with_reducible exact kept_lit hk .. | dsimp only | split)

theorem kept_execRailFault {z0 zt : State} {s : State} (hk : Kept z0 s) (ht : execRailFault s = .next zt) : Kept z0 zt := by
  unfold execRailFault at ht
  cases ht
  repeat' (first | with_reducible assumption | (simp (maxDischargeDepth := 100) +contextual only [hk, kept_lit, kept_markN, kept_copy, kept_zeroWrN, kept_ite, ite_self, implies_true, forall_const, kept_latchReset]; done) | (intro _ _ hk) | with_reducible apply kept_ite | with_reducible apply kept_latchReset | with_reducible exact kept_lit hk .. | dsimp only | split)

theorem kept_signLast {z0 : State} {s : State} (hk : Kept z0 s) : Kept z0 (State.signLast s) := by
  unfold State.signLast
  repeat' (first | with_reducible assumption | (simp (maxDischargeDepth := 100) +contextual only [hk, kept_lit, kept_markN, kept_copy, kept_zeroWrN, kept_ite, ite_self, implies_true, forall_const, kept_signed]; done) | (intro _ _ hk) | (refine kept_sessionSign _  ?_ (by assumption)) | with_reducible apply kept_ite | with_reducible apply kept_signed | with_reducible exact kept_lit hk .. | dsimp only | split)

theorem kept_execPwrFail {z0 zt : State} {s : State} (hk : Kept z0 s) (ht : execPwrFail s = .next zt) : Kept z0 zt := by
  unfold execPwrFail at ht
  cases ht
  repeat' (first | with_reducible assumption | (simp (maxDischargeDepth := 100) +contextual only [hk, kept_lit, kept_markN, kept_copy, kept_zeroWrN, kept_ite, ite_self, implies_true, forall_const, kept_closeBatch, kept_latchReset, kept_ledger, kept_signLast]; done) | (intro _ _ hk) | with_reducible apply kept_ite | with_reducible apply kept_closeBatch | with_reducible apply kept_latchReset | with_reducible apply kept_ledger | with_reducible apply kept_signLast | with_reducible exact kept_lit hk .. | dsimp only | split)

theorem kept_execFlashRequest {z0 zt : State} {s : State} (hk : Kept z0 s) (ht : execFlashRequest s = .next zt) : Kept z0 zt := by
  unfold execFlashRequest at ht
  cases ht
  repeat' (first | with_reducible assumption | (simp (maxDischargeDepth := 100) +contextual only [hk, kept_lit, kept_markN, kept_copy, kept_zeroWrN, kept_ite, ite_self, implies_true, forall_const, kept_modPkg]; done) | (intro _ _ hk) | with_reducible apply kept_ite | with_reducible apply kept_modPkg | with_reducible exact kept_lit hk .. | dsimp only | split)

theorem kept_execFlashRelease {z0 zt : State} {s : State} (hk : Kept z0 s) (ht : execFlashRelease s = .next zt) : Kept z0 zt := by
  unfold execFlashRelease at ht
  cases ht
  repeat' (first | with_reducible assumption | (simp (maxDischargeDepth := 100) +contextual only [hk, kept_lit, kept_markN, kept_copy, kept_zeroWrN, kept_ite, ite_self, implies_true, forall_const, kept_forEach, kept_modHealth, kept_modPkg, kept_retryWaiting, kept_writeBatch]; done) | (with_reducible refine kept_forEach ?_ ?_) | (intro _ _ hk) | with_reducible apply kept_ite | with_reducible apply kept_modHealth | with_reducible apply kept_modPkg | with_reducible apply kept_retryWaiting | with_reducible apply kept_writeBatch | with_reducible exact kept_lit hk .. | dsimp only | split)

theorem kept_execJtagInstruction {z0 zt : State} (i : Jtag) {s : State} (hk : Kept z0 s) (ht : execJtagInstruction i s = .next zt) : Kept z0 zt := by
  unfold execJtagInstruction at ht
  cases ht
  repeat' (first | with_reducible assumption | (simp (maxDischargeDepth := 100) +contextual only [hk, kept_lit, kept_markN, kept_copy, kept_zeroWrN, kept_ite, ite_self, implies_true, forall_const, kept_emit, kept_modPkg]; done) | (intro _ _ hk) | with_reducible apply kept_ite | with_reducible apply kept_emit | with_reducible apply kept_modPkg | with_reducible exact kept_lit hk .. | dsimp only | split)

end Sys2Proof.Machine
end

