-- ==== Sys2Proof/Laws/KeptRegisters.lean ====
section
/-! SUPPORT. The operations of Sys2Proof/Machine/Registers.lean keep what every step keeps. -/

namespace Sys2Proof.Machine

set_option linter.all false
set_option Elab.async false

theorem kept_managerOnly {z0 : State} (mapping : W32) (f : State → State) {s : State}
    (hf : Kept z0 s → Kept z0 (f s)) (hk : Kept z0 s) : Kept z0 (State.managerOnly mapping f s) := by
  unfold State.managerOnly
  split
  · exact hf hk
  · exact hk

theorem kept_writeMbx {z0 : State} (m : Nat) (mapping : W32) (r : Nat) (v : Nat) {s : State} (hk : Kept z0 s) : Kept z0 (State.writeMbx m mapping r v s) := by
  unfold State.writeMbx
  repeat' (first | with_reducible assumption | (simp (maxDischargeDepth := 100) +contextual only [hk, kept_lit, kept_markN, kept_copy, kept_zeroWrN, kept_ite, ite_self, implies_true, forall_const, kept_foreignWrite, kept_modMbox]; done) | (intro _ _ hk) | with_reducible apply kept_ite | with_reducible apply kept_foreignWrite | with_reducible apply kept_modMbox | with_reducible exact kept_lit hk .. | dsimp only | split)

theorem kept_fieldValue {z0 : State} (ok : Bool) (w : Nat) (v : Nat) {s : State} (hk : Kept z0 s) : Kept z0 (State.fieldValue ok w v s).2 := by
  unfold State.fieldValue
  repeat' (first | with_reducible assumption | (simp (maxDischargeDepth := 100) +contextual only [hk, kept_lit, kept_markN, kept_copy, kept_zeroWrN, kept_ite, ite_self, implies_true, forall_const, kept_takeFree]; done) | (rename_i hq; have hz := congrArg Prod.snd hq; dsimp only at hz; subst hz; try clear hq) | (have hz := congrArg Prod.snd ‹_ = (_, _)›; dsimp only at hz; subst hz) | (intro _ _ hk) | with_reducible apply kept_ite | with_reducible apply kept_takeFree | with_reducible exact kept_lit hk .. | dsimp only | split)

theorem kept_writeTimeCfg {z0 : State} (v : Nat) {s : State} (hk : Kept z0 s) : Kept z0 (State.writeTimeCfg v s) := by
  unfold State.writeTimeCfg
  repeat' (first | with_reducible assumption | (simp (maxDischargeDepth := 100) +contextual only [hk, kept_lit, kept_markN, kept_copy, kept_zeroWrN, kept_ite, ite_self, implies_true, forall_const, kept_fieldValue, kept_modTime]; done) | (rename_i hq; have hz := congrArg Prod.snd hq; dsimp only at hz; subst hz; try clear hq) | (have hz := congrArg Prod.snd ‹_ = (_, _)›; dsimp only at hz; subst hz) | (intro _ _ hk) | with_reducible apply kept_ite | with_reducible apply kept_fieldValue | with_reducible apply kept_modTime | with_reducible exact kept_lit hk .. | dsimp only | split)

theorem kept_writeFrameOffset {z0 : State} (v : Nat) {s : State} (hk : Kept z0 s) : Kept z0 (State.writeFrameOffset v s) := by
  unfold State.writeFrameOffset
  repeat' (first | with_reducible assumption | (simp (maxDischargeDepth := 100) +contextual only [hk, kept_lit, kept_markN, kept_copy, kept_zeroWrN, kept_ite, ite_self, implies_true, forall_const, kept_fieldValue, kept_modTime]; done) | (rename_i hq; have hz := congrArg Prod.snd hq; dsimp only at hz; subst hz; try clear hq) | (have hz := congrArg Prod.snd ‹_ = (_, _)›; dsimp only at hz; subst hz) | (intro _ _ hk) | with_reducible apply kept_ite | with_reducible apply kept_fieldValue | with_reducible apply kept_modTime | with_reducible exact kept_lit hk .. | dsimp only | split)

theorem kept_writeStepNs {z0 : State} (v : Nat) {s : State} (hk : Kept z0 s) : Kept z0 (State.writeStepNs v s) := by
  unfold State.writeStepNs
  repeat' (first | with_reducible assumption | (simp (maxDischargeDepth := 100) +contextual only [hk, kept_lit, kept_markN, kept_copy, kept_zeroWrN, kept_ite, ite_self, implies_true, forall_const, kept_fieldValue, kept_modTime]; done) | (rename_i hq; have hz := congrArg Prod.snd hq; dsimp only at hz; subst hz; try clear hq) | (have hz := congrArg Prod.snd ‹_ = (_, _)›; dsimp only at hz; subst hz) | (intro _ _ hk) | with_reducible apply kept_ite | with_reducible apply kept_fieldValue | with_reducible apply kept_modTime | with_reducible exact kept_lit hk .. | dsimp only | split)

theorem kept_writeDomCfg {z0 : State} (mirror : Bool) (v : Nat) {s : State} (hk : Kept z0 s) : Kept z0 (State.writeDomCfg mirror v s) := by
  unfold State.writeDomCfg
  repeat' (first | with_reducible assumption | (simp (maxDischargeDepth := 100) +contextual only [hk, kept_lit, kept_markN, kept_copy, kept_zeroWrN, kept_ite, ite_self, implies_true, forall_const, kept_fieldValue, kept_modDom]; done) | (rename_i hq; have hz := congrArg Prod.snd hq; dsimp only at hz; subst hz; try clear hq) | (have hz := congrArg Prod.snd ‹_ = (_, _)›; dsimp only at hz; subst hz) | (intro _ _ hk) | with_reducible apply kept_ite | with_reducible apply kept_fieldValue | with_reducible apply kept_modDom | with_reducible exact kept_lit hk .. | dsimp only | split)

theorem kept_writeDomain {z0 : State} (mirror : Bool) (r : Nat) (v : Nat) {s : State} (hk : Kept z0 s) : Kept z0 (State.writeDomain mirror r v s) := by
  unfold State.writeDomain
  repeat' (first | with_reducible assumption | (simp (maxDischargeDepth := 100) +contextual only [hk, kept_lit, kept_markN, kept_copy, kept_zeroWrN, kept_ite, ite_self, implies_true, forall_const, kept_modDom, kept_writeDomCfg]; done) | (intro _ _ hk) | with_reducible apply kept_ite | with_reducible apply kept_modDom | with_reducible apply kept_writeDomCfg | with_reducible exact kept_lit hk .. | dsimp only | split)

theorem kept_writeLaneAdj {z0 : State} (lane : Nat) (v : Nat) {s : State} (hk : Kept z0 s) : Kept z0 (State.writeLaneAdj lane v s) := by
  unfold State.writeLaneAdj
  repeat' (first | with_reducible assumption | (simp (maxDischargeDepth := 100) +contextual only [hk, kept_lit, kept_markN, kept_copy, kept_zeroWrN, kept_ite, ite_self, implies_true, forall_const, kept_modLane]; done) | (intro _ _ hk) | with_reducible apply kept_ite | with_reducible apply kept_modLane | with_reducible exact kept_lit hk .. | dsimp only | split)

theorem kept_writeTimeReg {z0 : State} (r : Nat) (v : Nat) {s : State} (hk : Kept z0 s) : Kept z0 (State.writeTimeReg r v s) := by
  unfold State.writeTimeReg
  repeat' (first | with_reducible assumption | (simp (maxDischargeDepth := 100) +contextual only [hk, kept_lit, kept_markN, kept_copy, kept_zeroWrN, kept_ite, ite_self, implies_true, forall_const, kept_modTime, kept_popCapture, kept_writeDomain, kept_writeFrameOffset, kept_writeLaneAdj, kept_writeStepNs, kept_writeTimeCfg]; done) | (intro _ _ hk) | with_reducible apply kept_ite | with_reducible apply kept_modTime | with_reducible apply kept_popCapture | with_reducible apply kept_writeDomain | with_reducible apply kept_writeFrameOffset | with_reducible apply kept_writeLaneAdj | with_reducible apply kept_writeStepNs | with_reducible apply kept_writeTimeCfg | with_reducible exact kept_lit hk .. | dsimp only | split)

theorem kept_writeRing {z0 : State} (k : Nat) (mapping : W32) (r : Nat) (v : Nat) {s : State} (hk : Kept z0 s) : Kept z0 (State.writeRing k mapping r v s) := by
  unfold State.writeRing
  repeat' (first | with_reducible assumption | (simp (maxDischargeDepth := 100) +contextual only [hk, kept_lit, kept_markN, kept_copy, kept_zeroWrN, kept_ite, ite_self, implies_true, forall_const, kept_evrArm, kept_evrHead]; done) | (intro _ _ hk) | with_reducible apply kept_ite | with_reducible apply kept_evrArm | with_reducible apply kept_evrHead | with_reducible exact kept_lit hk .. | dsimp only | split)

theorem kept_writeLogHead {z0 : State} (v : Nat) {s : State} (hk : Kept z0 s) : Kept z0 (State.writeLogHead v s) := by
  unfold State.writeLogHead
  repeat' (first | with_reducible assumption | (simp (maxDischargeDepth := 100) +contextual only [hk, kept_lit, kept_markN, kept_copy, kept_zeroWrN, kept_ite, ite_self, implies_true, forall_const, kept_modProv, kept_provFlush]; done) | (intro _ _ hk) | with_reducible apply kept_ite | with_reducible apply kept_modProv | with_reducible apply kept_provFlush | with_reducible exact kept_lit hk .. | dsimp only | split)

theorem kept_writeDevice {z0 : State} (mapping : W32) (r : Nat) (v : Nat) {s : State} (hk : Kept z0 s) : Kept z0 (State.writeDevice mapping r v s) := by
  unfold State.writeDevice
  repeat' (first | with_reducible assumption | (simp (maxDischargeDepth := 100) +contextual only [hk, kept_lit, kept_markN, kept_copy, kept_zeroWrN, kept_ite, ite_self, implies_true, forall_const, kept_managerOnly, kept_modFab, kept_modFabMem, kept_modHealth, kept_modPower, kept_modProv, kept_modSec, kept_modShep, kept_writeLogHead]; done) | (intro _ _ hk) | with_reducible apply kept_ite | with_reducible apply kept_managerOnly | with_reducible apply kept_modFab | with_reducible apply kept_modFabMem | with_reducible apply kept_modHealth | with_reducible apply kept_modPower | with_reducible apply kept_modProv | with_reducible apply kept_modSec | with_reducible apply kept_modShep | with_reducible apply kept_writeLogHead | with_reducible exact kept_lit hk .. | dsimp only | split)

theorem kept_writeFhPort {z0 : State} (p : Nat) (mapping : W32) (r : Nat) (v : Nat) {s : State} (hk : Kept z0 s) : Kept z0 (State.writeFhPort p mapping r v s) := by
  unfold State.writeFhPort
  repeat' (first | with_reducible assumption | (simp (maxDischargeDepth := 100) +contextual only [hk, kept_lit, kept_markN, kept_copy, kept_zeroWrN, kept_ite, ite_self, implies_true, forall_const, kept_managerOnly, kept_modFhPort, kept_modLane]; done) | (intro _ _ hk) | with_reducible apply kept_ite | with_reducible apply kept_managerOnly | with_reducible apply kept_modFhPort | with_reducible apply kept_modLane | with_reducible exact kept_lit hk .. | dsimp only | split)

theorem kept_writeUnit {z0 : State} (u : UnitId) (mapping : W32) (r : Nat) (v : Nat) {s : State} (hk : Kept z0 s) : Kept z0 (State.writeUnit u mapping r v s) := by
  unfold State.writeUnit
  repeat' (first | with_reducible assumption | (simp (maxDischargeDepth := 100) +contextual only [hk, kept_lit, kept_markN, kept_copy, kept_zeroWrN, kept_ite, ite_self, implies_true, forall_const, kept_modEngine, kept_modFold, kept_modFport, kept_modMover, kept_modSigCore, kept_modStackCtl, kept_writeDevice, kept_writeFhPort]; done) | (intro _ _ hk) | with_reducible apply kept_ite | with_reducible apply kept_modEngine | with_reducible apply kept_modFold | with_reducible apply kept_modFport | with_reducible apply kept_modMover | with_reducible apply kept_modSigCore | with_reducible apply kept_modStackCtl | with_reducible apply kept_writeDevice | with_reducible apply kept_writeFhPort | with_reducible exact kept_lit hk .. | dsimp only | split)

theorem kept_writeBlocks {z0 : State} (mapping : W32) (offset : Nat) (v : Nat) {s : State} (hk : Kept z0 s) : Kept z0 (State.writeBlocks mapping offset v s) := by
  unfold State.writeBlocks
  repeat' (first | with_reducible assumption | (simp (maxDischargeDepth := 100) +contextual only [hk, kept_lit, kept_markN, kept_copy, kept_zeroWrN, kept_ite, ite_self, implies_true, forall_const, kept_writeUnit]; done) | (intro _ _ hk) | with_reducible apply kept_ite | with_reducible apply kept_writeUnit | with_reducible exact kept_lit hk .. | dsimp only | split)

theorem kept_writeWord {z0 : State} (mapping : W32) (offset : Nat) (v : Nat) {s : State} (hk : Kept z0 s) : Kept z0 (State.writeWord mapping offset v s) := by
  unfold State.writeWord
  repeat' (first | with_reducible assumption | (simp (maxDischargeDepth := 100) +contextual only [hk, kept_lit, kept_markN, kept_copy, kept_zeroWrN, kept_ite, ite_self, implies_true, forall_const, kept_managerOnly, kept_writeBlocks, kept_writeMbx, kept_writeRing, kept_writeTimeReg]; done) | (intro _ _ hk) | with_reducible apply kept_ite | with_reducible apply kept_managerOnly | with_reducible apply kept_writeBlocks | with_reducible apply kept_writeMbx | with_reducible apply kept_writeRing | with_reducible apply kept_writeTimeReg | with_reducible exact kept_lit hk .. | dsimp only | split)

theorem kept_execRegisterWrite {z0 zt : State} (mapping : W32) (offset : Nat) (wide : Bool) (value : W64) {s : State} (hk : Kept z0 s) (ht : execRegisterWrite mapping offset wide value s = .next zt) : Kept z0 zt := by
  unfold execRegisterWrite at ht
  cases ht
  repeat' (first | with_reducible assumption | (simp (maxDischargeDepth := 100) +contextual only [hk, kept_lit, kept_markN, kept_copy, kept_zeroWrN, kept_ite, ite_self, implies_true, forall_const, kept_doorbellWrite, kept_writeWord]; done) | (intro _ _ hk) | with_reducible apply kept_ite | with_reducible apply kept_doorbellWrite | with_reducible apply kept_writeWord | with_reducible exact kept_lit hk .. | dsimp only | split)

end Sys2Proof.Machine
end

