-- ==== Sys2Proof/Laws/Touch.lean ====
section
/-! SUPPORT. Which parts of the state an operation may change (`Touch`): the relation and its basic laws. Bit i of the
mask stands for the i-th field of `State`, bit 31 for memory of the device, which a write to companion memory leaves
alone, bit 32 for the counter of dropped link writes, which bit 27 leaves out. -/

namespace Sys2Proof.Machine

/-- From `a` to `s` only the parts of the state with a bit in `w` may have changed. -/
structure Touch (w : Nat) (a s : State) : Prop where
  pending : w.testBit 0 = false → s.pending = a.pending
  dev : w.testBit 1 = false → s.dev = a.dev
  units : w.testBit 2 = false → s.units = a.units
  mboxes : w.testBit 3 = false → s.mboxes = a.mboxes
  rings : w.testBit 4 = false → s.rings = a.rings
  evPages : w.testBit 5 = false → s.evPages = a.evPages
  dbPages : w.testBit 6 = false → s.dbPages = a.dbPages
  insts : w.testBit 7 = false → s.insts = a.insts
  spoof : w.testBit 8 = false → s.spoof = a.spoof
  tiers : w.testBit 9 = false → s.tiers = a.tiers
  mem : w.testBit 10 = false → s.mem = a.mem
  folds : w.testBit 11 = false → s.folds = a.folds
  disp : w.testBit 12 = false → s.disp = a.disp
  queues : w.testBit 13 = false → s.queues = a.queues
  radio : w.testBit 14 = false → s.radio = a.radio
  shep : w.testBit 15 = false → s.shep = a.shep
  settings : w.testBit 16 = false → s.settings = a.settings
  dma : w.testBit 17 = false → s.dma = a.dma
  fh : w.testBit 18 = false → s.fh = a.fh
  time : w.testBit 19 = false → s.time = a.time
  fab : w.testBit 20 = false → s.fab = a.fab
  fabMem : w.testBit 21 = false → s.fabMem = a.fabMem
  prov : w.testBit 22 = false → s.prov = a.prov
  health : w.testBit 23 = false → s.health = a.health
  flash : w.testBit 24 = false → s.flash = a.flash
  fuses : w.testBit 25 = false → s.fuses = a.fuses
  sec : w.testBit 26 = false → s.sec = a.sec
  power : w.testBit 27 = false → { s.power with fyfDrops := 0 } = { a.power with fyfDrops := 0 }
  pkg : w.testBit 28 = false → s.pkg = a.pkg
  out : w.testBit 29 = false → s.out = a.out
  fresh : w.testBit 30 = false → s.fresh = a.fresh
  deviceMem : w.testBit 31 = false → SameDeviceMem a s
  fyfDrops : w.testBit 32 = false → s.power.fyfDrops = a.power.fyfDrops

theorem Touch.refl (w : Nat) (s : State) : Touch w s s := by
  constructor <;> intro _ <;> first | rfl | exact .rfl

theorem testBit_of_mask {w v i : Nat} (h : w &&& v = v) (hw : w.testBit i = false) : v.testBit i = false := by
  rw [← h, Nat.testBit_and, hw, Bool.false_and]

theorem Touch.trans {w : Nat} {a s t : State} (x : Touch w a s) (y : Touch w s t) : Touch w a t := by
  constructor <;> intro h
  · exact (y.pending h).trans (x.pending h)
  · exact (y.dev h).trans (x.dev h)
  · exact (y.units h).trans (x.units h)
  · exact (y.mboxes h).trans (x.mboxes h)
  · exact (y.rings h).trans (x.rings h)
  · exact (y.evPages h).trans (x.evPages h)
  · exact (y.dbPages h).trans (x.dbPages h)
  · exact (y.insts h).trans (x.insts h)
  · exact (y.spoof h).trans (x.spoof h)
  · exact (y.tiers h).trans (x.tiers h)
  · exact (y.mem h).trans (x.mem h)
  · exact (y.folds h).trans (x.folds h)
  · exact (y.disp h).trans (x.disp h)
  · exact (y.queues h).trans (x.queues h)
  · exact (y.radio h).trans (x.radio h)
  · exact (y.shep h).trans (x.shep h)
  · exact (y.settings h).trans (x.settings h)
  · exact (y.dma h).trans (x.dma h)
  · exact (y.fh h).trans (x.fh h)
  · exact (y.time h).trans (x.time h)
  · exact (y.fab h).trans (x.fab h)
  · exact (y.fabMem h).trans (x.fabMem h)
  · exact (y.prov h).trans (x.prov h)
  · exact (y.health h).trans (x.health h)
  · exact (y.flash h).trans (x.flash h)
  · exact (y.fuses h).trans (x.fuses h)
  · exact (y.sec h).trans (x.sec h)
  · exact (y.power h).trans (x.power h)
  · exact (y.pkg h).trans (x.pkg h)
  · exact (y.out h).trans (x.out h)
  · exact (y.fresh h).trans (x.fresh h)
  · exact (x.deviceMem h).trans (y.deviceMem h)
  · exact (y.fyfDrops h).trans (x.fyfDrops h)

theorem Touch.mono {w v : Nat} {a s : State} (h : w &&& v = v) (x : Touch v a s) : Touch w a s := by
  constructor <;> intro hw
  · exact x.pending (testBit_of_mask h hw)
  · exact x.dev (testBit_of_mask h hw)
  · exact x.units (testBit_of_mask h hw)
  · exact x.mboxes (testBit_of_mask h hw)
  · exact x.rings (testBit_of_mask h hw)
  · exact x.evPages (testBit_of_mask h hw)
  · exact x.dbPages (testBit_of_mask h hw)
  · exact x.insts (testBit_of_mask h hw)
  · exact x.spoof (testBit_of_mask h hw)
  · exact x.tiers (testBit_of_mask h hw)
  · exact x.mem (testBit_of_mask h hw)
  · exact x.folds (testBit_of_mask h hw)
  · exact x.disp (testBit_of_mask h hw)
  · exact x.queues (testBit_of_mask h hw)
  · exact x.radio (testBit_of_mask h hw)
  · exact x.shep (testBit_of_mask h hw)
  · exact x.settings (testBit_of_mask h hw)
  · exact x.dma (testBit_of_mask h hw)
  · exact x.fh (testBit_of_mask h hw)
  · exact x.time (testBit_of_mask h hw)
  · exact x.fab (testBit_of_mask h hw)
  · exact x.fabMem (testBit_of_mask h hw)
  · exact x.prov (testBit_of_mask h hw)
  · exact x.health (testBit_of_mask h hw)
  · exact x.flash (testBit_of_mask h hw)
  · exact x.fuses (testBit_of_mask h hw)
  · exact x.sec (testBit_of_mask h hw)
  · exact x.power (testBit_of_mask h hw)
  · exact x.pkg (testBit_of_mask h hw)
  · exact x.out (testBit_of_mask h hw)
  · exact x.fresh (testBit_of_mask h hw)
  · exact x.deviceMem (testBit_of_mask h hw)
  · exact x.fyfDrops (testBit_of_mask h hw)

/-- An operation that touches the parts in `v` may follow one that touches more. -/
theorem Touch.use {w v : Nat} {z s s' : State} (hk : Touch w z s) (hw : w &&& v = v) (h : Touch v s s → Touch v s s') :
    Touch w z s' :=
  hk.trans ((h (.refl _ _)).mono hw)

theorem touch_lit1 {w : Nat} {a s : State} {x} (hk : Touch w a s) (hw : w &&& 2 = 2 := by decide) :
    Touch w a (State.mk s.pending x s.units s.mboxes s.rings s.evPages s.dbPages s.insts s.spoof s.tiers s.mem s.folds s.disp s.queues s.radio s.shep s.settings s.dma s.fh s.time s.fab s.fabMem s.prov s.health s.flash s.fuses s.sec s.power s.pkg s.out s.fresh) :=
  Touch.use hk hw fun _ => by constructor <;> intro hb <;> first | rfl | exact absurd hb (by decide) | exact SameDeviceMem.rfl

theorem touch_lit2 {w : Nat} {a s : State} {x} (hk : Touch w a s) (hw : w &&& 4 = 4 := by decide) :
    Touch w a (State.mk s.pending s.dev x s.mboxes s.rings s.evPages s.dbPages s.insts s.spoof s.tiers s.mem s.folds s.disp s.queues s.radio s.shep s.settings s.dma s.fh s.time s.fab s.fabMem s.prov s.health s.flash s.fuses s.sec s.power s.pkg s.out s.fresh) :=
  Touch.use hk hw fun _ => by constructor <;> intro hb <;> first | rfl | exact absurd hb (by decide) | exact SameDeviceMem.rfl

theorem touch_lit3 {w : Nat} {a s : State} {x} (hk : Touch w a s) (hw : w &&& 8 = 8 := by decide) :
    Touch w a (State.mk s.pending s.dev s.units x s.rings s.evPages s.dbPages s.insts s.spoof s.tiers s.mem s.folds s.disp s.queues s.radio s.shep s.settings s.dma s.fh s.time s.fab s.fabMem s.prov s.health s.flash s.fuses s.sec s.power s.pkg s.out s.fresh) :=
  Touch.use hk hw fun _ => by constructor <;> intro hb <;> first | rfl | exact absurd hb (by decide) | exact SameDeviceMem.rfl

theorem touch_lit4 {w : Nat} {a s : State} {x} (hk : Touch w a s) (hw : w &&& 16 = 16 := by decide) :
    Touch w a (State.mk s.pending s.dev s.units s.mboxes x s.evPages s.dbPages s.insts s.spoof s.tiers s.mem s.folds s.disp s.queues s.radio s.shep s.settings s.dma s.fh s.time s.fab s.fabMem s.prov s.health s.flash s.fuses s.sec s.power s.pkg s.out s.fresh) :=
  Touch.use hk hw fun _ => by constructor <;> intro hb <;> first | rfl | exact absurd hb (by decide) | exact SameDeviceMem.rfl

theorem touch_lit5 {w : Nat} {a s : State} {x} (hk : Touch w a s) (hw : w &&& 32 = 32 := by decide) :
    Touch w a (State.mk s.pending s.dev s.units s.mboxes s.rings x s.dbPages s.insts s.spoof s.tiers s.mem s.folds s.disp s.queues s.radio s.shep s.settings s.dma s.fh s.time s.fab s.fabMem s.prov s.health s.flash s.fuses s.sec s.power s.pkg s.out s.fresh) :=
  Touch.use hk hw fun _ => by constructor <;> intro hb <;> first | rfl | exact absurd hb (by decide) | exact SameDeviceMem.rfl

theorem touch_lit6 {w : Nat} {a s : State} {x} (hk : Touch w a s) (hw : w &&& 64 = 64 := by decide) :
    Touch w a (State.mk s.pending s.dev s.units s.mboxes s.rings s.evPages x s.insts s.spoof s.tiers s.mem s.folds s.disp s.queues s.radio s.shep s.settings s.dma s.fh s.time s.fab s.fabMem s.prov s.health s.flash s.fuses s.sec s.power s.pkg s.out s.fresh) :=
  Touch.use hk hw fun _ => by constructor <;> intro hb <;> first | rfl | exact absurd hb (by decide) | exact SameDeviceMem.rfl

theorem touch_lit7 {w : Nat} {a s : State} {x} (hk : Touch w a s) (hw : w &&& 128 = 128 := by decide) :
    Touch w a (State.mk s.pending s.dev s.units s.mboxes s.rings s.evPages s.dbPages x s.spoof s.tiers s.mem s.folds s.disp s.queues s.radio s.shep s.settings s.dma s.fh s.time s.fab s.fabMem s.prov s.health s.flash s.fuses s.sec s.power s.pkg s.out s.fresh) :=
  Touch.use hk hw fun _ => by constructor <;> intro hb <;> first | rfl | exact absurd hb (by decide) | exact SameDeviceMem.rfl

theorem touch_lit8 {w : Nat} {a s : State} {x} (hk : Touch w a s) (hw : w &&& 256 = 256 := by decide) :
    Touch w a (State.mk s.pending s.dev s.units s.mboxes s.rings s.evPages s.dbPages s.insts x s.tiers s.mem s.folds s.disp s.queues s.radio s.shep s.settings s.dma s.fh s.time s.fab s.fabMem s.prov s.health s.flash s.fuses s.sec s.power s.pkg s.out s.fresh) :=
  Touch.use hk hw fun _ => by constructor <;> intro hb <;> first | rfl | exact absurd hb (by decide) | exact SameDeviceMem.rfl

theorem touch_lit9 {w : Nat} {a s : State} {x} (hk : Touch w a s) (hw : w &&& 512 = 512 := by decide) :
    Touch w a (State.mk s.pending s.dev s.units s.mboxes s.rings s.evPages s.dbPages s.insts s.spoof x s.mem s.folds s.disp s.queues s.radio s.shep s.settings s.dma s.fh s.time s.fab s.fabMem s.prov s.health s.flash s.fuses s.sec s.power s.pkg s.out s.fresh) :=
  Touch.use hk hw fun _ => by constructor <;> intro hb <;> first | rfl | exact absurd hb (by decide) | exact SameDeviceMem.rfl

theorem touch_lit10 {w : Nat} {a s : State} {x} (hk : Touch w a s) (hw : w &&& 2147484672 = 2147484672 := by decide) :
    Touch w a (State.mk s.pending s.dev s.units s.mboxes s.rings s.evPages s.dbPages s.insts s.spoof s.tiers x s.folds s.disp s.queues s.radio s.shep s.settings s.dma s.fh s.time s.fab s.fabMem s.prov s.health s.flash s.fuses s.sec s.power s.pkg s.out s.fresh) :=
  Touch.use hk hw fun _ => by constructor <;> intro hb <;> first | rfl | exact absurd hb (by decide) | exact SameDeviceMem.rfl

theorem touch_lit11 {w : Nat} {a s : State} {x} (hk : Touch w a s) (hw : w &&& 2048 = 2048 := by decide) :
    Touch w a (State.mk s.pending s.dev s.units s.mboxes s.rings s.evPages s.dbPages s.insts s.spoof s.tiers s.mem x s.disp s.queues s.radio s.shep s.settings s.dma s.fh s.time s.fab s.fabMem s.prov s.health s.flash s.fuses s.sec s.power s.pkg s.out s.fresh) :=
  Touch.use hk hw fun _ => by constructor <;> intro hb <;> first | rfl | exact absurd hb (by decide) | exact SameDeviceMem.rfl

theorem touch_lit12 {w : Nat} {a s : State} {x} (hk : Touch w a s) (hw : w &&& 4096 = 4096 := by decide) :
    Touch w a (State.mk s.pending s.dev s.units s.mboxes s.rings s.evPages s.dbPages s.insts s.spoof s.tiers s.mem s.folds x s.queues s.radio s.shep s.settings s.dma s.fh s.time s.fab s.fabMem s.prov s.health s.flash s.fuses s.sec s.power s.pkg s.out s.fresh) :=
  Touch.use hk hw fun _ => by constructor <;> intro hb <;> first | rfl | exact absurd hb (by decide) | exact SameDeviceMem.rfl

theorem touch_lit13 {w : Nat} {a s : State} {x} (hk : Touch w a s) (hw : w &&& 8192 = 8192 := by decide) :
    Touch w a (State.mk s.pending s.dev s.units s.mboxes s.rings s.evPages s.dbPages s.insts s.spoof s.tiers s.mem s.folds s.disp x s.radio s.shep s.settings s.dma s.fh s.time s.fab s.fabMem s.prov s.health s.flash s.fuses s.sec s.power s.pkg s.out s.fresh) :=
  Touch.use hk hw fun _ => by constructor <;> intro hb <;> first | rfl | exact absurd hb (by decide) | exact SameDeviceMem.rfl

theorem touch_lit14 {w : Nat} {a s : State} {x} (hk : Touch w a s) (hw : w &&& 16384 = 16384 := by decide) :
    Touch w a (State.mk s.pending s.dev s.units s.mboxes s.rings s.evPages s.dbPages s.insts s.spoof s.tiers s.mem s.folds s.disp s.queues x s.shep s.settings s.dma s.fh s.time s.fab s.fabMem s.prov s.health s.flash s.fuses s.sec s.power s.pkg s.out s.fresh) :=
  Touch.use hk hw fun _ => by constructor <;> intro hb <;> first | rfl | exact absurd hb (by decide) | exact SameDeviceMem.rfl

theorem touch_lit15 {w : Nat} {a s : State} {x} (hk : Touch w a s) (hw : w &&& 32768 = 32768 := by decide) :
    Touch w a (State.mk s.pending s.dev s.units s.mboxes s.rings s.evPages s.dbPages s.insts s.spoof s.tiers s.mem s.folds s.disp s.queues s.radio x s.settings s.dma s.fh s.time s.fab s.fabMem s.prov s.health s.flash s.fuses s.sec s.power s.pkg s.out s.fresh) :=
  Touch.use hk hw fun _ => by constructor <;> intro hb <;> first | rfl | exact absurd hb (by decide) | exact SameDeviceMem.rfl

theorem touch_lit16 {w : Nat} {a s : State} {x} (hk : Touch w a s) (hw : w &&& 65536 = 65536 := by decide) :
    Touch w a (State.mk s.pending s.dev s.units s.mboxes s.rings s.evPages s.dbPages s.insts s.spoof s.tiers s.mem s.folds s.disp s.queues s.radio s.shep x s.dma s.fh s.time s.fab s.fabMem s.prov s.health s.flash s.fuses s.sec s.power s.pkg s.out s.fresh) :=
  Touch.use hk hw fun _ => by constructor <;> intro hb <;> first | rfl | exact absurd hb (by decide) | exact SameDeviceMem.rfl

theorem touch_lit17 {w : Nat} {a s : State} {x} (hk : Touch w a s) (hw : w &&& 131072 = 131072 := by decide) :
    Touch w a (State.mk s.pending s.dev s.units s.mboxes s.rings s.evPages s.dbPages s.insts s.spoof s.tiers s.mem s.folds s.disp s.queues s.radio s.shep s.settings x s.fh s.time s.fab s.fabMem s.prov s.health s.flash s.fuses s.sec s.power s.pkg s.out s.fresh) :=
  Touch.use hk hw fun _ => by constructor <;> intro hb <;> first | rfl | exact absurd hb (by decide) | exact SameDeviceMem.rfl

theorem touch_lit18 {w : Nat} {a s : State} {x} (hk : Touch w a s) (hw : w &&& 262144 = 262144 := by decide) :
    Touch w a (State.mk s.pending s.dev s.units s.mboxes s.rings s.evPages s.dbPages s.insts s.spoof s.tiers s.mem s.folds s.disp s.queues s.radio s.shep s.settings s.dma x s.time s.fab s.fabMem s.prov s.health s.flash s.fuses s.sec s.power s.pkg s.out s.fresh) :=
  Touch.use hk hw fun _ => by constructor <;> intro hb <;> first | rfl | exact absurd hb (by decide) | exact SameDeviceMem.rfl

theorem touch_lit19 {w : Nat} {a s : State} {x} (hk : Touch w a s) (hw : w &&& 524288 = 524288 := by decide) :
    Touch w a (State.mk s.pending s.dev s.units s.mboxes s.rings s.evPages s.dbPages s.insts s.spoof s.tiers s.mem s.folds s.disp s.queues s.radio s.shep s.settings s.dma s.fh x s.fab s.fabMem s.prov s.health s.flash s.fuses s.sec s.power s.pkg s.out s.fresh) :=
  Touch.use hk hw fun _ => by constructor <;> intro hb <;> first | rfl | exact absurd hb (by decide) | exact SameDeviceMem.rfl

theorem touch_lit20 {w : Nat} {a s : State} {x} (hk : Touch w a s) (hw : w &&& 1048576 = 1048576 := by decide) :
    Touch w a (State.mk s.pending s.dev s.units s.mboxes s.rings s.evPages s.dbPages s.insts s.spoof s.tiers s.mem s.folds s.disp s.queues s.radio s.shep s.settings s.dma s.fh s.time x s.fabMem s.prov s.health s.flash s.fuses s.sec s.power s.pkg s.out s.fresh) :=
  Touch.use hk hw fun _ => by constructor <;> intro hb <;> first | rfl | exact absurd hb (by decide) | exact SameDeviceMem.rfl

theorem touch_lit21 {w : Nat} {a s : State} {x} (hk : Touch w a s) (hw : w &&& 2097152 = 2097152 := by decide) :
    Touch w a (State.mk s.pending s.dev s.units s.mboxes s.rings s.evPages s.dbPages s.insts s.spoof s.tiers s.mem s.folds s.disp s.queues s.radio s.shep s.settings s.dma s.fh s.time s.fab x s.prov s.health s.flash s.fuses s.sec s.power s.pkg s.out s.fresh) :=
  Touch.use hk hw fun _ => by constructor <;> intro hb <;> first | rfl | exact absurd hb (by decide) | exact SameDeviceMem.rfl

theorem touch_lit22 {w : Nat} {a s : State} {x} (hk : Touch w a s) (hw : w &&& 4194304 = 4194304 := by decide) :
    Touch w a (State.mk s.pending s.dev s.units s.mboxes s.rings s.evPages s.dbPages s.insts s.spoof s.tiers s.mem s.folds s.disp s.queues s.radio s.shep s.settings s.dma s.fh s.time s.fab s.fabMem x s.health s.flash s.fuses s.sec s.power s.pkg s.out s.fresh) :=
  Touch.use hk hw fun _ => by constructor <;> intro hb <;> first | rfl | exact absurd hb (by decide) | exact SameDeviceMem.rfl

theorem touch_lit23 {w : Nat} {a s : State} {x} (hk : Touch w a s) (hw : w &&& 8388608 = 8388608 := by decide) :
    Touch w a (State.mk s.pending s.dev s.units s.mboxes s.rings s.evPages s.dbPages s.insts s.spoof s.tiers s.mem s.folds s.disp s.queues s.radio s.shep s.settings s.dma s.fh s.time s.fab s.fabMem s.prov x s.flash s.fuses s.sec s.power s.pkg s.out s.fresh) :=
  Touch.use hk hw fun _ => by constructor <;> intro hb <;> first | rfl | exact absurd hb (by decide) | exact SameDeviceMem.rfl

theorem touch_lit24 {w : Nat} {a s : State} {x} (hk : Touch w a s) (hw : w &&& 16777216 = 16777216 := by decide) :
    Touch w a (State.mk s.pending s.dev s.units s.mboxes s.rings s.evPages s.dbPages s.insts s.spoof s.tiers s.mem s.folds s.disp s.queues s.radio s.shep s.settings s.dma s.fh s.time s.fab s.fabMem s.prov s.health x s.fuses s.sec s.power s.pkg s.out s.fresh) :=
  Touch.use hk hw fun _ => by constructor <;> intro hb <;> first | rfl | exact absurd hb (by decide) | exact SameDeviceMem.rfl

theorem touch_lit25 {w : Nat} {a s : State} {x} (hk : Touch w a s) (hw : w &&& 33554432 = 33554432 := by decide) :
    Touch w a (State.mk s.pending s.dev s.units s.mboxes s.rings s.evPages s.dbPages s.insts s.spoof s.tiers s.mem s.folds s.disp s.queues s.radio s.shep s.settings s.dma s.fh s.time s.fab s.fabMem s.prov s.health s.flash x s.sec s.power s.pkg s.out s.fresh) :=
  Touch.use hk hw fun _ => by constructor <;> intro hb <;> first | rfl | exact absurd hb (by decide) | exact SameDeviceMem.rfl

theorem touch_lit26 {w : Nat} {a s : State} {x} (hk : Touch w a s) (hw : w &&& 67108864 = 67108864 := by decide) :
    Touch w a (State.mk s.pending s.dev s.units s.mboxes s.rings s.evPages s.dbPages s.insts s.spoof s.tiers s.mem s.folds s.disp s.queues s.radio s.shep s.settings s.dma s.fh s.time s.fab s.fabMem s.prov s.health s.flash s.fuses x s.power s.pkg s.out s.fresh) :=
  Touch.use hk hw fun _ => by constructor <;> intro hb <;> first | rfl | exact absurd hb (by decide) | exact SameDeviceMem.rfl

theorem touch_lit27 {w : Nat} {a s : State} {x} (hk : Touch w a s) (hw : w &&& 4429185024 = 4429185024 := by decide) :
    Touch w a (State.mk s.pending s.dev s.units s.mboxes s.rings s.evPages s.dbPages s.insts s.spoof s.tiers s.mem s.folds s.disp s.queues s.radio s.shep s.settings s.dma s.fh s.time s.fab s.fabMem s.prov s.health s.flash s.fuses s.sec x s.pkg s.out s.fresh) :=
  Touch.use hk hw fun _ => by constructor <;> intro hb <;> first | rfl | exact absurd hb (by decide) | exact SameDeviceMem.rfl

theorem touch_lit28 {w : Nat} {a s : State} {x} (hk : Touch w a s) (hw : w &&& 268435456 = 268435456 := by decide) :
    Touch w a (State.mk s.pending s.dev s.units s.mboxes s.rings s.evPages s.dbPages s.insts s.spoof s.tiers s.mem s.folds s.disp s.queues s.radio s.shep s.settings s.dma s.fh s.time s.fab s.fabMem s.prov s.health s.flash s.fuses s.sec s.power x s.out s.fresh) :=
  Touch.use hk hw fun _ => by constructor <;> intro hb <;> first | rfl | exact absurd hb (by decide) | exact SameDeviceMem.rfl

theorem touch_lit29 {w : Nat} {a s : State} {x} (hk : Touch w a s) (hw : w &&& 536870912 = 536870912 := by decide) :
    Touch w a (State.mk s.pending s.dev s.units s.mboxes s.rings s.evPages s.dbPages s.insts s.spoof s.tiers s.mem s.folds s.disp s.queues s.radio s.shep s.settings s.dma s.fh s.time s.fab s.fabMem s.prov s.health s.flash s.fuses s.sec s.power s.pkg x s.fresh) :=
  Touch.use hk hw fun _ => by constructor <;> intro hb <;> first | rfl | exact absurd hb (by decide) | exact SameDeviceMem.rfl

theorem touch_lit30 {w : Nat} {a s : State} {x} (hk : Touch w a s) (hw : w &&& 1073741824 = 1073741824 := by decide) :
    Touch w a (State.mk s.pending s.dev s.units s.mboxes s.rings s.evPages s.dbPages s.insts s.spoof s.tiers s.mem s.folds s.disp s.queues s.radio s.shep s.settings s.dma s.fh s.time s.fab s.fabMem s.prov s.health s.flash s.fuses s.sec s.power s.pkg s.out x) :=
  Touch.use hk hw fun _ => by constructor <;> intro hb <;> first | rfl | exact absurd hb (by decide) | exact SameDeviceMem.rfl

theorem touch_litDevHealth {w : Nat} {a s : State} {x y} (hk : Touch w a s) (hw : w &&& 8388610 = 8388610 := by decide) :
    Touch w a (State.mk s.pending x s.units s.mboxes s.rings s.evPages s.dbPages s.insts s.spoof s.tiers s.mem s.folds s.disp s.queues s.radio s.shep s.settings s.dma s.fh s.time s.fab s.fabMem s.prov y s.flash s.fuses s.sec s.power s.pkg s.out s.fresh) :=
  Touch.use hk hw fun _ => by constructor <;> intro hb <;> first | rfl | exact absurd hb (by decide) | exact SameDeviceMem.rfl

/-- The update that changes nothing; it tells a record written out from any other state. -/
theorem touch_eta {w : Nat} {a s : State} (hk : Touch w a s) : Touch w a (State.mk s.pending s.dev s.units s.mboxes s.rings s.evPages s.dbPages s.insts s.spoof s.tiers s.mem s.folds s.disp s.queues s.radio s.shep s.settings s.dma s.fh s.time s.fab s.fabMem s.prov s.health s.flash s.fuses s.sec s.power s.pkg s.out s.fresh) := hk

theorem touch_ite {w : Nat} {a x y : State} {c : Prop} [Decidable c] (hx : Touch w a x) (hy : Touch w a y) :
    Touch w a (if c then x else y) := by
  split <;> assumption

theorem touch_forEach {w : Nat} {α : Type} {a s : State} {l : List α} {f : α → State → State}
    (hf : ∀ x s, Touch w a s → Touch w a (f x s)) (h : Touch w a s) : Touch w a (s.forEach l f) := by
  unfold State.forEach
  induction l generalizing s with
  | nil => exact h
  | cons x r ih => exact ih (hf x s h)

theorem touch_onlyIf {w : Nat} {a s : State} {b : Bool} {f : State → State} (hf : Touch w a (f s)) (h : Touch w a s) :
    Touch w a (s.onlyIf b f) := by
  unfold State.onlyIf
  split <;> assumption

/-- An event touches what events touch. -/
theorem Touch.of_reports {w : Nat} {a s t : State} (h : Touch w a s) (r : Reports s t)
    (hw : w &&& 4831839248 = 4831839248 := by decide) : Touch w a t := by
  refine h.trans (Touch.mono hw ?_)
  have g := r.get
  constructor <;> intro hb <;> first | exact absurd hb (by decide) | (simp only [g]; done) | exact r.2 | exact r.power

/-- A write to companion memory. -/
theorem touch_wrCompanionMem {w : Nat} {z0 s : State} {a : Nat} {b : Bytes} (hk : Touch w z0 s)
    (hw : w &&& 4294968320 = 4294968320 := by decide) : Touch w z0 (s.wr .companion a b) := by
  refine hk.trans (Touch.mono hw ?_)
  unfold State.wr
  split
  · constructor <;> intro hb <;> first | exact absurd hb (by decide) | rfl | exact SameDeviceMem.rfl
  · rename_i hc
    have hd := SameDeviceMem.wr s a b
    unfold State.wr at hd
    rw [if_neg hc] at hd
    constructor <;> intro hb <;> first | exact absurd hb (by decide) | rfl | exact hd

theorem touch_dropWrite {w : Nat} {z0 s : State} (hk : Touch w z0 s) (hw : w &&& 4294967296 = 4294967296 := by decide) :
    Touch w z0 s.dropWrite :=
  Touch.use hk hw fun _ => by constructor <;> intro hb <;> first | exact absurd hb (by decide) | rfl | exact SameDeviceMem.rfl

theorem touch_wr {w : Nat} {z0 s : State} {sp : Space} {a : Nat} {b : Bytes} (hk : Touch w z0 s)
    (hw : w &&& 6442451968 = 6442451968 := by decide) : Touch w z0 (s.wr sp a b) := by
  refine hk.trans (Touch.mono hw ?_)
  unfold State.wr
  split <;> (constructor <;> intro hb <;> first | exact absurd hb (by decide) | rfl | exact SameDeviceMem.rfl)

theorem touch_zeroMem {w : Nat} {z0 s : State} {sp : Space} {a n : Nat} (hk : Touch w z0 s)
    (hw : w &&& 2147484672 = 2147484672 := by decide) : Touch w z0 (s.zeroMem sp a n) := touch_lit10 hk hw

/-! ## From masks to named parts -/

/-- The bit of a part. -/
def Field.bit : Field → Nat
  | .pending => 0
  | .dev => 1
  | .units => 2
  | .mboxes => 3
  | .rings => 4
  | .evPages => 5
  | .dbPages => 6
  | .insts => 7
  | .spoof => 8
  | .tiers => 9
  | .mem => 10
  | .folds => 11
  | .disp => 12
  | .queues => 13
  | .radio => 14
  | .shep => 15
  | .settings => 16
  | .dma => 17
  | .fh => 18
  | .time => 19
  | .fab => 20
  | .fabMem => 21
  | .prov => 22
  | .health => 23
  | .flash => 24
  | .fuses => 25
  | .sec => 26
  | .power => 27
  | .pkg => 28
  | .out => 29
  | .fresh => 30
  | .deviceMem => 31
  | .fyfDrops => 32

/-- Every part. -/
def Field.every : List Field :=
  [.pending, .dev, .units, .mboxes, .rings, .evPages, .dbPages, .insts, .spoof, .tiers, .mem, .folds, .disp, .queues,
   .radio, .shep, .settings, .dma, .fh, .time, .fab, .fabMem, .prov, .health, .flash, .fuses, .sec, .power, .pkg, .out, .fresh, .deviceMem, .fyfDrops]

theorem Field.mem_every (p : Field) : p ∈ Field.every := by cases p <;> decide

/-- An operation that touches only the bits of the parts of `l` leaves every other part the same. -/
theorem Touch.only {w : Nat} {s t : State} {l : List Field} (h : Touch w s t)
    (hl : Field.every.all (fun p => decide (p ∈ l) || !w.testBit p.bit) = true := by decide) : Only l s t := by
  intro p hp
  have hb : w.testBit p.bit = false := by
    have := (List.all_eq_true.1 hl) p (Field.mem_every p)
    simpa [hp] using this
  cases p
  · exact h.pending hb
  · exact h.dev hb
  · exact h.units hb
  · exact h.mboxes hb
  · exact h.rings hb
  · exact h.evPages hb
  · exact h.dbPages hb
  · exact h.insts hb
  · exact h.spoof hb
  · exact h.tiers hb
  · exact h.mem hb
  · exact h.folds hb
  · exact h.disp hb
  · exact h.queues hb
  · exact h.radio hb
  · exact h.shep hb
  · exact h.settings hb
  · exact h.dma hb
  · exact h.fh hb
  · exact h.time hb
  · exact h.fab hb
  · exact h.fabMem hb
  · exact h.prov hb
  · exact h.health hb
  · exact h.flash hb
  · exact h.fuses hb
  · exact h.sec hb
  · exact h.power hb
  · exact h.pkg hb
  · exact h.out hb
  · exact h.fresh hb
  · exact h.deviceMem hb
  · exact h.fyfDrops hb

end Sys2Proof.Machine
end

