-- ==== Sys2Proof/Laws/TouchOps.lean ====
section
/-! SUPPORT. Which parts of the state the operations of Sys2Proof/Machine/Ops.lean may change. -/

namespace Sys2Proof.Machine

set_option linter.all false
set_option Elab.async false

theorem touch_takeFree {msk : Nat} {z0 : State} {w : Nat} {s : State} (hk : Touch msk z0 s)
    (hw : msk &&& 1073741824 = 1073741824 := by decide) : Touch msk z0 (State.takeFree w s).2 := by
  refine Touch.use hk hw (fun hk => ?_)
  unfold State.takeFree
  repeat' (first | with_reducible assumption | intro _ _ hk | with_reducible apply touch_ite | ((fail_if_success (with_reducible refine touch_eta ?_)); with_reducible refine touch_lit30 ?_) | dsimp only | split)

theorem touch_modMbox {msk : Nat} {z0 : State} {s : State} {m : Nat} {f : Mailbox → Mailbox} (hk : Touch msk z0 s)
    (hw : msk &&& 8 = 8 := by decide) : Touch msk z0 (State.modMbox s m f) := by
  refine Touch.use hk hw (fun hk => ?_)
  unfold State.modMbox
  repeat' (first | with_reducible assumption | intro _ _ hk | with_reducible apply touch_ite | ((fail_if_success (with_reducible refine touch_eta ?_)); with_reducible refine touch_lit3 ?_) | dsimp only | split)

theorem touch_modRing {msk : Nat} {z0 : State} {s : State} {k : Nat} {f : EventRing → EventRing} (hk : Touch msk z0 s)
    (hw : msk &&& 16 = 16 := by decide) : Touch msk z0 (State.modRing s k f) := by
  refine Touch.use hk hw (fun hk => ?_)
  unfold State.modRing
  repeat' (first | with_reducible assumption | intro _ _ hk | with_reducible apply touch_ite | ((fail_if_success (with_reducible refine touch_eta ?_)); with_reducible refine touch_lit4 ?_) | dsimp only | split)

theorem touch_modDbPage {msk : Nat} {z0 : State} {s : State} {k : Nat} {f : DbPage → DbPage} (hk : Touch msk z0 s)
    (hw : msk &&& 64 = 64 := by decide) : Touch msk z0 (State.modDbPage s k f) := by
  refine Touch.use hk hw (fun hk => ?_)
  unfold State.modDbPage
  repeat' (first | with_reducible assumption | intro _ _ hk | with_reducible apply touch_ite | ((fail_if_success (with_reducible refine touch_eta ?_)); with_reducible refine touch_lit6 ?_) | dsimp only | split)

theorem touch_modInst {msk : Nat} {z0 : State} {s : State} {i : Nat} {f : Inst → Inst} (hk : Touch msk z0 s)
    (hw : msk &&& 128 = 128 := by decide) : Touch msk z0 (State.modInst s i f) := by
  refine Touch.use hk hw (fun hk => ?_)
  unfold State.modInst
  repeat' (first | with_reducible assumption | intro _ _ hk | with_reducible apply touch_ite | ((fail_if_success (with_reducible refine touch_eta ?_)); with_reducible refine touch_lit7 ?_) | dsimp only | split)

theorem touch_modObj {msk : Nat} {z0 : State} {s : State} {e : Nat} {f : Obj → Obj} (hk : Touch msk z0 s)
    (hw : msk &&& 512 = 512 := by decide) : Touch msk z0 (State.modObj s e f) := by
  refine Touch.use hk hw (fun hk => ?_)
  unfold State.modObj
  repeat' (first | with_reducible assumption | intro _ _ hk | with_reducible apply touch_ite | ((fail_if_success (with_reducible refine touch_eta ?_)); with_reducible refine touch_lit9 ?_) | dsimp only | split)

theorem touch_modMover {msk : Nat} {z0 : State} {s : State} {h : Nat} {f : Mover → Mover} (hk : Touch msk z0 s)
    (hw : msk &&& 512 = 512 := by decide) : Touch msk z0 (State.modMover s h f) := by
  refine Touch.use hk hw (fun hk => ?_)
  unfold State.modMover
  repeat' (first | with_reducible assumption | intro _ _ hk | with_reducible apply touch_ite | ((fail_if_success (with_reducible refine touch_eta ?_)); with_reducible refine touch_lit9 ?_) | dsimp only | split)

theorem touch_modStackCtl {msk : Nat} {z0 : State} {s : State} {k : Nat} {f : StackCtl → StackCtl} (hk : Touch msk z0 s)
    (hw : msk &&& 512 = 512 := by decide) : Touch msk z0 (State.modStackCtl s k f) := by
  refine Touch.use hk hw (fun hk => ?_)
  unfold State.modStackCtl
  repeat' (first | with_reducible assumption | intro _ _ hk | with_reducible apply touch_ite | ((fail_if_success (with_reducible refine touch_eta ?_)); with_reducible refine touch_lit9 ?_) | dsimp only | split)

theorem touch_modFold {msk : Nat} {z0 : State} {s : State} {f : Nat} {g : Fold → Fold} (hk : Touch msk z0 s)
    (hw : msk &&& 2048 = 2048 := by decide) : Touch msk z0 (State.modFold s f g) := by
  refine Touch.use hk hw (fun hk => ?_)
  unfold State.modFold
  repeat' (first | with_reducible assumption | intro _ _ hk | with_reducible apply touch_ite | ((fail_if_success (with_reducible refine touch_eta ?_)); with_reducible refine touch_lit11 ?_) | dsimp only | split)

theorem touch_setTask {msk : Nat} {z0 : State} {s : State} {t : Nat} {x : Option Task} (hk : Touch msk z0 s)
    (hw : msk &&& 4096 = 4096 := by decide) : Touch msk z0 (State.setTask s t x) := by
  refine Touch.use hk hw (fun hk => ?_)
  unfold State.setTask
  repeat' (first | with_reducible assumption | intro _ _ hk | with_reducible apply touch_ite | ((fail_if_success (with_reducible refine touch_eta ?_)); with_reducible refine touch_lit12 ?_) | dsimp only | split)

theorem touch_modBarrier {msk : Nat} {z0 : State} {s : State} {b : Nat} {f : Barrier → Barrier} (hk : Touch msk z0 s)
    (hw : msk &&& 4096 = 4096 := by decide) : Touch msk z0 (State.modBarrier s b f) := by
  refine Touch.use hk hw (fun hk => ?_)
  unfold State.modBarrier
  repeat' (first | with_reducible assumption | intro _ _ hk | with_reducible apply touch_ite | ((fail_if_success (with_reducible refine touch_eta ?_)); with_reducible refine touch_lit12 ?_) | dsimp only | split)

theorem touch_modSigCore {msk : Nat} {z0 : State} {s : State} {c : Nat} {f : SigCore → SigCore} (hk : Touch msk z0 s)
    (hw : msk &&& 16384 = 16384 := by decide) : Touch msk z0 (State.modSigCore s c f) := by
  refine Touch.use hk hw (fun hk => ?_)
  unfold State.modSigCore
  repeat' (first | with_reducible assumption | intro _ _ hk | with_reducible apply touch_ite | ((fail_if_success (with_reducible refine touch_eta ?_)); with_reducible refine touch_lit14 ?_) | dsimp only | split)

theorem touch_modEngine {msk : Nat} {z0 : State} {s : State} {e : Nat} {f : Engine → Engine} (hk : Touch msk z0 s)
    (hw : msk &&& 16384 = 16384 := by decide) : Touch msk z0 (State.modEngine s e f) := by
  refine Touch.use hk hw (fun hk => ?_)
  unfold State.modEngine
  repeat' (first | with_reducible assumption | intro _ _ hk | with_reducible apply touch_ite | ((fail_if_success (with_reducible refine touch_eta ?_)); with_reducible refine touch_lit14 ?_) | dsimp only | split)

theorem touch_modCell {msk : Nat} {z0 : State} {s : State} {c : Nat} {f : Cell → Cell} (hk : Touch msk z0 s)
    (hw : msk &&& 16384 = 16384 := by decide) : Touch msk z0 (State.modCell s c f) := by
  refine Touch.use hk hw (fun hk => ?_)
  unfold State.modCell
  repeat' (first | with_reducible assumption | intro _ _ hk | with_reducible apply touch_ite | ((fail_if_success (with_reducible refine touch_eta ?_)); with_reducible refine touch_lit14 ?_) | dsimp only | split)

theorem touch_modNrx {msk : Nat} {z0 : State} {s : State} {f : Nrx → Nrx} (hk : Touch msk z0 s)
    (hw : msk &&& 16384 = 16384 := by decide) : Touch msk z0 (State.modNrx s f) := by
  refine Touch.use hk hw (fun hk => ?_)
  unfold State.modNrx
  repeat' (first | with_reducible assumption | intro _ _ hk | with_reducible apply touch_ite | ((fail_if_success (with_reducible refine touch_eta ?_)); with_reducible refine touch_lit14 ?_) | dsimp only | split)

theorem touch_modDma {msk : Nat} {z0 : State} {s : State} {e : Nat} {f : DmaEngine → DmaEngine} (hk : Touch msk z0 s)
    (hw : msk &&& 131072 = 131072 := by decide) : Touch msk z0 (State.modDma s e f) := by
  refine Touch.use hk hw (fun hk => ?_)
  unfold State.modDma
  repeat' (first | with_reducible assumption | intro _ _ hk | with_reducible apply touch_ite | ((fail_if_success (with_reducible refine touch_eta ?_)); with_reducible refine touch_lit17 ?_) | dsimp only | split)

theorem touch_modLane {msk : Nat} {z0 : State} {s : State} {l : Nat} {f : Lane → Lane} (hk : Touch msk z0 s)
    (hw : msk &&& 262144 = 262144 := by decide) : Touch msk z0 (State.modLane s l f) := by
  refine Touch.use hk hw (fun hk => ?_)
  unfold State.modLane
  repeat' (first | with_reducible assumption | intro _ _ hk | with_reducible apply touch_ite | ((fail_if_success (with_reducible refine touch_eta ?_)); with_reducible refine touch_lit18 ?_) | dsimp only | split)

theorem touch_modFhPort {msk : Nat} {z0 : State} {s : State} {p : Nat} {f : FhPort → FhPort} (hk : Touch msk z0 s)
    (hw : msk &&& 262144 = 262144 := by decide) : Touch msk z0 (State.modFhPort s p f) := by
  refine Touch.use hk hw (fun hk => ?_)
  unfold State.modFhPort
  repeat' (first | with_reducible assumption | intro _ _ hk | with_reducible apply touch_ite | ((fail_if_success (with_reducible refine touch_eta ?_)); with_reducible refine touch_lit18 ?_) | dsimp only | split)

theorem touch_modFport {msk : Nat} {z0 : State} {s : State} {p : Nat} {f : FabPort → FabPort} (hk : Touch msk z0 s)
    (hw : msk &&& 1048576 = 1048576 := by decide) : Touch msk z0 (State.modFport s p f) := by
  refine Touch.use hk hw (fun hk => ?_)
  unfold State.modFport
  repeat' (first | with_reducible assumption | intro _ _ hk | with_reducible apply touch_ite | ((fail_if_success (with_reducible refine touch_eta ?_)); with_reducible refine touch_lit20 ?_) | dsimp only | split)

theorem touch_modRegion {msk : Nat} {z0 : State} {s : State} {r : Nat} {f : Region → Region} (hk : Touch msk z0 s)
    (hw : msk &&& 2097152 = 2097152 := by decide) : Touch msk z0 (State.modRegion s r f) := by
  refine Touch.use hk hw (fun hk => ?_)
  unfold State.modRegion
  repeat' (first | with_reducible assumption | intro _ _ hk | with_reducible apply touch_ite | ((fail_if_success (with_reducible refine touch_eta ?_)); with_reducible refine touch_lit21 ?_) | dsimp only | split)

theorem touch_modCore {msk : Nat} {z0 : State} {s : State} {c : Nat} {f : CtlCore → CtlCore} (hk : Touch msk z0 s)
    (hw : msk &&& 2 = 2 := by decide) : Touch msk z0 (State.modCore s c f) := by
  refine Touch.use hk hw (fun hk => ?_)
  unfold State.modCore
  repeat' (first | with_reducible assumption | intro _ _ hk | with_reducible apply touch_ite | ((fail_if_success (with_reducible refine touch_eta ?_)); with_reducible refine touch_lit1 ?_) | dsimp only | split)

theorem touch_modTime {msk : Nat} {z0 : State} {s : State} {f : TimeBlk → TimeBlk} (hk : Touch msk z0 s)
    (hw : msk &&& 524288 = 524288 := by decide) : Touch msk z0 (State.modTime s f) := by
  refine Touch.use hk hw (fun hk => ?_)
  unfold State.modTime
  repeat' (first | with_reducible assumption | intro _ _ hk | with_reducible apply touch_ite | ((fail_if_success (with_reducible refine touch_eta ?_)); with_reducible refine touch_lit19 ?_) | dsimp only | split)

theorem touch_modShep {msk : Nat} {z0 : State} {s : State} {f : Shepherd → Shepherd} (hk : Touch msk z0 s)
    (hw : msk &&& 32768 = 32768 := by decide) : Touch msk z0 (State.modShep s f) := by
  refine Touch.use hk hw (fun hk => ?_)
  unfold State.modShep
  repeat' (first | with_reducible assumption | intro _ _ hk | with_reducible apply touch_ite | ((fail_if_success (with_reducible refine touch_eta ?_)); with_reducible refine touch_lit15 ?_) | dsimp only | split)

theorem touch_modFab {msk : Nat} {z0 : State} {s : State} {f : Fabric → Fabric} (hk : Touch msk z0 s)
    (hw : msk &&& 1048576 = 1048576 := by decide) : Touch msk z0 (State.modFab s f) := by
  refine Touch.use hk hw (fun hk => ?_)
  unfold State.modFab
  repeat' (first | with_reducible assumption | intro _ _ hk | with_reducible apply touch_ite | ((fail_if_success (with_reducible refine touch_eta ?_)); with_reducible refine touch_lit20 ?_) | dsimp only | split)

theorem touch_modFabMem {msk : Nat} {z0 : State} {s : State} {f : FabMem → FabMem} (hk : Touch msk z0 s)
    (hw : msk &&& 2097152 = 2097152 := by decide) : Touch msk z0 (State.modFabMem s f) := by
  refine Touch.use hk hw (fun hk => ?_)
  unfold State.modFabMem
  repeat' (first | with_reducible assumption | intro _ _ hk | with_reducible apply touch_ite | ((fail_if_success (with_reducible refine touch_eta ?_)); with_reducible refine touch_lit21 ?_) | dsimp only | split)

theorem touch_modProv {msk : Nat} {z0 : State} {s : State} {f : Prov → Prov} (hk : Touch msk z0 s)
    (hw : msk &&& 4194304 = 4194304 := by decide) : Touch msk z0 (State.modProv s f) := by
  refine Touch.use hk hw (fun hk => ?_)
  unfold State.modProv
  repeat' (first | with_reducible assumption | intro _ _ hk | with_reducible apply touch_ite | ((fail_if_success (with_reducible refine touch_eta ?_)); with_reducible refine touch_lit22 ?_) | dsimp only | split)

theorem touch_modHealth {msk : Nat} {z0 : State} {s : State} {f : Health → Health} (hk : Touch msk z0 s)
    (hw : msk &&& 8388608 = 8388608 := by decide) : Touch msk z0 (State.modHealth s f) := by
  refine Touch.use hk hw (fun hk => ?_)
  unfold State.modHealth
  repeat' (first | with_reducible assumption | intro _ _ hk | with_reducible apply touch_ite | ((fail_if_success (with_reducible refine touch_eta ?_)); with_reducible refine touch_lit23 ?_) | dsimp only | split)

theorem touch_modSec {msk : Nat} {z0 : State} {s : State} {f : Sec → Sec} (hk : Touch msk z0 s)
    (hw : msk &&& 67108864 = 67108864 := by decide) : Touch msk z0 (State.modSec s f) := by
  refine Touch.use hk hw (fun hk => ?_)
  unfold State.modSec
  repeat' (first | with_reducible assumption | intro _ _ hk | with_reducible apply touch_ite | ((fail_if_success (with_reducible refine touch_eta ?_)); with_reducible refine touch_lit26 ?_) | dsimp only | split)

theorem touch_modPower {msk : Nat} {z0 : State} {s : State} {f : Power → Power} (hk : Touch msk z0 s)
    (hw : msk &&& 4429185024 = 4429185024 := by decide) : Touch msk z0 (State.modPower s f) := by
  refine Touch.use hk hw (fun hk => ?_)
  unfold State.modPower
  repeat' (first | with_reducible assumption | intro _ _ hk | with_reducible apply touch_ite | ((fail_if_success (with_reducible refine touch_eta ?_)); with_reducible refine touch_lit27 ?_) | dsimp only | split)

theorem touch_modPkg {msk : Nat} {z0 : State} {s : State} {f : Package → Package} (hk : Touch msk z0 s)
    (hw : msk &&& 268435456 = 268435456 := by decide) : Touch msk z0 (State.modPkg s f) := by
  refine Touch.use hk hw (fun hk => ?_)
  unfold State.modPkg
  repeat' (first | with_reducible assumption | intro _ _ hk | with_reducible apply touch_ite | ((fail_if_success (with_reducible refine touch_eta ?_)); with_reducible refine touch_lit28 ?_) | dsimp only | split)

theorem touch_modDisp {msk : Nat} {z0 : State} {s : State} {f : Dispatch → Dispatch} (hk : Touch msk z0 s)
    (hw : msk &&& 4096 = 4096 := by decide) : Touch msk z0 (State.modDisp s f) := by
  refine Touch.use hk hw (fun hk => ?_)
  unfold State.modDisp
  repeat' (first | with_reducible assumption | intro _ _ hk | with_reducible apply touch_ite | ((fail_if_success (with_reducible refine touch_eta ?_)); with_reducible refine touch_lit12 ?_) | dsimp only | split)

theorem touch_modTiers {msk : Nat} {z0 : State} {s : State} {f : Tiers → Tiers} (hk : Touch msk z0 s)
    (hw : msk &&& 512 = 512 := by decide) : Touch msk z0 (State.modTiers s f) := by
  refine Touch.use hk hw (fun hk => ?_)
  unfold State.modTiers
  repeat' (first | with_reducible assumption | intro _ _ hk | with_reducible apply touch_ite | ((fail_if_success (with_reducible refine touch_eta ?_)); with_reducible refine touch_lit9 ?_) | dsimp only | split)

theorem touch_modDev {msk : Nat} {z0 : State} {s : State} {f : Dev → Dev} (hk : Touch msk z0 s)
    (hw : msk &&& 2 = 2 := by decide) : Touch msk z0 (State.modDev s f) := by
  refine Touch.use hk hw (fun hk => ?_)
  unfold State.modDev
  repeat' (first | with_reducible assumption | intro _ _ hk | with_reducible apply touch_ite | ((fail_if_success (with_reducible refine touch_eta ?_)); with_reducible refine touch_lit1 ?_) | dsimp only | split)

theorem touch_emit {msk : Nat} {z0 : State} {s : State} {o : Output} (hk : Touch msk z0 s)
    (hw : msk &&& 536870912 = 536870912 := by decide) : Touch msk z0 (State.emit s o) := by
  refine Touch.use hk hw (fun hk => ?_)
  unfold State.emit
  repeat' (first | with_reducible assumption | intro _ _ hk | with_reducible apply touch_ite | ((fail_if_success (with_reducible refine touch_eta ?_)); with_reducible refine touch_lit29 ?_) | dsimp only | split)

theorem touch_at {msk : Nat} {z0 : State} {now : Nat} {s : State} (hk : Touch msk z0 s)
    (hw : msk &&& 524288 = 524288 := by decide) : Touch msk z0 (State.at now s) := by
  refine Touch.use hk hw (fun hk => ?_)
  unfold State.at
  repeat' (first | with_reducible assumption | intro _ _ hk | with_reducible apply touch_ite | ((fail_if_success (with_reducible refine touch_eta ?_)); with_reducible refine touch_lit19 ?_) | dsimp only | split)

theorem touch_putRecord {msk : Nat} {z0 : State} {k : Nat} {ev : EvRecord} {s : State} (hk : Touch msk z0 s)
    (hw : msk &&& 4831839248 = 4831839248 := by decide) : Touch msk z0 (State.putRecord k ev s) := by
  refine Touch.use hk hw (fun hk => ?_)
  unfold State.putRecord
  repeat' (first | with_reducible assumption | intro _ _ hk | with_reducible apply touch_ite | with_reducible refine touch_emit ?_ | with_reducible refine touch_modRing ?_ | with_reducible refine touch_wrCompanionMem ?_ | with_reducible refine touch_wr ?_ | dsimp only | split)

theorem touch_postRecord {msk : Nat} {z0 : State} {k : Nat} {ev : EvRecord} {s : State} (hk : Touch msk z0 s)
    (hw : msk &&& 4831839248 = 4831839248 := by decide) : Touch msk z0 (State.postRecord k ev s) := by
  refine Touch.use hk hw (fun hk => ?_)
  unfold State.postRecord
  repeat' (first | with_reducible assumption | intro _ _ hk | with_reducible apply touch_ite | with_reducible refine touch_modRing ?_ | with_reducible refine touch_putRecord ?_ | dsimp only | split)

theorem touch_flushRing {msk : Nat} {z0 : State} {k : Nat} {x0 : Nat} {s : State} (hk : Touch msk z0 s)
    (hw : msk &&& 4831839248 = 4831839248 := by decide) : Touch msk z0 (State.flushRing k x0 s) := by
  refine Touch.use hk hw (fun hq => ?_)
  suffices h : ∀ z, Touch 4831839248 z s → Touch 4831839248 z (State.flushRing k x0 s) from h _ hq
  clear hq hk hw
  intro z0 hk
  induction x0 generalizing s with
  | zero =>
    first | exact hk | (simp only [State.flushRing]; repeat' (first | with_reducible assumption | intro _ _ hk | with_reducible apply touch_ite | with_reducible refine touch_modRing ?_ | with_reducible refine touch_putRecord ?_ | dsimp only | split))
  | succ n ih =>
    simp only [State.flushRing]
    repeat' (first | with_reducible assumption | with_reducible apply ih | intro _ _ hk | with_reducible apply touch_ite | with_reducible refine touch_modRing ?_ | with_reducible refine touch_putRecord ?_ | dsimp only | split)

theorem touch_raiseTo {msk : Nat} {z0 : State} {code : Nat} {inst : Nat} {srcType : Nat} {srcIdx : Nat} {payload : Nat} {holder : Role × Nat} {s : State} (hk : Touch msk z0 s)
    (hw : msk &&& 4831839248 = 4831839248 := by decide) : Touch msk z0 (State.raiseTo code inst srcType srcIdx payload holder s) := by
  refine Touch.use hk hw (fun hk => ?_)
  unfold State.raiseTo
  repeat' (first | with_reducible assumption | with_reducible refine touch_forEach ?_ ?_ | intro _ _ hk | with_reducible apply touch_ite | with_reducible refine touch_postRecord ?_ | dsimp only | split)

theorem touch_raise {msk : Nat} {z0 : State} {code : Nat} {inst : Nat} {u : UnitId} {payload : Nat} {s : State} (hk : Touch msk z0 s)
    (hw : msk &&& 4831839248 = 4831839248 := by decide) : Touch msk z0 (State.raise code inst u payload s) := by
  refine Touch.use hk hw (fun hk => ?_)
  unfold State.raise
  repeat' (first | with_reducible assumption | intro _ _ hk | with_reducible apply touch_ite | with_reducible refine touch_raiseTo ?_ | dsimp only | split)

theorem touch_provWrite {msk : Nat} {z0 : State} {b : Bytes} {s : State} (hk : Touch msk z0 s)
    (hw : msk &&& 4299162624 = 4299162624 := by decide) : Touch msk z0 (State.provWrite b s) := by
  refine Touch.use hk hw (fun hk => ?_)
  unfold State.provWrite
  repeat' (first | with_reducible assumption | intro _ _ hk | with_reducible apply touch_ite | with_reducible refine touch_modProv ?_ | with_reducible refine touch_wrCompanionMem ?_ | with_reducible refine touch_wr ?_ | dsimp only | split)

theorem touch_provPut {msk : Nat} {z0 : State} {b : Bytes} {s : State} (hk : Touch msk z0 s)
    (hw : msk &&& 4299162624 = 4299162624 := by decide) : Touch msk z0 (State.provPut b s) := by
  refine Touch.use hk hw (fun hk => ?_)
  unfold State.provPut
  repeat' (first | with_reducible assumption | intro _ _ hk | with_reducible apply touch_ite | with_reducible refine touch_modProv ?_ | with_reducible refine touch_provWrite ?_ | dsimp only | split)

theorem touch_rootUnsigned {msk : Nat} {z0 : State} {interval : Nat} {s : State} (hk : Touch msk z0 s)
    (hw : msk &&& 4366271488 = 4366271488 := by decide) : Touch msk z0 (State.rootUnsigned interval s) := by
  refine Touch.use hk hw (fun hk => ?_)
  unfold State.rootUnsigned
  repeat' (first | with_reducible assumption | intro _ _ hk | with_reducible apply touch_ite | with_reducible refine touch_modSec ?_ | with_reducible refine touch_provPut ?_ | dsimp only | split)

theorem touch_enqueue {msk : Nat} {z0 : State} {r : SignReq} {s : State} (hk : Touch msk z0 s)
    (hw : msk &&& 4366271488 = 4366271488 := by decide) : Touch msk z0 (State.enqueue r s) := by
  refine Touch.use hk hw (fun hk => ?_)
  unfold State.enqueue
  repeat' (first | with_reducible assumption | intro _ _ hk | with_reducible apply touch_ite | with_reducible refine touch_modSec ?_ | with_reducible refine touch_rootUnsigned ?_ | dsimp only | split)

theorem touch_writeBatch {msk : Nat} {z0 : State} {rs : List LRecord} {s : State} (hk : Touch msk z0 s)
    (hw : msk &&& 4391437312 = 4391437312 := by decide) : Touch msk z0 (State.writeBatch rs s) := by
  refine Touch.use hk hw (fun hk => ?_)
  unfold State.writeBatch
  repeat' (first | with_reducible assumption | intro _ _ hk | with_reducible apply touch_ite | with_reducible refine touch_enqueue ?_ | ((fail_if_success (with_reducible refine touch_eta ?_)); with_reducible refine touch_lit23 ?_) | ((fail_if_success (with_reducible refine touch_eta ?_)); with_reducible refine touch_lit24 ?_) | dsimp only | split)

theorem touch_closeBatch {msk : Nat} {z0 : State} {s : State} (hk : Touch msk z0 s)
    (hw : msk &&& 4391437312 = 4391437312 := by decide) : Touch msk z0 (State.closeBatch s) := by
  refine Touch.use hk hw (fun hk => ?_)
  unfold State.closeBatch
  repeat' (first | with_reducible assumption | intro _ _ hk | with_reducible apply touch_ite | with_reducible refine touch_writeBatch ?_ | ((fail_if_success (with_reducible refine touch_eta ?_)); with_reducible refine touch_lit23 ?_) | dsimp only | split)

theorem touch_ledgerWith {msk : Nat} {z0 : State} {type : Nat} {src : UnitId} {body : LBody} {snap : Option Bytes} {s : State} (hk : Touch msk z0 s)
    (hw : msk &&& 8388608 = 8388608 := by decide) : Touch msk z0 (State.ledgerWith type src body snap s) := by
  refine Touch.use hk hw (fun hk => ?_)
  unfold State.ledgerWith
  repeat' (first | with_reducible assumption | (rename_i hq; have hz := congrArg Prod.snd hq; dsimp only at hz; subst hz; try clear hq) | (have hz := congrArg Prod.snd ‹_ = (_, _)›; dsimp only at hz; subst hz) | intro _ _ hk | with_reducible apply touch_ite | with_reducible refine touch_snapshot ?_ | ((fail_if_success (with_reducible refine touch_eta ?_)); with_reducible refine touch_lit23 ?_) | dsimp only | split)

theorem touch_ledger {msk : Nat} {z0 : State} {type : Nat} {src : UnitId} {body : LBody} {s : State} (hk : Touch msk z0 s)
    (hw : msk &&& 8388608 = 8388608 := by decide) : Touch msk z0 (State.ledger type src body s) := by
  refine Touch.use hk hw (fun hk => ?_)
  unfold State.ledger
  repeat' (first | with_reducible assumption | intro _ _ hk | with_reducible apply touch_ite | with_reducible refine touch_ledgerWith ?_ | dsimp only | split)

theorem touch_reserveInc {msk : Nat} {z0 : State} {u : UnitId} {s : State} (hk : Touch msk z0 s)
    (hw : msk &&& 4391437312 = 4391437312 := by decide) : Touch msk z0 (State.reserveInc u s) := by
  refine Touch.use hk hw (fun hk => ?_)
  unfold State.reserveInc
  repeat' (first | with_reducible assumption | intro _ _ hk | with_reducible apply touch_ite | with_reducible refine touch_closeBatch ?_ | with_reducible refine touch_writeBatch ?_ | ((fail_if_success (with_reducible refine touch_eta ?_)); with_reducible refine touch_lit23 ?_) | ((fail_if_success (with_reducible refine touch_eta ?_)); with_reducible refine touch_lit24 ?_) | dsimp only | split)

theorem touch_tableChange {msk : Nat} {z0 : State} {s : State} (hk : Touch msk z0 s)
    (hw : msk &&& 4831839252 = 4831839252 := by decide) : Touch msk z0 (State.tableChange s) := by
  refine Touch.use hk hw (fun hk => ?_)
  unfold State.tableChange
  repeat' (first | with_reducible assumption | intro _ _ hk | with_reducible apply touch_ite | with_reducible refine touch_raise ?_ | ((fail_if_success (with_reducible refine touch_eta ?_)); with_reducible refine touch_lit2 ?_) | dsimp only | split)

theorem touch_fenceClock {msk : Nat} {z0 : State} {u : UnitId} {old : UState} {new : UState} {s : State} (hk : Touch msk z0 s)
    (hw : msk &&& 8388608 = 8388608 := by decide) : Touch msk z0 (State.fenceClock u old new s) := by
  refine Touch.use hk hw (fun hk => ?_)
  unfold State.fenceClock
  repeat' (first | with_reducible assumption | intro _ _ hk | with_reducible apply touch_ite | ((fail_if_success (with_reducible refine touch_eta ?_)); with_reducible refine touch_lit23 ?_) | dsimp only | split)

theorem touch_announce {msk : Nat} {z0 : State} {u : UnitId} {old : UState} {new : UState} {s : State} (hk : Touch msk z0 s)
    (hw : msk &&& 4840227856 = 4840227856 := by decide) : Touch msk z0 (State.announce u old new s) := by
  refine Touch.use hk hw (fun hk => ?_)
  unfold State.announce
  repeat' (first | with_reducible assumption | intro _ _ hk | with_reducible apply touch_ite | with_reducible refine touch_fenceClock ?_ | with_reducible refine touch_ledger ?_ | with_reducible refine touch_raise ?_ | dsimp only | split)

theorem touch_setEntry {msk : Nat} {z0 : State} {u : UnitId} {f : UnitEntry → UnitEntry} {s : State} (hk : Touch msk z0 s)
    (hw : msk &&& 4840227860 = 4840227860 := by decide) : Touch msk z0 (State.setEntry u f s) := by
  refine Touch.use hk hw (fun hk => ?_)
  unfold State.setEntry
  repeat' (first | with_reducible assumption | with_reducible refine touch_forEach ?_ ?_ | intro _ _ hk | with_reducible apply touch_ite | with_reducible refine touch_announce ?_ | with_reducible refine touch_tableChange ?_ | ((fail_if_success (with_reducible refine touch_eta ?_)); with_reducible refine touch_lit2 ?_) | dsimp only | split)

theorem touch_setUnit {msk : Nat} {z0 : State} {u : UnitId} {new : UState} {s : State} (hk : Touch msk z0 s)
    (hw : msk &&& 4840227860 = 4840227860 := by decide) : Touch msk z0 (State.setUnit u new s) := by
  refine Touch.use hk hw (fun hk => ?_)
  unfold State.setUnit
  repeat' (first | with_reducible assumption | intro _ _ hk | with_reducible apply touch_ite | with_reducible refine touch_setEntry ?_ | dsimp only | split)

theorem touch_firstNumber {msk : Nat} {z0 : State} {u : UnitId} {s : State} (hk : Touch msk z0 s)
    (hw : msk &&& 4928308244 = 4928308244 := by decide) : Touch msk z0 (State.firstNumber u s) := by
  refine Touch.use hk hw (fun hk => ?_)
  unfold State.firstNumber
  repeat' (first | with_reducible assumption | intro _ _ hk | with_reducible apply touch_ite | with_reducible refine touch_reserveInc ?_ | with_reducible refine touch_setEntry ?_ | dsimp only | split)

theorem touch_initialise {msk : Nat} {z0 : State} {u : UnitId} {s : State} (hk : Touch msk z0 s)
    (hw : msk &&& 4928308244 = 4928308244 := by decide) : Touch msk z0 (State.initialise u s) := by
  refine Touch.use hk hw (fun hk => ?_)
  unfold State.initialise
  repeat' (first | with_reducible assumption | intro _ _ hk | with_reducible apply touch_ite | with_reducible refine touch_firstNumber ?_ | with_reducible refine touch_reserveInc ?_ | with_reducible refine touch_setEntry ?_ | ((fail_if_success (with_reducible refine touch_eta ?_)); with_reducible refine touch_lit2 ?_) | dsimp only | split)

theorem touch_setDevice {msk : Nat} {z0 : State} {new : DState} {s : State} (hk : Touch msk z0 s)
    (hw : msk &&& 4831839250 = 4831839250 := by decide) : Touch msk z0 (State.setDevice new s) := by
  refine Touch.use hk hw (fun hk => ?_)
  unfold State.setDevice
  repeat' (first | with_reducible assumption | intro _ _ hk | with_reducible apply touch_ite | with_reducible refine touch_raise ?_ | ((fail_if_success (with_reducible refine touch_eta ?_)); with_reducible refine touch_lit1 ?_) | dsimp only | split)

theorem touch_raiseResponse {msk : Nat} {z0 : State} {m : Nat} {s : State} (hk : Touch msk z0 s)
    (hw : msk &&& 4831839248 = 4831839248 := by decide) : Touch msk z0 (State.raiseResponse m s) := by
  refine Touch.use hk hw (fun hk => ?_)
  unfold State.raiseResponse
  repeat' (first | with_reducible assumption | intro _ _ hk | with_reducible apply touch_ite | with_reducible refine touch_postRecord ?_ | dsimp only | split)

theorem touch_writeResponse {msk : Nat} {z0 : State} {m : Nat} {c : Cmd} {bs : Bytes} {s : State} (hk : Touch msk z0 s)
    (hw : msk &&& 4831839256 = 4831839256 := by decide) : Touch msk z0 (State.writeResponse m c bs s) := by
  refine Touch.use hk hw (fun hk => ?_)
  unfold State.writeResponse
  repeat' (first | with_reducible assumption | intro _ _ hk | with_reducible apply touch_ite | with_reducible refine touch_modMbox ?_ | with_reducible refine touch_raiseResponse ?_ | with_reducible refine touch_wrCompanionMem ?_ | with_reducible refine touch_wr ?_ | dsimp only | split)

theorem touch_respond {msk : Nat} {z0 : State} {m : Nat} {c : Cmd} {st : Status} {result : Bytes} {pending : Bool} {s : State} (hk : Touch msk z0 s)
    (hw : msk &&& 4831839256 = 4831839256 := by decide) : Touch msk z0 (State.respond m c st result pending s) := by
  refine Touch.use hk hw (fun hk => ?_)
  unfold State.respond
  repeat' (first | with_reducible assumption | intro _ _ hk | with_reducible apply touch_ite | with_reducible refine touch_modMbox ?_ | with_reducible refine touch_writeResponse ?_ | dsimp only | split)

theorem touch_commandDone {msk : Nat} {z0 : State} {m : Nat} {seq : Nat} {opcode : Nat} {st : Status} {s : State} (hk : Touch msk z0 s)
    (hw : msk &&& 4831839256 = 4831839256 := by decide) : Touch msk z0 (State.commandDone m seq opcode st s) := by
  refine Touch.use hk hw (fun hk => ?_)
  unfold State.commandDone
  repeat' (first | with_reducible assumption | intro _ _ hk | with_reducible apply touch_ite | with_reducible refine touch_modMbox ?_ | with_reducible refine touch_raiseTo ?_ | dsimp only | split)

theorem touch_dropAssumed {msk : Nat} {z0 : State} {cells : List Nat} {s : State} (hk : Touch msk z0 s)
    (hw : msk &&& 16384 = 16384 := by decide) : Touch msk z0 (State.dropAssumed cells s) := by
  refine Touch.use hk hw (fun hk => ?_)
  unfold State.dropAssumed
  repeat' (first | with_reducible assumption | with_reducible refine touch_forEach ?_ ?_ | intro _ _ hk | with_reducible apply touch_ite | with_reducible refine touch_modCell ?_ | dsimp only | split)

theorem touch_stopLong {msk : Nat} {z0 : State} {m : Nat} {seq : Nat} {s : State} (hk : Touch msk z0 s)
    (hw : msk &&& 75513856 = 75513856 := by decide) : Touch msk z0 (State.stopLong m seq s) := by
  refine Touch.use hk hw (fun hk => ?_)
  unfold State.stopLong
  repeat' (first | with_reducible assumption | with_reducible refine touch_forEach ?_ ?_ | intro _ _ hk | with_reducible apply touch_ite | with_reducible refine touch_dropAssumed ?_ | with_reducible refine touch_modHealth ?_ | with_reducible refine touch_modNrx ?_ | with_reducible refine touch_modSec ?_ | dsimp only | split)

theorem touch_cancelLong {msk : Nat} {z0 : State} {m : Nat} {s : State} (hk : Touch msk z0 s)
    (hw : msk &&& 4907353112 = 4907353112 := by decide) : Touch msk z0 (State.cancelLong m s) := by
  refine Touch.use hk hw (fun hk => ?_)
  unfold State.cancelLong
  repeat' (first | with_reducible assumption | with_reducible refine touch_forEach ?_ ?_ | intro _ _ hk | with_reducible apply touch_ite | with_reducible refine touch_commandDone ?_ | with_reducible refine touch_stopLong ?_ | dsimp only | split)

theorem touch_evidence {msk : Nat} {z0 : State} {code : Nat} {fold : Option Nat} {s : State} (hk : Touch msk z0 s)
    (hw : msk &&& 8388608 = 8388608 := by decide) : Touch msk z0 (State.evidence code fold s) := by
  refine Touch.use hk hw (fun hk => ?_)
  unfold State.evidence
  repeat' (first | with_reducible assumption | intro _ _ hk | with_reducible apply touch_ite | ((fail_if_success (with_reducible refine touch_eta ?_)); with_reducible refine touch_lit23 ?_) | dsimp only | split)

theorem touch_sramCorrectedEv {msk : Nat} {z0 : State} {s : State} (hk : Touch msk z0 s)
    (hw : msk &&& 8388608 = 8388608 := by decide) : Touch msk z0 (State.sramCorrectedEv s) := by
  refine Touch.use hk hw (fun hk => ?_)
  unfold State.sramCorrectedEv
  repeat' (first | with_reducible assumption | intro _ _ hk | with_reducible apply touch_ite | with_reducible refine touch_evidence ?_ | ((fail_if_success (with_reducible refine touch_eta ?_)); with_reducible refine touch_lit23 ?_) | dsimp only | split)

theorem touch_hbm2Ev {msk : Nat} {z0 : State} {s : State} (hk : Touch msk z0 s)
    (hw : msk &&& 8388608 = 8388608 := by decide) : Touch msk z0 (State.hbm2Ev s) := by
  refine Touch.use hk hw (fun hk => ?_)
  unfold State.hbm2Ev
  repeat' (first | with_reducible assumption | intro _ _ hk | with_reducible apply touch_ite | with_reducible refine touch_evidence ?_ | ((fail_if_success (with_reducible refine touch_eta ?_)); with_reducible refine touch_lit23 ?_) | dsimp only | split)

theorem touch_snapshot {msk : Nat} {z0 : State} {s : State} {u : UnitId} {clock : Nat} {shape : Nat} {fmt : Nat} {cls : Nat} {bin : Nat} (hk : Touch msk z0 s)
    (hw : msk &&& 1073741824 = 1073741824 := by decide) : Touch msk z0 (State.snapshot s u clock shape fmt cls bin).2 := by
  refine Touch.use hk hw (fun hk => ?_)
  unfold State.snapshot
  repeat' (first | with_reducible assumption | (rename_i hq; have hz := congrArg Prod.snd hq; dsimp only at hz; subst hz; try clear hq) | (have hz := congrArg Prod.snd ‹_ = (_, _)›; dsimp only at hz; subst hz) | intro _ _ hk | with_reducible apply touch_ite | with_reducible refine touch_takeFree ?_ | refine touch_act ?_ (by assumption) | dsimp only | split)

theorem touch_ledgerSnap {msk : Nat} {z0 : State} {type : Nat} {u : UnitId} {body : LBody} {s : State} (hk : Touch msk z0 s)
    (hw : msk &&& 1082130432 = 1082130432 := by decide) : Touch msk z0 (State.ledgerSnap type u body s) := by
  refine Touch.use hk hw (fun hk => ?_)
  unfold State.ledgerSnap
  repeat' (first | with_reducible assumption | (rename_i hq; have hz := congrArg Prod.snd hq; dsimp only at hz; subst hz; try clear hq) | (have hz := congrArg Prod.snd ‹_ = (_, _)›; dsimp only at hz; subst hz) | intro _ _ hk | with_reducible apply touch_ite | with_reducible refine touch_ledgerWith ?_ | with_reducible refine touch_snapshot ?_ | dsimp only | split)

theorem touch_endTile {msk : Nat} {z0 : State} {f : Nat} {st : Status} {s : State} (hk : Touch msk z0 s)
    (hw : msk &&& 2048 = 2048 := by decide) : Touch msk z0 (State.endTile f st s) := by
  refine Touch.use hk hw (fun hk => ?_)
  unfold State.endTile
  repeat' (first | with_reducible assumption | intro _ _ hk | with_reducible apply touch_ite | with_reducible refine touch_modFold ?_ | dsimp only | split)

theorem touch_raiseIrq {msk : Nat} {z0 : State} {core : Nat} {k : Nat} {s : State} (hk : Touch msk z0 s)
    (hw : msk &&& 16384 = 16384 := by decide) : Touch msk z0 (State.raiseIrq core k s) := by
  refine Touch.use hk hw (fun hk => ?_)
  unfold State.raiseIrq
  repeat' (first | with_reducible assumption | intro _ _ hk | with_reducible apply touch_ite | with_reducible refine touch_modSigCore ?_ | dsimp only | split)

theorem touch_endWaiter {msk : Nat} {z0 : State} {w : Nat} {st : Status} {s : State} (hk : Touch msk z0 s)
    (hw : msk &&& 133120 = 133120 := by decide) : Touch msk z0 (State.endWaiter w st s) := by
  refine Touch.use hk hw (fun hk => ?_)
  unfold State.endWaiter
  repeat' (first | with_reducible assumption | intro _ _ hk | with_reducible apply touch_ite | with_reducible refine touch_endTile ?_ | with_reducible refine touch_modDma ?_ | dsimp only | split)

theorem touch_logDirty {msk : Nat} {z0 : State} {a : Nat} {n : Nat} {s : State} (hk : Touch msk z0 s)
    (hw : msk &&& 4294968448 = 4294968448 := by decide) : Touch msk z0 (State.logDirty a n s) := by
  refine Touch.use hk hw (fun hk => ?_)
  unfold State.logDirty
  repeat' (first | with_reducible assumption | with_reducible refine touch_forEach ?_ ?_ | intro _ _ hk | with_reducible apply touch_ite | with_reducible refine touch_modInst ?_ | with_reducible refine touch_wrCompanionMem ?_ | with_reducible refine touch_wr ?_ | dsimp only | split)

theorem touch_wrCompanion {msk : Nat} {z0 : State} {a : Nat} {bs : Bytes} {s : State} (hk : Touch msk z0 s)
    (hw : msk &&& 4294968448 = 4294968448 := by decide) : Touch msk z0 (State.wrCompanion a bs s) := by
  refine Touch.use hk hw (fun hk => ?_)
  unfold State.wrCompanion
  repeat' (first | with_reducible assumption | intro _ _ hk | with_reducible apply touch_ite | with_reducible refine touch_logDirty ?_ | with_reducible refine touch_wrCompanionMem ?_ | with_reducible refine touch_wr ?_ | dsimp only | split)

theorem touch_countSpoof {msk : Nat} {z0 : State} {k : Nat} {inst : Option Nat} {s : State} (hk : Touch msk z0 s)
    (hw : msk &&& 4831839632 = 4831839632 := by decide) : Touch msk z0 (State.countSpoof k inst s) := by
  refine Touch.use hk hw (fun hk => ?_)
  unfold State.countSpoof
  repeat' (first | with_reducible assumption | intro _ _ hk | with_reducible apply touch_ite | with_reducible refine touch_modInst ?_ | with_reducible refine touch_raise ?_ | ((fail_if_success (with_reducible refine touch_eta ?_)); with_reducible refine touch_lit8 ?_) | dsimp only | split)

theorem touch_staleDiscard {msk : Nat} {z0 : State} {i : Nat} {s : State} (hk : Touch msk z0 s)
    (hw : msk &&& 384 = 384 := by decide) : Touch msk z0 (State.staleDiscard i s) := by
  refine Touch.use hk hw (fun hk => ?_)
  unfold State.staleDiscard
  repeat' (first | with_reducible assumption | intro _ _ hk | with_reducible apply touch_ite | with_reducible refine touch_modInst ?_ | ((fail_if_success (with_reducible refine touch_eta ?_)); with_reducible refine touch_lit8 ?_) | dsimp only | split)

/-- A command of the mailbox interface touches what its effect touches and what a response touches. -/
theorem touch_runCommand {msk : Nat} {z0 : State} {m op : Nat} {early : Cmd → State → List Err} {states : Cmd → List Nat}
    {late : Cmd → State → List Err} {effect : Cmd → State → State × Bytes × Bool} {s : State} (hk : Touch msk z0 s)
    (he : ∀ c s, Touch msk z0 s → Touch msk z0 (effect c s).1) (hw : msk &&& 4831839256 = 4831839256 := by decide) :
    Touch msk z0 (s.runCommand m op early states late effect) := by
  have h1 : ∀ {t c st r p}, Touch msk z0 t → Touch msk z0 (State.respond m c st r p t) := fun h => touch_respond h hw
  have h2 : msk &&& 8 = 8 := by
    have := congrArg (· &&& 8) hw
    rw [Nat.and_assoc] at this
    exact this
  have h3 : ∀ {t f}, Touch msk z0 t → Touch msk z0 (State.modMbox t m f) := fun h => touch_modMbox h h2
  unfold State.runCommand
  split
  · exact hk
  · exact h1 hk
  · split
    rename_i hq
    have hz := congrArg Prod.fst hq
    dsimp only at hz
    subst hz
    dsimp only
    split
    · exact h1 (h3 (he _ _ hk))
    · exact h1 (he _ _ hk)

theorem touch_dropLine {msk : Nat} {z0 : State} {line : Nat} {s : State} (hk : Touch msk z0 s)
    (hw : msk &&& 4429185024 = 4429185024 := by decide) : Touch msk z0 (State.dropLine line s) := by
  refine Touch.use hk hw (fun hk => ?_)
  unfold State.dropLine
  repeat' (first | with_reducible assumption | intro _ _ hk | with_reducible apply touch_ite | with_reducible refine touch_modPower ?_ | dsimp only | split)

theorem touch_sendMsg {msk : Nat} {z0 : State} {cls : FyfClass} {n : Nat} {o : Output} {s : State} (hk : Touch msk z0 s)
    (hw : msk &&& 4966055936 = 4966055936 := by decide) : Touch msk z0 (State.sendMsg cls n o s) := by
  refine Touch.use hk hw (fun hk => ?_)
  unfold State.sendMsg
  repeat' (first | with_reducible assumption | intro _ _ hk | with_reducible apply touch_ite | with_reducible refine touch_emit ?_ | with_reducible refine touch_modPower ?_ | dsimp only | split)

theorem touch_complete {msk : Nat} {z0 : State} {lines : Nat} {o : Output} {s : State} (hk : Touch msk z0 s)
    (hw : msk &&& 4966055936 = 4966055936 := by decide) : Touch msk z0 (State.complete lines o s) := by
  refine Touch.use hk hw (fun hk => ?_)
  unfold State.complete
  repeat' (first | with_reducible assumption | intro _ _ hk | with_reducible apply touch_ite | with_reducible refine touch_sendMsg ?_ | dsimp only | split)

theorem touch_sendRecall {msk : Nat} {z0 : State} {line : Nat} {s : State} (hk : Touch msk z0 s)
    (hw : msk &&& 4966055936 = 4966055936 := by decide) : Touch msk z0 (State.sendRecall line s) := by
  refine Touch.use hk hw (fun hk => ?_)
  unfold State.sendRecall
  repeat' (first | with_reducible assumption | intro _ _ hk | with_reducible apply touch_ite | with_reducible refine touch_modPower ?_ | with_reducible refine touch_sendMsg ?_ | dsimp only | split)

theorem touch_recallNow {msk : Nat} {z0 : State} {a : Nat} {n : Nat} {any : Bool} {s : State} (hk : Touch msk z0 s)
    (hw : msk &&& 8187282432 = 8187282432 := by decide) : Touch msk z0 (State.recallNow a n any s) := by
  refine Touch.use hk hw (fun hk => ?_)
  unfold State.recallNow
  repeat' (first | with_reducible assumption | (rename_i hq; have hz := congrArg Prod.snd hq; dsimp only at hz; subst hz; try clear hq) | (have hz := congrArg Prod.snd ‹_ = (_, _)›; dsimp only at hz; subst hz) | with_reducible refine touch_forEach ?_ ?_ | intro _ _ hk | with_reducible apply touch_ite | with_reducible refine touch_dropLine ?_ | with_reducible refine touch_emit ?_ | with_reducible refine touch_modPower ?_ | with_reducible refine touch_takeFree ?_ | with_reducible refine touch_wrCompanionMem ?_ | with_reducible refine touch_wr ?_ | dsimp only | split)

theorem touch_startRecall {msk : Nat} {z0 : State} {w : Held} {line : Nat} {s : State} (hk : Touch msk z0 s)
    (hw : msk &&& 4966055936 = 4966055936 := by decide) : Touch msk z0 (State.startRecall w line s) := by
  refine Touch.use hk hw (fun hk => ?_)
  unfold State.startRecall
  repeat' (first | with_reducible assumption | intro _ _ hk | with_reducible apply touch_ite | with_reducible refine touch_modPower ?_ | with_reducible refine touch_sendRecall ?_ | dsimp only | split)

end Sys2Proof.Machine
end

