-- ==== Sys2Proof/Laws/TouchSecOps.lean ====
section
/-! SUPPORT. Which parts of the state the operations of Sys2Proof/Machine/SecOps.lean may change. -/

namespace Sys2Proof.Machine

set_option linter.all false
set_option Elab.async false

theorem touch_extend {msk : Nat} {z0 : State} {i : Nat} {d : Bytes} {s : State} (hk : Touch msk z0 s)
    (hw : msk &&& 67108864 = 67108864 := by decide) : Touch msk z0 (State.extend i d s) := by
  refine Touch.use hk hw (fun hk => ?_)
  unfold State.extend
  repeat' (first | with_reducible assumption | intro _ _ hk | with_reducible apply touch_ite | with_reducible refine touch_modSec ?_ | dsimp only | split)

theorem touch_burnStep {msk : Nat} {z0 : State} {s : State} (hk : Touch msk z0 s)
    (hw : msk &&& 100663296 = 100663296 := by decide) : Touch msk z0 (State.burnStep s) := by
  refine Touch.use hk hw (fun hk => ?_)
  unfold State.burnStep
  repeat' (first | with_reducible assumption | intro _ _ hk | with_reducible apply touch_ite | with_reducible refine touch_modSec ?_ | ((fail_if_success (with_reducible refine touch_eta ?_)); with_reducible refine touch_lit25 ?_) | dsimp only | split)

theorem touch_exhaust {msk : Nat} {z0 : State} {s : State} (hk : Touch msk z0 s)
    (hw : msk &&& 67108864 = 67108864 := by decide) : Touch msk z0 (State.exhaust s) := by
  refine Touch.use hk hw (fun hk => ?_)
  unfold State.exhaust
  repeat' (first | with_reducible assumption | intro _ _ hk | with_reducible apply touch_ite | with_reducible refine touch_modSec ?_ | dsimp only | split)

theorem touch_identityIndex {msk : Nat} {z0 : State} {s : State} (hk : Touch msk z0 s)
    (hw : msk &&& 100663296 = 100663296 := by decide) : Touch msk z0 (State.identityIndex s).2 := by
  refine Touch.use hk hw (fun hk => ?_)
  unfold State.identityIndex
  repeat' (first | with_reducible assumption | intro _ _ hk | with_reducible apply touch_ite | with_reducible refine touch_burnStep ?_ | with_reducible refine touch_exhaust ?_ | with_reducible refine touch_modSec ?_ | dsimp only | split)

theorem touch_certify {msk : Nat} {z0 : State} {seq : Nat} {s : State} (hk : Touch msk z0 s)
    (hw : msk &&& 100663296 = 100663296 := by decide) : Touch msk z0 (State.certify seq s).2 := by
  refine Touch.use hk hw (fun hk => ?_)
  unfold State.certify
  repeat' (first | with_reducible assumption | (rename_i hq; have hz := congrArg Prod.snd hq; dsimp only at hz; subst hz; try clear hq) | (have hz := congrArg Prod.snd ‹_ = (_, _)›; dsimp only at hz; subst hz) | intro _ _ hk | with_reducible apply touch_ite | with_reducible refine touch_identityIndex ?_ | dsimp only | split)

theorem touch_switchKey {msk : Nat} {z0 : State} {s : State} (hk : Touch msk z0 s)
    (hw : msk &&& 67108864 = 67108864 := by decide) : Touch msk z0 (State.switchKey s) := by
  refine Touch.use hk hw (fun hk => ?_)
  unfold State.switchKey
  repeat' (first | with_reducible assumption | intro _ _ hk | with_reducible apply touch_ite | with_reducible refine touch_modSec ?_ | dsimp only | split)

theorem touch_sessionSign {msk : Nat} {z0 : State} {msg : Bytes} {s : State} (hk : Touch msk z0 s) {b : Bytes} {t : State}
    (ht : s.sessionSign msg = some (b, t)) (hw : msk &&& 67108864 = 67108864 := by decide) : Touch msk z0 t := by
  refine Touch.use hk hw (fun hk => ?_)
  unfold State.sessionSign at ht
  dsimp only at ht
  split at ht
  · cases ht
  · cases ht
    exact touch_switchKey (touch_modSec (touch_switchKey hk))

end Sys2Proof.Machine
end

