-- ==== Sys2Proof/Laws/TouchProvOps.lean ====
section
/-! SUPPORT. Which parts of the state the operations of Sys2Proof/Machine/ProvOps.lean may change. -/

namespace Sys2Proof.Machine

set_option linter.all false
set_option Elab.async false

theorem touch_addLeaf {msk : Nat} {z0 : State} {r : CmpRec} {pv : Bytes} {digest : Bytes} {ranks : Nat} {s : State} (hk : Touch msk z0 s)
    (hw : msk &&& 4299162624 = 4299162624 := by decide) : Touch msk z0 (State.addLeaf r pv digest ranks s) := by
  refine Touch.use hk hw (fun hk => ?_)
  unfold State.addLeaf
  repeat' (first | with_reducible assumption | intro _ _ hk | with_reducible apply touch_ite | with_reducible refine touch_modProv ?_ | with_reducible refine touch_provWrite ?_ | dsimp only | split)

theorem touch_provFlush {msk : Nat} {z0 : State} {x0 : Nat} {s : State} (hk : Touch msk z0 s)
    (hw : msk &&& 4299162624 = 4299162624 := by decide) : Touch msk z0 (State.provFlush x0 s) := by
  refine Touch.use hk hw (fun hq => ?_)
  suffices h : ∀ z, Touch 4299162624 z s → Touch 4299162624 z (State.provFlush x0 s) from h _ hq
  clear hq hk hw
  intro z0 hk
  induction x0 generalizing s with
  | zero =>
    first | exact hk | (simp only [State.provFlush]; repeat' (first | with_reducible assumption | intro _ _ hk | with_reducible apply touch_ite | with_reducible refine touch_modProv ?_ | with_reducible refine touch_provWrite ?_ | dsimp only | split))
  | succ n ih =>
    simp only [State.provFlush]
    repeat' (first | with_reducible assumption | with_reducible apply ih | intro _ _ hk | with_reducible apply touch_ite | with_reducible refine touch_modProv ?_ | with_reducible refine touch_provWrite ?_ | dsimp only | split)

theorem touch_closeInterval {msk : Nat} {z0 : State} {endAt : Nat} {s : State} (hk : Touch msk z0 s)
    (hw : msk &&& 4366271488 = 4366271488 := by decide) : Touch msk z0 (State.closeInterval endAt s) := by
  refine Touch.use hk hw (fun hk => ?_)
  unfold State.closeInterval
  repeat' (first | with_reducible assumption | intro _ _ hk | with_reducible apply touch_ite | with_reducible refine touch_enqueue ?_ | with_reducible refine touch_modProv ?_ | with_reducible refine touch_provPut ?_ | dsimp only | split)

theorem touch_closeEnded {msk : Nat} {z0 : State} {t : Nat} {x0 : Nat} {s : State} (hk : Touch msk z0 s)
    (hw : msk &&& 4366271488 = 4366271488 := by decide) : Touch msk z0 (State.closeEnded t x0 s) := by
  refine Touch.use hk hw (fun hq => ?_)
  suffices h : ∀ z, Touch 4366271488 z s → Touch 4366271488 z (State.closeEnded t x0 s) from h _ hq
  clear hq hk hw
  intro z0 hk
  induction x0 generalizing s with
  | zero =>
    first | exact hk | (simp only [State.closeEnded]; repeat' (first | with_reducible assumption | intro _ _ hk | with_reducible apply touch_ite | with_reducible refine touch_closeInterval ?_ | dsimp only | split))
  | succ n ih =>
    simp only [State.closeEnded]
    repeat' (first | with_reducible assumption | with_reducible apply ih | intro _ _ hk | with_reducible apply touch_ite | with_reducible refine touch_closeInterval ?_ | dsimp only | split)

theorem touch_provLeaf {msk : Nat} {z0 : State} {r : CmpRec} {pv : Bytes} {digest : Bytes} {ranks : Nat} {s : State} (hk : Touch msk z0 s)
    (hw : msk &&& 4366271488 = 4366271488 := by decide) : Touch msk z0 (State.provLeaf r pv digest ranks s) := by
  refine Touch.use hk hw (fun hk => ?_)
  unfold State.provLeaf
  repeat' (first | with_reducible assumption | intro _ _ hk | with_reducible apply touch_ite | with_reducible refine touch_addLeaf ?_ | with_reducible refine touch_closeEnded ?_ | dsimp only | split)

end Sys2Proof.Machine
end

