-- ==== Sys2Proof/Laws/TouchTierOps.lean ====
section
/-! SUPPORT. Which parts of the state the operations of Sys2Proof/Machine/TierOps.lean may change. -/

namespace Sys2Proof.Machine

set_option linter.all false
set_option Elab.async false

theorem touch_modCopy {msk : Nat} {z0 : State} {s : State} {e : Nat} {t : Nat} {f : Copy → Copy} (hk : Touch msk z0 s)
    (hw : msk &&& 512 = 512 := by decide) : Touch msk z0 (State.modCopy s e t f) := by
  refine Touch.use hk hw (fun hk => ?_)
  unfold State.modCopy
  repeat' (first | with_reducible assumption | intro _ _ hk | with_reducible apply touch_ite | with_reducible refine touch_modObj ?_ | dsimp only | split)

theorem touch_settleEntry {msk : Nat} {z0 : State} {e : Nat} {s : State} (hk : Touch msk z0 s)
    (hw : msk &&& 512 = 512 := by decide) : Touch msk z0 (State.settleEntry e s) := by
  refine Touch.use hk hw (fun hk => ?_)
  unfold State.settleEntry
  repeat' (first | with_reducible assumption | intro _ _ hk | with_reducible apply touch_ite | with_reducible refine touch_modObj ?_ | dsimp only | split)

theorem touch_dropCopy {msk : Nat} {z0 : State} {e : Nat} {t : Nat} {s : State} (hk : Touch msk z0 s)
    (hw : msk &&& 512 = 512 := by decide) : Touch msk z0 (State.dropCopy e t s) := by
  refine Touch.use hk hw (fun hk => ?_)
  unfold State.dropCopy
  repeat' (first | with_reducible assumption | intro _ _ hk | with_reducible apply touch_ite | with_reducible refine touch_modObj ?_ | with_reducible refine touch_settleEntry ?_ | dsimp only | split)

theorem touch_settleDrained {msk : Nat} {z0 : State} {s : State} (hk : Touch msk z0 s)
    (hw : msk &&& 512 = 512 := by decide) : Touch msk z0 (State.settleDrained s) := by
  refine Touch.use hk hw (fun hk => ?_)
  unfold State.settleDrained
  repeat' (first | with_reducible assumption | with_reducible refine touch_forEach ?_ ?_ | intro _ _ hk | with_reducible apply touch_ite | with_reducible refine touch_dropCopy ?_ | with_reducible refine touch_settleEntry ?_ | dsimp only | split)

theorem touch_nextOrder {msk : Nat} {z0 : State} {s : State} (hk : Touch msk z0 s)
    (hw : msk &&& 512 = 512 := by decide) : Touch msk z0 (State.nextOrder s).2 := by
  refine Touch.use hk hw (fun hk => ?_)
  unfold State.nextOrder
  repeat' (first | with_reducible assumption | intro _ _ hk | with_reducible apply touch_ite | ((fail_if_success (with_reducible refine touch_eta ?_)); with_reducible refine touch_lit9 ?_) | dsimp only | split)

theorem touch_unreferenced {msk : Nat} {z0 : State} {e : Nat} {t : Nat} {s : State} (hk : Touch msk z0 s)
    (hw : msk &&& 512 = 512 := by decide) : Touch msk z0 (State.unreferenced e t s) := by
  refine Touch.use hk hw (fun hk => ?_)
  unfold State.unreferenced
  repeat' (first | with_reducible assumption | (rename_i hq; have hz := congrArg Prod.snd hq; dsimp only at hz; subst hz; try clear hq) | (have hz := congrArg Prod.snd ‹_ = (_, _)›; dsimp only at hz; subst hz) | intro _ _ hk | with_reducible apply touch_ite | with_reducible refine touch_dropCopy ?_ | with_reducible refine touch_modCopy ?_ | with_reducible refine touch_modMover ?_ | with_reducible refine touch_nextOrder ?_ | with_reducible refine touch_settleEntry ?_ | dsimp only | split)

theorem touch_dropRef {msk : Nat} {z0 : State} {e : Nat} {inst : Nat} {t : Nat} {s : State} (hk : Touch msk z0 s)
    (hw : msk &&& 512 = 512 := by decide) : Touch msk z0 (State.dropRef e inst t s) := by
  refine Touch.use hk hw (fun hk => ?_)
  unfold State.dropRef
  repeat' (first | with_reducible assumption | intro _ _ hk | with_reducible apply touch_ite | with_reducible refine touch_modObj ?_ | with_reducible refine touch_unreferenced ?_ | dsimp only | split)

theorem touch_startRepair {msk : Nat} {z0 : State} {e : Nat} {t : Nat} {s : State} (hk : Touch msk z0 s)
    (hw : msk &&& 512 = 512 := by decide) : Touch msk z0 (State.startRepair e t s) := by
  refine Touch.use hk hw (fun hk => ?_)
  unfold State.startRepair
  repeat' (first | with_reducible assumption | (rename_i hq; have hz := congrArg Prod.snd hq; dsimp only at hz; subst hz; try clear hq) | (have hz := congrArg Prod.snd ‹_ = (_, _)›; dsimp only at hz; subst hz) | intro _ _ hk | with_reducible apply touch_ite | with_reducible refine touch_modCopy ?_ | with_reducible refine touch_nextOrder ?_ | dsimp only | split)

theorem touch_tierError {msk : Nat} {z0 : State} {e : Nat} {st : Status} {s : State} (hk : Touch msk z0 s)
    (hw : msk &&& 4831839248 = 4831839248 := by decide) : Touch msk z0 (State.tierError e st s) := by
  refine Touch.use hk hw (fun hk => ?_)
  unfold State.tierError
  repeat' (first | with_reducible assumption | with_reducible refine touch_forEach ?_ ?_ | intro _ _ hk | with_reducible apply touch_ite | with_reducible refine touch_raise ?_ | dsimp only | split)

theorem touch_notePoison {msk : Nat} {z0 : State} {e : Nat} {t : Nat} {part : Nat} {k : Nat} {detected : Bool} {s : State} (hk : Touch msk z0 s)
    (hw : msk &&& 5913970192 = 5913970192 := by decide) : Touch msk z0 (State.notePoison e t part k detected s) := by
  refine Touch.use hk hw (fun hk => ?_)
  unfold State.notePoison
  repeat' (first | with_reducible assumption | intro _ _ hk | with_reducible apply touch_ite | with_reducible refine touch_evidence ?_ | with_reducible refine touch_ledgerSnap ?_ | with_reducible refine touch_modCopy ?_ | with_reducible refine touch_modMover ?_ | with_reducible refine touch_startRepair ?_ | with_reducible refine touch_tierError ?_ | dsimp only | split)

theorem touch_poisonChunk {msk : Nat} {z0 : State} {e : Nat} {t : Nat} {part : Nat} {k : Nat} {line : Option Nat} {detected : Bool} {s : State} (hk : Touch msk z0 s)
    (hw : msk &&& 8061453840 = 8061453840 := by decide) : Touch msk z0 (State.poisonChunk e t part k line detected s) := by
  refine Touch.use hk hw (fun hk => ?_)
  unfold State.poisonChunk
  repeat' (first | with_reducible assumption | intro _ _ hk | with_reducible apply touch_ite | with_reducible refine touch_notePoison ?_ | ((fail_if_success (with_reducible refine touch_eta ?_)); with_reducible refine touch_lit10 ?_) | dsimp only | split)

theorem touch_cleanCopy {msk : Nat} {z0 : State} {e : Nat} {t : Nat} {s : State} (hk : Touch msk z0 s)
    (hw : msk &&& 512 = 512 := by decide) : Touch msk z0 (State.cleanCopy e t s) := by
  refine Touch.use hk hw (fun hk => ?_)
  unfold State.cleanCopy
  repeat' (first | with_reducible assumption | intro _ _ hk | with_reducible apply touch_ite | with_reducible refine touch_modCopy ?_ | dsimp only | split)

theorem touch_objWrite {msk : Nat} {z0 : State} {e : Nat} {off : Nat} {bs : Bytes} {s : State} (hk : Touch msk z0 s)
    (hw : msk &&& 8187283072 = 8187283072 := by decide) : Touch msk z0 (State.objWrite e off bs s) := by
  refine Touch.use hk hw (fun hk => ?_)
  unfold State.objWrite
  repeat' (first | with_reducible assumption | with_reducible refine touch_forEach ?_ ?_ | intro _ _ hk | with_reducible apply touch_ite | with_reducible refine touch_cleanCopy ?_ | with_reducible refine touch_modCopy ?_ | with_reducible refine touch_modObj ?_ | with_reducible refine touch_recallNow ?_ | with_reducible refine touch_wrCompanion ?_ | with_reducible refine touch_wrCompanionMem ?_ | with_reducible refine touch_wr ?_ | dsimp only | split)

theorem touch_objPoison {msk : Nat} {z0 : State} {e : Nat} {off : Nat} {n : Nat} {s : State} (hk : Touch msk z0 s)
    (hw : msk &&& 2147485184 = 2147485184 := by decide) : Touch msk z0 (State.objPoison e off n s) := by
  refine Touch.use hk hw (fun hk => ?_)
  unfold State.objPoison
  repeat' (first | with_reducible assumption | with_reducible refine touch_forEach ?_ ?_ | intro _ _ hk | with_reducible apply touch_ite | with_reducible refine touch_modCopy ?_ | ((fail_if_success (with_reducible refine touch_eta ?_)); with_reducible refine touch_lit10 ?_) | dsimp only | split)

theorem touch_loseCopy {msk : Nat} {z0 : State} {e : Nat} {t : Nat} {s : State} (hk : Touch msk z0 s)
    (hw : msk &&& 8061453840 = 8061453840 := by decide) : Touch msk z0 (State.loseCopy e t s) := by
  refine Touch.use hk hw (fun hk => ?_)
  unfold State.loseCopy
  repeat' (first | with_reducible assumption | with_reducible refine touch_forEach ?_ ?_ | intro _ _ hk | with_reducible apply touch_ite | with_reducible refine touch_modObj ?_ | with_reducible refine touch_poisonChunk ?_ | with_reducible refine touch_settleEntry ?_ | dsimp only | split)

theorem touch_loseSpace {msk : Nat} {z0 : State} {sp : Space} {s : State} (hk : Touch msk z0 s)
    (hw : msk &&& 8061453840 = 8061453840 := by decide) : Touch msk z0 (State.loseSpace sp s) := by
  refine Touch.use hk hw (fun hk => ?_)
  unfold State.loseSpace
  repeat' (first | with_reducible assumption | with_reducible refine touch_forEach ?_ ?_ | intro _ _ hk | with_reducible apply touch_ite | with_reducible refine touch_loseCopy ?_ | dsimp only | split)

theorem touch_loseStack {msk : Nat} {z0 : State} {k : Nat} {s : State} (hk : Touch msk z0 s)
    (hw : msk &&& 8061453840 = 8061453840 := by decide) : Touch msk z0 (State.loseStack k s) := by
  refine Touch.use hk hw (fun hk => ?_)
  unfold State.loseStack
  repeat' (first | with_reducible assumption | with_reducible refine touch_forEach ?_ ?_ | intro _ _ hk | with_reducible apply touch_ite | with_reducible refine touch_loseCopy ?_ | with_reducible refine touch_poisonChunk ?_ | dsimp only | split)

end Sys2Proof.Machine
end

