-- ==== Sys2Proof/Laws/TouchOperands.lean ====
section
/-! SUPPORT. Which parts of the state the operations of Sys2Proof/Machine/Operands.lean may change. -/

namespace Sys2Proof.Machine

set_option linter.all false
set_option Elab.async false

theorem touch_freeBytes {msk : Nat} {z0 : State} {x0 : Nat} {s : State} (hk : Touch msk z0 s)
    (hw : msk &&& 1073741824 = 1073741824 := by decide) : Touch msk z0 (State.freeBytes x0 s).2 := by
  refine Touch.use hk hw (fun hq => ?_)
  suffices h : ∀ z, Touch 1073741824 z s → Touch 1073741824 z (State.freeBytes x0 s).2 from h _ hq
  clear hq hk hw
  intro z0 hk
  induction x0 generalizing s with
  | zero =>
    first | exact hk | (simp only [State.freeBytes]; repeat' (first | with_reducible assumption | (rename_i hq; have hz := congrArg Prod.snd hq; dsimp only at hz; subst hz; try clear hq) | (have hz := congrArg Prod.snd ‹_ = (_, _)›; dsimp only at hz; subst hz) | intro _ _ hk | with_reducible apply touch_ite | with_reducible refine touch_takeFree ?_ | dsimp only | split))
  | succ n ih =>
    simp only [State.freeBytes]
    repeat' (first | with_reducible assumption | with_reducible apply ih | (rename_i hq; have hz := congrArg Prod.snd hq; dsimp only at hz; subst hz; try clear hq) | (have hz := congrArg Prod.snd ‹_ = (_, _)›; dsimp only at hz; subst hz) | intro _ _ hk | with_reducible apply touch_ite | with_reducible refine touch_takeFree ?_ | dsimp only | split)

theorem touch_fetchPart {msk : Nat} {z0 : State} {e : Nat} {off : Nat} {n : Nat} {f : Option Nat} {s : State} (hk : Touch msk z0 s)
    (hw : msk &&& 8187282432 = 8187282432 := by decide) : Touch msk z0 (State.fetchPart e off n f s).2 := by
  refine Touch.use hk hw (fun hk => ?_)
  unfold State.fetchPart
  repeat' (first | with_reducible assumption | (rename_i hq; have hz := congrArg Prod.snd hq; dsimp only at hz; subst hz; try clear hq) | (have hz := congrArg Prod.snd ‹_ = (_, _)›; dsimp only at hz; subst hz) | intro _ _ hk | with_reducible apply touch_ite | with_reducible refine touch_freeBytes ?_ | with_reducible refine touch_recallNow ?_ | dsimp only | split)

theorem touch_fetch {msk : Nat} {z0 : State} {e : Nat} {off : Nat} {n : Nat} {f : Option Nat} {s : State} (hk : Touch msk z0 s)
    (hw : msk &&& 8187282432 = 8187282432 := by decide) : Touch msk z0 (State.fetch e off n f s).2 := by
  refine Touch.use hk hw (fun hk => ?_)
  unfold State.fetch
  repeat' (first | with_reducible assumption | (rename_i hq; have hz := congrArg Prod.snd hq; dsimp only at hz; subst hz; try clear hq) | (have hz := congrArg Prod.snd ‹_ = (_, _)›; dsimp only at hz; subst hz) | intro _ _ hk | with_reducible apply touch_ite | with_reducible refine touch_fetchPart ?_ | dsimp only | split)

theorem touch_fetchPlane {msk : Nat} {z0 : State} {e : Nat} {off : Nat} {n : Nat} {f : Option Nat} {s : State} (hk : Touch msk z0 s)
    (hw : msk &&& 8187282432 = 8187282432 := by decide) : Touch msk z0 (State.fetchPlane e off n f s).2 := by
  refine Touch.use hk hw (fun hk => ?_)
  unfold State.fetchPlane
  repeat' (first | with_reducible assumption | (rename_i hq; have hz := congrArg Prod.snd hq; dsimp only at hz; subst hz; try clear hq) | (have hz := congrArg Prod.snd ‹_ = (_, _)›; dsimp only at hz; subst hz) | intro _ _ hk | with_reducible apply touch_ite | with_reducible refine touch_fetch ?_ | dsimp only | split)

theorem touch_weightRowAt {msk : Nat} {z0 : State} {e : Nat} {h : WHeader} {w : Nat} {f : Option Nat} {s : State} (hk : Touch msk z0 s)
    (hw : msk &&& 8187282432 = 8187282432 := by decide) : Touch msk z0 (State.weightRowAt e h w f s).2.2 := by
  refine Touch.use hk hw (fun hk => ?_)
  unfold State.weightRowAt
  repeat' (first | with_reducible assumption | (rename_i hq; have hz := congrArg Prod.snd hq; dsimp only at hz; subst hz; try clear hq) | (have hz := congrArg Prod.snd ‹_ = (_, _)›; dsimp only at hz; subst hz) | intro _ _ hk | with_reducible apply touch_ite | with_reducible refine touch_fetch ?_ | with_reducible refine touch_fetchPlane ?_ | dsimp only | split)

theorem touch_fetchAll {msk : Nat} {z0 : State} {e : Nat} {x0 : Nat} {x1 : Nat} {x2 : Nat} {s : State} (hk : Touch msk z0 s)
    (hw : msk &&& 8187282432 = 8187282432 := by decide) : Touch msk z0 (State.fetchAll e x0 x1 x2 s).2 := by
  refine Touch.use hk hw (fun hq => ?_)
  suffices h : ∀ z, Touch 8187282432 z s → Touch 8187282432 z (State.fetchAll e x0 x1 x2 s).2 from h _ hq
  clear hq hk hw
  intro z0 hk
  induction x0 generalizing x1 x2 s with
  | zero =>
    first | exact hk | (simp only [State.fetchAll]; repeat' (first | with_reducible assumption | (rename_i hq; have hz := congrArg Prod.snd hq; dsimp only at hz; subst hz; try clear hq) | (have hz := congrArg Prod.snd ‹_ = (_, _)›; dsimp only at hz; subst hz) | intro _ _ hk | with_reducible apply touch_ite | with_reducible refine touch_fetchPart ?_ | dsimp only | split))
  | succ n ih =>
    simp only [State.fetchAll]
    repeat' (first | with_reducible assumption | with_reducible apply ih | (rename_i hq; have hz := congrArg Prod.snd hq; dsimp only at hz; subst hz; try clear hq) | (have hz := congrArg Prod.snd ‹_ = (_, _)›; dsimp only at hz; subst hz) | intro _ _ hk | with_reducible apply touch_ite | with_reducible refine touch_fetchPart ?_ | dsimp only | split)

theorem touch_fetchObj {msk : Nat} {z0 : State} {h : Nat} {off : Nat} {n : Nat} {s : State} (hk : Touch msk z0 s)
    (hw : msk &&& 8187282432 = 8187282432 := by decide) : Touch msk z0 (State.fetchObj h off n s).2 := by
  refine Touch.use hk hw (fun hk => ?_)
  unfold State.fetchObj
  repeat' (first | with_reducible assumption | (rename_i hq; have hz := congrArg Prod.snd hq; dsimp only at hz; subst hz; try clear hq) | (have hz := congrArg Prod.snd ‹_ = (_, _)›; dsimp only at hz; subst hz) | intro _ _ hk | with_reducible apply touch_ite | with_reducible refine touch_fetchAll ?_ | dsimp only | split)

theorem touch_readTiles {msk : Nat} {z0 : State} {h : Nat} {x0 : Nat} {x1 : Nat} {s : State} (hk : Touch msk z0 s)
    (hw : msk &&& 8187282432 = 8187282432 := by decide) : Touch msk z0 (State.readTiles h x0 x1 s).2.2 := by
  refine Touch.use hk hw (fun hq => ?_)
  suffices h : ∀ z, Touch 8187282432 z s → Touch 8187282432 z (State.readTiles h x0 x1 s).2.2 from h _ hq
  clear hq hk hw
  intro z0 hk
  induction x0 generalizing x1 s with
  | zero =>
    first | exact hk | (simp only [State.readTiles]; repeat' (first | with_reducible assumption | (rename_i hq; have hz := congrArg Prod.snd hq; dsimp only at hz; subst hz; try clear hq) | (have hz := congrArg Prod.snd ‹_ = (_, _)›; dsimp only at hz; subst hz) | intro _ _ hk | with_reducible apply touch_ite | with_reducible refine touch_fetchObj ?_ | dsimp only | split))
  | succ n ih =>
    simp only [State.readTiles]
    repeat' (first | with_reducible assumption | with_reducible apply ih | (rename_i hq; have hz := congrArg Prod.snd (congrArg Prod.snd hq); dsimp only at hz; subst hz; try clear hq) | (rename_i hq; have hz := congrArg Prod.snd hq; dsimp only at hz; subst hz; try clear hq) | (have hz := congrArg Prod.snd ‹_ = (_, _)›; dsimp only at hz; subst hz) | (have hz := congrArg Prod.snd (congrArg Prod.snd ‹_ = (_, _, _)›); dsimp only at hz; subst hz) | intro _ _ hk | with_reducible apply touch_ite | with_reducible refine touch_fetchObj ?_ | dsimp only | split)

end Sys2Proof.Machine
end

