-- ==== Sys2Proof/Laws/TouchTiers.lean ====
section
/-! SUPPORT. Which parts of the state the operations of Sys2Proof/Machine/Tiers.lean may change. -/

namespace Sys2Proof.Machine

set_option linter.all false
set_option Elab.async false

theorem touch_createObj {msk : Nat} {z0 : State} {c : Cmd} {s : State} (hk : Touch msk z0 s)
    (hw : msk &&& 2147485184 = 2147485184 := by decide) : Touch msk z0 (State.createObj c s).2 := by
  refine Touch.use hk hw (fun hk => ?_)
  unfold State.createObj
  repeat' (first | with_reducible assumption | (rename_i hq; have hz := congrArg Prod.snd hq; dsimp only at hz; subst hz; try clear hq) | (have hz := congrArg Prod.snd ‹_ = (_, _)›; dsimp only at hz; subst hz) | with_reducible refine touch_forEach ?_ ?_ | intro _ _ hk | with_reducible apply touch_ite | with_reducible refine touch_nextOrder ?_ | with_reducible refine touch_zeroMem ?_ | ((fail_if_success (with_reducible refine touch_eta ?_)); with_reducible refine touch_lit9 ?_) | dsimp only | split)

theorem touch_joinObj {msk : Nat} {z0 : State} {e : Nat} {inst : Nat} {s : State} (hk : Touch msk z0 s)
    (hw : msk &&& 512 = 512 := by decide) : Touch msk z0 (State.joinObj e inst s) := by
  refine Touch.use hk hw (fun hk => ?_)
  unfold State.joinObj
  repeat' (first | with_reducible assumption | intro _ _ hk | with_reducible apply touch_ite | with_reducible refine touch_modObj ?_ | dsimp only | split)

theorem touch_execObjCreate {m : Fin 16} {s : State} {zt : State} (ht : execObjCreate m s = .next zt) : Touch 6979323416 s zt := by
  unfold execObjCreate at ht
  cases ht
  have hk := Touch.refl 6979323416 s
  repeat' (first | with_reducible assumption | (rename_i hq; have hz := congrArg Prod.snd hq; dsimp only at hz; subst hz; try clear hq) | (have hz := congrArg Prod.snd ‹_ = (_, _)›; dsimp only at hz; subst hz) | intro _ _ hk | with_reducible apply touch_ite | with_reducible refine touch_createObj ?_ | with_reducible refine touch_join ?_ | with_reducible refine touch_joinObj ?_ | with_reducible refine touch_runCommand ?_ ?_ | dsimp only | split)

theorem touch_promote {msk : Nat} {z0 : State} {e : Nat} {inst : Nat} {t : Nat} {place : Nat} {ctx : Nat} {s : State} (hk : Touch msk z0 s)
    (hw : msk &&& 512 = 512 := by decide) : Touch msk z0 (State.promote e inst t place ctx s) := by
  refine Touch.use hk hw (fun hk => ?_)
  unfold State.promote
  repeat' (first | with_reducible assumption | (rename_i hq; have hz := congrArg Prod.snd hq; dsimp only at hz; subst hz; try clear hq) | (have hz := congrArg Prod.snd ‹_ = (_, _)›; dsimp only at hz; subst hz) | intro _ _ hk | with_reducible apply touch_ite | with_reducible refine touch_modCopy ?_ | with_reducible refine touch_modObj ?_ | with_reducible refine touch_nextOrder ?_ | with_reducible refine touch_place ?_ | dsimp only | split)

theorem touch_execObjPromote {m : Fin 16} {s : State} {zt : State} (ht : execObjPromote m s = .next zt) : Touch 4831839768 s zt := by
  unfold execObjPromote at ht
  cases ht
  have hk := Touch.refl 4831839768 s
  repeat' (first | with_reducible assumption | intro _ _ hk | with_reducible apply touch_ite | with_reducible refine touch_promote ?_ | with_reducible refine touch_runCommand ?_ ?_ | dsimp only | split)

theorem touch_execObjEvict {m : Fin 16} {s : State} {zt : State} (ht : execObjEvict m s = .next zt) : Touch 4831839768 s zt := by
  unfold execObjEvict at ht
  cases ht
  have hk := Touch.refl 4831839768 s
  repeat' (first | with_reducible assumption | intro _ _ hk | with_reducible apply touch_ite | with_reducible refine touch_dropRef ?_ | with_reducible refine touch_runCommand ?_ ?_ | dsimp only | split)

theorem touch_execObjAlternate {m : Fin 16} {s : State} {zt : State} (ht : execObjAlternate m s = .next zt) : Touch 4831839768 s zt := by
  unfold execObjAlternate at ht
  cases ht
  have hk := Touch.refl 4831839768 s
  repeat' (first | with_reducible assumption | with_reducible refine touch_forEach ?_ ?_ | intro _ _ hk | with_reducible apply touch_ite | with_reducible refine touch_modObj ?_ | with_reducible refine touch_runCommand ?_ ?_ | with_reducible refine touch_startRepair ?_ | dsimp only | split)

theorem touch_destroyHandle {msk : Nat} {z0 : State} {e : Nat} {inst : Nat} {s : State} (hk : Touch msk z0 s)
    (hw : msk &&& 512 = 512 := by decide) : Touch msk z0 (State.destroyHandle e inst s) := by
  refine Touch.use hk hw (fun hk => ?_)
  unfold State.destroyHandle
  repeat' (first | with_reducible assumption | with_reducible refine touch_forEach ?_ ?_ | intro _ _ hk | with_reducible apply touch_ite | with_reducible refine touch_dropRef ?_ | with_reducible refine touch_modObj ?_ | with_reducible refine touch_settleEntry ?_ | dsimp only | split)

theorem touch_execObjDestroy {m : Fin 16} {s : State} {zt : State} (ht : execObjDestroy m s = .next zt) : Touch 4831839768 s zt := by
  unfold execObjDestroy at ht
  cases ht
  have hk := Touch.refl 4831839768 s
  repeat' (first | with_reducible assumption | intro _ _ hk | with_reducible apply touch_ite | with_reducible refine touch_destroyHandle ?_ | with_reducible refine touch_runCommand ?_ ?_ | dsimp only | split)

theorem touch_execObjQuery {m : Fin 16} {s : State} {zt : State} (ht : execObjQuery m s = .next zt) : Touch 4831839256 s zt := by
  unfold execObjQuery at ht
  cases ht
  have hk := Touch.refl 4831839256 s
  repeat' (first | with_reducible assumption | intro _ _ hk | with_reducible apply touch_ite | with_reducible refine touch_runCommand ?_ ?_ | dsimp only | split)

theorem touch_setChan {msk : Nat} {z0 : State} {h : Nat} {k : Nat} {x : Option Transit} {s : State} (hk : Touch msk z0 s)
    (hw : msk &&& 512 = 512 := by decide) : Touch msk z0 (State.setChan h k x s) := by
  refine Touch.use hk hw (fun hk => ?_)
  unfold State.setChan
  repeat' (first | with_reducible assumption | intro _ _ hk | with_reducible apply touch_ite | with_reducible refine touch_modMover ?_ | dsimp only | split)

theorem touch_execChunkStart {half : Fin 2} {chan : Fin 64} {s : State} {zt : State} (ht : execChunkStart half chan s = .next zt) : Touch 512 s zt := by
  unfold execChunkStart at ht
  cases ht
  have hk := Touch.refl 512 s
  repeat' (first | with_reducible assumption | intro _ _ hk | with_reducible apply touch_ite | with_reducible refine touch_place ?_ | with_reducible refine touch_setChan ?_ | with_reducible refine touch_settleDrained ?_ | dsimp only | split)

theorem touch_reportAdd {msk : Nat} {z0 : State} {e : Nat} {off : Nat} {n : Nat} {w : Nat} {s : State} (hk : Touch msk z0 s)
    (hw : msk &&& 8187283072 = 8187283072 := by decide) : Touch msk z0 (State.reportAdd e off n w s) := by
  refine Touch.use hk hw (fun hk => ?_)
  unfold State.reportAdd
  repeat' (first | with_reducible assumption | intro _ _ hk | with_reducible apply touch_ite | with_reducible refine touch_objWrite ?_ | dsimp only | split)

theorem touch_reportGuard {msk : Nat} {z0 : State} {e : Nat} {g : Guard} {s : State} (hk : Touch msk z0 s)
    (hw : msk &&& 8187283072 = 8187283072 := by decide) : Touch msk z0 (State.reportGuard e g s) := by
  refine Touch.use hk hw (fun hk => ?_)
  unfold State.reportGuard
  repeat' (first | with_reducible assumption | intro _ _ hk | with_reducible apply touch_ite | with_reducible refine touch_modObj ?_ | with_reducible refine touch_objWrite ?_ | with_reducible refine touch_reportAdd ?_ | dsimp only | split)

theorem touch_reportFill {msk : Nat} {z0 : State} {e : Nat} {s : State} (hk : Touch msk z0 s)
    (hw : msk &&& 8187283072 = 8187283072 := by decide) : Touch msk z0 (State.reportFill e s) := by
  refine Touch.use hk hw (fun hk => ?_)
  unfold State.reportFill
  repeat' (first | with_reducible assumption | intro _ _ hk | with_reducible apply touch_ite | with_reducible refine touch_objWrite ?_ | dsimp only | split)

theorem touch_reportHeader {msk : Nat} {z0 : State} {e : Nat} {s : State} (hk : Touch msk z0 s)
    (hw : msk &&& 8187283072 = 8187283072 := by decide) : Touch msk z0 (State.reportHeader e s) := by
  refine Touch.use hk hw (fun hk => ?_)
  unfold State.reportHeader
  repeat' (first | with_reducible assumption | intro _ _ hk | with_reducible apply touch_ite | with_reducible refine touch_objWrite ?_ | dsimp only | split)

theorem touch_guardMove {msk : Nat} {z0 : State} {e : Nat} {t : Nat} {mv : Nat} {h : WHeader} {r : Nat} {s : State} (hk : Touch msk z0 s)
    (hw : msk &&& 8187283072 = 8187283072 := by decide) : Touch msk z0 (State.guardMove e t mv h r s) := by
  refine Touch.use hk hw (fun hk => ?_)
  unfold State.guardMove
  repeat' (first | with_reducible assumption | intro _ _ hk | with_reducible apply touch_ite | with_reducible refine touch_reportGuard ?_ | dsimp only | split)

theorem touch_checkHeader {msk : Nat} {z0 : State} {e : Nat} {h : WHeader} {s : State} (hk : Touch msk z0 s)
    (hw : msk &&& 8187283072 = 8187283072 := by decide) : Touch msk z0 (State.checkHeader e h s) := by
  refine Touch.use hk hw (fun hk => ?_)
  unfold State.checkHeader
  repeat' (first | with_reducible assumption | intro _ _ hk | with_reducible apply touch_ite | with_reducible refine touch_modObj ?_ | with_reducible refine touch_reportHeader ?_ | dsimp only | split)

theorem touch_guardFill {msk : Nat} {z0 : State} {e : Nat} {t : Nat} {mv : Nat} {s : State} (hk : Touch msk z0 s)
    (hw : msk &&& 8187283072 = 8187283072 := by decide) : Touch msk z0 (State.guardFill e t mv s) := by
  refine Touch.use hk hw (fun hk => ?_)
  unfold State.guardFill
  repeat' (first | with_reducible assumption | with_reducible refine touch_forEach ?_ ?_ | intro _ _ hk | with_reducible apply touch_ite | with_reducible refine touch_checkHeader ?_ | with_reducible refine touch_guardMove ?_ | dsimp only | split)

theorem touch_recordSums {msk : Nat} {z0 : State} {e : Nat} {c : Copy} {s : State} (hk : Touch msk z0 s)
    (hw : msk &&& 512 = 512 := by decide) : Touch msk z0 (State.recordSums e c s) := by
  refine Touch.use hk hw (fun hk => ?_)
  unfold State.recordSums
  repeat' (first | with_reducible assumption | intro _ _ hk | with_reducible apply touch_ite | with_reducible refine touch_modObj ?_ | dsimp only | split)

theorem touch_endFill {msk : Nat} {z0 : State} {e : Nat} {t : Nat} {s : State} (hk : Touch msk z0 s)
    (hw : msk &&& 8187283072 = 8187283072 := by decide) : Touch msk z0 (State.endFill e t s) := by
  refine Touch.use hk hw (fun hk => ?_)
  unfold State.endFill
  repeat' (first | with_reducible assumption | intro _ _ hk | with_reducible apply touch_ite | with_reducible refine touch_modCopy ?_ | with_reducible refine touch_recordSums ?_ | with_reducible refine touch_reportFill ?_ | with_reducible refine touch_startRepair ?_ | dsimp only | split)

theorem touch_placeChunk {msk : Nat} {z0 : State} {src : Option (Space × Nat)} {dst : Space × Nat} {failed : Bool} {remote : Bytes} {s : State} (hk : Touch msk z0 s)
    (hw : msk &&& 8187282560 = 8187282560 := by decide) : Touch msk z0 (State.placeChunk src dst failed remote s).1 := by
  refine Touch.use hk hw (fun hk => ?_)
  unfold State.placeChunk
  repeat' (first | with_reducible assumption | intro _ _ hk | with_reducible apply touch_ite | with_reducible refine touch_dropWrite ?_ | with_reducible refine touch_logDirty ?_ | with_reducible refine touch_recallNow ?_ | ((fail_if_success (with_reducible refine touch_eta ?_)); with_reducible refine touch_lit10 ?_) | dsimp only | split)

theorem touch_poisonSource {msk : Nat} {z0 : State} {src : Option (Space × Nat)} {s : State} (hk : Touch msk z0 s)
    (hw : msk &&& 8061453840 = 8061453840 := by decide) : Touch msk z0 (State.poisonSource src s) := by
  refine Touch.use hk hw (fun hk => ?_)
  unfold State.poisonSource
  repeat' (first | with_reducible assumption | intro _ _ hk | with_reducible apply touch_ite | with_reducible refine touch_poisonChunk ?_ | dsimp only | split)

theorem touch_fillDone {msk : Nat} {z0 : State} {half : Nat} {x : Transit} {finding : ReadFinding} {remote : Bytes} {s : State}
    (hk : Touch msk z0 s) (hw : msk &&& 8195671696 = 8195671696 := by decide) :
    Touch msk z0 (State.fillDone half x finding remote s) := by
  refine Touch.use hk hw (fun hk => ?_)
  have hlast : ∀ (S : State) (o : Obj), Touch 8195671696 s S → Touch 8195671696 s
      (match (S.obj x.obj).copy x.tier with
        | some c => if c.moves o ≤ c.filled.length then S.endFill x.obj x.tier else S
        | none => S) := by
    intro S o h
    split
    · exact touch_ite (touch_endFill h) h
    · exact h
  unfold State.fillDone
  extract_lets o
  split
  · exact hk
  · split
    · exact touch_dropCopy hk
    · extract_lets p k
      split
      · exact hk
      · rename_i failed s1 _ _ _ _ _ _ _
        have h1 : Touch 8195671696 s s1 := touch_ite (touch_poisonSource hk) hk
        have h2 := fun (dst : Space × Nat) => touch_placeChunk (src := x.src) (dst := dst) (failed := failed) (remote := remote) h1
        split
        rename_i heq
        have hz := congrArg Prod.fst heq
        dsimp only at hz
        subst hz
        exact hlast _ _ (touch_modCopy (touch_guardFill (touch_ite (touch_notePoison (touch_modMover (h2 _))) (touch_modMover (h2 _)))))

theorem touch_drainDone {msk : Nat} {z0 : State} {half : Nat} {x : Transit} {s : State} (hk : Touch msk z0 s)
    (hw : msk &&& 8195671696 = 8195671696 := by decide) : Touch msk z0 (State.drainDone half x s) := by
  refine Touch.use hk hw (fun hk => ?_)
  unfold State.drainDone
  repeat' (first | with_reducible assumption | (rename_i hq; have hz := congrArg Prod.snd hq; dsimp only at hz; subst hz; try clear hq) | (have hz := congrArg Prod.snd ‹_ = (_, _)›; dsimp only at hz; subst hz) | (have hz := congrArg Prod.fst ‹_ = (_, _)›; dsimp only at hz; subst hz) | intro _ _ hk | with_reducible apply touch_ite | with_reducible refine touch_dropCopy ?_ | with_reducible refine touch_modCopy ?_ | with_reducible refine touch_modMover ?_ | with_reducible refine touch_notePoison ?_ | with_reducible refine touch_placeChunk ?_ | dsimp only | split)

theorem touch_wake {msk : Nat} {z0 : State} {e : Nat} {k : Option Nat} {st : Option Status} {s : State} (hk : Touch msk z0 s)
    (hw : msk &&& 133632 = 133632 := by decide) : Touch msk z0 (State.wake e k st s) := by
  refine Touch.use hk hw (fun hk => ?_)
  unfold State.wake
  repeat' (first | with_reducible assumption | with_reducible refine touch_forEach ?_ ?_ | intro _ _ hk | with_reducible apply touch_ite | with_reducible refine touch_endWaiter ?_ | ((fail_if_success (with_reducible refine touch_eta ?_)); with_reducible refine touch_lit9 ?_) | dsimp only | split)

theorem touch_repairDone {msk : Nat} {z0 : State} {half : Nat} {x : Transit} {finding : ReadFinding} {remote : Bytes} {s : State} (hk : Touch msk z0 s)
    (hw : msk &&& 8187416064 = 8187416064 := by decide) : Touch msk z0 (State.repairDone half x finding remote s) := by
  refine Touch.use hk hw (fun hk => ?_)
  unfold State.repairDone
  repeat' (first | with_reducible assumption | intro _ _ hk | with_reducible apply touch_ite | with_reducible refine touch_modCopy ?_ | with_reducible refine touch_modMover ?_ | with_reducible refine touch_recallNow ?_ | with_reducible refine touch_wake ?_ | ((fail_if_success (with_reducible refine touch_eta ?_)); with_reducible refine touch_lit10 ?_) | dsimp only | split)

theorem touch_chunkArrives {msk : Nat} {z0 : State} {half : Nat} {chan : Nat} {finding : ReadFinding} {remote : Bytes} {s : State} (hk : Touch msk z0 s)
    (hw : msk &&& 8195804816 = 8195804816 := by decide) : Touch msk z0 (State.chunkArrives half chan finding remote s) := by
  refine Touch.use hk hw (fun hk => ?_)
  unfold State.chunkArrives
  repeat' (first | with_reducible assumption | intro _ _ hk | with_reducible apply touch_ite | with_reducible refine touch_drainDone ?_ | with_reducible refine touch_fillDone ?_ | with_reducible refine touch_repairDone ?_ | with_reducible refine touch_setChan ?_ | dsimp only | split)

theorem touch_execChunkDone {half : Fin 2} {chan : Fin 64} {finding : ReadFinding} {remote : Bytes} {s : State} {zt : State} (ht : execChunkDone half chan finding remote s = .next zt) : Touch 8195804816 s zt := by
  unfold execChunkDone at ht
  cases ht
  have hk := Touch.refl 8195804816 s
  repeat' (first | with_reducible assumption | intro _ _ hk | with_reducible apply touch_ite | with_reducible refine touch_chunkArrives ?_ | dsimp only | split)

theorem touch_execTierLateExpiry {now : Nat} {half : Fin 2} {chan : Fin 64} {s : State} {zt : State} (ht : execTierLateExpiry now half chan s = .next zt) : Touch 526848 s zt := by
  unfold execTierLateExpiry at ht
  cases ht
  have hk := Touch.refl 526848 s
  repeat' (first | with_reducible assumption | with_reducible refine touch_forEach ?_ ?_ | intro _ _ hk | with_reducible apply touch_ite | with_reducible refine touch_at ?_ | with_reducible refine touch_endTile ?_ | with_reducible refine touch_modMover ?_ | with_reducible refine touch_setChan ?_ | dsimp only | split)

theorem touch_execRepairWaitExpiry {now : Nat} {s : State} {zt : State} (ht : execRepairWaitExpiry now s = .next zt) : Touch 657920 s zt := by
  unfold execRepairWaitExpiry at ht
  cases ht
  have hk := Touch.refl 657920 s
  repeat' (first | with_reducible assumption | with_reducible refine touch_forEach ?_ ?_ | intro _ _ hk | with_reducible apply touch_ite | with_reducible refine touch_at ?_ | with_reducible refine touch_endWaiter ?_ | ((fail_if_success (with_reducible refine touch_eta ?_)); with_reducible refine touch_lit9 ?_) | dsimp only | split)

theorem touch_retireChunk {msk : Nat} {z0 : State} {k a : Nat} {s : State} (hk : Touch msk z0 s)
    (hw : msk &&& 2147485184 = 2147485184 := by decide) : Touch msk z0 (State.retireChunk k a s) := by
  refine Touch.use hk hw (fun hk => ?_)
  have h1 : Touch 2147485184 s (({ s with tiers := { s.tiers with retired := tput s.tiers.retired (a / chunkSize * chunkSize) () } } : State).modStackCtl k
      (fun c => { c with chunksRetired := satInc 32 c.chunksRetired, event := c.event ||| 4 })) :=
    touch_modStackCtl (touch_lit9 hk)
  simp only [State.retireChunk]
  split
  · exact touch_modCopy (touch_lit10 h1)
  · exact h1

theorem touch_rowHit {msk : Nat} {z0 : State} {k : Nat} {a : Nat} {s : State} (hk : Touch msk z0 s)
    (hw : msk &&& 2155873792 = 2155873792 := by decide) : Touch msk z0 (State.rowHit k a s) := by
  refine Touch.use hk hw (fun hk => ?_)
  unfold State.rowHit
  repeat' (first | with_reducible assumption | with_reducible refine touch_forEach ?_ ?_ | intro _ _ hk | with_reducible apply touch_ite | with_reducible refine touch_evidence ?_ | with_reducible refine touch_ledger ?_ | with_reducible refine touch_modStackCtl ?_ | with_reducible refine touch_retireChunk ?_ | dsimp only | split)

theorem touch_scrubBad {msk : Nat} {z0 : State} {sp : Space} {a : Nat} {s : State} (hk : Touch msk z0 s)
    (hw : msk &&& 8061453840 = 8061453840 := by decide) : Touch msk z0 (State.scrubBad sp a s) := by
  refine Touch.use hk hw (fun hk => ?_)
  unfold State.scrubBad
  repeat' (first | with_reducible assumption | intro _ _ hk | with_reducible apply touch_ite | with_reducible refine touch_evidence ?_ | with_reducible refine touch_poisonChunk ?_ | ((fail_if_success (with_reducible refine touch_eta ?_)); with_reducible refine touch_lit10 ?_) | dsimp only | split)

theorem touch_scrubSum {msk : Nat} {z0 : State} {sp : Space} {a : Nat} {s : State} (hk : Touch msk z0 s)
    (hw : msk &&& 8061453840 = 8061453840 := by decide) : Touch msk z0 (State.scrubSum sp a s) := by
  refine Touch.use hk hw (fun hk => ?_)
  unfold State.scrubSum
  repeat' (first | with_reducible assumption | intro _ _ hk | with_reducible apply touch_ite | with_reducible refine touch_modMover ?_ | with_reducible refine touch_poisonChunk ?_ | dsimp only | split)

theorem touch_execScrubStep {u : UnitId} {address : Nat} {finding : ScrubFinding} {lastOfPass : Bool} {s : State} {zt : State} (ht : execScrubStep u address finding lastOfPass s = .next zt) : Touch 8061453840 s zt := by
  unfold execScrubStep at ht
  cases ht
  have hk := Touch.refl 8061453840 s
  repeat' (first | with_reducible assumption | intro _ _ hk | with_reducible apply touch_ite | with_reducible refine touch_hbm2Ev ?_ | with_reducible refine touch_modMover ?_ | with_reducible refine touch_modStackCtl ?_ | with_reducible refine touch_rowHit ?_ | with_reducible refine touch_scrubBad ?_ | with_reducible refine touch_scrubSum ?_ | with_reducible refine touch_sramCorrectedEv ?_ | dsimp only | split)

end Sys2Proof.Machine
end

