-- ==== Sys2Proof/Laws/TouchDmaOps.lean ====
section
/-! SUPPORT. Which parts of the state the operations of Sys2Proof/Machine/DmaOps.lean may change. -/

namespace Sys2Proof.Machine

set_option linter.all false
set_option Elab.async false

theorem touch_bindDma {msk : Nat} {z0 : State} {s : State} (hk : Touch msk z0 s)
    (hw : msk &&& 131072 = 131072 := by decide) : Touch msk z0 (State.bindDma s) := by
  refine Touch.use hk hw (fun hk => ?_)
  unfold State.bindDma
  repeat' (first | with_reducible assumption | with_reducible refine touch_forEach ?_ ?_ | intro _ _ hk | with_reducible apply touch_ite | with_reducible refine touch_modDma ?_ | dsimp only | split)

theorem touch_modChan {msk : Nat} {z0 : State} {e : Nat} {c : Nat} {f : DmaChan → DmaChan} {s : State} (hk : Touch msk z0 s)
    (hw : msk &&& 131072 = 131072 := by decide) : Touch msk z0 (State.modChan e c f s) := by
  refine Touch.use hk hw (fun hk => ?_)
  unfold State.modChan
  repeat' (first | with_reducible assumption | intro _ _ hk | with_reducible apply touch_ite | with_reducible refine touch_modDma ?_ | dsimp only | split)

theorem touch_dmaNotify {msk : Nat} {z0 : State} {e : Nat} {c : Nat} {k : Nat} {d : Bytes} {s : State} (hk : Touch msk z0 s)
    (hw : msk &&& 6442468352 = 6442468352 := by decide) : Touch msk z0 (State.dmaNotify e c k d s) := by
  refine Touch.use hk hw (fun hk => ?_)
  unfold State.dmaNotify
  repeat' (first | with_reducible assumption | intro _ _ hk | with_reducible apply touch_ite | with_reducible refine touch_raiseIrq ?_ | with_reducible refine touch_wrCompanionMem ?_ | with_reducible refine touch_wr ?_ | dsimp only | split)

theorem touch_dmaDone {msk : Nat} {z0 : State} {e : Nat} {c : Nat} {st : Status} {bytes : Nat} {s : State} (hk : Touch msk z0 s)
    (hw : msk &&& 6442599424 = 6442599424 := by decide) : Touch msk z0 (State.dmaDone e c st bytes s) := by
  refine Touch.use hk hw (fun hk => ?_)
  unfold State.dmaDone
  repeat' (first | with_reducible assumption | intro _ _ hk | with_reducible apply touch_ite | with_reducible refine touch_dmaNotify ?_ | with_reducible refine touch_modChan ?_ | with_reducible refine touch_modDma ?_ | with_reducible refine touch_wrCompanionMem ?_ | with_reducible refine touch_wr ?_ | dsimp only | split)

theorem touch_dmaFlush {msk : Nat} {z0 : State} {e : Nat} {c : Nat} {st : Status} {x0 : Nat} {s : State} (hk : Touch msk z0 s)
    (hw : msk &&& 6442599424 = 6442599424 := by decide) : Touch msk z0 (State.dmaFlush e c st x0 s) := by
  refine Touch.use hk hw (fun hq => ?_)
  suffices h : ∀ z, Touch 6442599424 z s → Touch 6442599424 z (State.dmaFlush e c st x0 s) from h _ hq
  clear hq hk hw
  intro z0 hk
  induction x0 generalizing s with
  | zero =>
    first | exact hk | (simp only [State.dmaFlush]; repeat' (first | with_reducible assumption | intro _ _ hk | with_reducible apply touch_ite | with_reducible refine touch_dmaDone ?_ | with_reducible refine touch_modDma ?_ | dsimp only | split))
  | succ n ih =>
    simp only [State.dmaFlush]
    repeat' (first | with_reducible assumption | with_reducible apply ih | intro _ _ hk | with_reducible apply touch_ite | with_reducible refine touch_dmaDone ?_ | with_reducible refine touch_modDma ?_ | dsimp only | split)

theorem touch_dmaLose {msk : Nat} {z0 : State} {f : Nat} {slot : Nat} {s : State} (hk : Touch msk z0 s)
    (hw : msk &&& 6442599424 = 6442599424 := by decide) : Touch msk z0 (State.dmaLose f slot s) := by
  refine Touch.use hk hw (fun hk => ?_)
  unfold State.dmaLose
  repeat' (first | with_reducible assumption | intro _ _ hk | with_reducible apply touch_ite | with_reducible refine touch_dmaFlush ?_ | with_reducible refine touch_jobLost ?_ | with_reducible refine touch_modChan ?_ | dsimp only | split)

end Sys2Proof.Machine
end

