-- ==== Sys2Proof/Laws/TouchMailboxes.lean ====
section
/-! SUPPORT. Which parts of the state the operations of Sys2Proof/Machine/Mailboxes.lean may change. -/

namespace Sys2Proof.Machine

set_option linter.all false
set_option Elab.async false

theorem touch_foreignWrite {msk : Nat} {z0 : State} {m : Nat} {s : State} (hk : Touch msk z0 s)
    (hw : msk &&& 8 = 8 := by decide) : Touch msk z0 (State.foreignWrite m s) := by
  refine Touch.use hk hw (fun hk => ?_)
  unfold State.foreignWrite
  repeat' (first | with_reducible assumption | intro _ _ hk | with_reducible apply touch_ite | with_reducible refine touch_modMbox ?_ | dsimp only | split)

theorem touch_execMbxEnableWrite {m : Fin 16} {mapping : W32} {enable : Bool} {s : State} {zt : State} (ht : execMbxEnableWrite m mapping enable s = .next zt) : Touch 8 s zt := by
  unfold execMbxEnableWrite at ht
  cases ht
  have hk := Touch.refl 8 s
  repeat' (first | with_reducible assumption | intro _ _ hk | with_reducible apply touch_ite | with_reducible refine touch_foreignWrite ?_ | with_reducible refine touch_modMbox ?_ | dsimp only | split)

theorem touch_execMbxTailWrite {m : Fin 16} {mapping : W32} {tail : W16} {s : State} {zt : State} (ht : execMbxTailWrite m mapping tail s = .next zt) : Touch 8 s zt := by
  unfold execMbxTailWrite at ht
  cases ht
  have hk := Touch.refl 8 s
  repeat' (first | with_reducible assumption | intro _ _ hk | with_reducible apply touch_ite | with_reducible refine touch_foreignWrite ?_ | with_reducible refine touch_modMbox ?_ | dsimp only | split)

theorem touch_noteTurn {msk : Nat} {z0 : State} {second : Bool} {m : Nat} {s : State} (hk : Touch msk z0 s)
    (hw : msk &&& 2 = 2 := by decide) : Touch msk z0 (State.noteTurn second m s) := by
  refine Touch.use hk hw (fun hk => ?_)
  unfold State.noteTurn
  repeat' (first | with_reducible assumption | intro _ _ hk | with_reducible apply touch_ite | ((fail_if_success (with_reducible refine touch_eta ?_)); with_reducible refine touch_lit1 ?_) | dsimp only | split)

theorem touch_judge {msk : Nat} {z0 : State} {m : Nat} {c : Cmd} {argsOk : Bool} {s : State} (hk : Touch msk z0 s)
    (hw : msk &&& 4831839640 = 4831839640 := by decide) : Touch msk z0 (State.judge m c argsOk s) := by
  refine Touch.use hk hw (fun hk => ?_)
  unfold State.judge
  repeat' (first | with_reducible assumption | intro _ _ hk | with_reducible apply touch_ite | with_reducible refine touch_countSpoof ?_ | with_reducible refine touch_modMbox ?_ | with_reducible refine touch_respond ?_ | with_reducible refine touch_writeResponse ?_ | dsimp only | split)

theorem touch_takeUp {msk : Nat} {z0 : State} {m : Nat} {slotOk : Bool} {argsOk : Bool} {s : State} (hk : Touch msk z0 s)
    (hw : msk &&& 4831839640 = 4831839640 := by decide) : Touch msk z0 (State.takeUp m slotOk argsOk s) := by
  refine Touch.use hk hw (fun hk => ?_)
  unfold State.takeUp
  repeat' (first | with_reducible assumption | intro _ _ hk | with_reducible apply touch_ite | with_reducible refine touch_judge ?_ | with_reducible refine touch_modMbox ?_ | dsimp only | split)

theorem touch_execCommandTakeUp {second : Bool} {slotOk : Bool} {argsOk : Bool} {s : State} {zt : State} (ht : execCommandTakeUp second slotOk argsOk s = .next zt) : Touch 4831839642 s zt := by
  unfold execCommandTakeUp at ht
  cases ht
  have hk := Touch.refl 4831839642 s
  repeat' (first | with_reducible assumption | intro _ _ hk | with_reducible apply touch_ite | with_reducible refine touch_noteTurn ?_ | with_reducible refine touch_takeUp ?_ | dsimp only | split)

theorem touch_execMbxVersion {m : Fin 16} {s : State} {zt : State} (ht : execMbxVersion m s = .next zt) : Touch 4831839256 s zt := by
  unfold execMbxVersion at ht
  cases ht
  have hk := Touch.refl 4831839256 s
  repeat' (first | with_reducible assumption | intro _ _ hk | with_reducible apply touch_ite | with_reducible refine touch_modMbox ?_ | with_reducible refine touch_runCommand ?_ ?_ | dsimp only | split)

theorem touch_execMbxAssign {m : Fin 16} {s : State} {zt : State} (ht : execMbxAssign m s = .next zt) : Touch 4907353112 s zt := by
  unfold execMbxAssign at ht
  cases ht
  have hk := Touch.refl 4907353112 s
  repeat' (first | with_reducible assumption | intro _ _ hk | with_reducible apply touch_ite | with_reducible refine touch_cancelLong ?_ | with_reducible refine touch_modMbox ?_ | with_reducible refine touch_runCommand ?_ ?_ | dsimp only | split)

theorem touch_execDevQuery {m : Fin 16} {s : State} {zt : State} (ht : execDevQuery m s = .next zt) : Touch 4831839256 s zt := by
  unfold execDevQuery at ht
  cases ht
  have hk := Touch.refl 4831839256 s
  repeat' (first | with_reducible assumption | intro _ _ hk | with_reducible apply touch_ite | with_reducible refine touch_runCommand ?_ ?_ | dsimp only | split)

theorem touch_execEvrConfigure {m : Fin 16} {s : State} {zt : State} (ht : execEvrConfigure m s = .next zt) : Touch 4831839288 s zt := by
  unfold execEvrConfigure at ht
  cases ht
  have hk := Touch.refl 4831839288 s
  repeat' (first | with_reducible assumption | with_reducible refine touch_forEach ?_ ?_ | intro _ _ hk | with_reducible apply touch_ite | with_reducible refine touch_modRing ?_ | with_reducible refine touch_runCommand ?_ ?_ | ((fail_if_success (with_reducible refine touch_eta ?_)); with_reducible refine touch_lit5 ?_) | dsimp only | split)

theorem touch_evrHead {msk : Nat} {z0 : State} {ring : Nat} {mapping : W32} {head : W32} {s : State} (hk : Touch msk z0 s)
    (hw : msk &&& 4831839248 = 4831839248 := by decide) : Touch msk z0 (State.evrHead ring mapping head s) := by
  refine Touch.use hk hw (fun hk => ?_)
  unfold State.evrHead
  repeat' (first | with_reducible assumption | intro _ _ hk | with_reducible apply touch_ite | with_reducible refine touch_flushRing ?_ | with_reducible refine touch_modRing ?_ | dsimp only | split)

theorem touch_execEvrHeadWrite {ring : Fin 4096} {mapping : W32} {head : W32} {s : State} {zt : State} (ht : execEvrHeadWrite ring mapping head s = .next zt) : Touch 4831839248 s zt := by
  unfold execEvrHeadWrite at ht
  cases ht
  have hk := Touch.refl 4831839248 s
  repeat' (first | with_reducible assumption | intro _ _ hk | with_reducible apply touch_ite | with_reducible refine touch_evrHead ?_ | dsimp only | split)

theorem touch_evrArm {msk : Nat} {z0 : State} {ring : Nat} {mapping : W32} {arm : Bool} {s : State} (hk : Touch msk z0 s)
    (hw : msk &&& 536870928 = 536870928 := by decide) : Touch msk z0 (State.evrArm ring mapping arm s) := by
  refine Touch.use hk hw (fun hk => ?_)
  unfold State.evrArm
  repeat' (first | with_reducible assumption | intro _ _ hk | with_reducible apply touch_ite | with_reducible refine touch_emit ?_ | with_reducible refine touch_modRing ?_ | dsimp only | split)

theorem touch_execEvrArmWrite {ring : Fin 4096} {mapping : W32} {arm : Bool} {s : State} {zt : State} (ht : execEvrArmWrite ring mapping arm s = .next zt) : Touch 536870928 s zt := by
  unfold execEvrArmWrite at ht
  cases ht
  have hk := Touch.refl 536870928 s
  repeat' (first | with_reducible assumption | intro _ _ hk | with_reducible apply touch_ite | with_reducible refine touch_evrArm ?_ | dsimp only | split)

theorem touch_haltCore {msk : Nat} {z0 : State} {core : Nat} {ecc : Bool} {s : State} (hk : Touch msk z0 s)
    (hw : msk &&& 2 = 2 := by decide) : Touch msk z0 (State.haltCore core ecc s) := by
  refine Touch.use hk hw (fun hk => ?_)
  unfold State.haltCore
  repeat' (first | with_reducible assumption | intro _ _ hk | with_reducible apply touch_ite | with_reducible refine touch_modCore ?_ | dsimp only | split)

theorem touch_execWatchdogExpiry {core : Fin 8} {s : State} {zt : State} (ht : execWatchdogExpiry core s = .next zt) : Touch 2 s zt := by
  unfold execWatchdogExpiry at ht
  cases ht
  have hk := Touch.refl 2 s
  repeat' (first | with_reducible assumption | intro _ _ hk | with_reducible apply touch_ite | with_reducible refine touch_haltCore ?_ | dsimp only | split)

theorem touch_execCoreEccHalt {core : Fin 8} {s : State} {zt : State} (ht : execCoreEccHalt core s = .next zt) : Touch 2 s zt := by
  unfold execCoreEccHalt at ht
  cases ht
  have hk := Touch.refl 2 s
  repeat' (first | with_reducible assumption | intro _ _ hk | with_reducible apply touch_ite | with_reducible refine touch_haltCore ?_ | dsimp only | split)

theorem touch_answerHalted {msk : Nat} {z0 : State} {m : Nat} {s : State} (hk : Touch msk z0 s)
    (hw : msk &&& 4831839256 = 4831839256 := by decide) : Touch msk z0 (State.answerHalted m s) := by
  refine Touch.use hk hw (fun hk => ?_)
  unfold State.answerHalted
  repeat' (first | with_reducible assumption | intro _ _ hk | with_reducible apply touch_ite | with_reducible refine touch_respond ?_ | dsimp only | split)

theorem touch_execCoreRestartDone {core : Fin 8} {s : State} {zt : State} (ht : execCoreRestartDone core s = .next zt) : Touch 4840227866 s zt := by
  unfold execCoreRestartDone at ht
  cases ht
  have hk := Touch.refl 4840227866 s
  repeat' (first | with_reducible assumption | with_reducible refine touch_forEach ?_ ?_ | intro _ _ hk | with_reducible apply touch_ite | with_reducible refine touch_answerHalted ?_ | with_reducible refine touch_evidence ?_ | with_reducible refine touch_ledger ?_ | with_reducible refine touch_modCore ?_ | dsimp only | split)

theorem touch_execHeartbeatTick {now : Nat} {s : State} {zt : State} (ht : execHeartbeatTick now s = .next zt) : Touch 4832363536 s zt := by
  unfold execHeartbeatTick at ht
  cases ht
  have hk := Touch.refl 4832363536 s
  repeat' (first | with_reducible assumption | intro _ _ hk | with_reducible apply touch_ite | with_reducible refine touch_at ?_ | with_reducible refine touch_emit ?_ | with_reducible refine touch_raise ?_ | dsimp only | split)

theorem touch_execIslandClockChange {kind : IslandKind} {idx : Nat} {midHandshake : Bool} {s : State} {zt : State} (ht : execIslandClockChange kind idx midHandshake s = .next zt) : Touch 2 s zt := by
  unfold execIslandClockChange at ht
  cases ht
  have hk := Touch.refl 2 s
  repeat' (first | with_reducible assumption | intro _ _ hk | with_reducible apply touch_ite | ((fail_if_success (with_reducible refine touch_eta ?_)); with_reducible refine touch_lit1 ?_) | dsimp only | split)

end Sys2Proof.Machine
end

