-- ==== Sys2Proof/Laws/TouchFoldOps.lean ====
section
/-! SUPPORT. Which parts of the state the operations of Sys2Proof/Machine/FoldOps.lean may change. -/

namespace Sys2Proof.Machine

set_option linter.all false
set_option Elab.async false

theorem touch_accRecords {msk : Nat} {z0 : State} {accs : List (Nat × Acc)} {mode lo n : Nat} {s : State} (hk : Touch msk z0 s)
    (hw : msk &&& 1073741824 = 1073741824 := by decide) : Touch msk z0 (State.accRecords accs mode lo n s).2 := by
  refine Touch.use hk hw (fun hq => ?_)
  suffices h : ∀ z, Touch 1073741824 z s → Touch 1073741824 z (State.accRecords accs mode lo n s).2 from h _ hq
  clear hq hk hw
  intro z0 hk
  induction n generalizing lo s with
  | zero => exact hk
  | succ n ih =>
    simp only [State.accRecords]
    refine ih ?_
    split
    · exact touch_takeFree (w := 12) (touch_takeFree (w := 64) hk)
    · exact hk

theorem touch_digests {msk : Nat} {z0 : State} {f : Nat} {n : Nat} {s : State} (hk : Touch msk z0 s)
    (hw : msk &&& 2048 = 2048 := by decide) : Touch msk z0 (State.digests f n s) := by
  refine Touch.use hk hw (fun hk => ?_)
  unfold State.digests
  repeat' (first | with_reducible assumption | intro _ _ hk | with_reducible apply touch_ite | with_reducible refine touch_modFold ?_ | dsimp only | split)

theorem touch_sampleTile {msk : Nat} {z0 : State} {f : Nat} {t : Tile} {s : State} (hk : Touch msk z0 s)
    (hw : msk &&& 8187283072 = 8187283072 := by decide) : Touch msk z0 (State.sampleTile f t s) := by
  refine Touch.use hk hw (fun hk => ?_)
  unfold State.sampleTile
  repeat' (first | with_reducible assumption | intro _ _ hk | with_reducible apply touch_ite | with_reducible refine touch_objWrite ?_ | with_reducible refine touch_reportAdd ?_ | dsimp only | split)

theorem touch_countTask {msk : Nat} {z0 : State} {r : CmpRec} {s : State} (hk : Touch msk z0 s)
    (hw : msk &&& 8388608 = 8388608 := by decide) : Touch msk z0 (State.countTask r s) := by
  refine Touch.use hk hw (fun hk => ?_)
  unfold State.countTask
  repeat' (first | with_reducible assumption | intro _ _ hk | with_reducible apply touch_ite | with_reducible refine touch_jobLost ?_ | with_reducible refine touch_modHealth ?_ | dsimp only | split)

theorem touch_putCmp {msk : Nat} {z0 : State} {f : Nat} {r : CmpRec} {s : State} (hk : Touch msk z0 s)
    (hw : msk &&& 8390656 = 8390656 := by decide) : Touch msk z0 (State.putCmp f r s) := by
  refine Touch.use hk hw (fun hk => ?_)
  unfold State.putCmp
  repeat' (first | with_reducible assumption | intro _ _ hk | with_reducible apply touch_ite | with_reducible refine touch_countTask ?_ | with_reducible refine touch_modFold ?_ | dsimp only | split)

theorem touch_weightDigest {msk : Nat} {z0 : State} {h : Nat} {s : State} (hk : Touch msk z0 s)
    (hw : msk &&& 1073741824 = 1073741824 := by decide) : Touch msk z0 (State.weightDigest h s).2 := by
  refine Touch.use hk hw (fun hk => ?_)
  unfold State.weightDigest
  repeat' (first | with_reducible assumption | (rename_i hq; have hz := congrArg Prod.snd hq; dsimp only at hz; subst hz; try clear hq) | (have hz := congrArg Prod.snd ‹_ = (_, _)›; dsimp only at hz; subst hz) | intro _ _ hk | with_reducible apply touch_ite | with_reducible refine touch_freeBytes ?_ | dsimp only | split)

theorem touch_tileItems {msk : Nat} {z0 : State} {t : Task} {x0 : List (TileEntry × List PassEntry)} {x1 : Nat} {s : State} (hk : Touch msk z0 s)
    (hw : msk &&& 1073741824 = 1073741824 := by decide) : Touch msk z0 (State.tileItems t x0 x1 s).2 := by
  refine Touch.use hk hw (fun hq => ?_)
  suffices h : ∀ z, Touch 1073741824 z s → Touch 1073741824 z (State.tileItems t x0 x1 s).2 from h _ hq
  clear hq hk hw
  intro z0 hk
  induction x0 generalizing x1 s with
  | nil =>
    first | exact hk | (simp only [State.tileItems]; repeat' (first | with_reducible assumption | (rename_i hq; have hz := congrArg Prod.snd hq; dsimp only at hz; subst hz; try clear hq) | (have hz := congrArg Prod.snd ‹_ = (_, _)›; dsimp only at hz; subst hz) | intro _ _ hk | with_reducible apply touch_ite | with_reducible refine touch_weightDigest ?_ | dsimp only | split))
  | cons x r ih =>
    simp only [State.tileItems]
    repeat' (first | with_reducible assumption | with_reducible apply ih | (rename_i hq; have hz := congrArg Prod.snd hq; dsimp only at hz; subst hz; try clear hq) | (have hz := congrArg Prod.snd ‹_ = (_, _)›; dsimp only at hz; subst hz) | intro _ _ hk | with_reducible apply touch_ite | with_reducible refine touch_weightDigest ?_ | dsimp only | split)

theorem touch_provDigest {msk : Nat} {z0 : State} {t : Task} {s : State} (hk : Touch msk z0 s)
    (hw : msk &&& 1073741824 = 1073741824 := by decide) : Touch msk z0 (State.provDigest t s).2 := by
  refine Touch.use hk hw (fun hk => ?_)
  unfold State.provDigest
  repeat' (first | with_reducible assumption | (rename_i hq; have hz := congrArg Prod.snd hq; dsimp only at hz; subst hz; try clear hq) | (have hz := congrArg Prod.snd ‹_ = (_, _)›; dsimp only at hz; subst hz) | intro _ _ hk | with_reducible apply touch_ite | with_reducible refine touch_tileItems ?_ | dsimp only | split)

theorem touch_modTask {msk : Nat} {z0 : State} {n : Nat} {f : Task → Task} {s : State} (hk : Touch msk z0 s)
    (hw : msk &&& 4096 = 4096 := by decide) : Touch msk z0 (State.modTask n f s) := by
  refine Touch.use hk hw (fun hk => ?_)
  unfold State.modTask
  repeat' (first | with_reducible assumption | intro _ _ hk | with_reducible apply touch_ite | with_reducible refine touch_setTask ?_ | dsimp only | split)

theorem touch_taskEnded {msk : Nat} {z0 : State} {n : Nat} {s : State} (hk : Touch msk z0 s)
    (hw : msk &&& 4096 = 4096 := by decide) : Touch msk z0 (State.taskEnded n s) := by
  refine Touch.use hk hw (fun hk => ?_)
  unfold State.taskEnded
  repeat' (first | with_reducible assumption | intro _ _ hk | with_reducible apply touch_ite | with_reducible refine touch_modDisp ?_ | with_reducible refine touch_setTask ?_ | dsimp only | split)

theorem touch_flushRecords {msk : Nat} {z0 : State} {n : Nat} {s : State} (hk : Touch msk z0 s)
    (hw : msk &&& 1082132480 = 1082132480 := by decide) : Touch msk z0 (State.flushRecords n s) := by
  refine Touch.use hk hw (fun hk => ?_)
  unfold State.flushRecords
  repeat' (first | with_reducible assumption | (rename_i hq; have hz := congrArg Prod.snd hq; dsimp only at hz; subst hz; try clear hq) | (have hz := congrArg Prod.snd ‹_ = (_, _)›; dsimp only at hz; subst hz) | with_reducible refine touch_forEach ?_ ?_ | intro _ _ hk | with_reducible apply touch_ite | with_reducible refine touch_provDigest ?_ | with_reducible refine touch_putCmp ?_ | dsimp only | split)

theorem touch_endRank {msk : Nat} {z0 : State} {f : Nat} {slot : Nat} {tile : Nat} {s : State} (hk : Touch msk z0 s)
    (hw : msk &&& 1082136576 = 1082136576 := by decide) : Touch msk z0 (State.endRank f slot tile s) := by
  refine Touch.use hk hw (fun hk => ?_)
  unfold State.endRank
  repeat' (first | with_reducible assumption | intro _ _ hk | with_reducible apply touch_ite | with_reducible refine touch_flushRecords ?_ | with_reducible refine touch_modFold ?_ | with_reducible refine touch_modTask ?_ | with_reducible refine touch_putCmp ?_ | with_reducible refine touch_taskEnded ?_ | dsimp only | split)

theorem touch_settleRank {msk : Nat} {z0 : State} {f : Nat} {slot : Nat} {s : State} (hk : Touch msk z0 s)
    (hw : msk &&& 1082136576 = 1082136576 := by decide) : Touch msk z0 (State.settleRank f slot s) := by
  refine Touch.use hk hw (fun hk => ?_)
  unfold State.settleRank
  repeat' (first | with_reducible assumption | intro _ _ hk | with_reducible apply touch_ite | with_reducible refine touch_endRank ?_ | dsimp only | split)

theorem touch_noteTile {msk : Nat} {z0 : State} {n : Nat} {tile : Nat} {rank : Nat} {st : Status} {bytes : List (Nat × Bytes)} {s : State} (hk : Touch msk z0 s)
    (hw : msk &&& 4096 = 4096 := by decide) : Touch msk z0 (State.noteTile n tile rank st bytes s) := by
  refine Touch.use hk hw (fun hk => ?_)
  unfold State.noteTile
  repeat' (first | with_reducible assumption | intro _ _ hk | with_reducible apply touch_ite | with_reducible refine touch_modTask ?_ | dsimp only | split)

theorem touch_tileOver {msk : Nat} {z0 : State} {f : Nat} {slot : Nat} {index : Nat} {st : Status} {flags : Nat} {reserved : Bool} {bytes : List (Nat × Bytes)} {s : State} (hk : Touch msk z0 s)
    (hw : msk &&& 8394752 = 8394752 := by decide) : Touch msk z0 (State.tileOver f slot index st flags reserved bytes s) := by
  refine Touch.use hk hw (fun hk => ?_)
  unfold State.tileOver
  repeat' (first | with_reducible assumption | intro _ _ hk | with_reducible apply touch_ite | with_reducible refine touch_modFold ?_ | with_reducible refine touch_modTask ?_ | with_reducible refine touch_noteTile ?_ | with_reducible refine touch_putCmp ?_ | dsimp only | split)

theorem touch_releaseReducers {msk : Nat} {z0 : State} {n : Nat} {s : State} (hk : Touch msk z0 s)
    (hw : msk &&& 1082136576 = 1082136576 := by decide) : Touch msk z0 (State.releaseReducers n s) := by
  refine Touch.use hk hw (fun hk => ?_)
  unfold State.releaseReducers
  repeat' (first | with_reducible assumption | with_reducible refine touch_forEach ?_ ?_ | intro _ _ hk | with_reducible apply touch_ite | with_reducible refine touch_modFold ?_ | with_reducible refine touch_settleRank ?_ | with_reducible refine touch_tileOver ?_ | dsimp only | split)

theorem touch_finishTile {msk : Nat} {z0 : State} {f : Nat} {slot : Nat} {index : Nat} {st : Status} {flags : Nat} {reserved : Bool} {bytes : List (Nat × Bytes)} {s : State} (hk : Touch msk z0 s)
    (hw : msk &&& 1082136576 = 1082136576 := by decide) : Touch msk z0 (State.finishTile f slot index st flags reserved bytes s) := by
  refine Touch.use hk hw (fun hk => ?_)
  unfold State.finishTile
  repeat' (first | with_reducible assumption | intro _ _ hk | with_reducible apply touch_ite | with_reducible refine touch_releaseReducers ?_ | with_reducible refine touch_settleRank ?_ | with_reducible refine touch_tileOver ?_ | dsimp only | split)

theorem touch_foldSnapshot {msk : Nat} {z0 : State} {f : Nat} {shape : Nat} {fmt : Nat} {cls : Nat} {s : State} (hk : Touch msk z0 s)
    (hw : msk &&& 1073741824 = 1073741824 := by decide) : Touch msk z0 (State.foldSnapshot f shape fmt cls s).2.2 := by
  refine Touch.use hk hw (fun hk => ?_)
  unfold State.foldSnapshot
  repeat' (first | with_reducible assumption | (rename_i hq; have hz := congrArg Prod.snd hq; dsimp only at hz; subst hz; try clear hq) | (have hz := congrArg Prod.snd ‹_ = (_, _)›; dsimp only at hz; subst hz) | intro _ _ hk | with_reducible apply touch_ite | with_reducible refine touch_takeFree ?_ | refine touch_act ?_ (by assumption) | dsimp only | split)

theorem touch_setFences {msk : Nat} {z0 : State} {u : UnitId} {l : List FenceMode} {s : State} (hk : Touch msk z0 s)
    (hw : msk &&& 16777216 = 16777216 := by decide) : Touch msk z0 (State.setFences u l s) := by
  refine Touch.use hk hw (fun hk => ?_)
  unfold State.setFences
  repeat' (first | with_reducible assumption | intro _ _ hk | with_reducible apply touch_ite | ((fail_if_success (with_reducible refine touch_eta ?_)); with_reducible refine touch_lit24 ?_) | dsimp only | split)

theorem touch_placeCond {msk : Nat} {z0 : State} {f : Nat} {bin : Nat} {s : State} (hk : Touch msk z0 s)
    (hw : msk &&& 25165824 = 25165824 := by decide) : Touch msk z0 (State.placeCond f bin s) := by
  refine Touch.use hk hw (fun hk => ?_)
  unfold State.placeCond
  repeat' (first | with_reducible assumption | intro _ _ hk | with_reducible apply touch_ite | with_reducible refine touch_ledger ?_ | with_reducible refine touch_setFences ?_ | ((fail_if_success (with_reducible refine touch_eta ?_)); with_reducible refine touch_lit23 ?_) | dsimp only | split)

theorem touch_condCheck {msk : Nat} {z0 : State} {f : Nat} {s : State} (hk : Touch msk z0 s)
    (hw : msk &&& 25165824 = 25165824 := by decide) : Touch msk z0 (State.condCheck f s) := by
  refine Touch.use hk hw (fun hk => ?_)
  unfold State.condCheck
  repeat' (first | with_reducible assumption | intro _ _ hk | with_reducible apply touch_ite | with_reducible refine touch_placeCond ?_ | dsimp only | split)

theorem touch_mismatch {msk : Nat} {z0 : State} {f : Nat} {side : Nat} {group : Nat} {s : State} (hk : Touch msk z0 s)
    (hw : msk &&& 1098909696 = 1098909696 := by decide) : Touch msk z0 (State.mismatch f side group s) := by
  refine Touch.use hk hw (fun hk => ?_)
  unfold State.mismatch
  repeat' (first | with_reducible assumption | (rename_i hq; have hz := congrArg Prod.snd (congrArg Prod.snd hq); dsimp only at hz; subst hz; try clear hq) | (rename_i hq; have hz := congrArg Prod.snd hq; dsimp only at hz; subst hz; try clear hq) | (have hz := congrArg Prod.snd ‹_ = (_, _)›; dsimp only at hz; subst hz) | (have hz := congrArg Prod.snd (congrArg Prod.snd ‹_ = (_, _, _)›); dsimp only at hz; subst hz) | intro _ _ hk | with_reducible apply touch_ite | with_reducible refine touch_condCheck ?_ | with_reducible refine touch_foldSnapshot ?_ | with_reducible refine touch_ledgerWith ?_ | with_reducible refine touch_modFold ?_ | dsimp only | split)

theorem touch_cancelAt {msk : Nat} {z0 : State} {m : Nat} {seq : Nat} {op : Nat} {s : State} (hk : Touch msk z0 s)
    (hw : msk &&& 4831839256 = 4831839256 := by decide) : Touch msk z0 (State.cancelAt m seq op s) := by
  refine Touch.use hk hw (fun hk => ?_)
  unfold State.cancelAt
  repeat' (first | with_reducible assumption | intro _ _ hk | with_reducible apply touch_ite | with_reducible refine touch_commandDone ?_ | dsimp only | split)

theorem touch_cancelAssume {msk : Nat} {z0 : State} {s : State} (hk : Touch msk z0 s)
    (hw : msk &&& 4840244248 = 4840244248 := by decide) : Touch msk z0 (State.cancelAssume s) := by
  refine Touch.use hk hw (fun hk => ?_)
  unfold State.cancelAssume
  repeat' (first | with_reducible assumption | with_reducible refine touch_forEach ?_ ?_ | intro _ _ hk | with_reducible apply touch_ite | with_reducible refine touch_cancelAt ?_ | with_reducible refine touch_dropAssumed ?_ | with_reducible refine touch_modHealth ?_ | dsimp only | split)

theorem touch_cancelRemoval {msk : Nat} {z0 : State} {s : State} (hk : Touch msk z0 s)
    (hw : msk &&& 4966056984 = 4966056984 := by decide) : Touch msk z0 (State.cancelRemoval s) := by
  refine Touch.use hk hw (fun hk => ?_)
  unfold State.cancelRemoval
  repeat' (first | with_reducible assumption | intro _ _ hk | with_reducible apply touch_ite | with_reducible refine touch_cancelAt ?_ | with_reducible refine touch_modPower ?_ | dsimp only | split)

theorem touch_cancelNight {msk : Nat} {z0 : State} {s : State} (hk : Touch msk z0 s)
    (hw : msk &&& 4966056984 = 4966056984 := by decide) : Touch msk z0 (State.cancelNight s) := by
  refine Touch.use hk hw (fun hk => ?_)
  unfold State.cancelNight
  repeat' (first | with_reducible assumption | with_reducible refine touch_forEach ?_ ?_ | intro _ _ hk | with_reducible apply touch_ite | with_reducible refine touch_cancelAt ?_ | with_reducible refine touch_modPower ?_ | dsimp only | split)

theorem touch_enterFenced {msk : Nat} {z0 : State} {s : State} (hk : Touch msk z0 s)
    (hw : msk &&& 4974461978 = 4974461978 := by decide) : Touch msk z0 (State.enterFenced s) := by
  refine Touch.use hk hw (fun hk => ?_)
  unfold State.enterFenced
  repeat' (first | with_reducible assumption | intro _ _ hk | with_reducible apply touch_ite | with_reducible refine touch_cancelAssume ?_ | with_reducible refine touch_cancelNight ?_ | with_reducible refine touch_cancelRemoval ?_ | with_reducible refine touch_setDevice ?_ | ((fail_if_success (with_reducible refine touch_eta ?_)); with_reducible refine touch_litDevHealth ?_) | dsimp only | split)

end Sys2Proof.Machine
end

