-- ==== Sys2Proof/Laws/TouchArray.lean ====
section
/-! SUPPORT. Which parts of the state the operations of Sys2Proof/Machine/Array.lean may change. -/

namespace Sys2Proof.Machine

set_option linter.all false
set_option Elab.async false

theorem touch_tileHeader {msk : Nat} {z0 : State} {t : TileEntry} {f : Nat} {s : State} (hk : Touch msk z0 s)
    (hw : msk &&& 8187282432 = 8187282432 := by decide) : Touch msk z0 (State.tileHeader t f s).2.2 := by
  refine Touch.use hk hw (fun hk => ?_)
  unfold State.tileHeader
  repeat' (first | with_reducible assumption | (rename_i hq; have hz := congrArg Prod.snd hq; dsimp only at hz; subst hz; try clear hq) | (have hz := congrArg Prod.snd ‹_ = (_, _)›; dsimp only at hz; subst hz) | intro _ _ hk | with_reducible apply touch_ite | with_reducible refine touch_fetch ?_ | dsimp only | split)

theorem touch_refuseTile {msk : Nat} {z0 : State} {f : Nat} {slot : Nat} {index : Nat} {st : Status} {s : State} (hk : Touch msk z0 s)
    (hw : msk &&& 1082136576 = 1082136576 := by decide) : Touch msk z0 (State.refuseTile f slot index st s) := by
  refine Touch.use hk hw (fun hk => ?_)
  unfold State.refuseTile
  repeat' (first | with_reducible assumption | intro _ _ hk | with_reducible apply touch_ite | with_reducible refine touch_finishTile ?_ | with_reducible refine touch_modFold ?_ | dsimp only | split)

theorem touch_startTile {msk : Nat} {z0 : State} {f : Nat} {slot : Nat} {index : Nat} {d : TaskDesc} {t : TileEntry} {ps : List PassEntry} {s : State} (hk : Touch msk z0 s)
    (hw : msk &&& 8195677184 = 8195677184 := by decide) : Touch msk z0 (State.startTile f slot index d t ps s) := by
  refine Touch.use hk hw (fun hk => ?_)
  unfold State.startTile
  repeat' (first | with_reducible assumption | (rename_i hq; have hz := congrArg Prod.snd (congrArg Prod.snd hq); dsimp only at hz; subst hz; try clear hq) | (rename_i hq; have hz := congrArg Prod.snd hq; dsimp only at hz; subst hz; try clear hq) | (have hz := congrArg Prod.snd ‹_ = (_, _)›; dsimp only at hz; subst hz) | (have hz := congrArg Prod.snd (congrArg Prod.snd ‹_ = (_, _, _)›); dsimp only at hz; subst hz) | intro _ _ hk | with_reducible apply touch_ite | with_reducible refine touch_modFold ?_ | with_reducible refine touch_record ?_ | with_reducible refine touch_refuseTile ?_ | with_reducible refine touch_tileHeader ?_ | dsimp only | split)

theorem touch_loadTiles {msk : Nat} {z0 : State} {n : Nat} {t : Task} {s : State} (hk : Touch msk z0 s)
    (hw : msk &&& 8187286528 = 8187286528 := by decide) : Touch msk z0 (State.loadTiles n t s) := by
  refine Touch.use hk hw (fun hk => ?_)
  unfold State.loadTiles
  repeat' (first | with_reducible assumption | (rename_i hq; have hz := congrArg Prod.snd (congrArg Prod.snd hq); dsimp only at hz; subst hz; try clear hq) | (rename_i hq; have hz := congrArg Prod.snd hq; dsimp only at hz; subst hz; try clear hq) | (have hz := congrArg Prod.snd ‹_ = (_, _)›; dsimp only at hz; subst hz) | (have hz := congrArg Prod.snd (congrArg Prod.snd ‹_ = (_, _, _)›); dsimp only at hz; subst hz) | intro _ _ hk | with_reducible apply touch_ite | with_reducible refine touch_modTask ?_ | with_reducible refine touch_readTiles ?_ | dsimp only | split)

theorem touch_execTileStart {fold : Fin 32} {slot : Fin 8} {s : State} {zt : State} (ht : execTileStart fold slot s = .next zt) : Touch 8195677184 s zt := by
  unfold execTileStart at ht
  cases ht
  have hk := Touch.refl 8195677184 s
  repeat' (first | with_reducible assumption | intro _ _ hk | with_reducible apply touch_ite | with_reducible refine touch_loadTiles ?_ | with_reducible refine touch_settleRank ?_ | with_reducible refine touch_startTile ?_ | dsimp only | split)

theorem touch_execRampStep {fold : Fin 32} {s : State} {zt : State} (ht : execRampStep fold s = .next zt) : Touch 2048 s zt := by
  unfold execRampStep at ht
  cases ht
  have hk := Touch.refl 2048 s
  repeat' (first | with_reducible assumption | intro _ _ hk | with_reducible apply touch_ite | with_reducible refine touch_modFold ?_ | dsimp only | split)

theorem touch_execArrayIdleTimeout {fold : Fin 32} {s : State} {zt : State} (ht : execArrayIdleTimeout fold s = .next zt) : Touch 2048 s zt := by
  unfold execArrayIdleTimeout at ht
  cases ht
  have hk := Touch.refl 2048 s
  repeat' (first | with_reducible assumption | intro _ _ hk | with_reducible apply touch_ite | with_reducible refine touch_modFold ?_ | dsimp only | split)

theorem touch_execPlaneLoadDone {fold : Fin 32} {s : State} {zt : State} (ht : execPlaneLoadDone fold s = .next zt) : Touch 6144 s zt := by
  unfold execPlaneLoadDone at ht
  cases ht
  have hk := Touch.refl 6144 s
  repeat' (first | with_reducible assumption | intro _ _ hk | with_reducible apply touch_ite | with_reducible refine touch_complete ?_ | with_reducible refine touch_digests ?_ | with_reducible refine touch_modFold ?_ | with_reducible refine touch_modTask ?_ | dsimp only | split)

theorem touch_retireRows {msk : Nat} {z0 : State} {f : Nat} {i : InFlight} {s : State} (hk : Touch msk z0 s)
    (hw : msk &&& 1098909696 = 1098909696 := by decide) : Touch msk z0 (State.retireRows f i s) := by
  refine Touch.use hk hw (fun hk => ?_)
  unfold State.retireRows
  repeat' (first | with_reducible assumption | with_reducible refine touch_forEach ?_ ?_ | intro _ _ hk | with_reducible apply touch_ite | with_reducible refine touch_gather ?_ | with_reducible refine touch_mismatch ?_ | with_reducible refine touch_modFold ?_ | dsimp only | split)

theorem touch_retireCheck {msk : Nat} {z0 : State} {f : Nat} {i : InFlight} {s : State} (hk : Touch msk z0 s)
    (hw : msk &&& 1098909696 = 1098909696 := by decide) : Touch msk z0 (State.retireCheck f i s) := by
  refine Touch.use hk hw (fun hk => ?_)
  unfold State.retireCheck
  repeat' (first | with_reducible assumption | with_reducible refine touch_forEach ?_ ?_ | intro _ _ hk | with_reducible apply touch_ite | with_reducible refine touch_mismatch ?_ | with_reducible refine touch_modFold ?_ | dsimp only | split)

theorem touch_retire {msk : Nat} {z0 : State} {f : Nat} {i : InFlight} {s : State} (hk : Touch msk z0 s)
    (hw : msk &&& 1098909696 = 1098909696 := by decide) : Touch msk z0 (State.retire f i s) := by
  refine Touch.use hk hw (fun hk => ?_)
  unfold State.retire
  repeat' (first | with_reducible assumption | intro _ _ hk | with_reducible apply touch_ite | with_reducible refine touch_modFold ?_ | with_reducible refine touch_retireCheck ?_ | with_reducible refine touch_retireRows ?_ | dsimp only | split)

theorem touch_retireDue {msk : Nat} {z0 : State} {f : Nat} {s : State} (hk : Touch msk z0 s)
    (hw : msk &&& 1098909696 = 1098909696 := by decide) : Touch msk z0 (State.retireDue f s) := by
  refine Touch.use hk hw (fun hk => ?_)
  unfold State.retireDue
  repeat' (first | with_reducible assumption | with_reducible refine touch_forEach ?_ ?_ | intro _ _ hk | with_reducible apply touch_ite | with_reducible refine touch_modFold ?_ | with_reducible refine touch_retire ?_ | dsimp only | split)

theorem touch_readRows {msk : Nat} {z0 : State} {f : Nat} {t : Tile} {p : PassEntry} {errors : List (Nat × Nat × Int)} {x0 : List Nat} {s : State} (hk : Touch msk z0 s)
    (hw : msk &&& 8187282432 = 8187282432 := by decide) : Touch msk z0 (State.readRows f t p errors x0 s).2.2 := by
  refine Touch.use hk hw (fun hq => ?_)
  suffices h : ∀ z, Touch 8187282432 z s → Touch 8187282432 z (State.readRows f t p errors x0 s).2.2 from h _ hq
  clear hq hk hw
  intro z0 hk
  induction x0 generalizing s with
  | nil =>
    first | exact hk | (simp only [State.readRows]; repeat' (first | with_reducible assumption | (rename_i hq; have hz := congrArg Prod.snd (congrArg Prod.snd hq); dsimp only at hz; subst hz; try clear hq) | (rename_i hq; have hz := congrArg Prod.snd hq; dsimp only at hz; subst hz; try clear hq) | (have hz := congrArg Prod.snd ‹_ = (_, _)›; dsimp only at hz; subst hz) | (have hz := congrArg Prod.snd (congrArg Prod.snd ‹_ = (_, _, _)›); dsimp only at hz; subst hz) | intro _ _ hk | with_reducible apply touch_ite | with_reducible refine touch_weightRowAt ?_ | dsimp only | split))
  | cons x r ih =>
    simp only [State.readRows]
    repeat' (first | with_reducible assumption | with_reducible apply ih | (rename_i hq; have hz := congrArg Prod.snd (congrArg Prod.snd hq); dsimp only at hz; subst hz; try clear hq) | (rename_i hq; have hz := congrArg Prod.snd hq; dsimp only at hz; subst hz; try clear hq) | (have hz := congrArg Prod.snd ‹_ = (_, _)›; dsimp only at hz; subst hz) | (have hz := congrArg Prod.snd (congrArg Prod.snd ‹_ = (_, _, _)›); dsimp only at hz; subst hz) | intro _ _ hk | with_reducible apply touch_ite | with_reducible refine touch_weightRowAt ?_ | dsimp only | split)

theorem touch_noteWait {msk : Nat} {z0 : State} {f : Nat} {k : Nat} {t : Tile} {s : State} (hk : Touch msk z0 s)
    (hw : msk &&& 2560 = 2560 := by decide) : Touch msk z0 (State.noteWait f k t s) := by
  refine Touch.use hk hw (fun hk => ?_)
  unfold State.noteWait
  repeat' (first | with_reducible assumption | intro _ _ hk | with_reducible apply touch_ite | with_reducible refine touch_modFold ?_ | with_reducible refine touch_modTiers ?_ | dsimp only | split)

theorem touch_issue {msk : Nat} {z0 : State} {f : Nat} {buffered : Bool} {errors : List (Nat × Nat × Int)} {t : Tile} {s : State} (hk : Touch msk z0 s)
    (hw : msk &&& 8187284992 = 8187284992 := by decide) : Touch msk z0 (State.issue f buffered errors t s) := by
  refine Touch.use hk hw (fun hk => ?_)
  unfold State.issue
  repeat' (first | with_reducible assumption | (rename_i hq; have hz := congrArg Prod.snd (congrArg Prod.snd hq); dsimp only at hz; subst hz; try clear hq) | (rename_i hq; have hz := congrArg Prod.snd hq; dsimp only at hz; subst hz; try clear hq) | (have hz := congrArg Prod.snd ‹_ = (_, _)›; dsimp only at hz; subst hz) | (have hz := congrArg Prod.snd (congrArg Prod.snd ‹_ = (_, _, _)›); dsimp only at hz; subst hz) | intro _ _ hk | with_reducible apply touch_ite | with_reducible refine touch_complete ?_ | with_reducible refine touch_endTile ?_ | with_reducible refine touch_idleCycle ?_ | with_reducible refine touch_modFold ?_ | with_reducible refine touch_noteWait ?_ | with_reducible refine touch_readRows ?_ | dsimp only | split)

theorem touch_countIssue {msk : Nat} {z0 : State} {f : Nat} {before : Nat} {s : State} (hk : Touch msk z0 s)
    (hw : msk &&& 8388608 = 8388608 := by decide) : Touch msk z0 (State.countIssue f before s) := by
  refine Touch.use hk hw (fun hk => ?_)
  unfold State.countIssue
  repeat' (first | with_reducible assumption | intro _ _ hk | with_reducible apply touch_ite | with_reducible refine touch_modHealth ?_ | dsimp only | split)

theorem touch_digestCycle {msk : Nat} {z0 : State} {f : Nat} {s : State} (hk : Touch msk z0 s)
    (hw : msk &&& 4196352 = 4196352 := by decide) : Touch msk z0 (State.digestCycle f s) := by
  refine Touch.use hk hw (fun hk => ?_)
  unfold State.digestCycle
  repeat' (first | with_reducible assumption | intro _ _ hk | with_reducible apply touch_ite | with_reducible refine touch_modFold ?_ | with_reducible refine touch_modProv ?_ | dsimp only | split)

theorem touch_execIssueCycle {fold : Fin 32} {buffered : Bool} {errors : List (Nat × Nat × Int)} {s : State} {zt : State} (ht : execIssueCycle fold buffered errors s = .next zt) : Touch 8216645120 s zt := by
  unfold execIssueCycle at ht
  cases ht
  have hk := Touch.refl 8216645120 s
  repeat' (first | with_reducible assumption | intro _ _ hk | with_reducible apply touch_ite | with_reducible refine touch_advance ?_ | with_reducible refine touch_countIssue ?_ | with_reducible refine touch_digestCycle ?_ | with_reducible refine touch_idleCycle ?_ | with_reducible refine touch_issue ?_ | with_reducible refine touch_modFold ?_ | with_reducible refine touch_retireDue ?_ | dsimp only | split)

theorem touch_abandonTile {msk : Nat} {z0 : State} {f : Nat} {s : State} (hk : Touch msk z0 s)
    (hw : msk &&& 8390656 = 8390656 := by decide) : Touch msk z0 (State.abandonTile f s) := by
  refine Touch.use hk hw (fun hk => ?_)
  unfold State.abandonTile
  repeat' (first | with_reducible assumption | intro _ _ hk | with_reducible apply touch_ite | with_reducible refine touch_modFold ?_ | with_reducible refine touch_modHealth ?_ | dsimp only | split)

end Sys2Proof.Machine
end

