-- ==== Sys2Proof/Laws/TouchAccum.lean ====
section
/-! SUPPORT. Which parts of the state the operations of Sys2Proof/Machine/Accum.lean may change. -/

namespace Sys2Proof.Machine

set_option linter.all false
set_option Elab.async false

theorem touch_closeTile {msk : Nat} {z0 : State} {f : Nat} {slot : Nat} {index : Nat} {s : State} (hk : Touch msk z0 s)
    (hw : msk &&& 1082136576 = 1082136576 := by decide) : Touch msk z0 (State.closeTile f slot index s) := by
  refine Touch.use hk hw (fun hk => ?_)
  unfold State.closeTile
  repeat' (first | with_reducible assumption | intro _ _ hk | with_reducible apply touch_ite | with_reducible refine touch_finishTile ?_ | with_reducible refine touch_modFold ?_ | dsimp only | split)

theorem touch_startEnd {msk : Nat} {z0 : State} {f : Nat} {slot : Nat} {index : Nat} {s : State} (hk : Touch msk z0 s)
    (hw : msk &&& 1082136576 = 1082136576 := by decide) : Touch msk z0 (State.startEnd f slot index s) := by
  refine Touch.use hk hw (fun hk => ?_)
  unfold State.startEnd
  repeat' (first | with_reducible assumption | intro _ _ hk | with_reducible apply touch_ite | with_reducible refine touch_closeTile ?_ | with_reducible refine touch_modFold ?_ | dsimp only | split)

theorem touch_takeFlags {msk : Nat} {z0 : State} {f : Nat} {slot : Nat} {index : Nat} {s : State} (hk : Touch msk z0 s)
    (hw : msk &&& 2048 = 2048 := by decide) : Touch msk z0 (State.takeFlags f slot index s) := by
  refine Touch.use hk hw (fun hk => ?_)
  unfold State.takeFlags
  repeat' (first | with_reducible assumption | intro _ _ hk | with_reducible apply touch_ite | with_reducible refine touch_modFold ?_ | dsimp only | split)

theorem touch_takeRank {msk : Nat} {z0 : State} {t : Task} {e : TileEntry} {r : Nat} {r' : Nat} {s : State} (hk : Touch msk z0 s)
    (hw : msk &&& 2048 = 2048 := by decide) : Touch msk z0 (State.takeRank t e r r' s) := by
  refine Touch.use hk hw (fun hk => ?_)
  unfold State.takeRank
  repeat' (first | with_reducible assumption | with_reducible refine touch_forEach ?_ ?_ | intro _ _ hk | with_reducible apply touch_ite | with_reducible refine touch_modFold ?_ | dsimp only | split)

theorem touch_reduceLevels {msk : Nat} {z0 : State} {t : Task} {e : TileEntry} {x0 : Nat} {x1 : Nat} {s : State} (hk : Touch msk z0 s)
    (hw : msk &&& 2048 = 2048 := by decide) : Touch msk z0 (State.reduceLevels t e x0 x1 s) := by
  refine Touch.use hk hw (fun hq => ?_)
  suffices h : ∀ z, Touch 2048 z s → Touch 2048 z (State.reduceLevels t e x0 x1 s) from h _ hq
  clear hq hk hw
  intro z0 hk
  induction x0 generalizing x1 s with
  | zero =>
    first | exact hk | (simp only [State.reduceLevels]; repeat' (first | with_reducible assumption | with_reducible refine touch_forEach ?_ ?_ | intro _ _ hk | with_reducible apply touch_ite | with_reducible refine touch_takeRank ?_ | dsimp only | split))
  | succ n ih =>
    simp only [State.reduceLevels]
    repeat' (first | with_reducible assumption | with_reducible apply ih | with_reducible refine touch_forEach ?_ ?_ | intro _ _ hk | with_reducible apply touch_ite | with_reducible refine touch_takeRank ?_ | dsimp only | split)

theorem touch_leaveReduction {msk : Nat} {z0 : State} {t : Task} {index : Nat} {r : Nat} {s : State} (hk : Touch msk z0 s)
    (hw : msk &&& 1082136576 = 1082136576 := by decide) : Touch msk z0 (State.leaveReduction t index r s) := by
  refine Touch.use hk hw (fun hk => ?_)
  unfold State.leaveReduction
  repeat' (first | with_reducible assumption | intro _ _ hk | with_reducible apply touch_ite | with_reducible refine touch_closeTile ?_ | with_reducible refine touch_modFold ?_ | dsimp only | split)

theorem touch_tryReduce {msk : Nat} {z0 : State} {n : Nat} {index : Nat} {s : State} (hk : Touch msk z0 s)
    (hw : msk &&& 1082136576 = 1082136576 := by decide) : Touch msk z0 (State.tryReduce n index s) := by
  refine Touch.use hk hw (fun hk => ?_)
  unfold State.tryReduce
  repeat' (first | with_reducible assumption | with_reducible refine touch_forEach ?_ ?_ | intro _ _ hk | with_reducible apply touch_ite | with_reducible refine touch_leaveReduction ?_ | with_reducible refine touch_reduceLevels ?_ | with_reducible refine touch_startEnd ?_ | with_reducible refine touch_takeFlags ?_ | dsimp only | split)

theorem touch_afterMerge {msk : Nat} {z0 : State} {f : Nat} {slot : Nat} {index : Nat} {s : State} (hk : Touch msk z0 s)
    (hw : msk &&& 1082136576 = 1082136576 := by decide) : Touch msk z0 (State.afterMerge f slot index s) := by
  refine Touch.use hk hw (fun hk => ?_)
  unfold State.afterMerge
  repeat' (first | with_reducible assumption | intro _ _ hk | with_reducible apply touch_ite | with_reducible refine touch_modFold ?_ | with_reducible refine touch_releaseReducers ?_ | with_reducible refine touch_startEnd ?_ | with_reducible refine touch_takeFlags ?_ | with_reducible refine touch_tryReduce ?_ | dsimp only | split)

theorem touch_endWithout {msk : Nat} {z0 : State} {f : Nat} {t : Tile} {st : Status} {s : State} (hk : Touch msk z0 s)
    (hw : msk &&& 1082136576 = 1082136576 := by decide) : Touch msk z0 (State.endWithout f t st s) := by
  refine Touch.use hk hw (fun hk => ?_)
  unfold State.endWithout
  repeat' (first | with_reducible assumption | intro _ _ hk | with_reducible apply touch_ite | with_reducible refine touch_finishTile ?_ | with_reducible refine touch_modFold ?_ | dsimp only | split)

theorem touch_leaveTile {msk : Nat} {z0 : State} {f : Nat} {t : Tile} {s : State} (hk : Touch msk z0 s)
    (hw : msk &&& 8195677824 = 8195677824 := by decide) : Touch msk z0 (State.leaveTile f t s) := by
  refine Touch.use hk hw (fun hk => ?_)
  unfold State.leaveTile
  repeat' (first | with_reducible assumption | intro _ _ hk | with_reducible apply touch_ite | with_reducible refine touch_afterMerge ?_ | with_reducible refine touch_evidence ?_ | with_reducible refine touch_modFold ?_ | with_reducible refine touch_modHealth ?_ | with_reducible refine touch_sampleTile ?_ | dsimp only | split)

theorem touch_writeOut {msk : Nat} {z0 : State} {e : Nat} {off : Nat} {w : Nat} {bs : Bytes} {poisoned : List Nat} {s : State} (hk : Touch msk z0 s)
    (hw : msk &&& 8187283072 = 8187283072 := by decide) : Touch msk z0 (State.writeOut e off w bs poisoned s) := by
  refine Touch.use hk hw (fun hk => ?_)
  unfold State.writeOut
  repeat' (first | with_reducible assumption | with_reducible refine touch_forEach ?_ ?_ | intro _ _ hk | with_reducible apply touch_ite | with_reducible refine touch_objPoison ?_ | with_reducible refine touch_objWrite ?_ | dsimp only | split)

theorem touch_deliver {msk : Nat} {z0 : State} {f : Nat} {slot : Nat} {index : Nat} {part : Nat} {off : Nat} {w : Nat} {bs : Bytes} {sat : Bool} {poisoned : List Nat} {s : State} (hk : Touch msk z0 s)
    (hw : msk &&& 8187285120 = 8187285120 := by decide) : Touch msk z0 (State.deliver f slot index part off w bs sat poisoned s) := by
  refine Touch.use hk hw (fun hk => ?_)
  unfold State.deliver
  repeat' (first | with_reducible assumption | intro _ _ hk | with_reducible apply touch_ite | with_reducible refine touch_digests ?_ | with_reducible refine touch_modFold ?_ | with_reducible refine touch_writeOut ?_ | dsimp only | split)

theorem touch_actionThrough {msk : Nat} {z0 : State} {f : Nat} {slot : Nat} {index : Nat} {s : State} (hk : Touch msk z0 s)
    (hw : msk &&& 1082136576 = 1082136576 := by decide) : Touch msk z0 (State.actionThrough f slot index s) := by
  refine Touch.use hk hw (fun hk => ?_)
  unfold State.actionThrough
  repeat' (first | with_reducible assumption | intro _ _ hk | with_reducible apply touch_ite | with_reducible refine touch_afterMerge ?_ | with_reducible refine touch_closeTile ?_ | with_reducible refine touch_modFold ?_ | dsimp only | split)

theorem touch_mergeDone {msk : Nat} {z0 : State} {f : Nat} {p : Nat} {w : Nat} {j : PortJob} {s : State} (hk : Touch msk z0 s)
    (hw : msk &&& 1082136576 = 1082136576 := by decide) : Touch msk z0 (State.mergeDone f p w j s) := by
  refine Touch.use hk hw (fun hk => ?_)
  unfold State.mergeDone
  repeat' (first | with_reducible assumption | intro _ _ hk | with_reducible apply touch_ite | with_reducible refine touch_actionThrough ?_ | with_reducible refine touch_modFold ?_ | dsimp only | split)

theorem touch_convertDone {msk : Nat} {z0 : State} {f : Nat} {p : Nat} {part : Nat} {j : PortJob} {s : State} (hk : Touch msk z0 s)
    (hw : msk &&& 8195677824 = 8195677824 := by decide) : Touch msk z0 (State.convertDone f p part j s) := by
  refine Touch.use hk hw (fun hk => ?_)
  unfold State.convertDone
  repeat' (first | with_reducible assumption | intro _ _ hk | with_reducible apply touch_ite | with_reducible refine touch_actionThrough ?_ | with_reducible refine touch_deliver ?_ | with_reducible refine touch_modFold ?_ | dsimp only | split)

theorem touch_foldDone {msk : Nat} {z0 : State} {f : Nat} {p : Nat} {part : Nat} {j : PortJob} {s : State} (hk : Touch msk z0 s)
    (hw : msk &&& 1082136576 = 1082136576 := by decide) : Touch msk z0 (State.foldDone f p part j s) := by
  refine Touch.use hk hw (fun hk => ?_)
  unfold State.foldDone
  repeat' (first | with_reducible assumption | intro _ _ hk | with_reducible apply touch_ite | with_reducible refine touch_actionThrough ?_ | with_reducible refine touch_modFold ?_ | dsimp only | split)

theorem touch_targetDone {msk : Nat} {z0 : State} {f : Nat} {p : Nat} {j : PortJob} {s : State} (hk : Touch msk z0 s)
    (hw : msk &&& 8195677824 = 8195677824 := by decide) : Touch msk z0 (State.targetDone f p j s) := by
  refine Touch.use hk hw (fun hk => ?_)
  unfold State.targetDone
  repeat' (first | with_reducible assumption | intro _ _ hk | with_reducible apply touch_ite | with_reducible refine touch_actionThrough ?_ | with_reducible refine touch_deliver ?_ | with_reducible refine touch_modFold ?_ | dsimp only | split)

theorem touch_spillDone {msk : Nat} {z0 : State} {f : Nat} {p : Nat} {j : PortJob} {s : State} (hk : Touch msk z0 s)
    (hw : msk &&& 7516195840 = 7516195840 := by decide) : Touch msk z0 (State.spillDone f p j s) := by
  refine Touch.use hk hw (fun hk => ?_)
  unfold State.spillDone
  repeat' (first | with_reducible assumption | (rename_i hq; have hz := congrArg Prod.snd hq; dsimp only at hz; subst hz; try clear hq) | (have hz := congrArg Prod.snd ‹_ = (_, _)›; dsimp only at hz; subst hz) | intro _ _ hk | with_reducible apply touch_ite | with_reducible refine touch_accRecords ?_ | with_reducible refine touch_modFold ?_ | with_reducible refine touch_wrCompanionMem ?_ | with_reducible refine touch_wr ?_ | dsimp only | split)

theorem touch_restoreDone {msk : Nat} {z0 : State} {f : Nat} {p : Nat} {j : PortJob} {s : State} (hk : Touch msk z0 s)
    (hw : msk &&& 6442454016 = 6442454016 := by decide) : Touch msk z0 (State.restoreDone f p j s) := by
  refine Touch.use hk hw (fun hk => ?_)
  unfold State.restoreDone
  repeat' (first | with_reducible assumption | intro _ _ hk | with_reducible apply touch_ite | with_reducible refine touch_modFold ?_ | with_reducible refine touch_wrCompanionMem ?_ | with_reducible refine touch_wr ?_ | dsimp only | split)

end Sys2Proof.Machine
end

