-- ==== Sys2Proof/Laws/TouchQueues.lean ====
section
/-! SUPPORT. Which parts of the state the operations of Sys2Proof/Machine/Queues.lean may change. -/

namespace Sys2Proof.Machine

set_option linter.all false
set_option Elab.async false

theorem touch_tableWrite {msk : Nat} {z0 : State} {i : Nat} {off : Nat} {b : Bytes} {s : State} (hk : Touch msk z0 s)
    (hw : msk &&& 8187283072 = 8187283072 := by decide) : Touch msk z0 (State.tableWrite i off b s) := by
  refine Touch.use hk hw (fun hk => ?_)
  unfold State.tableWrite
  repeat' (first | with_reducible assumption | intro _ _ hk | with_reducible apply touch_ite | with_reducible refine touch_objWrite ?_ | with_reducible refine touch_wrCompanionMem ?_ | with_reducible refine touch_wr ?_ | dsimp only | split)

theorem touch_setQueue {msk : Nat} {z0 : State} {q : Nat} {c : Option QCtx} {s : State} (hk : Touch msk z0 s)
    (hw : msk &&& 8192 = 8192 := by decide) : Touch msk z0 (State.setQueue q c s) := by
  refine Touch.use hk hw (fun hk => ?_)
  unfold State.setQueue
  repeat' (first | with_reducible assumption | intro _ _ hk | with_reducible apply touch_ite | ((fail_if_success (with_reducible refine touch_eta ?_)); with_reducible refine touch_lit13 ?_) | dsimp only | split)

theorem touch_modQueue {msk : Nat} {z0 : State} {q : Nat} {f : QCtx → QCtx} {s : State} (hk : Touch msk z0 s)
    (hw : msk &&& 8192 = 8192 := by decide) : Touch msk z0 (State.modQueue q f s) := by
  refine Touch.use hk hw (fun hk => ?_)
  unfold State.modQueue
  repeat' (first | with_reducible assumption | intro _ _ hk | with_reducible apply touch_ite | with_reducible refine touch_setQueue ?_ | dsimp only | split)

theorem touch_markCached {msk : Nat} {z0 : State} {i : Nat} {off : Nat} {c : QCtx} {cached : Bool} {s : State} (hk : Touch msk z0 s)
    (hw : msk &&& 8187283072 = 8187283072 := by decide) : Touch msk z0 (State.markCached i off c cached s) := by
  refine Touch.use hk hw (fun hk => ?_)
  unfold State.markCached
  repeat' (first | with_reducible assumption | intro _ _ hk | with_reducible apply touch_ite | with_reducible refine touch_tableWrite ?_ | dsimp only | split)

theorem touch_evict {msk : Nat} {z0 : State} {q : Nat} {s : State} (hk : Touch msk z0 s)
    (hw : msk &&& 8187291264 = 8187291264 := by decide) : Touch msk z0 (State.evict q s) := by
  refine Touch.use hk hw (fun hk => ?_)
  unfold State.evict
  repeat' (first | with_reducible assumption | intro _ _ hk | with_reducible apply touch_ite | with_reducible refine touch_markCached ?_ | with_reducible refine touch_setQueue ?_ | with_reducible refine touch_tableWrite ?_ | ((fail_if_success (with_reducible refine touch_eta ?_)); with_reducible refine touch_lit13 ?_) | dsimp only | split)

theorem touch_makeRoom {msk : Nat} {z0 zt : State} {s : State} (hk : Touch msk z0 s) (ht : State.makeRoom s = some zt)
    (hw : msk &&& 8187291264 = 8187291264 := by decide) : Touch msk z0 zt := by
  refine Touch.use hk hw (fun hk => ?_)
  simp only [State.makeRoom, Option.map_eq_some_iff] at ht
  repeat' split at ht
  all_goals (try simp only [Option.map_eq_some_iff] at ht)
  all_goals first | (obtain ⟨_, _, rfl⟩ := ht) | cases ht | skip
  repeat' (first | with_reducible assumption | intro _ _ hk | with_reducible apply touch_ite | with_reducible refine touch_evict ?_ | dsimp only | split)

theorem touch_bringIn {msk : Nat} {z0 zt : State} {q : Nat} {s : State} (hk : Touch msk z0 s) (ht : State.bringIn q s = some zt)
    (hw : msk &&& 8187291264 = 8187291264 := by decide) : Touch msk z0 zt := by
  refine Touch.use hk hw (fun hk => ?_)
  simp only [State.bringIn, Option.map_eq_some_iff] at ht
  repeat' split at ht
  all_goals (try simp only [Option.map_eq_some_iff] at ht)
  all_goals first | (obtain ⟨_, _, rfl⟩ := ht) | cases ht | skip
  repeat' (first | with_reducible assumption | intro _ _ hk | with_reducible apply touch_ite | with_reducible refine touch_markCached ?_ | with_reducible refine touch_setQueue ?_ | refine touch_makeRoom ?_ (by assumption) | dsimp only | split)

theorem touch_setGroup {msk : Nat} {z0 : State} {g : Nat} {c : Option QCtx} {s : State} (hk : Touch msk z0 s)
    (hw : msk &&& 8192 = 8192 := by decide) : Touch msk z0 (State.setGroup g c s) := by
  refine Touch.use hk hw (fun hk => ?_)
  unfold State.setGroup
  repeat' (first | with_reducible assumption | intro _ _ hk | with_reducible apply touch_ite | ((fail_if_success (with_reducible refine touch_eta ?_)); with_reducible refine touch_lit13 ?_) | dsimp only | split)

theorem touch_bringGroup {msk : Nat} {z0 : State} {i : Nat} {g : Nat} {s : State} (hk : Touch msk z0 s)
    (hw : msk &&& 8187291264 = 8187291264 := by decide) : Touch msk z0 (State.bringGroup i g s) := by
  refine Touch.use hk hw (fun hk => ?_)
  unfold State.bringGroup
  repeat' (first | with_reducible assumption | intro _ _ hk | with_reducible apply touch_ite | with_reducible refine touch_markCached ?_ | with_reducible refine touch_setGroup ?_ | dsimp only | split)

theorem touch_ringWrite {msk : Nat} {z0 : State} {c : QCtx} {idx : Nat} {off : Nat} {b : Bytes} {s : State} (hk : Touch msk z0 s)
    (hw : msk &&& 8187283072 = 8187283072 := by decide) : Touch msk z0 (State.ringWrite c idx off b s) := by
  refine Touch.use hk hw (fun hk => ?_)
  unfold State.ringWrite
  repeat' (first | with_reducible assumption | intro _ _ hk | with_reducible apply touch_ite | with_reducible refine touch_objWrite ?_ | dsimp only | split)

theorem touch_popHead {msk : Nat} {z0 : State} {q : Nat} {s : State} (hk : Touch msk z0 s)
    (hw : msk &&& 8192 = 8192 := by decide) : Touch msk z0 (State.popHead q s) := by
  refine Touch.use hk hw (fun hk => ?_)
  unfold State.popHead
  repeat' (first | with_reducible assumption | intro _ _ hk | with_reducible apply touch_ite | with_reducible refine touch_modQueue ?_ | dsimp only | split)

theorem touch_addCompletion {msk : Nat} {z0 : State} {inst : Nat} {q : Nat} {bytes : Bytes} {s : State} (hk : Touch msk z0 s)
    (hw : msk &&& 8187291280 = 8187291280 := by decide) : Touch msk z0 (State.addCompletion inst q bytes s) := by
  refine Touch.use hk hw (fun hk => ?_)
  unfold State.addCompletion
  repeat' (first | with_reducible assumption | intro _ _ hk | with_reducible apply touch_ite | with_reducible refine touch_announced ?_ | with_reducible refine touch_modQueue ?_ | with_reducible refine touch_raiseTo ?_ | with_reducible refine touch_ringWrite ?_ | refine touch_bringIn ?_ (by assumption) | dsimp only | split)

theorem touch_ringTail {msk : Nat} {z0 : State} {page : Nat} {q : Nat} {tail : Nat} {s : State} (hk : Touch msk z0 s)
    (hw : msk &&& 8256 = 8256 := by decide) : Touch msk z0 (State.ringTail page q tail s) := by
  refine Touch.use hk hw (fun hk => ?_)
  unfold State.ringTail
  repeat' (first | with_reducible assumption | intro _ _ hk | with_reducible apply touch_ite | with_reducible refine touch_modDbPage ?_ | with_reducible refine touch_modQueue ?_ | dsimp only | split)

theorem touch_doorbellSpoof {msk : Nat} {z0 : State} {page : Nat} {s : State} (hk : Touch msk z0 s)
    (hw : msk &&& 4831839696 = 4831839696 := by decide) : Touch msk z0 (State.doorbellSpoof page s) := by
  refine Touch.use hk hw (fun hk => ?_)
  unfold State.doorbellSpoof
  repeat' (first | with_reducible assumption | intro _ _ hk | with_reducible apply touch_ite | with_reducible refine touch_countSpoof ?_ | with_reducible refine touch_modDbPage ?_ | dsimp only | split)

theorem touch_serveDoorbell {msk : Nat} {z0 zt : State} {page : Nat} {q : Nat} {tail : Nat} {s : State} (hk : Touch msk z0 s) (ht : State.serveDoorbell page q tail s = some zt)
    (hw : msk &&& 8187291600 = 8187291600 := by decide) : Touch msk z0 zt := by
  refine Touch.use hk hw (fun hk => ?_)
  simp only [State.serveDoorbell, Option.map_eq_some_iff] at ht
  repeat' split at ht
  all_goals (try simp only [Option.map_eq_some_iff] at ht)
  all_goals first | (obtain ⟨_, _, rfl⟩ := ht) | cases ht | skip
  repeat' (first | with_reducible assumption | intro _ _ hk | with_reducible apply touch_ite | with_reducible refine touch_doorbellSpoof ?_ | with_reducible refine touch_ringTail ?_ | refine touch_bringIn ?_ (by assumption) | dsimp only | split)

theorem touch_waitDoorbell {msk : Nat} {z0 : State} {d : Nat × Nat × Nat} {s : State} (hk : Touch msk z0 s)
    (hw : msk &&& 8192 = 8192 := by decide) : Touch msk z0 (State.waitDoorbell d s) := by
  refine Touch.use hk hw (fun hk => ?_)
  unfold State.waitDoorbell
  repeat' (first | with_reducible assumption | intro _ _ hk | with_reducible apply touch_ite | ((fail_if_success (with_reducible refine touch_eta ?_)); with_reducible refine touch_lit13 ?_) | dsimp only | split)

theorem touch_takeDoorbell {msk : Nat} {z0 : State} {d : Nat × Nat × Nat} {s : State} (hk : Touch msk z0 s)
    (hw : msk &&& 8187291600 = 8187291600 := by decide) : Touch msk z0 (State.takeDoorbell d s) := by
  refine Touch.use hk hw (fun hk => ?_)
  unfold State.takeDoorbell
  repeat' (first | with_reducible assumption | intro _ _ hk | with_reducible apply touch_ite | with_reducible refine touch_waitDoorbell ?_ | refine touch_serveDoorbell ?_ (by assumption) | dsimp only | split)

theorem touch_retryDoorbells {msk : Nat} {z0 : State} {s : State} (hk : Touch msk z0 s)
    (hw : msk &&& 8187291600 = 8187291600 := by decide) : Touch msk z0 (State.retryDoorbells s) := by
  refine Touch.use hk hw (fun hk => ?_)
  unfold State.retryDoorbells
  repeat' (first | with_reducible assumption | with_reducible refine touch_forEach ?_ ?_ | intro _ _ hk | with_reducible apply touch_ite | with_reducible refine touch_takeDoorbell ?_ | ((fail_if_success (with_reducible refine touch_eta ?_)); with_reducible refine touch_lit13 ?_) | dsimp only | split)

theorem touch_doorbellWrite {msk : Nat} {z0 : State} {page : Nat} {mapping : W32} {offset : Nat} {aligned64 : Bool} {value : W64} {s : State} (hk : Touch msk z0 s)
    (hw : msk &&& 8187291600 = 8187291600 := by decide) : Touch msk z0 (State.doorbellWrite page mapping offset aligned64 value s) := by
  refine Touch.use hk hw (fun hk => ?_)
  unfold State.doorbellWrite
  repeat' (first | with_reducible assumption | intro _ _ hk | with_reducible apply touch_ite | with_reducible refine touch_modDbPage ?_ | with_reducible refine touch_takeDoorbell ?_ | dsimp only | split)

theorem touch_execDoorbell {page : Fin 256} {mapping : W32} {offset : Nat} {aligned64 : Bool} {value : W64} {s : State} {zt : State} (ht : execDoorbell page mapping offset aligned64 value s = .next zt) : Touch 8187291600 s zt := by
  unfold execDoorbell at ht
  cases ht
  have hk := Touch.refl 8187291600 s
  repeat' (first | with_reducible assumption | intro _ _ hk | with_reducible apply touch_ite | with_reducible refine touch_doorbellWrite ?_ | dsimp only | split)

theorem touch_execQueueEvict {now : Nat} {queue : Nat} {s : State} {zt : State} (ht : execQueueEvict now queue s = .next zt) : Touch 8187815888 s zt := by
  unfold execQueueEvict at ht
  cases ht
  have hk := Touch.refl 8187815888 s
  repeat' (first | with_reducible assumption | intro _ _ hk | with_reducible apply touch_ite | with_reducible refine touch_at ?_ | with_reducible refine touch_evict ?_ | with_reducible refine touch_retryDoorbells ?_ | dsimp only | split)

end Sys2Proof.Machine
end

