-- ==== Sys2Proof/Laws/TouchTasks.lean ====
section
/-! SUPPORT. Which parts of the state the operations of Sys2Proof/Machine/Tasks.lean may change. -/

namespace Sys2Proof.Machine

set_option linter.all false
set_option Elab.async false

theorem touch_putDirect {msk : Nat} {z0 : State} {r : CmpRec} {s : State} (hk : Touch msk z0 s)
    (hw : msk &&& 8195683984 = 8195683984 := by decide) : Touch msk z0 (State.putDirect r s) := by
  refine Touch.use hk hw (fun hk => ?_)
  unfold State.putDirect
  repeat' (first | with_reducible assumption | intro _ _ hk | with_reducible apply touch_ite | with_reducible refine touch_addCompletion ?_ | with_reducible refine touch_countTask ?_ | with_reducible refine touch_modDisp ?_ | dsimp only | split)

theorem touch_endDirect {msk : Nat} {z0 : State} {q : Nat} {owner : Nat} {d : TaskDesc} {st : Status} {s : State} (hk : Touch msk z0 s)
    (hw : msk &&& 8195683984 = 8195683984 := by decide) : Touch msk z0 (State.endDirect q owner d st s) := by
  refine Touch.use hk hw (fun hk => ?_)
  unfold State.endDirect
  repeat' (first | with_reducible assumption | intro _ _ hk | with_reducible apply touch_ite | with_reducible refine touch_modDisp ?_ | with_reducible refine touch_popHead ?_ | with_reducible refine touch_putDirect ?_ | dsimp only | split)

theorem touch_startReside {msk : Nat} {z0 : State} {d : TaskDesc} {q : Nat} {fs : List (Nat × Nat × Nat × List Nat)} {s : State} (hk : Touch msk z0 s)
    (hw : msk &&& 2147499008 = 2147499008 := by decide) : Touch msk z0 (State.startReside d q fs s) := by
  refine Touch.use hk hw (fun hk => ?_)
  unfold State.startReside
  repeat' (first | with_reducible assumption | with_reducible refine touch_forEach ?_ ?_ | intro _ _ hk | with_reducible apply touch_ite | with_reducible refine touch_modDisp ?_ | with_reducible refine touch_modFold ?_ | with_reducible refine touch_popHead ?_ | with_reducible refine touch_setTask ?_ | with_reducible refine touch_zeroMem ?_ | dsimp only | split)

theorem touch_actReside {msk : Nat} {z0 zt : State} {q : Nat} {d : TaskDesc} {s : State} (hk : Touch msk z0 s) (ht : State.actReside q d s = some zt)
    (hw : msk &&& 8195686032 = 8195686032 := by decide) : Touch msk z0 zt := by
  refine Touch.use hk hw (fun hk => ?_)
  simp only [State.actReside, Option.map_eq_some_iff] at ht
  repeat' split at ht
  all_goals (try simp only [Option.map_eq_some_iff] at ht)
  all_goals first | (obtain ⟨_, _, rfl⟩ := ht) | cases ht | skip
  repeat' (first | with_reducible assumption | (rename_i hq; have hz := congrArg Prod.snd hq; dsimp only at hz; subst hz; try clear hq) | (have hz := congrArg Prod.snd ‹_ = (_, _)›; dsimp only at hz; subst hz) | intro _ _ hk | with_reducible apply touch_ite | with_reducible refine touch_endDirect ?_ | with_reducible refine touch_fetchObj ?_ | with_reducible refine touch_startReside ?_ | dsimp only | split)

theorem touch_execResideDone {fold : Fin 32} {slot : Fin 8} {s : State} {zt : State} (ht : execResideDone fold slot s = .next zt) : Touch 8195686032 s zt := by
  unfold execResideDone at ht
  cases ht
  have hk := Touch.refl 8195686032 s
  repeat' (first | with_reducible assumption | with_reducible refine touch_forEach ?_ ?_ | intro _ _ hk | with_reducible apply touch_ite | with_reducible refine touch_modFold ?_ | with_reducible refine touch_putDirect ?_ | with_reducible refine touch_taskEnded ?_ | dsimp only | split)

theorem touch_actRelease {msk : Nat} {z0 zt : State} {q : Nat} {d : TaskDesc} {s : State} (hk : Touch msk z0 s) (ht : State.actRelease q d s = some zt)
    (hw : msk &&& 8195686032 = 8195686032 := by decide) : Touch msk z0 zt := by
  refine Touch.use hk hw (fun hk => ?_)
  simp only [State.actRelease, Option.map_eq_some_iff] at ht
  repeat' split at ht
  all_goals (try simp only [Option.map_eq_some_iff] at ht)
  all_goals first | (obtain ⟨_, _, rfl⟩ := ht) | cases ht | skip
  repeat' (first | with_reducible assumption | with_reducible refine touch_forEach ?_ ?_ | intro _ _ hk | with_reducible apply touch_ite | with_reducible refine touch_dropRef ?_ | with_reducible refine touch_endDirect ?_ | with_reducible refine touch_modDisp ?_ | with_reducible refine touch_modFold ?_ | with_reducible refine touch_place ?_ | with_reducible refine touch_popHead ?_ | with_reducible refine touch_setTask ?_ | dsimp only | split)

theorem touch_execReleaseDone {inst : Fin 256} {ctx : Fin 256} {s : State} {zt : State} (ht : execReleaseDone inst ctx s = .next zt) : Touch 8195686032 s zt := by
  unfold execReleaseDone at ht
  cases ht
  have hk := Touch.refl 8195686032 s
  repeat' (first | with_reducible assumption | with_reducible refine touch_forEach ?_ ?_ | intro _ _ hk | with_reducible apply touch_ite | with_reducible refine touch_modFold ?_ | with_reducible refine touch_putDirect ?_ | with_reducible refine touch_taskEnded ?_ | dsimp only | split)

theorem touch_failTask {msk : Nat} {z0 : State} {st : Status} {n : Nat} {s : State} (hk : Touch msk z0 s)
    (hw : msk &&& 8195683984 = 8195683984 := by decide) : Touch msk z0 (State.failTask st n s) := by
  refine Touch.use hk hw (fun hk => ?_)
  unfold State.failTask
  repeat' (first | with_reducible assumption | intro _ _ hk | with_reducible apply touch_ite | with_reducible refine touch_putDirect ?_ | with_reducible refine touch_taskEnded ?_ | dsimp only | split)

theorem touch_killTask {msk : Nat} {z0 : State} {n : Nat} {s : State} (hk : Touch msk z0 s)
    (hw : msk &&& 6144 = 6144 := by decide) : Touch msk z0 (State.killTask n s) := by
  refine Touch.use hk hw (fun hk => ?_)
  unfold State.killTask
  repeat' (first | with_reducible assumption | with_reducible refine touch_forEach ?_ ?_ | intro _ _ hk | with_reducible apply touch_ite | with_reducible refine touch_modFold ?_ | with_reducible refine touch_setTask ?_ | dsimp only | split)

theorem touch_loseTask {msk : Nat} {z0 : State} {n : Nat} {st : Status} {s : State} (hk : Touch msk z0 s)
    (hw : msk &&& 1082136576 = 1082136576 := by decide) : Touch msk z0 (State.loseTask n st s) := by
  refine Touch.use hk hw (fun hk => ?_)
  unfold State.loseTask
  repeat' (first | with_reducible assumption | with_reducible refine touch_forEach ?_ ?_ | intro _ _ hk | with_reducible apply touch_ite | with_reducible refine touch_flushRecords ?_ | with_reducible refine touch_modFold ?_ | with_reducible refine touch_modTask ?_ | with_reducible refine touch_putCmp ?_ | with_reducible refine touch_taskEnded ?_ | dsimp only | split)

theorem touch_leaveNow {msk : Nat} {z0 : State} {inst : Nat} {ctx : Nat} {s : State} (hk : Touch msk z0 s)
    (hw : msk &&& 6442606080 = 6442606080 := by decide) : Touch msk z0 (State.leaveNow inst ctx s) := by
  refine Touch.use hk hw (fun hk => ?_)
  unfold State.leaveNow
  repeat' (first | with_reducible assumption | with_reducible refine touch_forEach ?_ ?_ | intro _ _ hk | with_reducible apply touch_ite | with_reducible refine touch_dmaLose ?_ | with_reducible refine touch_dropRef ?_ | with_reducible refine touch_modFold ?_ | with_reducible refine touch_place ?_ | with_reducible refine touch_setTask ?_ | dsimp only | split)

theorem touch_place {msk : Nat} {z0 : State} {q : Nat} {d : TaskDesc} {tiles : List (TileEntry × List PassEntry)} {fs : List (Nat × Nat)} {digest : Bytes} {args : Bytes} {s : State} (hk : Touch msk z0 s)
    (hw : msk &&& 14336 = 14336 := by decide) : Touch msk z0 (State.place q d tiles fs digest args s) := by
  refine Touch.use hk hw (fun hk => ?_)
  unfold State.place
  repeat' (first | with_reducible assumption | with_reducible refine touch_forEach ?_ ?_ | intro _ _ hk | with_reducible apply touch_ite | with_reducible refine touch_modDisp ?_ | with_reducible refine touch_modFold ?_ | with_reducible refine touch_popHead ?_ | with_reducible refine touch_setTask ?_ | dsimp only | split)

theorem touch_readArgsObj {msk : Nat} {z0 : State} {d : TaskDesc} {s : State} (hk : Touch msk z0 s)
    (hw : msk &&& 8187282432 = 8187282432 := by decide) : Touch msk z0 (State.readArgsObj d s).2 := by
  refine Touch.use hk hw (fun hk => ?_)
  unfold State.readArgsObj
  repeat' (first | with_reducible assumption | (rename_i hq; have hz := congrArg Prod.snd hq; dsimp only at hz; subst hz; try clear hq) | (have hz := congrArg Prod.snd ‹_ = (_, _)›; dsimp only at hz; subst hz) | intro _ _ hk | with_reducible apply touch_ite | with_reducible refine touch_fetchObj ?_ | dsimp only | split)

theorem touch_actRun {msk : Nat} {z0 zt : State} {q : Nat} {d : TaskDesc} {s : State} (hk : Touch msk z0 s) (ht : State.actRun q d s = some zt)
    (hw : msk &&& 8195686032 = 8195686032 := by decide) : Touch msk z0 zt := by
  refine Touch.use hk hw (fun hk => ?_)
  simp only [State.actRun, Option.map_eq_some_iff] at ht
  repeat' split at ht
  all_goals (try simp only [Option.map_eq_some_iff] at ht)
  all_goals first | (obtain ⟨_, _, rfl⟩ := ht) | cases ht | skip
  repeat' (first | with_reducible assumption | (rename_i hq; have hz := congrArg Prod.snd (congrArg Prod.snd hq); dsimp only at hz; subst hz; try clear hq) | (rename_i hq; have hz := congrArg Prod.snd hq; dsimp only at hz; subst hz; try clear hq) | (have hz := congrArg Prod.snd ‹_ = (_, _)›; dsimp only at hz; subst hz) | (have hz := congrArg Prod.snd (congrArg Prod.snd ‹_ = (_, _, _)›); dsimp only at hz; subst hz) | intro _ _ hk | with_reducible apply touch_ite | with_reducible refine touch_endDirect ?_ | with_reducible refine touch_place ?_ | with_reducible refine touch_readArgsObj ?_ | with_reducible refine touch_readTiles ?_ | dsimp only | split)

theorem touch_act {msk : Nat} {z0 zt : State} {q : Nat} {s : State} (hk : Touch msk z0 s) (ht : State.act q s = some zt)
    (hw : msk &&& 8195686288 = 8195686288 := by decide) : Touch msk z0 zt := by
  refine Touch.use hk hw (fun hk => ?_)
  simp only [State.act, Option.map_eq_some_iff] at ht
  repeat' split at ht
  all_goals (try simp only [Option.map_eq_some_iff] at ht)
  all_goals first | (obtain ⟨_, _, rfl⟩ := ht) | cases ht | skip
  repeat' (first | with_reducible assumption | intro _ _ hk | with_reducible apply touch_ite | with_reducible refine touch_countSpoof ?_ | with_reducible refine touch_endDirect ?_ | refine touch_actRelease ?_ (by assumption) | refine touch_actReside ?_ (by assumption) | refine touch_actRun ?_ (by assumption) | dsimp only | split)

theorem touch_execTaskPlace {queue : Nat} {s : State} {zt : State} (ht : execTaskPlace queue s = .next zt) : Touch 8195686288 s zt := by
  unfold execTaskPlace at ht
  cases ht
  have hk := Touch.refl 8195686288 s
  repeat' (first | with_reducible assumption | intro _ _ hk | with_reducible apply touch_ite | with_reducible refine touch_modDisp ?_ | refine touch_act ?_ (by assumption) | dsimp only | split)

end Sys2Proof.Machine
end

