-- ==== Sys2Proof/Laws/TouchDma.lean ====
section
/-! SUPPORT. Which parts of the state the operations of Sys2Proof/Machine/Dma.lean may change. -/

namespace Sys2Proof.Machine

set_option linter.all false
set_option Elab.async false

theorem touch_execDmaDescriptorPost {engine : Fin 64} {chan : Fin 16} {d : Bytes} {s : State} {zt : State} (ht : execDmaDescriptorPost engine chan d s = .next zt) : Touch 6979453952 s zt := by
  unfold execDmaDescriptorPost at ht
  cases ht
  have hk := Touch.refl 6979453952 s
  repeat' (first | with_reducible assumption | intro _ _ hk | with_reducible apply touch_ite | with_reducible refine touch_emit ?_ | with_reducible refine touch_modChan ?_ | with_reducible refine touch_wrCompanionMem ?_ | with_reducible refine touch_wr ?_ | dsimp only | split)

theorem touch_execDmaLevelAdd {engine : Fin 64} {chan : Fin 16} {bytes : Nat} {s : State} {zt : State} (ht : execDmaLevelAdd engine chan bytes s = .next zt) : Touch 131072 s zt := by
  unfold execDmaLevelAdd at ht
  cases ht
  have hk := Touch.refl 131072 s
  repeat' (first | with_reducible assumption | intro _ _ hk | with_reducible apply touch_ite | with_reducible refine touch_modChan ?_ | dsimp only | split)

theorem touch_dmaStart {msk : Nat} {z0 : State} {e : Nat} {c : Nat} {s : State} (hk : Touch msk z0 s)
    (hw : msk &&& 131072 = 131072 := by decide) : Touch msk z0 (State.dmaStart e c s) := by
  refine Touch.use hk hw (fun hk => ?_)
  unfold State.dmaStart
  repeat' (first | with_reducible assumption | intro _ _ hk | with_reducible apply touch_ite | with_reducible refine touch_modChan ?_ | with_reducible refine touch_modDma ?_ | dsimp only | split)

theorem touch_execDmaDescriptorStart {engine : Fin 64} {s : State} {zt : State} (ht : execDmaDescriptorStart engine s = .next zt) : Touch 131072 s zt := by
  unfold execDmaDescriptorStart at ht
  cases ht
  have hk := Touch.refl 131072 s
  repeat' (first | with_reducible assumption | intro _ _ hk | with_reducible apply touch_ite | with_reducible refine touch_dmaStart ?_ | dsimp only | split)

theorem touch_recallAll {msk : Nat} {z0 : State} {l : List Nat} {s : State} (hk : Touch msk z0 s)
    (hw : msk &&& 4966055936 = 4966055936 := by decide) : Touch msk z0 (State.recallAll l s) := by
  refine Touch.use hk hw (fun hk => ?_)
  unfold State.recallAll
  repeat' (first | with_reducible assumption | with_reducible refine touch_forEach ?_ ?_ | intro _ _ hk | with_reducible apply touch_ite | with_reducible refine touch_startRecall ?_ | dsimp only | split)

theorem touch_keepT2 {msk : Nat} {z0 : State} {a : Nat} {s : State} (hk : Touch msk z0 s)
    (hw : msk &&& 5502926848 = 5502926848 := by decide) : Touch msk z0 (State.keepT2 a s) := by
  refine Touch.use hk hw (fun hk => ?_)
  unfold State.keepT2
  repeat' (first | with_reducible assumption | (rename_i hq; have hz := congrArg Prod.snd hq; dsimp only at hz; subst hz; try clear hq) | (have hz := congrArg Prod.snd ‹_ = (_, _)›; dsimp only at hz; subst hz) | intro _ _ hk | with_reducible apply touch_ite | with_reducible refine touch_modPower ?_ | with_reducible refine touch_takeFree ?_ | dsimp only | split)

theorem touch_dmaRead {msk : Nat} {z0 : State} {e : Nat} {w : Nat} {noted : Bool} {l : Loc} {n : Nat} {finding : ReadFinding} {s : State} (hk : Touch msk z0 s)
    (hw : msk &&& 8195671568 = 8195671568 := by decide) : Touch msk z0 (State.dmaRead e w noted l n finding s).2 := by
  refine Touch.use hk hw (fun hk => ?_)
  unfold State.dmaRead
  repeat' (first | with_reducible assumption | (rename_i hq; have hz := congrArg Prod.snd hq; dsimp only at hz; subst hz; try clear hq) | (have hz := congrArg Prod.snd ‹_ = (_, _)›; dsimp only at hz; subst hz) | intro _ _ hk | with_reducible apply touch_ite | with_reducible refine touch_freeBytes ?_ | with_reducible refine touch_keepT2 ?_ | with_reducible refine touch_modTiers ?_ | with_reducible refine touch_recallAll ?_ | with_reducible refine touch_scrubBad ?_ | dsimp only | split)

theorem touch_dmaWrite {msk : Nat} {z0 : State} {l : Loc} {b : Bytes} {poison : Bool} {s : State} (hk : Touch msk z0 s)
    (hw : msk &&& 8187283072 = 8187283072 := by decide) : Touch msk z0 (State.dmaWrite l b poison s) := by
  refine Touch.use hk hw (fun hk => ?_)
  unfold State.dmaWrite
  repeat' (first | with_reducible assumption | intro _ _ hk | with_reducible apply touch_ite | with_reducible refine touch_objPoison ?_ | with_reducible refine touch_objWrite ?_ | with_reducible refine touch_wrCompanion ?_ | with_reducible refine touch_wrCompanionMem ?_ | with_reducible refine touch_wr ?_ | ((fail_if_success (with_reducible refine touch_eta ?_)); with_reducible refine touch_lit10 ?_) | dsimp only | split)

theorem touch_accessLine {msk : Nat} {z0 : State} {e : Nat} {w : Nat} {r : DmaRun} {finding : ReadFinding} {held : Bool} {s : State} (hk : Touch msk z0 s)
    (hw : msk &&& 8195671696 = 8195671696 := by decide) : Touch msk z0 (State.accessLine e w r finding held s).2 := by
  refine Touch.use hk hw (fun hk => ?_)
  unfold State.accessLine
  repeat' (first | with_reducible assumption | (rename_i hq; have hz := congrArg Prod.snd hq; dsimp only at hz; subst hz; try clear hq) | (have hz := congrArg Prod.snd ‹_ = (_, _)›; dsimp only at hz; subst hz) | intro _ _ hk | with_reducible apply touch_ite | with_reducible refine touch_at ?_ | with_reducible refine touch_dmaRead ?_ | with_reducible refine touch_dmaWrite ?_ | with_reducible refine touch_modMover ?_ | with_reducible refine touch_recallAll ?_ | dsimp only | split)

theorem touch_access {msk : Nat} {z0 : State} {e : Nat} {radio : Bool} {r : DmaRun} {finding : ReadFinding} {held : Bool} {s : State} (hk : Touch msk z0 s)
    (hw : msk &&& 8195819152 = 8195819152 := by decide) : Touch msk z0 (State.access e radio r finding held s) := by
  refine Touch.use hk hw (fun hk => ?_)
  unfold State.access
  repeat' (first | with_reducible assumption | (rename_i hq; have hz := congrArg Prod.snd hq; dsimp only at hz; subst hz; try clear hq) | (have hz := congrArg Prod.snd ‹_ = (_, _)›; dsimp only at hz; subst hz) | intro _ _ hk | with_reducible apply touch_ite | with_reducible refine touch_accessLine ?_ | with_reducible refine touch_dmaNotify ?_ | with_reducible refine touch_modChan ?_ | with_reducible refine touch_modDma ?_ | dsimp only | split)

theorem touch_modCrossing {msk : Nat} {z0 : State} {g : Nat} {f : List ExtAccess → List ExtAccess} {s : State} (hk : Touch msk z0 s)
    (hw : msk &&& 16384 = 16384 := by decide) : Touch msk z0 (State.modCrossing g f s) := by
  refine Touch.use hk hw (fun hk => ?_)
  unfold State.modCrossing
  repeat' (first | with_reducible assumption | intro _ _ hk | with_reducible apply touch_ite | ((fail_if_success (with_reducible refine touch_eta ?_)); with_reducible refine touch_lit14 ?_) | dsimp only | split)

theorem touch_present {msk : Nat} {z0 : State} {core : Nat} {src : ExtSource} {s : State} (hk : Touch msk z0 s)
    (hw : msk &&& 16384 = 16384 := by decide) : Touch msk z0 (State.present core src s) := by
  refine Touch.use hk hw (fun hk => ?_)
  unfold State.present
  repeat' (first | with_reducible assumption | intro _ _ hk | with_reducible apply touch_ite | with_reducible refine touch_modCrossing ?_ | dsimp only | split)

theorem touch_lineAccess {msk : Nat} {z0 : State} {e : Fin 64} {radio : Bool} {r : DmaRun} {finding : ReadFinding} {s : State} (hk : Touch msk z0 s)
    (hw : msk &&& 8195819152 = 8195819152 := by decide) : Touch msk z0 (State.lineAccess e radio r finding s) := by
  refine Touch.use hk hw (fun hk => ?_)
  unfold State.lineAccess
  repeat' (first | with_reducible assumption | intro _ _ hk | with_reducible apply touch_ite | with_reducible refine touch_access ?_ | with_reducible refine touch_present ?_ | dsimp only | split)

theorem touch_execDmaLineAccess {engine : Fin 64} {finding : ReadFinding} {s : State} {zt : State} (ht : execDmaLineAccess engine finding s = .next zt) : Touch 8195819152 s zt := by
  unfold execDmaLineAccess at ht
  cases ht
  have hk := Touch.refl 8195819152 s
  repeat' (first | with_reducible assumption | intro _ _ hk | with_reducible apply touch_ite | with_reducible refine touch_lineAccess ?_ | with_reducible refine touch_modDma ?_ | dsimp only | split)

theorem touch_dmaFinish {msk : Nat} {z0 : State} {e : Nat} {radio : Bool} {r : DmaRun} {s : State} (hk : Touch msk z0 s)
    (hw : msk &&& 6442599424 = 6442599424 := by decide) : Touch msk z0 (State.dmaFinish e radio r s) := by
  refine Touch.use hk hw (fun hk => ?_)
  unfold State.dmaFinish
  repeat' (first | with_reducible assumption | intro _ _ hk | with_reducible apply touch_ite | with_reducible refine touch_dmaDone ?_ | with_reducible refine touch_dmaStart ?_ | with_reducible refine touch_modDma ?_ | dsimp only | split)

theorem touch_execDmaDescriptorComplete {engine : Fin 64} {s : State} {zt : State} (ht : execDmaDescriptorComplete engine s = .next zt) : Touch 6442599936 s zt := by
  unfold execDmaDescriptorComplete at ht
  cases ht
  have hk := Touch.refl 6442599936 s
  repeat' (first | with_reducible assumption | intro _ _ hk | with_reducible apply touch_ite | with_reducible refine touch_dmaFinish ?_ | with_reducible refine touch_settleDrained ?_ | dsimp only | split)

end Sys2Proof.Machine
end

