-- ==== Sys2Proof/Laws/TouchCells.lean ====
section
/-! SUPPORT. Which parts of the state the operations of Sys2Proof/Machine/Cells.lean may change. -/

namespace Sys2Proof.Machine

set_option linter.all false
set_option Elab.async false

theorem touch_makePool {msk : Nat} {z0 : State} {mib : Nat} {s : State} (hk : Touch msk z0 s)
    (hw : msk &&& 2147485184 = 2147485184 := by decide) : Touch msk z0 (State.makePool mib s).2 := by
  refine Touch.use hk hw (fun hk => ?_)
  unfold State.makePool
  repeat' (first | with_reducible assumption | (rename_i hq; have hz := congrArg Prod.snd hq; dsimp only at hz; subst hz; try clear hq) | (have hz := congrArg Prod.snd ‹_ = (_, _)›; dsimp only at hz; subst hz) | with_reducible refine touch_forEach ?_ ?_ | intro _ _ hk | with_reducible apply touch_ite | with_reducible refine touch_nextOrder ?_ | with_reducible refine touch_place ?_ | with_reducible refine touch_zeroMem ?_ | ((fail_if_success (with_reducible refine touch_eta ?_)); with_reducible refine touch_lit9 ?_) | dsimp only | split)

theorem touch_dropPool {msk : Nat} {z0 : State} {e : Nat} {s : State} (hk : Touch msk z0 s)
    (hw : msk &&& 512 = 512 := by decide) : Touch msk z0 (State.dropPool e s) := by
  refine Touch.use hk hw (fun hk => ?_)
  unfold State.dropPool
  repeat' (first | with_reducible assumption | intro _ _ hk | with_reducible apply touch_ite | with_reducible refine touch_modObj ?_ | dsimp only | split)

theorem touch_setPool {msk : Nat} {z0 : State} {c : Nat} {mib : Nat} {s : State} (hk : Touch msk z0 s)
    (hw : msk &&& 2147501568 = 2147501568 := by decide) : Touch msk z0 (State.setPool c mib s) := by
  refine Touch.use hk hw (fun hk => ?_)
  unfold State.setPool
  repeat' (first | with_reducible assumption | (rename_i hq; have hz := congrArg Prod.snd hq; dsimp only at hz; subst hz; try clear hq) | (have hz := congrArg Prod.snd ‹_ = (_, _)›; dsimp only at hz; subst hz) | intro _ _ hk | with_reducible apply touch_ite | with_reducible refine touch_dropPool ?_ | with_reducible refine touch_makePool ?_ | with_reducible refine touch_modCell ?_ | dsimp only | split)

theorem touch_setPortMode {msk : Nat} {z0 : State} {p : Nat} {mode : Nat} {s : State} (hk : Touch msk z0 s)
    (hw : msk &&& 262144 = 262144 := by decide) : Touch msk z0 (State.setPortMode p mode s) := by
  refine Touch.use hk hw (fun hk => ?_)
  unfold State.setPortMode
  repeat' (first | with_reducible assumption | with_reducible refine touch_forEach ?_ ?_ | intro _ _ hk | with_reducible apply touch_ite | with_reducible refine touch_modFhPort ?_ | with_reducible refine touch_modLane ?_ | dsimp only | split)

theorem touch_setCellPolicer {msk : Nat} {z0 : State} {c : Nat} {x : CellCfg} {s : State} (hk : Touch msk z0 s)
    (hw : msk &&& 262144 = 262144 := by decide) : Touch msk z0 (State.setCellPolicer c x s) := by
  refine Touch.use hk hw (fun hk => ?_)
  unfold State.setCellPolicer
  repeat' (first | with_reducible assumption | intro _ _ hk | with_reducible apply touch_ite | with_reducible refine touch_modLane ?_ | dsimp only | split)

theorem touch_reassign {msk : Nat} {z0 : State} {s : State} (hk : Touch msk z0 s)
    (hw : msk &&& 32768 = 32768 := by decide) : Touch msk z0 (State.reassign s) := by
  refine Touch.use hk hw (fun hk => ?_)
  unfold State.reassign
  repeat' (first | with_reducible assumption | intro _ _ hk | with_reducible apply touch_ite | with_reducible refine touch_modShep ?_ | dsimp only | split)

theorem touch_admitCell {msk : Nat} {z0 : State} {c : Nat} {inc : Nat} {notBefore : Nat} {x : CellCfg} {s : State} (hk : Touch msk z0 s)
    (hw : msk &&& 2147763712 = 2147763712 := by decide) : Touch msk z0 (State.admitCell c inc notBefore x s) := by
  refine Touch.use hk hw (fun hk => ?_)
  unfold State.admitCell
  repeat' (first | with_reducible assumption | intro _ _ hk | with_reducible apply touch_ite | with_reducible refine touch_modCell ?_ | with_reducible refine touch_setCellPolicer ?_ | with_reducible refine touch_setPool ?_ | with_reducible refine touch_setPortMode ?_ | dsimp only | split)

theorem touch_freeCellNo {msk : Nat} {z0 : State} {c : Nat} {s : State} (hk : Touch msk z0 s)
    (hw : msk &&& 279040 = 279040 := by decide) : Touch msk z0 (State.freeCellNo c s) := by
  refine Touch.use hk hw (fun hk => ?_)
  unfold State.freeCellNo
  repeat' (first | with_reducible assumption | intro _ _ hk | with_reducible apply touch_ite | with_reducible refine touch_dropPool ?_ | with_reducible refine touch_modCell ?_ | with_reducible refine touch_modLane ?_ | with_reducible refine touch_modNrx ?_ | dsimp only | split)

theorem touch_execCellAdd {m : Fin 16} {s : State} {zt : State} (ht : execCellAdd m s = .next zt) : Touch 6979601944 s zt := by
  unfold execCellAdd at ht
  cases ht
  have hk := Touch.refl 6979601944 s
  repeat' (first | with_reducible assumption | intro _ _ hk | with_reducible apply touch_ite | with_reducible refine touch_admitCell ?_ | with_reducible refine touch_runCommand ?_ ?_ | dsimp only | split)

theorem touch_execCellRemove {m : Fin 16} {s : State} {zt : State} (ht : execCellRemove m s = .next zt) : Touch 4831855640 s zt := by
  unfold execCellRemove at ht
  cases ht
  have hk := Touch.refl 4831855640 s
  repeat' (first | with_reducible assumption | intro _ _ hk | with_reducible apply touch_ite | with_reducible refine touch_modCell ?_ | with_reducible refine touch_runCommand ?_ ?_ | dsimp only | split)

theorem touch_execCellReconfigure {m : Fin 16} {s : State} {zt : State} (ht : execCellReconfigure m s = .next zt) : Touch 4831855640 s zt := by
  unfold execCellReconfigure at ht
  cases ht
  have hk := Touch.refl 4831855640 s
  repeat' (first | with_reducible assumption | intro _ _ hk | with_reducible apply touch_ite | with_reducible refine touch_modCell ?_ | with_reducible refine touch_runCommand ?_ ?_ | dsimp only | split)

theorem touch_execRadioShareSet {m : Fin 16} {s : State} {zt : State} (ht : execRadioShareSet m s = .next zt) : Touch 4831904792 s zt := by
  unfold execRadioShareSet at ht
  cases ht
  have hk := Touch.refl 4831904792 s
  repeat' (first | with_reducible assumption | intro _ _ hk | with_reducible apply touch_ite | with_reducible refine touch_runCommand ?_ ?_ | ((fail_if_success (with_reducible refine touch_eta ?_)); with_reducible refine touch_lit16 ?_) | dsimp only | split)

theorem touch_execPenumbraSet {m : Fin 16} {s : State} {zt : State} (ht : execPenumbraSet m s = .next zt) : Touch 4831904792 s zt := by
  unfold execPenumbraSet at ht
  cases ht
  have hk := Touch.refl 4831904792 s
  repeat' (first | with_reducible assumption | intro _ _ hk | with_reducible apply touch_ite | with_reducible refine touch_runCommand ?_ ?_ | ((fail_if_success (with_reducible refine touch_eta ?_)); with_reducible refine touch_lit16 ?_) | dsimp only | split)

theorem touch_execNrxLoad {m : Fin 16} {s : State} {zt : State} (ht : execNrxLoad m s = .next zt) : Touch 4898966552 s zt := by
  unfold execNrxLoad at ht
  cases ht
  have hk := Touch.refl 4898966552 s
  repeat' (first | with_reducible assumption | with_reducible refine touch_forEach ?_ ?_ | intro _ _ hk | with_reducible apply touch_ite | with_reducible refine touch_extend ?_ | with_reducible refine touch_modFold ?_ | with_reducible refine touch_modNrx ?_ | with_reducible refine touch_runCommand ?_ ?_ | dsimp only | split)

end Sys2Proof.Machine
end

