-- ==== Sys2Proof/Laws/TouchRadioOps.lean ====
section
/-! SUPPORT. Which parts of the state the operations of Sys2Proof/Machine/RadioOps.lean may change. -/

namespace Sys2Proof.Machine

set_option linter.all false
set_option Elab.async false

theorem touch_rebuildShare {msk : Nat} {z0 : State} {f : Nat} {ctx : Nat} {base : Nat} {n : Nat} {s : State} (hk : Touch msk z0 s)
    (hw : msk &&& 2147484672 = 2147484672 := by decide) : Touch msk z0 (State.rebuildShare f ctx base n s) := by
  refine Touch.use hk hw (fun hk => ?_)
  unfold State.rebuildShare
  repeat' (first | with_reducible assumption | with_reducible refine touch_forEach ?_ ?_ | intro _ _ hk | with_reducible apply touch_ite | with_reducible refine touch_zeroMem ?_ | ((fail_if_success (with_reducible refine touch_eta ?_)); with_reducible refine touch_lit10 ?_) | dsimp only | split)

theorem touch_placeRadioOn {msk : Nat} {z0 : State} {f : Nat} {d : TaskDesc} {s : State} (hk : Touch msk z0 s)
    (hw : msk &&& 2147486720 = 2147486720 := by decide) : Touch msk z0 (State.placeRadioOn f d s) := by
  refine Touch.use hk hw (fun hk => ?_)
  unfold State.placeRadioOn
  repeat' (first | with_reducible assumption | intro _ _ hk | with_reducible apply touch_ite | with_reducible refine touch_modFold ?_ | with_reducible refine touch_rebuildShare ?_ | dsimp only | split)

theorem touch_ensureRadio {msk : Nat} {z0 : State} {f : Nat} {s : State} (hk : Touch msk z0 s)
    (hw : msk &&& 2147486720 = 2147486720 := by decide) : Touch msk z0 (State.ensureRadio f s) := by
  refine Touch.use hk hw (fun hk => ?_)
  unfold State.ensureRadio
  repeat' (first | with_reducible assumption | intro _ _ hk | with_reducible apply touch_ite | with_reducible refine touch_placeRadioOn ?_ | dsimp only | split)

theorem touch_moveRank {msk : Nat} {z0 : State} {f : Nat} {slot : Nat} {s : State} (hk : Touch msk z0 s)
    (hw : msk &&& 6144 = 6144 := by decide) : Touch msk z0 (State.moveRank f slot s) := by
  refine Touch.use hk hw (fun hk => ?_)
  unfold State.moveRank
  repeat' (first | with_reducible assumption | intro _ _ hk | with_reducible apply touch_ite | with_reducible refine touch_modFold ?_ | with_reducible refine touch_modTask ?_ | dsimp only | split)

theorem touch_moveRadio {msk : Nat} {z0 : State} {f : Nat} {s : State} (hk : Touch msk z0 s)
    (hw : msk &&& 6144 = 6144 := by decide) : Touch msk z0 (State.moveRadio f s) := by
  refine Touch.use hk hw (fun hk => ?_)
  unfold State.moveRadio
  repeat' (first | with_reducible assumption | with_reducible refine touch_forEach ?_ ?_ | intro _ _ hk | with_reducible apply touch_ite | with_reducible refine touch_moveRank ?_ | dsimp only | split)

theorem touch_radioOn {msk : Nat} {z0 : State} {f : Nat} {s : State} (hk : Touch msk z0 s)
    (hw : msk &&& 2147490816 = 2147490816 := by decide) : Touch msk z0 (State.radioOn f s) := by
  refine Touch.use hk hw (fun hk => ?_)
  unfold State.radioOn
  repeat' (first | with_reducible assumption | intro _ _ hk | with_reducible apply touch_ite | with_reducible refine touch_ensureRadio ?_ | with_reducible refine touch_moveRadio ?_ | dsimp only | split)

end Sys2Proof.Machine
end

