-- ==== Sys2Proof/Laws/TouchFoldCmds.lean ====
section
/-! SUPPORT. Which parts of the state the operations of Sys2Proof/Machine/FoldCmds.lean may change. -/

namespace Sys2Proof.Machine

set_option linter.all false
set_option Elab.async false

theorem touch_endDebug {msk : Nat} {z0 : State} {u : UnitId} {s : State} (hk : Touch msk z0 s)
    (hw : msk &&& 6987717652 = 6987717652 := by decide) : Touch msk z0 (State.endDebug u s) := by
  refine Touch.use hk hw (fun hk => ?_)
  unfold State.endDebug
  repeat' (first | with_reducible assumption | intro _ _ hk | with_reducible apply touch_ite | with_reducible refine touch_radioOn ?_ | with_reducible refine touch_setEntry ?_ | dsimp only | split)

theorem touch_settleHold {msk : Nat} {z0 : State} {f : Nat} {s : State} (hk : Touch msk z0 s)
    (hw : msk &&& 6987717660 = 6987717660 := by decide) : Touch msk z0 (State.settleHold f s) := by
  refine Touch.use hk hw (fun hk => ?_)
  unfold State.settleHold
  repeat' (first | with_reducible assumption | intro _ _ hk | with_reducible apply touch_ite | with_reducible refine touch_modFold ?_ | with_reducible refine touch_modMbox ?_ | with_reducible refine touch_radioOn ?_ | with_reducible refine touch_respond ?_ | with_reducible refine touch_setEntry ?_ | dsimp only | split)

theorem touch_settleHolds {msk : Nat} {z0 : State} {s : State} (hk : Touch msk z0 s)
    (hw : msk &&& 6987717660 = 6987717660 := by decide) : Touch msk z0 (State.settleHolds s) := by
  refine Touch.use hk hw (fun hk => ?_)
  unfold State.settleHolds
  repeat' (first | with_reducible assumption | with_reducible refine touch_forEach ?_ ?_ | intro _ _ hk | with_reducible apply touch_ite | with_reducible refine touch_settleHold ?_ | dsimp only | split)

theorem touch_execTileEnd {fold : Fin 32} {s : State} {zt : State} (ht : execTileEnd fold s = .next zt) : Touch 8195677852 s zt := by
  unfold execTileEnd at ht
  cases ht
  have hk := Touch.refl 8195677852 s
  repeat' (first | with_reducible assumption | intro _ _ hk | with_reducible apply touch_ite | with_reducible refine touch_endWithout ?_ | with_reducible refine touch_leaveTile ?_ | with_reducible refine touch_modFold ?_ | with_reducible refine touch_settleDrained ?_ | with_reducible refine touch_settleHold ?_ | dsimp only | split)

theorem touch_execTileAbandon {fold : Fin 32} {now : Nat} {s : State} {zt : State} (ht : execTileAbandon fold now s = .next zt) : Touch 6988241948 s zt := by
  unfold execTileAbandon at ht
  cases ht
  have hk := Touch.refl 6988241948 s
  repeat' (first | with_reducible assumption | intro _ _ hk | with_reducible apply touch_ite | with_reducible refine touch_abandonTile ?_ | with_reducible refine touch_at ?_ | with_reducible refine touch_settleHold ?_ | dsimp only | split)

theorem touch_execGroupActionDone {fold : Fin 32} {group : Fin 8} {s : State} {zt : State} (ht : execGroupActionDone fold group s = .next zt) : Touch 8195677852 s zt := by
  unfold execGroupActionDone at ht
  cases ht
  have hk := Touch.refl 8195677852 s
  repeat' (first | with_reducible assumption | intro _ _ hk | with_reducible apply touch_ite | with_reducible refine touch_convertDone ?_ | with_reducible refine touch_foldDone ?_ | with_reducible refine touch_mergeDone ?_ | with_reducible refine touch_modFold ?_ | with_reducible refine touch_restoreDone ?_ | with_reducible refine touch_settleHold ?_ | with_reducible refine touch_spillDone ?_ | with_reducible refine touch_targetDone ?_ | dsimp only | split)

theorem touch_execFoldDebugHold {m : Fin 16} {s : State} {zt : State} (ht : execFoldDebugHold m s = .next zt) : Touch 6987717660 s zt := by
  unfold execFoldDebugHold at ht
  cases ht
  have hk := Touch.refl 6987717660 s
  repeat' (first | with_reducible assumption | intro _ _ hk | with_reducible apply touch_ite | with_reducible refine touch_modFold ?_ | with_reducible refine touch_respond ?_ | with_reducible refine touch_settleHold ?_ | dsimp only | split)

theorem touch_execFoldDebugRead {m : Fin 16} {s : State} {zt : State} (ht : execFoldDebugRead m s = .next zt) : Touch 5905581208 s zt := by
  unfold execFoldDebugRead at ht
  cases ht
  have hk := Touch.refl 5905581208 s
  repeat' (first | with_reducible assumption | (rename_i hq; have hz := congrArg Prod.snd hq; dsimp only at hz; subst hz; try clear hq) | (have hz := congrArg Prod.snd ‹_ = (_, _)›; dsimp only at hz; subst hz) | intro _ _ hk | with_reducible apply touch_ite | with_reducible refine touch_accRecords ?_ | with_reducible refine touch_runCommand ?_ ?_ | with_reducible refine touch_wrCompanion ?_ | dsimp only | split)

theorem touch_execFoldDebugRelease {m : Fin 16} {s : State} {zt : State} (ht : execFoldDebugRelease m s = .next zt) : Touch 6987717660 s zt := by
  unfold execFoldDebugRelease at ht
  cases ht
  have hk := Touch.refl 6987717660 s
  repeat' (first | with_reducible assumption | intro _ _ hk | with_reducible apply touch_ite | with_reducible refine touch_endDebug ?_ | with_reducible refine touch_runCommand ?_ ?_ | dsimp only | split)

end Sys2Proof.Machine
end

