-- ==== Sys2Proof/Laws/TouchVector.lean ====
section
/-! SUPPORT. Which parts of the state the operations of Sys2Proof/Machine/Vector.lean may change. -/

namespace Sys2Proof.Machine

set_option linter.all false
set_option Elab.async false

theorem touch_containedIn {msk : Nat} {z0 : State} {f : Nat} {slot : Nat} {core : Nat} {bundle : Nat} {addr : Nat} {code : ContainedCode} {s : State} (hk : Touch msk z0 s)
    (hw : msk &&& 6987717660 = 6987717660 := by decide) : Touch msk z0 (State.containedIn f slot core bundle addr code s) := by
  refine Touch.use hk hw (fun hk => ?_)
  unfold State.containedIn
  repeat' (first | with_reducible assumption | with_reducible refine touch_forEach ?_ ?_ | intro _ _ hk | with_reducible apply touch_ite | with_reducible refine touch_evidence ?_ | with_reducible refine touch_modDisp ?_ | with_reducible refine touch_modFold ?_ | with_reducible refine touch_settleHolds ?_ | dsimp only | split)

theorem touch_contextFault {msk : Nat} {z0 : State} {f : Nat} {slot : Nat} {core : Nat} {bundle : Nat} {addr : Nat} {code : ContainedCode} {s : State} (hk : Touch msk z0 s)
    (hw : msk &&& 7121951774 = 7121951774 := by decide) : Touch msk z0 (State.contextFault f slot core bundle addr code s) := by
  refine Touch.use hk hw (fun hk => ?_)
  unfold State.contextFault
  repeat' (first | with_reducible assumption | intro _ _ hk | with_reducible apply touch_ite | with_reducible refine touch_containedIn ?_ | with_reducible refine touch_enterFenced ?_ | dsimp only | split)

theorem touch_execContainedFault {fold : Fin 32} {slot : Fin 8} {place : FaultPlace} {code : ContainedCode} {s : State} {zt : State} (ht : execContainedFault fold slot place code s = .next zt) : Touch 7121951774 s zt := by
  unfold execContainedFault at ht
  cases ht
  have hk := Touch.refl 7121951774 s
  repeat' (first | with_reducible assumption | intro _ _ hk | with_reducible apply touch_ite | with_reducible refine touch_contextFault ?_ | with_reducible refine touch_place ?_ | dsimp only | split)

theorem touch_jobLost {msk : Nat} {z0 : State} {i : Nat} {s : State} (hk : Touch msk z0 s)
    (hw : msk &&& 4831839248 = 4831839248 := by decide) : Touch msk z0 (State.jobLost i s) := by
  refine Touch.use hk hw (fun hk => ?_)
  unfold State.jobLost
  repeat' (first | with_reducible assumption | intro _ _ hk | with_reducible apply touch_ite | with_reducible refine touch_raise ?_ | dsimp only | split)

theorem touch_dropContext {msk : Nat} {z0 : State} {inst : Nat} {ctx : Nat} {s : State} (hk : Touch msk z0 s)
    (hw : msk &&& 8195683984 = 8195683984 := by decide) : Touch msk z0 (State.dropContext inst ctx s) := by
  refine Touch.use hk hw (fun hk => ?_)
  unfold State.dropContext
  repeat' (first | with_reducible assumption | with_reducible refine touch_forEach ?_ ?_ | intro _ _ hk | with_reducible apply touch_ite | with_reducible refine touch_failTask ?_ | with_reducible refine touch_jobLost ?_ | dsimp only | split)

theorem touch_execPartitionResetDone {s : State} {zt : State} (ht : execPartitionResetDone s = .next zt) : Touch 8195833500 s zt := by
  unfold execPartitionResetDone at ht
  cases ht
  have hk := Touch.refl 8195833500 s
  repeat' (first | with_reducible assumption | with_reducible refine touch_forEach ?_ ?_ | intro _ _ hk | with_reducible apply touch_ite | with_reducible refine touch_dropContext ?_ | with_reducible refine touch_jobLost ?_ | with_reducible refine touch_leaveNow ?_ | with_reducible refine touch_loseTask ?_ | with_reducible refine touch_modDisp ?_ | with_reducible refine touch_modFold ?_ | with_reducible refine touch_modHealth ?_ | with_reducible refine touch_settleHolds ?_ | dsimp only | split)

theorem touch_shareWrite {msk : Nat} {z0 : State} {f : Nat} {slot : Nat} {a : Nat} {b : Bytes} {s : State} (hk : Touch msk z0 s)
    (hw : msk &&& 6442451968 = 6442451968 := by decide) : Touch msk z0 (State.shareWrite f slot a b s) := by
  refine Touch.use hk hw (fun hk => ?_)
  unfold State.shareWrite
  repeat' (first | with_reducible assumption | intro _ _ hk | with_reducible apply touch_ite | with_reducible refine touch_wrCompanionMem ?_ | with_reducible refine touch_wr ?_ | dsimp only | split)

theorem touch_roundings {msk : Nat} {z0 : State} {f : Nat} {slot : Nat} {x0 : Nat} {s : State} (hk : Touch msk z0 s)
    (hw : msk &&& 1073741824 = 1073741824 := by decide) : Touch msk z0 (State.roundings f slot x0 s).2 := by
  refine Touch.use hk hw (fun hq => ?_)
  suffices h : ∀ z, Touch 1073741824 z s → Touch 1073741824 z (State.roundings f slot x0 s).2 from h _ hq
  clear hq hk hw
  intro z0 hk
  induction x0 generalizing s with
  | zero =>
    first | exact hk | (simp only [State.roundings]; repeat' (first | with_reducible assumption | (rename_i hq; have hz := congrArg Prod.snd hq; dsimp only at hz; subst hz; try clear hq) | (have hz := congrArg Prod.snd ‹_ = (_, _)›; dsimp only at hz; subst hz) | intro _ _ hk | with_reducible apply touch_ite | with_reducible refine touch_takeFree ?_ | dsimp only | split))
  | succ n ih =>
    simp only [State.roundings]
    repeat' (first | with_reducible assumption | with_reducible apply ih | (rename_i hq; have hz := congrArg Prod.snd hq; dsimp only at hz; subst hz; try clear hq) | (have hz := congrArg Prod.snd ‹_ = (_, _)›; dsimp only at hz; subst hz) | intro _ _ hk | with_reducible apply touch_ite | with_reducible refine touch_takeFree ?_ | dsimp only | split)

theorem touch_mxBytes {msk : Nat} {z0 : State} {code : Nat} {blk : Nat × List Nat} {s : State} (hk : Touch msk z0 s)
    (hw : msk &&& 1073741824 = 1073741824 := by decide) : Touch msk z0 (State.mxBytes code blk s).2 := by
  refine Touch.use hk hw (fun hk => ?_)
  unfold State.mxBytes
  repeat' (first | with_reducible assumption | (rename_i hq; have hz := congrArg Prod.snd hq; dsimp only at hz; subst hz; try clear hq) | (have hz := congrArg Prod.snd ‹_ = (_, _)›; dsimp only at hz; subst hz) | intro _ _ hk | with_reducible apply touch_ite | with_reducible refine touch_freeBytes ?_ | dsimp only | split)

theorem touch_vectorOp {msk : Nat} {z0 : State} {f : Nat} {slot : Nat} {op : VOp} {v : VBundle} {s : State} (hk : Touch msk z0 s)
    (hw : msk &&& 7516197888 = 7516197888 := by decide) : Touch msk z0 (State.vectorOp f slot op v s).1 := by
  refine Touch.use hk hw (fun hk => ?_)
  unfold State.vectorOp
  repeat' (first | with_reducible assumption | (rename_i hq; have hz := congrArg Prod.snd hq; dsimp only at hz; subst hz; try clear hq) | (have hz := congrArg Prod.snd ‹_ = (_, _)›; dsimp only at hz; subst hz) | with_reducible refine touch_forEach ?_ ?_ | intro _ _ hk | with_reducible apply touch_ite | with_reducible refine touch_modTask ?_ | with_reducible refine touch_mxBytes ?_ | with_reducible refine touch_roundings ?_ | with_reducible refine touch_shareWrite ?_ | dsimp only | split)

theorem touch_fillIcache {msk : Nat} {z0 : State} {f : Nat} {core : Nat} {slot : Nat} {line : Nat} {s : State} (hk : Touch msk z0 s)
    (hw : msk &&& 2048 = 2048 := by decide) : Touch msk z0 (State.fillIcache f core slot line s) := by
  refine Touch.use hk hw (fun hk => ?_)
  unfold State.fillIcache
  repeat' (first | with_reducible assumption | intro _ _ hk | with_reducible apply touch_ite | with_reducible refine touch_modFold ?_ | dsimp only | split)

theorem touch_issueVector {msk : Nat} {z0 : State} {f : Nat} {core : Nat} {b : Nat} {slot : Nat} {radio : Bool} {op : VOp} {s : State} (hk : Touch msk z0 s)
    (hw : msk &&& 8195693598 = 8195693598 := by decide) : Touch msk z0 (State.issueVector f core b slot radio op s) := by
  refine Touch.use hk hw (fun hk => ?_)
  unfold State.issueVector
  repeat' (first | with_reducible assumption | (rename_i hq; have hz := congrArg Prod.snd (congrArg Prod.snd hq); dsimp only at hz; subst hz; try clear hq) | (rename_i hq; have hz := congrArg Prod.snd hq; dsimp only at hz; subst hz; try clear hq) | (have hz := congrArg Prod.snd ‹_ = (_, _)›; dsimp only at hz; subst hz) | (have hz := congrArg Prod.snd (congrArg Prod.snd ‹_ = (_, _, _)›); dsimp only at hz; subst hz) | (have hz := congrArg Prod.fst ‹_ = (_, _)›; dsimp only at hz; subst hz) | intro _ _ hk | with_reducible apply touch_ite | with_reducible refine touch_contextFault ?_ | with_reducible refine touch_fetch ?_ | with_reducible refine touch_fillIcache ?_ | with_reducible refine touch_modFold ?_ | with_reducible refine touch_vectorOp ?_ | dsimp only | split)

theorem touch_execVectorIssue {fold : Fin 32} {core : Fin 16} {radio : Bool} {op : VOp} {s : State} {zt : State} (ht : execVectorIssue fold core radio op s = .next zt) : Touch 8195693598 s zt := by
  unfold execVectorIssue at ht
  cases ht
  have hk := Touch.refl 8195693598 s
  repeat' (first | with_reducible assumption | intro _ _ hk | with_reducible apply touch_ite | with_reducible refine touch_issueVector ?_ | dsimp only | split)

theorem touch_modCollector {msk : Nat} {z0 : State} {d : Nat} {f : Collector → Collector} {s : State} (hk : Touch msk z0 s)
    (hw : msk &&& 4096 = 4096 := by decide) : Touch msk z0 (State.modCollector d f s) := by
  refine Touch.use hk hw (fun hk => ?_)
  unfold State.modCollector
  repeat' (first | with_reducible assumption | intro _ _ hk | with_reducible apply touch_ite | with_reducible refine touch_modDisp ?_ | dsimp only | split)

theorem touch_writeRecord {msk : Nat} {z0 : State} {r : CmpRec} {s : State} (hk : Touch msk z0 s)
    (hw : msk &&& 8258594704 = 8258594704 := by decide) : Touch msk z0 (State.writeRecord r s) := by
  refine Touch.use hk hw (fun hk => ?_)
  unfold State.writeRecord
  repeat' (first | with_reducible assumption | intro _ _ hk | with_reducible apply touch_ite | with_reducible refine touch_addCompletion ?_ | with_reducible refine touch_provLeaf ?_ | with_reducible refine touch_staleDiscard ?_ | dsimp only | split)

theorem touch_takeFrom {msk : Nat} {z0 : State} {d : Nat} {f : Nat} {s : State} (hk : Touch msk z0 s)
    (hw : msk &&& 8258600848 = 8258600848 := by decide) : Touch msk z0 (State.takeFrom d f s) := by
  refine Touch.use hk hw (fun hk => ?_)
  unfold State.takeFrom
  repeat' (first | with_reducible assumption | intro _ _ hk | with_reducible apply touch_ite | with_reducible refine touch_modCollector ?_ | with_reducible refine touch_modFold ?_ | with_reducible refine touch_writeRecord ?_ | dsimp only | split)

theorem touch_flushDirect {msk : Nat} {z0 : State} {x0 : List CmpRec} {s : State} (hk : Touch msk z0 s)
    (hw : msk &&& 8258598800 = 8258598800 := by decide) : Touch msk z0 (State.flushDirect x0 s) := by
  refine Touch.use hk hw (fun hq => ?_)
  suffices h : ∀ z, Touch 8258598800 z s → Touch 8258598800 z (State.flushDirect x0 s) from h _ hq
  clear hq hk hw
  intro z0 hk
  induction x0 generalizing s with
  | nil =>
    first | exact hk | (simp only [State.flushDirect]; repeat' (first | with_reducible assumption | intro _ _ hk | with_reducible apply touch_ite | with_reducible refine touch_modDisp ?_ | with_reducible refine touch_writeRecord ?_ | dsimp only | split))
  | cons x r ih =>
    simp only [State.flushDirect]
    repeat' (first | with_reducible assumption | with_reducible apply ih | intro _ _ hk | with_reducible apply touch_ite | with_reducible refine touch_modDisp ?_ | with_reducible refine touch_writeRecord ?_ | dsimp only | split)

theorem touch_execCollectorCycle {die : Fin 2} {s : State} {zt : State} (ht : execCollectorCycle die s = .next zt) : Touch 8258600848 s zt := by
  unfold execCollectorCycle at ht
  cases ht
  have hk := Touch.refl 8258600848 s
  repeat' (first | with_reducible assumption | with_reducible refine touch_forEach ?_ ?_ | intro _ _ hk | with_reducible apply touch_ite | with_reducible refine touch_flushDirect ?_ | with_reducible refine touch_modCollector ?_ | with_reducible refine touch_takeFrom ?_ | dsimp only | split)

theorem touch_closePenumbra {msk : Nat} {z0 : State} {f : Nat} {s : State} (hk : Touch msk z0 s)
    (hw : msk &&& 34816 = 34816 := by decide) : Touch msk z0 (State.closePenumbra f s) := by
  refine Touch.use hk hw (fun hk => ?_)
  unfold State.closePenumbra
  repeat' (first | with_reducible assumption | intro _ _ hk | with_reducible apply touch_ite | with_reducible refine touch_modFold ?_ | with_reducible refine touch_modShep ?_ | dsimp only | split)

theorem touch_endWindow {msk : Nat} {z0 : State} {w : Nat} {s : State} (hk : Touch msk z0 s)
    (hw : msk &&& 34816 = 34816 := by decide) : Touch msk z0 (State.endWindow w s) := by
  refine Touch.use hk hw (fun hk => ?_)
  unfold State.endWindow
  repeat' (first | with_reducible assumption | with_reducible refine touch_forEach ?_ ?_ | intro _ _ hk | with_reducible apply touch_ite | with_reducible refine touch_closePenumbra ?_ | with_reducible refine touch_modShep ?_ | dsimp only | split)

theorem touch_fire {msk : Nat} {z0 : State} {a : BarrierAction} {s : State} (hk : Touch msk z0 s)
    (hw : msk &&& 38912 = 38912 := by decide) : Touch msk z0 (State.fire a s) := by
  refine Touch.use hk hw (fun hk => ?_)
  unfold State.fire
  repeat' (first | with_reducible assumption | intro _ _ hk | with_reducible apply touch_ite | with_reducible refine touch_endWindow ?_ | with_reducible refine touch_modDisp ?_ | dsimp only | split)

theorem touch_barrierCount {msk : Nat} {z0 : State} {b : Nat} {s : State} (hk : Touch msk z0 s)
    (hw : msk &&& 38912 = 38912 := by decide) : Touch msk z0 (State.barrierCount b s) := by
  refine Touch.use hk hw (fun hk => ?_)
  unfold State.barrierCount
  repeat' (first | with_reducible assumption | intro _ _ hk | with_reducible apply touch_ite | with_reducible refine touch_fire ?_ | with_reducible refine touch_modBarrier ?_ | dsimp only | split)

theorem touch_execBarrierAdd {b : Fin 256} {s : State} {zt : State} (ht : execBarrierAdd b s = .next zt) : Touch 38912 s zt := by
  unfold execBarrierAdd at ht
  cases ht
  have hk := Touch.refl 38912 s
  repeat' (first | with_reducible assumption | intro _ _ hk | with_reducible apply touch_ite | with_reducible refine touch_barrierCount ?_ | with_reducible refine touch_modDisp ?_ | dsimp only | split)

end Sys2Proof.Machine
end

