-- ==== Sys2Proof/Laws/TouchSignalCores.lean ====
section
/-! SUPPORT. Which parts of the state the operations of Sys2Proof/Machine/SignalCores.lean may change. -/

namespace Sys2Proof.Machine

set_option linter.all false
set_option Elab.async false

theorem touch_fit16 {msk : Nat} {z0 : State} {v : Int} {s : State} (hk : Touch msk z0 s)
    (hw : msk &&& 1073741824 = 1073741824 := by decide) : Touch msk z0 (State.fit16 v s).2 := by
  refine Touch.use hk hw (fun hk => ?_)
  unfold State.fit16
  repeat' (first | with_reducible assumption | (rename_i hq; have hz := congrArg Prod.snd hq; dsimp only at hz; subst hz; try clear hq) | (have hz := congrArg Prod.snd ‹_ = (_, _)›; dsimp only at hz; subst hz) | intro _ _ hk | with_reducible apply touch_ite | with_reducible refine touch_takeFree ?_ | dsimp only | split)

theorem touch_free16 {msk : Nat} {z0 : State} {s : State} (hk : Touch msk z0 s)
    (hw : msk &&& 1073741824 = 1073741824 := by decide) : Touch msk z0 (State.free16 s).2 := by
  refine Touch.use hk hw (fun hk => ?_)
  unfold State.free16
  repeat' (first | with_reducible assumption | (rename_i hq; have hz := congrArg Prod.snd hq; dsimp only at hz; subst hz; try clear hq) | (have hz := congrArg Prod.snd ‹_ = (_, _)›; dsimp only at hz; subst hz) | intro _ _ hk | with_reducible apply touch_ite | with_reducible refine touch_takeFree ?_ | dsimp only | split)

theorem touch_laneOps {msk : Nat} {z0 : State} {op : LaneOp} {x0 : List ((Int × Int) × (Int × Int))} {s : State} (hk : Touch msk z0 s)
    (hw : msk &&& 1073741824 = 1073741824 := by decide) : Touch msk z0 (State.laneOps op x0 s).2 := by
  refine Touch.use hk hw (fun hq => ?_)
  suffices h : ∀ z, Touch 1073741824 z s → Touch 1073741824 z (State.laneOps op x0 s).2 from h _ hq
  clear hq hk hw
  intro z0 hk
  induction x0 generalizing s with
  | nil =>
    first | exact hk | (simp only [State.laneOps]; repeat' (first | with_reducible assumption | (rename_i hq; have hz := congrArg Prod.snd hq; dsimp only at hz; subst hz; try clear hq) | (have hz := congrArg Prod.snd ‹_ = (_, _)›; dsimp only at hz; subst hz) | intro _ _ hk | with_reducible apply touch_ite | with_reducible refine touch_fit16 ?_ | with_reducible refine touch_free16 ?_ | dsimp only | split))
  | cons x r ih =>
    simp only [State.laneOps]
    repeat' (first | with_reducible assumption | with_reducible apply ih | (rename_i hq; have hz := congrArg Prod.snd hq; dsimp only at hz; subst hz; try clear hq) | (have hz := congrArg Prod.snd ‹_ = (_, _)›; dsimp only at hz; subst hz) | intro _ _ hk | with_reducible apply touch_ite | with_reducible refine touch_fit16 ?_ | with_reducible refine touch_free16 ?_ | dsimp only | split)

theorem touch_SigCore_aSlot {msk : Nat} {z0 : State} {op : AOp} {r : SigCore} {c : SigCore} {s : State} (hk : Touch msk z0 s)
    (hw : msk &&& 1073741824 = 1073741824 := by decide) : Touch msk z0 (SigCore.aSlot op r c s).2 := by
  refine Touch.use hk hw (fun hk => ?_)
  unfold SigCore.aSlot
  repeat' (first | with_reducible assumption | (rename_i hq; have hz := congrArg Prod.snd hq; dsimp only at hz; subst hz; try clear hq) | (have hz := congrArg Prod.snd ‹_ = (_, _)›; dsimp only at hz; subst hz) | intro _ _ hk | with_reducible apply touch_ite | with_reducible refine touch_fit16 ?_ | with_reducible refine touch_laneOps ?_ | dsimp only | split)

theorem touch_scalar {msk : Nat} {z0 : State} {op : SAlu} {a : W32} {b : W32} {s : State} (hk : Touch msk z0 s)
    (hw : msk &&& 1073741824 = 1073741824 := by decide) : Touch msk z0 (State.scalar op a b s).2 := by
  refine Touch.use hk hw (fun hk => ?_)
  unfold State.scalar
  repeat' (first | with_reducible assumption | (rename_i hq; have hz := congrArg Prod.snd hq; dsimp only at hz; subst hz; try clear hq) | (have hz := congrArg Prod.snd ‹_ = (_, _)›; dsimp only at hz; subst hz) | intro _ _ hk | with_reducible apply touch_ite | with_reducible refine touch_takeFree ?_ | dsimp only | split)

theorem touch_SigCore_cSlot {msk : Nat} {z0 : State} {core : Nat} {op : COp} {a : Nat} {r : SigCore} {c : SigCore} {s : State} (hk : Touch msk z0 s)
    (hw : msk &&& 1073758208 = 1073758208 := by decide) : Touch msk z0 (SigCore.cSlot core op a r c s).2 := by
  refine Touch.use hk hw (fun hk => ?_)
  unfold SigCore.cSlot
  repeat' (first | with_reducible assumption | (rename_i hq; have hz := congrArg Prod.snd hq; dsimp only at hz; subst hz; try clear hq) | (have hz := congrArg Prod.snd ‹_ = (_, _)›; dsimp only at hz; subst hz) | intro _ _ hk | with_reducible apply touch_ite | with_reducible refine touch_raiseIrq ?_ | with_reducible refine touch_scalar ?_ | dsimp only | split)

theorem touch_coreFault {msk : Nat} {z0 : State} {core : Nat} {code : Nat} {addr : Nat} {s : State} (hk : Touch msk z0 s)
    (hw : msk &&& 4974461982 = 4974461982 := by decide) : Touch msk z0 (State.coreFault core code addr s) := by
  refine Touch.use hk hw (fun hk => ?_)
  unfold State.coreFault
  repeat' (first | with_reducible assumption | intro _ _ hk | with_reducible apply touch_ite | with_reducible refine touch_enterFenced ?_ | with_reducible refine touch_modSigCore ?_ | with_reducible refine touch_setUnit ?_ | dsimp only | split)

theorem touch_writeStore {msk : Nat} {z0 : State} {core : Nat} {s : State} (hk : Touch msk z0 s)
    (hw : msk &&& 6442468352 = 6442468352 := by decide) : Touch msk z0 (State.writeStore core s) := by
  refine Touch.use hk hw (fun hk => ?_)
  unfold State.writeStore
  repeat' (first | with_reducible assumption | intro _ _ hk | with_reducible apply touch_ite | with_reducible refine touch_modSigCore ?_ | with_reducible refine touch_wrCompanionMem ?_ | with_reducible refine touch_wr ?_ | dsimp only | split)

theorem touch_issueBundle {msk : Nat} {z0 : State} {core : Nat} {b : Bundle} {ecc : ScEcc} {taken : Bool} {s : State} (hk : Touch msk z0 s)
    (hw : msk &&& 8195687454 = 8195687454 := by decide) : Touch msk z0 (State.issueBundle core b ecc taken s) := by
  refine Touch.use hk hw (fun hk => ?_)
  unfold State.issueBundle
  repeat' (first | with_reducible assumption | (rename_i hq; have hz := congrArg Prod.snd hq; dsimp only at hz; subst hz; try clear hq) | (have hz := congrArg Prod.snd ‹_ = (_, _)›; dsimp only at hz; subst hz) | intro _ _ hk | with_reducible apply touch_ite | with_reducible refine touch_SigCore_aSlot ?_ | with_reducible refine touch_SigCore_cSlot ?_ | with_reducible refine touch_access ?_ | with_reducible refine touch_coreFault ?_ | with_reducible refine touch_modSigCore ?_ | with_reducible refine touch_writeStore ?_ | dsimp only | split)

theorem touch_idleCycle {msk : Nat} {z0 : State} {core : Nat} {taken : Bool} {f : SigCore → SigCore} {s : State} (hk : Touch msk z0 s)
    (hw : msk &&& 6442468352 = 6442468352 := by decide) : Touch msk z0 (State.idleCycle core taken f s) := by
  refine Touch.use hk hw (fun hk => ?_)
  unfold State.idleCycle
  repeat' (first | with_reducible assumption | intro _ _ hk | with_reducible apply touch_ite | with_reducible refine touch_modSigCore ?_ | with_reducible refine touch_writeStore ?_ | dsimp only | split)

theorem touch_runBundle {msk : Nat} {z0 : State} {core : Nat} {ecc : ScEcc} {taken : Bool} {s : State} (hk : Touch msk z0 s)
    (hw : msk &&& 8195687454 = 8195687454 := by decide) : Touch msk z0 (State.runBundle core ecc taken s) := by
  refine Touch.use hk hw (fun hk => ?_)
  unfold State.runBundle
  repeat' (first | with_reducible assumption | intro _ _ hk | with_reducible apply touch_ite | with_reducible refine touch_idleCycle ?_ | with_reducible refine touch_issueBundle ?_ | with_reducible refine touch_modSigCore ?_ | dsimp only | split)

theorem touch_execBundleIssue {core : Fin 384} {irq : ScIrq} {ecc : ScEcc} {s : State} {zt : State} (ht : execBundleIssue core irq ecc s = .next zt) : Touch 8195687454 s zt := by
  unfold execBundleIssue at ht
  cases ht
  have hk := Touch.refl 8195687454 s
  repeat' (first | with_reducible assumption | intro _ _ hk | with_reducible apply touch_ite | with_reducible refine touch_idleCycle ?_ | with_reducible refine touch_modCrossing ?_ | with_reducible refine touch_modSigCore ?_ | with_reducible refine touch_raiseIrq ?_ | with_reducible refine touch_runBundle ?_ | dsimp only | split)

theorem touch_serveExt {msk : Nat} {z0 : State} {core : Nat} {x : ExtAccess} {finding : ReadFinding} {s : State} (hk : Touch msk z0 s)
    (hw : msk &&& 8195819152 = 8195819152 := by decide) : Touch msk z0 (State.serveExt core x finding s) := by
  refine Touch.use hk hw (fun hk => ?_)
  unfold State.serveExt
  repeat' (first | with_reducible assumption | intro _ _ hk | with_reducible apply touch_ite | with_reducible refine touch_access ?_ | with_reducible refine touch_modCrossing ?_ | dsimp only | split)

theorem touch_execLdmExtAccess {core : Fin 384} {arrives : Option ExtSource} {finding : ReadFinding} {s : State} {zt : State} (ht : execLdmExtAccess core arrives finding s = .next zt) : Touch 8195819152 s zt := by
  unfold execLdmExtAccess at ht
  cases ht
  have hk := Touch.refl 8195819152 s
  repeat' (first | with_reducible assumption | intro _ _ hk | with_reducible apply touch_ite | with_reducible refine touch_modSigCore ?_ | with_reducible refine touch_present ?_ | with_reducible refine touch_serveExt ?_ | dsimp only | split)

theorem touch_execProgramLoad {group : Fin 48} {cores : List (Fin 8)} {image : ImageRange} {start : BitVec 12} {s : State} {zt : State} (ht : execProgramLoad group cores image start s = .next zt) : Touch 536887296 s zt := by
  unfold execProgramLoad at ht
  cases ht
  have hk := Touch.refl 536887296 s
  repeat' (first | with_reducible assumption | with_reducible refine touch_forEach ?_ ?_ | intro _ _ hk | with_reducible apply touch_ite | with_reducible refine touch_emit ?_ | with_reducible refine touch_modSigCore ?_ | dsimp only | split)

end Sys2Proof.Machine
end

