-- ==== Sys2Proof/Laws/TouchEngines.lean ====
section
/-! SUPPORT. Which parts of the state the operations of Sys2Proof/Machine/Engines.lean may change. -/

namespace Sys2Proof.Machine

set_option linter.all false
set_option Elab.async false

theorem touch_objWriteAll {msk : Nat} {z0 : State} {e : Nat} {x0 : Nat} {x1 : Nat} {x2 : Bytes} {s : State} (hk : Touch msk z0 s)
    (hw : msk &&& 8187283072 = 8187283072 := by decide) : Touch msk z0 (State.objWriteAll e x0 x1 x2 s) := by
  refine Touch.use hk hw (fun hq => ?_)
  suffices h : ∀ z, Touch 8187283072 z s → Touch 8187283072 z (State.objWriteAll e x0 x1 x2 s) from h _ hq
  clear hq hk hw
  intro z0 hk
  induction x0 generalizing x1 x2 s with
  | zero =>
    first | exact hk | (simp only [State.objWriteAll]; repeat' (first | with_reducible assumption | intro _ _ hk | with_reducible apply touch_ite | with_reducible refine touch_objWrite ?_ | dsimp only | split))
  | succ n ih =>
    simp only [State.objWriteAll]
    repeat' (first | with_reducible assumption | with_reducible apply ih | intro _ _ hk | with_reducible apply touch_ite | with_reducible refine touch_objWrite ?_ | dsimp only | split)

theorem touch_softWrite {msk : Nat} {z0 : State} {b : Bytes} {e : Nat} {comb : List Bytes} {crcOk : Bool} {s : State} (hk : Touch msk z0 s)
    (hw : msk &&& 8187283072 = 8187283072 := by decide) : Touch msk z0 (State.softWrite b e comb crcOk s) := by
  refine Touch.use hk hw (fun hk => ?_)
  unfold State.softWrite
  repeat' (first | with_reducible assumption | with_reducible refine touch_forEach ?_ ?_ | intro _ _ hk | with_reducible apply touch_ite | with_reducible refine touch_objWriteAll ?_ | dsimp only | split)

theorem touch_engineDone {msk : Nat} {z0 : State} {b : Bytes} {s : State} (hk : Touch msk z0 s)
    (hw : msk &&& 536887296 = 536887296 := by decide) : Touch msk z0 (State.engineDone b s) := by
  refine Touch.use hk hw (fun hk => ?_)
  unfold State.engineDone
  repeat' (first | with_reducible assumption | intro _ _ hk | with_reducible apply touch_ite | with_reducible refine touch_emit ?_ | with_reducible refine touch_raiseIrq ?_ | dsimp only | split)

theorem touch_putStatus {msk : Nat} {z0 : State} {b : Bytes} {r : Bytes} {s : State} (hk : Touch msk z0 s)
    (hw : msk &&& 6442451968 = 6442451968 := by decide) : Touch msk z0 (State.putStatus b r s) := by
  refine Touch.use hk hw (fun hk => ?_)
  unfold State.putStatus
  repeat' (first | with_reducible assumption | intro _ _ hk | with_reducible apply touch_ite | with_reducible refine touch_wrCompanionMem ?_ | with_reducible refine touch_wr ?_ | dsimp only | split)

theorem touch_queueJob {msk : Nat} {z0 : State} {engine : Nat} {b : Bytes} {s : State} (hk : Touch msk z0 s)
    (hw : msk &&& 6979339264 = 6979339264 := by decide) : Touch msk z0 (State.queueJob engine b s) := by
  refine Touch.use hk hw (fun hk => ?_)
  unfold State.queueJob
  repeat' (first | with_reducible assumption | intro _ _ hk | with_reducible apply touch_ite | with_reducible refine touch_engineDone ?_ | with_reducible refine touch_modEngine ?_ | with_reducible refine touch_putStatus ?_ | dsimp only | split)

theorem touch_releaseHeld {msk : Nat} {z0 : State} {engine : Nat} {s : State} (hk : Touch msk z0 s)
    (hw : msk &&& 6979339264 = 6979339264 := by decide) : Touch msk z0 (State.releaseHeld engine s) := by
  refine Touch.use hk hw (fun hk => ?_)
  unfold State.releaseHeld
  repeat' (first | with_reducible assumption | with_reducible refine touch_forEach ?_ ?_ | intro _ _ hk | with_reducible apply touch_ite | with_reducible refine touch_emit ?_ | with_reducible refine touch_modEngine ?_ | with_reducible refine touch_queueJob ?_ | dsimp only | split)

theorem touch_execJobPost {engine : Fin 100} {fromWindow : Bool} {job : Bytes} {s : State} {zt : State} (ht : execJobPost engine fromWindow job s = .next zt) : Touch 6979339264 s zt := by
  unfold execJobPost at ht
  cases ht
  have hk := Touch.refl 6979339264 s
  repeat' (first | with_reducible assumption | intro _ _ hk | with_reducible apply touch_ite | with_reducible refine touch_emit ?_ | with_reducible refine touch_modEngine ?_ | with_reducible refine touch_queueJob ?_ | dsimp only | split)

theorem touch_execJobStart {engine : Fin 100} {s : State} {zt : State} (ht : execJobStart engine s = .next zt) : Touch 16384 s zt := by
  unfold execJobStart at ht
  cases ht
  have hk := Touch.refl 16384 s
  repeat' (first | with_reducible assumption | intro _ _ hk | with_reducible apply touch_ite | with_reducible refine touch_modEngine ?_ | dsimp only | split)

theorem touch_runJob {msk : Nat} {z0 : State} {b : Bytes} {lost : List Nat} {s : State} (hk : Touch msk z0 s)
    (hw : msk &&& 8187283072 = 8187283072 := by decide) : Touch msk z0 (State.runJob b lost s).2 := by
  refine Touch.use hk hw (fun hk => ?_)
  unfold State.runJob
  repeat' (first | with_reducible assumption | intro _ _ hk | with_reducible apply touch_ite | with_reducible refine touch_softWrite ?_ | dsimp only | split)

theorem touch_execJobComplete {engine : Fin 100} {now : Nat} {lost : List Nat} {s : State} {zt : State} (ht : execJobComplete engine now lost s = .next zt) : Touch 8187827840 s zt := by
  unfold execJobComplete at ht
  cases ht
  have hk := Touch.refl 8187827840 s
  repeat' (first | with_reducible assumption | (rename_i hq; have hz := congrArg Prod.snd hq; dsimp only at hz; subst hz; try clear hq) | (have hz := congrArg Prod.snd ‹_ = (_, _)›; dsimp only at hz; subst hz) | intro _ _ hk | with_reducible apply touch_ite | with_reducible refine touch_at ?_ | with_reducible refine touch_engineDone ?_ | with_reducible refine touch_modDisp ?_ | with_reducible refine touch_modEngine ?_ | with_reducible refine touch_putStatus ?_ | with_reducible refine touch_record ?_ | with_reducible refine touch_runJob ?_ | with_reducible refine touch_wrCompanionMem ?_ | with_reducible refine touch_wr ?_ | dsimp only | split)

end Sys2Proof.Machine
end

