-- ==== Sys2Proof/Laws/TouchShepherd.lean ====
section
/-! SUPPORT. Which parts of the state the operations of Sys2Proof/Machine/Shepherd.lean may change. -/

namespace Sys2Proof.Machine

set_option linter.all false
set_option Elab.async false

theorem touch_miss {msk : Nat} {z0 : State} {cell : Nat} {slot : Nat} {stage : Nat} {cause : Nat} {late : Nat} {s : State} (hk : Touch msk z0 s)
    (hw : msk &&& 5914018832 = 5914018832 := by decide) : Touch msk z0 (State.miss cell slot stage cause late s) := by
  refine Touch.use hk hw (fun hk => ?_)
  unfold State.miss
  repeat' (first | with_reducible assumption | intro _ _ hk | with_reducible apply touch_ite | with_reducible refine touch_evidence ?_ | with_reducible refine touch_ledgerSnap ?_ | with_reducible refine touch_modCell ?_ | with_reducible refine touch_modShep ?_ | with_reducible refine touch_raise ?_ | dsimp only | split)

theorem touch_execStageDeadline {now : Nat} {cell : Fin 512} {slot : W32} {stage : Stage} {lateNs : Nat} {inputLate : Bool} {unitLost : Bool} {rerun : Bool} {s : State} {zt : State} (ht : execStageDeadline now cell slot stage lateNs inputLate unitLost rerun s = .next zt) : Touch 5914543120 s zt := by
  unfold execStageDeadline at ht
  cases ht
  have hk := Touch.refl 5914543120 s
  repeat' (first | with_reducible assumption | intro _ _ hk | with_reducible apply touch_ite | with_reducible refine touch_at ?_ | with_reducible refine touch_miss ?_ | dsimp only | split)

theorem touch_recheck {msk : Nat} {z0 : State} {s : State} (hk : Touch msk z0 s)
    (hw : msk &&& 16384 = 16384 := by decide) : Touch msk z0 (State.recheck s) := by
  refine Touch.use hk hw (fun hk => ?_)
  unfold State.recheck
  repeat' (first | with_reducible assumption | with_reducible refine touch_forEach ?_ ?_ | intro _ _ hk | with_reducible apply touch_ite | with_reducible refine touch_modCell ?_ | dsimp only | split)

theorem touch_openWindow {msk : Nat} {z0 : State} {w : Nat} {s : State} (hk : Touch msk z0 s)
    (hw : msk &&& 6987750428 = 6987750428 := by decide) : Touch msk z0 (State.openWindow w s) := by
  refine Touch.use hk hw (fun hk => ?_)
  unfold State.openWindow
  repeat' (first | with_reducible assumption | with_reducible refine touch_forEach ?_ ?_ | intro _ _ hk | with_reducible apply touch_ite | with_reducible refine touch_modFold ?_ | with_reducible refine touch_modShep ?_ | with_reducible refine touch_settleHolds ?_ | dsimp only | split)

theorem touch_execPenumbraOpen {now : Nat} {s : State} {zt : State} (ht : execPenumbraOpen now s = .next zt) : Touch 6988274716 s zt := by
  unfold execPenumbraOpen at ht
  cases ht
  have hk := Touch.refl 6988274716 s
  repeat' (first | with_reducible assumption | intro _ _ hk | with_reducible apply touch_ite | with_reducible refine touch_at ?_ | with_reducible refine touch_openWindow ?_ | dsimp only | split)

theorem touch_startWindow {msk : Nat} {z0 : State} {w : Nat} {s : State} (hk : Touch msk z0 s)
    (hw : msk &&& 6987750428 = 6987750428 := by decide) : Touch msk z0 (State.startWindow w s) := by
  refine Touch.use hk hw (fun hk => ?_)
  unfold State.startWindow
  repeat' (first | with_reducible assumption | intro _ _ hk | with_reducible apply touch_ite | with_reducible refine touch_endWindow ?_ | with_reducible refine touch_modBarrier ?_ | with_reducible refine touch_openWindow ?_ | dsimp only | split)

theorem touch_execWindowBoundary {now : Nat} {s : State} {zt : State} (ht : execWindowBoundary now s = .next zt) : Touch 6988356636 s zt := by
  unfold execWindowBoundary at ht
  cases ht
  have hk := Touch.refl 6988356636 s
  repeat' (first | with_reducible assumption | with_reducible refine touch_forEach ?_ ?_ | intro _ _ hk | with_reducible apply touch_ite | with_reducible refine touch_advance ?_ | with_reducible refine touch_at ?_ | with_reducible refine touch_modShep ?_ | with_reducible refine touch_radioOn ?_ | with_reducible refine touch_recheck ?_ | with_reducible refine touch_startWindow ?_ | ((fail_if_success (with_reducible refine touch_eta ?_)); with_reducible refine touch_lit16 ?_) | dsimp only | split)

theorem touch_startCell {msk : Nat} {z0 : State} {c : Nat} {s : State} (hk : Touch msk z0 s)
    (hw : msk &&& 49152 = 49152 := by decide) : Touch msk z0 (State.startCell c s) := by
  refine Touch.use hk hw (fun hk => ?_)
  unfold State.startCell
  repeat' (first | with_reducible assumption | intro _ _ hk | with_reducible apply touch_ite | with_reducible refine touch_modCell ?_ | with_reducible refine touch_modShep ?_ | dsimp only | split)

theorem touch_cellFrame {msk : Nat} {z0 : State} {c : Nat} {s : State} (hk : Touch msk z0 s)
    (hw : msk &&& 2147796480 = 2147796480 := by decide) : Touch msk z0 (State.cellFrame c s) := by
  refine Touch.use hk hw (fun hk => ?_)
  unfold State.cellFrame
  repeat' (first | with_reducible assumption | intro _ _ hk | with_reducible apply touch_ite | with_reducible refine touch_freeCellNo ?_ | with_reducible refine touch_modCell ?_ | with_reducible refine touch_modLane ?_ | with_reducible refine touch_modShep ?_ | with_reducible refine touch_setCellPolicer ?_ | with_reducible refine touch_setPool ?_ | with_reducible refine touch_startCell ?_ | dsimp only | split)

theorem touch_handOver {msk : Nat} {z0 : State} {s : State} (hk : Touch msk z0 s)
    (hw : msk &&& 1074020864 = 1074020864 := by decide) : Touch msk z0 (State.handOver s) := by
  refine Touch.use hk hw (fun hk => ?_)
  unfold State.handOver
  repeat' (first | with_reducible assumption | (rename_i hq; have hz := congrArg Prod.snd hq; dsimp only at hz; subst hz; try clear hq) | (have hz := congrArg Prod.snd ‹_ = (_, _)›; dsimp only at hz; subst hz) | with_reducible refine touch_forEach ?_ ?_ | intro _ _ hk | with_reducible apply touch_ite | with_reducible refine touch_freeCellNo ?_ | with_reducible refine touch_takeFree ?_ | dsimp only | split)

theorem touch_execFrameBoundary {now : Nat} {s : State} {zt : State} (ht : execFrameBoundary now s = .next zt) : Touch 3222062592 s zt := by
  unfold execFrameBoundary at ht
  cases ht
  have hk := Touch.refl 3222062592 s
  repeat' (first | with_reducible assumption | with_reducible refine touch_forEach ?_ ?_ | intro _ _ hk | with_reducible apply touch_ite | with_reducible refine touch_at ?_ | with_reducible refine touch_cellFrame ?_ | with_reducible refine touch_handOver ?_ | with_reducible refine touch_reassign ?_ | dsimp only | split)

theorem touch_slotTick {msk : Nat} {z0 : State} {c : Nat} {s : State} (hk : Touch msk z0 s)
    (hw : msk &&& 16384 = 16384 := by decide) : Touch msk z0 (State.slotTick c s) := by
  refine Touch.use hk hw (fun hk => ?_)
  unfold State.slotTick
  repeat' (first | with_reducible assumption | with_reducible refine touch_forEach ?_ ?_ | intro _ _ hk | with_reducible apply touch_ite | with_reducible refine touch_raiseIrq ?_ | dsimp only | split)

theorem touch_cellSlot {msk : Nat} {z0 : State} {c : Nat} {s : State} (hk : Touch msk z0 s)
    (hw : msk &&& 49152 = 49152 := by decide) : Touch msk z0 (State.cellSlot c s) := by
  refine Touch.use hk hw (fun hk => ?_)
  unfold State.cellSlot
  repeat' (first | with_reducible assumption | intro _ _ hk | with_reducible apply touch_ite | with_reducible refine touch_modCell ?_ | with_reducible refine touch_modShep ?_ | with_reducible refine touch_slotTick ?_ | dsimp only | split)

theorem touch_assumedSlot {msk : Nat} {z0 : State} {c : Nat} {s : State} (hk : Touch msk z0 s)
    (hw : msk &&& 8437760 = 8437760 := by decide) : Touch msk z0 (State.assumedSlot c s) := by
  refine Touch.use hk hw (fun hk => ?_)
  unfold State.assumedSlot
  repeat' (first | with_reducible assumption | intro _ _ hk | with_reducible apply touch_ite | with_reducible refine touch_modCell ?_ | with_reducible refine touch_modHealth ?_ | with_reducible refine touch_startCell ?_ | dsimp only | split)

theorem touch_applyNrx {msk : Nat} {z0 : State} {s : State} (hk : Touch msk z0 s)
    (hw : msk &&& 4831857688 = 4831857688 := by decide) : Touch msk z0 (State.applyNrx s) := by
  refine Touch.use hk hw (fun hk => ?_)
  unfold State.applyNrx
  repeat' (first | with_reducible assumption | with_reducible refine touch_forEach ?_ ?_ | intro _ _ hk | with_reducible apply touch_ite | with_reducible refine touch_commandDone ?_ | with_reducible refine touch_modCell ?_ | with_reducible refine touch_modFold ?_ | with_reducible refine touch_modNrx ?_ | dsimp only | split)

theorem touch_nrxSlot {msk : Nat} {z0 : State} {gradient : Option (List W32)} {blocks : Nat} {failures : Nat} {s : State} (hk : Touch msk z0 s)
    (hw : msk &&& 5914018832 = 5914018832 := by decide) : Touch msk z0 (State.nrxSlot gradient blocks failures s) := by
  refine Touch.use hk hw (fun hk => ?_)
  unfold State.nrxSlot
  repeat' (first | with_reducible assumption | with_reducible refine touch_forEach ?_ ?_ | intro _ _ hk | with_reducible apply touch_ite | with_reducible refine touch_ledger ?_ | with_reducible refine touch_miss ?_ | with_reducible refine touch_modNrx ?_ | dsimp only | split)

theorem touch_execSlotBoundary {now : Nat} {gradient : Option (List W32)} {blocks : Nat} {failures : Nat} {s : State} {zt : State} (ht : execSlotBoundary now gradient blocks failures s = .next zt) : Touch 5914545176 s zt := by
  unfold execSlotBoundary at ht
  cases ht
  have hk := Touch.refl 5914545176 s
  repeat' (first | with_reducible assumption | with_reducible refine touch_forEach ?_ ?_ | intro _ _ hk | with_reducible apply touch_ite | with_reducible refine touch_applyNrx ?_ | with_reducible refine touch_assumedSlot ?_ | with_reducible refine touch_at ?_ | with_reducible refine touch_cellSlot ?_ | with_reducible refine touch_nrxSlot ?_ | dsimp only | split)

end Sys2Proof.Machine
end

