-- ==== Sys2Proof/Laws/TouchShaping.lean ====
section
/-! SUPPORT. Which parts of the state the operations of Sys2Proof/Machine/Shaping.lean may change. -/

namespace Sys2Proof.Machine

set_option linter.all false
set_option Elab.async false

theorem touch_maskShape {msk : Nat} {z0 : State} {lane : Nat} {cell : Nat} {p : Bytes} {s : State} (hk : Touch msk z0 s)
    (hw : msk &&& 278528 = 278528 := by decide) : Touch msk z0 (State.maskShape lane cell p s).2 := by
  refine Touch.use hk hw (fun hk => ?_)
  unfold State.maskShape
  repeat' (first | with_reducible assumption | intro _ _ hk | with_reducible apply touch_ite | with_reducible refine touch_modCell ?_ | with_reducible refine touch_modFhPort ?_ | with_reducible refine touch_modLane ?_ | with_reducible refine touch_takeUp ?_ | dsimp only | split)

end Sys2Proof.Machine
end

