-- ==== Sys2Proof/Laws/TouchFronthaul.lean ====
section
/-! SUPPORT. Which parts of the state the operations of Sys2Proof/Machine/Fronthaul.lean may change. -/

namespace Sys2Proof.Machine

set_option linter.all false
set_option Elab.async false

theorem touch_police {msk : Nat} {z0 : State} {lane : Nat} {k : Nat} {n : Nat} {f : Frame} {s : State} (hk : Touch msk z0 s)
    (hw : msk &&& 262144 = 262144 := by decide) : Touch msk z0 (State.police lane k n f s).2.2 := by
  refine Touch.use hk hw (fun hk => ?_)
  unfold State.police
  repeat' (first | with_reducible assumption | intro _ _ hk | with_reducible apply touch_ite | with_reducible refine touch_modLane ?_ | dsimp only | split)

theorem touch_toPort {msk : Nat} {z0 : State} {lane : Nat} {b : Bytes} {s : State} (hk : Touch msk z0 s)
    (hw : msk &&& 6442845184 = 6442845184 := by decide) : Touch msk z0 (State.toPort lane b s) := by
  refine Touch.use hk hw (fun hk => ?_)
  unfold State.toPort
  repeat' (first | with_reducible assumption | intro _ _ hk | with_reducible apply touch_ite | with_reducible refine touch_modChan ?_ | with_reducible refine touch_modLane ?_ | with_reducible refine touch_wrCompanionMem ?_ | with_reducible refine touch_wr ?_ | dsimp only | split)

theorem touch_uplane {msk : Nat} {z0 : State} {lane : Nat} {cell : Nat} {f : Frame} {due : Int} {s : State} (hk : Touch msk z0 s)
    (hw : msk &&& 8061895696 = 8061895696 := by decide) : Touch msk z0 (State.uplane lane cell f due s) := by
  refine Touch.use hk hw (fun hk => ?_)
  unfold State.uplane
  repeat' (first | with_reducible assumption | intro _ _ hk | with_reducible apply touch_ite | with_reducible refine touch_miss ?_ | with_reducible refine touch_modCell ?_ | with_reducible refine touch_modFhPort ?_ | with_reducible refine touch_modLane ?_ | with_reducible refine touch_toPort ?_ | dsimp only | split)

theorem touch_deliverFrame {msk : Nat} {z0 : State} {lane : Nat} {inst : Nat} {w : Flow} {colour : Nat} {b : Bytes} {s : State} (hk : Touch msk z0 s)
    (hw : msk &&& 8187553424 = 8187553424 := by decide) : Touch msk z0 (State.deliverFrame lane inst w colour b s) := by
  refine Touch.use hk hw (fun hk => ?_)
  unfold State.deliverFrame
  repeat' (first | with_reducible assumption | intro _ _ hk | with_reducible apply touch_ite | with_reducible refine touch_addCompletion ?_ | with_reducible refine touch_modLane ?_ | with_reducible refine touch_objWrite ?_ | refine touch_bringIn ?_ (by assumption) | dsimp only | split)

theorem touch_tenantFrame {msk : Nat} {z0 : State} {lane : Nat} {inst : Nat} {w : Flow} {n : Nat} {f : Frame} {s : State} (hk : Touch msk z0 s)
    (hw : msk &&& 8187553680 = 8187553680 := by decide) : Touch msk z0 (State.tenantFrame lane inst w n f s) := by
  refine Touch.use hk hw (fun hk => ?_)
  unfold State.tenantFrame
  repeat' (first | with_reducible assumption | (rename_i hq; have hz := congrArg Prod.snd (congrArg Prod.snd hq); dsimp only at hz; subst hz; try clear hq) | (rename_i hq; have hz := congrArg Prod.snd hq; dsimp only at hz; subst hz; try clear hq) | (have hz := congrArg Prod.snd ‹_ = (_, _)›; dsimp only at hz; subst hz) | (have hz := congrArg Prod.snd (congrArg Prod.snd ‹_ = (_, _, _)›); dsimp only at hz; subst hz) | intro _ _ hk | with_reducible apply touch_ite | with_reducible refine touch_deliverFrame ?_ | with_reducible refine touch_modInst ?_ | with_reducible refine touch_police ?_ | ((fail_if_success (with_reducible refine touch_eta ?_)); with_reducible refine touch_lit8 ?_) | dsimp only | split)

theorem touch_unmatched {msk : Nat} {z0 : State} {lane : Nat} {s : State} (hk : Touch msk z0 s)
    (hw : msk &&& 262144 = 262144 := by decide) : Touch msk z0 (State.unmatched lane s) := by
  refine Touch.use hk hw (fun hk => ?_)
  unfold State.unmatched
  repeat' (first | with_reducible assumption | intro _ _ hk | with_reducible apply touch_ite | with_reducible refine touch_modLane ?_ | dsimp only | split)

theorem touch_classify {msk : Nat} {z0 : State} {lane : Nat} {n : Nat} {f : Frame} {due : Int} {s : State} (hk : Touch msk z0 s)
    (hw : msk &&& 8196122512 = 8196122512 := by decide) : Touch msk z0 (State.classify lane n f due s) := by
  refine Touch.use hk hw (fun hk => ?_)
  unfold State.classify
  repeat' (first | with_reducible assumption | (rename_i hq; have hz := congrArg Prod.snd (congrArg Prod.snd hq); dsimp only at hz; subst hz; try clear hq) | (rename_i hq; have hz := congrArg Prod.snd hq; dsimp only at hz; subst hz; try clear hq) | (have hz := congrArg Prod.snd ‹_ = (_, _)›; dsimp only at hz; subst hz) | (have hz := congrArg Prod.snd (congrArg Prod.snd ‹_ = (_, _, _)›); dsimp only at hz; subst hz) | intro _ _ hk | with_reducible apply touch_ite | with_reducible refine touch_emit ?_ | with_reducible refine touch_police ?_ | with_reducible refine touch_tenantFrame ?_ | with_reducible refine touch_unmatched ?_ | with_reducible refine touch_uplane ?_ | dsimp only | split)

theorem touch_execFhRxFrame {now : Nat} {lane : Fin 32} {f : Frame} {dueNs : Int} {s : State} {zt : State} (ht : execFhRxFrame now lane f dueNs s = .next zt) : Touch 8196646800 s zt := by
  unfold execFhRxFrame at ht
  cases ht
  have hk := Touch.refl 8196646800 s
  repeat' (first | with_reducible assumption | intro _ _ hk | with_reducible apply touch_ite | with_reducible refine touch_at ?_ | with_reducible refine touch_classify ?_ | with_reducible refine touch_modLane ?_ | dsimp only | split)

theorem touch_endEgress {msk : Nat} {z0 : State} {q : Nat} {c : QCtx} {st : Status} {sent : Bool} {late : Bool} {ts : Option Nat} {s : State} (hk : Touch msk z0 s)
    (hw : msk &&& 8187291264 = 8187291264 := by decide) : Touch msk z0 (State.endEgress q c st sent late ts s) := by
  refine Touch.use hk hw (fun hk => ?_)
  unfold State.endEgress
  repeat' (first | with_reducible assumption | intro _ _ hk | with_reducible apply touch_ite | with_reducible refine touch_popHead ?_ | with_reducible refine touch_ringWrite ?_ | dsimp only | split)

theorem touch_bringGroups {msk : Nat} {z0 : State} {lane : Nat} {s : State} (hk : Touch msk z0 s)
    (hw : msk &&& 8187291264 = 8187291264 := by decide) : Touch msk z0 (State.bringGroups lane s) := by
  refine Touch.use hk hw (fun hk => ?_)
  unfold State.bringGroups
  repeat' (first | with_reducible assumption | with_reducible refine touch_forEach ?_ ?_ | intro _ _ hk | with_reducible apply touch_ite | with_reducible refine touch_bringGroup ?_ | dsimp only | split)

theorem touch_charge' {msk : Nat} {z0 : State} {lane : Nat} {n : Nat} {ch : Choice} {s : State} (hk : Touch msk z0 s)
    (hw : msk &&& 270336 = 270336 := by decide) : Touch msk z0 (State.charge' lane n ch s) := by
  refine Touch.use hk hw (fun hk => ?_)
  unfold State.charge'
  repeat' (first | with_reducible assumption | with_reducible refine touch_forEach ?_ ?_ | intro _ _ hk | with_reducible apply touch_ite | with_reducible refine touch_modLane ?_ | with_reducible refine touch_modQueue ?_ | with_reducible refine touch_setGroup ?_ | dsimp only | split)

theorem touch_egressRead {msk : Nat} {z0 : State} {c : QCtx} {d : Bytes} {s : State} (hk : Touch msk z0 s)
    (hw : msk &&& 8187282432 = 8187282432 := by decide) : Touch msk z0 (State.egressRead c d s).2 := by
  refine Touch.use hk hw (fun hk => ?_)
  unfold State.egressRead
  repeat' (first | with_reducible assumption | (rename_i hq; have hz := congrArg Prod.snd hq; dsimp only at hz; subst hz; try clear hq) | (have hz := congrArg Prod.snd ‹_ = (_, _)›; dsimp only at hz; subst hz) | intro _ _ hk | with_reducible apply touch_ite | with_reducible refine touch_fetch ?_ | dsimp only | split)

theorem touch_shapeFrame {msk : Nat} {z0 : State} {lane : Nat} {b : Bytes} {s : State} (hk : Touch msk z0 s)
    (hw : msk &&& 278528 = 278528 := by decide) : Touch msk z0 (State.shapeFrame lane b s).2 := by
  refine Touch.use hk hw (fun hk => ?_)
  unfold State.shapeFrame
  repeat' (first | with_reducible assumption | (rename_i hq; have hz := congrArg Prod.snd hq; dsimp only at hz; subst hz; try clear hq) | (have hz := congrArg Prod.snd ‹_ = (_, _)›; dsimp only at hz; subst hz) | intro _ _ hk | with_reducible apply touch_ite | with_reducible refine touch_maskShape ?_ | dsimp only | split)

theorem touch_startFrame {msk : Nat} {z0 : State} {lane : Nat} {ch : Choice} {s : State} (hk : Touch msk z0 s)
    (hw : msk &&& 8187570064 = 8187570064 := by decide) : Touch msk z0 (State.startFrame lane ch s) := by
  refine Touch.use hk hw (fun hk => ?_)
  unfold State.startFrame
  repeat' (first | with_reducible assumption | (rename_i hq; have hz := congrArg Prod.snd hq; dsimp only at hz; subst hz; try clear hq) | (have hz := congrArg Prod.snd ‹_ = (_, _)›; dsimp only at hz; subst hz) | intro _ _ hk | with_reducible apply touch_ite | with_reducible refine touch_charge' ?_ | with_reducible refine touch_countSpoof ?_ | with_reducible refine touch_egressRead ?_ | with_reducible refine touch_endEgress ?_ | with_reducible refine touch_modLane ?_ | with_reducible refine touch_shapeFrame ?_ | dsimp only | split)

theorem touch_execEgressFrameStart {now : Nat} {lane : Fin 32} {s : State} {zt : State} (ht : execEgressFrameStart now lane s = .next zt) : Touch 8188094352 s zt := by
  unfold execEgressFrameStart at ht
  cases ht
  have hk := Touch.refl 8188094352 s
  repeat' (first | with_reducible assumption | intro _ _ hk | with_reducible apply touch_ite | with_reducible refine touch_at ?_ | with_reducible refine touch_bringGroups ?_ | with_reducible refine touch_modLane ?_ | with_reducible refine touch_startFrame ?_ | dsimp only | split)

theorem touch_execEgressFrameDone {now : Nat} {lane : Fin 32} {s : State} {zt : State} (ht : execEgressFrameDone now lane s = .next zt) : Touch 8188077952 s zt := by
  unfold execEgressFrameDone at ht
  cases ht
  have hk := Touch.refl 8188077952 s
  repeat' (first | with_reducible assumption | intro _ _ hk | with_reducible apply touch_ite | with_reducible refine touch_at ?_ | with_reducible refine touch_emit ?_ | with_reducible refine touch_endEgress ?_ | with_reducible refine touch_modLane ?_ | with_reducible refine touch_staleDiscard ?_ | dsimp only | split)

theorem touch_execEgressDeadlineExpiry {now : Nat} {queue : Nat} {s : State} {zt : State} (ht : execEgressDeadlineExpiry now queue s = .next zt) : Touch 8196515472 s zt := by
  unfold execEgressDeadlineExpiry at ht
  cases ht
  have hk := Touch.refl 8196515472 s
  repeat' (first | with_reducible assumption | (rename_i hq; have hz := congrArg Prod.snd hq; dsimp only at hz; subst hz; try clear hq) | (have hz := congrArg Prod.snd ‹_ = (_, _)›; dsimp only at hz; subst hz) | intro _ _ hk | with_reducible apply touch_ite | with_reducible refine touch_at ?_ | with_reducible refine touch_endEgress ?_ | with_reducible refine touch_miss ?_ | with_reducible refine touch_modFhPort ?_ | with_reducible refine touch_modLane ?_ | with_reducible refine touch_takeFree ?_ | dsimp only | split)

theorem touch_execFhLaneLinkChange {lane : Fin 32} {up : Bool} {s : State} {zt : State} (ht : execFhLaneLinkChange lane up s = .next zt) : Touch 8650752 s zt := by
  unfold execFhLaneLinkChange at ht
  cases ht
  have hk := Touch.refl 8650752 s
  repeat' (first | with_reducible assumption | intro _ _ hk | with_reducible apply touch_ite | with_reducible refine touch_evidence ?_ | with_reducible refine touch_ledger ?_ | with_reducible refine touch_modFhPort ?_ | with_reducible refine touch_modLane ?_ | dsimp only | split)

end Sys2Proof.Machine
end

