-- ==== Sys2Proof/Laws/TouchTime.lean ====
section
/-! SUPPORT. Which parts of the state the operations of Sys2Proof/Machine/Time.lean may change. -/

namespace Sys2Proof.Machine

set_option linter.all false
set_option Elab.async false

theorem touch_modDom {msk : Nat} {z0 : State} {mirror : Bool} {f : Domain → Domain} {s : State} (hk : Touch msk z0 s)
    (hw : msk &&& 524288 = 524288 := by decide) : Touch msk z0 (State.modDom mirror f s) := by
  refine Touch.use hk hw (fun hk => ?_)
  unfold State.modDom
  repeat' (first | with_reducible assumption | intro _ _ hk | with_reducible apply touch_ite | with_reducible refine touch_modTime ?_ | dsimp only | split)

theorem touch_atTime {msk : Nat} {z0 : State} {now : Nat} {s : State} (hk : Touch msk z0 s)
    (hw : msk &&& 524288 = 524288 := by decide) : Touch msk z0 (State.atTime now s) := by
  refine Touch.use hk hw (fun hk => ?_)
  unfold State.atTime
  repeat' (first | with_reducible assumption | intro _ _ hk | with_reducible apply touch_ite | with_reducible refine touch_at ?_ | with_reducible refine touch_modTime ?_ | dsimp only | split)

theorem touch_timeAlert {msk : Nat} {z0 : State} {reason : Nat} {s : State} (hk : Touch msk z0 s)
    (hw : msk &&& 4831839248 = 4831839248 := by decide) : Touch msk z0 (State.timeAlert reason s) := by
  refine Touch.use hk hw (fun hk => ?_)
  unfold State.timeAlert
  repeat' (first | with_reducible assumption | intro _ _ hk | with_reducible apply touch_ite | with_reducible refine touch_raise ?_ | dsimp only | split)

theorem touch_decayRestored {msk : Nat} {z0 : State} {s : State} (hk : Touch msk z0 s)
    (hw : msk &&& 8388608 = 8388608 := by decide) : Touch msk z0 (State.decayRestored s) := by
  refine Touch.use hk hw (fun hk => ?_)
  unfold State.decayRestored
  repeat' (first | with_reducible assumption | intro _ _ hk | with_reducible apply touch_ite | with_reducible refine touch_modHealth ?_ | dsimp only | split)

theorem touch_haveLocked {msk : Nat} {z0 : State} {s : State} (hk : Touch msk z0 s)
    (hw : msk &&& 8912896 = 8912896 := by decide) : Touch msk z0 (State.haveLocked s) := by
  refine Touch.use hk hw (fun hk => ?_)
  unfold State.haveLocked
  repeat' (first | with_reducible assumption | intro _ _ hk | with_reducible apply touch_ite | with_reducible refine touch_decayRestored ?_ | with_reducible refine touch_modTime ?_ | dsimp only | split)

theorem touch_selectDomain {msk : Nat} {z0 : State} {mirror : Bool} {s : State} (hk : Touch msk z0 s)
    (hw : msk &&& 8912896 = 8912896 := by decide) : Touch msk z0 (State.selectDomain mirror s) := by
  refine Touch.use hk hw (fun hk => ?_)
  unfold State.selectDomain
  repeat' (first | with_reducible assumption | intro _ _ hk | with_reducible apply touch_ite | with_reducible refine touch_haveLocked ?_ | with_reducible refine touch_modTime ?_ | dsimp only | split)

theorem touch_holdoverMean {msk : Nat} {z0 : State} {d : Domain} {s : State} (hk : Touch msk z0 s)
    (hw : msk &&& 1073741824 = 1073741824 := by decide) : Touch msk z0 (State.holdoverMean d s).2 := by
  refine Touch.use hk hw (fun hk => ?_)
  unfold State.holdoverMean
  repeat' (first | with_reducible assumption | (rename_i hq; have hz := congrArg Prod.snd hq; dsimp only at hz; subst hz; try clear hq) | (have hz := congrArg Prod.snd ‹_ = (_, _)›; dsimp only at hz; subst hz) | intro _ _ hk | with_reducible apply touch_ite | with_reducible refine touch_takeFree ?_ | dsimp only | split)

theorem touch_enterHoldover {msk : Nat} {z0 : State} {mirror : Bool} {s : State} (hk : Touch msk z0 s)
    (hw : msk &&& 5914493968 = 5914493968 := by decide) : Touch msk z0 (State.enterHoldover mirror s) := by
  refine Touch.use hk hw (fun hk => ?_)
  unfold State.enterHoldover
  repeat' (first | with_reducible assumption | (rename_i hq; have hz := congrArg Prod.snd hq; dsimp only at hz; subst hz; try clear hq) | (have hz := congrArg Prod.snd ‹_ = (_, _)›; dsimp only at hz; subst hz) | intro _ _ hk | with_reducible apply touch_ite | with_reducible refine touch_holdoverMean ?_ | with_reducible refine touch_modDom ?_ | with_reducible refine touch_modTime ?_ | with_reducible refine touch_selectDomain ?_ | with_reducible refine touch_timeAlert ?_ | dsimp only | split)

theorem touch_servoSum {msk : Nat} {z0 : State} {kp : W32} {ki : W32} {o : Int} {sum : Int} {s : State} (hk : Touch msk z0 s)
    (hw : msk &&& 1073741824 = 1073741824 := by decide) : Touch msk z0 (State.servoSum kp ki o sum s).2 := by
  refine Touch.use hk hw (fun hk => ?_)
  unfold State.servoSum
  repeat' (first | with_reducible assumption | (rename_i hq; have hz := congrArg Prod.snd hq; dsimp only at hz; subst hz; try clear hq) | (have hz := congrArg Prod.snd ‹_ = (_, _)›; dsimp only at hz; subst hz) | intro _ _ hk | with_reducible apply touch_ite | with_reducible refine touch_takeFree ?_ | dsimp only | split)

theorem touch_stepTime {msk : Nat} {z0 : State} {o : Int} {s : State} (hk : Touch msk z0 s)
    (hw : msk &&& 4438097920 = 4438097920 := by decide) : Touch msk z0 (State.stepTime o s) := by
  refine Touch.use hk hw (fun hk => ?_)
  unfold State.stepTime
  repeat' (first | with_reducible assumption | intro _ _ hk | with_reducible apply touch_ite | with_reducible refine touch_modHealth ?_ | with_reducible refine touch_modPower ?_ | with_reducible refine touch_modTime ?_ | dsimp only | split)

theorem touch_noteOffset {msk : Nat} {z0 : State} {s : State} (hk : Touch msk z0 s)
    (hw : msk &&& 4832363536 = 4832363536 := by decide) : Touch msk z0 (State.noteOffset s) := by
  refine Touch.use hk hw (fun hk => ?_)
  unfold State.noteOffset
  repeat' (first | with_reducible assumption | intro _ _ hk | with_reducible apply touch_ite | with_reducible refine touch_modTime ?_ | with_reducible refine touch_timeAlert ?_ | dsimp only | split)

theorem touch_measurement {msk : Nat} {z0 : State} {mirror : Bool} {o : Int} {path : Int} {s : State} (hk : Touch msk z0 s)
    (hw : msk &&& 6048711696 = 6048711696 := by decide) : Touch msk z0 (State.measurement mirror o path s) := by
  refine Touch.use hk hw (fun hk => ?_)
  unfold State.measurement
  repeat' (first | with_reducible assumption | (rename_i hq; have hz := congrArg Prod.snd hq; dsimp only at hz; subst hz; try clear hq) | (have hz := congrArg Prod.snd ‹_ = (_, _)›; dsimp only at hz; subst hz) | intro _ _ hk | with_reducible apply touch_ite | with_reducible refine touch_enterHoldover ?_ | with_reducible refine touch_haveLocked ?_ | with_reducible refine touch_modDom ?_ | with_reducible refine touch_modTime ?_ | with_reducible refine touch_noteOffset ?_ | with_reducible refine touch_servoSum ?_ | with_reducible refine touch_stepTime ?_ | with_reducible refine touch_timeAlert ?_ | dsimp only | split)

theorem touch_announced {msk : Nat} {z0 : State} {mirror : Bool} {gm : W64} {cls : Nat} {acc : Nat} {s : State} (hk : Touch msk z0 s)
    (hw : msk &&& 5914493968 = 5914493968 := by decide) : Touch msk z0 (State.announced mirror gm cls acc s) := by
  refine Touch.use hk hw (fun hk => ?_)
  unfold State.announced
  repeat' (first | with_reducible assumption | intro _ _ hk | with_reducible apply touch_ite | with_reducible refine touch_enterHoldover ?_ | with_reducible refine touch_modDom ?_ | dsimp only | split)

theorem touch_slaveMsg {msk : Nat} {z0 : State} {mirror : Bool} {lane : Nat} {rx : Int} {msg : PtpMsg} {s : State} (hk : Touch msk z0 s)
    (hw : msk &&& 6048711696 = 6048711696 := by decide) : Touch msk z0 (State.slaveMsg mirror lane rx msg s) := by
  refine Touch.use hk hw (fun hk => ?_)
  unfold State.slaveMsg
  repeat' (first | with_reducible assumption | (rename_i hq; have hz := congrArg Prod.snd hq; dsimp only at hz; subst hz; try clear hq) | (have hz := congrArg Prod.snd ‹_ = (_, _)›; dsimp only at hz; subst hz) | intro _ _ hk | with_reducible apply touch_ite | with_reducible refine touch_announce ?_ | with_reducible refine touch_announced ?_ | with_reducible refine touch_measurement ?_ | with_reducible refine touch_modDom ?_ | with_reducible refine touch_takeFree ?_ | dsimp only | split)

theorem touch_execPtpRx {now : Nat} {lane : Fin 32} {domain : Byte} {msg : PtpMsg} {s : State} {zt : State} (ht : execPtpRx now lane domain msg s = .next zt) : Touch 6048711696 s zt := by
  unfold execPtpRx at ht
  cases ht
  have hk := Touch.refl 6048711696 s
  repeat' (first | with_reducible assumption | intro _ _ hk | with_reducible apply touch_ite | with_reducible refine touch_atTime ?_ | with_reducible refine touch_emit ?_ | with_reducible refine touch_slaveMsg ?_ | dsimp only | split)

theorem touch_execPtpTxTick {now : Nat} {lane : Fin 32} {kind : Fin 3} {s : State} {zt : State} (ht : execPtpTxTick now lane kind s = .next zt) : Touch 537395200 s zt := by
  unfold execPtpTxTick at ht
  cases ht
  have hk := Touch.refl 537395200 s
  repeat' (first | with_reducible assumption | with_reducible refine touch_forEach ?_ ?_ | intro _ _ hk | with_reducible apply touch_ite | with_reducible refine touch_atTime ?_ | with_reducible refine touch_emit ?_ | dsimp only | split)

theorem touch_execAnnounceTimeout {now : Nat} {mirror : Bool} {s : State} {zt : State} (ht : execAnnounceTimeout now mirror s = .next zt) : Touch 5914493968 s zt := by
  unfold execAnnounceTimeout at ht
  cases ht
  have hk := Touch.refl 5914493968 s
  repeat' (first | with_reducible assumption | intro _ _ hk | with_reducible apply touch_ite | with_reducible refine touch_atTime ?_ | with_reducible refine touch_enterHoldover ?_ | with_reducible refine touch_modDom ?_ | dsimp only | split)

theorem touch_execTimeDomainSelect {m : Fin 16} {s : State} {zt : State} (ht : execTimeDomainSelect m s = .next zt) : Touch 4840752152 s zt := by
  unfold execTimeDomainSelect at ht
  cases ht
  have hk := Touch.refl 4840752152 s
  repeat' (first | with_reducible assumption | intro _ _ hk | with_reducible apply touch_ite | with_reducible refine touch_modTime ?_ | with_reducible refine touch_runCommand ?_ ?_ | with_reducible refine touch_selectDomain ?_ | dsimp only | split)

theorem touch_execDomainSwitchDone {now : Nat} {s : State} {zt : State} (ht : execDomainSwitchDone now s = .next zt) : Touch 524288 s zt := by
  unfold execDomainSwitchDone at ht
  cases ht
  have hk := Touch.refl 524288 s
  repeat' (first | with_reducible assumption | intro _ _ hk | with_reducible apply touch_ite | with_reducible refine touch_atTime ?_ | with_reducible refine touch_modDom ?_ | with_reducible refine touch_modTime ?_ | dsimp only | split)

theorem touch_execEsmcRx {lane : Fin 32} {good : Bool} {s : State} {zt : State} (ht : execEsmcRx lane good s = .next zt) : Touch 524288 s zt := by
  unfold execEsmcRx at ht
  cases ht
  have hk := Touch.refl 524288 s
  repeat' (first | with_reducible assumption | intro _ _ hk | with_reducible apply touch_ite | with_reducible refine touch_modTime ?_ | dsimp only | split)

theorem touch_execEsmcTxTick {now : Nat} {s : State} {zt : State} (ht : execEsmcTxTick now s = .next zt) : Touch 537395200 s zt := by
  unfold execEsmcTxTick at ht
  cases ht
  have hk := Touch.refl 537395200 s
  repeat' (first | with_reducible assumption | intro _ _ hk | with_reducible apply touch_ite | with_reducible refine touch_atTime ?_ | with_reducible refine touch_emit ?_ | dsimp only | split)

theorem touch_execSnapRefresh {now : Nat} {s : State} {zt : State} (ht : execSnapRefresh now s = .next zt) : Touch 524288 s zt := by
  unfold execSnapRefresh at ht
  cases ht
  have hk := Touch.refl 524288 s
  repeat' (first | with_reducible assumption | intro _ _ hk | with_reducible apply touch_ite | with_reducible refine touch_atTime ?_ | with_reducible refine touch_modTime ?_ | dsimp only | split)

theorem touch_modTpo {msk : Nat} {z0 : State} {k : Nat} {f : Tpo → Tpo} {s : State} (hk : Touch msk z0 s)
    (hw : msk &&& 524288 = 524288 := by decide) : Touch msk z0 (State.modTpo k f s) := by
  refine Touch.use hk hw (fun hk => ?_)
  unfold State.modTpo
  repeat' (first | with_reducible assumption | intro _ _ hk | with_reducible apply touch_ite | with_reducible refine touch_modTime ?_ | dsimp only | split)

theorem touch_execTpoSet {m : Fin 16} {s : State} {zt : State} (ht : execTpoSet m s = .next zt) : Touch 4832363544 s zt := by
  unfold execTpoSet at ht
  cases ht
  have hk := Touch.refl 4832363544 s
  repeat' (first | with_reducible assumption | intro _ _ hk | with_reducible apply touch_ite | with_reducible refine touch_modTpo ?_ | with_reducible refine touch_runCommand ?_ ?_ | dsimp only | split)

theorem touch_execTpoEdge {now : Nat} {output : Fin 8} {s : State} {zt : State} (ht : execTpoEdge now output s = .next zt) : Touch 524288 s zt := by
  unfold execTpoEdge at ht
  cases ht
  have hk := Touch.refl 524288 s
  repeat' (first | with_reducible assumption | intro _ _ hk | with_reducible apply touch_ite | with_reducible refine touch_atTime ?_ | with_reducible refine touch_modTpo ?_ | dsimp only | split)

theorem touch_modCapture {msk : Nat} {z0 : State} {k : Nat} {f : Capture → Capture} {s : State} (hk : Touch msk z0 s)
    (hw : msk &&& 524288 = 524288 := by decide) : Touch msk z0 (State.modCapture k f s) := by
  refine Touch.use hk hw (fun hk => ?_)
  unfold State.modCapture
  repeat' (first | with_reducible assumption | intro _ _ hk | with_reducible apply touch_ite | with_reducible refine touch_modTime ?_ | dsimp only | split)

theorem touch_execCaptureArm {m : Fin 16} {s : State} {zt : State} (ht : execCaptureArm m s = .next zt) : Touch 4832363544 s zt := by
  unfold execCaptureArm at ht
  cases ht
  have hk := Touch.refl 4832363544 s
  repeat' (first | with_reducible assumption | intro _ _ hk | with_reducible apply touch_ite | with_reducible refine touch_modCapture ?_ | with_reducible refine touch_runCommand ?_ ?_ | dsimp only | split)

theorem touch_execCaptureEdge {now : Nat} {input : Fin 4} {rising : Bool} {s : State} {zt : State} (ht : execCaptureEdge now input rising s = .next zt) : Touch 524288 s zt := by
  unfold execCaptureEdge at ht
  cases ht
  have hk := Touch.refl 524288 s
  repeat' (first | with_reducible assumption | intro _ _ hk | with_reducible apply touch_ite | with_reducible refine touch_atTime ?_ | with_reducible refine touch_modCapture ?_ | with_reducible refine touch_modTime ?_ | dsimp only | split)

theorem touch_popCapture {msk : Nat} {z0 : State} {input : Nat} {s : State} (hk : Touch msk z0 s)
    (hw : msk &&& 524288 = 524288 := by decide) : Touch msk z0 (State.popCapture input s) := by
  refine Touch.use hk hw (fun hk => ?_)
  unfold State.popCapture
  repeat' (first | with_reducible assumption | intro _ _ hk | with_reducible apply touch_ite | with_reducible refine touch_modCapture ?_ | dsimp only | split)

theorem touch_execCapPop {mapping : W32} {input : Fin 4} {s : State} {zt : State} (ht : execCapPop mapping input s = .next zt) : Touch 524288 s zt := by
  unfold execCapPop at ht
  cases ht
  have hk := Touch.refl 524288 s
  repeat' (first | with_reducible assumption | intro _ _ hk | with_reducible apply touch_ite | with_reducible refine touch_popCapture ?_ | dsimp only | split)

end Sys2Proof.Machine
end

