-- ==== Sys2Proof/Laws/TouchRoutes.lean ====
section
/-! SUPPORT. Which parts of the state the operations of Sys2Proof/Machine/Routes.lean may change. -/

namespace Sys2Proof.Machine

set_option linter.all false
set_option Elab.async false

theorem touch_unroute {msk : Nat} {z0 : State} {p : Nat} {s : State} (hk : Touch msk z0 s)
    (hw : msk &&& 1048576 = 1048576 := by decide) : Touch msk z0 (State.unroute p s) := by
  refine Touch.use hk hw (fun hk => ?_)
  unfold State.unroute
  repeat' (first | with_reducible assumption | intro _ _ hk | with_reducible apply touch_ite | with_reducible refine touch_modFab ?_ | dsimp only | split)

theorem touch_nextFseq {msk : Nat} {z0 : State} {s : State} (hk : Touch msk z0 s)
    (hw : msk &&& 1048576 = 1048576 := by decide) : Touch msk z0 (State.nextFseq s).2 := by
  refine Touch.use hk hw (fun hk => ?_)
  unfold State.nextFseq
  repeat' (first | with_reducible assumption | intro _ _ hk | with_reducible apply touch_ite | with_reducible refine touch_modFab ?_ | dsimp only | split)

theorem touch_keepReport {msk : Nat} {z0 : State} {uid : W64} {l : List LinkInfo} {s : State} (hk : Touch msk z0 s)
    (hw : msk &&& 1048576 = 1048576 := by decide) : Touch msk z0 (State.keepReport uid l s) := by
  refine Touch.use hk hw (fun hk => ?_)
  unfold State.keepReport
  repeat' (first | with_reducible assumption | intro _ _ hk | with_reducible apply touch_ite | with_reducible refine touch_modFab ?_ | dsimp only | split)

theorem touch_floodNodes {msk : Nat} {z0 : State} {l : List Nat} {s : State} (hk : Touch msk z0 s)
    (hw : msk &&& 537919488 = 537919488 := by decide) : Touch msk z0 (State.floodNodes l s) := by
  refine Touch.use hk hw (fun hk => ?_)
  unfold State.floodNodes
  repeat' (first | with_reducible assumption | (rename_i hq; have hz := congrArg Prod.snd hq; dsimp only at hz; subst hz; try clear hq) | (have hz := congrArg Prod.snd ‹_ = (_, _)›; dsimp only at hz; subst hz) | intro _ _ hk | with_reducible apply touch_ite | with_reducible refine touch_emit ?_ | with_reducible refine touch_modFab ?_ | with_reducible refine touch_nextFseq ?_ | dsimp only | split)

theorem touch_floodFull {msk : Nat} {z0 : State} {s : State} (hk : Touch msk z0 s)
    (hw : msk &&& 537919488 = 537919488 := by decide) : Touch msk z0 (State.floodFull s) := by
  refine Touch.use hk hw (fun hk => ?_)
  unfold State.floodFull
  repeat' (first | with_reducible assumption | (rename_i hq; have hz := congrArg Prod.snd hq; dsimp only at hz; subst hz; try clear hq) | (have hz := congrArg Prod.snd ‹_ = (_, _)›; dsimp only at hz; subst hz) | intro _ _ hk | with_reducible apply touch_ite | with_reducible refine touch_emit ?_ | with_reducible refine touch_nextFseq ?_ | dsimp only | split)

theorem touch_modNode {msk : Nat} {z0 : State} {n : Nat} {f : Node → Node} {s : State} (hk : Touch msk z0 s)
    (hw : msk &&& 1048576 = 1048576 := by decide) : Touch msk z0 (State.modNode n f s) := by
  refine Touch.use hk hw (fun hk => ?_)
  unfold State.modNode
  repeat' (first | with_reducible assumption | intro _ _ hk | with_reducible apply touch_ite | with_reducible refine touch_modFab ?_ | dsimp only | split)

theorem touch_goneNodes {msk : Nat} {z0 : State} {l : List Nat} {s : State} (hk : Touch msk z0 s)
    (hw : msk &&& 537919488 = 537919488 := by decide) : Touch msk z0 (State.goneNodes l s) := by
  refine Touch.use hk hw (fun hk => ?_)
  unfold State.goneNodes
  repeat' (first | with_reducible assumption | with_reducible refine touch_forEach ?_ ?_ | intro _ _ hk | with_reducible apply touch_ite | with_reducible refine touch_floodNodes ?_ | with_reducible refine touch_modNode ?_ | dsimp only | split)

theorem touch_topologyChanged {msk : Nat} {z0 : State} {s : State} (hk : Touch msk z0 s)
    (hw : msk &&& 537919488 = 537919488 := by decide) : Touch msk z0 (State.topologyChanged s) := by
  refine Touch.use hk hw (fun hk => ?_)
  unfold State.topologyChanged
  repeat' (first | with_reducible assumption | intro _ _ hk | with_reducible apply touch_ite | with_reducible refine touch_goneNodes ?_ | with_reducible refine touch_modFab ?_ | dsimp only | split)

theorem touch_floodLinks {msk : Nat} {z0 : State} {s : State} (hk : Touch msk z0 s)
    (hw : msk &&& 537919488 = 537919488 := by decide) : Touch msk z0 (State.floodLinks s) := by
  refine Touch.use hk hw (fun hk => ?_)
  unfold State.floodLinks
  repeat' (first | with_reducible assumption | (rename_i hq; have hz := congrArg Prod.snd hq; dsimp only at hz; subst hz; try clear hq) | (have hz := congrArg Prod.snd ‹_ = (_, _)›; dsimp only at hz; subst hz) | intro _ _ hk | with_reducible apply touch_ite | with_reducible refine touch_emit ?_ | with_reducible refine touch_keepReport ?_ | with_reducible refine touch_nextFseq ?_ | with_reducible refine touch_topologyChanged ?_ | dsimp only | split)

theorem touch_sendRefresh {msk : Nat} {z0 : State} {node : Option Nat} {s : State} (hk : Touch msk z0 s)
    (hw : msk &&& 536870912 = 536870912 := by decide) : Touch msk z0 (State.sendRefresh node s) := by
  refine Touch.use hk hw (fun hk => ?_)
  unfold State.sendRefresh
  repeat' (first | with_reducible assumption | intro _ _ hk | with_reducible apply touch_ite | with_reducible refine touch_emit ?_ | dsimp only | split)

theorem touch_sendHello {msk : Nat} {z0 : State} {p : Nat} {s : State} (hk : Touch msk z0 s)
    (hw : msk &&& 536870912 = 536870912 := by decide) : Touch msk z0 (State.sendHello p s) := by
  refine Touch.use hk hw (fun hk => ?_)
  unfold State.sendHello
  repeat' (first | with_reducible assumption | intro _ _ hk | with_reducible apply touch_ite | with_reducible refine touch_emit ?_ | dsimp only | split)

theorem touch_ownNode {msk : Nat} {z0 : State} {old : List (Nat × Node)} {s : State} (hk : Touch msk z0 s)
    (hw : msk &&& 4832887828 = 4832887828 := by decide) : Touch msk z0 (State.ownNode old s) := by
  refine Touch.use hk hw (fun hk => ?_)
  unfold State.ownNode
  repeat' (first | with_reducible assumption | with_reducible refine touch_forEach ?_ ?_ | intro _ _ hk | with_reducible apply touch_ite | with_reducible refine touch_modFab ?_ | with_reducible refine touch_sendHello ?_ | with_reducible refine touch_tableChange ?_ | dsimp only | split)

end Sys2Proof.Machine
end

