-- ==== Sys2Proof/Laws/TouchFabric.lean ====
section
/-! SUPPORT. Which parts of the state the operations of Sys2Proof/Machine/Fabric.lean may change. -/

namespace Sys2Proof.Machine

set_option linter.all false
set_option Elab.async false

theorem touch_modLink {msk : Nat} {z0 : State} {p : Nat} {f : FabPort → FabPort} {s : State} (hk : Touch msk z0 s)
    (hw : msk &&& 4832887828 = 4832887828 := by decide) : Touch msk z0 (State.modLink p f s) := by
  refine Touch.use hk hw (fun hk => ?_)
  unfold State.modLink
  repeat' (first | with_reducible assumption | intro _ _ hk | with_reducible apply touch_ite | with_reducible refine touch_modFport ?_ | with_reducible refine touch_tableChange ?_ | dsimp only | split)

theorem touch_linkRecord {msk : Nat} {z0 : State} {p : Nat} {reason : Nat} {s : State} (hk : Touch msk z0 s)
    (hw : msk &&& 8388608 = 8388608 := by decide) : Touch msk z0 (State.linkRecord p reason s) := by
  refine Touch.use hk hw (fun hk => ?_)
  unfold State.linkRecord
  repeat' (first | with_reducible assumption | intro _ _ hk | with_reducible apply touch_ite | with_reducible refine touch_ledger ?_ | dsimp only | split)

theorem touch_freeInput {msk : Nat} {z0 : State} {e : Queued} {s : State} (hk : Touch msk z0 s)
    (hw : msk &&& 536870912 = 536870912 := by decide) : Touch msk z0 (State.freeInput e s) := by
  refine Touch.use hk hw (fun hk => ?_)
  unfold State.freeInput
  repeat' (first | with_reducible assumption | intro _ _ hk | with_reducible apply touch_ite | with_reducible refine touch_emit ?_ | dsimp only | split)

theorem touch_detect {msk : Nat} {z0 : State} {p : Nat} {s : State} (hk : Touch msk z0 s)
    (hw : msk &&& 4832887828 = 4832887828 := by decide) : Touch msk z0 (State.detect p s) := by
  refine Touch.use hk hw (fun hk => ?_)
  unfold State.detect
  repeat' (first | with_reducible assumption | intro _ _ hk | with_reducible apply touch_ite | with_reducible refine touch_emit ?_ | with_reducible refine touch_modLink ?_ | dsimp only | split)

theorem touch_holdPort {msk : Nat} {z0 : State} {p : Nat} {reason : Nat} {s : State} (hk : Touch msk z0 s)
    (hw : msk &&& 4841276436 = 4841276436 := by decide) : Touch msk z0 (State.holdPort p reason s) := by
  refine Touch.use hk hw (fun hk => ?_)
  unfold State.holdPort
  repeat' (first | with_reducible assumption | intro _ _ hk | with_reducible apply touch_ite | with_reducible refine touch_linkRecord ?_ | with_reducible refine touch_modLink ?_ | dsimp only | split)

theorem touch_trainFail {msk : Nat} {z0 : State} {p : Nat} {s : State} (hk : Touch msk z0 s)
    (hw : msk &&& 4841276436 = 4841276436 := by decide) : Touch msk z0 (State.trainFail p s) := by
  refine Touch.use hk hw (fun hk => ?_)
  unfold State.trainFail
  repeat' (first | with_reducible assumption | intro _ _ hk | with_reducible apply touch_ite | with_reducible refine touch_detect ?_ | with_reducible refine touch_linkRecord ?_ | with_reducible refine touch_modLink ?_ | dsimp only | split)

theorem touch_leaveUp {msk : Nat} {z0 : State} {p : Nat} {dst : LinkState} {byCommand : Bool} {s : State} (hk : Touch msk z0 s)
    (hw : msk &&& 4841276436 = 4841276436 := by decide) : Touch msk z0 (State.leaveUp p dst byCommand s) := by
  refine Touch.use hk hw (fun hk => ?_)
  unfold State.leaveUp
  repeat' (first | with_reducible assumption | with_reducible refine touch_forEach ?_ ?_ | intro _ _ hk | with_reducible apply touch_ite | with_reducible refine touch_detect ?_ | with_reducible refine touch_emit ?_ | with_reducible refine touch_evidence ?_ | with_reducible refine touch_floodLinks ?_ | with_reducible refine touch_freeInput ?_ | with_reducible refine touch_linkRecord ?_ | with_reducible refine touch_modFab ?_ | with_reducible refine touch_modLink ?_ | with_reducible refine touch_setUnit ?_ | with_reducible refine touch_unroute ?_ | dsimp only | split)

theorem touch_portUnitChanged {msk : Nat} {z0 : State} {p : Nat} {s : State} (hk : Touch msk z0 s)
    (hw : msk &&& 4841276436 = 4841276436 := by decide) : Touch msk z0 (State.portUnitChanged p s) := by
  refine Touch.use hk hw (fun hk => ?_)
  unfold State.portUnitChanged
  repeat' (first | with_reducible assumption | intro _ _ hk | with_reducible apply touch_ite | with_reducible refine touch_detect ?_ | with_reducible refine touch_leaveUp ?_ | with_reducible refine touch_modLink ?_ | dsimp only | split)

theorem touch_enterUp {msk : Nat} {z0 : State} {p : Nat} {s : State} (hk : Touch msk z0 s)
    (hw : msk &&& 4841276436 = 4841276436 := by decide) : Touch msk z0 (State.enterUp p s) := by
  refine Touch.use hk hw (fun hk => ?_)
  unfold State.enterUp
  repeat' (first | with_reducible assumption | intro _ _ hk | with_reducible apply touch_ite | with_reducible refine touch_floodLinks ?_ | with_reducible refine touch_modLink ?_ | with_reducible refine touch_setUnit ?_ | dsimp only | split)

theorem touch_execIdentifyRx {port : Fin 32} {uid : W64} {farPort : Fin 32} {s : State} {zt : State} (ht : execIdentifyRx port uid farPort s = .next zt) : Touch 4841276436 s zt := by
  unfold execIdentifyRx at ht
  cases ht
  have hk := Touch.refl 4841276436 s
  repeat' (first | with_reducible assumption | intro _ _ hk | with_reducible apply touch_ite | with_reducible refine touch_detect ?_ | with_reducible refine touch_holdPort ?_ | with_reducible refine touch_modLink ?_ | dsimp only | split)

theorem touch_execTrainPhaseDone {port : Fin 32} {lanesOk : Byte} {offsetPpb : Int} {eye : EyeReading} {s : State} {zt : State} (ht : execTrainPhaseDone port lanesOk offsetPpb eye s = .next zt) : Touch 4841276436 s zt := by
  unfold execTrainPhaseDone at ht
  cases ht
  have hk := Touch.refl 4841276436 s
  repeat' (first | with_reducible assumption | intro _ _ hk | with_reducible apply touch_ite | with_reducible refine touch_enterUp ?_ | with_reducible refine touch_holdPort ?_ | with_reducible refine touch_modFport ?_ | with_reducible refine touch_modLink ?_ | with_reducible refine touch_sendHello ?_ | dsimp only | split)

theorem touch_execTrainPhaseTimeout {port : Fin 32} {s : State} {zt : State} (ht : execTrainPhaseTimeout port s = .next zt) : Touch 4841276436 s zt := by
  unfold execTrainPhaseTimeout at ht
  cases ht
  have hk := Touch.refl 4841276436 s
  repeat' (first | with_reducible assumption | intro _ _ hk | with_reducible apply touch_ite | with_reducible refine touch_trainFail ?_ | dsimp only | split)

theorem touch_execDetectRetry {now : Nat} {port : Fin 32} {s : State} {zt : State} (ht : execDetectRetry now port s = .next zt) : Touch 4833412116 s zt := by
  unfold execDetectRetry at ht
  cases ht
  have hk := Touch.refl 4833412116 s
  repeat' (first | with_reducible assumption | intro _ _ hk | with_reducible apply touch_ite | with_reducible refine touch_at ?_ | with_reducible refine touch_detect ?_ | dsimp only | split)

theorem touch_execHeldRetrain {now : Nat} {port : Fin 32} {s : State} {zt : State} (ht : execHeldRetrain now port s = .next zt) : Touch 4833412116 s zt := by
  unfold execHeldRetrain at ht
  cases ht
  have hk := Touch.refl 4833412116 s
  repeat' (first | with_reducible assumption | intro _ _ hk | with_reducible apply touch_ite | with_reducible refine touch_at ?_ | with_reducible refine touch_detect ?_ | dsimp only | split)

theorem touch_execLinkLoss {port : Fin 32} {s : State} {zt : State} (ht : execLinkLoss port s = .next zt) : Touch 4841276436 s zt := by
  unfold execLinkLoss at ht
  cases ht
  have hk := Touch.refl 4841276436 s
  repeat' (first | with_reducible assumption | intro _ _ hk | with_reducible apply touch_ite | with_reducible refine touch_detect ?_ | with_reducible refine touch_leaveUp ?_ | dsimp only | split)

theorem touch_execHelloRx {port : Fin 32} {uid : W64} {inc : Nat} {node : Option Nat} {versions : List W16} {_term : Nat} {_bwUid : W64} {s : State} {zt : State} (ht : execHelloRx port uid inc node versions _term _bwUid s = .next zt) : Touch 4841276436 s zt := by
  unfold execHelloRx at ht
  cases ht
  have hk := Touch.refl 4841276436 s
  repeat' (first | with_reducible assumption | intro _ _ hk | with_reducible apply touch_ite | with_reducible refine touch_holdPort ?_ | with_reducible refine touch_modLink ?_ | dsimp only | split)

theorem touch_pump {msk : Nat} {z0 : State} {p : Nat} {x0 : Nat} {s : State} (hk : Touch msk z0 s)
    (hw : msk &&& 537919488 = 537919488 := by decide) : Touch msk z0 (State.pump p x0 s) := by
  refine Touch.use hk hw (fun hq => ?_)
  suffices h : ∀ z, Touch 537919488 z s → Touch 537919488 z (State.pump p x0 s) from h _ hq
  clear hq hk hw
  intro z0 hk
  induction x0 generalizing s with
  | zero =>
    first | exact hk | (simp only [State.pump]; repeat' (first | with_reducible assumption | intro _ _ hk | with_reducible apply touch_ite | with_reducible refine touch_emit ?_ | with_reducible refine touch_freeInput ?_ | with_reducible refine touch_modFport ?_ | dsimp only | split))
  | succ n ih =>
    simp only [State.pump]
    repeat' (first | with_reducible assumption | with_reducible apply ih | intro _ _ hk | with_reducible apply touch_ite | with_reducible refine touch_emit ?_ | with_reducible refine touch_freeInput ?_ | with_reducible refine touch_modFport ?_ | dsimp only | split)

theorem touch_finishClose {msk : Nat} {z0 : State} {p : Nat} {s : State} (hk : Touch msk z0 s)
    (hw : msk &&& 4841276436 = 4841276436 := by decide) : Touch msk z0 (State.finishClose p s) := by
  refine Touch.use hk hw (fun hk => ?_)
  unfold State.finishClose
  repeat' (first | with_reducible assumption | intro _ _ hk | with_reducible apply touch_ite | with_reducible refine touch_leaveUp ?_ | dsimp only | split)

theorem touch_execCodewordRx {now : Nat} {port : Fin 32} {n : W16} {corrected : Nat} {uncorrectable : Bool} {flits : Nat} {s : State} {zt : State} (ht : execCodewordRx now port n corrected uncorrectable flits s = .next zt) : Touch 4841800724 s zt := by
  unfold execCodewordRx at ht
  cases ht
  have hk := Touch.refl 4841800724 s
  repeat' (first | with_reducible assumption | intro _ _ hk | with_reducible apply touch_ite | with_reducible refine touch_at ?_ | with_reducible refine touch_detect ?_ | with_reducible refine touch_emit ?_ | with_reducible refine touch_evidence ?_ | with_reducible refine touch_finishClose ?_ | with_reducible refine touch_leaveUp ?_ | with_reducible refine touch_modFport ?_ | dsimp only | split)

theorem touch_execCreditRx {port : Fin 32} {cw : W16} {nak : Bool} {credits : List Nat} {s : State} {zt : State} (ht : execCreditRx port cw nak credits s = .next zt) : Touch 4841276436 s zt := by
  unfold execCreditRx at ht
  cases ht
  have hk := Touch.refl 4841276436 s
  repeat' (first | with_reducible assumption | intro _ _ hk | with_reducible apply touch_ite | with_reducible refine touch_detect ?_ | with_reducible refine touch_emit ?_ | with_reducible refine touch_finishClose ?_ | with_reducible refine touch_leaveUp ?_ | with_reducible refine touch_modFport ?_ | with_reducible refine touch_pump ?_ | dsimp only | split)

theorem touch_route {msk : Nat} {z0 : State} {inPort : Nat} {k : Packet} {s : State} (hk : Touch msk z0 s)
    (hw : msk &&& 537919488 = 537919488 := by decide) : Touch msk z0 (State.route inPort k s) := by
  refine Touch.use hk hw (fun hk => ?_)
  unfold State.route
  repeat' (first | with_reducible assumption | intro _ _ hk | with_reducible apply touch_ite | with_reducible refine touch_freeInput ?_ | with_reducible refine touch_modFab ?_ | with_reducible refine touch_modFport ?_ | with_reducible refine touch_pump ?_ | dsimp only | split)

theorem touch_sendPacket {msk : Nat} {z0 : State} {k : Packet} {s : State} (hk : Touch msk z0 s)
    (hw : msk &&& 537919488 = 537919488 := by decide) : Touch msk z0 (State.sendPacket k s) := by
  refine Touch.use hk hw (fun hk => ?_)
  unfold State.sendPacket
  repeat' (first | with_reducible assumption | intro _ _ hk | with_reducible apply touch_ite | with_reducible refine touch_modFab ?_ | with_reducible refine touch_route ?_ | dsimp only | split)

theorem touch_sendResponse {msk : Nat} {z0 : State} {k : Packet} {s : State} (hk : Touch msk z0 s)
    (hw : msk &&& 537919488 = 537919488 := by decide) : Touch msk z0 (State.sendResponse k s) := by
  refine Touch.use hk hw (fun hk => ?_)
  unfold State.sendResponse
  repeat' (first | with_reducible assumption | intro _ _ hk | with_reducible apply touch_ite | with_reducible refine touch_sendPacket ?_ | dsimp only | split)

theorem touch_admitHeader {msk : Nat} {z0 : State} {p : Nat} {k : Packet} {s : State} (hk : Touch msk z0 s)
    (hw : msk &&& 4832888208 = 4832888208 := by decide) : Touch msk z0 (State.admitHeader p k s).2 := by
  refine Touch.use hk hw (fun hk => ?_)
  unfold State.admitHeader
  repeat' (first | with_reducible assumption | intro _ _ hk | with_reducible apply touch_ite | with_reducible refine touch_countSpoof ?_ | with_reducible refine touch_freeInput ?_ | with_reducible refine touch_modFab ?_ | with_reducible refine touch_modFport ?_ | dsimp only | split)

theorem touch_takePacket {msk : Nat} {z0 : State} {port : Nat} {k : Packet} {s : State} (hk : Touch msk z0 s)
    (hw : msk &&& 537919488 = 537919488 := by decide) : Touch msk z0 (State.takePacket port k s) := by
  refine Touch.use hk hw (fun hk => ?_)
  unfold State.takePacket
  repeat' (first | with_reducible assumption | intro _ _ hk | with_reducible apply touch_ite | with_reducible refine touch_freeInput ?_ | with_reducible refine touch_modFab ?_ | with_reducible refine touch_sendRefresh ?_ | with_reducible refine touch_sendResponse ?_ | dsimp only | split)

theorem touch_execPacketForward {port : Fin 32} {p : Packet} {s : State} {zt : State} (ht : execPacketForward port p s = .next zt) : Touch 4832888208 s zt := by
  unfold execPacketForward at ht
  cases ht
  have hk := Touch.refl 4832888208 s
  repeat' (first | with_reducible assumption | (rename_i hq; have hz := congrArg Prod.snd hq; dsimp only at hz; subst hz; try clear hq) | (have hz := congrArg Prod.snd ‹_ = (_, _)›; dsimp only at hz; subst hz) | intro _ _ hk | with_reducible apply touch_ite | with_reducible refine touch_admitHeader ?_ | with_reducible refine touch_route ?_ | dsimp only | split)

theorem touch_execPacketDeliver {port : Fin 32} {p : Packet} {s : State} {zt : State} (ht : execPacketDeliver port p s = .next zt) : Touch 4832888208 s zt := by
  unfold execPacketDeliver at ht
  cases ht
  have hk := Touch.refl 4832888208 s
  repeat' (first | with_reducible assumption | (rename_i hq; have hz := congrArg Prod.snd hq; dsimp only at hz; subst hz; try clear hq) | (have hz := congrArg Prod.snd ‹_ = (_, _)›; dsimp only at hz; subst hz) | intro _ _ hk | with_reducible apply touch_ite | with_reducible refine touch_admitHeader ?_ | with_reducible refine touch_takePacket ?_ | dsimp only | split)

theorem touch_execFabPortSet {m : Fin 16} {s : State} {zt : State} (ht : execFabPortSet m s = .next zt) : Touch 4841276444 s zt := by
  unfold execFabPortSet at ht
  cases ht
  have hk := Touch.refl 4841276444 s
  repeat' (first | with_reducible assumption | intro _ _ hk | with_reducible apply touch_ite | with_reducible refine touch_detect ?_ | with_reducible refine touch_finishClose ?_ | with_reducible refine touch_floodLinks ?_ | with_reducible refine touch_modFport ?_ | with_reducible refine touch_modLink ?_ | with_reducible refine touch_pump ?_ | with_reducible refine touch_runCommand ?_ ?_ | with_reducible refine touch_unroute ?_ | dsimp only | split)

theorem touch_execFabTopologyGet {m : Fin 16} {s : State} {zt : State} (ht : execFabTopologyGet m s = .next zt) : Touch 4831839256 s zt := by
  unfold execFabTopologyGet at ht
  cases ht
  have hk := Touch.refl 4831839256 s
  repeat' (first | with_reducible assumption | intro _ _ hk | with_reducible apply touch_ite | with_reducible refine touch_runCommand ?_ ?_ | dsimp only | split)

end Sys2Proof.Machine
end

