-- ==== Sys2Proof/Laws/TouchFlock.lean ====
section
/-! SUPPORT. Which parts of the state the operations of Sys2Proof/Machine/Flock.lean may change. -/

namespace Sys2Proof.Machine

set_option linter.all false
set_option Elab.async false

theorem touch_flooded {msk : Nat} {z0 zt : State} {msg : Nat} {port : Nat} {origin : W64} {fseq : Nat} {s : State} (hk : Touch msk z0 s) (ht : State.flooded msg port origin fseq s = some zt)
    (hw : msk &&& 537919488 = 537919488 := by decide) : Touch msk z0 zt := by
  refine Touch.use hk hw (fun hk => ?_)
  simp only [State.flooded, Option.map_eq_some_iff] at ht
  repeat' split at ht
  all_goals (try simp only [Option.map_eq_some_iff] at ht)
  all_goals first | (obtain ⟨_, _, rfl⟩ := ht) | cases ht | skip
  repeat' (first | with_reducible assumption | intro _ _ hk | with_reducible apply touch_ite | with_reducible refine touch_emit ?_ | with_reducible refine touch_modFab ?_ | dsimp only | split)

theorem touch_sendUp {msk : Nat} {z0 : State} {msg : Nat} {uid : W64} {s : State} (hk : Touch msk z0 s)
    (hw : msk &&& 536870912 = 536870912 := by decide) : Touch msk z0 (State.sendUp msg uid s) := by
  refine Touch.use hk hw (fun hk => ?_)
  unfold State.sendUp
  repeat' (first | with_reducible assumption | intro _ _ hk | with_reducible apply touch_ite | with_reducible refine touch_emit ?_ | dsimp only | split)

theorem touch_floodCandidate {msk : Nat} {z0 : State} {s : State} (hk : Touch msk z0 s)
    (hw : msk &&& 537919488 = 537919488 := by decide) : Touch msk z0 (State.floodCandidate s) := by
  refine Touch.use hk hw (fun hk => ?_)
  unfold State.floodCandidate
  repeat' (first | with_reducible assumption | (rename_i hq; have hz := congrArg Prod.snd hq; dsimp only at hz; subst hz; try clear hq) | (have hz := congrArg Prod.snd ‹_ = (_, _)›; dsimp only at hz; subst hz) | intro _ _ hk | with_reducible apply touch_ite | with_reducible refine touch_emit ?_ | with_reducible refine touch_nextFseq ?_ | dsimp only | split)

theorem touch_elect {msk : Nat} {z0 : State} {term : Nat} {s : State} (hk : Touch msk z0 s)
    (hw : msk &&& 537919488 = 537919488 := by decide) : Touch msk z0 (State.elect term s) := by
  refine Touch.use hk hw (fun hk => ?_)
  unfold State.elect
  repeat' (first | with_reducible assumption | intro _ _ hk | with_reducible apply touch_ite | with_reducible refine touch_floodCandidate ?_ | with_reducible refine touch_modFab ?_ | dsimp only | split)

theorem touch_adopt {msk : Nat} {z0 : State} {term : Nat} {vote : W64} {s : State} (hk : Touch msk z0 s)
    (hw : msk &&& 537919488 = 537919488 := by decide) : Touch msk z0 (State.adopt term vote s) := by
  refine Touch.use hk hw (fun hk => ?_)
  unfold State.adopt
  repeat' (first | with_reducible assumption | intro _ _ hk | with_reducible apply touch_ite | with_reducible refine touch_floodCandidate ?_ | with_reducible refine touch_modFab ?_ | dsimp only | split)

theorem touch_beacon {msk : Nat} {z0 : State} {s : State} (hk : Touch msk z0 s)
    (hw : msk &&& 537919488 = 537919488 := by decide) : Touch msk z0 (State.beacon s) := by
  refine Touch.use hk hw (fun hk => ?_)
  unfold State.beacon
  repeat' (first | with_reducible assumption | (rename_i hq; have hz := congrArg Prod.snd hq; dsimp only at hz; subst hz; try clear hq) | (have hz := congrArg Prod.snd ‹_ = (_, _)›; dsimp only at hz; subst hz) | intro _ _ hk | with_reducible apply touch_ite | with_reducible refine touch_emit ?_ | with_reducible refine touch_modFab ?_ | with_reducible refine touch_nextFseq ?_ | dsimp only | split)

theorem touch_acceptBellwether {msk : Nat} {z0 : State} {uid : W64} {s : State} (hk : Touch msk z0 s)
    (hw : msk &&& 1048576 = 1048576 := by decide) : Touch msk z0 (State.acceptBellwether uid s) := by
  refine Touch.use hk hw (fun hk => ?_)
  unfold State.acceptBellwether
  repeat' (first | with_reducible assumption | intro _ _ hk | with_reducible apply touch_ite | with_reducible refine touch_modFab ?_ | dsimp only | split)

theorem touch_execBeaconTick {now : Nat} {s : State} {zt : State} (ht : execBeaconTick now s = .next zt) : Touch 538443776 s zt := by
  unfold execBeaconTick at ht
  cases ht
  have hk := Touch.refl 538443776 s
  repeat' (first | with_reducible assumption | intro _ _ hk | with_reducible apply touch_ite | with_reducible refine touch_at ?_ | with_reducible refine touch_beacon ?_ | dsimp only | split)

theorem touch_execBeaconTimeout {now : Nat} {s : State} {zt : State} (ht : execBeaconTimeout now s = .next zt) : Touch 538443776 s zt := by
  unfold execBeaconTimeout at ht
  cases ht
  have hk := Touch.refl 538443776 s
  repeat' (first | with_reducible assumption | intro _ _ hk | with_reducible apply touch_ite | with_reducible refine touch_at ?_ | with_reducible refine touch_elect ?_ | dsimp only | split)

theorem touch_execBeaconRx {now : Nat} {port : Fin 32} {origin : W64} {fseq : Nat} {term : Nat} {tableVersion : Nat} {_epoch : Nat} {s : State} {zt : State} (ht : execBeaconRx now port origin fseq term tableVersion _epoch s = .next zt) : Touch 538443776 s zt := by
  unfold execBeaconRx at ht
  cases ht
  have hk := Touch.refl 538443776 s
  repeat' (first | with_reducible assumption | intro _ _ hk | with_reducible apply touch_ite | with_reducible refine touch_acceptBellwether ?_ | with_reducible refine touch_at ?_ | with_reducible refine touch_elect ?_ | with_reducible refine touch_modFab ?_ | with_reducible refine touch_sendRefresh ?_ | refine touch_flooded ?_ (by assumption) | dsimp only | split)

theorem touch_execCandidateRx {now : Nat} {port : Fin 32} {origin : W64} {fseq : Nat} {term : Nat} {vote : W64} {s : State} {zt : State} (ht : execCandidateRx now port origin fseq term vote s = .next zt) : Touch 538443776 s zt := by
  unfold execCandidateRx at ht
  cases ht
  have hk := Touch.refl 538443776 s
  repeat' (first | with_reducible assumption | intro _ _ hk | with_reducible apply touch_ite | with_reducible refine touch_adopt ?_ | with_reducible refine touch_at ?_ | refine touch_flooded ?_ (by assumption) | dsimp only | split)

theorem touch_record {msk : Nat} {z0 : State} {n : Nat} {uid : W64} {inc : Nat} {versions : List W16} {s : State} (hk : Touch msk z0 s)
    (hw : msk &&& 4832887828 = 4832887828 := by decide) : Touch msk z0 (State.record n uid inc versions s) := by
  refine Touch.use hk hw (fun hk => ?_)
  unfold State.record
  repeat' (first | with_reducible assumption | intro _ _ hk | with_reducible apply touch_ite | with_reducible refine touch_floodNodes ?_ | with_reducible refine touch_modNode ?_ | with_reducible refine touch_ownNode ?_ | dsimp only | split)

theorem touch_join {msk : Nat} {z0 : State} {uid : W64} {hint : Option Nat} {inc : Nat} {versions : List W16} {s : State} (hk : Touch msk z0 s)
    (hw : msk &&& 4832887828 = 4832887828 := by decide) : Touch msk z0 (State.join uid hint inc versions s) := by
  refine Touch.use hk hw (fun hk => ?_)
  unfold State.join
  repeat' (first | with_reducible assumption | intro _ _ hk | with_reducible apply touch_ite | with_reducible refine touch_floodNodes ?_ | with_reducible refine touch_modNode ?_ | with_reducible refine touch_record ?_ | dsimp only | split)

theorem touch_becomeBellwether {msk : Nat} {z0 : State} {s : State} (hk : Touch msk z0 s)
    (hw : msk &&& 4832887828 = 4832887828 := by decide) : Touch msk z0 (State.becomeBellwether s) := by
  refine Touch.use hk hw (fun hk => ?_)
  unfold State.becomeBellwether
  repeat' (first | with_reducible assumption | intro _ _ hk | with_reducible apply touch_ite | with_reducible refine touch_acceptBellwether ?_ | with_reducible refine touch_beacon ?_ | with_reducible refine touch_join ?_ | with_reducible refine touch_keepReport ?_ | with_reducible refine touch_modFab ?_ | with_reducible refine touch_topologyChanged ?_ | dsimp only | split)

theorem touch_execElectionSettle {now : Nat} {s : State} {zt : State} (ht : execElectionSettle now s = .next zt) : Touch 4833412116 s zt := by
  unfold execElectionSettle at ht
  cases ht
  have hk := Touch.refl 4833412116 s
  repeat' (first | with_reducible assumption | intro _ _ hk | with_reducible apply touch_ite | with_reducible refine touch_at ?_ | with_reducible refine touch_becomeBellwether ?_ | with_reducible refine touch_modFab ?_ | dsimp only | split)

theorem touch_execLinkReportRx {port : Fin 32} {origin : W64} {fseq : Nat} {links : List LinkInfo} {s : State} {zt : State} (ht : execLinkReportRx port origin fseq links s = .next zt) : Touch 537919488 s zt := by
  unfold execLinkReportRx at ht
  cases ht
  have hk := Touch.refl 537919488 s
  repeat' (first | with_reducible assumption | intro _ _ hk | with_reducible apply touch_ite | with_reducible refine touch_keepReport ?_ | with_reducible refine touch_topologyChanged ?_ | refine touch_flooded ?_ (by assumption) | dsimp only | split)

theorem touch_execLinkReportTick {now : Nat} {s : State} {zt : State} (ht : execLinkReportTick now s = .next zt) : Touch 538443776 s zt := by
  unfold execLinkReportTick at ht
  cases ht
  have hk := Touch.refl 538443776 s
  repeat' (first | with_reducible assumption | intro _ _ hk | with_reducible apply touch_ite | with_reducible refine touch_at ?_ | with_reducible refine touch_floodLinks ?_ | dsimp only | split)

theorem touch_putNodes {msk : Nat} {z0 : State} {l : List NodeEntry} {s : State} (hk : Touch msk z0 s)
    (hw : msk &&& 1048576 = 1048576 := by decide) : Touch msk z0 (State.putNodes l s) := by
  refine Touch.use hk hw (fun hk => ?_)
  unfold State.putNodes
  repeat' (first | with_reducible assumption | with_reducible refine touch_forEach ?_ ?_ | intro _ _ hk | with_reducible apply touch_ite | with_reducible refine touch_modNode ?_ | dsimp only | split)

theorem touch_mergeEntry {msk : Nat} {z0 : State} {e : NodeEntry} {s : State} (hk : Touch msk z0 s)
    (hw : msk &&& 4832887828 = 4832887828 := by decide) : Touch msk z0 (State.mergeEntry e s) := by
  refine Touch.use hk hw (fun hk => ?_)
  unfold State.mergeEntry
  repeat' (first | with_reducible assumption | intro _ _ hk | with_reducible apply touch_ite | with_reducible refine touch_record ?_ | dsimp only | split)

theorem touch_execNodeTableRx {port : Fin 32} {origin : W64} {fseq : Nat} {version : Nat} {full : Bool} {entries : List NodeEntry} {s : State} {zt : State} (ht : execNodeTableRx port origin fseq version full entries s = .next zt) : Touch 4832887828 s zt := by
  unfold execNodeTableRx at ht
  cases ht
  have hk := Touch.refl 4832887828 s
  repeat' (first | with_reducible assumption | with_reducible refine touch_forEach ?_ ?_ | intro _ _ hk | with_reducible apply touch_ite | with_reducible refine touch_mergeEntry ?_ | with_reducible refine touch_modFab ?_ | with_reducible refine touch_ownNode ?_ | with_reducible refine touch_putNodes ?_ | with_reducible refine touch_sendRefresh ?_ | refine touch_flooded ?_ (by assumption) | dsimp only | split)

theorem touch_execRefreshRx {now : Nat} {port : Fin 32} {uid : W64} {hint : Option Nat} {inc : Nat} {versions : List W16} {tableVersion : Nat} {s : State} {zt : State} (ht : execRefreshRx now port uid hint inc versions tableVersion s = .next zt) : Touch 4833412116 s zt := by
  unfold execRefreshRx at ht
  cases ht
  have hk := Touch.refl 4833412116 s
  repeat' (first | with_reducible assumption | intro _ _ hk | with_reducible apply touch_ite | with_reducible refine touch_at ?_ | with_reducible refine touch_floodFull ?_ | with_reducible refine touch_join ?_ | with_reducible refine touch_sendUp ?_ | dsimp only | split)

theorem touch_execNodeReserveExpiry {now : Nat} {node : Fin 4096} {s : State} {zt : State} (ht : execNodeReserveExpiry now node s = .next zt) : Touch 538443776 s zt := by
  unfold execNodeReserveExpiry at ht
  cases ht
  have hk := Touch.refl 538443776 s
  repeat' (first | with_reducible assumption | intro _ _ hk | with_reducible apply touch_ite | with_reducible refine touch_at ?_ | with_reducible refine touch_floodNodes ?_ | with_reducible refine touch_modNode ?_ | dsimp only | split)

theorem touch_loadPlan {msk : Nat} {z0 : State} {epoch : Nat} {torus : Bool} {root : Nat} {shape : W32} {s : State} (hk : Touch msk z0 s)
    (hw : msk &&& 1048576 = 1048576 := by decide) : Touch msk z0 (State.loadPlan epoch torus root shape s) := by
  refine Touch.use hk hw (fun hk => ?_)
  unfold State.loadPlan
  repeat' (first | with_reducible assumption | intro _ _ hk | with_reducible apply touch_ite | with_reducible refine touch_modFab ?_ | dsimp only | split)

theorem touch_commitEpoch {msk : Nat} {z0 : State} {epoch : Nat} {s : State} (hk : Touch msk z0 s)
    (hw : msk &&& 1048576 = 1048576 := by decide) : Touch msk z0 (State.commitEpoch epoch s) := by
  refine Touch.use hk hw (fun hk => ?_)
  unfold State.commitEpoch
  repeat' (first | with_reducible assumption | intro _ _ hk | with_reducible apply touch_ite | with_reducible refine touch_modFab ?_ | dsimp only | split)

theorem touch_commitIfAll {msk : Nat} {z0 : State} {s : State} (hk : Touch msk z0 s)
    (hw : msk &&& 537919488 = 537919488 := by decide) : Touch msk z0 (State.commitIfAll s) := by
  refine Touch.use hk hw (fun hk => ?_)
  unfold State.commitIfAll
  repeat' (first | with_reducible assumption | (rename_i hq; have hz := congrArg Prod.snd hq; dsimp only at hz; subst hz; try clear hq) | (have hz := congrArg Prod.snd ‹_ = (_, _)›; dsimp only at hz; subst hz) | intro _ _ hk | with_reducible apply touch_ite | with_reducible refine touch_commitEpoch ?_ | with_reducible refine touch_emit ?_ | with_reducible refine touch_modFab ?_ | with_reducible refine touch_nextFseq ?_ | dsimp only | split)

theorem touch_issuePlan {msk : Nat} {z0 : State} {s : State} (hk : Touch msk z0 s)
    (hw : msk &&& 537919488 = 537919488 := by decide) : Touch msk z0 (State.issuePlan s) := by
  refine Touch.use hk hw (fun hk => ?_)
  unfold State.issuePlan
  repeat' (first | with_reducible assumption | (rename_i hq; have hz := congrArg Prod.snd hq; dsimp only at hz; subst hz; try clear hq) | (have hz := congrArg Prod.snd ‹_ = (_, _)›; dsimp only at hz; subst hz) | intro _ _ hk | with_reducible apply touch_ite | with_reducible refine touch_commitIfAll ?_ | with_reducible refine touch_emit ?_ | with_reducible refine touch_loadPlan ?_ | with_reducible refine touch_modFab ?_ | with_reducible refine touch_nextFseq ?_ | dsimp only | split)

theorem touch_execRoutePlanIssue {now : Nat} {s : State} {zt : State} (ht : execRoutePlanIssue now s = .next zt) : Touch 538443776 s zt := by
  unfold execRoutePlanIssue at ht
  cases ht
  have hk := Touch.refl 538443776 s
  repeat' (first | with_reducible assumption | intro _ _ hk | with_reducible apply touch_ite | with_reducible refine touch_at ?_ | with_reducible refine touch_issuePlan ?_ | dsimp only | split)

theorem touch_execRoutePlanRx {port : Fin 32} {origin : W64} {fseq : Nat} {epoch : Nat} {torus : Bool} {root : Nat} {shape : W32} {tableVersion : Nat} {s : State} {zt : State} (ht : execRoutePlanRx port origin fseq epoch torus root shape tableVersion s = .next zt) : Touch 537919488 s zt := by
  unfold execRoutePlanRx at ht
  cases ht
  have hk := Touch.refl 537919488 s
  repeat' (first | with_reducible assumption | intro _ _ hk | with_reducible apply touch_ite | with_reducible refine touch_emit ?_ | with_reducible refine touch_loadPlan ?_ | with_reducible refine touch_sendRefresh ?_ | refine touch_flooded ?_ (by assumption) | dsimp only | split)

theorem touch_execPlanAckRx {port : Fin 32} {uid : W64} {epoch : Nat} {s : State} {zt : State} (ht : execPlanAckRx port uid epoch s = .next zt) : Touch 537919488 s zt := by
  unfold execPlanAckRx at ht
  cases ht
  have hk := Touch.refl 537919488 s
  repeat' (first | with_reducible assumption | intro _ _ hk | with_reducible apply touch_ite | with_reducible refine touch_commitIfAll ?_ | with_reducible refine touch_modFab ?_ | with_reducible refine touch_sendUp ?_ | dsimp only | split)

theorem touch_execPlanAckTimeout {now : Nat} {s : State} {zt : State} (ht : execPlanAckTimeout now s = .next zt) : Touch 538443776 s zt := by
  unfold execPlanAckTimeout at ht
  cases ht
  have hk := Touch.refl 538443776 s
  repeat' (first | with_reducible assumption | intro _ _ hk | with_reducible apply touch_ite | with_reducible refine touch_at ?_ | with_reducible refine touch_goneNodes ?_ | with_reducible refine touch_issuePlan ?_ | with_reducible refine touch_modFab ?_ | dsimp only | split)

theorem touch_execCommitRx {port : Fin 32} {origin : W64} {fseq : Nat} {epoch : Nat} {s : State} {zt : State} (ht : execCommitRx port origin fseq epoch s = .next zt) : Touch 537919488 s zt := by
  unfold execCommitRx at ht
  cases ht
  have hk := Touch.refl 537919488 s
  repeat' (first | with_reducible assumption | intro _ _ hk | with_reducible apply touch_ite | with_reducible refine touch_commitEpoch ?_ | refine touch_flooded ?_ (by assumption) | dsimp only | split)

end Sys2Proof.Machine
end

