-- ==== Sys2Proof/Laws/TouchFabOps.lean ====
section
/-! SUPPORT. Which parts of the state the operations of Sys2Proof/Machine/FabOps.lean may change. -/

namespace Sys2Proof.Machine

set_option linter.all false
set_option Elab.async false

theorem touch_objPutN {msk : Nat} {z0 : State} {e : Nat} {x0 : Nat} {x1 : Nat} {x2 : Bytes} {s : State} (hk : Touch msk z0 s)
    (hw : msk &&& 8187283072 = 8187283072 := by decide) : Touch msk z0 (State.objPutN e x0 x1 x2 s) := by
  refine Touch.use hk hw (fun hq => ?_)
  suffices h : ∀ z, Touch 8187283072 z s → Touch 8187283072 z (State.objPutN e x0 x1 x2 s) from h _ hq
  clear hq hk hw
  intro z0 hk
  induction x0 generalizing x1 x2 s with
  | zero =>
    first | exact hk | (simp only [State.objPutN]; repeat' (first | with_reducible assumption | intro _ _ hk | with_reducible apply touch_ite | with_reducible refine touch_objWrite ?_ | dsimp only | split))
  | succ n ih =>
    simp only [State.objPutN]
    repeat' (first | with_reducible assumption | with_reducible apply ih | intro _ _ hk | with_reducible apply touch_ite | with_reducible refine touch_objWrite ?_ | dsimp only | split)

theorem touch_objPut {msk : Nat} {z0 : State} {e : Nat} {off : Nat} {b : Bytes} {s : State} (hk : Touch msk z0 s)
    (hw : msk &&& 8187283072 = 8187283072 := by decide) : Touch msk z0 (State.objPut e off b s) := by
  refine Touch.use hk hw (fun hk => ?_)
  unfold State.objPut
  repeat' (first | with_reducible assumption | intro _ _ hk | with_reducible apply touch_ite | with_reducible refine touch_objPutN ?_ | dsimp only | split)

theorem touch_fetchN {msk : Nat} {z0 : State} {e : Nat} {x0 : Nat} {x1 : Nat} {x2 : Nat} {s : State} (hk : Touch msk z0 s)
    (hw : msk &&& 8187282432 = 8187282432 := by decide) : Touch msk z0 (State.fetchN e x0 x1 x2 s).2 := by
  refine Touch.use hk hw (fun hq => ?_)
  suffices h : ∀ z, Touch 8187282432 z s → Touch 8187282432 z (State.fetchN e x0 x1 x2 s).2 from h _ hq
  clear hq hk hw
  intro z0 hk
  induction x0 generalizing x1 x2 s with
  | zero =>
    first | exact hk | (simp only [State.fetchN]; repeat' (first | with_reducible assumption | (rename_i hq; have hz := congrArg Prod.snd hq; dsimp only at hz; subst hz; try clear hq) | (have hz := congrArg Prod.snd ‹_ = (_, _)›; dsimp only at hz; subst hz) | intro _ _ hk | with_reducible apply touch_ite | with_reducible refine touch_fetch ?_ | dsimp only | split))
  | succ n ih =>
    simp only [State.fetchN]
    repeat' (first | with_reducible assumption | with_reducible apply ih | (rename_i hq; have hz := congrArg Prod.snd hq; dsimp only at hz; subst hz; try clear hq) | (have hz := congrArg Prod.snd ‹_ = (_, _)›; dsimp only at hz; subst hz) | intro _ _ hk | with_reducible apply touch_ite | with_reducible refine touch_fetch ?_ | dsimp only | split)

theorem touch_fetchWhole {msk : Nat} {z0 : State} {e : Nat} {off : Nat} {n : Nat} {s : State} (hk : Touch msk z0 s)
    (hw : msk &&& 8187282432 = 8187282432 := by decide) : Touch msk z0 (State.fetchWhole e off n s).2 := by
  refine Touch.use hk hw (fun hk => ?_)
  unfold State.fetchWhole
  repeat' (first | with_reducible assumption | (rename_i hq; have hz := congrArg Prod.snd hq; dsimp only at hz; subst hz; try clear hq) | (have hz := congrArg Prod.snd ‹_ = (_, _)›; dsimp only at hz; subst hz) | intro _ _ hk | with_reducible apply touch_ite | with_reducible refine touch_fetchN ?_ | dsimp only | split)

theorem touch_setFdesc {msk : Nat} {z0 : State} {id : Nat} {d : Option FabDesc} {s : State} (hk : Touch msk z0 s)
    (hw : msk &&& 2097152 = 2097152 := by decide) : Touch msk z0 (State.setFdesc id d s) := by
  refine Touch.use hk hw (fun hk => ?_)
  unfold State.setFdesc
  repeat' (first | with_reducible assumption | intro _ _ hk | with_reducible apply touch_ite | with_reducible refine touch_modFabMem ?_ | dsimp only | split)

theorem touch_modFdesc {msk : Nat} {z0 : State} {id : Nat} {f : FabDesc → FabDesc} {s : State} (hk : Touch msk z0 s)
    (hw : msk &&& 2097152 = 2097152 := by decide) : Touch msk z0 (State.modFdesc id f s) := by
  refine Touch.use hk hw (fun hk => ?_)
  unfold State.modFdesc
  repeat' (first | with_reducible assumption | intro _ _ hk | with_reducible apply touch_ite | with_reducible refine touch_setFdesc ?_ | dsimp only | split)

theorem touch_modDest {msk : Nat} {z0 : State} {n : Nat} {f : Dest → Dest} {s : State} (hk : Touch msk z0 s)
    (hw : msk &&& 2097152 = 2097152 := by decide) : Touch msk z0 (State.modDest n f s) := by
  refine Touch.use hk hw (fun hk => ?_)
  unfold State.modDest
  repeat' (first | with_reducible assumption | intro _ _ hk | with_reducible apply touch_ite | with_reducible refine touch_modFabMem ?_ | dsimp only | split)

theorem touch_finishDesc {msk : Nat} {z0 : State} {id : Nat} {s : State} (hk : Touch msk z0 s)
    (hw : msk &&& 8189380480 = 8189380480 := by decide) : Touch msk z0 (State.finishDesc id s) := by
  refine Touch.use hk hw (fun hk => ?_)
  unfold State.finishDesc
  repeat' (first | with_reducible assumption | (rename_i hq; have hz := congrArg Prod.snd hq; dsimp only at hz; subst hz; try clear hq) | (have hz := congrArg Prod.snd ‹_ = (_, _)›; dsimp only at hz; subst hz) | intro _ _ hk | with_reducible apply touch_ite | with_reducible refine touch_fetch ?_ | with_reducible refine touch_modFabMem ?_ | with_reducible refine touch_objPut ?_ | with_reducible refine touch_setFdesc ?_ | with_reducible refine touch_staleDiscard ?_ | dsimp only | split)

theorem touch_settleDesc {msk : Nat} {z0 : State} {id : Nat} {s : State} (hk : Touch msk z0 s)
    (hw : msk &&& 8189380480 = 8189380480 := by decide) : Touch msk z0 (State.settleDesc id s) := by
  refine Touch.use hk hw (fun hk => ?_)
  unfold State.settleDesc
  repeat' (first | with_reducible assumption | intro _ _ hk | with_reducible apply touch_ite | with_reducible refine touch_finishDesc ?_ | dsimp only | split)

theorem touch_sendRequest {msk : Nat} {z0 : State} {id : Nat} {off : Nat} {counter : Bool} {k : Packet} {s : State} (hk : Touch msk z0 s)
    (hw : msk &&& 540016640 = 540016640 := by decide) : Touch msk z0 (State.sendRequest id off counter k s) := by
  refine Touch.use hk hw (fun hk => ?_)
  unfold State.sendRequest
  repeat' (first | with_reducible assumption | intro _ _ hk | with_reducible apply touch_ite | with_reducible refine touch_modDest ?_ | with_reducible refine touch_modFabMem ?_ | with_reducible refine touch_modFdesc ?_ | with_reducible refine touch_sendPacket ?_ | dsimp only | split)

theorem touch_sendPiece {msk : Nat} {z0 zt : State} {id : Nat} {d : FabDesc} {off : Nat} {s : State} (hk : Touch msk z0 s) (ht : State.sendPiece id d off s = some zt)
    (hw : msk &&& 8190428160 = 8190428160 := by decide) : Touch msk z0 zt := by
  refine Touch.use hk hw (fun hk => ?_)
  simp only [State.sendPiece, Option.map_eq_some_iff] at ht
  repeat' split at ht
  all_goals (try simp only [Option.map_eq_some_iff] at ht)
  all_goals first | (obtain ⟨_, _, rfl⟩ := ht) | cases ht | skip
  repeat' (first | with_reducible assumption | (rename_i hq; have hz := congrArg Prod.snd hq; dsimp only at hz; subst hz; try clear hq) | (have hz := congrArg Prod.snd ‹_ = (_, _)›; dsimp only at hz; subst hz) | intro _ _ hk | with_reducible apply touch_ite | with_reducible refine touch_fetch ?_ | with_reducible refine touch_modFdesc ?_ | with_reducible refine touch_sendRequest ?_ | dsimp only | split)

theorem touch_pumpDesc {msk : Nat} {z0 : State} {id : Nat} {x0 : Nat} {s : State} (hk : Touch msk z0 s)
    (hw : msk &&& 8190428160 = 8190428160 := by decide) : Touch msk z0 (State.pumpDesc id x0 s) := by
  refine Touch.use hk hw (fun hq => ?_)
  suffices h : ∀ z, Touch 8190428160 z s → Touch 8190428160 z (State.pumpDesc id x0 s) from h _ hq
  clear hq hk hw
  intro z0 hk
  induction x0 generalizing s with
  | zero =>
    first | exact hk | (simp only [State.pumpDesc]; repeat' (first | with_reducible assumption | intro _ _ hk | with_reducible apply touch_ite | with_reducible refine touch_modFdesc ?_ | with_reducible refine touch_sendRequest ?_ | refine touch_sendPiece ?_ (by assumption) | dsimp only | split))
  | succ n ih =>
    simp only [State.pumpDesc]
    repeat' (first | with_reducible assumption | with_reducible apply ih | intro _ _ hk | with_reducible apply touch_ite | with_reducible refine touch_modFdesc ?_ | with_reducible refine touch_sendRequest ?_ | refine touch_sendPiece ?_ (by assumption) | dsimp only | split)

theorem touch_pumpAll {msk : Nat} {z0 : State} {s : State} (hk : Touch msk z0 s)
    (hw : msk &&& 8190429056 = 8190429056 := by decide) : Touch msk z0 (State.pumpAll s) := by
  refine Touch.use hk hw (fun hk => ?_)
  unfold State.pumpAll
  repeat' (first | with_reducible assumption | with_reducible refine touch_forEach ?_ ?_ | intro _ _ hk | with_reducible apply touch_ite | with_reducible refine touch_pumpDesc ?_ | with_reducible refine touch_settleDesc ?_ | dsimp only | split)

theorem touch_endRequest {msk : Nat} {z0 : State} {r : Request} {st : Status} {s : State} (hk : Touch msk z0 s)
    (hw : msk &&& 8190429056 = 8190429056 := by decide) : Touch msk z0 (State.endRequest r st s) := by
  refine Touch.use hk hw (fun hk => ?_)
  unfold State.endRequest
  repeat' (first | with_reducible assumption | intro _ _ hk | with_reducible apply touch_ite | with_reducible refine touch_complete ?_ | with_reducible refine touch_modDest ?_ | with_reducible refine touch_modFabMem ?_ | with_reducible refine touch_modFdesc ?_ | with_reducible refine touch_pumpAll ?_ | with_reducible refine touch_settleDesc ?_ | dsimp only | split)

theorem touch_takeInbox {msk : Nat} {z0 : State} {p : Packet} {s : State} (hk : Touch msk z0 s)
    (hw : msk &&& 537919488 = 537919488 := by decide) : Touch msk z0 (State.takeInbox p s) := by
  refine Touch.use hk hw (fun hk => ?_)
  unfold State.takeInbox
  repeat' (first | with_reducible assumption | intro _ _ hk | with_reducible apply touch_ite | with_reducible refine touch_freeInput ?_ | with_reducible refine touch_modFab ?_ | dsimp only | split)

end Sys2Proof.Machine
end

