-- ==== Sys2Proof/Laws/TouchCollective.lean ====
section
/-! SUPPORT. Which parts of the state the operations of Sys2Proof/Machine/Collective.lean may change. -/

namespace Sys2Proof.Machine

set_option linter.all false
set_option Elab.async false

theorem touch_placeResult {msk : Nat} {z0 : State} {id : Nat} {off : Nat} {b : Bytes} {s : State} (hk : Touch msk z0 s)
    (hw : msk &&& 8189380224 = 8189380224 := by decide) : Touch msk z0 (State.placeResult id off b s) := by
  refine Touch.use hk hw (fun hk => ?_)
  unfold State.placeResult
  repeat' (first | with_reducible assumption | intro _ _ hk | with_reducible apply touch_ite | with_reducible refine touch_modFdesc ?_ | with_reducible refine touch_objPut ?_ | dsimp only | split)

theorem touch_sendDown {msk : Nat} {z0 : State} {id : Nat} {seg : Nat} {v : Nat} {top : Nat} {b : Bytes} {s : State} (hk : Touch msk z0 s)
    (hw : msk &&& 2097152 = 2097152 := by decide) : Touch msk z0 (State.sendDown id seg v top b s) := by
  refine Touch.use hk hw (fun hk => ?_)
  unfold State.sendDown
  repeat' (first | with_reducible assumption | intro _ _ hk | with_reducible apply touch_ite | with_reducible refine touch_modFdesc ?_ | dsimp only | split)

theorem touch_advanceSeg {msk : Nat} {z0 : State} {id : Nat} {seg : Nat} {x0 : Nat} {s : State} (hk : Touch msk z0 s)
    (hw : msk &&& 8189380224 = 8189380224 := by decide) : Touch msk z0 (State.advanceSeg id seg x0 s) := by
  refine Touch.use hk hw (fun hq => ?_)
  suffices h : ∀ z, Touch 8189380224 z s → Touch 8189380224 z (State.advanceSeg id seg x0 s) from h _ hq
  clear hq hk hw
  intro z0 hk
  induction x0 generalizing s with
  | zero =>
    first | exact hk | (simp only [State.advanceSeg]; repeat' (first | with_reducible assumption | intro _ _ hk | with_reducible apply touch_ite | with_reducible refine touch_modFdesc ?_ | with_reducible refine touch_placeResult ?_ | with_reducible refine touch_sendDown ?_ | dsimp only | split))
  | succ n ih =>
    simp only [State.advanceSeg]
    repeat' (first | with_reducible assumption | with_reducible apply ih | intro _ _ hk | with_reducible apply touch_ite | with_reducible refine touch_modFdesc ?_ | with_reducible refine touch_placeResult ?_ | with_reducible refine touch_sendDown ?_ | dsimp only | split)

theorem touch_advance {msk : Nat} {z0 : State} {id : Nat} {s : State} (hk : Touch msk z0 s)
    (hw : msk &&& 8189380224 = 8189380224 := by decide) : Touch msk z0 (State.advance id s) := by
  refine Touch.use hk hw (fun hk => ?_)
  unfold State.advance
  repeat' (first | with_reducible assumption | with_reducible refine touch_forEach ?_ ?_ | intro _ _ hk | with_reducible apply touch_ite | with_reducible refine touch_advanceSeg ?_ | dsimp only | split)

theorem touch_startColl {msk : Nat} {z0 : State} {id : Nat} {s : State} (hk : Touch msk z0 s)
    (hw : msk &&& 8189380224 = 8189380224 := by decide) : Touch msk z0 (State.startColl id s) := by
  refine Touch.use hk hw (fun hk => ?_)
  unfold State.startColl
  repeat' (first | with_reducible assumption | intro _ _ hk | with_reducible apply touch_ite | with_reducible refine touch_advance ?_ | with_reducible refine touch_modFdesc ?_ | with_reducible refine touch_placeResult ?_ | dsimp only | split)

theorem touch_gather {msk : Nat} {z0 : State} {id : Nat} {c : Coll} {data : Bytes} {s : State} (hk : Touch msk z0 s)
    (hw : msk &&& 2097152 = 2097152 := by decide) : Touch msk z0 (State.gather id c data s) := by
  refine Touch.use hk hw (fun hk => ?_)
  unfold State.gather
  repeat' (first | with_reducible assumption | intro _ _ hk | with_reducible apply touch_ite | with_reducible refine touch_modFdesc ?_ | dsimp only | split)

theorem touch_takeDown {msk : Nat} {z0 : State} {id : Nat} {seg : Nat} {s : State} (hk : Touch msk z0 s)
    (hw : msk &&& 8189380224 = 8189380224 := by decide) : Touch msk z0 (State.takeDown id seg s) := by
  refine Touch.use hk hw (fun hk => ?_)
  unfold State.takeDown
  repeat' (first | with_reducible assumption | intro _ _ hk | with_reducible apply touch_ite | with_reducible refine touch_placeResult ?_ | with_reducible refine touch_sendDown ?_ | dsimp only | split)

theorem touch_failColl {msk : Nat} {z0 : State} {id : Nat} {st : Status} {s : State} (hk : Touch msk z0 s)
    (hw : msk &&& 8189380480 = 8189380480 := by decide) : Touch msk z0 (State.failColl id st s) := by
  refine Touch.use hk hw (fun hk => ?_)
  unfold State.failColl
  repeat' (first | with_reducible assumption | (rename_i hq; have hz := congrArg Prod.snd hq; dsimp only at hz; subst hz; try clear hq) | (have hz := congrArg Prod.snd ‹_ = (_, _)›; dsimp only at hz; subst hz) | intro _ _ hk | with_reducible apply touch_ite | with_reducible refine touch_finishDesc ?_ | with_reducible refine touch_freeBytes ?_ | with_reducible refine touch_modFabMem ?_ | with_reducible refine touch_modFdesc ?_ | with_reducible refine touch_objPut ?_ | dsimp only | split)

theorem touch_execFabCollRx {p : Packet} {s : State} {zt : State} (ht : execFabCollRx p s = .next zt) : Touch 8190429056 s zt := by
  unfold execFabCollRx at ht
  cases ht
  have hk := Touch.refl 8190429056 s
  repeat' (first | with_reducible assumption | intro _ _ hk | with_reducible apply touch_ite | with_reducible refine touch_advance ?_ | with_reducible refine touch_failColl ?_ | with_reducible refine touch_gather ?_ | with_reducible refine touch_pumpAll ?_ | with_reducible refine touch_sendResponse ?_ | with_reducible refine touch_takeDown ?_ | with_reducible refine touch_takeInbox ?_ | dsimp only | split)

theorem touch_execCollectiveTimeout {now : Nat} {id : Nat} {s : State} {zt : State} (ht : execCollectiveTimeout now id s = .next zt) : Touch 8189904768 s zt := by
  unfold execCollectiveTimeout at ht
  cases ht
  have hk := Touch.refl 8189904768 s
  repeat' (first | with_reducible assumption | intro _ _ hk | with_reducible apply touch_ite | with_reducible refine touch_at ?_ | with_reducible refine touch_failColl ?_ | dsimp only | split)

end Sys2Proof.Machine
end

