-- ==== Sys2Proof/Laws/TouchFabMem.lean ====
section
/-! SUPPORT. Which parts of the state the operations of Sys2Proof/Machine/FabMem.lean may change. -/

namespace Sys2Proof.Machine

set_option linter.all false
set_option Elab.async false

theorem touch_execFabRegionSet {m : Fin 16} {s : State} {zt : State} (ht : execFabRegionSet m s = .next zt) : Touch 4833936408 s zt := by
  unfold execFabRegionSet at ht
  cases ht
  have hk := Touch.refl 4833936408 s
  repeat' (first | with_reducible assumption | intro _ _ hk | with_reducible apply touch_ite | with_reducible refine touch_modRegion ?_ | with_reducible refine touch_runCommand ?_ ?_ | dsimp only | split)

theorem touch_execFabCompatSet {m : Fin 16} {s : State} {zt : State} (ht : execFabCompatSet m s = .next zt) : Touch 4901045272 s zt := by
  unfold execFabCompatSet at ht
  cases ht
  have hk := Touch.refl 4901045272 s
  repeat' (first | with_reducible assumption | intro _ _ hk | with_reducible apply touch_ite | with_reducible refine touch_extend ?_ | with_reducible refine touch_modRegion ?_ | with_reducible refine touch_runCommand ?_ ?_ | dsimp only | split)

theorem touch_execRegionCloseDone {region : Fin 4096} {s : State} {zt : State} (ht : execRegionCloseDone region s = .next zt) : Touch 2097152 s zt := by
  unfold execRegionCloseDone at ht
  cases ht
  have hk := Touch.refl 2097152 s
  repeat' (first | with_reducible assumption | intro _ _ hk | with_reducible apply touch_ite | with_reducible refine touch_modRegion ?_ | dsimp only | split)

theorem touch_refuse {msk : Nat} {z0 : State} {k : Packet} {st : Status} {s : State} (hk : Touch msk z0 s)
    (hw : msk &&& 540016640 = 540016640 := by decide) : Touch msk z0 (State.refuse k st s) := by
  refine Touch.use hk hw (fun hk => ?_)
  unfold State.refuse
  repeat' (first | with_reducible assumption | intro _ _ hk | with_reducible apply touch_ite | with_reducible refine touch_modFabMem ?_ | with_reducible refine touch_sendResponse ?_ | dsimp only | split)

theorem touch_countCompat {msk : Nat} {z0 : State} {k : Packet} {s : State} (hk : Touch msk z0 s)
    (hw : msk &&& 2097152 = 2097152 := by decide) : Touch msk z0 (State.countCompat k s) := by
  refine Touch.use hk hw (fun hk => ?_)
  unfold State.countCompat
  repeat' (first | with_reducible assumption | intro _ _ hk | with_reducible apply touch_ite | with_reducible refine touch_modFabMem ?_ | dsimp only | split)

theorem touch_noteSource {msk : Nat} {z0 : State} {k : Packet} {s : State} (hk : Touch msk z0 s)
    (hw : msk &&& 2097152 = 2097152 := by decide) : Touch msk z0 (State.noteSource k s) := by
  refine Touch.use hk hw (fun hk => ?_)
  unfold State.noteSource
  repeat' (first | with_reducible assumption | intro _ _ hk | with_reducible apply touch_ite | with_reducible refine touch_modFabMem ?_ | dsimp only | split)

theorem touch_nightNak {msk : Nat} {z0 : State} {k : Packet} {s : State} (hk : Touch msk z0 s)
    (hw : msk &&& 540016640 = 540016640 := by decide) : Touch msk z0 (State.nightNak k s) := by
  refine Touch.use hk hw (fun hk => ?_)
  unfold State.nightNak
  repeat' (first | with_reducible assumption | intro _ _ hk | with_reducible apply touch_ite | with_reducible refine touch_noteSource ?_ | with_reducible refine touch_refuse ?_ | with_reducible refine touch_takeInbox ?_ | dsimp only | split)

theorem touch_execFabReadRx {p : Packet} {s : State} {zt : State} (ht : execFabReadRx p s = .next zt) : Touch 8190428160 s zt := by
  unfold execFabReadRx at ht
  cases ht
  have hk := Touch.refl 8190428160 s
  repeat' (first | with_reducible assumption | (rename_i hq; have hz := congrArg Prod.snd hq; dsimp only at hz; subst hz; try clear hq) | (have hz := congrArg Prod.snd ‹_ = (_, _)›; dsimp only at hz; subst hz) | intro _ _ hk | with_reducible apply touch_ite | with_reducible refine touch_countCompat ?_ | with_reducible refine touch_fetch ?_ | with_reducible refine touch_nightNak ?_ | with_reducible refine touch_noteSource ?_ | with_reducible refine touch_refuse ?_ | with_reducible refine touch_sendResponse ?_ | with_reducible refine touch_takeInbox ?_ | dsimp only | split)

theorem touch_hotLine {msk : Nat} {z0 : State} {space : Bool} {line : Nat} {s : State} (hk : Touch msk z0 s)
    (hw : msk &&& 4833936400 = 4833936400 := by decide) : Touch msk z0 (State.hotLine space line s) := by
  refine Touch.use hk hw (fun hk => ?_)
  unfold State.hotLine
  repeat' (first | with_reducible assumption | intro _ _ hk | with_reducible apply touch_ite | with_reducible refine touch_modFabMem ?_ | with_reducible refine touch_raise ?_ | dsimp only | split)

theorem touch_joinHome {msk : Nat} {z0 : State} {k : Packet} {r : Region} {s : State} (hk : Touch msk z0 s)
    (hw : msk &&& 4834984976 = 4834984976 := by decide) : Touch msk z0 (State.joinHome k r s) := by
  refine Touch.use hk hw (fun hk => ?_)
  unfold State.joinHome
  repeat' (first | with_reducible assumption | with_reducible refine touch_forEach ?_ ?_ | intro _ _ hk | with_reducible apply touch_ite | with_reducible refine touch_countCompat ?_ | with_reducible refine touch_hotLine ?_ | with_reducible refine touch_modFabMem ?_ | with_reducible refine touch_takeInbox ?_ | dsimp only | split)

theorem touch_execFabWriteRx {p : Packet} {s : State} {zt : State} (ht : execFabWriteRx p s = .next zt) : Touch 4834984976 s zt := by
  unfold execFabWriteRx at ht
  cases ht
  have hk := Touch.refl 4834984976 s
  repeat' (first | with_reducible assumption | intro _ _ hk | with_reducible apply touch_ite | with_reducible refine touch_joinHome ?_ | with_reducible refine touch_nightNak ?_ | with_reducible refine touch_noteSource ?_ | with_reducible refine touch_refuse ?_ | with_reducible refine touch_takeInbox ?_ | dsimp only | split)

theorem touch_nakFull {msk : Nat} {z0 : State} {k : Packet} {ce : Bool} {s : State} (hk : Touch msk z0 s)
    (hw : msk &&& 540016640 = 540016640 := by decide) : Touch msk z0 (State.nakFull k ce s) := by
  refine Touch.use hk hw (fun hk => ?_)
  unfold State.nakFull
  repeat' (first | with_reducible assumption | intro _ _ hk | with_reducible apply touch_ite | with_reducible refine touch_modFabMem ?_ | with_reducible refine touch_sendResponse ?_ | dsimp only | split)

theorem touch_replayed {msk : Nat} {z0 zt : State} {k : Packet} {s : State} (hk : Touch msk z0 s) (ht : State.replayed k s = some zt)
    (hw : msk &&& 540016640 = 540016640 := by decide) : Touch msk z0 zt := by
  refine Touch.use hk hw (fun hk => ?_)
  simp only [State.replayed, Option.map_eq_some_iff] at ht
  repeat' split at ht
  all_goals (try simp only [Option.map_eq_some_iff] at ht)
  all_goals first | (obtain ⟨_, _, rfl⟩ := ht) | cases ht | skip
  repeat' (first | with_reducible assumption | intro _ _ hk | with_reducible apply touch_ite | with_reducible refine touch_modFabMem ?_ | with_reducible refine touch_sendResponse ?_ | with_reducible refine touch_takeInbox ?_ | dsimp only | split)

theorem touch_onceRx {msk : Nat} {z0 : State} {k : Packet} {perm : Region → Bool} {shape : Bool} {s : State} (hk : Touch msk z0 s)
    (hw : msk &&& 4834984976 = 4834984976 := by decide) : Touch msk z0 (State.onceRx k perm shape s) := by
  refine Touch.use hk hw (fun hk => ?_)
  unfold State.onceRx
  repeat' (first | with_reducible assumption | intro _ _ hk | with_reducible apply touch_ite | with_reducible refine touch_joinHome ?_ | with_reducible refine touch_nakFull ?_ | with_reducible refine touch_noteSource ?_ | with_reducible refine touch_refuse ?_ | with_reducible refine touch_takeInbox ?_ | refine touch_replayed ?_ (by assumption) | dsimp only | split)

theorem touch_execFabFlagRx {p : Packet} {s : State} {zt : State} (ht : execFabFlagRx p s = .next zt) : Touch 4834984976 s zt := by
  unfold execFabFlagRx at ht
  cases ht
  have hk := Touch.refl 4834984976 s
  repeat' (first | with_reducible assumption | intro _ _ hk | with_reducible apply touch_ite | with_reducible refine touch_nightNak ?_ | with_reducible refine touch_onceRx ?_ | dsimp only | split)

theorem touch_execFabAtomicRx {p : Packet} {s : State} {zt : State} (ht : execFabAtomicRx p s = .next zt) : Touch 4834984976 s zt := by
  unfold execFabAtomicRx at ht
  cases ht
  have hk := Touch.refl 4834984976 s
  repeat' (first | with_reducible assumption | intro _ _ hk | with_reducible apply touch_ite | with_reducible refine touch_nightNak ?_ | with_reducible refine touch_onceRx ?_ | dsimp only | split)

theorem touch_execFabAckRx {p : Packet} {s : State} {zt : State} (ht : execFabAckRx p s = .next zt) : Touch 540016640 s zt := by
  unfold execFabAckRx at ht
  cases ht
  have hk := Touch.refl 540016640 s
  repeat' (first | with_reducible assumption | intro _ _ hk | with_reducible apply touch_ite | with_reducible refine touch_modFabMem ?_ | with_reducible refine touch_noteSource ?_ | with_reducible refine touch_refuse ?_ | with_reducible refine touch_takeInbox ?_ | dsimp only | split)

theorem touch_recordReplay {msk : Nat} {z0 : State} {k : Packet} {resp : Packet} {s : State} (hk : Touch msk z0 s)
    (hw : msk &&& 540016640 = 540016640 := by decide) : Touch msk z0 (State.recordReplay k resp s) := by
  refine Touch.use hk hw (fun hk => ?_)
  unfold State.recordReplay
  repeat' (first | with_reducible assumption | intro _ _ hk | with_reducible apply touch_ite | with_reducible refine touch_modFabMem ?_ | with_reducible refine touch_sendResponse ?_ | dsimp only | split)

theorem touch_applyUpdate {msk : Nat} {z0 : State} {w : Waiting} {ce : Bool} {s : State} (hk : Touch msk z0 s)
    (hw : msk &&& 8190428800 = 8190428800 := by decide) : Touch msk z0 (State.applyUpdate w ce s) := by
  refine Touch.use hk hw (fun hk => ?_)
  unfold State.applyUpdate
  repeat' (first | with_reducible assumption | (rename_i hq; have hz := congrArg Prod.snd hq; dsimp only at hz; subst hz; try clear hq) | (have hz := congrArg Prod.snd ‹_ = (_, _)›; dsimp only at hz; subst hz) | intro _ _ hk | with_reducible apply touch_ite | with_reducible refine touch_fetch ?_ | with_reducible refine touch_modFabMem ?_ | with_reducible refine touch_nakFull ?_ | with_reducible refine touch_objPoison ?_ | with_reducible refine touch_objPut ?_ | with_reducible refine touch_recordReplay ?_ | with_reducible refine touch_sendResponse ?_ | dsimp only | split)

theorem touch_execHomeUpdateApply {now : Nat} {space : Bool} {line : Nat} {s : State} {zt : State} (ht : execHomeUpdateApply now space line s = .next zt) : Touch 8190953088 s zt := by
  unfold execHomeUpdateApply at ht
  cases ht
  have hk := Touch.refl 8190953088 s
  repeat' (first | with_reducible assumption | (rename_i hq; have hz := congrArg Prod.snd hq; dsimp only at hz; subst hz; try clear hq) | (have hz := congrArg Prod.snd ‹_ = (_, _)›; dsimp only at hz; subst hz) | intro _ _ hk | with_reducible apply touch_ite | with_reducible refine touch_applyUpdate ?_ | with_reducible refine touch_at ?_ | with_reducible refine touch_fetch ?_ | with_reducible refine touch_modFabMem ?_ | dsimp only | split)

theorem touch_execReplayEntryExpiry {now : Nat} {src : Fin 4096} {seq : Nat} {s : State} {zt : State} (ht : execReplayEntryExpiry now src seq s = .next zt) : Touch 2621440 s zt := by
  unfold execReplayEntryExpiry at ht
  cases ht
  have hk := Touch.refl 2621440 s
  repeat' (first | with_reducible assumption | intro _ _ hk | with_reducible apply touch_ite | with_reducible refine touch_at ?_ | with_reducible refine touch_modFabMem ?_ | dsimp only | split)

theorem touch_readColl {msk : Nat} {z0 zt : State} {d : Bytes} {s : State} {r : Except Status (List Nat × Bytes)}
    (hk : Touch msk z0 s) (ht : State.readColl d s = some (r, zt)) (hw : msk &&& 8187282432 = 8187282432 := by decide) :
    Touch msk z0 zt := by
  refine Touch.use hk hw (fun hk => ?_)
  have h1 := touch_fetch (e := hdlEntry (fParts d)) (off := 0) (n := 8192) (f := none) hk
  unfold State.readColl at ht
  revert h1 ht
  generalize State.fetch (hdlEntry (fParts d)) 0 8192 none s = q
  intro ht h1
  split at ht
  · cases ht
  · cases ht
    exact h1
  · rename_i pb p s1
    dsimp only at ht
    generalize readParts 4096 pb none = parts at ht
    split at ht
    · cases ht
      exact h1
    · have h2 := touch_fetchWhole (e := hdlEntry (fLocal d)) (off := fLocalOff d) (n := fLength d) h1
      revert h2 ht
      generalize State.fetchWhole _ _ _ _ = q
      intro ht h2
      split at ht
      · cases ht
      · cases ht
        exact h2
      · cases ht
        exact h2
      · cases ht
        exact h2

theorem touch_postDesc {msk : Nat} {z0 : State} {queue : Nat} {i : Nat} {c : QCtx} {b : Bytes} {st : Status} {parts : List Nat} {v : Bytes} {s : State} (hk : Touch msk z0 s)
    (hw : msk &&& 8190437248 = 8190437248 := by decide) : Touch msk z0 (State.postDesc queue i c b st parts v s) := by
  refine Touch.use hk hw (fun hk => ?_)
  unfold State.postDesc
  repeat' (first | with_reducible assumption | intro _ _ hk | with_reducible apply touch_ite | with_reducible refine touch_finishDesc ?_ | with_reducible refine touch_modFabMem ?_ | with_reducible refine touch_popHead ?_ | with_reducible refine touch_pumpAll ?_ | with_reducible refine touch_setFdesc ?_ | with_reducible refine touch_startColl ?_ | dsimp only | split)

theorem touch_execFabRequestSend {now : Nat} {queue : Nat} {s : State} {zt : State} (ht : execFabRequestSend now queue s = .next zt) : Touch 8190961536 s zt := by
  unfold execFabRequestSend at ht
  cases ht
  have hk := Touch.refl 8190961536 s
  repeat' (first | with_reducible assumption | intro _ _ hk | with_reducible apply touch_ite | with_reducible refine touch_at ?_ | with_reducible refine touch_postDesc ?_ | refine touch_readColl ?_ (by assumption) | dsimp only | split)

theorem touch_execFlagRelease {now : Nat} {id : Nat} {s : State} {zt : State} (ht : execFlagRelease now id s = .next zt) : Touch 8190953344 s zt := by
  unfold execFlagRelease at ht
  cases ht
  have hk := Touch.refl 8190953344 s
  repeat' (first | with_reducible assumption | intro _ _ hk | with_reducible apply touch_ite | with_reducible refine touch_at ?_ | with_reducible refine touch_modFdesc ?_ | with_reducible refine touch_pumpAll ?_ | with_reducible refine touch_settleDesc ?_ | dsimp only | split)

theorem touch_execCopyCounterSend {now : Nat} {id : Nat} {s : State} {zt : State} (ht : execCopyCounterSend now id s = .next zt) : Touch 540540928 s zt := by
  unfold execCopyCounterSend at ht
  cases ht
  have hk := Touch.refl 540540928 s
  repeat' (first | with_reducible assumption | intro _ _ hk | with_reducible apply touch_ite | with_reducible refine touch_at ?_ | with_reducible refine touch_modFdesc ?_ | with_reducible refine touch_sendRequest ?_ | dsimp only | split)

theorem touch_takeAnswer {msk : Nat} {z0 : State} {r : Request} {p : Packet} {s : State} (hk : Touch msk z0 s)
    (hw : msk &&& 8189380224 = 8189380224 := by decide) : Touch msk z0 (State.takeAnswer r p s).2 := by
  refine Touch.use hk hw (fun hk => ?_)
  unfold State.takeAnswer
  repeat' (first | with_reducible assumption | intro _ _ hk | with_reducible apply touch_ite | with_reducible refine touch_modFdesc ?_ | with_reducible refine touch_objPoison ?_ | with_reducible refine touch_objPut ?_ | dsimp only | split)

theorem touch_execFabResponseRx {now : Nat} {p : Packet} {s : State} {zt : State} (ht : execFabResponseRx now p s = .next zt) : Touch 8190953344 s zt := by
  unfold execFabResponseRx at ht
  cases ht
  have hk := Touch.refl 8190953344 s
  repeat' (first | with_reducible assumption | (rename_i hq; have hz := congrArg Prod.snd hq; dsimp only at hz; subst hz; try clear hq) | (have hz := congrArg Prod.snd ‹_ = (_, _)›; dsimp only at hz; subst hz) | intro _ _ hk | with_reducible apply touch_ite | with_reducible refine touch_at ?_ | with_reducible refine touch_endRequest ?_ | with_reducible refine touch_modDest ?_ | with_reducible refine touch_modFabMem ?_ | with_reducible refine touch_modFdesc ?_ | with_reducible refine touch_takeAnswer ?_ | with_reducible refine touch_takeInbox ?_ | dsimp only | split)

theorem touch_execFabRetryTimeout {now : Nat} {dst : Fin 4096} {seq : Nat} {s : State} {zt : State} (ht : execFabRetryTimeout now dst seq s = .next zt) : Touch 540540928 s zt := by
  unfold execFabRetryTimeout at ht
  cases ht
  have hk := Touch.refl 540540928 s
  repeat' (first | with_reducible assumption | intro _ _ hk | with_reducible apply touch_ite | with_reducible refine touch_at ?_ | with_reducible refine touch_modFabMem ?_ | with_reducible refine touch_sendPacket ?_ | dsimp only | split)

theorem touch_execFabOutcomeTimeout {now : Nat} {dst : Fin 4096} {seq : Nat} {s : State} {zt : State} (ht : execFabOutcomeTimeout now dst seq s = .next zt) : Touch 8190953344 s zt := by
  unfold execFabOutcomeTimeout at ht
  cases ht
  have hk := Touch.refl 8190953344 s
  repeat' (first | with_reducible assumption | intro _ _ hk | with_reducible apply touch_ite | with_reducible refine touch_at ?_ | with_reducible refine touch_complete ?_ | with_reducible refine touch_endRequest ?_ | with_reducible refine touch_modDest ?_ | with_reducible refine touch_modFabMem ?_ | dsimp only | split)

theorem touch_execAckSend {now : Nat} {dst : Fin 4096} {s : State} {zt : State} (ht : execAckSend now dst s = .next zt) : Touch 540540928 s zt := by
  unfold execAckSend at ht
  cases ht
  have hk := Touch.refl 540540928 s
  repeat' (first | with_reducible assumption | intro _ _ hk | with_reducible apply touch_ite | with_reducible refine touch_at ?_ | with_reducible refine touch_modDest ?_ | with_reducible refine touch_sendPacket ?_ | dsimp only | split)

end Sys2Proof.Machine
end

