-- ==== Sys2Proof/Laws/TouchProvenance.lean ====
section
/-! SUPPORT. Which parts of the state the operations of Sys2Proof/Machine/Provenance.lean may change. -/

namespace Sys2Proof.Machine

set_option linter.all false
set_option Elab.async false

theorem touch_execProvenanceSet {m : Fin 16} {s : State} {zt : State} (ht : execProvenanceSet m s = .next zt) : Touch 4903142424 s zt := by
  unfold execProvenanceSet at ht
  cases ht
  have hk := Touch.refl 4903142424 s
  repeat' (first | with_reducible assumption | intro _ _ hk | with_reducible apply touch_ite | with_reducible refine touch_closeInterval ?_ | with_reducible refine touch_modProv ?_ | with_reducible refine touch_provFlush ?_ | with_reducible refine touch_runCommand ?_ ?_ | dsimp only | split)

theorem touch_execProvenanceIntervalEnd {now : Nat} {s : State} {zt : State} (ht : execProvenanceIntervalEnd now s = .next zt) : Touch 4366795776 s zt := by
  unfold execProvenanceIntervalEnd at ht
  cases ht
  have hk := Touch.refl 4366795776 s
  repeat' (first | with_reducible assumption | intro _ _ hk | with_reducible apply touch_ite | with_reducible refine touch_at ?_ | with_reducible refine touch_closeInterval ?_ | dsimp only | split)

end Sys2Proof.Machine
end

