-- ==== Sys2Proof/Laws/TouchInstances.lean ====
section
/-! SUPPORT. Which parts of the state the operations of Sys2Proof/Machine/Instances.lean may change. -/

namespace Sys2Proof.Machine

set_option linter.all false
set_option Elab.async false

theorem touch_makeTable' {msk : Nat} {z0 : State} {i : Nat} {g : Grant} {s : State} (hk : Touch msk z0 s)
    (hw : msk &&& 2147485184 = 2147485184 := by decide) : Touch msk z0 (State.makeTable' i g s).2 := by
  refine Touch.use hk hw (fun hk => ?_)
  unfold State.makeTable'
  repeat' (first | with_reducible assumption | (rename_i hq; have hz := congrArg Prod.snd hq; dsimp only at hz; subst hz; try clear hq) | (have hz := congrArg Prod.snd ‹_ = (_, _)›; dsimp only at hz; subst hz) | with_reducible refine touch_forEach ?_ ?_ | intro _ _ hk | with_reducible apply touch_ite | with_reducible refine touch_nextOrder ?_ | with_reducible refine touch_place ?_ | with_reducible refine touch_zeroMem ?_ | ((fail_if_success (with_reducible refine touch_eta ?_)); with_reducible refine touch_lit9 ?_) | dsimp only | split)

theorem touch_setPolicers {msk : Nat} {z0 : State} {g : Grant} {s : State} (hk : Touch msk z0 s)
    (hw : msk &&& 262144 = 262144 := by decide) : Touch msk z0 (State.setPolicers g s) := by
  refine Touch.use hk hw (fun hk => ?_)
  unfold State.setPolicers
  repeat' (first | with_reducible assumption | (rename_i hq; have hz := congrArg Prod.snd (congrArg Prod.snd hq); dsimp only at hz; subst hz; try clear hq) | (rename_i hq; have hz := congrArg Prod.snd hq; dsimp only at hz; subst hz; try clear hq) | (have hz := congrArg Prod.snd ‹_ = (_, _)›; dsimp only at hz; subst hz) | (have hz := congrArg Prod.snd (congrArg Prod.snd ‹_ = (_, _, _)›); dsimp only at hz; subst hz) | with_reducible refine touch_forEach ?_ ?_ | intro _ _ hk | with_reducible apply touch_ite | with_reducible refine touch_modLane ?_ | with_reducible refine touch_police ?_ | dsimp only | split)

theorem touch_makeInst {msk : Nat} {z0 : State} {i : Nat} {g : Grant} {gen : Nat} {st : IState} {s : State} (hk : Touch msk z0 s)
    (hw : msk &&& 2147747456 = 2147747456 := by decide) : Touch msk z0 (State.makeInst i g gen st s) := by
  refine Touch.use hk hw (fun hk => ?_)
  unfold State.makeInst
  repeat' (first | with_reducible assumption | (rename_i hq; have hz := congrArg Prod.snd hq; dsimp only at hz; subst hz; try clear hq) | (have hz := congrArg Prod.snd ‹_ = (_, _)›; dsimp only at hz; subst hz) | intro _ _ hk | with_reducible apply touch_ite | with_reducible refine touch_makeTable' ?_ | with_reducible refine touch_modInst ?_ | with_reducible refine touch_setPolicers ?_ | dsimp only | split)

theorem touch_execInstCreate {m : Fin 16} {s : State} {zt : State} (ht : execInstCreate m s = .next zt) : Touch 6979585688 s zt := by
  unfold execInstCreate at ht
  cases ht
  have hk := Touch.refl 6979585688 s
  repeat' (first | with_reducible assumption | intro _ _ hk | with_reducible apply touch_ite | with_reducible refine touch_makeInst ?_ | with_reducible refine touch_runCommand ?_ ?_ | dsimp only | split)

theorem touch_execQuotaSet {m : Fin 16} {s : State} {zt : State} (ht : execQuotaSet m s = .next zt) : Touch 4831839384 s zt := by
  unfold execQuotaSet at ht
  cases ht
  have hk := Touch.refl 4831839384 s
  repeat' (first | with_reducible assumption | intro _ _ hk | with_reducible apply touch_ite | with_reducible refine touch_modInst ?_ | with_reducible refine touch_runCommand ?_ ?_ | dsimp only | split)

theorem touch_dropDoorbells {msk : Nat} {z0 : State} {i : Nat} {s : State} (hk : Touch msk z0 s)
    (hw : msk &&& 8256 = 8256 := by decide) : Touch msk z0 (State.dropDoorbells i s) := by
  refine Touch.use hk hw (fun hk => ?_)
  unfold State.dropDoorbells
  repeat' (first | with_reducible assumption | intro _ _ hk | with_reducible apply touch_ite | with_reducible refine touch_modDbPage ?_ | ((fail_if_success (with_reducible refine touch_eta ?_)); with_reducible refine touch_lit13 ?_) | dsimp only | split)

theorem touch_stopTasks {msk : Nat} {z0 : State} {i : Nat} {s : State} (hk : Touch msk z0 s)
    (hw : msk &&& 6987865628 = 6987865628 := by decide) : Touch msk z0 (State.stopTasks i s) := by
  refine Touch.use hk hw (fun hk => ?_)
  unfold State.stopTasks
  repeat' (first | with_reducible assumption | with_reducible refine touch_forEach ?_ ?_ | intro _ _ hk | with_reducible apply touch_ite | with_reducible refine touch_killTask ?_ | with_reducible refine touch_leaveNow ?_ | with_reducible refine touch_settleHolds ?_ | dsimp only | split)

theorem touch_stopFabric {msk : Nat} {z0 : State} {i : Nat} {s : State} (hk : Touch msk z0 s)
    (hw : msk &&& 8189380480 = 8189380480 := by decide) : Touch msk z0 (State.stopFabric i s) := by
  refine Touch.use hk hw (fun hk => ?_)
  unfold State.stopFabric
  repeat' (first | with_reducible assumption | with_reducible refine touch_forEach ?_ ?_ | intro _ _ hk | with_reducible apply touch_ite | with_reducible refine touch_jobLost ?_ | with_reducible refine touch_modFdesc ?_ | with_reducible refine touch_settleDesc ?_ | dsimp only | split)

theorem touch_clearFailed {msk : Nat} {z0 : State} {i : Nat} {s : State} (hk : Touch msk z0 s)
    (hw : msk &&& 2097152 = 2097152 := by decide) : Touch msk z0 (State.clearFailed i s) := by
  refine Touch.use hk hw (fun hk => ?_)
  unfold State.clearFailed
  repeat' (first | with_reducible assumption | intro _ _ hk | with_reducible apply touch_ite | with_reducible refine touch_modFabMem ?_ | dsimp only | split)

theorem touch_resetQueue {msk : Nat} {z0 : State} {i : Nat} {q : Nat} {s : State} (hk : Touch msk z0 s)
    (hw : msk &&& 8187291264 = 8187291264 := by decide) : Touch msk z0 (State.resetQueue i q s) := by
  refine Touch.use hk hw (fun hk => ?_)
  unfold State.resetQueue
  repeat' (first | with_reducible assumption | intro _ _ hk | with_reducible apply touch_ite | with_reducible refine touch_evict ?_ | with_reducible refine touch_tableWrite ?_ | dsimp only | split)

theorem touch_stopInst {msk : Nat} {z0 : State} {i : Nat} {s : State} (hk : Touch msk z0 s)
    (hw : msk &&& 8197930716 = 8197930716 := by decide) : Touch msk z0 (State.stopInst i s) := by
  refine Touch.use hk hw (fun hk => ?_)
  unfold State.stopInst
  repeat' (first | with_reducible assumption | with_reducible refine touch_forEach ?_ ?_ | intro _ _ hk | with_reducible apply touch_ite | with_reducible refine touch_clearFailed ?_ | with_reducible refine touch_dropDoorbells ?_ | with_reducible refine touch_resetQueue ?_ | with_reducible refine touch_stopTasks ?_ | dsimp only | split)

theorem touch_execInstReset {m : Fin 16} {s : State} {zt : State} (ht : execInstReset m s = .next zt) : Touch 8197930972 s zt := by
  unfold execInstReset at ht
  cases ht
  have hk := Touch.refl 8197930972 s
  repeat' (first | with_reducible assumption | intro _ _ hk | with_reducible apply touch_ite | with_reducible refine touch_jobLost ?_ | with_reducible refine touch_modInst ?_ | with_reducible refine touch_runCommand ?_ ?_ | with_reducible refine touch_stopFabric ?_ | with_reducible refine touch_stopInst ?_ | dsimp only | split)

theorem touch_orphanAll {msk : Nat} {z0 : State} {i : Nat} {s : State} (hk : Touch msk z0 s)
    (hw : msk &&& 2365440 = 2365440 := by decide) : Touch msk z0 (State.orphanAll i s) := by
  refine Touch.use hk hw (fun hk => ?_)
  unfold State.orphanAll
  repeat' (first | with_reducible assumption | with_reducible refine touch_forEach ?_ ?_ | intro _ _ hk | with_reducible apply touch_ite | with_reducible refine touch_modDisp ?_ | with_reducible refine touch_modFdesc ?_ | with_reducible refine touch_modFold ?_ | with_reducible refine touch_modLane ?_ | dsimp only | split)

theorem touch_closeRegions {msk : Nat} {z0 : State} {i : Nat} {s : State} (hk : Touch msk z0 s)
    (hw : msk &&& 2097152 = 2097152 := by decide) : Touch msk z0 (State.closeRegions i s) := by
  refine Touch.use hk hw (fun hk => ?_)
  unfold State.closeRegions
  repeat' (first | with_reducible assumption | with_reducible refine touch_forEach ?_ ?_ | intro _ _ hk | with_reducible apply touch_ite | with_reducible refine touch_modRegion ?_ | dsimp only | split)

theorem touch_dropPages {msk : Nat} {z0 : State} {i : Nat} {s : State} (hk : Touch msk z0 s)
    (hw : msk &&& 48 = 48 := by decide) : Touch msk z0 (State.dropPages i s) := by
  refine Touch.use hk hw (fun hk => ?_)
  unfold State.dropPages
  repeat' (first | with_reducible assumption | with_reducible refine touch_forEach ?_ ?_ | intro _ _ hk | with_reducible apply touch_ite | with_reducible refine touch_modRing ?_ | ((fail_if_success (with_reducible refine touch_eta ?_)); with_reducible refine touch_lit5 ?_) | dsimp only | split)

theorem touch_freeGrants {msk : Nat} {z0 : State} {i : Nat} {s : State} (hk : Touch msk z0 s)
    (hw : msk &&& 270464 = 270464 := by decide) : Touch msk z0 (State.freeGrants i s) := by
  refine Touch.use hk hw (fun hk => ?_)
  unfold State.freeGrants
  repeat' (first | with_reducible assumption | with_reducible refine touch_forEach ?_ ?_ | intro _ _ hk | with_reducible apply touch_ite | with_reducible refine touch_modInst ?_ | with_reducible refine touch_modLane ?_ | ((fail_if_success (with_reducible refine touch_eta ?_)); with_reducible refine touch_lit13 ?_) | dsimp only | split)

theorem touch_dropObjects {msk : Nat} {z0 : State} {i : Nat} {s : State} (hk : Touch msk z0 s)
    (hw : msk &&& 512 = 512 := by decide) : Touch msk z0 (State.dropObjects i s) := by
  refine Touch.use hk hw (fun hk => ?_)
  unfold State.dropObjects
  repeat' (first | with_reducible assumption | with_reducible refine touch_forEach ?_ ?_ | intro _ _ hk | with_reducible apply touch_ite | with_reducible refine touch_destroyHandle ?_ | dsimp only | split)

theorem touch_execInstDestroy {m : Fin 16} {s : State} {zt : State} (ht : execInstDestroy m s = .next zt) : Touch 8265302012 s zt := by
  unfold execInstDestroy at ht
  cases ht
  have hk := Touch.refl 8265302012 s
  repeat' (first | with_reducible assumption | with_reducible refine touch_forEach ?_ ?_ | intro _ _ hk | with_reducible apply touch_ite | with_reducible refine touch_cancelLong ?_ | with_reducible refine touch_closeRegions ?_ | with_reducible refine touch_dropObjects ?_ | with_reducible refine touch_dropPages ?_ | with_reducible refine touch_freeGrants ?_ | with_reducible refine touch_modMbox ?_ | with_reducible refine touch_orphanAll ?_ | with_reducible refine touch_runCommand ?_ ?_ | with_reducible refine touch_stopFabric ?_ | with_reducible refine touch_stopInst ?_ | dsimp only | split)

theorem touch_setPaused {msk : Nat} {z0 : State} {i : Nat} {on : Bool} {s : State} (hk : Touch msk z0 s)
    (hw : msk &&& 2048 = 2048 := by decide) : Touch msk z0 (State.setPaused i on s) := by
  refine Touch.use hk hw (fun hk => ?_)
  unfold State.setPaused
  repeat' (first | with_reducible assumption | with_reducible refine touch_forEach ?_ ?_ | intro _ _ hk | with_reducible apply touch_ite | with_reducible refine touch_modFold ?_ | dsimp only | split)

theorem touch_execInstFreeze {m : Fin 16} {s : State} {zt : State} (ht : execInstFreeze m s = .next zt) : Touch 4833938584 s zt := by
  unfold execInstFreeze at ht
  cases ht
  have hk := Touch.refl 4833938584 s
  repeat' (first | with_reducible assumption | with_reducible refine touch_forEach ?_ ?_ | intro _ _ hk | with_reducible apply touch_ite | with_reducible refine touch_modInst ?_ | with_reducible refine touch_modRegion ?_ | with_reducible refine touch_runCommand ?_ ?_ | with_reducible refine touch_setPaused ?_ | dsimp only | split)

theorem touch_execInstThaw {m : Fin 16} {s : State} {zt : State} (ht : execInstThaw m s = .next zt) : Touch 4833938584 s zt := by
  unfold execInstThaw at ht
  cases ht
  have hk := Touch.refl 4833938584 s
  repeat' (first | with_reducible assumption | with_reducible refine touch_forEach ?_ ?_ | intro _ _ hk | with_reducible apply touch_ite | with_reducible refine touch_modInst ?_ | with_reducible refine touch_modRegion ?_ | with_reducible refine touch_runCommand ?_ ?_ | with_reducible refine touch_setPaused ?_ | dsimp only | split)

theorem touch_execDirtySwap {m : Fin 16} {s : State} {zt : State} (ht : execDirtySwap m s = .next zt) : Touch 4831839384 s zt := by
  unfold execDirtySwap at ht
  cases ht
  have hk := Touch.refl 4831839384 s
  repeat' (first | with_reducible assumption | intro _ _ hk | with_reducible apply touch_ite | with_reducible refine touch_modInst ?_ | with_reducible refine touch_runCommand ?_ ?_ | dsimp only | split)

end Sys2Proof.Machine
end

