-- ==== Sys2Proof/Laws/TouchImages.lean ====
section
/-! SUPPORT. Which parts of the state the operations of Sys2Proof/Machine/Images.lean may change. -/

namespace Sys2Proof.Machine

set_option linter.all false
set_option Elab.async false

theorem touch_imgGroups {msk : Nat} {z0 : State} {f : Nat} {slot : Nat} {x0 : List Nat} {s : State} (hk : Touch msk z0 s)
    (hw : msk &&& 1073741824 = 1073741824 := by decide) : Touch msk z0 (State.imgGroups f slot x0 s).2 := by
  refine Touch.use hk hw (fun hq => ?_)
  suffices h : ∀ z, Touch 1073741824 z s → Touch 1073741824 z (State.imgGroups f slot x0 s).2 from h _ hq
  clear hq hk hw
  intro z0 hk
  induction x0 generalizing s with
  | nil =>
    first | exact hk | (simp only [State.imgGroups]; repeat' (first | with_reducible assumption | (rename_i hq; have hz := congrArg Prod.snd hq; dsimp only at hz; subst hz; try clear hq) | (have hz := congrArg Prod.snd ‹_ = (_, _)›; dsimp only at hz; subst hz) | intro _ _ hk | with_reducible apply touch_ite | with_reducible refine touch_accRecords ?_ | dsimp only | split))
  | cons x r ih =>
    simp only [State.imgGroups]
    repeat' (first | with_reducible assumption | with_reducible apply ih | (rename_i hq; have hz := congrArg Prod.snd hq; dsimp only at hz; subst hz; try clear hq) | (have hz := congrArg Prod.snd ‹_ = (_, _)›; dsimp only at hz; subst hz) | intro _ _ hk | with_reducible apply touch_ite | with_reducible refine touch_accRecords ?_ | dsimp only | split)

theorem touch_imgAllGroups {msk : Nat} {z0 : State} {x0 : List (Nat × Nat)} {s : State} (hk : Touch msk z0 s)
    (hw : msk &&& 1073741824 = 1073741824 := by decide) : Touch msk z0 (State.imgAllGroups x0 s).2 := by
  refine Touch.use hk hw (fun hq => ?_)
  suffices h : ∀ z, Touch 1073741824 z s → Touch 1073741824 z (State.imgAllGroups x0 s).2 from h _ hq
  clear hq hk hw
  intro z0 hk
  induction x0 generalizing s with
  | nil =>
    first | exact hk | (simp only [State.imgAllGroups]; repeat' (first | with_reducible assumption | (rename_i hq; have hz := congrArg Prod.snd hq; dsimp only at hz; subst hz; try clear hq) | (have hz := congrArg Prod.snd ‹_ = (_, _)›; dsimp only at hz; subst hz) | intro _ _ hk | with_reducible apply touch_ite | with_reducible refine touch_imgGroups ?_ | dsimp only | split))
  | cons x r ih =>
    simp only [State.imgAllGroups]
    repeat' (first | with_reducible assumption | with_reducible apply ih | (rename_i hq; have hz := congrArg Prod.snd hq; dsimp only at hz; subst hz; try clear hq) | (have hz := congrArg Prod.snd ‹_ = (_, _)›; dsimp only at hz; subst hz) | intro _ _ hk | with_reducible apply touch_ite | with_reducible refine touch_imgGroups ?_ | dsimp only | split)

theorem touch_imgCtxs {msk : Nat} {z0 : State} {i : Nat} {x0 : List Nat} {s : State} (hk : Touch msk z0 s)
    (hw : msk &&& 1073741824 = 1073741824 := by decide) : Touch msk z0 (State.imgCtxs i x0 s).2 := by
  refine Touch.use hk hw (fun hq => ?_)
  suffices h : ∀ z, Touch 1073741824 z s → Touch 1073741824 z (State.imgCtxs i x0 s).2 from h _ hq
  clear hq hk hw
  intro z0 hk
  induction x0 generalizing s with
  | nil =>
    first | exact hk | (simp only [State.imgCtxs]; repeat' (first | with_reducible assumption | (rename_i hq; have hz := congrArg Prod.snd hq; dsimp only at hz; subst hz; try clear hq) | (have hz := congrArg Prod.snd ‹_ = (_, _)›; dsimp only at hz; subst hz) | intro _ _ hk | with_reducible apply touch_ite | with_reducible refine touch_imgAllGroups ?_ | dsimp only | split))
  | cons x r ih =>
    simp only [State.imgCtxs]
    repeat' (first | with_reducible assumption | with_reducible apply ih | (rename_i hq; have hz := congrArg Prod.snd hq; dsimp only at hz; subst hz; try clear hq) | (have hz := congrArg Prod.snd ‹_ = (_, _)›; dsimp only at hz; subst hz) | intro _ _ hk | with_reducible apply touch_ite | with_reducible refine touch_imgAllGroups ?_ | dsimp only | split)

theorem touch_imageOf {msk : Nat} {z0 : State} {i : Nat} {s : State} (hk : Touch msk z0 s)
    (hw : msk &&& 1073741824 = 1073741824 := by decide) : Touch msk z0 (State.imageOf i s).2 := by
  refine Touch.use hk hw (fun hk => ?_)
  unfold State.imageOf
  repeat' (first | with_reducible assumption | (rename_i hq; have hz := congrArg Prod.snd hq; dsimp only at hz; subst hz; try clear hq) | (have hz := congrArg Prod.snd ‹_ = (_, _)›; dsimp only at hz; subst hz) | intro _ _ hk | with_reducible apply touch_ite | with_reducible refine touch_imgCtxs ?_ | dsimp only | split)

theorem touch_execInstExport {m : Fin 16} {s : State} {zt : State} (ht : execInstExport m s = .next zt) : Touch 4831839384 s zt := by
  unfold execInstExport at ht
  cases ht
  have hk := Touch.refl 4831839384 s
  repeat' (first | with_reducible assumption | intro _ _ hk | with_reducible apply touch_ite | with_reducible refine touch_modInst ?_ | with_reducible refine touch_runCommand ?_ ?_ | dsimp only | split)

theorem touch_flushCopy {msk : Nat} {z0 : State} {e : Nat} {t : Nat} {s : State} (hk : Touch msk z0 s)
    (hw : msk &&& 6442452608 = 6442452608 := by decide) : Touch msk z0 (State.flushCopy e t s) := by
  refine Touch.use hk hw (fun hk => ?_)
  unfold State.flushCopy
  repeat' (first | with_reducible assumption | with_reducible refine touch_forEach ?_ ?_ | intro _ _ hk | with_reducible apply touch_ite | with_reducible refine touch_logDirty ?_ | with_reducible refine touch_modCopy ?_ | ((fail_if_success (with_reducible refine touch_eta ?_)); with_reducible refine touch_lit10 ?_) | dsimp only | split)

theorem touch_drainHome {msk : Nat} {z0 : State} {i : Nat} {s : State} (hk : Touch msk z0 s)
    (hw : msk &&& 6442452608 = 6442452608 := by decide) : Touch msk z0 (State.drainHome i s) := by
  refine Touch.use hk hw (fun hk => ?_)
  unfold State.drainHome
  repeat' (first | with_reducible assumption | with_reducible refine touch_forEach ?_ ?_ | intro _ _ hk | with_reducible apply touch_ite | with_reducible refine touch_flushCopy ?_ | dsimp only | split)

theorem touch_evictAll {msk : Nat} {z0 : State} {i : Nat} {s : State} (hk : Touch msk z0 s)
    (hw : msk &&& 8187291264 = 8187291264 := by decide) : Touch msk z0 (State.evictAll i s) := by
  refine Touch.use hk hw (fun hk => ?_)
  unfold State.evictAll
  repeat' (first | with_reducible assumption | with_reducible refine touch_forEach ?_ ?_ | intro _ _ hk | with_reducible apply touch_ite | with_reducible refine touch_evict ?_ | dsimp only | split)

theorem touch_execInstExportDone {inst : Fin 256} {s : State} {zt : State} (ht : execInstExportDone inst s = .next zt) : Touch 8187291288 s zt := by
  unfold execInstExportDone at ht
  cases ht
  have hk := Touch.refl 8187291288 s
  repeat' (first | with_reducible assumption | (rename_i hq; have hz := congrArg Prod.snd hq; dsimp only at hz; subst hz; try clear hq) | (have hz := congrArg Prod.snd ‹_ = (_, _)›; dsimp only at hz; subst hz) | intro _ _ hk | with_reducible apply touch_ite | with_reducible refine touch_commandDone ?_ | with_reducible refine touch_drainHome ?_ | with_reducible refine touch_emit ?_ | with_reducible refine touch_evictAll ?_ | with_reducible refine touch_imageOf ?_ | with_reducible refine touch_modInst ?_ | with_reducible refine touch_wrCompanion ?_ | dsimp only | split)

theorem touch_execInstImport {m : Fin 16} {image : Image} {s : State} {zt : State} (ht : execInstImport m image s = .next zt) : Touch 4831839384 s zt := by
  unfold execInstImport at ht
  cases ht
  have hk := Touch.refl 4831839384 s
  repeat' (first | with_reducible assumption | intro _ _ hk | with_reducible apply touch_ite | with_reducible refine touch_modInst ?_ | with_reducible refine touch_runCommand ?_ ?_ | dsimp only | split)

theorem touch_putContent {msk : Nat} {z0 : State} {e : Nat} {x : ImgObj} {s : State} (hk : Touch msk z0 s)
    (hw : msk &&& 6442451968 = 6442451968 := by decide) : Touch msk z0 (State.putContent e x s) := by
  refine Touch.use hk hw (fun hk => ?_)
  unfold State.putContent
  repeat' (first | with_reducible assumption | with_reducible refine touch_forEach ?_ ?_ | intro _ _ hk | with_reducible apply touch_ite | with_reducible refine touch_wrCompanionMem ?_ | with_reducible refine touch_wr ?_ | ((fail_if_success (with_reducible refine touch_eta ?_)); with_reducible refine touch_lit10 ?_) | dsimp only | split)

theorem touch_refill {msk : Nat} {z0 : State} {e : Nat} {i : Nat} {s : State} (hk : Touch msk z0 s)
    (hw : msk &&& 512 = 512 := by decide) : Touch msk z0 (State.refill e i s) := by
  refine Touch.use hk hw (fun hk => ?_)
  unfold State.refill
  repeat' (first | with_reducible assumption | intro _ _ hk | with_reducible apply touch_ite | with_reducible refine touch_promote ?_ | dsimp only | split)

theorem touch_fillImport {msk : Nat} {z0 : State} {i : Nat} {e : Nat} {x : ImgObj} {s : State} (hk : Touch msk z0 s)
    (hw : msk &&& 6442452480 = 6442452480 := by decide) : Touch msk z0 (State.fillImport i e x s) := by
  refine Touch.use hk hw (fun hk => ?_)
  unfold State.fillImport
  repeat' (first | with_reducible assumption | intro _ _ hk | with_reducible apply touch_ite | with_reducible refine touch_modCopy ?_ | with_reducible refine touch_modObj ?_ | with_reducible refine touch_putContent ?_ | with_reducible refine touch_recordSums ?_ | with_reducible refine touch_refill ?_ | dsimp only | split)

theorem touch_importObj {msk : Nat} {z0 zt : State} {e i : Nat} {x : ImgObj} {s : State} (hk : Touch msk z0 s)
    (ht : State.importObj i x s = .ok (e, zt)) (hw : msk &&& 6442452480 = 6442452480 := by decide) : Touch msk z0 zt := by
  refine Touch.use hk hw (fun hk => ?_)
  have h1 := touch_fillImport (i := i) (e := (State.createObj (imgCreate i x) s).1) (x := x) (touch_createObj (c := imgCreate i x) hk)
  have h2 := fun e => touch_joinObj (e := e) (inst := i) hk
  unfold State.importObj at ht
  dsimp only at ht
  revert h1 ht
  generalize State.importStop i _ s = st
  generalize State.joinOf s _ = jn
  generalize State.fillImport _ _ _ _ = n
  generalize (!objCreateArgs _ || !State.sourceOk s _) = ok
  intro ht h1
  cases ok
  rotate_left
  · cases ht
  · cases jn with
    | some j =>
      simp only [Bool.false_eq_true, ↓reduceIte, Except.ok.injEq, Prod.mk.injEq] at ht
      obtain ⟨-, rfl⟩ := ht
      exact h2 j
    | none =>
      cases st with
      | some st => cases ht
      | none =>
        simp only [Bool.false_eq_true, ↓reduceIte, Except.ok.injEq, Prod.mk.injEq] at ht
        obtain ⟨-, rfl⟩ := ht
        exact h1

theorem touch_importNext {z0 : State} (i : Nat) (x : ImgObj) {q : Except Status (List (Nat × Nat) × State)}
    (hq : ∀ p, q = .ok p → Touch 6442452480 z0 p.2) : ∀ p, State.importNext i q x = .ok p → Touch 6442452480 z0 p.2 := by
  intro p hp
  unfold State.importNext at hp
  cases q with
  | error st => cases hp
  | ok r =>
    have h1 := fun e t (h : State.importObj i x r.2 = .ok (e, t)) => touch_importObj (hq r rfl) h
    simp only at hp
    revert h1 hp
    generalize State.importObj i x r.2 = q
    intro hp h1
    cases q with
    | error st => cases hp
    | ok y =>
      simp only [Except.ok.injEq] at hp
      subst hp
      exact h1 y.1 y.2 rfl

theorem touch_importObjs {msk : Nat} {z0 zt : State} {l : List (Nat × Nat)} {i : Nat} {xs : List ImgObj} {s : State}
    (hk : Touch msk z0 s) (ht : State.importObjs i xs s = .ok (l, zt)) (hw : msk &&& 6442452480 = 6442452480 := by decide) :
    Touch msk z0 zt := by
  refine Touch.use hk hw (fun hk => ?_)
  unfold State.importObjs at ht
  have key : ∀ (ys : List ImgObj) (q : Except Status (List (Nat × Nat) × State)), (∀ p, q = .ok p → Touch 6442452480 s p.2) →
      ∀ p, ys.foldl (State.importNext i) q = .ok p → Touch 6442452480 s p.2 := by
    intro ys
    induction ys with
    | nil => exact fun q h => h
    | cons x ys ih => exact fun q h => ih _ (touch_importNext i x h)
  exact key xs _ (fun p hp => by cases hp; exact hk) _ ht

theorem touch_putShare {msk : Nat} {z0 : State} {f : Nat} {base : Nat} {l : List (Nat × Byte)} {s : State} (hk : Touch msk z0 s)
    (hw : msk &&& 6442451968 = 6442451968 := by decide) : Touch msk z0 (State.putShare f base l s) := by
  refine Touch.use hk hw (fun hk => ?_)
  unfold State.putShare
  repeat' (first | with_reducible assumption | with_reducible refine touch_forEach ?_ ?_ | intro _ _ hk | with_reducible apply touch_ite | with_reducible refine touch_wrCompanionMem ?_ | with_reducible refine touch_wr ?_ | dsimp only | split)

theorem touch_importCtx {msk : Nat} {z0 zt : State} {i : Nat} {tr : List (Nat × Nat)} {x : ImgCtx} {s : State}
    (hk : Touch msk z0 s) (ht : State.importCtx i tr x s = .ok zt) (hw : msk &&& 6442454016 = 6442454016 := by decide) :
    Touch msk z0 zt := by
  refine Touch.use hk hw (fun hk => ?_)
  unfold State.importCtx at ht
  dsimp only at ht
  split at ht
  · cases ht
  · split at ht
    · cases ht
    · split at ht
      · cases ht
      · cases ht
        refine touch_forEach (fun p s hk => ?_) hk
        exact touch_modFold (touch_putShare (touch_zeroMem (touch_modFold hk)))

theorem touch_importTask {msk : Nat} {z0 : State} {i : Nat} {tr : List (Nat × Nat)} {x : ImgTask} {s : State} (hk : Touch msk z0 s)
    (hw : msk &&& 6144 = 6144 := by decide) : Touch msk z0 (State.importTask i tr x s) := by
  refine Touch.use hk hw (fun hk => ?_)
  unfold State.importTask
  repeat' (first | with_reducible assumption | with_reducible refine touch_forEach ?_ ?_ | intro _ _ hk | with_reducible apply touch_ite | with_reducible refine touch_modDisp ?_ | with_reducible refine touch_modFold ?_ | with_reducible refine touch_setTask ?_ | dsimp only | split)

theorem touch_importRegion {msk : Nat} {z0 : State} {i : Nat} {oldFirst : Nat} {tr : List (Nat × Nat)} {b : Bytes} {s : State} (hk : Touch msk z0 s)
    (hw : msk &&& 2097152 = 2097152 := by decide) : Touch msk z0 (State.importRegion i oldFirst tr b s) := by
  refine Touch.use hk hw (fun hk => ?_)
  unfold State.importRegion
  repeat' (first | with_reducible assumption | intro _ _ hk | with_reducible apply touch_ite | with_reducible refine touch_modRegion ?_ | dsimp only | split)

theorem touch_importCtxs {msk : Nat} {z0 zt : State} {i : Nat} {tr : List (Nat × Nat)} {xs : List ImgCtx} {s : State}
    (hk : Touch msk z0 s) (ht : State.importCtxs i tr xs s = .ok zt) (hw : msk &&& 6442454016 = 6442454016 := by decide) :
    Touch msk z0 zt := by
  induction xs generalizing s with
  | nil => cases ht; exact hk
  | cons x xs ih =>
    simp only [State.importCtxs] at ht
    split at ht
    · cases ht
    · exact ih (touch_importCtx hk ‹_› hw) ht

theorem touch_importAll {msk : Nat} {z0 zt : State} {l : List (Nat × Nat)} {i : Nat} {img : Image} {s : State}
    (hk : Touch msk z0 s) (ht : State.importAll i img s = .ok (l, zt)) (hw : msk &&& 6444818048 = 6444818048 := by decide) :
    Touch msk z0 zt := by
  refine Touch.use hk hw (fun hk => ?_)
  unfold State.importAll at ht
  dsimp only at ht
  split at ht
  · cases ht
  · have h0 := touch_makeInst (i := i) (g := (s.inst i).grant) (gen := img.generation) (st := .frozen) hk
    split at ht
    · cases ht
    · rename_i h1
      have h2 := touch_importObjs (by
        split
        · exact touch_putContent h0
        · exact h0) h1
      split at ht
      · cases ht
      · cases ht
        exact touch_forEach (fun b s hk => touch_importRegion hk)
          (touch_forEach (fun x s hk => touch_importTask hk) (touch_importCtxs h2 ‹_›))

theorem touch_execInstImportDone {inst : Fin 256} {ok : Bool} {s zt : State} (ht : execInstImportDone inst ok s = .next zt) :
    Touch 6981697176 s zt := by
  have hk := Touch.refl 6981697176 s
  unfold execInstImportDone at ht
  cases ht
  dsimp only
  split
  · split
    · exact touch_commandDone (touch_freeGrants hk)
    · rename_i h1
      split at h1
      · exact touch_commandDone (touch_wrCompanion (touch_importAll hk h1))
      · cases h1
  · exact hk

end Sys2Proof.Machine
end

