-- ==== Sys2Proof/Laws/TouchUnitOps.lean ====
section
/-! SUPPORT. Which parts of the state the operations of Sys2Proof/Machine/UnitOps.lean may change. -/

namespace Sys2Proof.Machine

set_option linter.all false
set_option Elab.async false

theorem touch_fhPortChanged {msk : Nat} {z0 : State} {p : Nat} {s : State} (hk : Touch msk z0 s)
    (hw : msk &&& 262144 = 262144 := by decide) : Touch msk z0 (State.fhPortChanged p s) := by
  refine Touch.use hk hw (fun hk => ?_)
  unfold State.fhPortChanged
  repeat' (first | with_reducible assumption | with_reducible refine touch_forEach ?_ ?_ | intro _ _ hk | with_reducible apply touch_ite | with_reducible refine touch_modLane ?_ | dsimp only | split)

theorem touch_engineChanged {msk : Nat} {z0 : State} {e : Nat} {s : State} (hk : Touch msk z0 s)
    (hw : msk &&& 6979339264 = 6979339264 := by decide) : Touch msk z0 (State.engineChanged e s) := by
  refine Touch.use hk hw (fun hk => ?_)
  unfold State.engineChanged
  repeat' (first | with_reducible assumption | with_reducible refine touch_forEach ?_ ?_ | intro _ _ hk | with_reducible apply touch_ite | with_reducible refine touch_modEngine ?_ | with_reducible refine touch_queueJob ?_ | with_reducible refine touch_releaseHeld ?_ | dsimp only | split)

theorem touch_afterUnit {msk : Nat} {z0 : State} {u : UnitId} {before : Bool} {s : State} (hk : Touch msk z0 s)
    (hw : msk &&& 8062787092 = 8062787092 := by decide) : Touch msk z0 (State.afterUnit u before s) := by
  refine Touch.use hk hw (fun hk => ?_)
  unfold State.afterUnit
  repeat' (first | with_reducible assumption | with_reducible refine touch_forEach ?_ ?_ | intro _ _ hk | with_reducible apply touch_ite | with_reducible refine touch_engineChanged ?_ | with_reducible refine touch_fhPortChanged ?_ | with_reducible refine touch_loseStack ?_ | with_reducible refine touch_portUnitChanged ?_ | with_reducible refine touch_radioOn ?_ | dsimp only | split)

theorem touch_changeUnit {msk : Nat} {z0 : State} {u : UnitId} {new : UState} {s : State} (hk : Touch msk z0 s)
    (hw : msk &&& 8062787092 = 8062787092 := by decide) : Touch msk z0 (State.changeUnit u new s) := by
  refine Touch.use hk hw (fun hk => ?_)
  unfold State.changeUnit
  repeat' (first | with_reducible assumption | intro _ _ hk | with_reducible apply touch_ite | with_reducible refine touch_afterUnit ?_ | with_reducible refine touch_setUnit ?_ | dsimp only | split)

theorem touch_modFoldHealth {msk : Nat} {z0 : State} {f : Nat} {g : FoldHealth → FoldHealth} {s : State} (hk : Touch msk z0 s)
    (hw : msk &&& 8388608 = 8388608 := by decide) : Touch msk z0 (State.modFoldHealth f g s) := by
  refine Touch.use hk hw (fun hk => ?_)
  unfold State.modFoldHealth
  repeat' (first | with_reducible assumption | intro _ _ hk | with_reducible apply touch_ite | with_reducible refine touch_modHealth ?_ | dsimp only | split)

theorem touch_applyFences {msk : Nat} {z0 : State} {u : UnitId} {s : State} (hk : Touch msk z0 s)
    (hw : msk &&& 8062787092 = 8062787092 := by decide) : Touch msk z0 (State.applyFences u s) := by
  refine Touch.use hk hw (fun hk => ?_)
  unfold State.applyFences
  repeat' (first | with_reducible assumption | intro _ _ hk | with_reducible apply touch_ite | with_reducible refine touch_changeUnit ?_ | dsimp only | split)

theorem touch_fenceUnit {msk : Nat} {z0 : State} {u : UnitId} {m : FenceMode} {s : State} (hk : Touch msk z0 s)
    (hw : msk &&& 8079564308 = 8079564308 := by decide) : Touch msk z0 (State.fenceUnit u m s) := by
  refine Touch.use hk hw (fun hk => ?_)
  unfold State.fenceUnit
  repeat' (first | with_reducible assumption | intro _ _ hk | with_reducible apply touch_ite | with_reducible refine touch_applyFences ?_ | with_reducible refine touch_ledger ?_ | with_reducible refine touch_setFences ?_ | dsimp only | split)

theorem touch_liftFences {msk : Nat} {z0 : State} {u : UnitId} {gone : FenceMode → Bool} {s : State} (hk : Touch msk z0 s)
    (hw : msk &&& 8079564308 = 8079564308 := by decide) : Touch msk z0 (State.liftFences u gone s) := by
  refine Touch.use hk hw (fun hk => ?_)
  unfold State.liftFences
  repeat' (first | with_reducible assumption | intro _ _ hk | with_reducible apply touch_ite | with_reducible refine touch_applyFences ?_ | with_reducible refine touch_ledger ?_ | with_reducible refine touch_modFoldHealth ?_ | with_reducible refine touch_setFences ?_ | ((fail_if_success (with_reducible refine touch_eta ?_)); with_reducible refine touch_lit23 ?_) | dsimp only | split)

theorem touch_endContexts {msk : Nat} {z0 : State} {f : Nat} {s : State} (hk : Touch msk z0 s)
    (hw : msk &&& 8195833488 = 8195833488 := by decide) : Touch msk z0 (State.endContexts f s) := by
  refine Touch.use hk hw (fun hk => ?_)
  unfold State.endContexts
  repeat' (first | with_reducible assumption | with_reducible refine touch_forEach ?_ ?_ | intro _ _ hk | with_reducible apply touch_ite | with_reducible refine touch_failTask ?_ | with_reducible refine touch_leaveNow ?_ | dsimp only | split)

theorem touch_dmaStale {msk : Nat} {z0 : State} {e : Nat} {chans : List Nat} {s : State} (hk : Touch msk z0 s)
    (hw : msk &&& 6442599424 = 6442599424 := by decide) : Touch msk z0 (State.dmaStale e chans s) := by
  refine Touch.use hk hw (fun hk => ?_)
  unfold State.dmaStale
  repeat' (first | with_reducible assumption | with_reducible refine touch_forEach ?_ ?_ | intro _ _ hk | with_reducible apply touch_ite | with_reducible refine touch_dmaFlush ?_ | with_reducible refine touch_modChan ?_ | dsimp only | split)

theorem touch_stopRuns {msk : Nat} {z0 : State} {hit : Loc → Bool} {s : State} (hk : Touch msk z0 s)
    (hw : msk &&& 131072 = 131072 := by decide) : Touch msk z0 (State.stopRuns hit s) := by
  refine Touch.use hk hw (fun hk => ?_)
  unfold State.stopRuns
  repeat' (first | with_reducible assumption | with_reducible refine touch_forEach ?_ ?_ | intro _ _ hk | with_reducible apply touch_ite | with_reducible refine touch_modDma ?_ | dsimp only | split)

theorem touch_endStreams {msk : Nat} {z0 : State} {l : List Nat} {s : State} (hk : Touch msk z0 s)
    (hw : msk &&& 2048 = 2048 := by decide) : Touch msk z0 (State.endStreams l s) := by
  refine Touch.use hk hw (fun hk => ?_)
  unfold State.endStreams
  repeat' (first | with_reducible assumption | with_reducible refine touch_forEach ?_ ?_ | intro _ _ hk | with_reducible apply touch_ite | with_reducible refine touch_endTile ?_ | dsimp only | split)

theorem touch_wipeSpace {msk : Nat} {z0 : State} {sp : Space} {s : State} (hk : Touch msk z0 s)
    (hw : msk &&& 8061586960 = 8061586960 := by decide) : Touch msk z0 (State.wipeSpace sp s) := by
  refine Touch.use hk hw (fun hk => ?_)
  unfold State.wipeSpace
  repeat' (first | with_reducible assumption | intro _ _ hk | with_reducible apply touch_ite | with_reducible refine touch_endStreams ?_ | with_reducible refine touch_loseSpace ?_ | with_reducible refine touch_stopRuns ?_ | with_reducible refine touch_zeroMem ?_ | dsimp only | split)

theorem touch_dropT2Lines {msk : Nat} {z0 : State} {d : Nat} {s : State} (hk : Touch msk z0 s)
    (hw : msk &&& 5502926848 = 5502926848 := by decide) : Touch msk z0 (State.dropT2Lines d s) := by
  refine Touch.use hk hw (fun hk => ?_)
  unfold State.dropT2Lines
  repeat' (first | with_reducible assumption | (rename_i hq; have hz := congrArg Prod.snd hq; dsimp only at hz; subst hz; try clear hq) | (have hz := congrArg Prod.snd ‹_ = (_, _)›; dsimp only at hz; subst hz) | with_reducible refine touch_forEach ?_ ?_ | intro _ _ hk | with_reducible apply touch_ite | with_reducible refine touch_modPower ?_ | with_reducible refine touch_takeFree ?_ | dsimp only | split)

theorem touch_wipeFold {msk : Nat} {z0 : State} {f : Nat} {s : State} (hk : Touch msk z0 s)
    (hw : msk &&& 8195833500 = 8195833500 := by decide) : Touch msk z0 (State.wipeFold f s) := by
  refine Touch.use hk hw (fun hk => ?_)
  unfold State.wipeFold
  repeat' (first | with_reducible assumption | with_reducible refine touch_forEach ?_ ?_ | intro _ _ hk | with_reducible apply touch_ite | with_reducible refine touch_dmaStale ?_ | with_reducible refine touch_endContexts ?_ | with_reducible refine touch_loseTask ?_ | with_reducible refine touch_modDisp ?_ | with_reducible refine touch_modFold ?_ | with_reducible refine touch_moveRadio ?_ | with_reducible refine touch_settleHold ?_ | with_reducible refine touch_wipeSpace ?_ | dsimp only | split)

theorem touch_wipeEngine {msk : Nat} {z0 : State} {e : Nat} {s : State} (hk : Touch msk z0 s)
    (hw : msk &&& 6979339264 = 6979339264 := by decide) : Touch msk z0 (State.wipeEngine e s) := by
  refine Touch.use hk hw (fun hk => ?_)
  unfold State.wipeEngine
  repeat' (first | with_reducible assumption | with_reducible refine touch_forEach ?_ ?_ | intro _ _ hk | with_reducible apply touch_ite | with_reducible refine touch_engineDone ?_ | with_reducible refine touch_modEngine ?_ | with_reducible refine touch_putStatus ?_ | dsimp only | split)

theorem touch_wipeRadio {msk : Nat} {z0 : State} {a : Nat} {n : Nat} {s : State} (hk : Touch msk z0 s)
    (hw : msk &&& 2147615744 = 2147615744 := by decide) : Touch msk z0 (State.wipeRadio a n s) := by
  refine Touch.use hk hw (fun hk => ?_)
  unfold State.wipeRadio
  repeat' (first | with_reducible assumption | intro _ _ hk | with_reducible apply touch_ite | with_reducible refine touch_stopRuns ?_ | with_reducible refine touch_zeroMem ?_ | dsimp only | split)

theorem touch_wipeCore {msk : Nat} {z0 : State} {c : Nat} {s : State} (hk : Touch msk z0 s)
    (hw : msk &&& 2147632128 = 2147632128 := by decide) : Touch msk z0 (State.wipeCore c s) := by
  refine Touch.use hk hw (fun hk => ?_)
  unfold State.wipeCore
  repeat' (first | with_reducible assumption | intro _ _ hk | with_reducible apply touch_ite | with_reducible refine touch_modCrossing ?_ | with_reducible refine touch_modSigCore ?_ | with_reducible refine touch_wipeRadio ?_ | dsimp only | split)

theorem touch_wipeUnit {msk : Nat} {z0 : State} {u : UnitId} {s : State} (hk : Touch msk z0 s)
    (hw : msk &&& 8197144222 = 8197144222 := by decide) : Touch msk z0 (State.wipeUnit u s) := by
  refine Touch.use hk hw (fun hk => ?_)
  unfold State.wipeUnit
  repeat' (first | with_reducible assumption | with_reducible refine touch_forEach ?_ ?_ | intro _ _ hk | with_reducible apply touch_ite | with_reducible refine touch_dmaStale ?_ | with_reducible refine touch_dropT2Lines ?_ | with_reducible refine touch_leaveUp ?_ | with_reducible refine touch_loseStack ?_ | with_reducible refine touch_modCore ?_ | with_reducible refine touch_modDisp ?_ | with_reducible refine touch_modDma ?_ | with_reducible refine touch_modFhPort ?_ | with_reducible refine touch_modLane ?_ | with_reducible refine touch_modLink ?_ | with_reducible refine touch_modMover ?_ | with_reducible refine touch_modStackCtl ?_ | with_reducible refine touch_wipeCore ?_ | with_reducible refine touch_wipeEngine ?_ | with_reducible refine touch_wipeFold ?_ | with_reducible refine touch_wipeRadio ?_ | with_reducible refine touch_wipeSpace ?_ | dsimp only | split)

theorem touch_wakeRetained {msk : Nat} {z0 : State} {u : UnitId} {s : State} (hk : Touch msk z0 s)
    (hw : msk &&& 4840246804 = 4840246804 := by decide) : Touch msk z0 (State.wakeRetained u s) := by
  refine Touch.use hk hw (fun hk => ?_)
  unfold State.wakeRetained
  repeat' (first | with_reducible assumption | intro _ _ hk | with_reducible apply touch_ite | with_reducible refine touch_modFold ?_ | with_reducible refine touch_modMover ?_ | with_reducible refine touch_modSigCore ?_ | with_reducible refine touch_setEntry ?_ | with_reducible refine touch_wake ?_ | dsimp only | split)

theorem touch_startUnit {msk : Nat} {z0 : State} {u : UnitId} {s : State} (hk : Touch msk z0 s)
    (hw : msk &&& 8285224606 = 8285224606 := by decide) : Touch msk z0 (State.startUnit u s) := by
  refine Touch.use hk hw (fun hk => ?_)
  unfold State.startUnit
  repeat' (first | with_reducible assumption | intro _ _ hk | with_reducible apply touch_ite | with_reducible refine touch_initialise ?_ | with_reducible refine touch_wakeRetained ?_ | with_reducible refine touch_wipeUnit ?_ | dsimp only | split)

theorem touch_retryWaiting {msk : Nat} {z0 : State} {s : State} (hk : Touch msk z0 s)
    (hw : msk &&& 8285224606 = 8285224606 := by decide) : Touch msk z0 (State.retryWaiting s) := by
  refine Touch.use hk hw (fun hk => ?_)
  unfold State.retryWaiting
  repeat' (first | with_reducible assumption | with_reducible refine touch_forEach ?_ ?_ | intro _ _ hk | with_reducible apply touch_ite | with_reducible refine touch_startUnit ?_ | dsimp only | split)

theorem touch_resetUnit {msk : Nat} {z0 : State} {u : UnitId} {s : State} (hk : Touch msk z0 s)
    (hw : msk &&& 8285224606 = 8285224606 := by decide) : Touch msk z0 (State.resetUnit u s) := by
  refine Touch.use hk hw (fun hk => ?_)
  unfold State.resetUnit
  repeat' (first | with_reducible assumption | with_reducible refine touch_forEach ?_ ?_ | intro _ _ hk | with_reducible apply touch_ite | with_reducible refine touch_startUnit ?_ | dsimp only | split)

theorem touch_wakeAll {msk : Nat} {z0 : State} {s : State} (hk : Touch msk z0 s)
    (hw : msk &&& 8285224606 = 8285224606 := by decide) : Touch msk z0 (State.wakeAll s) := by
  refine Touch.use hk hw (fun hk => ?_)
  unfold State.wakeAll
  repeat' (first | with_reducible assumption | with_reducible refine touch_forEach ?_ ?_ | intro _ _ hk | with_reducible apply touch_ite | with_reducible refine touch_modPower ?_ | with_reducible refine touch_startUnit ?_ | dsimp only | split)

end Sys2Proof.Machine
end

