-- ==== Sys2Proof/Laws/TouchUnits.lean ====
section
/-! SUPPORT. Which parts of the state the operations of Sys2Proof/Machine/Units.lean may change. -/

namespace Sys2Proof.Machine

set_option linter.all false
set_option Elab.async false

theorem touch_execUnitReset {u : UnitId} {s : State} {zt : State} (ht : execUnitReset u s = .next zt) : Touch 8285224606 s zt := by
  unfold execUnitReset at ht
  cases ht
  have hk := Touch.refl 8285224606 s
  repeat' (first | with_reducible assumption | intro _ _ hk | with_reducible apply touch_ite | with_reducible refine touch_resetUnit ?_ | dsimp only | split)

theorem touch_milestones {msk : Nat} {z0 : State} {u : UnitId} {s : State} (hk : Touch msk z0 s)
    (hw : msk &&& 4429185024 = 4429185024 := by decide) : Touch msk z0 (State.milestones u s) := by
  refine Touch.use hk hw (fun hk => ?_)
  unfold State.milestones
  repeat' (first | with_reducible assumption | intro _ _ hk | with_reducible apply touch_ite | with_reducible refine touch_modPower ?_ | dsimp only | split)

theorem touch_execUnitSelfTestDone {u : UnitId} {r : SelfTest} {s : State} {zt : State} (ht : execUnitSelfTestDone u r s = .next zt) : Touch 8197004820 s zt := by
  unfold execUnitSelfTestDone at ht
  cases ht
  have hk := Touch.refl 8197004820 s
  repeat' (first | with_reducible assumption | intro _ _ hk | with_reducible apply touch_ite | with_reducible refine touch_afterUnit ?_ | with_reducible refine touch_milestones ?_ | with_reducible refine touch_setEntry ?_ | with_reducible refine touch_setUnit ?_ | dsimp only | split)

theorem touch_checkChunk {msk : Nat} {z0 : State} {sp : Space} {a : Nat} {sum : Nat} {s : State} (hk : Touch msk z0 s)
    (hw : msk &&& 8195671568 = 8195671568 := by decide) : Touch msk z0 (State.checkChunk sp a sum s) := by
  refine Touch.use hk hw (fun hk => ?_)
  unfold State.checkChunk
  repeat' (first | with_reducible assumption | with_reducible refine touch_forEach ?_ ?_ | intro _ _ hk | with_reducible apply touch_ite | with_reducible refine touch_loseCopy ?_ | with_reducible refine touch_modPower ?_ | with_reducible refine touch_zeroMem ?_ | dsimp only | split)

theorem touch_execRetentionCheckDone {u : UnitId} {decayed : List (Nat × Byte)} {s : State} {zt : State} (ht : execRetentionCheckDone u decayed s = .next zt) : Touch 8195671572 s zt := by
  unfold execRetentionCheckDone at ht
  cases ht
  have hk := Touch.refl 8195671572 s
  repeat' (first | with_reducible assumption | with_reducible refine touch_forEach ?_ ?_ | intro _ _ hk | with_reducible apply touch_ite | with_reducible refine touch_checkChunk ?_ | with_reducible refine touch_setEntry ?_ | with_reducible refine touch_wrCompanionMem ?_ | with_reducible refine touch_wr ?_ | ((fail_if_success (with_reducible refine touch_eta ?_)); with_reducible refine touch_lit10 ?_) | dsimp only | split)

theorem touch_execNocIntegrityError {s : State} {zt : State} (ht : execNocIntegrityError s = .next zt) : Touch 4974461978 s zt := by
  unfold execNocIntegrityError at ht
  cases ht
  have hk := Touch.refl 4974461978 s
  repeat' (first | with_reducible assumption | intro _ _ hk | with_reducible apply touch_ite | with_reducible refine touch_enterFenced ?_ | dsimp only | split)

theorem touch_execFatalFault {cause : FatalCause} {s : State} {zt : State} (ht : execFatalFault cause s = .next zt) : Touch 8197004830 s zt := by
  unfold execFatalFault at ht
  cases ht
  have hk := Touch.refl 8197004830 s
  repeat' (first | with_reducible assumption | intro _ _ hk | with_reducible apply touch_ite | with_reducible refine touch_changeUnit ?_ | with_reducible refine touch_enterFenced ?_ | dsimp only | split)

theorem touch_execUnitFence {m : Fin 16} {s : State} {zt : State} (ht : execUnitFence m s = .next zt) : Touch 8079564316 s zt := by
  unfold execUnitFence at ht
  cases ht
  have hk := Touch.refl 8079564316 s
  repeat' (first | with_reducible assumption | intro _ _ hk | with_reducible apply touch_ite | with_reducible refine touch_fenceUnit ?_ | with_reducible refine touch_liftFences ?_ | with_reducible refine touch_placeCond ?_ | with_reducible refine touch_runCommand ?_ ?_ | dsimp only | split)

theorem touch_execUnitRetire {m : Fin 16} {s : State} {zt : State} (ht : execUnitRetire m s = .next zt) : Touch 4857005084 s zt := by
  unfold execUnitRetire at ht
  cases ht
  have hk := Touch.refl 4857005084 s
  repeat' (first | with_reducible assumption | intro _ _ hk | with_reducible apply touch_ite | with_reducible refine touch_ledger ?_ | with_reducible refine touch_retire ?_ | with_reducible refine touch_runCommand ?_ ?_ | with_reducible refine touch_setEntry ?_ | ((fail_if_success (with_reducible refine touch_eta ?_)); with_reducible refine touch_lit24 ?_) | dsimp only | split)

theorem touch_execPatrolTick {now : Nat} {u : UnitId} {s : State} {zt : State} (ht : execPatrolTick now u s = .next zt) : Touch 8912896 s zt := by
  unfold execPatrolTick at ht
  cases ht
  have hk := Touch.refl 8912896 s
  repeat' (first | with_reducible assumption | intro _ _ hk | with_reducible apply touch_ite | with_reducible refine touch_at ?_ | with_reducible refine touch_modHealth ?_ | dsimp only | split)

theorem touch_patrolSnapshot {msk : Nat} {z0 : State} {u : UnitId} {s : State} (hk : Touch msk z0 s)
    (hw : msk &&& 1073741824 = 1073741824 := by decide) : Touch msk z0 (State.patrolSnapshot u s).2 := by
  refine Touch.use hk hw (fun hk => ?_)
  unfold State.patrolSnapshot
  repeat' (first | with_reducible assumption | (rename_i hq; have hz := congrArg Prod.snd (congrArg Prod.snd hq); dsimp only at hz; subst hz; try clear hq) | (rename_i hq; have hz := congrArg Prod.snd hq; dsimp only at hz; subst hz; try clear hq) | (have hz := congrArg Prod.snd ‹_ = (_, _)›; dsimp only at hz; subst hz) | (have hz := congrArg Prod.snd (congrArg Prod.snd ‹_ = (_, _, _)›); dsimp only at hz; subst hz) | intro _ _ hk | with_reducible apply touch_ite | with_reducible refine touch_foldSnapshot ?_ | with_reducible refine touch_snapshot ?_ | dsimp only | split)

theorem touch_patrolFailed {msk : Nat} {z0 : State} {u : UnitId} {s : State} (hk : Touch msk z0 s)
    (hw : msk &&& 8079564308 = 8079564308 := by decide) : Touch msk z0 (State.patrolFailed u s) := by
  refine Touch.use hk hw (fun hk => ?_)
  unfold State.patrolFailed
  repeat' (first | with_reducible assumption | (rename_i hq; have hz := congrArg Prod.snd hq; dsimp only at hz; subst hz; try clear hq) | (have hz := congrArg Prod.snd ‹_ = (_, _)›; dsimp only at hz; subst hz) | intro _ _ hk | with_reducible apply touch_ite | with_reducible refine touch_evidence ?_ | with_reducible refine touch_fenceUnit ?_ | with_reducible refine touch_ledgerWith ?_ | with_reducible refine touch_modHealth ?_ | with_reducible refine touch_patrolSnapshot ?_ | dsimp only | split)

theorem touch_execPatrolResult {u : UnitId} {firstOk : Bool} {secondOk : Bool} {s : State} {zt : State} (ht : execPatrolResult u firstOk secondOk s = .next zt) : Touch 8079564308 s zt := by
  unfold execPatrolResult at ht
  cases ht
  have hk := Touch.refl 8079564308 s
  repeat' (first | with_reducible assumption | intro _ _ hk | with_reducible apply touch_ite | with_reducible refine touch_patrolFailed ?_ | dsimp only | split)

theorem touch_execCondFenceSample {now : Nat} {fold : Fin 32} {temp : Int} {activity : Nat} {s : State} {zt : State} (ht : execCondFenceSample now fold temp activity s = .next zt) : Touch 8063311380 s zt := by
  unfold execCondFenceSample at ht
  cases ht
  have hk := Touch.refl 8063311380 s
  repeat' (first | with_reducible assumption | with_reducible refine touch_forEach ?_ ?_ | intro _ _ hk | with_reducible apply touch_ite | with_reducible refine touch_applyFences ?_ | with_reducible refine touch_at ?_ | with_reducible refine touch_modFoldHealth ?_ | dsimp only | split)

end Sys2Proof.Machine
end

