-- ==== Sys2Proof/Laws/TouchHealth.lean ====
section
/-! SUPPORT. Which parts of the state the operations of Sys2Proof/Machine/Health.lean may change. -/

namespace Sys2Proof.Machine

set_option linter.all false
set_option Elab.async false

theorem touch_setScope {msk : Nat} {z0 : State} {k : Option Nat} {x : Scope} {s : State} (hk : Touch msk z0 s)
    (hw : msk &&& 8388608 = 8388608 := by decide) : Touch msk z0 (State.setScope k x s) := by
  refine Touch.use hk hw (fun hk => ?_)
  unfold State.setScope
  repeat' (first | with_reducible assumption | intro _ _ hk | with_reducible apply touch_ite | with_reducible refine touch_modHealth ?_ | dsimp only | split)

theorem touch_gradeScope {msk : Nat} {z0 : State} {k : Option Nat} {score : Nat} {s : State} (hk : Touch msk z0 s)
    (hw : msk &&& 4840227856 = 4840227856 := by decide) : Touch msk z0 (State.gradeScope k score s) := by
  refine Touch.use hk hw (fun hk => ?_)
  unfold State.gradeScope
  repeat' (first | with_reducible assumption | intro _ _ hk | with_reducible apply touch_ite | with_reducible refine touch_ledger ?_ | with_reducible refine touch_modHealth ?_ | with_reducible refine touch_raise ?_ | with_reducible refine touch_setScope ?_ | dsimp only | split)

theorem touch_addDroops {msk : Nat} {z0 : State} {n : Nat} {s : State} (hk : Touch msk z0 s)
    (hw : msk &&& 8388608 = 8388608 := by decide) : Touch msk z0 (State.addDroops n s) := by
  refine Touch.use hk hw (fun hk => ?_)
  unfold State.addDroops
  repeat' (first | with_reducible assumption | with_reducible refine touch_forEach ?_ ?_ | intro _ _ hk | with_reducible apply touch_ite | with_reducible refine touch_evidence ?_ | with_reducible refine touch_modHealth ?_ | dsimp only | split)

theorem touch_monitors {msk : Nat} {z0 : State} {canary : List (Fin 32)} {ageing : List (Fin 32)} {droops : Nat} {s : State} (hk : Touch msk z0 s)
    (hw : msk &&& 8388608 = 8388608 := by decide) : Touch msk z0 (State.monitors canary ageing droops s) := by
  refine Touch.use hk hw (fun hk => ?_)
  unfold State.monitors
  repeat' (first | with_reducible assumption | with_reducible refine touch_forEach ?_ ?_ | intro _ _ hk | with_reducible apply touch_ite | with_reducible refine touch_addDroops ?_ | with_reducible refine touch_evidence ?_ | dsimp only | split)

theorem touch_execHealthEvaluation {found : MonitorReadings} {s : State} {zt : State} (ht : execHealthEvaluation found s = .next zt) : Touch 4840752144 s zt := by
  unfold execHealthEvaluation at ht
  cases ht
  have hk := Touch.refl 4840752144 s
  repeat' (first | with_reducible assumption | with_reducible refine touch_forEach ?_ ?_ | intro _ _ hk | with_reducible apply touch_ite | with_reducible refine touch_at ?_ | with_reducible refine touch_gradeScope ?_ | with_reducible refine touch_modHealth ?_ | with_reducible refine touch_monitors ?_ | dsimp only | split)

theorem touch_execWatchSet {m : Fin 16} {s : State} {zt : State} (ht : execWatchSet m s = .next zt) : Touch 4831839258 s zt := by
  unfold execWatchSet at ht
  cases ht
  have hk := Touch.refl 4831839258 s
  repeat' (first | with_reducible assumption | intro _ _ hk | with_reducible apply touch_ite | with_reducible refine touch_runCommand ?_ ?_ | with_reducible refine touch_setDevice ?_ | dsimp only | split)

theorem touch_execRetest {m : Fin 16} {s : State} {zt : State} (ht : execRetest m s = .next zt) : Touch 8285224606 s zt := by
  unfold execRetest at ht
  cases ht
  have hk := Touch.refl 8285224606 s
  repeat' (first | with_reducible assumption | intro _ _ hk | with_reducible apply touch_ite | with_reducible refine touch_modHealth ?_ | with_reducible refine touch_runCommand ?_ ?_ | with_reducible refine touch_wakeAll ?_ | dsimp only | split)

theorem touch_liftPatrol {msk : Nat} {z0 : State} {failed : List UnitId} {s : State} (hk : Touch msk z0 s)
    (hw : msk &&& 8079564308 = 8079564308 := by decide) : Touch msk z0 (State.liftPatrol failed s) := by
  refine Touch.use hk hw (fun hk => ?_)
  unfold State.liftPatrol
  repeat' (first | with_reducible assumption | with_reducible refine touch_forEach ?_ ?_ | intro _ _ hk | with_reducible apply touch_ite | with_reducible refine touch_liftFences ?_ | dsimp only | split)

theorem touch_execRetestDone {now : Nat} {failed : List UnitId} {heavyEvidence : Bool} {unitsTested : Nat} {tempMin : Int} {tempMax : Int} {supplyMin : Nat} {s : State} {zt : State} (ht : execRetestDone now failed heavyEvidence unitsTested tempMin tempMax supplyMin s = .next zt) : Touch 8151391772 s zt := by
  unfold execRetestDone at ht
  cases ht
  have hk := Touch.refl 8151391772 s
  repeat' (first | with_reducible assumption | (rename_i hq; have hz := congrArg Prod.snd hq; dsimp only at hz; subst hz; try clear hq) | (have hz := congrArg Prod.snd ‹_ = (_, _)›; dsimp only at hz; subst hz) | with_reducible refine touch_forEach ?_ ?_ | intro _ _ hk | with_reducible apply touch_ite | with_reducible refine touch_at ?_ | with_reducible refine touch_commandDone ?_ | with_reducible refine touch_enqueue ?_ | with_reducible refine touch_ledgerWith ?_ | with_reducible refine touch_liftPatrol ?_ | with_reducible refine touch_modHealth ?_ | with_reducible refine touch_patrolFailed ?_ | with_reducible refine touch_patrolSnapshot ?_ | dsimp only | split)

theorem touch_execMarginSweep {m : Fin 16} {s : State} {zt : State} (ht : execMarginSweep m s = .next zt) : Touch 4840227864 s zt := by
  unfold execMarginSweep at ht
  cases ht
  have hk := Touch.refl 4840227864 s
  repeat' (first | with_reducible assumption | intro _ _ hk | with_reducible apply touch_ite | with_reducible refine touch_modHealth ?_ | with_reducible refine touch_runCommand ?_ ?_ | dsimp only | split)

theorem touch_execMarginSweepDone {fold : Fin 32} {lowest : List (Fin 4 × Int × Int)} {failed0 : List (Fin 4)} {skipped : List (Fin 4)} {s : State} {zt : State} (ht : execMarginSweepDone fold lowest failed0 skipped s = .next zt) : Touch 4840227864 s zt := by
  unfold execMarginSweepDone at ht
  cases ht
  have hk := Touch.refl 4840227864 s
  repeat' (first | with_reducible assumption | intro _ _ hk | with_reducible apply touch_ite | with_reducible refine touch_commandDone ?_ | with_reducible refine touch_ledger ?_ | with_reducible refine touch_modHealth ?_ | dsimp only | split)

theorem touch_execDevFence {m : Fin 16} {s : State} {zt : State} (ht : execDevFence m s = .next zt) : Touch 4974461978 s zt := by
  unfold execDevFence at ht
  cases ht
  have hk := Touch.refl 4974461978 s
  repeat' (first | with_reducible assumption | intro _ _ hk | with_reducible apply touch_ite | with_reducible refine touch_enterFenced ?_ | with_reducible refine touch_runCommand ?_ ?_ | dsimp only | split)

theorem touch_execStandbyEnter {m : Fin 16} {s : State} {zt : State} (ht : execStandbyEnter m s = .next zt) : Touch 4840227866 s zt := by
  unfold execStandbyEnter at ht
  cases ht
  have hk := Touch.refl 4840227866 s
  repeat' (first | with_reducible assumption | intro _ _ hk | with_reducible apply touch_ite | with_reducible refine touch_modHealth ?_ | with_reducible refine touch_runCommand ?_ ?_ | with_reducible refine touch_setDevice ?_ | dsimp only | split)

theorem touch_assumeAll {msk : Nat} {z0 d : State} {planned : Bool} {l : List AssumeEntry} {s : State} (hd : Touch msk z0 d)
    (hk : Touch msk z0 s) (hw : msk &&& 3221505536 = 3221505536 := by decide) : Touch msk z0 ((State.assumeAll planned l s).getD d) := by
  induction l generalizing s with
  | nil => exact hk
  | cons e r ih =>
    simp only [State.assumeAll]
    split
    · exact hd
    · exact ih (Touch.use hk hw fun hk => touch_modCell (touch_admitCell (touch_takeFree hk)))

theorem touch_execAssume {m : Fin 16} {s : State} {zt : State} (ht : execAssume m s = .next zt) : Touch 8061732376 s zt := by
  unfold execAssume at ht
  cases ht
  have hk := Touch.refl 8061732376 s
  repeat' (first | with_reducible assumption | intro _ _ hk | with_reducible apply touch_ite | with_reducible refine touch_ledger ?_ | with_reducible refine touch_modHealth ?_ | with_reducible refine touch_runCommand ?_ ?_ | with_reducible refine touch_sendRefresh ?_ | refine touch_assumeAll ?_ (by assumption) | with_reducible refine touch_assumeAll ?_ ?_ | dsimp only | split)

theorem touch_execAssumeDone {now : Nat} {s : State} {zt : State} (ht : execAssumeDone now s = .next zt) : Touch 4840752154 s zt := by
  unfold execAssumeDone at ht
  cases ht
  have hk := Touch.refl 4840752154 s
  repeat' (first | with_reducible assumption | intro _ _ hk | with_reducible apply touch_ite | with_reducible refine touch_at ?_ | with_reducible refine touch_commandDone ?_ | with_reducible refine touch_modHealth ?_ | with_reducible refine touch_setDevice ?_ | dsimp only | split)

end Sys2Proof.Machine
end

