-- ==== Sys2Proof/Laws/TouchLedger.lean ====
section
/-! SUPPORT. Which parts of the state the operations of Sys2Proof/Machine/Ledger.lean may change. -/

namespace Sys2Proof.Machine

set_option linter.all false
set_option Elab.async false

theorem touch_execLedgerBatchWrite {now : Nat} {s : State} {zt : State} (ht : execLedgerBatchWrite now s = .next zt) : Touch 8285748894 s zt := by
  unfold execLedgerBatchWrite at ht
  cases ht
  have hk := Touch.refl 8285748894 s
  repeat' (first | with_reducible assumption | intro _ _ hk | with_reducible apply touch_ite | with_reducible refine touch_at ?_ | with_reducible refine touch_closeBatch ?_ | with_reducible refine touch_retryWaiting ?_ | dsimp only | split)

theorem touch_execProgressRead {m : Fin 16} {s : State} {zt : State} (ht : execProgressRead m s = .next zt) : Touch 4831839256 s zt := by
  unfold execProgressRead at ht
  cases ht
  have hk := Touch.refl 4831839256 s
  repeat' (first | with_reducible assumption | intro _ _ hk | with_reducible apply touch_ite | with_reducible refine touch_runCommand ?_ ?_ | dsimp only | split)

theorem touch_hbmHist {msk : Nat} {z0 : State} {k : Nat} {s : State} (hk : Touch msk z0 s)
    (hw : msk &&& 8388608 = 8388608 := by decide) : Touch msk z0 (State.hbmHist k s) := by
  refine Touch.use hk hw (fun hk => ?_)
  unfold State.hbmHist
  repeat' (first | with_reducible assumption | intro _ _ hk | with_reducible apply touch_ite | with_reducible refine touch_ledger ?_ | dsimp only | split)

theorem touch_thermalHist {msk : Nat} {z0 : State} {d : Nat} {s : State} (hk : Touch msk z0 s)
    (hw : msk &&& 8388608 = 8388608 := by decide) : Touch msk z0 (State.thermalHist d s) := by
  refine Touch.use hk hw (fun hk => ?_)
  unfold State.thermalHist
  repeat' (first | with_reducible assumption | intro _ _ hk | with_reducible apply touch_ite | with_reducible refine touch_ledger ?_ | dsimp only | split)

theorem touch_execLedgerPeriodicRecord {now : Nat} {daily : Bool} {s : State} {zt : State} (ht : execLedgerPeriodicRecord now daily s = .next zt) : Touch 277348352 s zt := by
  unfold execLedgerPeriodicRecord at ht
  cases ht
  have hk := Touch.refl 277348352 s
  repeat' (first | with_reducible assumption | with_reducible refine touch_forEach ?_ ?_ | intro _ _ hk | with_reducible apply touch_ite | with_reducible refine touch_at ?_ | with_reducible refine touch_hbmHist ?_ | with_reducible refine touch_ledger ?_ | with_reducible refine touch_modPkg ?_ | with_reducible refine touch_thermalHist ?_ | dsimp only | split)

theorem touch_execLedgerRead {m : Fin 16} {s : State} {zt : State} (ht : execLedgerRead m s = .next zt) : Touch 4840227864 s zt := by
  unfold execLedgerRead at ht
  cases ht
  have hk := Touch.refl 4840227864 s
  repeat' (first | with_reducible assumption | intro _ _ hk | with_reducible apply touch_ite | with_reducible refine touch_modHealth ?_ | with_reducible refine touch_runCommand ?_ ?_ | dsimp only | split)

theorem touch_execLedgerReadDone {m : Fin 16} {s : State} {zt : State} (ht : execLedgerReadDone m s = .next zt) : Touch 4840227992 s zt := by
  unfold execLedgerReadDone at ht
  cases ht
  have hk := Touch.refl 4840227992 s
  repeat' (first | with_reducible assumption | intro _ _ hk | with_reducible apply touch_ite | with_reducible refine touch_commandDone ?_ | with_reducible refine touch_modHealth ?_ | with_reducible refine touch_wrCompanion ?_ | dsimp only | split)

end Sys2Proof.Machine
end

