-- ==== Sys2Proof/Laws/TouchBoot.lean ====
section
/-! SUPPORT. Which parts of the state the operations of Sys2Proof/Machine/Boot.lean may change. -/

namespace Sys2Proof.Machine

set_option linter.all false
set_option Elab.async false

theorem touch_deviceReset {msk : Nat} {z0 s : State} (hk : Touch msk z0 s)
    (hw : msk &&& 7465861118 = 7465861118 := by decide) : Touch msk z0 s.deviceReset := by
  refine Touch.use hk hw (fun hk => ?_)
  unfold State.deviceReset
  have h1 := touch_setDevice (new := .rom) hk
  dsimp only
  revert h1
  generalize s.setDevice .rom = u
  intro h1
  refine h1.trans ?_
  constructor <;> intro hb <;> first | exact absurd hb (by decide) | rfl

theorem touch_startRom {msk : Nat} {z0 : State} {s : State} (hk : Touch msk z0 s)
    (hw : msk &&& 67108864 = 67108864 := by decide) : Touch msk z0 (State.startRom s) := by
  refine Touch.use hk hw (fun hk => ?_)
  unfold State.startRom
  repeat' (first | with_reducible assumption | intro _ _ hk | with_reducible apply touch_ite | with_reducible refine touch_extend ?_ | dsimp only | split)

theorem touch_warmReset {msk : Nat} {z0 : State} {copy : Option (Bytes × Bool)} {s : State} (hk : Touch msk z0 s)
    (hw : msk &&& 7465861118 = 7465861118 := by decide) : Touch msk z0 (State.warmReset copy s) := by
  refine Touch.use hk hw (fun hk => ?_)
  unfold State.warmReset
  repeat' (first | with_reducible assumption | intro _ _ hk | with_reducible apply touch_ite | with_reducible refine touch_deviceReset ?_ | with_reducible refine touch_modSec ?_ | with_reducible refine touch_startRom ?_ | dsimp only | split)

theorem touch_execBoardReset {s : State} {zt : State} (ht : execBoardReset s = .next zt) : Touch 7465861118 s zt := by
  unfold execBoardReset at ht
  cases ht
  have hk := Touch.refl 7465861118 s
  repeat' (first | with_reducible assumption | intro _ _ hk | with_reducible apply touch_ite | with_reducible refine touch_deviceReset ?_ | ((fail_if_success (with_reducible refine touch_eta ?_)); with_reducible refine touch_lit28 ?_) | dsimp only | split)

theorem touch_execBoardResetRelease {hotInsertion : Bool} {s : State} {zt : State} (ht : execBoardResetRelease hotInsertion s = .next zt) : Touch 335544320 s zt := by
  unfold execBoardResetRelease at ht
  cases ht
  have hk := Touch.refl 335544320 s
  repeat' (first | with_reducible assumption | intro _ _ hk | with_reducible apply touch_ite | with_reducible refine touch_modPkg ?_ | with_reducible refine touch_startRom ?_ | dsimp only | split)

theorem touch_measureBoot {msk : Nat} {z0 : State} {b : Bytes} {recovered : Bool} {persist : Bool} {s : State} (hk : Touch msk z0 s)
    (hw : msk &&& 67108864 = 67108864 := by decide) : Touch msk z0 (State.measureBoot b recovered persist s) := by
  refine Touch.use hk hw (fun hk => ?_)
  unfold State.measureBoot
  repeat' (first | with_reducible assumption | with_reducible refine touch_forEach ?_ ?_ | intro _ _ hk | with_reducible apply touch_ite | with_reducible refine touch_extend ?_ | dsimp only | split)

theorem touch_restoreDeficits {msk : Nat} {z0 : State} {s : State} (hk : Touch msk z0 s)
    (hw : msk &&& 8388608 = 8388608 := by decide) : Touch msk z0 (State.restoreDeficits s) := by
  refine Touch.use hk hw (fun hk => ?_)
  unfold State.restoreDeficits
  repeat' (first | with_reducible assumption | intro _ _ hk | with_reducible apply touch_ite | with_reducible refine touch_modHealth ?_ | dsimp only | split)

theorem touch_numberUnit {msk : Nat} {z0 : State} {u : UnitId} {s : State} (hk : Touch msk z0 s)
    (hw : msk &&& 4391437312 = 4391437312 := by decide) : Touch msk z0 (State.numberUnit u s).2 := by
  refine Touch.use hk hw (fun hk => ?_)
  unfold State.numberUnit
  repeat' (first | with_reducible assumption | intro _ _ hk | with_reducible apply touch_ite | with_reducible refine touch_reserveInc ?_ | dsimp only | split)

theorem touch_publish {msk : Nat} {z0 : State} {s : State} (hk : Touch msk z0 s)
    (hw : msk &&& 4391437316 = 4391437316 := by decide) : Touch msk z0 (State.publish s) := by
  refine Touch.use hk hw (fun hk => ?_)
  unfold State.publish
  repeat' (first | with_reducible assumption | (rename_i hq; have hz := congrArg Prod.snd hq; dsimp only at hz; subst hz; try clear hq) | (have hz := congrArg Prod.snd ‹_ = (_, _)›; dsimp only at hz; subst hz) | with_reducible refine touch_forEach ?_ ?_ | intro _ _ hk | with_reducible apply touch_ite | with_reducible refine touch_modFoldHealth ?_ | with_reducible refine touch_modHealth ?_ | with_reducible refine touch_numberUnit ?_ | ((fail_if_success (with_reducible refine touch_eta ?_)); with_reducible refine touch_lit2 ?_) | dsimp only | split)

theorem touch_powerRecords {msk : Nat} {z0 : State} {s : State} (hk : Touch msk z0 s)
    (hw : msk &&& 293601280 = 293601280 := by decide) : Touch msk z0 (State.powerRecords s) := by
  refine Touch.use hk hw (fun hk => ?_)
  unfold State.powerRecords
  repeat' (first | with_reducible assumption | intro _ _ hk | with_reducible apply touch_ite | with_reducible refine touch_ledger ?_ | with_reducible refine touch_modPkg ?_ | ((fail_if_success (with_reducible refine touch_eta ?_)); with_reducible refine touch_lit24 ?_) | dsimp only | split)

theorem touch_bootImage {msk : Nat} {z0 : State} {b : Bytes} {recovered : Bool} {persist : Bool} {s : State} (hk : Touch msk z0 s)
    (hw : msk &&& 5196743702 = 5196743702 := by decide) : Touch msk z0 (State.bootImage b recovered persist s) := by
  refine Touch.use hk hw (fun hk => ?_)
  unfold State.bootImage
  repeat' (first | with_reducible assumption | intro _ _ hk | with_reducible apply touch_ite | with_reducible refine touch_measureBoot ?_ | with_reducible refine touch_modHealth ?_ | with_reducible refine touch_modSec ?_ | with_reducible refine touch_powerRecords ?_ | with_reducible refine touch_publish ?_ | with_reducible refine touch_restoreDeficits ?_ | with_reducible refine touch_setDevice ?_ | dsimp only | split)

theorem touch_execImageVerify {readOk : Bool} {s : State} {zt : State} (ht : execImageVerify readOk s = .next zt) : Touch 5196743702 s zt := by
  unfold execImageVerify at ht
  cases ht
  have hk := Touch.refl 5196743702 s
  repeat' (first | with_reducible assumption | intro _ _ hk | with_reducible apply touch_ite | with_reducible refine touch_bootImage ?_ | with_reducible refine touch_modPkg ?_ | with_reducible refine touch_modSec ?_ | dsimp only | split)

theorem touch_execFwRecoveryLoad {m : Fin 16} {s : State} {zt : State} (ht : execFwRecoveryLoad m s = .next zt) : Touch 4898948120 s zt := by
  unfold execFwRecoveryLoad at ht
  cases ht
  have hk := Touch.refl 4898948120 s
  repeat' (first | with_reducible assumption | intro _ _ hk | with_reducible apply touch_ite | with_reducible refine touch_modSec ?_ | with_reducible refine touch_runCommand ?_ ?_ | dsimp only | split)

theorem touch_execFwRecoveryVerified {transferOk : Bool} {s : State} {zt : State} (ht : execFwRecoveryVerified transferOk s = .next zt) : Touch 7465861118 s zt := by
  unfold execFwRecoveryVerified at ht
  cases ht
  have hk := Touch.refl 7465861118 s
  repeat' (first | with_reducible assumption | intro _ _ hk | with_reducible apply touch_ite | with_reducible refine touch_modMbox ?_ | with_reducible refine touch_modSec ?_ | with_reducible refine touch_warmReset ?_ | with_reducible refine touch_wrCompanionMem ?_ | with_reducible refine touch_wr ?_ | dsimp only | split)

theorem touch_execImagePersistDone {powerLost : Bool} {s : State} {zt : State} (ht : execImagePersistDone powerLost s = .next zt) : Touch 83886080 s zt := by
  unfold execImagePersistDone at ht
  cases ht
  have hk := Touch.refl 83886080 s
  repeat' (first | with_reducible assumption | intro _ _ hk | with_reducible apply touch_ite | with_reducible refine touch_modSec ?_ | ((fail_if_success (with_reducible refine touch_eta ?_)); with_reducible refine touch_lit24 ?_) | dsimp only | split)

theorem touch_burnFuses {msk : Nat} {z0 : State} {s : State} (hk : Touch msk z0 s)
    (hw : msk &&& 33554432 = 33554432 := by decide) : Touch msk z0 (State.burnFuses s) := by
  refine Touch.use hk hw (fun hk => ?_)
  unfold State.burnFuses
  repeat' (first | with_reducible assumption | intro _ _ hk | with_reducible apply touch_ite | ((fail_if_success (with_reducible refine touch_eta ?_)); with_reducible refine touch_lit25 ?_) | dsimp only | split)

theorem touch_execDevConfigure {m : Fin 16} {s : State} {zt : State} (ht : execDevConfigure m s = .next zt) : Touch 7013010458 s zt := by
  unfold execDevConfigure at ht
  cases ht
  have hk := Touch.refl 7013010458 s
  repeat' (first | with_reducible assumption | with_reducible refine touch_forEach ?_ ?_ | intro _ _ hk | with_reducible apply touch_ite | with_reducible refine touch_bindDma ?_ | with_reducible refine touch_burnFuses ?_ | with_reducible refine touch_ensureRadio ?_ | with_reducible refine touch_runCommand ?_ ?_ | with_reducible refine touch_setDevice ?_ | ((fail_if_success (with_reducible refine touch_eta ?_)); with_reducible refine touch_lit1 ?_) | dsimp only | split)

theorem touch_execDevCommit {m : Fin 16} {s : State} {zt : State} (ht : execDevCommit m s = .next zt) : Touch 4831855642 s zt := by
  unfold execDevCommit at ht
  cases ht
  have hk := Touch.refl 4831855642 s
  repeat' (first | with_reducible assumption | with_reducible refine touch_forEach ?_ ?_ | intro _ _ hk | with_reducible apply touch_ite | with_reducible refine touch_modCell ?_ | with_reducible refine touch_runCommand ?_ ?_ | with_reducible refine touch_setDevice ?_ | dsimp only | split)

theorem touch_execDevReset {m : Fin 16} {s : State} {zt : State} (ht : execDevReset m s = .next zt) : Touch 7482638334 s zt := by
  unfold execDevReset at ht
  cases ht
  have hk := Touch.refl 7482638334 s
  repeat' (first | with_reducible assumption | intro _ _ hk | with_reducible apply touch_ite | with_reducible refine touch_closeBatch ?_ | with_reducible refine touch_respond ?_ | with_reducible refine touch_warmReset ?_ | dsimp only | split)

theorem touch_execDebugAccess {m : Fin 16} {s : State} {zt : State} (ht : execDebugAccess m s = .next zt) : Touch 4898948122 s zt := by
  unfold execDebugAccess at ht
  cases ht
  have hk := Touch.refl 4898948122 s
  repeat' (first | with_reducible assumption | intro _ _ hk | with_reducible apply touch_ite | with_reducible refine touch_extend ?_ | with_reducible refine touch_runCommand ?_ ?_ | ((fail_if_success (with_reducible refine touch_eta ?_)); with_reducible refine touch_lit1 ?_) | dsimp only | split)

end Sys2Proof.Machine
end

