-- ==== Sys2Proof/Laws/TouchSecurity.lean ====
section
/-! SUPPORT. Which parts of the state the operations of Sys2Proof/Machine/Security.lean may change. -/

namespace Sys2Proof.Machine

set_option linter.all false
set_option Elab.async false

theorem touch_execMeasureRead {m : Fin 16} {s : State} {zt : State} (ht : execMeasureRead m s = .next zt) : Touch 4831839256 s zt := by
  unfold execMeasureRead at ht
  cases ht
  have hk := Touch.refl 4831839256 s
  repeat' (first | with_reducible assumption | intro _ _ hk | with_reducible apply touch_ite | with_reducible refine touch_runCommand ?_ ?_ | dsimp only | split)

theorem touch_firstKey {msk : Nat} {z0 : State} {s : State} (hk : Touch msk z0 s)
    (hw : msk &&& 100663296 = 100663296 := by decide) : Touch msk z0 (State.firstKey s) := by
  refine Touch.use hk hw (fun hk => ?_)
  unfold State.firstKey
  repeat' (first | with_reducible assumption | (rename_i hq; have hz := congrArg Prod.snd hq; dsimp only at hz; subst hz; try clear hq) | (have hz := congrArg Prod.snd ‹_ = (_, _)›; dsimp only at hz; subst hz) | intro _ _ hk | with_reducible apply touch_ite | with_reducible refine touch_certify ?_ | with_reducible refine touch_modSec ?_ | dsimp only | split)

theorem touch_renewKey {msk : Nat} {z0 : State} {s : State} (hk : Touch msk z0 s)
    (hw : msk &&& 100663296 = 100663296 := by decide) : Touch msk z0 (State.renewKey s) := by
  refine Touch.use hk hw (fun hk => ?_)
  unfold State.renewKey
  repeat' (first | with_reducible assumption | (rename_i hq; have hz := congrArg Prod.snd hq; dsimp only at hz; subst hz; try clear hq) | (have hz := congrArg Prod.snd ‹_ = (_, _)›; dsimp only at hz; subst hz) | intro _ _ hk | with_reducible apply touch_ite | with_reducible refine touch_certify ?_ | with_reducible refine touch_modSec ?_ | with_reducible refine touch_switchKey ?_ | dsimp only | split)

theorem touch_execSessionKeyReady {s : State} {zt : State} (ht : execSessionKeyReady s = .next zt) : Touch 100663296 s zt := by
  unfold execSessionKeyReady at ht
  cases ht
  have hk := Touch.refl 100663296 s
  repeat' (first | with_reducible assumption | intro _ _ hk | with_reducible apply touch_ite | with_reducible refine touch_firstKey ?_ | with_reducible refine touch_renewKey ?_ | dsimp only | split)

theorem touch_answer {msk : Nat} {z0 : State} {code : Byte} {tag : Byte} {st : Status} {body : Bytes} {s : State} (hk : Touch msk z0 s)
    (hw : msk &&& 536870912 = 536870912 := by decide) : Touch msk z0 (State.answer code tag st body s) := by
  refine Touch.use hk hw (fun hk => ?_)
  unfold State.answer
  repeat' (first | with_reducible assumption | intro _ _ hk | with_reducible apply touch_ite | with_reducible refine touch_emit ?_ | dsimp only | split)

theorem touch_endRetest {msk : Nat} {z0 : State} {cert : Bytes} {st : Status} {s : State} (hk : Touch msk z0 s)
    (hw : msk &&& 4840227864 = 4840227864 := by decide) : Touch msk z0 (State.endRetest cert st s) := by
  refine Touch.use hk hw (fun hk => ?_)
  unfold State.endRetest
  repeat' (first | with_reducible assumption | intro _ _ hk | with_reducible apply touch_ite | with_reducible refine touch_commandDone ?_ | with_reducible refine touch_modHealth ?_ | dsimp only | split)

theorem touch_signed {msk : Nat} {z0 : State} {r : SignReq} {msg : Bytes} {sig : Bytes} {s : State} (hk : Touch msk z0 s)
    (hw : msk &&& 4928308248 = 4928308248 := by decide) : Touch msk z0 (State.signed r msg sig s) := by
  refine Touch.use hk hw (fun hk => ?_)
  unfold State.signed
  repeat' (first | with_reducible assumption | with_reducible refine touch_forEach ?_ ?_ | intro _ _ hk | with_reducible apply touch_ite | with_reducible refine touch_answer ?_ | with_reducible refine touch_endRetest ?_ | with_reducible refine touch_ledger ?_ | with_reducible refine touch_modHealth ?_ | with_reducible refine touch_modSec ?_ | with_reducible refine touch_provPut ?_ | ((fail_if_success (with_reducible refine touch_eta ?_)); with_reducible refine touch_lit24 ?_) | dsimp only | split)

theorem touch_unsigned {msk : Nat} {z0 : State} {r : SignReq} {s : State} (hk : Touch msk z0 s)
    (hw : msk &&& 4857005080 = 4857005080 := by decide) : Touch msk z0 (State.unsigned r s) := by
  refine Touch.use hk hw (fun hk => ?_)
  unfold State.unsigned
  repeat' (first | with_reducible assumption | intro _ _ hk | with_reducible apply touch_ite | with_reducible refine touch_answer ?_ | with_reducible refine touch_endRetest ?_ | ((fail_if_success (with_reducible refine touch_eta ?_)); with_reducible refine touch_lit24 ?_) | dsimp only | split)

theorem touch_execSignRequestDone {now : Nat} {s : State} {zt : State} (ht : execSignRequestDone now s = .next zt) : Touch 4928832536 s zt := by
  unfold execSignRequestDone at ht
  cases ht
  have hk := Touch.refl 4928832536 s
  repeat' (first | with_reducible assumption | intro _ _ hk | with_reducible apply touch_ite | with_reducible refine touch_at ?_ | with_reducible refine touch_modSec ?_ | with_reducible refine touch_signed ?_ | with_reducible refine touch_switchKey ?_ | with_reducible refine touch_unsigned ?_ | refine touch_sessionSign ?_ (by assumption) | dsimp only | split)

theorem touch_attest {msk : Nat} {z0 : State} {code major tag : Byte} {f : State → State} {s : State} (hk : Touch msk z0 s)
    (hf : Touch msk z0 (f s)) (hw : msk &&& 536870912 = 536870912 := by decide) :
    Touch msk z0 (State.attest code major tag f s) := by
  unfold State.attest
  split
  · exact hk
  · split
    · exact touch_answer hk hw
    · exact hf

theorem touch_execGetVersion {major : Byte} {_minor : Byte} {tag : Byte} {s : State} {zt : State} (ht : execGetVersion major _minor tag s = .next zt) : Touch 536870912 s zt := by
  unfold execGetVersion at ht
  cases ht
  have hk := Touch.refl 536870912 s
  repeat' (first | with_reducible assumption | intro _ _ hk | with_reducible apply touch_ite | with_reducible refine touch_answer ?_ | with_reducible refine touch_attest ?_ ?_ | dsimp only | split)

theorem touch_execGetCert {major : Byte} {tag : Byte} {body : Bytes} {s : State} {zt : State} (ht : execGetCert major tag body s = .next zt) : Touch 536870912 s zt := by
  unfold execGetCert at ht
  cases ht
  have hk := Touch.refl 536870912 s
  repeat' (first | with_reducible assumption | intro _ _ hk | with_reducible apply touch_ite | with_reducible refine touch_answer ?_ | with_reducible refine touch_attest ?_ ?_ | dsimp only | split)

theorem touch_refuseQuote {msk : Nat} {z0 : State} {tag : Byte} {s : State} (hk : Touch msk z0 s)
    (hw : msk &&& 603979776 = 603979776 := by decide) : Touch msk z0 (State.refuseQuote tag s) := by
  refine Touch.use hk hw (fun hk => ?_)
  unfold State.refuseQuote
  repeat' (first | with_reducible assumption | intro _ _ hk | with_reducible apply touch_ite | with_reducible refine touch_answer ?_ | with_reducible refine touch_modSec ?_ | dsimp only | split)

theorem touch_execGetQuote {now : Nat} {major : Byte} {tag : Byte} {body : Bytes} {s : State} {zt : State} (ht : execGetQuote now major tag body s = .next zt) : Touch 4903666688 s zt := by
  unfold execGetQuote at ht
  cases ht
  have hk := Touch.refl 4903666688 s
  repeat' (first | with_reducible assumption | intro _ _ hk | with_reducible apply touch_ite | with_reducible refine touch_answer ?_ | with_reducible refine touch_at ?_ | with_reducible refine touch_attest ?_ ?_ | with_reducible refine touch_enqueue ?_ | with_reducible refine touch_modSec ?_ | with_reducible refine touch_refuseQuote ?_ | dsimp only | split)

theorem touch_execGetRoot {major : Byte} {tag : Byte} {body : Bytes} {s : State} {zt : State} (ht : execGetRoot major tag body s = .next zt) : Touch 536870912 s zt := by
  unfold execGetRoot at ht
  cases ht
  have hk := Touch.refl 536870912 s
  repeat' (first | with_reducible assumption | intro _ _ hk | with_reducible apply touch_ite | with_reducible refine touch_answer ?_ | with_reducible refine touch_attest ?_ ?_ | dsimp only | split)

theorem touch_execGetLedgerHead {major : Byte} {tag : Byte} {body : Bytes} {s : State} {zt : State} (ht : execGetLedgerHead major tag body s = .next zt) : Touch 536870912 s zt := by
  unfold execGetLedgerHead at ht
  cases ht
  have hk := Touch.refl 536870912 s
  repeat' (first | with_reducible assumption | intro _ _ hk | with_reducible apply touch_ite | with_reducible refine touch_answer ?_ | with_reducible refine touch_attest ?_ ?_ | dsimp only | split)

theorem touch_execUnknownAttestationCode {major : Byte} {code : Byte} {tag : Byte} {s : State} {zt : State} (ht : execUnknownAttestationCode major code tag s = .next zt) : Touch 536870912 s zt := by
  unfold execUnknownAttestationCode at ht
  cases ht
  have hk := Touch.refl 536870912 s
  repeat' (first | with_reducible assumption | intro _ _ hk | with_reducible apply touch_ite | with_reducible refine touch_answer ?_ | with_reducible refine touch_attest ?_ ?_ | dsimp only | split)

end Sys2Proof.Machine
end

