-- ==== Sys2Proof/Laws/TouchFyfoyx.lean ====
section
/-! SUPPORT. Which parts of the state the operations of Sys2Proof/Machine/Fyfoyx.lean may change. -/

namespace Sys2Proof.Machine

set_option linter.all false
set_option Elab.async false

theorem touch_hbmWrite {msk : Nat} {z0 : State} {a : Nat} {bs : Bytes} {s : State} (hk : Touch msk z0 s)
    (hw : msk &&& 6442452480 = 6442452480 := by decide) : Touch msk z0 (State.hbmWrite a bs s) := by
  refine Touch.use hk hw (fun hk => ?_)
  unfold State.hbmWrite
  repeat' (first | with_reducible assumption | intro _ _ hk | with_reducible apply touch_ite | with_reducible refine touch_cleanCopy ?_ | with_reducible refine touch_modCopy ?_ | with_reducible refine touch_wrCompanionMem ?_ | with_reducible refine touch_wr ?_ | dsimp only | split)

theorem touch_hbmWriteAll {msk : Nat} {z0 : State} {a : Nat} {bs : Bytes} {s : State} (hk : Touch msk z0 s)
    (hw : msk &&& 6442452480 = 6442452480 := by decide) : Touch msk z0 (State.hbmWriteAll a bs s) := by
  refine Touch.use hk hw (fun hk => ?_)
  unfold State.hbmWriteAll
  repeat' (first | with_reducible assumption | with_reducible refine touch_forEach ?_ ?_ | intro _ _ hk | with_reducible apply touch_ite | with_reducible refine touch_hbmWrite ?_ | dsimp only | split)

theorem touch_poisonLine {msk : Nat} {z0 : State} {line : Nat} {s : State} (hk : Touch msk z0 s)
    (hw : msk &&& 8195671568 = 8195671568 := by decide) : Touch msk z0 (State.poisonLine line s) := by
  refine Touch.use hk hw (fun hk => ?_)
  unfold State.poisonLine
  repeat' (first | with_reducible assumption | intro _ _ hk | with_reducible apply touch_ite | with_reducible refine touch_modPower ?_ | with_reducible refine touch_poisonChunk ?_ | ((fail_if_success (with_reducible refine touch_eta ?_)); with_reducible refine touch_lit10 ?_) | dsimp only | split)

theorem touch_serveRead {msk : Nat} {z0 : State} {mapping : W32} {off : Nat} {len : Nat} {s : State} (hk : Touch msk z0 s)
    (hw : msk &&& 4966055936 = 4966055936 := by decide) : Touch msk z0 (State.serveRead mapping off len s) := by
  refine Touch.use hk hw (fun hk => ?_)
  unfold State.serveRead
  repeat' (first | with_reducible assumption | intro _ _ hk | with_reducible apply touch_ite | with_reducible refine touch_complete ?_ | with_reducible refine touch_startRecall ?_ | dsimp only | split)

theorem touch_serveWrite {msk : Nat} {z0 : State} {off : Nat} {bs : Bytes} {s : State} (hk : Touch msk z0 s)
    (hw : msk &&& 7113541120 = 7113541120 := by decide) : Touch msk z0 (State.serveWrite off bs s) := by
  refine Touch.use hk hw (fun hk => ?_)
  unfold State.serveWrite
  repeat' (first | with_reducible assumption | intro _ _ hk | with_reducible apply touch_ite | with_reducible refine touch_complete ?_ | with_reducible refine touch_hbmWriteAll ?_ | with_reducible refine touch_startRecall ?_ | dsimp only | split)

theorem touch_sendWaiting {msk : Nat} {z0 : State} {x0 : Nat} {s : State} (hk : Touch msk z0 s)
    (hw : msk &&& 4966055936 = 4966055936 := by decide) : Touch msk z0 (State.sendWaiting x0 s) := by
  refine Touch.use hk hw (fun hq => ?_)
  suffices h : ∀ z, Touch 4966055936 z s → Touch 4966055936 z (State.sendWaiting x0 s) from h _ hq
  clear hq hk hw
  intro z0 hk
  induction x0 generalizing s with
  | zero =>
    first | exact hk | (simp only [State.sendWaiting]; repeat' (first | with_reducible assumption | intro _ _ hk | with_reducible apply touch_ite | with_reducible refine touch_emit ?_ | with_reducible refine touch_modPower ?_ | dsimp only | split))
  | succ n ih =>
    simp only [State.sendWaiting]
    repeat' (first | with_reducible assumption | with_reducible apply ih | intro _ _ hk | with_reducible apply touch_ite | with_reducible refine touch_emit ?_ | with_reducible refine touch_modPower ?_ | dsimp only | split)

theorem touch_returned {msk : Nat} {z0 : State} {c : FyfCredits} {s : State} (hk : Touch msk z0 s)
    (hw : msk &&& 4966055936 = 4966055936 := by decide) : Touch msk z0 (State.returned c s) := by
  refine Touch.use hk hw (fun hk => ?_)
  unfold State.returned
  repeat' (first | with_reducible assumption | intro _ _ hk | with_reducible apply touch_ite | with_reducible refine touch_modPower ?_ | with_reducible refine touch_sendWaiting ?_ | dsimp only | split)

theorem touch_execCoherentAccess {mapping : W32} {offset : Nat} {len : Nat} {req : Credited CohReq} {s : State} {zt : State} (ht : execCoherentAccess mapping offset len req s = .next zt) : Touch 7113541120 s zt := by
  unfold execCoherentAccess at ht
  cases ht
  have hk := Touch.refl 7113541120 s
  repeat' (first | with_reducible assumption | intro _ _ hk | with_reducible apply touch_ite | with_reducible refine touch_returned ?_ | with_reducible refine touch_serveRead ?_ | with_reducible refine touch_serveWrite ?_ | dsimp only | split)

theorem touch_grantLine {msk : Nat} {z0 : State} {line : Nat} {own : Own} {s : State} (hk : Touch msk z0 s)
    (hw : msk &&& 4966055936 = 4966055936 := by decide) : Touch msk z0 (State.grantLine line own s) := by
  refine Touch.use hk hw (fun hk => ?_)
  unfold State.grantLine
  repeat' (first | with_reducible assumption | intro _ _ hk | with_reducible apply touch_ite | with_reducible refine touch_complete ?_ | with_reducible refine touch_modPower ?_ | with_reducible refine touch_startRecall ?_ | dsimp only | split)

theorem touch_execCompanionOwnershipRequest {line : Nat} {own : Credited Own} {s : State} {zt : State} (ht : execCompanionOwnershipRequest line own s = .next zt) : Touch 4966055936 s zt := by
  unfold execCompanionOwnershipRequest at ht
  cases ht
  have hk := Touch.refl 4966055936 s
  repeat' (first | with_reducible assumption | intro _ _ hk | with_reducible apply touch_ite | with_reducible refine touch_grantLine ?_ | with_reducible refine touch_returned ?_ | dsimp only | split)

theorem touch_resumeHeld {msk : Nat} {z0 : State} {w : Held} {s : State} (hk : Touch msk z0 s)
    (hw : msk &&& 7113541120 = 7113541120 := by decide) : Touch msk z0 (State.resumeHeld w s) := by
  refine Touch.use hk hw (fun hk => ?_)
  unfold State.resumeHeld
  repeat' (first | with_reducible assumption | intro _ _ hk | with_reducible apply touch_ite | with_reducible refine touch_grantLine ?_ | with_reducible refine touch_serveRead ?_ | with_reducible refine touch_serveWrite ?_ | dsimp only | split)

theorem touch_endRecall {msk : Nat} {z0 : State} {line : Nat} {s : State} (hk : Touch msk z0 s)
    (hw : msk &&& 7113541120 = 7113541120 := by decide) : Touch msk z0 (State.endRecall line s) := by
  refine Touch.use hk hw (fun hk => ?_)
  unfold State.endRecall
  repeat' (first | with_reducible assumption | with_reducible refine touch_forEach ?_ ?_ | intro _ _ hk | with_reducible apply touch_ite | with_reducible refine touch_dropLine ?_ | with_reducible refine touch_modPower ?_ | with_reducible refine touch_resumeHeld ?_ | dsimp only | split)

theorem touch_execSnoopReply {line : Nat} {data : Credited (Option Bytes)} {s : State} {zt : State} (ht : execSnoopReply line data s = .next zt) : Touch 7113541120 s zt := by
  unfold execSnoopReply at ht
  cases ht
  have hk := Touch.refl 7113541120 s
  repeat' (first | with_reducible assumption | intro _ _ hk | with_reducible apply touch_ite | with_reducible refine touch_endRecall ?_ | with_reducible refine touch_hbmWrite ?_ | with_reducible refine touch_returned ?_ | dsimp only | split)

theorem touch_execRecallTimeout {line : Nat} {s : State} {zt : State} (ht : execRecallTimeout line s = .next zt) : Touch 8195671568 s zt := by
  unfold execRecallTimeout at ht
  cases ht
  have hk := Touch.refl 8195671568 s
  repeat' (first | with_reducible assumption | intro _ _ hk | with_reducible apply touch_ite | with_reducible refine touch_endRecall ?_ | with_reducible refine touch_poisonLine ?_ | dsimp only | split)

theorem touch_execCompanionSnoop {line : Credited Nat} {s : State} {zt : State} (ht : execCompanionSnoop line s = .next zt) : Touch 4966055936 s zt := by
  unfold execCompanionSnoop at ht
  cases ht
  have hk := Touch.refl 4966055936 s
  repeat' (first | with_reducible assumption | intro _ _ hk | with_reducible apply touch_ite | with_reducible refine touch_complete ?_ | with_reducible refine touch_modPower ?_ | with_reducible refine touch_returned ?_ | dsimp only | split)

theorem touch_execFyfLaneDetect {s : State} {zt : State} (ht : execFyfLaneDetect s = .next zt) : Touch 4429185024 s zt := by
  unfold execFyfLaneDetect at ht
  cases ht
  have hk := Touch.refl 4429185024 s
  repeat' (first | with_reducible assumption | intro _ _ hk | with_reducible apply touch_ite | with_reducible refine touch_modPower ?_ | dsimp only | split)

theorem touch_execFyfTrainDone {lanesOk : W32} {versions : List W16} {s : State} {zt : State} (ht : execFyfTrainDone lanesOk versions s = .next zt) : Touch 4429201408 s zt := by
  unfold execFyfTrainDone at ht
  cases ht
  have hk := Touch.refl 4429201408 s
  repeat' (first | with_reducible assumption | intro _ _ hk | with_reducible apply touch_ite | with_reducible refine touch_modPower ?_ | with_reducible refine touch_recheck ?_ | dsimp only | split)

theorem touch_t2ReadsEnd {msk : Nat} {z0 : State} {s : State} (hk : Touch msk z0 s)
    (hw : msk &&& 8195804816 = 8195804816 := by decide) : Touch msk z0 (State.t2ReadsEnd s) := by
  refine Touch.use hk hw (fun hk => ?_)
  unfold State.t2ReadsEnd
  repeat' (first | with_reducible assumption | with_reducible refine touch_forEach ?_ ?_ | intro _ _ hk | with_reducible apply touch_ite | with_reducible refine touch_chunkArrives ?_ | dsimp only | split)

theorem touch_lostLine {msk : Nat} {z0 : State} {line : Nat} {st : LineState} {s : State} (hk : Touch msk z0 s)
    (hw : msk &&& 8195671568 = 8195671568 := by decide) : Touch msk z0 (State.lostLine line st s) := by
  refine Touch.use hk hw (fun hk => ?_)
  unfold State.lostLine
  repeat' (first | with_reducible assumption | (rename_i hq; have hz := congrArg Prod.snd hq; dsimp only at hz; subst hz; try clear hq) | (have hz := congrArg Prod.snd ‹_ = (_, _)›; dsimp only at hz; subst hz) | intro _ _ hk | with_reducible apply touch_ite | with_reducible refine touch_poisonLine ?_ | with_reducible refine touch_takeFree ?_ | dsimp only | split)

theorem touch_linkDown {msk : Nat} {z0 : State} {s : State} (hk : Touch msk z0 s)
    (hw : msk &&& 8195804824 = 8195804824 := by decide) : Touch msk z0 (State.linkDown s) := by
  refine Touch.use hk hw (fun hk => ?_)
  unfold State.linkDown
  repeat' (first | with_reducible assumption | with_reducible refine touch_forEach ?_ ?_ | intro _ _ hk | with_reducible apply touch_ite | with_reducible refine touch_lostLine ?_ | with_reducible refine touch_modMbox ?_ | with_reducible refine touch_modPower ?_ | with_reducible refine touch_t2ReadsEnd ?_ | dsimp only | split)

theorem touch_execFyfLinkDown {s : State} {zt : State} (ht : execFyfLinkDown s = .next zt) : Touch 8195804824 s zt := by
  unfold execFyfLinkDown at ht
  cases ht
  have hk := Touch.refl 8195804824 s
  repeat' (first | with_reducible assumption | intro _ _ hk | with_reducible apply touch_ite | with_reducible refine touch_linkDown ?_ | dsimp only | split)

theorem touch_execFyfFlitCrcFail {now : Nat} {held : Bool} {s : State} {zt : State} (ht : execFyfFlitCrcFail now held s = .next zt) : Touch 4429709312 s zt := by
  unfold execFyfFlitCrcFail at ht
  cases ht
  have hk := Touch.refl 4429709312 s
  repeat' (first | with_reducible assumption | intro _ _ hk | with_reducible apply touch_ite | with_reducible refine touch_at ?_ | with_reducible refine touch_modPower ?_ | dsimp only | split)

theorem touch_execFyfRecoveryTimeout {s : State} {zt : State} (ht : execFyfRecoveryTimeout s = .next zt) : Touch 8195804824 s zt := by
  unfold execFyfRecoveryTimeout at ht
  cases ht
  have hk := Touch.refl 8195804824 s
  repeat' (first | with_reducible assumption | intro _ _ hk | with_reducible apply touch_ite | with_reducible refine touch_linkDown ?_ | dsimp only | split)

end Sys2Proof.Machine
end

