-- ==== Sys2Proof/Laws/TouchPower.lean ====
section
/-! SUPPORT. Which parts of the state the operations of Sys2Proof/Machine/Power.lean may change. -/

namespace Sys2Proof.Machine

set_option linter.all false
set_option Elab.async false

theorem touch_endHolds {msk : Nat} {z0 : State} {s : State} (hk : Touch msk z0 s)
    (hw : msk &&& 6987717652 = 6987717652 := by decide) : Touch msk z0 (State.endHolds s) := by
  refine Touch.use hk hw (fun hk => ?_)
  unfold State.endHolds
  repeat' (first | with_reducible assumption | with_reducible refine touch_forEach ?_ ?_ | intro _ _ hk | with_reducible apply touch_ite | with_reducible refine touch_endDebug ?_ | dsimp only | split)

theorem touch_loseContext {msk : Nat} {z0 : State} {f : Nat} {k : Nat} {s : State} (hk : Touch msk z0 s)
    (hw : msk &&& 8195833488 = 8195833488 := by decide) : Touch msk z0 (State.loseContext f k s) := by
  refine Touch.use hk hw (fun hk => ?_)
  unfold State.loseContext
  repeat' (first | with_reducible assumption | with_reducible refine touch_forEach ?_ ?_ | intro _ _ hk | with_reducible apply touch_ite | with_reducible refine touch_failTask ?_ | with_reducible refine touch_jobLost ?_ | with_reducible refine touch_leaveNow ?_ | with_reducible refine touch_modFold ?_ | dsimp only | split)

theorem touch_loseGrazing {msk : Nat} {z0 : State} {s : State} (hk : Touch msk z0 s)
    (hw : msk &&& 8195833488 = 8195833488 := by decide) : Touch msk z0 (State.loseGrazing s) := by
  refine Touch.use hk hw (fun hk => ?_)
  unfold State.loseGrazing
  repeat' (first | with_reducible assumption | with_reducible refine touch_forEach ?_ ?_ | intro _ _ hk | with_reducible apply touch_ite | with_reducible refine touch_jobLost ?_ | with_reducible refine touch_loseContext ?_ | with_reducible refine touch_loseTask ?_ | dsimp only | split)

theorem touch_stopGrazingDma {msk : Nat} {z0 : State} {s : State} (hk : Touch msk z0 s)
    (hw : msk &&& 6442599424 = 6442599424 := by decide) : Touch msk z0 (State.stopGrazingDma s) := by
  refine Touch.use hk hw (fun hk => ?_)
  unfold State.stopGrazingDma
  repeat' (first | with_reducible assumption | with_reducible refine touch_forEach ?_ ?_ | intro _ _ hk | with_reducible apply touch_ite | with_reducible refine touch_dmaLose ?_ | with_reducible refine touch_jobLost ?_ | with_reducible refine touch_modDma ?_ | dsimp only | split)

theorem touch_nightCancels {msk : Nat} {z0 : State} {s : State} (hk : Touch msk z0 s)
    (hw : msk &&& 4840244248 = 4840244248 := by decide) : Touch msk z0 (State.nightCancels s) := by
  refine Touch.use hk hw (fun hk => ?_)
  unfold State.nightCancels
  repeat' (first | with_reducible assumption | with_reducible refine touch_forEach ?_ ?_ | intro _ _ hk | with_reducible apply touch_ite | with_reducible refine touch_cancelAt ?_ | with_reducible refine touch_modHealth ?_ | with_reducible refine touch_modNrx ?_ | dsimp only | split)

theorem touch_beginNight {msk : Nat} {z0 : State} {cmd : Option (Nat × Nat)} {removing : Bool} {s : State} (hk : Touch msk z0 s)
    (hw : msk &&& 8195833502 = 8195833502 := by decide) : Touch msk z0 (State.beginNight cmd removing s) := by
  refine Touch.use hk hw (fun hk => ?_)
  unfold State.beginNight
  repeat' (first | with_reducible assumption | intro _ _ hk | with_reducible apply touch_ite | with_reducible refine touch_endHolds ?_ | with_reducible refine touch_loseGrazing ?_ | with_reducible refine touch_modPower ?_ | with_reducible refine touch_nightCancels ?_ | with_reducible refine touch_setDevice ?_ | with_reducible refine touch_settleHolds ?_ | with_reducible refine touch_stopGrazingDma ?_ | dsimp only | split)

theorem touch_endCoherence {msk : Nat} {z0 : State} {s : State} (hk : Touch msk z0 s)
    (hw : msk &&& 8187283072 = 8187283072 := by decide) : Touch msk z0 (State.endCoherence s) := by
  refine Touch.use hk hw (fun hk => ?_)
  unfold State.endCoherence
  repeat' (first | with_reducible assumption | with_reducible refine touch_forEach ?_ ?_ | intro _ _ hk | with_reducible apply touch_ite | with_reducible refine touch_endRecall ?_ | with_reducible refine touch_modPower ?_ | with_reducible refine touch_recallNow ?_ | with_reducible refine touch_wrCompanion ?_ | dsimp only | split)

theorem touch_portsDown {msk : Nat} {z0 : State} {s : State} (hk : Touch msk z0 s)
    (hw : msk &&& 4841538580 = 4841538580 := by decide) : Touch msk z0 (State.portsDown s) := by
  refine Touch.use hk hw (fun hk => ?_)
  unfold State.portsDown
  repeat' (first | with_reducible assumption | with_reducible refine touch_forEach ?_ ?_ | intro _ _ hk | with_reducible apply touch_ite | with_reducible refine touch_leaveUp ?_ | with_reducible refine touch_modLane ?_ | with_reducible refine touch_modLink ?_ | dsimp only | split)

theorem touch_writeBack {msk : Nat} {z0 : State} {e : Nat} {t : Nat} {k : Nat} {s : State} (hk : Touch msk z0 s)
    (hw : msk &&& 8195671696 = 8195671696 := by decide) : Touch msk z0 (State.writeBack e t k s) := by
  refine Touch.use hk hw (fun hk => ?_)
  unfold State.writeBack
  repeat' (first | with_reducible assumption | (rename_i hq; have hz := congrArg Prod.snd hq; dsimp only at hz; subst hz; try clear hq) | (have hz := congrArg Prod.snd ‹_ = (_, _)›; dsimp only at hz; subst hz) | (have hz := congrArg Prod.fst ‹_ = (_, _)›; dsimp only at hz; subst hz) | intro _ _ hk | with_reducible apply touch_ite | with_reducible refine touch_modCopy ?_ | with_reducible refine touch_notePoison ?_ | with_reducible refine touch_placeChunk ?_ | dsimp only | split)

theorem touch_keepRegions {msk : Nat} {z0 : State} {s : State} (hk : Touch msk z0 s)
    (hw : msk &&& 8195804816 = 8195804816 := by decide) : Touch msk z0 (State.keepRegions s) := by
  refine Touch.use hk hw (fun hk => ?_)
  unfold State.keepRegions
  repeat' (first | with_reducible assumption | with_reducible refine touch_forEach ?_ ?_ | intro _ _ hk | with_reducible apply touch_ite | with_reducible refine touch_modPower ?_ | with_reducible refine touch_wipeSpace ?_ | with_reducible refine touch_writeBack ?_ | dsimp only | split)

theorem touch_sleepUnits {msk : Nat} {z0 : State} {s : State} (hk : Touch msk z0 s)
    (hw : msk &&& 4840227860 = 4840227860 := by decide) : Touch msk z0 (State.sleepUnits s) := by
  refine Touch.use hk hw (fun hk => ?_)
  unfold State.sleepUnits
  repeat' (first | with_reducible assumption | with_reducible refine touch_forEach ?_ ?_ | intro _ _ hk | with_reducible apply touch_ite | with_reducible refine touch_setUnit ?_ | dsimp only | split)

theorem touch_leaveNight {msk : Nat} {z0 : State} {s : State} (hk : Touch msk z0 s)
    (hw : msk &&& 8285224606 = 8285224606 := by decide) : Touch msk z0 (State.leaveNight s) := by
  refine Touch.use hk hw (fun hk => ?_)
  unfold State.leaveNight
  repeat' (first | with_reducible assumption | with_reducible refine touch_forEach ?_ ?_ | intro _ _ hk | with_reducible apply touch_ite | with_reducible refine touch_modPower ?_ | with_reducible refine touch_setDevice ?_ | with_reducible refine touch_setEntry ?_ | with_reducible refine touch_startUnit ?_ | with_reducible refine touch_wakeAll ?_ | dsimp only | split)

theorem touch_nightReached {msk : Nat} {z0 : State} {s : State} (hk : Touch msk z0 s)
    (hw : msk &&& 8285224606 = 8285224606 := by decide) : Touch msk z0 (State.nightReached s) := by
  refine Touch.use hk hw (fun hk => ?_)
  unfold State.nightReached
  repeat' (first | with_reducible assumption | with_reducible refine touch_forEach ?_ ?_ | intro _ _ hk | with_reducible apply touch_ite | with_reducible refine touch_closeBatch ?_ | with_reducible refine touch_commandDone ?_ | with_reducible refine touch_leaveNight ?_ | with_reducible refine touch_ledger ?_ | with_reducible refine touch_modPower ?_ | dsimp only | split)

theorem touch_execNightEntryDone {s : State} {zt : State} (ht : execNightEntryDone s = .next zt) : Touch 8285224606 s zt := by
  unfold execNightEntryDone at ht
  cases ht
  have hk := Touch.refl 8285224606 s
  repeat' (first | with_reducible assumption | intro _ _ hk | with_reducible apply touch_ite | with_reducible refine touch_endCoherence ?_ | with_reducible refine touch_keepRegions ?_ | with_reducible refine touch_modPower ?_ | with_reducible refine touch_nightReached ?_ | with_reducible refine touch_portsDown ?_ | with_reducible refine touch_sleepUnits ?_ | dsimp only | split)

theorem touch_execPowerSet {m : Fin 16} {s : State} {zt : State} (ht : execPowerSet m s = .next zt) : Touch 8285224606 s zt := by
  unfold execPowerSet at ht
  cases ht
  have hk := Touch.refl 8285224606 s
  repeat' (first | with_reducible assumption | intro _ _ hk | with_reducible apply touch_ite | with_reducible refine touch_beginNight ?_ | with_reducible refine touch_leaveNight ?_ | with_reducible refine touch_modPower ?_ | with_reducible refine touch_runCommand ?_ ?_ | with_reducible refine touch_setDevice ?_ | dsimp only | split)

theorem touch_execRetentionSelect {m : Fin 16} {s : State} {zt : State} (ht : execRetentionSelect m s = .next zt) : Touch 4966056984 s zt := by
  unfold execRetentionSelect at ht
  cases ht
  have hk := Touch.refl 4966056984 s
  repeat' (first | with_reducible assumption | intro _ _ hk | with_reducible apply touch_ite | with_reducible refine touch_modPower ?_ | with_reducible refine touch_runCommand ?_ ?_ | dsimp only | split)

theorem touch_execPrepareRemoval {m : Fin 16} {s : State} {zt : State} (ht : execPrepareRemoval m s = .next zt) : Touch 4974461978 s zt := by
  unfold execPrepareRemoval at ht
  cases ht
  have hk := Touch.refl 4974461978 s
  repeat' (first | with_reducible assumption | with_reducible refine touch_forEach ?_ ?_ | intro _ _ hk | with_reducible apply touch_ite | with_reducible refine touch_cancelAssume ?_ | with_reducible refine touch_modCell ?_ | with_reducible refine touch_modPower ?_ | with_reducible refine touch_runCommand ?_ ?_ | with_reducible refine touch_setDevice ?_ | dsimp only | split)

theorem touch_execRemovalDrainDone {s : State} {zt : State} (ht : execRemovalDrainDone s = .next zt) : Touch 8195833502 s zt := by
  unfold execRemovalDrainDone at ht
  cases ht
  have hk := Touch.refl 8195833502 s
  repeat' (first | with_reducible assumption | intro _ _ hk | with_reducible apply touch_ite | with_reducible refine touch_beginNight ?_ | with_reducible refine touch_modPower ?_ | dsimp only | split)

theorem touch_execDrainTimeout {now : Nat} {s : State} {zt : State} (ht : execDrainTimeout now s = .next zt) : Touch 8196357776 s zt := by
  unfold execDrainTimeout at ht
  cases ht
  have hk := Touch.refl 8196357776 s
  repeat' (first | with_reducible assumption | intro _ _ hk | with_reducible apply touch_ite | with_reducible refine touch_at ?_ | with_reducible refine touch_loseGrazing ?_ | dsimp only | split)

theorem touch_execEvacuateTimeout {now : Nat} {s : State} {zt : State} (ht : execEvacuateTimeout now s = .next zt) : Touch 4966581272 s zt := by
  unfold execEvacuateTimeout at ht
  cases ht
  have hk := Touch.refl 4966581272 s
  repeat' (first | with_reducible assumption | intro _ _ hk | with_reducible apply touch_ite | with_reducible refine touch_at ?_ | with_reducible refine touch_cancelRemoval ?_ | dsimp only | split)

theorem touch_execDevUnfence {m : Fin 16} {s : State} {zt : State} (ht : execDevUnfence m s = .next zt) : Touch 8195833502 s zt := by
  unfold execDevUnfence at ht
  cases ht
  have hk := Touch.refl 8195833502 s
  repeat' (first | with_reducible assumption | intro _ _ hk | with_reducible apply touch_ite | with_reducible refine touch_beginNight ?_ | with_reducible refine touch_runCommand ?_ ?_ | with_reducible refine touch_setDevice ?_ | dsimp only | split)

end Sys2Proof.Machine
end

