-- ==== Sys2Proof/Laws/TouchPackage.lean ====
section
/-! SUPPORT. Which parts of the state the operations of Sys2Proof/Machine/Package.lean may change. -/

namespace Sys2Proof.Machine

set_option linter.all false
set_option Elab.async false

theorem touch_deriveGrade {msk : Nat} {z0 : State} {s : State} (hk : Touch msk z0 s)
    (hw : msk &&& 1342177280 = 1342177280 := by decide) : Touch msk z0 (State.deriveGrade s) := by
  refine Touch.use hk hw (fun hk => ?_)
  unfold State.deriveGrade
  repeat' (first | with_reducible assumption | (rename_i hq; have hz := congrArg Prod.snd hq; dsimp only at hz; subst hz; try clear hq) | (have hz := congrArg Prod.snd ‹_ = (_, _)›; dsimp only at hz; subst hz) | intro _ _ hk | with_reducible apply touch_ite | with_reducible refine touch_modPkg ?_ | with_reducible refine touch_takeFree ?_ | dsimp only | split)

theorem touch_askFoldClocks {msk : Nat} {z0 : State} {s : State} (hk : Touch msk z0 s)
    (hw : msk &&& 2 = 2 := by decide) : Touch msk z0 (State.askFoldClocks s) := by
  refine Touch.use hk hw (fun hk => ?_)
  unfold State.askFoldClocks
  repeat' (first | with_reducible assumption | with_reducible refine touch_forEach ?_ ?_ | intro _ _ hk | with_reducible apply touch_ite | ((fail_if_success (with_reducible refine touch_eta ?_)); with_reducible refine touch_lit1 ?_) | dsimp only | split)

theorem touch_execPwrBrake {low : Bool} {s : State} {zt : State} (ht : execPwrBrake low s = .next zt) : Touch 268435458 s zt := by
  unfold execPwrBrake at ht
  cases ht
  have hk := Touch.refl 268435458 s
  repeat' (first | with_reducible assumption | intro _ _ hk | with_reducible apply touch_ite | with_reducible refine touch_askFoldClocks ?_ | with_reducible refine touch_modPkg ?_ | dsimp only | split)

theorem touch_hotEvidence {msk : Nat} {z0 : State} {x0 : Nat} {s : State} (hk : Touch msk z0 s)
    (hw : msk &&& 8388608 = 8388608 := by decide) : Touch msk z0 (State.hotEvidence x0 s) := by
  refine Touch.use hk hw (fun hq => ?_)
  suffices h : ∀ z, Touch 8388608 z s → Touch 8388608 z (State.hotEvidence x0 s) from h _ hq
  clear hq hk hw
  intro z0 hk
  induction x0 generalizing s with
  | zero =>
    first | exact hk | (simp only [State.hotEvidence]; repeat' (first | with_reducible assumption | intro _ _ hk | with_reducible apply touch_ite | with_reducible refine touch_evidence ?_ | dsimp only | split))
  | succ n ih =>
    simp only [State.hotEvidence]
    repeat' (first | with_reducible assumption | with_reducible apply ih | intro _ _ hk | with_reducible apply touch_ite | with_reducible refine touch_evidence ?_ | dsimp only | split)

theorem touch_execThermalSample {now : Nat} {readings : Readings} {s : State} {zt : State} (ht : execThermalSample now readings s = .next zt) : Touch 1351090178 s zt := by
  unfold execThermalSample at ht
  cases ht
  have hk := Touch.refl 1351090178 s
  repeat' (first | with_reducible assumption | intro _ _ hk | with_reducible apply touch_ite | with_reducible refine touch_askFoldClocks ?_ | with_reducible refine touch_at ?_ | with_reducible refine touch_deriveGrade ?_ | with_reducible refine touch_hotEvidence ?_ | with_reducible refine touch_modPkg ?_ | dsimp only | split)

theorem touch_latchReset {msk : Nat} {z0 : State} {s : State} (hk : Touch msk z0 s)
    (hw : msk &&& 7465861118 = 7465861118 := by decide) : Touch msk z0 (State.latchReset s) := by
  refine Touch.use hk hw (fun hk => ?_)
  unfold State.latchReset
  repeat' (first | with_reducible assumption | intro _ _ hk | with_reducible apply touch_ite | with_reducible refine touch_deviceReset ?_ | with_reducible refine touch_modPkg ?_ | dsimp only | split)

theorem touch_execThermalTrip {readings : Readings} {s : State} {zt : State} (ht : execThermalTrip readings s = .next zt) : Touch 7465861118 s zt := by
  unfold execThermalTrip at ht
  cases ht
  have hk := Touch.refl 7465861118 s
  repeat' (first | with_reducible assumption | intro _ _ hk | with_reducible apply touch_ite | with_reducible refine touch_latchReset ?_ | with_reducible refine touch_modPkg ?_ | dsimp only | split)

theorem touch_execRailFault {s : State} {zt : State} (ht : execRailFault s = .next zt) : Touch 7465861118 s zt := by
  unfold execRailFault at ht
  cases ht
  have hk := Touch.refl 7465861118 s
  repeat' (first | with_reducible assumption | intro _ _ hk | with_reducible apply touch_ite | with_reducible refine touch_latchReset ?_ | dsimp only | split)

theorem touch_signLast {msk : Nat} {z0 : State} {s : State} (hk : Touch msk z0 s)
    (hw : msk &&& 4928308248 = 4928308248 := by decide) : Touch msk z0 (State.signLast s) := by
  refine Touch.use hk hw (fun hk => ?_)
  unfold State.signLast
  repeat' (first | with_reducible assumption | intro _ _ hk | with_reducible apply touch_ite | with_reducible refine touch_signed ?_ | refine touch_sessionSign ?_ (by assumption) | dsimp only | split)

theorem touch_execPwrFail {s : State} {zt : State} (ht : execPwrFail s = .next zt) : Touch 7482638334 s zt := by
  unfold execPwrFail at ht
  cases ht
  have hk := Touch.refl 7482638334 s
  repeat' (first | with_reducible assumption | intro _ _ hk | with_reducible apply touch_ite | with_reducible refine touch_closeBatch ?_ | with_reducible refine touch_latchReset ?_ | with_reducible refine touch_ledger ?_ | with_reducible refine touch_signLast ?_ | dsimp only | split)

theorem touch_execFlashRequest {s : State} {zt : State} (ht : execFlashRequest s = .next zt) : Touch 268435456 s zt := by
  unfold execFlashRequest at ht
  cases ht
  have hk := Touch.refl 268435456 s
  repeat' (first | with_reducible assumption | intro _ _ hk | with_reducible apply touch_ite | with_reducible refine touch_modPkg ?_ | dsimp only | split)

theorem touch_execFlashRelease {s : State} {zt : State} (ht : execFlashRelease s = .next zt) : Touch 8553660062 s zt := by
  unfold execFlashRelease at ht
  cases ht
  have hk := Touch.refl 8553660062 s
  repeat' (first | with_reducible assumption | with_reducible refine touch_forEach ?_ ?_ | intro _ _ hk | with_reducible apply touch_ite | with_reducible refine touch_modHealth ?_ | with_reducible refine touch_modPkg ?_ | with_reducible refine touch_retryWaiting ?_ | with_reducible refine touch_writeBatch ?_ | dsimp only | split)

theorem touch_execJtagInstruction {i : Jtag} {s : State} {zt : State} (ht : execJtagInstruction i s = .next zt) : Touch 805306368 s zt := by
  unfold execJtagInstruction at ht
  cases ht
  have hk := Touch.refl 805306368 s
  repeat' (first | with_reducible assumption | intro _ _ hk | with_reducible apply touch_ite | with_reducible refine touch_emit ?_ | with_reducible refine touch_modPkg ?_ | dsimp only | split)

end Sys2Proof.Machine
end

