-- ==== Sys2Proof/Laws/TouchRegisters.lean ====
section
/-! SUPPORT. Which parts of the state the operations of Sys2Proof/Machine/Registers.lean may change. -/

namespace Sys2Proof.Machine

set_option linter.all false
set_option Elab.async false

theorem touch_managerOnly {msk : Nat} {z0 : State} {mapping : W32} {f : State → State} {s : State} (hk : Touch msk z0 s)
    (hf : Touch msk z0 (f s)) : Touch msk z0 (State.managerOnly mapping f s) := by
  unfold State.managerOnly
  split
  · exact hf
  · exact hk

theorem touch_writeMbx {msk : Nat} {z0 : State} {m : Nat} {mapping : W32} {r : Nat} {v : Nat} {s : State} (hk : Touch msk z0 s)
    (hw : msk &&& 8 = 8 := by decide) : Touch msk z0 (State.writeMbx m mapping r v s) := by
  refine Touch.use hk hw (fun hk => ?_)
  unfold State.writeMbx
  repeat' (first | with_reducible assumption | intro _ _ hk | with_reducible apply touch_ite | with_reducible refine touch_foreignWrite ?_ | with_reducible refine touch_modMbox ?_ | dsimp only | split)

theorem touch_fieldValue {msk : Nat} {z0 : State} {ok : Bool} {w : Nat} {v : Nat} {s : State} (hk : Touch msk z0 s)
    (hw : msk &&& 1073741824 = 1073741824 := by decide) : Touch msk z0 (State.fieldValue ok w v s).2 := by
  refine Touch.use hk hw (fun hk => ?_)
  unfold State.fieldValue
  repeat' (first | with_reducible assumption | (rename_i hq; have hz := congrArg Prod.snd hq; dsimp only at hz; subst hz; try clear hq) | (have hz := congrArg Prod.snd ‹_ = (_, _)›; dsimp only at hz; subst hz) | intro _ _ hk | with_reducible apply touch_ite | with_reducible refine touch_takeFree ?_ | dsimp only | split)

theorem touch_writeTimeCfg {msk : Nat} {z0 : State} {v : Nat} {s : State} (hk : Touch msk z0 s)
    (hw : msk &&& 1074266112 = 1074266112 := by decide) : Touch msk z0 (State.writeTimeCfg v s) := by
  refine Touch.use hk hw (fun hk => ?_)
  unfold State.writeTimeCfg
  repeat' (first | with_reducible assumption | (rename_i hq; have hz := congrArg Prod.snd hq; dsimp only at hz; subst hz; try clear hq) | (have hz := congrArg Prod.snd ‹_ = (_, _)›; dsimp only at hz; subst hz) | intro _ _ hk | with_reducible apply touch_ite | with_reducible refine touch_fieldValue ?_ | with_reducible refine touch_modTime ?_ | dsimp only | split)

theorem touch_writeFrameOffset {msk : Nat} {z0 : State} {v : Nat} {s : State} (hk : Touch msk z0 s)
    (hw : msk &&& 1074266112 = 1074266112 := by decide) : Touch msk z0 (State.writeFrameOffset v s) := by
  refine Touch.use hk hw (fun hk => ?_)
  unfold State.writeFrameOffset
  repeat' (first | with_reducible assumption | (rename_i hq; have hz := congrArg Prod.snd hq; dsimp only at hz; subst hz; try clear hq) | (have hz := congrArg Prod.snd ‹_ = (_, _)›; dsimp only at hz; subst hz) | intro _ _ hk | with_reducible apply touch_ite | with_reducible refine touch_fieldValue ?_ | with_reducible refine touch_modTime ?_ | dsimp only | split)

theorem touch_writeStepNs {msk : Nat} {z0 : State} {v : Nat} {s : State} (hk : Touch msk z0 s)
    (hw : msk &&& 1074266112 = 1074266112 := by decide) : Touch msk z0 (State.writeStepNs v s) := by
  refine Touch.use hk hw (fun hk => ?_)
  unfold State.writeStepNs
  repeat' (first | with_reducible assumption | (rename_i hq; have hz := congrArg Prod.snd hq; dsimp only at hz; subst hz; try clear hq) | (have hz := congrArg Prod.snd ‹_ = (_, _)›; dsimp only at hz; subst hz) | intro _ _ hk | with_reducible apply touch_ite | with_reducible refine touch_fieldValue ?_ | with_reducible refine touch_modTime ?_ | dsimp only | split)

theorem touch_writeDomCfg {msk : Nat} {z0 : State} {mirror : Bool} {v : Nat} {s : State} (hk : Touch msk z0 s)
    (hw : msk &&& 1074266112 = 1074266112 := by decide) : Touch msk z0 (State.writeDomCfg mirror v s) := by
  refine Touch.use hk hw (fun hk => ?_)
  unfold State.writeDomCfg
  repeat' (first | with_reducible assumption | (rename_i hq; have hz := congrArg Prod.snd hq; dsimp only at hz; subst hz; try clear hq) | (have hz := congrArg Prod.snd ‹_ = (_, _)›; dsimp only at hz; subst hz) | intro _ _ hk | with_reducible apply touch_ite | with_reducible refine touch_fieldValue ?_ | with_reducible refine touch_modDom ?_ | dsimp only | split)

theorem touch_writeDomain {msk : Nat} {z0 : State} {mirror : Bool} {r : Nat} {v : Nat} {s : State} (hk : Touch msk z0 s)
    (hw : msk &&& 1074266112 = 1074266112 := by decide) : Touch msk z0 (State.writeDomain mirror r v s) := by
  refine Touch.use hk hw (fun hk => ?_)
  unfold State.writeDomain
  repeat' (first | with_reducible assumption | intro _ _ hk | with_reducible apply touch_ite | with_reducible refine touch_modDom ?_ | with_reducible refine touch_writeDomCfg ?_ | dsimp only | split)

theorem touch_writeLaneAdj {msk : Nat} {z0 : State} {lane : Nat} {v : Nat} {s : State} (hk : Touch msk z0 s)
    (hw : msk &&& 262144 = 262144 := by decide) : Touch msk z0 (State.writeLaneAdj lane v s) := by
  refine Touch.use hk hw (fun hk => ?_)
  unfold State.writeLaneAdj
  repeat' (first | with_reducible assumption | intro _ _ hk | with_reducible apply touch_ite | with_reducible refine touch_modLane ?_ | dsimp only | split)

theorem touch_writeTimeReg {msk : Nat} {z0 : State} {r : Nat} {v : Nat} {s : State} (hk : Touch msk z0 s)
    (hw : msk &&& 1074528256 = 1074528256 := by decide) : Touch msk z0 (State.writeTimeReg r v s) := by
  refine Touch.use hk hw (fun hk => ?_)
  unfold State.writeTimeReg
  repeat' (first | with_reducible assumption | intro _ _ hk | with_reducible apply touch_ite | with_reducible refine touch_modTime ?_ | with_reducible refine touch_popCapture ?_ | with_reducible refine touch_writeDomain ?_ | with_reducible refine touch_writeFrameOffset ?_ | with_reducible refine touch_writeLaneAdj ?_ | with_reducible refine touch_writeStepNs ?_ | with_reducible refine touch_writeTimeCfg ?_ | dsimp only | split)

theorem touch_writeRing {msk : Nat} {z0 : State} {k : Nat} {mapping : W32} {r : Nat} {v : Nat} {s : State} (hk : Touch msk z0 s)
    (hw : msk &&& 4831839248 = 4831839248 := by decide) : Touch msk z0 (State.writeRing k mapping r v s) := by
  refine Touch.use hk hw (fun hk => ?_)
  unfold State.writeRing
  repeat' (first | with_reducible assumption | intro _ _ hk | with_reducible apply touch_ite | with_reducible refine touch_evrArm ?_ | with_reducible refine touch_evrHead ?_ | dsimp only | split)

theorem touch_writeLogHead {msk : Nat} {z0 : State} {v : Nat} {s : State} (hk : Touch msk z0 s)
    (hw : msk &&& 4299162624 = 4299162624 := by decide) : Touch msk z0 (State.writeLogHead v s) := by
  refine Touch.use hk hw (fun hk => ?_)
  unfold State.writeLogHead
  repeat' (first | with_reducible assumption | intro _ _ hk | with_reducible apply touch_ite | with_reducible refine touch_modProv ?_ | with_reducible refine touch_provFlush ?_ | dsimp only | split)

theorem touch_writeDevice {msk : Nat} {z0 : State} {mapping : W32} {r : Nat} {v : Nat} {s : State} (hk : Touch msk z0 s)
    (hw : msk &&& 4512056576 = 4512056576 := by decide) : Touch msk z0 (State.writeDevice mapping r v s) := by
  refine Touch.use hk hw (fun hk => ?_)
  unfold State.writeDevice
  repeat' (first | with_reducible assumption | intro _ _ hk | with_reducible apply touch_ite | with_reducible refine touch_managerOnly ?_ ?_ | with_reducible refine touch_modFab ?_ | with_reducible refine touch_modFabMem ?_ | with_reducible refine touch_modHealth ?_ | with_reducible refine touch_modPower ?_ | with_reducible refine touch_modProv ?_ | with_reducible refine touch_modSec ?_ | with_reducible refine touch_modShep ?_ | with_reducible refine touch_writeLogHead ?_ | ((fail_if_success (with_reducible refine touch_eta ?_)); with_reducible refine touch_lit8 ?_) | dsimp only | split)

theorem touch_writeFhPort {msk : Nat} {z0 : State} {p : Nat} {mapping : W32} {r : Nat} {v : Nat} {s : State} (hk : Touch msk z0 s)
    (hw : msk &&& 262144 = 262144 := by decide) : Touch msk z0 (State.writeFhPort p mapping r v s) := by
  refine Touch.use hk hw (fun hk => ?_)
  unfold State.writeFhPort
  repeat' (first | with_reducible assumption | intro _ _ hk | with_reducible apply touch_ite | with_reducible refine touch_managerOnly ?_ ?_ | with_reducible refine touch_modFhPort ?_ | with_reducible refine touch_modLane ?_ | dsimp only | split)

theorem touch_writeUnit {msk : Nat} {z0 : State} {u : UnitId} {mapping : W32} {r : Nat} {v : Nat} {s : State} (hk : Touch msk z0 s)
    (hw : msk &&& 4512337664 = 4512337664 := by decide) : Touch msk z0 (State.writeUnit u mapping r v s) := by
  refine Touch.use hk hw (fun hk => ?_)
  unfold State.writeUnit
  repeat' (first | with_reducible assumption | intro _ _ hk | with_reducible apply touch_ite | with_reducible refine touch_modEngine ?_ | with_reducible refine touch_modFold ?_ | with_reducible refine touch_modFport ?_ | with_reducible refine touch_modMover ?_ | with_reducible refine touch_modSigCore ?_ | with_reducible refine touch_modStackCtl ?_ | with_reducible refine touch_writeDevice ?_ | with_reducible refine touch_writeFhPort ?_ | dsimp only | split)

theorem touch_writeBlocks {msk : Nat} {z0 : State} {mapping : W32} {offset : Nat} {v : Nat} {s : State} (hk : Touch msk z0 s)
    (hw : msk &&& 4512337664 = 4512337664 := by decide) : Touch msk z0 (State.writeBlocks mapping offset v s) := by
  refine Touch.use hk hw (fun hk => ?_)
  unfold State.writeBlocks
  repeat' (first | with_reducible assumption | intro _ _ hk | with_reducible apply touch_ite | with_reducible refine touch_writeUnit ?_ | dsimp only | split)

theorem touch_writeWord {msk : Nat} {z0 : State} {mapping : W32} {offset : Nat} {v : Nat} {s : State} (hk : Touch msk z0 s)
    (hw : msk &&& 6123474712 = 6123474712 := by decide) : Touch msk z0 (State.writeWord mapping offset v s) := by
  refine Touch.use hk hw (fun hk => ?_)
  unfold State.writeWord
  repeat' (first | with_reducible assumption | intro _ _ hk | with_reducible apply touch_ite | with_reducible refine touch_managerOnly ?_ ?_ | with_reducible refine touch_writeBlocks ?_ | with_reducible refine touch_writeMbx ?_ | with_reducible refine touch_writeRing ?_ | with_reducible refine touch_writeTimeReg ?_ | dsimp only | split)

theorem touch_execRegisterWrite {mapping : W32} {offset : Nat} {wide : Bool} {value : W64} {s : State} {zt : State} (ht : execRegisterWrite mapping offset wide value s = .next zt) : Touch 8270966744 s zt := by
  unfold execRegisterWrite at ht
  cases ht
  have hk := Touch.refl 8270966744 s
  repeat' (first | with_reducible assumption | intro _ _ hk | with_reducible apply touch_ite | with_reducible refine touch_doorbellWrite ?_ | with_reducible refine touch_writeWord ?_ | dsimp only | split)

end Sys2Proof.Machine
end

