-- ==== Sys2Proof/WellFormed.lean ====
section
/-! DEFINITION. Which commands are well formed: every number an operand carries lies where its field of the spec can
hold it, every byte string has the length its layout gives. A command that is not well formed has no counterpart on
the hardware; `exec` answers for it all the same. -/

namespace Sys2Proof.WellFormed

/-- First INDEX and count of each unit type (Table 02-2); stacks carry their die numbers 16 to 31. -/
def indexRange : UnitType → Nat × Nat
  | .device => (0, 1) | .die => (0, 5) | .stack => (16, 16) | .fold => (0, 34) | .sigCore => (0, 384)
  | .sigGroup => (0, 48) | .engine => (0, 100) | .ctlCore => (0, 8) | .stackCtl => (0, 16)
  | .fabPort => (0, 32) | .fhPort => (0, 8) | .dma => (0, 64) | .commons => (0, 2) | .collector => (0, 2)

/-- The unit is one of Table 02-2. -/
def unit (u : UnitId) : Bool :=
  decide ((indexRange u.ty).1 ≤ u.idx ∧ u.idx < (indexRange u.ty).1 + (indexRange u.ty).2)

/-- The clock island is one of Table 01-3; its ports are the 32 fabric and 8 fronthaul ports. -/
def island (k : IslandKind) (i : Nat) : Bool :=
  decide (i < (match k with
    | .fold => 34 | .group => 48 | .engine => 100 | .noc => 40 | .ctlCore => 8 | .stackCtl => 16 | .port => 40))

/-- A register's offset lies in the 64 MiB control window, on a 32-bit boundary (R33). -/
def register (offset : Nat) : Bool := decide (offset < 0x0400_0000 ∧ offset % 4 = 0)

/-- An offset within a doorbell page (R36). -/
def page (offset : Nat) : Bool := decide (offset < 4096)

/-- A queue number has 20 bits (Table 03-13). -/
def queue (q : Nat) : Bool := decide (q < 2 ^ 20)

/-- A node number has 12 bits (Table 15-5). -/
def node (n : Option Nat) : Bool := match n with | none => true | some n => decide (n < 4096)

/-- A job or a DMA descriptor has 64 bytes (R284, Table 12-2). -/
def block (b : Bytes) : Bool := decide (b.length = 64)

/-- A signal-core image fits the 128 KiB of program memory (Table 08-1). -/
def program (n : Nat) : Bool := decide (n ≤ 131072)

/-- An access to the coherent memory window lies within its 2 TiB, and a write brings as many bytes as it says (R37). -/
def access (offset len : Nat) (r : CohReq) : Bool :=
  decide (0 < len ∧ offset + len ≤ 2 ^ 41) && (match r with | .read => true | .write d => decide (d.length = len))

/-- A header's fields fit Table 15-5, and the payload has 32 bytes for each codeword (R466). -/
def packet (p : Packet) : Bool :=
  decide (p.h.codewords ≤ 8 ∧ p.data.length = 32 * p.h.codewords ∧ p.h.dst < 4096 ∧ p.h.src < 4096 ∧ p.h.hops < 64 ∧
    p.h.srcInc < 2 ^ 32 ∧ p.h.seq < 2 ^ 24 ∧ p.h.rlen ≤ 8 ∧ p.h.addr < 2 ^ 48 ∧ p.h.keyIndex < 2 ^ 16)

/-- A NODE_TABLE entry names a node number and at most four version slots. -/
def entry (e : NodeEntry) : Bool := decide (e.node < 4096 ∧ e.versions.length ≤ 4)

/-- A LINK_REPORT link names a port and at most eight lanes (R450). -/
def link (l : LinkInfo) : Bool := decide (l.port < 32 ∧ l.lanes ≤ 8)

/-- A CREDIT flit returns credits for four virtual channels (Table 15-4). -/
def credits (l : List Nat) : Bool := decide (l.length = 4) && l.all (fun c => decide (c < 4096))

/-- Readings are keyed by dies 0 to 4 and stacks 16 to 31 (R664). -/
def readings (l : Readings) : Bool := l.all (fun p => decide (p.1 < 5 ∨ 16 ≤ p.1 ∧ p.1 < 32))

/-- A line of HBM as the companion names it, 64 bytes each (R641). -/
def line (l : Nat) : Bool := decide (l < 2 ^ 35)

/-- A whole line of data (R641). -/
def lineData (d : Option Bytes) : Bool := match d with | none => true | some b => decide (b.length = 64)

end Sys2Proof.WellFormed

namespace Sys2Proof

open WellFormed in
/-- The command is well formed. -/
def Instr.wellFormed (i : Instr) : Bool :=
  match i with
  | .unitReset u | .unitSelfTestDone u _ | .retentionCheckDone u _ | .scrubStep u _ _ _ | .patrolTick _ u
  | .patrolResult u _ _ => unit u
  | .fatalFault (.unit u) => unit u
  | .retestDone _ us _ _ _ _ _ => us.all unit
  | .islandClockChange k i _ => island k i
  | .registerWrite _ offset _ _ => register offset
  | .doorbell _ _ offset _ _ => page offset
  | .taskPlace q | .egressDeadlineExpiry _ q | .queueEvict _ q | .fabRequestSend _ q => queue q
  | .helloRx _ _ _ n _ _ _ | .refreshRx _ _ _ n _ _ _ => node n
  | .jobPost _ _ b | .dmaDescriptorPost _ _ b => block b
  | .programLoad _ _ r _ => program r.size
  | .coherentAccess _ offset len r => access offset len r.msg
  | .packetForward _ p | .packetDeliver _ p | .fabReadRx p | .fabWriteRx p | .fabFlagRx p | .fabAtomicRx p
  | .fabAckRx p | .fabCollRx p | .fabResponseRx _ p => packet p
  | .nodeTableRx _ _ _ _ _ es => es.all entry
  | .linkReportRx _ _ _ ls => ls.all link
  | .creditRx _ _ _ l => credits l
  | .thermalSample _ l | .thermalTrip l => readings l
  | .companionOwnershipRequest l _ | .recallTimeout l => line l
  | .companionSnoop l => line l.msg
  | .snoopReply l d => line l && lineData d.msg
  | _ => true

end Sys2Proof
end

