-- ==== Sys2Proof/Tests/Slice0.lean ====
section
/-! SUPPORT. Tests: ill-formed commands that WellFormed refuses, states that meet the hypotheses of the statements, and
small runs of single commands against values of the spec. -/

open Sys2Proof Sys2Proof.Machine

set_option Elab.async false

/-- A command slot of a mailbox with opcode, argument bytes and ARG_LENGTH. -/
def wCmd (op : Nat) (args : Bytes) : Cmd :=
  { opcode := op, version := 0, seq := 1, instId := 0, indirect := false, argLength := args.length, argPointer := 0, args,
    slot := 0, session := 0 }
/-- A device in a state, with a command taken up from a mailbox. -/
def wTaken (d : DState) (m : Nat) (c : Cmd) : State :=
  { State.reset with dev := { dstate := d }, mboxes := [(m, { current := some c })] }
/-- An LTE cell of 5 MHz with two antennas, as Table 09-3 lays it out. -/
def wCellBytes : Bytes := [1, 0, 0, 0, 50, 0, 2, 2, 1, 1, 0, 0] ++ List.replicate 52 0
/-- A device in a state, with fold 3 eligible and a command taken up from mailbox 0. -/
def wRadio (d : DState) (c : Cmd) : State :=
  { wTaken d 0 c with
    time := { everLocked := true }
    units := { entries := [(2 * 65536, { state := .ready }), (4 * 65536 + 3, { state := .ready })] }
    folds := [(3, { slots := [(0, { radio := true, state := .idle })] })] }
/-- Instance 3 in a state, with a command taken up from mailbox 0 for instance `inst`, on a SERVING device. -/
def wInst (op : Nat) (args : Bytes) (inst : Nat) (st : IState) : State :=
  { wTaken .serving 0 { wCmd op args with instId := inst } with insts := [(3, { state := st, generation := 1 })] }

/-- A packet whose header is zeros but for the fields named. -/
def wPacket (src dst keyIndex seq : Nat) (data : Bytes) (codewords : Nat) : Packet :=
  { h := { vc := 0, epoch := 0, op := 0, codewords, dst, src, version := 0, hops := 0, ce := false, srcInc := 0, seq, space := false,
           rlen := 0, addr := 0, keyIndex, keyValue := 0, hcrc := 0 }, data, poison := false }

/-- Region 7 open over 64 KiB of object 5 in T1, a packet handed over, on a device in a state. -/
def wInbox (d : DState) (p : Packet) : State :=
  { State.reset with
    dev := { dstate := d }
    tiers := { objs := [(5, { live := true, refGen := 1, kind := 2, size := 131072, holders := [0]
                              copies := [{ tier := 1, place := .plain, state := .resident, parts := [⟨.hbm, [0, 65536]⟩] }] })] }
    fabMem := { regions := [(7, { state := .open', read := true, write := true, atomic := true, length := 65536, obj := 5, objGen := 1, keyIndex := 1 })] }
    fab := { inbox := [p] } }
/-- A packet of a kind from node 3 towards offset 0 with key 1. -/
def wRx (op : Fin 16) (rlen : Nat) : Packet := { wPacket 3 0 1 9 (List.replicate 32 0#8) 1 with h := { (wPacket 3 0 1 9 [] 1).h with op, rlen, version := 0x0302 } }

/-- Descriptor 0 posted by queue 0 towards node 3, with a COPY_PUT's or a flag's bytes. -/
def wDesc (d : FabDesc) : State :=
  { State.reset with dev := { dstate := .serving }, fabMem := { descs := [(0, some d)], nextDesc := 1, failed := [(3, some (0, 1, .capacity))] } }

/-- Port 1 in a state. -/
def wPort (x : FabPort) : State := { State.reset with fab := { ports := [(1, x)] } }

/-- A device outside ROM whose port 1 is UP, with what its fabric block holds. -/
def wFlock (f : Fabric) : State := { State.reset with dev := { dstate := .serving }, fab := { f with ports := [(1, { link := .up })] } }

/-- The link ACTIVE, line 3 held in a state, and perhaps its recall pending. -/
def wFilter (st : LineState) (recalls : List (Nat × List Held)) : State :=
  { State.reset with dev := { dstate := .serving }, power := { fyf := .active, filter := [(3, (st, 0))], recalls } }

/-- A tile of one row at M = 64 in BF16, held at its end, over object 5. -/
def wEntry (start : Nat) : TileEntry :=
  { shape := 0, start, endAt := 1, wfmt := 1, sfmt := 1, rows := 1, passes := 1, weight := 5 + 2 ^ 20 + 3 * 2 ^ 32, wk := 16 }
/-- The tile of slot 1, begun or not. -/
def wTile (begun : Bool) : Tile :=
  { slot := 1, index := 0, entry := wEntry 0, passes := [{}], into := [0], header := parseWHeader [], begun, since := 0 }
/-- Fold 3 READY on a SERVING device, context 9 of instance 3 RUNNING in slot 1 with a task of one tile, and what else the fold
holds. -/
def wArray (st : Status) (tiles : List (TileEntry × List PassEntry)) (x : Fold) : State :=
  { State.reset with
    dev := { dstate := .serving }
    units := { entries := (List.range 5).map (fun d => (2 * 65536 + d, { state := .ready })) ++ [(4 * 65536 + 3, { state := .ready })] }
    tiers := { objs := [(5, { live := true, refGen := 1, kind := 1, headerless := true, size := 131072, holders := [3]
                              copies := [{ tier := 1, place := .plain, state := .resident, parts := [⟨.hbm, [0, 65536]⟩] }] })] }
    insts := [(3, { state := .active, generation := 1 })]
    folds := [(3, { x with slots := [(1, { state := .running, inst := 3, ctxId := 9, phys := 4, logical := 4, shareSize := 65536, task := some 4 })] })]
    disp := { tasks := [(4, some { desc := { (parseTask (List.replicate 256 0#8)) with inst := 3, tileCount := 1 }, queue := 70000, tiles, ranks := [(3, 1)], status := st })] } }

/-! ## Ill-formed commands that WellFormed refuses -/

theorem test_wf_unit : (Instr.unitReset ⟨.fold, 34⟩).wellFormed = false := by decide
theorem test_wf_stack : (Instr.unitReset ⟨.stack, 3⟩).wellFormed = false := by decide
theorem test_wf_island : (Instr.islandClockChange .group 48 false).wellFormed = false := by decide
theorem test_wf_register : (Instr.registerWrite 0 0x0400_0000 false 0).wellFormed = false := by decide
theorem test_wf_page : (Instr.doorbell 1 0 4096 true 0).wellFormed = false := by decide
theorem test_wf_queue : (Instr.taskPlace (2 ^ 20)).wellFormed = false := by decide
theorem test_wf_node : (Instr.helloRx 0 0 0 (some 4096) [] 0 0).wellFormed = false := by decide
theorem test_wf_block : (Instr.jobPost 0 false [0]).wellFormed = false := by decide
theorem test_wf_access : (Instr.coherentAccess 0 (2 ^ 41) 1 ⟨.read, {}⟩).wellFormed = false := by decide
theorem test_wf_packet : (Instr.fabReadRx (wPacket 4096 0 0 0 [] 0)).wellFormed = false := by decide
theorem test_wf_entry : (Instr.nodeTableRx 0 0 0 0 true [⟨4096, 0, 0, true, []⟩]).wellFormed = false := by decide
theorem test_wf_link : (Instr.linkReportRx 0 0 0 [⟨0, 0, 9, true⟩]).wellFormed = false := by decide
theorem test_wf_credits : (Instr.creditRx 0 0 false [1, 2, 3]).wellFormed = false := by decide
theorem test_wf_line : (Instr.companionSnoop ⟨2 ^ 35, {}⟩).wellFormed = false := by decide
theorem test_wf_data : (Instr.snoopReply 0 ⟨some [1], {}⟩).wellFormed = false := by decide
theorem test_wf_last : (Instr.unitReset ⟨.engine, 99⟩).wellFormed = true := by decide
theorem test_wf_readings : (Instr.thermalSample 0 [(5, 0)]).wellFormed = false := by decide
theorem test_wf_program : (Instr.programLoad 0 [] ⟨0, 131073⟩ 0).wellFormed = false := by decide

/-! ## States that meet the hypotheses of the statements -/

theorem test_w_G00_front : ∃ (c : Instr) (s : State), s.pending = c :: [] := ⟨.boardReset, { State.reset with pending := [.boardReset] }, rfl⟩
theorem test_w_G00_idle : State.reset.pending = [] := rfl

theorem test_w_G00_wf : ∃ s t, step s = .next t ∧ s.mem.wf = true ∧ s.settings.legal :=
  ⟨State.reset, _, rfl, rfl, by unfold Settings.legal; decide⟩

theorem test_w_G00_next : ∃ s t, step s = .next t := ⟨State.reset, _, rfl⟩

theorem test_w_G00_idleRow : ∃ s : State, ∀ m : Fin 16, ∀ c, (s.mbox m).current = some c → c.opcode ≠ 0x0005 ∨ (s.core (serverOf m)).restarting = true :=
  ⟨State.reset, by decide⟩

/-- A state right after the release of the board reset, with a recovery load under way. -/
def wRom : State :=
  { State.reset with pkg := { resetHigh := true }, sec := { recovery := [(0, 25, 64, true, 1)] } }
theorem test_w_BoardResetAndBringUp_release : State.reset.pkg.resetHigh = false ∧ State.reset.pkg.latched = false := ⟨rfl, rfl⟩
theorem test_w_BoardResetAndBringUp_verify :
    let s : State := { State.reset with pkg := { resetHigh := true } }
    s.dev.dstate = .rom ∧ s.pkg.resetHigh = true ∧ s.pkg.latched = false ∧ s.sec.tried = false ∧ s.sec.recovery = [] ∧
      s.sec.recoveryImage = none := ⟨rfl, rfl, rfl, rfl, rfl, rfl⟩
theorem test_w_BoardResetAndBringUp_recovery :
    wRom.dev.dstate = .rom ∧ wRom.sec.recovery = (0, 25, 64, true, 1) :: [] := ⟨rfl, rfl⟩
theorem test_w_BoardResetAndBringUp_persist :
    let s : State := { State.reset with dev := { dstate := .loaded }, sec := { recoveryImage := some ([], true) } }
    s.sec.recoveryImage = some ([], true) ∧ s.dev.dstate ≠ .rom ∧ s.sec.persistDone = false ∧ s.pkg.flashGranted = false :=
  ⟨rfl, by decide, rfl, rfl⟩

theorem test_w_G02_recovery : ∃ s c, Taken s 0 0x07F0 c ∧ 25 ≤ c.argLength ∧ c.arg 0x20 8 % 4096 = 0 ∧ c.arg 0x30 8 % 64 = 0 ∧
    s.dev.dstate = .rom ∧ (s.mbox 0).long.length < 4 :=
  ⟨wTaken .rom 0 (wCmd 0x07F0 (List.replicate 25 0#8)), wCmd 0x07F0 (List.replicate 25 0#8), by unfold Taken; decide⟩
theorem test_w_G02_configure : ∃ s c, Taken s 0 0x0004 c ∧ c.argLength = 0 ∧ s.dev.dstate = .loaded ∧ s.unreserved = false :=
  ⟨wTaken .loaded 0 (wCmd 0x0004 []), wCmd 0x0004 [], by unfold Taken; decide +kernel⟩
theorem test_w_G02_commit : ∃ s c, Taken s 0 0x0005 c ∧ c.argLength = 0 ∧ s.dev.dstate = .configuring ∧ s.time.everLocked = true :=
  ⟨{ wTaken .configuring 0 (wCmd 0x0005 []) with time := { everLocked := true } }, wCmd 0x0005 [], by unfold Taken; decide⟩
theorem test_w_G02_reset : ∃ s c, Taken s 0 0x0006 c ∧ c.argLength = 0 :=
  ⟨wTaken .serving 0 (wCmd 0x0006 []), wCmd 0x0006 [], by unfold Taken; decide⟩
theorem test_w_G02_debug : ∃ s c, Taken s 0 0x0008 c ∧ c.argLength = 1 ∧ c.arg 0x20 1 ≤ 1 ∧ s.dev.dstate ≠ .rom :=
  ⟨wTaken .loaded 0 (wCmd 0x0008 [1#8]), wCmd 0x0008 [1#8], by unfold Taken; decide⟩

theorem test_w_G03_measure : ∃ s c, Taken s 0 0x0702 c ∧ (c.argLength = 0 ∨ c.arg 0x20 1 ≤ 15) ∧ s.dev.dstate ≠ .rom :=
  ⟨wTaken .serving 0 (wCmd 0x0702 []), wCmd 0x0702 [], by unfold Taken; decide⟩
theorem test_w_G03_key : ∃ s : State, (s.core 7).restarting = false ∧ s.dev.dstate ≠ .rom ∧ s.sec.sessionReady = false ∧ s.sec.sessionNext < 65536 ∧
    s.sec.idExhausted = false ∧ s.sec.idUsed = false ∧ s.fuses.idSteps < 16384 := ⟨{ dev := { dstate := .loaded } }, by decide⟩
theorem test_w_G03_sign : ∃ s : State, ∃ now q, (s.core 7).restarting = false ∧ s.sec.nextReq = some (.batch q) ∧ s.sec.sessionReady = true ∧ s.sec.sessionNext < 65535 ∧
    (s.sec.signTimes.filter (fun x => decide ((s.at now).time.now < x + 1000000000))).length < 200 :=
  ⟨{ sec := { sessionReady := true, queue := [.batch 0] } }, 0, 0, by decide⟩

/-- A device out of reset, in SERVING, with a session key, a signed root and a ledger batch. -/
def wAttests : State :=
  { dev := { dstate := .serving }, pkg := { resetHigh := true }, sec := { sessionReady := true, roots := [{ interval := 0, block := [], signature := [] }] } }
theorem test_w_G04_cert : ∃ s : State, ∃ body, s.attests = true ∧ s.dev.dstate ≠ .rom ∧ body.length = 3 ∧ byteAt body 0 = 2 ∧
    s.sec.sessionReady = true ∧ fieldAt body 1 2 ≤ s.sec.sessionCert.length := ⟨wAttests, [2, 0, 0], by decide⟩
theorem test_w_G04_quote : ∃ s : State, ∃ now, ∃ body : Bytes, s.attests = true ∧ s.dev.dstate ≠ .rom ∧ body.length = 34 ∧ s.sec.spent = false ∧
    s.sec.sessionReady = true ∧ s.sec.queue.length ≤ 64 ∧
    (s.sec.quoteTimes.filter (fun t => decide ((s.at now).time.now < t + 1000000000))).length < 10 :=
  ⟨wAttests, 0, List.replicate 34 0, by decide⟩
theorem test_w_G04_root : ∃ s : State, ∃ body r, s.attests = true ∧ s.dev.dstate ≠ .rom ∧ body.length = 4 ∧ s.sec.sessionReady = true ∧
    s.sec.roots.find? (fun r => r.interval == fieldAt body 0 4) = some r :=
  ⟨wAttests, [0, 0, 0, 0], { interval := 0, block := [], signature := [] }, by decide⟩
theorem test_w_G04_code : wAttests.attests = true ∧ ¬ (1 ≤ (6#8).toNat ∧ (6#8).toNat ≤ 5) ∧ (2#8) ≠ 1 := by decide
theorem test_w_G04_reset : State.reset.attests = false := by decide
theorem test_w_G04_head : ∃ s : State, ∃ b rest, s.attests = true ∧ s.dev.dstate ≠ .rom ∧ s.flash.batches = b :: rest :=
  ⟨{ wAttests with flash := { batches := [{ seq := 1, devInc := 1, prev := [], records := [], signature := none }] } }, _, [],
    by decide, by decide, rfl⟩

theorem test_w_G05_batch : ∃ s : State, ∃ now r rs, s.health.waiting = r :: rs ∧ (s.core 6).restarting = false ∧ s.dev.dstate ≠ .rom ∧
    s.pkg.flashGranted = false ∧ (s.health.waitingSince + 1000000000 ≤ (s.at now).time.now ∨
      65536 ≤ (s.health.waiting.map (fun r => (ledgerBytes r).length)).sum) ∧ (∀ u ∈ allUnits, (s.unit u).waitsReserve = false) :=
  ⟨{ dev := { dstate := .serving }, health := { waiting := [State.reset.mkRecord 17 theDevice (.progress []) false] } }, 1000000000, _, [], rfl,
    by decide, by decide, rfl, .inl (by decide), fun _ _ => rfl⟩
theorem test_w_G05_progress : ∃ s c, Taken s 0 0x060B c ∧ s.dev.dstate ≠ .rom :=
  ⟨wTaken .serving 0 (wCmd 0x060B []), wCmd 0x060B [], by unfold Taken; decide⟩
theorem test_w_G05_periodic : ∃ s : State, (s.core 6).restarting = false ∧ s.dev.dstate ≠ .rom ∧ 16 * 2 ^ 20 ≤ s.ledgerFree ∧ s.pkg.flashGranted = false :=
  ⟨{ dev := { dstate := .serving } }, by decide⟩
theorem test_w_G05_read : ∃ s c, Taken s 0 0x060A c ∧ 28 ≤ c.argLength ∧ s.dev.dstate ≠ .rom ∧ (s.mbox 0).long.length < 4 :=
  ⟨wTaken .serving 0 (wCmd 0x060A (List.replicate 28 0)), wCmd 0x060A (List.replicate 28 0), by unfold Taken; decide⟩
theorem test_w_G05_done : ∃ s : State, ∃ r, s.health.reads.find? (fun r => r.1 == (0 : Fin 16).val) = some r :=
  ⟨{ health := { reads := [(0, 1, 0, [])] } }, (0, 1, 0, []), rfl⟩

theorem test_w_G06_out : ∃ s : State, s.outOfReset = true ∧ s.pkg.resetHigh = true := ⟨{ pkg := { resetHigh := true } }, by decide⟩
theorem test_w_G06_trip : anyTrip [(0, 115 * 16)] = true ∧ anyTrip [(16, 105 * 16 - 1)] = false := by decide

theorem test_w_G07_release : ∃ s : State, (∀ u ∈ allUnits, (s.unit u).waitsReserve = false) ∧ (∀ b ∈ s.health.heldBatches, b.isEmpty = false) :=
  ⟨{ health := { heldBatches := [[State.reset.mkRecord 17 theDevice (.progress []) false]] } }, fun _ _ => rfl, by decide⟩
theorem test_w_G07_low : State.reset.pkg.resetHigh = false ∧ State.reset.dev.dstate = .rom ∧ State.reset.sec.tried = false := by decide
theorem test_w_G07_high : ({ pkg := { resetHigh := true } } : State).pkg.resetHigh = true := rfl

theorem test_w_G08_night : ∃ s : State, s.dev.dstate = .night ∧ s.power.entering = true ∧ s.moversQuiet = true ∧ s.power.wakeAfter = [] :=
  ⟨{ dev := { dstate := .night }, power := { entering := true } }, by decide⟩
theorem test_w_G08_full : ∃ s c, Taken s 0 0x0801 c ∧ c.argLength = 1 ∧ c.arg 0x20 1 = 0 ∧ s.dev.dstate = .dusk ∧ (s.mbox 0).long.length < 4 :=
  ⟨wTaken .dusk 0 (wCmd 0x0801 [0#8]), wCmd 0x0801 [0#8], by unfold Taken; decide⟩
theorem test_w_G08_dusk : ∃ s c, Taken s 0 0x0801 c ∧ c.argLength = 1 ∧ c.arg 0x20 1 = 1 ∧ s.dev.dstate = .serving ∧ (s.mbox 0).long.length < 4 :=
  ⟨wTaken .serving 0 (wCmd 0x0801 [1#8]), wCmd 0x0801 [1#8], by unfold Taken; decide⟩
theorem test_w_G08_enter : ∃ s c, Taken s 0 0x0801 c ∧ c.argLength = 1 ∧ c.arg 0x20 1 = 2 ∧ s.dev.dstate = .dusk ∧ s.reservedCells = [] ∧
    (s.mbox 0).long.length < 4 := ⟨wTaken .dusk 0 (wCmd 0x0801 [2#8]), wCmd 0x0801 [2#8], by unfold Taken; decide⟩
theorem test_w_G08_later : ∃ s c, Taken s 0 0x0801 c ∧ c.argLength = 1 ∧ c.arg 0x20 1 = 0 ∧ s.dev.dstate = .night ∧ s.power.entering = true ∧
    (s.mbox 0).long.length < 4 :=
  ⟨{ wTaken .night 0 (wCmd 0x0801 [0#8]) with power := { entering := true } }, wCmd 0x0801 [0#8], by unfold Taken; decide⟩
theorem test_w_G08_retention : ∃ s c, Taken s 0 0x0803 c ∧ 12 ≤ c.argLength ∧
    ((List.range 32).filter (fun i => bitOf (c.arg 0x28 4) i)).length ≤ 4 ∧ s.dev.dstate = .serving :=
  ⟨wTaken .serving 0 (wCmd 0x0803 (List.replicate 12 0#8)), wCmd 0x0803 (List.replicate 12 0#8), by unfold Taken; decide⟩
/-- A RETEST certificate that names this device, with RESULT 1 and no signature bytes. -/
def wCert : Bytes := List.replicate 6 0#8 ++ [1#8] ++ List.replicate 123 0#8
theorem test_w_G08_unfence : ∃ s c, Taken s 0 0x0605 c ∧ c.indirect = true ∧ 0x82 ≤ c.argLength ∧ s.dev.dstate = .fenced ∧ s.unfenceBad c = false ∧ unfenceTo s.dev.fencedFrom ≠ .night :=
  ⟨{ wTaken .fenced 0 { wCmd 0x0605 wCert with indirect := true } with health := { certificates := [wCert] }, fuses := { uid := 0 } },
    { wCmd 0x0605 wCert with indirect := true }, by unfold Taken; decide +kernel⟩

/-- A device in DRAINING with a removal pending. -/
def wRemoval : State := { dev := { dstate := .draining }, power := { removal := some (0, 1, true, 2, 5, 7) } }
theorem test_w_G09_prepare : ∃ s c, Taken s 0 0x0802 c ∧ 8 ≤ c.argLength ∧ c.arg 0x20 1 = 1 ∧ c.arg 0x24 4 ≤ 10000 ∧
    (s.node (c.arg 0x22 2)).live = true ∧ s.dev.dstate = .serving ∧ s.changesBlocked = false ∧ s.health.assuming = [] ∧ (s.mbox 0).long.length < 4 :=
  ⟨{ wTaken .serving 0 (wCmd 0x0802 [1, 0, 0, 0, 0, 0, 0, 0]) with fab := { nodes := [(0, { uid := 1, live := true })] } }, wCmd 0x0802 [1, 0, 0, 0, 0, 0, 0, 0],
    by unfold Taken; decide⟩
theorem test_w_G09_removal : wRemoval.power.removal = some (0, 1, true, 2, 5, 7) ∧ wRemoval.dev.dstate = .draining ∧ wRemoval.reservedCells = [] ∧
    wRemoval.grazingDone = true := by decide
theorem test_w_G09_cells : ({ wRemoval with radio := { cells := [(3, { state := .admitted })] } } : State).reservedCells ≠ [] := by decide

theorem test_w_G10_set : ∃ s c, Taken s 0 0x0701 c ∧ 64 ≤ c.argLength ∧ provBad c = false ∧ s.dev.dstate = .serving :=
  ⟨wTaken .serving 0 (wCmd 0x0701 ([1] ++ List.replicate 15 0 ++ [16] ++ List.replicate 47 0)), wCmd 0x0701 ([1] ++ List.replicate 15 0 ++ [16] ++ List.replicate 47 0),
    by unfold Taken; decide +kernel⟩
theorem test_w_G10_end : ∃ s : State, s.prov.enabled = true ∧ s.prov.start + s.prov.intervalMs * 1000000 ≤ (s.at 7).time.now ∧
    s.sec.spent = false ∧ s.sec.queue.length < 1024 := ⟨{ prov := { enabled := true, intervalMs := 0 } }, by decide⟩

/-- Mailbox 0 of the manager, enabled, with one command posted whose slot reads zeros. -/
def wMailbox : State := { dev := { dstate := .serving }, mboxes := [(0, { role := .manager, enable := true, tail := 1, agreed := 0x0103 })] }
theorem test_w_G11_take : wMailbox.coreBusy false = false ∧ (wMailbox.core 2).restarting = false ∧ wMailbox.chooseMbx false = some 0 ∧
    firstChecks (wMailbox.mbox 0) { wCmd 0 [] with version := 0x0103 } = some .unknownOpcode ∧ firstChecks (wMailbox.mbox 0) { wCmd 1 [] with version := 0x0103 } = none ∧
    replayOf (wMailbox.mbox 0) (wCmd 0 []) = none ∧ seqBroken (wMailbox.mbox 0) (wCmd 0 []) = false := by decide +kernel
theorem test_w_G11_turn : ∃ s : State, s.dev.lastWas0 = true ∧ ∃ i, i < 7 ∧ s.mbxWaits (i + 1) = true :=
  ⟨{ dev := { dstate := .serving, lastWas0 := true }, mboxes := [(3, { role := .tenant, enable := true, tail := 1 })] }, by decide, 2, by decide, by decide +kernel⟩
theorem test_w_G11_seq : ∃ b c, replayOf b c = none ∧ seqBroken b c = true := ⟨{ lastSeq := some 4, first := false }, wCmd 3 [], by decide⟩
theorem test_w_G11_replay : ∃ b c r, replayOf b c = some r :=
  ⟨{ stored := some { opcode := 3, status := .ok, seq := 1, instId := 0, pending := false, result := [], dstate := 3 } }, wCmd 3 [], _, rfl⟩

theorem test_w_G12_version : ∃ s c v, Taken s 0 0x0001 c ∧ c.argLength = 8 ∧ agreeVersion s.mbxOffer (offeredSlots c) = some v :=
  ⟨wTaken .serving 0 (wCmd 0x0001 [3, 1, 0, 0, 0, 0, 0, 0]), wCmd 0x0001 [3, 1, 0, 0, 0, 0, 0, 0], 0x0103, by unfold Taken; decide⟩
theorem test_w_G12_noVersion : ∃ s c, Taken s 0 0x0001 c ∧ c.argLength = 8 ∧ agreeVersion s.mbxOffer (offeredSlots c) = none :=
  ⟨wTaken .serving 0 (wCmd 0x0001 [3, 2, 0, 0, 0, 0, 0, 0]), wCmd 0x0001 [3, 2, 0, 0, 0, 0, 0, 0], by unfold Taken; decide⟩
theorem test_w_G12_assign : ∃ s c r, Taken s 0 0x0002 c ∧ c.argLength = 8 ∧ 1 ≤ c.arg 0x20 1 ∧ c.arg 0x20 1 ≤ 15 ∧ c.arg 0x20 1 ≠ 0 ∧
    roleOfCode (c.arg 0x21 1) = some r ∧ assignable (some r) (c.arg 0x22 1) = true ∧ (s.mbox (c.arg 0x20 1)).current = none ∧ s.dev.dstate ≠ .rom :=
  ⟨wTaken .serving 0 (wCmd 0x0002 [3, 4, 1, 0, 0, 0, 0, 0]), wCmd 0x0002 [3, 4, 1, 0, 0, 0, 0, 0], .tenant, by unfold Taken; decide⟩
theorem test_w_G12_busy : ∃ s c, Taken s 0 0x0002 c ∧ c.arg 0x20 1 ≠ 0 ∧ (s.mbox (c.arg 0x20 1)).current ≠ none :=
  ⟨{ wTaken .serving 0 (wCmd 0x0002 [3, 4, 1, 0, 0, 0, 0, 0]) with mboxes := [(0, { current := some (wCmd 0x0002 [3, 4, 1, 0, 0, 0, 0, 0]) }), (3, { current := some (wCmd 3 []) })] },
    wCmd 0x0002 [3, 4, 1, 0, 0, 0, 0, 0], by unfold Taken; decide⟩
theorem test_w_G12_query : ∃ s c, Taken s 0 0x0003 c ∧ c.argLength = 0 :=
  ⟨wTaken .rom 0 (wCmd 0x0003 []), wCmd 0x0003 [], by unfold Taken; decide⟩
theorem test_w_G12_evr : ∃ s c r, Taken s 0 0x0007 c ∧ c.argLength = 40 ∧ c.arg 0x20 2 ≤ 4095 ∧ 6 ≤ c.arg 0x22 1 ∧ c.arg 0x22 1 ≤ 16 ∧
    c.arg 0x28 8 % (32 * 2 ^ c.arg 0x22 1) = 0 ∧ roleOfCode (c.arg 0x23 1) = some r ∧ s.dev.dstate ≠ .rom ∧
    (∀ j ∈ pageMates (c.arg 0x20 2), (s.ring j).enabled = false) ∧ (s.mbox 0).respOn = false :=
  ⟨wTaken .serving 0 (wCmd 0x0007 ([1, 1, 6, 1] ++ List.replicate 36 0)), wCmd 0x0007 ([1, 1, 6, 1] ++ List.replicate 36 0), .manager, by unfold Taken; decide +kernel⟩

/-- Ring 5, enabled for the manager's mapping 9, with a record held. -/
def wRing : State := { rings := [(5, { log2 := 6, tail := 64, arm := true, held := [{ code := 4, inst := 0, srcType := 4, srcIdx := 1, time := 0, payload := 0 }] })],
                       evPages := [(0, { mapping := 9, role := .manager })] }
theorem test_w_G13_head : wRing.ringMaps 5 9 = true ∧ (wRing.ring 5).held.length = 1 ∧ (wRing.ring 5).dropped = 0 ∧ (wRing.ring 5).enabled = true ∧
    ({ wRing.ring 5 with head := 1 } : EventRing).full = false ∧ (wRing.ring 5).tail ≠ (wRing.ring 5).head ∧ wRing.ringMaps 5 8 = false := by decide
/-- Instance 3 holds doorbell page 3 and queue 70,000. -/
def wPage : State := {
  insts := [(3, { state := .active, grant := { queueFirst := 70000, queueCount := 1, mapping := 9 } })],
  queues := { cached := [(70000, some { (parseQCtx []) with type := 1, log2 := 4, producer := 3 })] } }
theorem test_w_G13_bell : wPage.pageMaps 3 9 = true ∧ wPage.pageMaps 3 8 = false ∧ wPage.queues.doorbells.any (fun w => w.1 == (3 : Fin 256).val) = false ∧
    wPage.queueOwner 70000 = some 3 ∧ (wPage.queue 70000).isSome = true ∧ wPage.queueOwner 65535 ≠ some 3 ∧
    (19 + 2 ^ 32 - 3 % 2 ^ 32) % 2 ^ 32 = ({ (parseQCtx []) with type := 1, log2 := 4, producer := 3 } : QCtx).size ∧
    (∀ c ∈ wPage.queue 70000, c.type = 1 ∧ c.err = 0 ∧ c.producer = 3 ∧ c.size = 16) := by decide
theorem test_w_G13_waits : ({ wPage with queues := { doorbells := [(3, 1, 1)] } } : State).queues.doorbells.any (fun w => w.1 == (3 : Fin 256).val) = true ∧
    ({ wPage with queues := { doorbells := [(3, 1, 1)] } } : State).pageMaps 3 9 = true := by decide

theorem test_w_G14_halt : ∃ s : State, s.dev.dstate ≠ .rom ∧ (s.core 2).restarting = false := ⟨wTaken .serving 0 (wCmd 3 []), by decide⟩
theorem test_w_G14_done : ∃ s : State, (s.core 2).restarting = true ∧ (s.core (s.supervisor 2)).restarting = false ∧ serverOf 1 = 2 ∧ (s.mbox 1).current = some (wCmd 3 []) :=
  ⟨{ wTaken .serving 1 (wCmd 3 []) with dev := { dstate := .serving, cores := [(2, { restarting := true })] } }, by decide⟩
theorem test_w_G14_clock : ∃ s : State, (s.island .fold 3).requested = some (some 1800000) :=
  ⟨{ dev := { islands := [(3, { requested := some (some 1800000) })] } }, by decide⟩

theorem test_w_G15_group : ∃ s : State, unitExists ⟨.sigGroup, 3⟩ = true ∧ (s.unit ⟨.sigGroup, 3⟩).debug = false ∧ s.dev.dstate = .serving ∧
    (s.unit ⟨.sigGroup, 3⟩).state = .sleeping := ⟨{ dev := { dstate := .serving }, units := { entries := [(6 * 65536 + 3, { state := .sleeping })] } }, by decide⟩
/-- A fenced radio engine whose next incarnation number is reserved. -/
def wFenced : State := { dev := { dstate := .serving }, units := { entries := [(7 * 65536 + 3, { state := .fenced })] }, flash := { reserved := [(7 * 65536 + 3, 9)] } }
theorem test_w_G15_reset : (wFenced.unit ⟨.engine, 3⟩).waitsReserve = false ∧ unitExists ⟨.engine, 3⟩ = true ∧ (wFenced.unit ⟨.engine, 3⟩).debug = false ∧ (wFenced.unit ⟨.engine, 3⟩).state = .fenced ∧
    (wFenced.unit ⟨.engine, 3⟩).incarnation + 1 < tget 0 wFenced.flash.reserved (unitKey ⟨.engine, 3⟩) ∧ wFenced.dev.dstate = .serving := by decide
theorem test_w_G15_test : ∃ s : State, (s.unit ⟨.fold, 3⟩).state = .initialising ∧ (s.unit ⟨.fold, 3⟩).retainedUnverified = false ∧ (s.unit ⟨.fold, 3⟩).waitsReserve = false :=
  ⟨{ units := { entries := [(4 * 65536 + 3, { state := .initialising })] } }, by decide⟩
theorem test_w_G15_ret : ∃ s : State, retainedSpace ⟨.fold, 3⟩ = some (.sram 3, 0, sramSpan) ∧ (s.unit ⟨.fold, 3⟩).retainedUnverified = true ∧
    (tget [] s.power.retainedSums (Space.sram 3).code).filter (fun p => decide (0 ≤ p.1 ∧ p.1 < 0 + sramSpan)) = [(0, 7)] :=
  ⟨{ units := { entries := [(4 * 65536 + 3, { state := .initialising, retainedUnverified := true })] }, power := { retainedSums := [(67, [(0, 7)])] } }, by decide⟩

theorem test_w_G16_fatal : ∃ s : State, s.dev.dstate ≠ .rom ∧ s.dev.dstate ≠ .fenced ∧ (s.unit ⟨.engine, 3⟩).state.accepts = true :=
  ⟨{ dev := { dstate := .night }, units := { entries := [(7 * 65536 + 3, { state := .degraded })] } }, by decide⟩
theorem test_w_G16_fence : ∃ s c, Taken s 0 0x0606 c ∧ 7 ≤ c.argLength ∧ unitArg c = some ⟨.engine, 3⟩ ∧ s.dev.dstate = .serving ∧ c.arg 0x24 1 = 1 ∧
    (s.unit ⟨.engine, 3⟩).state.accepts = true :=
  ⟨{ wTaken .serving 0 (wCmd 0x0606 [7, 0, 3, 0, 1, 0, 0]) with units := { entries := [(7 * 65536 + 3, { state := .ready })] } }, wCmd 0x0606 [7, 0, 3, 0, 1, 0, 0], by unfold Taken; decide⟩
theorem test_w_G16_lift : ∃ s c, Taken s 0 0x0606 c ∧ 7 ≤ c.argLength ∧ unitArg c = some ⟨.engine, 3⟩ ∧ s.dev.dstate = .serving ∧ c.arg 0x24 1 = 0 ∧
    (s.unit ⟨.engine, 3⟩).state = .fenced ∧ (s.unit ⟨.engine, 3⟩).debug = false :=
  ⟨{ wTaken .serving 0 (wCmd 0x0606 [7, 0, 3, 0, 0, 0, 0]) with units := { entries := [(7 * 65536 + 3, { state := .fenced })] } }, wCmd 0x0606 [7, 0, 3, 0, 0, 0, 0], by unfold Taken; decide⟩
theorem test_w_G16_cond : ∃ s c, Taken s 0 0x0606 c ∧ 7 ≤ c.argLength ∧ unitArg c = some ⟨.fold, 31⟩ ∧ s.dev.dstate = .serving ∧ c.arg 0x24 1 = 2 ∧
    c.arg 0x25 1 = 7 ∧ c.arg 0x26 1 = 3 :=
  ⟨wTaken .serving 0 (wCmd 0x0606 [4, 0, 31, 0, 2, 7, 3]), wCmd 0x0606 [4, 0, 31, 0, 2, 7, 3], by unfold Taken; decide⟩
theorem test_w_G16_retire : ∃ s c, Taken s 0 0x0607 c ∧ c.argLength = 4 ∧ unitArg c = some ⟨.engine, 3⟩ ∧ s.dev.dstate = .serving ∧
    (s.unit ⟨.engine, 3⟩).state = .failed :=
  ⟨{ wTaken .serving 0 (wCmd 0x0607 [7, 0, 3, 0]) with units := { entries := [(7 * 65536 + 3, { state := .failed })] } }, wCmd 0x0607 [7, 0, 3, 0], by unfold Taken; decide⟩

/-- Fold 3 in service with a conditional fence for the lowest bands. -/
def wCond (st : UState) : State := { units := { entries := [(4 * 65536 + 3, { state := st })] }, flash := { fences := [(4 * 65536 + 3, [.cond 0 0])] },
                                     health := { foldHealth := [(3, { holding := [0], outs := [(0, (1, 0))] })] } }
theorem test_w_G17_cond : (wCond .ready).fencesOf ⟨.fold, 3⟩ = [.cond (tempBand 0) (actBand 0)] ∧ ((wCond .ready).unit ⟨.fold, 3⟩).state.accepts = true := by decide
theorem test_w_G17_ready : (wCond .fenced).fencesOf ⟨.fold, 3⟩ = [.cond 0 0] ∧ ((wCond .fenced).unit ⟨.fold, 3⟩).state = .fenced ∧
    tget (0, 0) ((wCond .fenced).foldHealth 3).outs (0 * 4 + 0) = (0 + 1, 0) ∧ beyondBand 0 (47 * 16) = true := by decide
theorem test_w_G17_result : ∃ s : State, unitExists ⟨.engine, 99⟩ = true ∧ (s.unit ⟨.engine, 99⟩).state.accepts = true :=
  ⟨{ units := { entries := [(7 * 65536 + 99, { state := .degraded })] } }, by decide⟩
theorem test_w_G17_tick : ∃ s : State, s.accepts ⟨.fold, 3⟩ = true ∧ tget 0 s.health.lastPatrol (unitKey ⟨.fold, 3⟩) = 5 :=
  ⟨{ units := { entries := [(2 * 65536, { state := .ready }), (4 * 65536 + 3, { state := .degraded })] }, health := { lastPatrol := [(4 * 65536 + 3, 5)] } }, by decide⟩

theorem test_w_G18_eval : ∃ s : State, s.dev.dstate ≠ .rom ∧ 1000000000 ≤ (s.at 2000000000).time.now - s.health.lastEval := ⟨wTaken .serving 0 (wCmd 3 []), by decide +kernel⟩
theorem test_w_G18_watch : ∃ s c, Taken s 0 0x0601 c ∧ c.argLength = 1 ∧ c.arg 0x20 1 = 1 ∧ s.dev.dstate = .serving :=
  ⟨wTaken .serving 0 (wCmd 0x0601 [1]), wCmd 0x0601 [1], by unfold Taken; decide⟩
theorem test_w_G18_fence : ∃ s c, Taken s 0 0x0604 c ∧ s.dev.dstate = .draining ∧ s.health.assuming = [] ∧ s.power.removal = none ∧ s.power.nightCmd = none ∧ s.power.wakeAfter = [] :=
  ⟨wTaken .draining 0 (wCmd 0x0604 []), wCmd 0x0604 [], by unfold Taken; decide⟩
theorem test_w_G18_standby : ∃ s c, Taken s 0 0x0608 c ∧ 5 ≤ c.argLength ∧ 8 ≤ c.arg 0x24 1 ∧ c.arg 0x24 1 ≤ 64 ∧ s.reservedCells = [] ∧ s.dev.dstate = .serving :=
  ⟨wTaken .serving 0 (wCmd 0x0608 [1, 0, 0, 0, 8]), wCmd 0x0608 [1, 0, 0, 0, 8], by unfold Taken; decide⟩

theorem test_w_G19_retest : ∃ s c, Taken s 0 0x0602 c ∧ s.dev.dstate = .fenced ∧ (s.mbox 0).long.length < 4 ∧ ∀ u ∈ allUnits, (s.unit u).state ≠ .sleeping :=
  ⟨wTaken .fenced 0 (wCmd 0x0602 []), wCmd 0x0602 [], by unfold Taken; decide +kernel⟩
theorem test_w_G19_done : ∃ s : State, s.health.retests = (0, 1, 5) :: [] ∧ s.flash.fences = [] ∧ s.sec.spent = false ∧ s.sec.queue.length < 1024 :=
  ⟨{ health := { retests := [(0, 1, 5)] } }, by decide⟩
theorem test_w_G19_sweep (st : UState) (h : st = .fenced ∨ st = .ready) : ∃ s c, Taken s 0 0x0603 c ∧ 6 ≤ c.argLength ∧ sweepBad c = false ∧ s.dev.dstate = .watched ∧
    (s.mbox 0).long.length < 4 ∧ (s.unit ⟨.fold, c.arg 0x20 1⟩).state = st ∧ (st = .fenced → s.shown ⟨.fold, c.arg 0x20 1⟩ = .fenced) ∧
    (st = .ready → s.shown ⟨.fold, c.arg 0x20 1⟩ = .ready) :=
  ⟨{ wTaken .watched 0 (wCmd 0x0603 [31, 4, 3, 196, 10, 15]) with units := { entries := [(2 * 65536 + 1, { state := .ready }), (4 * 65536 + 31, { state := st })] } },
    wCmd 0x0603 [31, 4, 3, 196, 10, 15], by rcases h with rfl | rfl <;> (unfold Taken; decide)⟩
theorem test_w_G19_sweepDone : ∃ (s : State) (w : _), s.health.sweeps.find? (fun x => x.2.2.1 == (3 : Fin 32).val) = some w :=
  ⟨{ health := { sweeps := [(0, 1, 3, [])] } }, _, rfl⟩
/-- An ASSUME of cell 511. -/
def wAssume : Cmd := { wCmd 0x0609 ([2, 0, 0, 1, 1, 0] ++ List.replicate 10 0 ++ [255, 1, 0, 0, 7, 0, 0, 0] ++ wCellBytes ++ List.replicate 32 0) with indirect := true }
theorem test_w_G19_assume : Taken (wRadio .standby wAssume) 0 0x0609 wAssume ∧ assumeBad wAssume = false ∧
    ((wRadio .standby wAssume).mbox 0).long.length < 4 ∧ (∀ e ∈ assumeEntries wAssume, ((wRadio .standby wAssume).cell e.cell).state = .unused) ∧
    (wRadio .standby wAssume).changesBlocked = false ∧ (wRadio .standby wAssume).time.everLocked = true ∧
    ((wRadio .standby wAssume).assumeAll (wAssume.arg 0x22 1 == 1) (assumeEntries wAssume)).map (assumeFits (assumeEntries wAssume)) = some none := by
  unfold Taken; decide +kernel
theorem test_w_G19_assumeDone : ∃ (s : State) (a : _), s.health.assuming.find? (fun a => a.2.2.2.2.all (fun c => (s.cell c).serves)) = some a :=
  ⟨{ health := { assuming := [(0, 1, 2, false, [3])] }, radio := { cells := [(3, { state := .active })] } }, _, rfl⟩

def wGrant : Cmd := wCmd 0x0101 ([3, 0] ++ leBytes 2 0x0101 ++ leBytes 4 1 ++ leBytes 4 4 ++ leBytes 4 65536 ++ leBytes 4 16 ++ leBytes 2 1024 ++ leBytes 2 0 ++
  leBytes 2 256 ++ leBytes 2 0 ++ leBytes 4 0 ++ leBytes 8 4096 ++ leBytes 8 65536 ++ leBytes 8 0 ++ leBytes 8 65536 ++ leBytes 8 0 ++ List.replicate 24 0)
def wStacksState : State := { wTaken .serving 0 wGrant with units := { entries := (List.range 16).map (fun k => (2 * 65536 + k, { state := .ready })) ++ (List.range 16).map (fun k => (9 * 65536 + k, { state := .ready })) } }
theorem test_w_G21_create : Taken wStacksState 0 0x0101 wGrant ∧ descAgreed (fieldAt wGrant.args 2 2) = some 0x0101 ∧ grantLength wGrant.args ≤ wGrant.argLength ∧
    instArg wGrant = 3 ∧ grantBad wGrant.args = false ∧ (wStacksState.inst 3).state = .unused ∧ wStacksState.stacksServe 0 = true ∧
    wStacksState.grantCapacity (parseGrant wGrant.args) = false ∧ tableSize (parseGrant wGrant.args) ≤ (parseGrant wGrant.args).quotaT1 := by
  refine ⟨?_, ?_, ?_, ?_, ?_, ?_, ?_, ?_, ?_⟩ <;> first | decide +kernel | (unfold Taken; decide +kernel)
theorem test_w_G21_others : Taken (wInst 0x0109 ([3, 1] ++ List.replicate 14 0) 0 .frozen) 0 0x0109 { wCmd 0x0109 ([3, 1] ++ List.replicate 14 0) with instId := 0 } ∧
    Taken (wInst 0x0103 [3] 3 .active) 0 0x0103 { wCmd 0x0103 [3] with instId := 3 } ∧ ((wInst 0x0103 [3] 3 .active).inst 3).state = .active ∧
    Taken (wInst 0x0102 [3] 0 .active) 0 0x0102 { wCmd 0x0102 [3] with instId := 0 } ∧ instArg (wCmd 0x0102 [3]) = 3 ∧
    (∀ k, k < 16 → ((wInst 0x0102 [3] 0 .active).mbox k).role ≠ .tenant) ∧
    Taken (wInst 0x0104 [0] 0 .active) 0 0x0104 { wCmd 0x0104 [0] with instId := 0 } ∧ instArg (wCmd 0x0104 [0]) = 0 := by
  refine ⟨?_, ?_, ?_, ?_, ?_, ?_, ?_, ?_⟩ <;> first | decide +kernel | (unfold Taken; decide +kernel)

theorem test_w_G22_freeze : Taken (wInst 0x0104 [3] 0 .active) 0 0x0104 { wCmd 0x0104 [3] with instId := 0 } ∧ instArg (wCmd 0x0104 [3]) = 3 ∧
    ((wInst 0x0104 [3] 0 .active).inst 3).state = .active := by unfold Taken; decide
theorem test_w_G22_thaw : Taken (wInst 0x0107 [3] 0 .frozen) 0 0x0107 { wCmd 0x0107 [3] with instId := 0 } ∧ ((wInst 0x0107 [3] 0 .frozen).inst 3).state = .frozen := by
  unfold Taken; decide
def wSwap (a : Byte) : Bytes := [3, 0, 0, 0, 0, 0, 0, 0, 0, a, 0, 0, 0, 0, 0, 0]
theorem test_w_G22_swap : Taken (wInst 0x0108 (wSwap 1) 0 .exporting) 0 0x0108 { wCmd 0x0108 (wSwap 1) with instId := 0 } ∧
    (wInst 0x0108 (wSwap 1) 0 .exporting).inSomeWindow 256 (bitmapSize ((wInst 0x0108 (wSwap 1) 0 .exporting).inst 3).grant) = false ∧
    ∃ s : State, s.inSomeWindow 256 64 = true ∧ bitmapSize (s.inst 3).grant = 64 ∧ (s.inst 3).state = .active :=
  ⟨by unfold Taken; decide, by decide, { insts := [(3, { state := .active, grant := { t2Base := 0, t2Size := 65536 } })] }, by decide⟩

theorem test_w_G23_export : ∃ s c, Taken s 0 0x0105 c ∧ 24 ≤ c.argLength ∧ instArg c = 3 ∧ c.arg 0x28 8 = 4096 ∧ (s.mbox 0).long.length < 4 ∧ s.dev.dstate = .serving ∧
    (s.inst 3).state = .frozen ∧ s.inSomeWindow (c.arg 0x28 8) (c.arg 0x30 8) = false :=
  ⟨wInst 0x0105 ([3, 0, 0, 0, 0, 0, 0, 0, 0, 16] ++ List.replicate 14 0) 0 .frozen,
    { wCmd 0x0105 ([3, 0, 0, 0, 0, 0, 0, 0, 0, 16] ++ List.replicate 14 0) with instId := 0 }, by unfold Taken; decide⟩
theorem test_w_G23_done : ∃ s : State, (s.inst (3 : Fin 256)).state = .exporting ∧ (s.inst (3 : Fin 256)).transfer = some (4096, 1, 0) ∧
    (s.inst (3 : Fin 256)).transferCmd = some (0, 1) ∧ s.instBusy (3 : Fin 256) = false :=
  ⟨{ insts := [(3, { state := .exporting, transfer := some (4096, 1, 0), transferCmd := some (0, 1) })] }, by decide⟩
theorem test_w_G23_busy : ∃ s : State, (s.inst (3 : Fin 256)).state = .exporting ∧ s.instBusy (3 : Fin 256) = true :=
  ⟨{ insts := [(3, { state := .exporting })], tiers := { objs := [(5, { holders := [3], copies := [{ tier := 1, place := .plain, state := .filling, parts := [] }] })] } }, by decide⟩
/-- An image without objects, and instance 3 under import of it. -/
def wImage : Image := { descVersion := 0x0101, generation := 7, classString := 0, create := [], objects := [], contexts := [], tasks := [], regions := [] }
def wImporting : State := { insts := [(3, { state := .importing, transfer := some (4096, 8192, 0), transferCmd := some (0, 1), image := some wImage })] }
theorem test_w_G23_importDone : (wImporting.inst (3 : Fin 256)).state = .importing ∧ (wImporting.inst (3 : Fin 256)).transfer = some (4096, 8192, 0) ∧
    (wImporting.inst (3 : Fin 256)).transferCmd = some (0, 1) ∧ (wImporting.inst (3 : Fin 256)).image = some wImage := by decide
theorem test_w_G23_made : (match wImporting.importAll (3 : Fin 256) wImage with | .ok _ => true | .error _ => false) = true := by decide +kernel
/-- An INST_IMPORT of instance 3 whose block lies at 4,096. -/
def wImport : Cmd := wCmd 0x0106 ([3] ++ List.replicate 15 0 ++ leBytes 8 4096 ++ leBytes 8 0)
/-- UNUSED instance 3 on a device whose stacks serve, with a block at 4,096. -/
def wImportState : State :=
  { wTaken .serving 0 wImport with
    units := wStacksState.units
    mem := Mem.empty.store (key .companion 4096) wGrant.args }
theorem test_w_G23_import : Taken wImportState 0 0x0106 wImport ∧ instArg wImport = 3 ∧ (wImportState.mbox 0).long = [] ∧ (wImportState.inst 3).state = .unused ∧
    wImportState.stacksServe 0 = true ∧ grantBad (wImportState.rd .companion (wImport.arg 0x30 8) 3168) = false ∧
    descAgreed (parseGrant (wImportState.rd .companion (wImport.arg 0x30 8) 3168)).descVersion = some 0x0101 ∧
    wImportState.grantCapacity (parseGrant (wImportState.rd .companion (wImport.arg 0x30 8) 3168)) = false := by
  refine ⟨?_, ?_, ?_, ?_, ?_, ?_, ?_, ?_⟩ <;> first | decide +kernel | (unfold Taken; decide +kernel)

theorem test_w_G24_add : Taken (wRadio .serving (wCmd 0x0201 wCellBytes)) 0 0x0201 (wCmd 0x0201 wCellBytes) ∧ cellBad wCellBytes = false ∧
    (wRadio .serving (wCmd 0x0201 wCellBytes)).changesBlocked = false ∧ (wRadio .serving (wCmd 0x0201 wCellBytes)).cellArgBad (parseCell wCellBytes) true = false ∧
    firstOver ((wRadio .serving (wCmd 0x0201 wCellBytes)).needs false ((wRadio .serving (wCmd 0x0201 wCellBytes)).modeWith (parseCell wCellBytes))
      (slotClass (parseCell wCellBytes)) ((wRadio .serving (wCmd 0x0201 wCellBytes)).reservedSet ++ [⟨parseCell wCellBytes, none⟩])) = none ∧
    ((wRadio .serving (wCmd 0x0201 wCellBytes)).allocT1 0 (16 * harqMib (parseCell wCellBytes))).isSome = true := by
  refine ⟨?_, ?_, ?_, ?_, ?_, ?_⟩ <;> first | decide +kernel | (unfold Taken; decide +kernel)
theorem test_w_G24_full : (firstOver ((wTaken .serving 0 (wCmd 0x0201 wCellBytes)).needs false ((wTaken .serving 0 (wCmd 0x0201 wCellBytes)).modeWith (parseCell wCellBytes))
      (slotClass (parseCell wCellBytes)) ((wTaken .serving 0 (wCmd 0x0201 wCellBytes)).reservedSet ++ [⟨parseCell wCellBytes, none⟩]))).isSome = true := by decide +kernel
def wReconf : Cmd := wCmd 0x0203 ([7, 0] ++ wCellBytes)
def wReconfState : State := { wRadio .serving wReconf with radio := { cells := [(7, { state := .active, cfg := parseCell wCellBytes })] } }
theorem test_w_G24_reconf : Taken wReconfState 0 0x0203 wReconf ∧ wReconf.argLength = 66 ∧ wReconf.arg 0x20 2 = 7 ∧ (wReconfState.cell 7).state = .active ∧
    wReconfState.cellArgBad (parseCell wCellBytes) false = false ∧ firstOver (wReconfState.needs false (wReconfState.modeWith (parseCell wCellBytes)) (slotClass (parseCell wCellBytes))
      (wReconfState.reservedBut 7 ++ [⟨parseCell wCellBytes, (wReconfState.costed (wReconfState.cell 7)).nrx⟩])) = none := by
  refine ⟨?_, ?_, ?_, ?_, ?_, ?_⟩ <;> first | decide +kernel | (unfold Taken; decide +kernel)
theorem test_w_G24_remove : Taken (wTaken .draining 0 (wCmd 0x0202 [7, 0])) 0 0x0202 (wCmd 0x0202 [7, 0]) ∧ (wCmd 0x0202 [7, 0]).arg 0x20 2 = 7 ∧
    ((wTaken .draining 0 (wCmd 0x0202 [7, 0])).cell 7).state = .unused ∧ (wReconfState.cell 7).state ≠ .removing := by
  unfold Taken; decide

theorem test_w_G25_share : Taken (wRadio .serving (wCmd 0x0204 [50])) 0 0x0204 (wCmd 0x0204 [50]) ∧ (wCmd 0x0204 [50]).arg 0x20 1 = 50 ∧
    ¬ (wCmd 0x0204 [50]).arg 0x20 1 * (wRadio .serving (wCmd 0x0204 [50])).eligibleNow.length * 10000000 < ((wRadio .serving (wCmd 0x0204 [50])).reservedSet.map (costOf 9 0)).sum := by
  refine ⟨?_, ?_, ?_⟩ <;> first | decide +kernel | (unfold Taken; decide +kernel)
theorem test_w_G25_penumbra : Taken (wTaken .dusk 0 (wCmd 0x0205 [0xB8, 0x0B, 0, 0])) 0 0x0205 (wCmd 0x0205 [0xB8, 0x0B, 0, 0]) ∧ (wCmd 0x0205 [0xB8, 0x0B, 0, 0]).arg 0x20 4 = 3000 := by
  unfold Taken; decide
/-- An NRX_LOAD that takes cell 7 back to the conventional receiver. -/
def wNrx : Cmd := wCmd 0x0206 ([128] ++ List.replicate 87 0)
def wNrxState : State := { wRadio .serving wNrx with radio := { cells := [(7, { state := .active, cfg := parseCell wCellBytes })] } }
theorem test_w_G25_nrx : Taken wNrxState 0 0x0206 wNrx ∧ wNrx.arg 0x60 8 = 0 ∧ cellMap wNrx = [7] ∧ (wNrxState.cell 7).state = .active ∧ wNrxState.changesBlocked = false ∧
    firstOver (wNrxState.needs false wNrxState.portMode 0 (wNrxState.nrxSet (cellMap wNrx) none)) = none := by
  refine ⟨?_, ?_, ?_, ?_, ?_, ?_⟩ <;> first | decide +kernel | (unfold Taken; decide +kernel)

/-- An OBJ_CREATE of 64 KiB in HOME 1, and a SHARED one of KIND 1. -/
def wCreate : Cmd := wCmd 0x0301 ([0, 0, 1, 0] ++ leBytes 8 65536 ++ List.replicate 20 0)
def wShared : Cmd := wCmd 0x0301 ([1, 3, 1, 0] ++ leBytes 8 65536 ++ leBytes 8 0 ++ List.replicate 44 0)
/-- An object of instance 0 in entry 5, RESIDENT in T1, that can be joined. -/
def wObj : Obj :=
  { live := true, refGen := 1, kind := 1, readonly := true, shared := true, joinable := true, size := 65536, digest := List.replicate 32 0
    copies := [{ tier := 1, place := .plain, state := .resident, parts := [⟨.hbm, [4294967296]⟩] }], refs := [⟨0, 1, .plain⟩], holders := [0] }
def wObjs (c : Cmd) : State := { wTaken .serving 0 c with units := wStacksState.units, tiers := { objs := [(5, wObj)] } }
/-- The argument bytes of a handle of instance 0 to entry 5, with a tier. -/
def wHandle (t : Byte) : Bytes := leBytes 8 (5 + 2 ^ 20 + 2 ^ 48 * (State.reset.deviceInc % 65536)) ++ [t, 0, 0]
theorem test_w_G26_create : Taken (wObjs wCreate) 0 0x0301 wCreate ∧ objCreateArgs wCreate = true ∧ (wObjs wCreate).sourceOk wCreate = true ∧ (wObjs wCreate).joinOf wCreate = none ∧
    (wObjs wCreate).stacksServe (ocPlace wCreate) = true ∧ (wObjs wCreate).overQuota 0 1 (ocSize wCreate) = false ∧ (wObjs wCreate).freeEntry = 0 ∧
    ((wObjs wCreate).createChunks wCreate).isSome = true := by
  refine ⟨?_, ?_, ?_, ?_, ?_, ?_, ?_⟩ <;> first | decide +kernel | (unfold Taken; decide +kernel)
theorem test_w_G26_join : Taken (wObjs wShared) 0 0x0301 wShared ∧ objCreateArgs wShared = true ∧ (wObjs wShared).sourceOk wShared = true ∧ (wObjs wShared).joinOf wShared = some 5 := by
  refine ⟨?_, ?_, ?_⟩ <;> first | decide +kernel | (unfold Taken; decide +kernel)
theorem test_w_G26_handle : Taken (wObjs (wCmd 0x0306 (wHandle 0))) 0 0x0306 (wCmd 0x0306 (wHandle 0)) ∧ hdlInst (hArg (wCmd 0x0306 (wHandle 0))) = 0 ∧
    (wObjs (wCmd 0x0306 (wHandle 0))).stale (hArg (wCmd 0x0306 (wHandle 0))) = false ∧
    Taken (wObjs (wCmd 0x0305 (wHandle 0))) 0 0x0305 (wCmd 0x0305 (wHandle 0)) ∧ (wCmd 0x0305 (wHandle 0)).arg 0x28 1 = 0 ∧
    (wObjs (wCmd 0x0305 (wHandle 0))).stale (hArg (wCmd 0x0305 (wHandle 0))) = false ∧ (wTaken .serving 0 (wCmd 0x0306 (wHandle 0))).stale (hArg (wCmd 0x0306 (wHandle 0))) = true := by
  refine ⟨?_, ?_, ?_, ?_, ?_, ?_, ?_⟩ <;> first | decide +kernel | (unfold Taken; decide +kernel)

/-- A readonly object at home in T2 (entry 5) with a copy in T1 and references of instance 0 to both, on a serving device. -/
def wTier (c : Cmd) : State :=
  { wTaken .serving 0 c with
    units := { entries := (List.range 16).map (fun k => (2 * 65536 + k, { state := .ready })) ++ (List.range 16).map (fun k => (9 * 65536 + k, { state := .ready })) }
    tiers := { objs := [(5, { live := true, refGen := 1, kind := 2, readonly := true, home := 2, size := 65536, holders := [0]
                              copies := [{ tier := 1, place := .plain, state := .resident, parts := [⟨.hbm, [0]⟩] }]
                              refs := [⟨0, 1, .plain⟩, ⟨0, 2, .plain⟩] })] } }
def wTierCmd (op : Nat) (rest : Bytes) : Cmd := wCmd op (leBytes 8 (5 + 2 ^ 20 + 2 ^ 48 * (State.reset.deviceInc % 65536)) ++ rest)
theorem test_w_G27_evict : Taken (wTier (wTierCmd 0x0303 [1])) 0 0x0303 (wTierCmd 0x0303 [1]) ∧ hdlInst (hArg (wTierCmd 0x0303 [1])) = 0 ∧
    (wTier (wTierCmd 0x0303 [1])).stale (hArg (wTierCmd 0x0303 [1])) = false ∧ ((wTier (wTierCmd 0x0303 [1])).obj 5).refIn 0 1 = true ∧
    ((wTier (wTierCmd 0x0303 [1])).obj 5).onlyCopy 1 = false ∧ hdlEntry (hArg (wTierCmd 0x0303 [1])) = 5 := by
  refine ⟨?_, ?_, ?_, ?_, ?_, ?_⟩ <;> first | decide +kernel | (unfold Taken; decide +kernel)
theorem test_w_G27_promote : Taken (wTier (wTierCmd 0x0302 [0, 1, 0])) 0 0x0302 (wTierCmd 0x0302 [0, 1, 0]) ∧
    ((wTier (wTierCmd 0x0302 [0, 1, 0])).obj 5).refIn 0 0 = false ∧ ((wTier (wTierCmd 0x0302 [0, 1, 0])).obj 5).secondUpper 0 = false ∧
    ((wTier (wTierCmd 0x0302 [0, 1, 0])).newParts 0 1 0 0 1).isSome = true ∧
    (wTier (wTierCmd 0x0302 [0, 1, 0])).overQuota 0 0 ((wTier (wTierCmd 0x0302 [0, 1, 0])).promoteCharge ((wTier (wTierCmd 0x0302 [0, 1, 0])).obj 5) 0 1) = false := by
  refine ⟨?_, ?_, ?_, ?_, ?_⟩ <;> first | decide +kernel | (unfold Taken; decide +kernel)
theorem test_w_G27_alternate : Taken (wTier (wTierCmd 0x0304 ([1] ++ List.replicate 14 0 ++ [0x80] ++ List.replicate 8 0))) 0 0x0304
      (wTierCmd 0x0304 ([1] ++ List.replicate 14 0 ++ [0x80] ++ List.replicate 8 0)) ∧
    bitOf ((altArgs (wTierCmd 0x0304 ([1] ++ List.replicate 14 0 ++ [0x80] ++ List.replicate 8 0))).headD 0) 63 = true := by
  refine ⟨?_, ?_⟩ <;> first | decide +kernel | (unfold Taken; decide +kernel)

/-- A T2 object (entry 5) of instance 0 whose copy in commons 0 fills from behind the fabric, with its first chunk in transit on channel 3. -/
def wFilling (cancelled : Bool) (late : Bool) : State :=
  { State.reset with
    dev := { dstate := .serving }
    tiers := { objs := [(5, { live := true, refGen := 1, kind := 2, home := 3, size := 131072, lateUs := 7, holders := [0]
                              copies := [{ tier := 0, place := .commons 1, state := .filling, parts := [⟨.commons 0, [0, 65536]⟩], cancelled }] })]
               movers := [(0, { chans := [(3, some { obj := 5, place := .commons 1, tier := 0, kind := .fill, move := 0, src := none, lowTier := true, late, started := 10 })] })]
               waiters := [] } }
theorem test_w_G28_fill : ∃ c, ((wFilling false false).mover 0).chan 3 = some { obj := 5, place := .commons 1, tier := 0, kind := .fill, move := 0, src := none, lowTier := true, started := 10 } ∧
    ((wFilling false false).obj 5).copy 0 = some c ∧ c.cancelled = false ∧ c.place' (c.movePart 0) (c.moveChunk 0) = some (.commons 0, 0) ∧
    c.filled.length + 1 < c.moves ((wFilling false false).obj 5) ∧ 10 + 1000 * ((wFilling false false).obj 5).lateUs ≤ ((wFilling false false).at 7010).time.now :=
  ⟨_, rfl, rfl, rfl, rfl, by decide, by decide⟩
theorem test_w_G28_stops : ∃ c, ((wFilling true false).obj 5).copy 0 = some c ∧ c.cancelled = true := ⟨_, rfl, rfl⟩
/-- The same device with a second chunk to fill, all units of the die in service. -/
def wStart : State := { wFilling false false with units := { entries := [(2 * 65536, { state := .ready }), (13 * 65536, { state := .ready })] } }
theorem test_w_G28_start : (wStart.core 4).restarting = false ∧ (wStart.settleDrained.mover 0).chan 7 = none ∧
    firstOp (wStart.settleDrained.moverOps 0 (chanRadio 7)) = some (0, 5, 0, 1) ∧
    (((wStart.settleDrained.obj 5).copy 0).bind (fun c => wStart.settleDrained.moveSource (wStart.settleDrained.obj 5) c 1)).isSome = true := by
  refine ⟨?_, ?_, ?_, ?_⟩ <;> first | rfl | decide +kernel
theorem test_w_G28_scrub : ∃ s : State, s.accepts ⟨.stackCtl, 3⟩ = true ∧ (s.core 4).restarting = false :=
  ⟨{ units := { entries := [(2 * 65536, { state := .ready }), (9 * 65536 + 3, { state := .ready })] } }, by decide⟩

/-- Object 5 of instance 0 in T1, with region 7 in a state and a command taken up, on a serving device. -/
def wRegion (st : RState) (c : Cmd) : State :=
  { wTaken .serving 0 c with
    tiers := { objs := [(5, { live := true, refGen := 1, kind := 2, size := 131072, holders := [0] })] }
    fabMem := { regions := [(7, { state := st, length := 65536, obj := 5 })] } }
def wOpenCmd : Cmd := wCmd 0x0401 (leBytes 2 7 ++ [0, 0x0B] ++ leBytes 2 9 ++ [0, 0] ++ leBytes 8 3 ++ leBytes 8 65536 ++ leBytes 8 65536 ++
  leBytes 8 (5 + 2 ^ 20 + 2 ^ 48 * (State.reset.deviceInc % 65536)) ++ leBytes 8 65536)
theorem test_w_G29_open : Taken (wRegion .unused wOpenCmd) 0 0x0401 wOpenCmd ∧ regionBad wOpenCmd = false ∧ rOpen wOpenCmd = true ∧
    (wRegion .unused wOpenCmd).regionOwned 0 (wOpenCmd.arg 0x20 2) = true ∧ wOpenCmd.arg 0x20 2 = 7 ∧
    (wRegion .unused wOpenCmd).handleStatus (wOpenCmd.arg 0x40 8) 0 = none ∧
    (wRegion .unused wOpenCmd).regionOverlaps 7 false (wOpenCmd.arg 0x30 8) (wOpenCmd.arg 0x38 8) = false ∧
    wOpenCmd.arg 0x48 8 + wOpenCmd.arg 0x38 8 ≤ ((wRegion .unused wOpenCmd).obj (hdlEntry (wOpenCmd.arg 0x40 8))).size := by
  refine ⟨?_, ?_, ?_, ?_, ?_, ?_, ?_, ?_⟩ <;> first | decide +kernel | (unfold Taken; decide +kernel)
theorem test_w_G29_close : Taken (wRegion .open' (wCmd 0x0401 ([7] ++ List.replicate 47 0))) 0 0x0401 (wCmd 0x0401 ([7] ++ List.replicate 47 0)) ∧
    rOpen (wCmd 0x0401 ([7] ++ List.replicate 47 0)) = false ∧ regionBad (wCmd 0x0401 ([7] ++ List.replicate 47 0)) = false ∧
    ((wRegion .open' (wCmd 0x0401 ([7] ++ List.replicate 47 0))).region 7).state = .open' := by
  refine ⟨?_, ?_, ?_, ?_⟩ <;> first | decide +kernel | (unfold Taken; decide +kernel)
theorem test_w_G29_compat : Taken (wRegion .open' (wCmd 0x0402 [7, 0, 1])) 0 0x0402 (wCmd 0x0402 [7, 0, 1]) ∧ (wCmd 0x0402 [7, 0, 1]).arg 0x22 1 = 1 ∧
    ((wRegion .open' (wCmd 0x0402 [7, 0, 1])).region 7).inst = 0 := by
  refine ⟨?_, ?_, ?_⟩ <;> first | decide +kernel | (unfold Taken; decide +kernel)
theorem test_w_G29_done : ((wRegion .closing (wCmd 3 [])).region (7 : Fin 4096)).state = .closing ∧ (wRegion .closing (wCmd 3 [])).regionBusy (7 : Fin 4096) = false := by decide

theorem test_w_G30_read : (wInbox .serving (wRx 0 1)).fab.inbox.contains (wRx 0 1) = true ∧ (wRx 0 1).h.rlen = 1 ∧
    ((wInbox .serving (wRx 0 1)).checkRequest (wRx 0 1) 32 (fun r => r.read) true).2 = none ∧
    ((wInbox .serving (wRx 0 1)).checkRequest (wRx 0 1) 32 (fun r => r.read) false).2 = some .badArg ∧
    (match ((wInbox .serving (wRx 0 1)).fetch 5 0 32 none).1 with | .bytes _ _ => true | _ => false) = true := by
  refine ⟨?_, ?_, ?_, ?_, ?_⟩ <;> decide +kernel
theorem test_w_G30_update : (((wInbox .serving (wRx 1 0)).noteSource (wRx 1 0)).checkRequest (wRx 1 0) 32 (fun r => r.write) true).2 = none ∧
    ((wInbox .serving (wRx 2 0)).noteSource (wRx 2 0)).replayOf (wRx 2 0) = none ∧ ((wInbox .serving (wRx 2 0)).noteSource (wRx 2 0)).staleSeq (wRx 2 0) = false ∧
    (((wInbox .serving (wRx 2 0)).noteSource (wRx 2 0)).checkRequest (wRx 2 0) 8 (fun r => r.write) true).2 = none ∧
    (((wInbox .serving (wRx 3 0)).noteSource (wRx 3 0)).checkRequest (wRx 3 0) (updLen (wRx 3 0)) (fun r => r.atomic) true).2 = none := by
  refine ⟨?_, ?_, ?_, ?_, ?_⟩ <;> decide +kernel
/-- The same device with the flag's response stored, or its SEQ covered by an ACK. -/
def wReplayed : State :=
  { wInbox .serving (wRx 2 0) with fabMem := { replay := [{ src := 3, inc := 0, seq := 9, response := wRx 9 0, at' := 0 }], sources := [(3, { ackSeq := some 9 })] } }
theorem test_w_G30_once : (wReplayed.noteSource (wRx 2 0)).replayOf (wRx 2 0) ≠ none ∧
    (({ wReplayed with fabMem := { sources := [(3, { ackSeq := some 9 })] } } : State).noteSource (wRx 2 0)).staleSeq (wRx 2 0) = true := by
  refine ⟨?_, ?_⟩ <;> decide +kernel

/-- A write waits at its home before a flag, the flag's word is in T1, and an older entry of the replay table may go. -/
def wHome (op : Fin 16) : State :=
  { wInbox .serving (wRx op 0) with
    fab := { node := some 2 }
    fabMem := { waiting := [{ space := false, off := 0, obj := 5, objOff := 0, packet := wRx op 0 }]
                replay := [{ src := 4, inc := 0, seq := 9, response := wRx 9 0, at' := 0 }], sources := [(4, { ackSeq := some 9 })] } }
theorem test_w_G31_home : (wHome 1).fabMem.waiting.all (fun w => w.touches false 0) = true ∧
    (∀ l, l ∈ [0, 1] → ({ wHome 2 with fabMem := {} } : State).fabMem.waiting.any (fun w => w.touches false l) = false) ∧
    (match ((wHome 2).at 0).fetch 5 0 (updLen (wRx 2 0)) none with | (.bytes _ false, _) => true | _ => false) = true ∧
    (wHome 2).replayOf (wRx 2 0) = none ∧ (wHome 2).staleSeq (wRx 2 0) = false := by
  refine ⟨?_, ?_, ?_, ?_, ?_⟩ <;> decide +kernel
theorem test_w_G31_desc (d : FabDesc) : (wDesc d).fdesc 0 = some d ∧ (∀ p ∈ (wDesc d).fabMem.descs, p.1 < 0 → p.2 = none) ∧
    (∀ r ∈ (wDesc d).fabMem.requests, r.desc ≠ 0) ∧ (wDesc d).windowOpen 3 = true ∧ tget none (wDesc d).fabMem.failed (0 * 4096 + 3) = some (0, 1, .capacity) ∧
    tget none (wDesc d).fabMem.failed (0 * 4096 + 4) = none :=
  ⟨rfl, fun _ _ h => absurd h (Nat.not_lt_zero _), (fun _ h => nomatch h), rfl, rfl, rfl⟩

/-- A flag towards node 3 under SEQ 9 that was sent at 0, and a packet handed over. -/
def wAsked (p : Packet) : State :=
  { wInbox .serving p with
    fab := { node := some 2, inbox := [p] }
    fabMem := { requests := [{ packet := { wRx 2 0 with h := { (wRx 2 0).h with dst := 3 } }, sentAt := 0, resends := 0, capacity := 0, desc := 0, offset := 0, counter := false }]
                dests := [(3, { ackDue := some 1, ackSeq := some 4 })] } }
theorem test_w_G32_answer : (wAsked (wRx 9 0)).fab.inbox.contains (wRx 9 0) = true ∧
    ((wAsked (wRx 9 0)).fabMem.requests.find? (fun r => r.packet.h.dst == (wRx 9 0).h.src && r.packet.h.seq == (wRx 9 0).h.seq)).isSome = true ∧
    ((wAsked (wRx 9 0)).fabMem.requests.find? (fun r => r.packet.h.dst == 4)).isNone = true ∧ ((wAsked (wRx 9 0)).requestOf 3 9).isSome = true ∧
    (wAsked (wRx 9 0)).orphan 0 = false ∧ ((wAsked (wRx 9 0)).requestOf 4 9).isNone = true := by
  refine ⟨?_, ?_, ?_, ?_, ?_, ?_⟩ <;> decide +kernel
theorem test_w_G32_ack : ((wAsked (wRx 9 0)).dest 3).ackDue = some 1 ∧ ((wAsked (wRx 9 0)).dest 3).ackSeq = some 4 ∧ ((wAsked (wRx 9 0)).dest 4).ackDue = none := by
  refine ⟨?_, ?_, ?_⟩ <;> decide +kernel

/-- An all-reduce of 256 bytes of INT32 under COLL_ID 1 between nodes 2 and 3, posted at 0 at node 2. -/
def wColl : FabDesc :=
  { bytes := [6, 0, 0, 0, 1] ++ List.replicate 123 0#8, inst := 0, generation := 0, queue := 0, ringObj := 0, entry := 0, node := 0, toSend := [], status := .ok, postedAt := 0, parts := [2, 3]
    value := List.replicate 256 0#8 }
/-- A piece of a contribution from node 3. -/
def wPiece : Packet :=
  { wRx 5 0 with coll := some { id := fCollId wColl.bytes, ckind := fCkind wColl.bytes, rop := fRop wColl.bytes, bitId := fBitId wColl.bytes, efmt := fEfmt wColl.bytes
                                length := fLength wColl.bytes, segment := 0, level := 0, offset := 0, down := false }
                 h := { (wRx 5 0).h with keyIndex := fKeyIndex wColl.bytes, keyValue := 0 } }
theorem test_w_G33 : wPiece.coll.isSome = true ∧ ({ wDesc wColl with fab := { inbox := [wPiece] } } : State).fab.inbox.contains wPiece = true ∧ wPiece.h.op = 5 ∧ wPiece.h.rlen = 0 ∧
    fOp wColl.bytes = 6 ∧ wPiece.coll.map (fun c => (c.id, collAgrees wColl wPiece c, collAgrees wColl { wPiece with h := { wPiece.h with src := 4 } } c)) =
      some (fCollId wColl.bytes, true, false) ∧ wColl.parts.any (fun n => !((wDesc wColl).node n).live) = true := by
  refine ⟨?_, ?_, ?_, ?_, ?_, ?_, ?_⟩ <;> decide +kernel

theorem test_w_G34 : ((wPort { link := .detect }).fport 1).link = .detect ∧ ((wPort { link := .training, phase := 3 }).fport 1).link = .training ∧
    ((wPort { link := .check, agreed := 0x0302 }).fport 1).agreed ≠ 0 ∧ ((wPort { link := .held }).fport 1).waitUntil ≤ max State.reset.time.now 5 ∧
    ((wPort { link := .up }).fport 1).link = .up := by
  refine ⟨?_, ?_, ?_, ?_, ?_⟩ <;> decide +kernel

/-- Node 2 with port 1 UP towards node 3, which is live, and a route table of epoch 0 that sends node 4 by port 1. -/
def wRouter : State :=
  { State.reset with
    fab := { node := some 2, ports := [(1, { link := .up, neighbourNode := some 3, credits := [2048, 2048, 2048, 2048] })]
             nodes := [(3, { live := true, versions := [0x0302] }), (4, { live := true, versions := [0x0302] })]
             tables := [{ epoch := 0, torus := false, routes := [(4, { low := [1], high := [1] })] }] } }
/-- A packet with its HCRC. -/
def wSealed (p : Packet) : Packet := { p with h := { p.h with hcrc := headerCrc p.h } }
theorem test_w_G35_port : ((wPort { link := .check }).fport 1).link = .check ∧ agreeVersion fabricOffer [0x0302] = some 0x0302 ∧ agreeVersion fabricOffer [] = none ∧
    ((wPort { link := .up, closing := some 7 }).fport 1).closing = some 7 ∧ ((wPort { link := .up }).fport 1).out = [] := by
  refine ⟨?_, ?_, ?_, ?_, ?_⟩ <;> decide +kernel
theorem test_w_G35_forward : wRouter.fab.node ≠ some (wSealed (wPacket 3 4 1 9 [] 0)).h.dst ∧ (wSealed (wPacket 3 4 1 9 [] 0)).h.hcrc = headerCrc (wSealed (wPacket 3 4 1 9 [] 0)).h ∧
    (wRouter.fport 1).neighbourNode = some (wSealed (wPacket 3 4 1 9 [] 0)).h.src ∧ (wRouter.tableFor 0).isSome = true ∧ (wRouter.tableFor 1).isNone = true ∧
    (wRouter.tableFor 0).map (fun x => (tget {} x.routes 4).low) = some [1] ∧ (wRouter.node 4).live = true ∧ (wRouter.node 5).live = false ∧
    flitsOf (wSealed (wPacket 3 4 1 9 [] 0)) ≤ 2048 := by
  refine ⟨?_, ?_, ?_, ?_, ?_, ?_, ?_, ?_, ?_⟩ <;> decide +kernel
theorem test_w_G35_deliver : wRouter.fab.node = some (wSealed { wRx 0 1 with h := { (wRx 0 1).h with dst := 2 } }).h.dst ∧
    (wRouter.node 3).inc = (wRx 0 1).h.srcInc ∧ versionRefused 0x0302 (wRx 0 1).h.version.toNat = false := by
  refine ⟨?_, ?_, ?_⟩ <;> decide +kernel

/-- Port 1 in a state, its unit and die READY, with a command taken up. -/
def wPortCmd (l : LinkState) (c : Cmd) : State :=
  { wTaken .serving 0 c with
    units := { entries := [(2 * 65536 + 2, { state := .ready }), (2 * 65536 + 3, { state := .ready }), (10 * 65536 + 1, { state := .ready })] }
    fab := { ports := [(1, { link := l })] } }
theorem test_w_G36 : Taken (wPortCmd .disabled (wCmd 0x0403 [1, 1])) 0 0x0403 (wCmd 0x0403 [1, 1]) ∧
    (wPortCmd .disabled (wCmd 0x0403 [1, 1])).accepts (fabUnit ((wCmd 0x0403 [1, 1]).arg 0x20 1)) = true ∧
    (wPortCmd .disabled (wCmd 0x0403 [2, 1])).accepts (fabUnit ((wCmd 0x0403 [2, 1]).arg 0x20 1)) = false ∧
    (wCmd 0x0403 [1, 1]).arg 0x21 1 = 1 ∧ ((wPortCmd .up (wCmd 0x0403 [1, 0])).fport ((wCmd 0x0403 [1, 0]).arg 0x20 1)).out = [] ∧
    Taken (wPortCmd .up (wCmd 0x0404 [])) 0 0x0404 (wCmd 0x0404 []) := by
  refine ⟨?_, ?_, ?_, ?_, ?_, ?_⟩ <;> first | decide +kernel | (unfold Taken; decide +kernel)

theorem test_w_G37 : ((wFlock {}).fport 1).link = .up ∧ (wFlock {}).fab.seen.contains (7, 0) = false ∧ (7 : W64) ≠ (wFlock {}).uid ∧ ((wFlock {}).core 5).restarting = false ∧
    (wFlock {}).fab.vote = none ∧ (wFlock {}).fab.bellwether = false ∧ (wFlock { bellwether := true }).fab.bellwether = true ∧
    (wFlock { vote := some 7 }).fab.voteAt + 2000000 ≤ max (wFlock {}).time.now 5000000 ∧ (wFlock { seen := [(7, 0)] }).fab.seen.contains (7, 0) = true := by
  refine ⟨?_, ?_, ?_, ?_, ?_, ?_, ?_, ?_, ?_⟩ <;> decide +kernel

theorem test_w_G38 : (wFlock { accepted := true, bwUid := 7 }).fab.bwUid = 7 ∧ ((wFlock {}).nodeOfUid 7).isNone = true ∧ (wFlock { bellwether := true }).numberFor 7 none = some 0 ∧
    ((wFlock { bellwether := true, nodes := [(3, { goneAt := some 0 })] }).node (3 : Fin 4096)).goneAt = some 0 ∧
    ((wFlock { bellwether := true, nodes := [(3, { goneAt := some 0 })] }).node (4 : Fin 4096)).goneAt = none := by
  refine ⟨?_, ?_, ?_, ?_, ?_⟩ <;> decide +kernel

theorem test_w_G39 : (wFlock { bellwether := true, planDue := true }).fab.plan = none ∧ ((wFlock { bellwether := true, planDue := true }).core 5).restarting = false ∧
    (∀ n ∈ (wFlock { bellwether := true, planDue := true }).liveNodes, ((wFlock { bellwether := true, planDue := true }).node n).uid = 7) ∧
    (wFlock { plan := some ⟨1, [], 0⟩ }).fab.plan = some ⟨1, [], 0⟩ := by
  refine ⟨?_, ?_, ?_, ?_⟩ <;> decide +kernel

/-- Lane 1 up; the primary domain listens on it, chose a grandmaster at 0 and is LOCKED with an exchange under way; the lane is a master lane too. -/
def wClock (c : Cmd) : State :=
  { wTaken .serving 0 c with
    fh := { lanes := [(1, { linkUp := true })] }
    time := { masterLanes := 2, primary := { enable := true, slaveLanes := 2, state := .locked, lastAnnounce := 1, syncSent := some 3 } } }
theorem test_w_G40 : ((wClock (wCmd 0x0501 [0])).lane (1 : Fin 32)).linkUp = true ∧ ((wClock (wCmd 0x0501 [0])).lane (2 : Fin 32)).linkUp = false ∧
    ((wClock (wCmd 0x0501 [0])).time.dom false).number = (24 : Byte).toNat ∧ bitOf ((wClock (wCmd 0x0501 [0])).time.dom false).slaveLanes.toNat 1 = true ∧
    ((wClock (wCmd 0x0501 [0])).time.dom true).enable = false ∧ (wClock (wCmd 0x0501 [0])).time.masterDomain = (24 : Byte).toNat ∧
    ((wClock (wCmd 0x0501 [0])).time.dom false).lastAnnounce + 375000000 ≤ max (wClock (wCmd 0x0501 [0])).time.now 375000000 + 1 ∧
    Taken (wClock (wCmd 0x0501 [0])) 0 0x0501 (wCmd 0x0501 [0]) ∧ ((wClock (wCmd 0x0501 [0])).time.dom ((wCmd 0x0501 [0]).arg 0x20 1 == 1)).state = .locked ∧
    ((wClock (wCmd 0x0501 [1])).time.dom ((wCmd 0x0501 [1]).arg 0x20 1 == 1)).state ≠ .locked := by
  refine ⟨?_, ?_, ?_, ?_, ?_, ?_, ?_, ?_, ?_, ?_⟩ <;> first | decide +kernel | (unfold Taken; decide +kernel)

/-- Input 1 armed for rising edges with an entry at 0, output 2 running from 0 with a pulse of 8 ns, and a command taken up. -/
def wPulse (c : Cmd) : State :=
  { wTaken .serving 0 c with time := { captures := [(1, { edge := 1, fifo := [(0, true)], last := some 0 })], tpos := [(2, { start := 0, width := 8, running := true })] } }
def wTpoCmd : Cmd := wCmd 0x0502 ([2] ++ List.replicate 7 0 ++ leBytes 8 1000000 ++ leBytes 4 1000 ++ leBytes 4 8)
theorem test_w_G41 : Taken (wPulse wTpoCmd) 0 0x0502 wTpoCmd ∧ tpoBad wTpoCmd (wPulse wTpoCmd).time.now = false ∧
    bitOf ((wPulse wTpoCmd).capture 1).edge 0 = true ∧ bitOf ((wPulse wTpoCmd).capture 2).edge 0 = false ∧ ((wPulse wTpoCmd).capture 1).fifo.length < 16 ∧
    ((wPulse wTpoCmd).tpo 2).running = true ∧ Taken (wPulse (wCmd 0x0503 [1, 2])) 0 0x0503 (wCmd 0x0503 [1, 2]) ∧ (wCmd 0x0503 [1, 2]).arg 0x21 1 = 2 := by
  refine ⟨?_, ?_, ?_, ?_, ?_, ?_, ?_, ?_⟩ <;> first | decide +kernel | (unfold Taken; decide +kernel)

/-- Lane 1 up, on a READY port of a READY die. -/
def wLane (x : Lane) : State :=
  { State.reset with
    units := { entries := (List.range 5).map (fun d => (2 * 65536 + d, { state := .ready })) ++ [(11 * 65536, { state := .ready })] }
    fh := { lanes := [(1, { x with linkUp := true })], ports := [(0, { mode := 3 })] } }
/-- A frame of another kind with 46 bytes of payload. -/
def wFrame : Frame := { dst := 1, src := 2, tagged := false, pcp := 0, dei := false, vid := 0, etherType := 0x0800, payload := List.replicate 46 0, fcsOk := true }
theorem test_w_G42_frame : ((wLane {}).lane (1 : Fin 32)).linkUp = true ∧ (wLane {}).accepts ⟨.fhPort, (1 : Fin 32).val / 4⟩ = true ∧ 60 ≤ (frameBytes wFrame).length ∧
    (frameBytes wFrame).length ≤ 9212 ∧ (wLane {}).timeLane 1 = false ∧ (wLane {}).flowOf 1 wFrame = none ∧ (1 : Nat) % 4 < modeLanes ((wLane {}).portMode 0) := by
  refine ⟨?_, ?_, ?_, ?_, ?_, ?_, ?_⟩ <;> decide +kernel
/-- Queue 5 of instance 0 on lane 1 with one descriptor, its ring at the start of object 5. -/
def wEgress (d : Bytes) : State :=
  ({ wLane {} with
     tiers := (wInbox .serving (wRx 0 1)).tiers
     queues := { cached := [(5, some { enable := true, type := 3, lane := 1, ring := 5, producer := 1, weight := 1 })]
                 groups := [(0, some { enable := true, type := 3, lane := 1, weight := 1 })] } }).wr .hbm 0 (fixLen 32 d)
theorem test_w_G42_queue : ((wEgress []).queue 5).isSome = true ∧ (wEgress []).queueOwner 5 = some 0 ∧ (wEgress []).active 0 = true ∧ (wLane {}).head 5 = none ∧
    behind 0 1000000 = true ∧ ((wLane {}).eligibleQueues 1) = [] ∧
    (({ wLane {} with queues := { cached := [(65536, some {})] } } : State).queue 65536).map (fun c => ({ wLane {} with queues := { cached := [(65536, some {})] } } : State).queueEmpty 65536 c) = some true := by
  refine ⟨?_, ?_, ?_, ?_, ?_, ?_, ?_⟩ <;> decide +kernel
theorem test_w_G42_start : ((wEgress [0, 0, 0, 0, 0, 0, 0, 0, 64]).pickFrame 1).map (fun ch => ch.queue) = some 5 ∧
    ((wEgress [0, 0, 0, 0, 0, 0, 0, 0, 64]).head 5).map (fun p => ((wEgress []).egressBad 0 p.1 p.2, eSpace p.2)) = some (false, 0) ∧
    ((wEgress []).pickFrame 1).map (fun ch => ch.queue) = some 5 ∧ ((wEgress []).head 5).map (fun p => (wEgress []).egressBad 0 p.1 p.2) = some true ∧
    (wEgress []).tdCell 1 ((wEgress []).rd .radio 0 64) = none ∧ (wEgress []).mem.poisoned (key .radio 0) 64 = false ∧
    ((wEgress [0, 0, 0, 0, 0, 0, 0, 0, 64, 0, 1]).head 5).map (fun p => (p.1.type, eDeadlineEn p.2, eDeadline p.2)) = some (3, true, 0) := by
  refine ⟨?_, ?_, ?_, ?_, ?_, ?_, ?_⟩ <;> decide +kernel

/-- A descriptor of 64 bytes within RADIO space. -/
def wCopy : Bytes := fixLen 128 (List.replicate 24 0#8 ++ leBytes 8 4096 ++ leBytes 4 64)
/-- Engine 0 READY, its channel 0 of a class enabled with that descriptor posted, and what is in progress. -/
def wEngine (radio : Bool) (run : Option DmaRun) (g : Option DmaRun) : State :=
  { State.reset with
    units := { entries := (List.range 5).map (fun d => (2 * 65536 + d, { state := .ready })) ++ [(12 * 65536, { state := .ready })] }
    dma := [(0, { chans := [(0, { enable := true, radio, log2 := 4, ring := [wCopy] })], radioRun := run, grazingRun := g })] }
theorem test_w_G43_start : (wEngine true none none).accepts ⟨.dma, 0⟩ = true ∧ State.reset.accepts ⟨.dma, 0⟩ = false ∧ (wEngine true none none).firstReady 0 true = some 0 ∧
    (wEngine false none none).firstReady 0 true = none ∧ (wEngine false none none).firstReady 0 false = some 0 ∧
    ((wEngine true none none).chan 0 0).ring.length < 2 ^ ((wEngine true none none).chan 0 0).log2 ∧ ((wEngine true none none).chan 0 1).enable = false ∧
    (wEngine true none (some { chan := 1, desc := wCopy, status := .ok, stopped := false })).readyChans 0 true = [0] := by
  refine ⟨?_, ?_, ?_, ?_, ?_, ?_, ?_, ?_⟩ <;> decide +kernel
/-- The descriptor in progress, before its read, after it, and over. -/
def wRun (read written : Nat) : DmaRun :=
  { chan := 0, desc := wCopy, status := .ok, stopped := false, read, written, buffer := List.replicate (read - written) 0#8, poison := List.replicate (read - written) false }
theorem test_w_G43_run : (wRun 0 0).move.map (fun m => (m.write, (wEngine true (some (wRun 0 0)) none).moveLoc 0 (wRun 0 0) m)) = some (false, .mem .radio 0) ∧
    (wRun 64 0).move.map (fun m => (m.write, (wEngine true (some (wRun 64 0)) none).moveLoc 0 (wRun 64 0) m)) = some (true, .mem .radio 4096) ∧
    (wEngine true (some (wRun 0 0)) none).ldmCore 0 (wRun 0 0) = none ∧ (wEngine true (some (wRun 0 0)) none).spaceServes .radio 0 = true ∧ (wRun 0 0).over = false ∧
    (wRun 64 64).over = true ∧ dBit wCopy 7 = false ∧ (wRun 64 0).over = false := by
  refine ⟨?_, ?_, ?_, ?_, ?_, ?_, ?_, ?_⟩ <;> decide +kernel

theorem test_w_G44 : (wFilter .exclusiveClean []).carries = true ∧ State.reset.carries = false ∧ (wFilter .exclusiveClean []).windowRefuses 192 64 = false ∧
    (wFilter .exclusiveClean []).windowRefuses hbmTop 64 = true ∧ (wFilter .exclusiveClean []).linesHeld 192 64 false = [3] ∧ (wFilter .sharedClean []).linesHeld 192 64 false = [] ∧
    (wFilter .sharedClean []).linesHeld 192 64 true = [3] ∧ (wFilter .sharedClean []).linesHeld 0 64 true = [] ∧ (wFilter .sharedClean []).readonlyHit 0 64 = false ∧
    (wFilter .exclusiveDirty [(3, [])]).power.recalls = [(3, [])] ∧ (wFilter .sharedClean []).radioLine 5 = false ∧ (wFilter .sharedClean []).lineState 5 = .invalid := by
  refine ⟨?_, ?_, ?_, ?_, ?_, ?_, ?_, ?_, ?_, ?_, ?_, ?_⟩ <;> decide +kernel

theorem test_w_G45 : agreeVersion fyfoyxOffer [0x0102] = some 0x0102 ∧ agreeVersion fyfoyxOffer [] = none ∧ trainWidth 0xF#32 = 4 ∧ trainWidth 0#32 = 0 ∧
    ({ wFilter .exclusiveClean [] with pkg := { resetHigh := true, latched := false } } : State).power.fyf = .active ∧
    ((wFilter .exclusiveClean []).mbox 0).closing = none ∧ ((wFilter .exclusiveClean []).mbox 0).current = none := by
  refine ⟨?_, ?_, ?_, ?_, ?_, ?_, ?_⟩ <;> decide +kernel

/-- A SERVING device with fold 3 eligible and cell 1 in a state. -/
def wAir (st : CellState) : State :=
  { wRadio .serving (wCmd 3 []) with radio := { cells := [(1, { state := st })] } }
theorem test_w_G46 : ((wAir .active).cell (1 : Fin 512)).state.onAir = true ∧ ((wAir .suspended).cell (1 : Fin 512)).state.onAir = false ∧
    ((wAir .active).cell (1 : Fin 512)).missed.contains (5, stageCode .array) = false ∧ (wAir .active).sinceSfn0 (315964819000000000 + (wAir .active).settings.penumbra) % 62500 ≠ 1 ∧
    (wAir .active).sinceSfn0 315964819000000000 % 10000000 = 0 ∧ (wAir .active).sinceSfn0 315964819000000000 % slotNs {} = 0 ∧ (wAir .active).sinceSfn0 315964819000000001 % 125000 ≠ 0 ∧
    (wAir .active).radioRuns = true ∧ (wAir .active).eligibleNow = [3] ∧ foldSet (wAir .active).eligibleNow (wAir .active).windowCharge 0 = [3] ∧ foldSet [] 0 0 = [] := by
  refine ⟨?_, ?_, ?_, ?_, ?_, ?_, ?_, ?_, ?_, ?_, ?_⟩ <;> decide +kernel

/-- Core 1 of group 0 READY with its group and die, in a run state. -/
def wCore (x : SigCore) : State :=
  { State.reset with
    units := { entries := (List.range 5).map (fun d => (2 * 65536 + d, { state := .ready })) ++ [(5 * 65536 + 1, { state := .ready }), (6 * 65536, { state := .ready })] }
    radio := { sigCores := [(1, x)] } }
theorem test_w_G47_cycle : (wCore { run := .running }).accepts ⟨.sigCore, 1⟩ = true ∧ ((wCore { run := .running, stall := 2 }).sigCore (1 : Fin 384)).stall = 2 ∧
    bundleFault 0 (({ run := .running } : SigCore).bundleAt 0) .pm (fun _ _ => false) { run := .running } = some (5, 0) ∧
    bundleFault 0 { sp := false, c := .nop, a := .nop, m := .nop, l0 := .nop, l1 := .nop, illegal := false } .clean (fun _ _ => false) { run := .running } = none ∧
    (wCore { run := .halted }).crossing 0 = [] ∧ (wCore { run := .halted }).shown ⟨.sigGroup, 0⟩ ≠ .sleeping ∧ (wCore {}).accepts ⟨.sigCore, 2⟩ = false := by
  refine ⟨?_, ?_, ?_, ?_, ?_, ?_, ?_⟩ <;> decide +kernel

/-- Engine 2 READY on its die, with a queue and perhaps a job. -/
def wJobs (st : UState) (q : List Job) (busy : Option Job) : State :=
  { State.reset with
    units := { entries := (List.range 5).map (fun d => (2 * 65536 + d, { state := .ready })) ++ [(7 * 65536 + 2, { state := st })] }
    radio := { engines := [(2, { queue := q, busy })] } }
theorem test_w_G48 : (wJobs .ready [] none).accepts ⟨.engine, 2⟩ = true ∧ (wJobs .sleeping [] none).accepts ⟨.engine, 2⟩ = false ∧ (wJobs .failed [] none).accepts ⟨.engine, 2⟩ = false ∧
    ((wJobs .sleeping [] none).unit ⟨.engine, 2⟩).state = .sleeping ∧ (wJobs .ready [⟨List.replicate 64 0, 0⟩] none).nextJob 2 = some ⟨List.replicate 64 0, 0⟩ ∧
    ((wJobs .ready [] (some ⟨List.replicate 64 0, 0⟩)).engine (2 : Fin 100)).busy.isSome = true ∧ (wJobs .ready (List.replicate 64 ⟨[], 0⟩) none).nextJob 3 = none ∧
    ((wJobs .ready (List.replicate 64 ⟨[], 0⟩) none).engine (2 : Fin 100)).queue.length = 64 := by
  refine ⟨?_, ?_, ?_, ?_, ?_, ?_, ?_, ?_⟩ <;> decide +kernel

/-- Context 9 of instance 3 in slot 1 of fold 2, in a state, with task 4 behind it. -/
def wContext (st : XState) : State :=
  { State.reset with
    folds := [(2, { slots := [(1, { state := st, inst := 3, ctxId := 9, task := some 4, relTask := some 4 })] })]
    disp := { tasks := [(4, some { desc := { (parseTask (List.replicate 256 0#8)) with inst := 3 }, queue := 65536 * 3, tiles := [], ranks := [(2, 1)] })] } }
theorem test_w_G49 : (((wContext .residing).fold 2).slot 1).state = .residing ∧ ((wContext .residing).slotTask 2 1).isSome = true ∧
    (wContext .releasing).slotsOf 3 9 = [(2, 1)] ∧ (wContext .releasing).shareCopies 3 9 = false ∧ (wContext .releasing).dmaIdle [(2, 1)] = true ∧
    (wContext .idle).act 5 = none := by
  refine ⟨?_, ?_, ?_, ?_, ?_, ?_⟩ <;> decide +kernel
/-- Task queue 70,000 of ACTIVE instance 3, generation 1, with one descriptor of instance `i` in object 5, and a record that waits. -/
def wTaskQueue (i : Byte) : State :=
  ({ State.reset with
     dev := { dstate := .serving }
     tiers := (wInbox .serving (wRx 0 1)).tiers
     insts := [(3, { state := .active, generation := 1, grant := { queueFirst := 70000, queueCount := 1 } })]
     queues := { cached := [(70000, some { enable := true, type := 1, log2 := 4, ring := 5, producer := 1 })] }
     disp := { direct := [{ kind := 2, flags := 0, status := .ok, inst := 3, fold := 255, ctxId := 0, generation := 1, rank := 0, tile := 0, tag := 0, time := 0, queue := 0, issued := 1 }] } }).wr .hbm 0 [0, 0, 0, 0, i]
theorem test_w_G49_head : (wTaskQueue 3).offered 70000 = true ∧ (wTaskQueue 3).queueOwner 70000 = some 3 ∧ (wTaskQueue 3).active 3 = true ∧
    ((wTaskQueue 3).head 70000).map (fun p => (p.1.type, (parseTask p.2).inst, (parseTask p.2).generation)) = some (1, 3, 0) ∧
    versionRefused ((wTaskQueue 3).inst 3).grant.descVersion 0 = false := by
  refine ⟨?_, ?_, ?_, ?_, ?_⟩ <;> decide +kernel
theorem test_w_G49_spoof : (wTaskQueue 4).offered 70000 = true ∧ ((wTaskQueue 4).head 70000).map (fun p => (p.1.type, (parseTask p.2).inst)) = some (1, 4) ∧
    ((wTaskQueue 4).act 70000).isSome = true := by
  refine ⟨?_, ?_, ?_⟩ <;> decide +kernel

theorem test_w_G50_start : (wArray .ok [(wEntry 0, [{}])] {}).tileMayStart 3 1 = true ∧ (wArray .ok [] {}).tileMayStart 3 2 = false ∧
    (wArray .ok [(wEntry 0, [{}])] {}).objectsBad (wEntry 0) 3 = none ∧ (wArray .ok [] {}).outputBad (wEntry 0) 3 = none ∧
    ((wArray .ok [] {}).tileHeader (wEntry 0) 3).1 = .bytes [] false ∧ reachBad (wEntry 0) [{}] ((wArray .ok [] {}).tileHeader (wEntry 0) 3).2.1 65536 = false ∧
    overCap (wEntry 0) [{}] = false := by
  refine ⟨?_, ?_, ?_, ?_, ?_, ?_, ?_⟩ <;> decide +kernel
theorem test_w_G50_groups : groupsBusy ((wArray .ok [] {}).fold 3) 1 (wEntry 0) = false ∧ groupsBad ((wArray .ok [] {}).fold 3) 1 (wEntry 0) = false ∧
    groupsStuck ((wArray .ok [] {}).fold 3) 1 (wEntry 0) = false ∧ spillRestore 1 (wEntry 0) ((wArray .ok [] { groups := (List.range 4).map (fun p => (p, { owner := some 1 })) }).fold 3) = none ∧
    64 ≤ ((wArray .ok [] { cmpReserved := 64 }).fold 3).cmpUsed ∧ groupsBusy ((wArray .ok [] { closing := [{ slot := 1, index := 0, entry := wEntry 0, phase := .merging, left := 1, status := .ok, reserved := false, header := parseWHeader [] }] }).fold 3) 1 (wEntry 0) = true ∧
    (wArray .poisoned [(wEntry 0, [{}])] {}).tileMayStart 3 1 = true := by
  refine ⟨?_, ?_, ?_, ?_, ?_, ?_, ?_⟩ <;> decide +kernel
theorem test_w_G50_spill : (spillRestore 1 (wEntry 0) ((wArray .ok [] {}).fold 3)).isSome = true := by decide +kernel
theorem test_w_G50_array : ((wArray .ok [] { octets := 4, tile := some (wTile false) }).fold 3).rowReady = true ∧ ((wArray .ok [] { octets := 4, rampingDown := true }).fold 3).rowReady = false ∧
    (wArray .ok [] { tile := some (wTile false) }).loadDue 3 = some ⟨1, 0, wEntry 0, 0, {}, false⟩ ∧ (wArray .ok [] {}).loadDue 3 = none ∧
    ((wArray .ok [(wEntry 0, [{}]), (wEntry 0, [{}])] { tile := some { wTile false with loads := 1 } }).loadDue 3).map (fun r => r.ahead) = some true ∧
    ((wArray .ok [] { penumbra := 1 }).fold 3).penumbraAt + 2000 ≤ max 0 2000 ∧ (wTile true).endBroadcast = false ∧
    (((wArray .ok [] { tile := some (wTile true), penumbra := 1 }).fold 3).slot 1).radio = false := by
  refine ⟨?_, ?_, ?_, ?_, ?_, ?_, ?_, ?_⟩ <;> decide +kernel

/-- Fold 3 with a tile, a closing tile or an action of its group 2. -/
def wEnd (x : Fold) : State := wArray .ok [(wEntry 0, [{}])] x
/-- A closing tile of slot 1 in a phase. -/
def wClosing (e : TileEntry) (p : Phase') : Closing :=
  { slot := 1, index := 0, entry := e, phase := p, left := 1, status := .ok, header := parseWHeader [] }
theorem test_w_G51_end : ((wEnd { tile := some { wTile true with failed := true, endDone := true } }).fold 3).tile.isSome = true ∧
    ((wEnd { ports := [(2, some ⟨1, 0, .convert 0⟩)], closing := [wClosing (wEntry 0) .ending] }).fold 3).port 2 = some ⟨1, 0, .convert 0⟩ ∧
    (((wEnd { closing := [wClosing (wEntry 0) .ending] }).fold 3).findClosing 1 0).isSome = true ∧ ((wEnd {}).slotTask 3 1).isSome = true ∧
    (((wEnd { closing := [wClosing { wEntry 0 with endAt := 3, target := 2 } .target] }).fold 3).findClosing 1 0).isSome = true ∧ ((wEnd {}).fold 3).holdAsked = none ∧
    ((wEnd {}).fold 3).port 2 = none := by
  refine ⟨?_, ?_, ?_, ?_, ?_, ?_, ?_⟩ <;> decide +kernel
/-- A debug command of mailbox 0 for fold 3 on a device whose debug access is enabled or not, the fold in a state. -/
def wDebug (on : Bool) (c : Cmd) (u : UnitEntry) (x : Fold) : State :=
  { wTaken .serving 0 c with
    dev := { dstate := .serving, debugAccess := on }
    units := { entries := (List.range 5).map (fun d => (2 * 65536 + d, { state := .ready })) ++ [(4 * 65536 + 3, u)] }
    folds := [(3, { x with slots := [(1, { state := .idle, inst := 3, ctxId := 9, phys := 4, logical := 4 })] })] }
theorem test_w_G51_hold : Taken (wDebug true (wCmd 0x0901 [3, 0]) { state := .ready } {}) 0 0x0901 (wCmd 0x0901 [3, 0]) ∧
    (wDebug true (wCmd 0x0901 [3, 0]) { state := .ready } {}).accepts ⟨.fold, 3⟩ = true ∧ ((wDebug true (wCmd 0x0901 [3, 0]) { state := .ready } {}).fold 3).atRest = true ∧
    ((wDebug true (wCmd 0x0901 [3, 0]) { state := .ready } { tile := some (wTile true) }).fold 3).atRest = false ∧ fdFold (wCmd 0x0901 [3, 0]) = 3 := by
  refine ⟨?_, ?_, ?_, ?_, ?_⟩ <;> first | decide +kernel | (unfold Taken; decide +kernel)
theorem test_w_G51_read : Taken (wDebug true (wCmd 0x0902 [3, 0, 1, 2, 0, 0, 4, 0, 64, 0, 0, 0, 0, 0, 0, 0]) { state := .fenced, debug := true } {}) 0 0x0902
      (wCmd 0x0902 [3, 0, 1, 2, 0, 0, 4, 0, 64, 0, 0, 0, 0, 0, 0, 0]) ∧
    (wDebug true (wCmd 0x0902 []) { state := .fenced, debug := true } {}).shown ⟨.fold, 3⟩ = .fenced ∧ (((wDebug true (wCmd 0x0902 []) { state := .fenced, debug := true } {}).fold 3).slot 1).logical = 4 ∧
    (wCmd 0x0902 [3, 0, 1, 2, 0, 0, 4, 0, 64, 0, 0, 0, 0, 0, 0, 0]).arg 0x28 8 = 64 ∧ (wCmd 0x0902 [3, 0, 1, 2, 0, 0, 4, 0, 64, 0, 0, 0, 0, 0, 0, 0]).arg 0x26 2 = 4 ∧
    Taken (wDebug true (wCmd 0x0903 [3, 0]) { state := .fenced, debug := true } {}) 0 0x0903 (wCmd 0x0903 [3, 0]) ∧
    Taken (wDebug false (wCmd 0x0903 [3, 0]) { state := .fenced, debug := true } {}) 0 0x0903 (wCmd 0x0903 [3, 0]) := by
  refine ⟨?_, ?_, ?_, ?_, ?_, ?_, ?_⟩ <;> first | decide +kernel | (unfold Taken; decide +kernel)

/-- Fold 3 with a grazing context in slot 1 whose bundle 5 of core 2 is ready, and a program of 128 KiB. -/
def wBundle (ready : Bool) : State :=
  { wArray .ok [] {} with
    folds := [(3, { slots := [(1, { state := .running, inst := 3, ctxId := 9, program := 5, bundleSet := [5] })], vcores := [(2, { bundles := [(5, { ready, pc := 16 })] })] })] }
theorem test_w_G52_bundle : ((wBundle true).fold 3).chooseBundle 2 = some (5, false) ∧ ((wBundle true).fold 3).bundleSlot 5 = some 1 ∧ ((wBundle false).fold 3).chooseBundle 2 = none ∧
    (tget ({} : VBundle) (((wBundle true).fold 3).vcore 2).bundles 5).pc < ((wBundle true).obj (((wBundle true).fold 3).slot 1).program).size ∧
    (((wBundle true).fold 3).slot 1).radio = false ∧ (((wBundle true).fold 3).slot 2).state = .empty := by
  refine ⟨?_, ?_, ?_, ?_, ?_, ?_⟩ <;> decide +kernel
theorem test_w_G52_radio : (((wRadio .serving (wCmd 1 [])).fold 3).slot 0).radio = true ∧ (((wRadio .serving (wCmd 1 [])).fold 3).slot 0).state ≠ .empty := by decide
/-- Barriers 7 and 8 one short of their targets, and what the dispatcher adds. -/
def wBarrier (adds : List Nat) : State :=
  { State.reset with disp := { adds, gated := [5], barriers := [(7, { target := 1, action := .releaseQueue 5 }), (8, { target := 1, action := .slotEnd 2 })] }, shep := { sets := [(2, [3])] } }
theorem test_w_G52_barrier : (wBarrier [7]).disp.adds.head? = some 7 ∧ ((wBarrier [7]).barrier (7 : Fin 256)).count + 1 = ((wBarrier [7]).barrier (7 : Fin 256)).target ∧
    ((wBarrier [7]).barrier (8 : Fin 256)).action = .slotEnd 2 ∧ ({ wBarrier [] with disp := { resetting := [(3, 9)] } } : State).disp.resetting ≠ [] := by decide
/-- Fold 3 holds a record of instance 3 for a queue that is no completion queue of it. -/
def wRecord : State :=
  { State.reset with folds := [(3, { cmp := [{ kind := 1, flags := 0, status := .ok, inst := 3, fold := 3, ctxId := 0, generation := 1, rank := 0, tile := 0, tag := 0, time := 0, queue := 70000, issued := 1 }] })] }
theorem test_w_G52_record : wRecord.collect (wRecord.visitOrder 0) 2 [] = ([3], false) ∧ wRecord.disp.direct = [] := by
  refine ⟨?_, ?_⟩ <;> decide +kernel

theorem test_w_G53 : ({ State.reset with units := { published := true, changeCount := 6 } } : State).units.published = true ∧ State.reset.units.published = false ∧
    State.reset.dev.debugAccess = false ∧ (∀ x ∈ [(⟨4, 4, 7⟩ : Reg)], (8 : Nat) < x.off ∨ x.off + x.size ≤ 8) ∧ (0x00110000 : Nat) < 0x00200000 := by decide
theorem test_w_G53_unit : (⟨.device, 0⟩ : UnitId) ∈ allUnits ∧ regOffset ⟨.device, 0⟩ ≠ 0 := by
  refine ⟨?_, ?_⟩
  · decide +kernel
  · unfold regOffset; rw [if_pos (by decide)]; omega

theorem test_w_G54 : exec .nocIntegrityError ({ State.reset with dev := { dstate := .serving } } : State) = .next (State.enterFenced { State.reset with dev := { dstate := .serving } }) ∧
    (State.enterFenced ({ State.reset with dev := { dstate := .serving } } : State)).dev.dstate = .fenced := by
  refine ⟨rfl, ?_⟩
  decide +kernel

/-- FAB_COMPAT_SET with ENABLE 1 for region 7, which belongs to instance 3. -/
def wCompat : State :=
  { wTaken .serving 0 (wCmd 0x0402 [7, 0, 1]) with fabMem := { regions := [(7, { state := .open', inst := 3 })] } }
theorem test_w_G55 : Taken wCompat 0 0x0402 (wCmd 0x0402 [7, 0, 1]) ∧ (wCmd 0x0402 [7, 0, 1]).arg 0x22 1 = 1 ∧ wCompat.dev.dstate.code ∈ [2, 3, 4, 7, 8] ∧
    (wCompat.region 7).state ≠ .unused ∧ (wCompat.region 7).inst ≠ 0 ∧ Taken (wTaken .serving 0 (wCmd 0x0901 [3, 0])) 0 0x0901 (wCmd 0x0901 [3, 0]) ∧
    (State.reset.fold 3).holdAsked ≠ some 0 := by
  refine ⟨?_, ?_, ?_, ?_, ?_, ?_, ?_⟩ <;> first | decide +kernel | (unfold Taken; decide +kernel)
end

section
/-! The state after reset (R12). -/

namespace Sys2Proof.Machine

/-- Table 03-2: reset lists the manager's mailbox only. -/
theorem mbox_reset (m : Nat) : State.reset.mbox m = if m = 0 then managerMailbox else {} := rfl

theorem legal_settings_reset : State.reset.settings.legal := by
  unfold Settings.legal
  decide

/-- Settles O2: each clause is a reset value; the mailboxes are read by `mbox_reset`. -/
theorem resetMeetsTheInvariant : Obligations.ResetMeetsTheInvariant := by
  refine ⟨MemLaws.wf_empty, legal_settings_reset, rfl, rfl, rfl, rfl, fun m => ?_, rfl⟩
  rw [mbox_reset]
  by_cases hm : m = 0
  · subst hm
    exact ⟨rfl, rfl⟩
  · have hv : m.val ≠ 0 := fun h => hm (Fin.ext h)
    rw [if_neg hm, if_neg hv]
    exact ⟨rfl, rfl⟩

end Sys2Proof.Machine
end

section
/-! Event rings (R106, R108, R109): what a value written to EVR_HEAD or EVR_ARM leaves in its ring. -/

namespace Sys2Proof.Machine

@[simp] theorem ring_wr (s : State) (sp : Space) (a : Nat) (b : Bytes) (k : Nat) : (s.wr sp a b).ring k = s.ring k := by
  unfold State.wr
  split <;> rfl

@[simp] theorem ring_emit (s : State) (o : Output) (k : Nat) : (s.emit o).ring k = s.ring k := rfl

theorem ring_putRecord (k : Nat) (ev : EvRecord) (s : State) :
    (s.putRecord k ev).ring k = { s.ring k with tail := ((s.ring k).tail + 1) % 2 ^ 32, arm := false } := by
  unfold State.putRecord
  dsimp only
  split <;> simp

theorem flushRing_of_nothing_held {k n : Nat} {s : State} (hheld : (s.ring k).held = []) (hdrop : (s.ring k).dropped = 0) :
    State.flushRing k n s = s := by
  cases n with
  | zero => rfl
  | succ n => simp [State.flushRing, hheld, hdrop]

theorem ring_flushRing_of_one_held {k n : Nat} {s : State} {ev : EvRecord} (hheld : (s.ring k).held = [ev])
    (hdrop : (s.ring k).dropped = 0) (hon : (s.ring k).enabled = true) (hroom : (s.ring k).full = false) :
    (State.flushRing k (n + 1) s).ring k =
      { s.ring k with held := [], tail := ((s.ring k).tail + 1) % 2 ^ 32, arm := false } := by
  have hput : ((s.modRing k (fun r => { r with held := [] })).putRecord k ev).ring k =
      { s.ring k with held := [], tail := ((s.ring k).tail + 1) % 2 ^ 32, arm := false } := by
    rw [ring_putRecord, State.ring_modRing_same]
  simp only [State.flushRing, hon, hroom, hheld, Bool.not_true, Bool.or_self, Bool.false_eq_true, if_false]
  rw [flushRing_of_nothing_held (by rw [hput]) (by rw [hput]; exact hdrop), hput]

theorem evrHead_unmapped {s : State} {k : Nat} {mapping : W32} (h : s.ringMaps k mapping = false) (head : W32) :
    s.evrHead k mapping head = s := by
  simp [State.evrHead, h]

theorem ring_evrHead_of_nothing_held {s : State} {k : Nat} {mapping : W32} (h : s.ringMaps k mapping = true)
    (hheld : (s.ring k).held = []) (hdrop : (s.ring k).dropped = 0) (head : W32) :
    (s.evrHead k mapping head).ring k = { s.ring k with head := head.toNat } := by
  rw [State.evrHead, if_pos h, flushRing_of_nothing_held (by simpa using hheld) (by simpa using hdrop),
    State.ring_modRing_same]

theorem ring_evrHead_of_one_held {s : State} {k : Nat} {mapping head : W32} {ev : EvRecord}
    (h : s.ringMaps k mapping = true) (hheld : (s.ring k).held = [ev]) (hdrop : (s.ring k).dropped = 0)
    (hon : (s.ring k).enabled = true) (hroom : ({ s.ring k with head := head.toNat } : EventRing).full = false) :
    (s.evrHead k mapping head).ring k =
      { s.ring k with head := head.toNat, held := [], tail := ((s.ring k).tail + 1) % 2 ^ 32, arm := false } := by
  rw [State.evrHead, if_pos h,
    ring_flushRing_of_one_held (by simpa using hheld) (by simpa using hdrop) (by simpa [EventRing.enabled] using hon)
      (by simpa using hroom), State.ring_modRing_same]

theorem evrArm_unmapped {s : State} {k : Nat} {mapping : W32} (h : s.ringMaps k mapping = false) (arm : Bool) :
    s.evrArm k mapping arm = s := by
  simp [State.evrArm, h]

/-- R108: records wait, so the vector goes out at once. -/
theorem evrArm_of_waiting {s : State} {k : Nat} {mapping : W32} (h : s.ringMaps k mapping = true)
    (hne : (s.ring k).tail ≠ (s.ring k).head) :
    s.evrArm k mapping true =
      (s.modRing k (fun r => { r with arm := false })).emit (.vector k (s.ring k).vecAddr (s.ring k).vecData) := by
  simp [State.evrArm, h, hne]

theorem evrArm_of_not_waiting {s : State} {k : Nat} {mapping : W32} {arm : Bool} (h : s.ringMaps k mapping = true)
    (hno : arm = false ∨ (s.ring k).tail = (s.ring k).head) :
    s.evrArm k mapping arm = s.modRing k (fun r => { r with arm }) := by
  have : (arm && (s.ring k).tail != (s.ring k).head) = false := by
    rcases hno with rfl | heq
    · rfl
    · simp [heq]
  simp [State.evrArm, h, this]

end Sys2Proof.Machine
end

section
/-! Doorbells (R113 to R115): what a write to a doorbell page does, case by case. -/

namespace Sys2Proof.Machine

theorem doorbellWrite_ignored {s : State} {p : Nat} {mapping : W32} {offset : Nat}
    (h : s.pageMaps p mapping = false ∨ 0x800 ≤ offset) (al : Bool) (v : W64) :
    s.doorbellWrite p mapping offset al v = s := by
  rcases h with h | h <;> simp [State.doorbellWrite, h]

section Mapped
variable {s : State} {p : Nat} {mapping : W32} {offset : Nat} (hmap : s.pageMaps p mapping = true) (hoff : offset < 0x800)
include hmap hoff

theorem doorbellWrite_malformed (v : W64) :
    s.doorbellWrite p mapping offset false v = s.modDbPage p (fun d => { d with malformed := satInc 32 d.malformed }) := by
  simp [State.doorbellWrite, hmap, Nat.not_le.2 hoff]

theorem doorbellWrite_aligned (v : W64) :
    s.doorbellWrite p mapping offset true v = s.takeDoorbell (p, v.toNat % 2 ^ 20, v.toNat / 2 ^ 32) := by
  have htail : bitsOf v.toNat 32 32 = v.toNat / 2 ^ 32 := Nat.mod_eq_of_lt (by have := v.isLt; omega)
  have hqueue : bitsOf v.toNat 0 20 = v.toNat % 2 ^ 20 := by simp [bitsOf]
  simp [State.doorbellWrite, hmap, Nat.not_le.2 hoff, htail, hqueue]

end Mapped

section Served
variable {s : State} {p q tail : Nat}

theorem takeDoorbell_waits (h : s.queues.doorbells.any (fun w => w.1 == p) = true) :
    s.takeDoorbell (p, q, tail) = s.waitDoorbell (p, q, tail) := by
  simp only [State.takeDoorbell, h, if_true]

variable (hfree : s.queues.doorbells.any (fun w => w.1 == p) = false)
include hfree

/-- R113: the queue belongs to another owner. -/
theorem takeDoorbell_spoof (h : s.queueOwner q ≠ some p) : s.takeDoorbell (p, q, tail) = s.doorbellSpoof p := by
  simp [State.takeDoorbell, hfree, State.serveDoorbell, h]

theorem takeDoorbell_cached {c : QCtx} (hown : s.queueOwner q = some p) (hq : s.queue q = some c)
    (hty : c.type = 1 ∨ c.type = 3 ∨ c.type = 4) : s.takeDoorbell (p, q, tail) = s.ringTail p q tail := by
  simp [State.takeDoorbell, hfree, State.serveDoorbell, hown, State.bringIn, hq, hty]

end Served

theorem raise_spoof (code inst : Nat) (u : UnitId) (x : Nat) (s : State) : (s.raise code inst u x).spoof = s.spoof :=
  (touch_raise (.refl 4831839248 s)).spoof (by decide)

theorem countSpoof_dbPages (k : Nat) (i : Option Nat) (s : State) : (s.countSpoof k i).dbPages = s.dbPages :=
  (touch_countSpoof (.refl 4831839632 s)).dbPages (by decide)

theorem countSpoof_queues (k : Nat) (i : Option Nat) (s : State) : (s.countSpoof k i).queues = s.queues :=
  (touch_countSpoof (.refl 4831839632 s)).queues (by decide)

theorem countSpoof_total (k : Nat) (i : Option Nat) (s : State) :
    (s.countSpoof k i).spoof.total = satInc 64 s.spoof.total := by
  unfold State.countSpoof
  dsimp only
  rw [apply_ite State.spoof, raise_spoof, ite_self]
  cases i <;> rfl

theorem dbPage_doorbellSpoof (p : Nat) (s : State) :
    (s.doorbellSpoof p).dbPage p = { s.dbPage p with spoof := satInc 32 (s.dbPage p).spoof } := by
  unfold State.doorbellSpoof State.dbPage
  rw [countSpoof_dbPages]
  exact State.dbPage_modDbPage_same ..

section RingTail
variable {s : State} {p q tail : Nat} {c : QCtx} (hq : s.queue q = some c) (herr : c.err = 0)
include hq herr

/-- R114: TAIL beyond the ring's size is stale. -/
theorem ringTail_stale (h : c.size < (tail + 2 ^ 32 - c.producer % 2 ^ 32) % 2 ^ 32) :
    s.ringTail p q tail = s.modDbPage p (fun d => { d with stale := satInc 32 d.stale }) := by
  have hd : (tail + 2 ^ 32 - c.producer % 2 ^ 32) % 2 ^ 32 ≠ 0 := by omega
  simp only [State.ringTail, hq, herr, ne_eq, not_true_eq_false, if_false, hd, h, if_true]

/-- R114: TAIL within the ring's size is the new producer index. -/
theorem ringTail_accepted (htail : tail < 2 ^ 32) (hne : tail ≠ c.producer % 2 ^ 32)
    (h : (tail + 2 ^ 32 - c.producer % 2 ^ 32) % 2 ^ 32 ≤ c.size) :
    s.ringTail p q tail = (s.modQueue q (fun c => { c with producer := tail, usedAt := s.time.now })).modDbPage p
      (fun d => { d with accepted := satInc 32 d.accepted }) := by
  have hd : (tail + 2 ^ 32 - c.producer % 2 ^ 32) % 2 ^ 32 ≠ 0 := by omega
  simp only [State.ringTail, hq, herr, ne_eq, not_true_eq_false, if_false, hd, Nat.not_lt.2 h]

end RingTail

@[simp] theorem queue_modQueue_same (s : State) (q : Nat) (f : QCtx → QCtx) :
    (s.modQueue q f).queue q = (s.queue q).map f := by
  simp [State.modQueue, State.setQueue, State.queue]

@[simp] theorem queue_modDbPage (s : State) (p : Nat) (f : DbPage → DbPage) (q : Nat) :
    (s.modDbPage p f).queue q = s.queue q := rfl

@[simp] theorem dbPage_modQueue (s : State) (q : Nat) (f : QCtx → QCtx) (p : Nat) :
    (s.modQueue q f).dbPage p = s.dbPage p := rfl

end Sys2Proof.Machine
end

section
/-! The control window (Table 01-6): which register a write at an offset reaches. -/

namespace Sys2Proof.Machine

/-! ## One 32-bit write -/

theorem bitOf_zero (v : Nat) : bitOf v 0 = (v % 2 == 1) := by simp [bitOf]

/-- R14: no map of a register that is written lies at these offsets. -/
theorem writeWord_unmapped {s : State} {o : Nat} (h : o < 0x00100000 ∨ (0x00110000 ≤ o ∧ o < 0x01000000) ∨
    (0x01010000 ≤ o ∧ o < 0x01100000) ∨ (0x01200000 ≤ o ∧ o < 0x03000000) ∨ 0x04000000 ≤ o) (mapping : W32) (v : Nat) :
    s.writeWord mapping o v = s := by
  rw [State.writeWord, if_neg (c := _ ∧ _) (by omega), if_neg (c := _ ∧ _) (by omega), if_neg (c := _ ∧ _) (by omega),
    if_neg (c := _ ∧ _) (by omega), ite_self]

theorem writeWord_mbx {m r : Nat} (hm : m < 16) (hr : r < 4096) (h4 : r % 4 = 0) (mapping : W32) (v : Nat) (s : State) :
    s.writeWord mapping (0x00100000 + m * 4096 + r) v = s.writeMbx m mapping r v := by
  rw [State.writeWord, if_neg (by omega), if_pos (by omega), show (0x00100000 + m * 4096 + r - 0x00100000) / 4096 = m by omega,
    show (0x00100000 + m * 4096 + r) % 4096 = r by omega]

theorem writeWord_time {r : Nat} (hr : r < 0x10000) (h4 : r % 4 = 0) (mapping : W32) (v : Nat) (s : State) :
    s.writeWord mapping (0x01000000 + r) v = s.managerOnly mapping (State.writeTimeReg r v) := by
  rw [State.writeWord, if_neg (by omega), if_neg (by omega), if_pos (by omega), Nat.add_sub_cancel_left]

theorem writeWord_ring {k r : Nat} (hk : k < 4096) (hr : r < 256) (h4 : r % 4 = 0) (mapping : W32) (v : Nat) (s : State) :
    s.writeWord mapping (0x01100000 + k * 256 + r) v = s.writeRing k mapping r v := by
  rw [State.writeWord, if_neg (by omega), if_neg (by omega), if_neg (by omega), if_pos (by omega),
    show (0x01100000 + k * 256 + r - 0x01100000) / 256 = k by omega, show (0x01100000 + k * 256 + r) % 256 = r by omega]

theorem writeWord_block {o : Nat} (hlo : 0x03000000 ≤ o) (hhi : o < 0x04000000) (h4 : o % 4 = 0) (mapping : W32) (v : Nat)
    (s : State) : s.writeWord mapping o v = s.writeBlocks mapping o v := by
  rw [State.writeWord, if_neg (by omega), if_neg (by omega), if_neg (by omega), if_neg (by omega), if_pos (by omega)]

/-! ## REGISTER_WRITE -/

theorem exec_registerWrite (mapping : W32) (offset : Nat) (wide : Bool) (v : W64) (s : State) :
    exec (.registerWrite mapping offset wide v) s = execRegisterWrite mapping offset wide v s := rfl

section Words
variable {offset : Nat} (h : offset < 0x00200000 ∨ 0x00300000 ≤ offset)
include h

theorem registerWrite_narrow (mapping : W32) (v : W64) (s : State) :
    exec (.registerWrite mapping offset false v) s = .next (s.writeWord mapping offset (v.toNat % 2 ^ 32)) := by
  rw [exec_registerWrite, execRegisterWrite, if_neg (by omega)]
  rfl

theorem registerWrite_wide (mapping : W32) (v : W64) (s : State) :
    exec (.registerWrite mapping offset true v) s =
      .next ((s.writeWord mapping offset (v.toNat % 2 ^ 32)).writeWord mapping (offset + 4) (v.toNat / 2 ^ 32)) := by
  rw [exec_registerWrite, execRegisterWrite, if_neg (by omega)]
  rfl

end Words

/-- R33: a write to a doorbell page is taken whole. -/
theorem registerWrite_doorbell {p o : Nat} (hp : p < 256) (ho : o < 4096) (mapping : W32) (wide : Bool) (v : W64) (s : State) :
    exec (.registerWrite mapping (0x00200000 + p * 4096 + o) wide v) s =
      .next (s.doorbellWrite p mapping o (wide && o % 8 == 0) v) := by
  rw [exec_registerWrite, execRegisterWrite, if_pos (by omega),
    show (0x00200000 + p * 4096 + o - 0x00200000) / 4096 = p by omega,
    show (0x00200000 + p * 4096 + o) % 4096 = o by omega, show (0x00200000 + p * 4096 + o) % 8 = o % 8 by omega]

/-- Log entry 48: the upper half of a 64-bit write is a 32-bit write of its own. -/
theorem registerWrite_wide_eq {offset : Nat} (h : offset + 4 < 0x00200000 ∨ 0x00300000 ≤ offset) (mapping : W32) (v : W64)
    (s : State) : exec (.registerWrite mapping offset true v) s =
      exec (.registerWrite mapping (offset + 4) false (v >>> 32)) (s.writeWord mapping offset (v.toNat % 2 ^ 32)) := by
  have hv : (v >>> 32).toNat % 2 ^ 32 = v.toNat / 2 ^ 32 := by
    have := v.isLt
    rw [BitVec.toNat_ushiftRight, Nat.shiftRight_eq_div_pow]
    omega
  rw [registerWrite_wide (by omega), registerWrite_narrow (by omega), hv]

/-! ## Registers that a command writes too -/

theorem registerWrite_mbxTail (m : Fin 16) (mapping : W32) (v : W64) (s : State) :
    exec (.registerWrite mapping (0x00100000 + m.val * 4096 + 0x014) false v) s =
      exec (.mbxTailWrite m mapping (v.setWidth 16)) s := by
  have hv : BitVec.ofNat 16 (v.toNat % 2 ^ 32) = v.setWidth 16 := by
    apply BitVec.eq_of_toNat_eq
    simp only [BitVec.toNat_ofNat, BitVec.toNat_setWidth]
    omega
  rw [registerWrite_narrow (by omega), writeWord_mbx m.isLt (by omega) (by omega), ← hv]
  rfl

theorem registerWrite_mbxEnable (m : Fin 16) (mapping : W32) (v : W64) (s : State) :
    exec (.registerWrite mapping (0x00100000 + m.val * 4096 + 0x010) false v) s =
      exec (.mbxEnableWrite m mapping (v.toNat % 2 == 1)) s := by
  have hv : bitOf (v.toNat % 2 ^ 32) 0 = (v.toNat % 2 == 1) := by
    rw [bitOf_zero, Nat.mod_mod_of_dvd _ (by decide)]
  rw [registerWrite_narrow (by omega), writeWord_mbx m.isLt (by omega) (by omega), ← hv]
  rfl

theorem registerWrite_evrHead (k : Fin 4096) (mapping : W32) (v : W64) (s : State) :
    exec (.registerWrite mapping (0x01100000 + k.val * 256 + 0x24) false v) s =
      exec (.evrHeadWrite k mapping (v.setWidth 32)) s := by
  have hv : BitVec.ofNat 32 (v.toNat % 2 ^ 32) = v.setWidth 32 := by
    apply BitVec.eq_of_toNat_eq
    simp only [BitVec.toNat_ofNat, BitVec.toNat_setWidth]
    omega
  rw [registerWrite_narrow (by omega), writeWord_ring k.isLt (by omega) (by omega), ← hv]
  rfl

theorem registerWrite_evrArm (k : Fin 4096) (mapping : W32) (v : W64) (s : State) :
    exec (.registerWrite mapping (0x01100000 + k.val * 256 + 0x28) false v) s =
      exec (.evrArmWrite k mapping (v.toNat % 2 == 1)) s := by
  have hv : bitOf (v.toNat % 2 ^ 32) 0 = (v.toNat % 2 == 1) := by
    rw [bitOf_zero, Nat.mod_mod_of_dvd _ (by decide)]
  rw [registerWrite_narrow (by omega), writeWord_ring k.isLt (by omega) (by omega), ← hv]
  rfl

/-! ## Registers of the time block -/

theorem testBit_w1c (event v i : Nat) : (w1c event v).testBit i = (event.testBit i && !v.testBit i) := by
  show (event ^^^ (event &&& v)).testBit i = _
  rw [Nat.testBit_xor, Nat.testBit_and]
  cases event.testBit i <;> simp

theorem writeTimeReg_event (v : Nat) (s : State) :
    s.writeTimeReg 0x38 v = s.modTime (fun t => { t with event := w1c t.event v }) := rfl

theorem writeTimeReg_lockNs (v : Nat) (s : State) :
    s.writeTimeReg 0x24 v = s.modTime (fun t => { t with lockNs := v % 65536 }) := rfl

theorem only_modTime (s : State) (f : TimeBlk → TimeBlk) : Only [.time] s (s.modTime f) :=
  (touch_modTime (.refl 524288 s)).only

end Sys2Proof.Machine
end

section
/-! Writes to the control window (R11, R106 to R115). -/

namespace Sys2Proof.Machine

/-- R114: what a doorbell leaves that names a cached queue of its own page and of a type that takes doorbells. -/
theorem ringTail_effect {s : State} {p q tail : Nat} {c : QCtx} (hq : s.queue q = some c) (herr : c.err = 0)
    (htail : tail < 2 ^ 32) (hne : tail ≠ c.producer % 2 ^ 32) :
    ((tail + 2 ^ 32 - c.producer % 2 ^ 32) % 2 ^ 32 ≤ c.size →
      (s.ringTail p q tail).queue q = some { c with producer := tail, usedAt := s.time.now } ∧
      (s.ringTail p q tail).dbPage p = { s.dbPage p with accepted := satInc 32 (s.dbPage p).accepted }) ∧
    (c.size < (tail + 2 ^ 32 - c.producer % 2 ^ 32) % 2 ^ 32 → (s.ringTail p q tail).queues = s.queues ∧
      (s.ringTail p q tail).dbPage p = { s.dbPage p with stale := satInc 32 (s.dbPage p).stale }) := by
  refine ⟨fun h => ?_, fun h => ?_⟩
  · rw [ringTail_accepted hq herr htail hne h, queue_modDbPage, queue_modQueue_same, hq, State.dbPage_modDbPage_same,
      dbPage_modQueue]
    exact ⟨rfl, rfl⟩
  · rw [ringTail_stale hq herr h]
    exact ⟨rfl, State.dbPage_modDbPage_same ..⟩

theorem registerWrite_event (v : W64) (s : State) :
    ∃ t, exec (.registerWrite Config.managerMapping 0x01000038 false v) s = .next t ∧ Only [.time] s t ∧
      ∀ i, t.time.event.testBit i = (s.time.event.testBit i && !(decide (i < 32) && v.toNat.testBit i)) := by
  rw [registerWrite_narrow (by omega), show 0x01000038 = 0x01000000 + 0x38 from rfl, writeWord_time (by omega) (by omega),
    State.managerOnly, if_pos rfl, writeTimeReg_event]
  refine ⟨_, rfl, only_modTime s _, fun i => ?_⟩
  rw [← Nat.testBit_mod_two_pow]
  exact testBit_w1c ..

theorem registerWrite_lockNs (v : W64) (mapping : W32) (s : State) :
    ∃ t, exec (.registerWrite mapping 0x01000024 false v) s = .next t ∧
      t.time = (if mapping = Config.managerMapping then { s.time with lockNs := v.toNat % 65536 } else s.time) ∧
      Only [.time] s t := by
  rw [registerWrite_narrow (by omega), show 0x01000024 = 0x01000000 + 0x24 from rfl, writeWord_time (by omega) (by omega),
    State.managerOnly, writeTimeReg_lockNs, Nat.mod_mod_of_dvd _ (by decide)]
  refine ⟨_, rfl, ?_, ?_⟩
  · split <;> rfl
  · split
    · exact only_modTime s _
    · exact (Touch.refl 524288 s).only

/-- R14: the whole write lies beyond every map. -/
theorem registerWrite_outside {offset : Nat} (h : 0x04000000 ≤ offset ∨ offset + 8 ≤ 0x00100000) (mapping : W32)
    (wide : Bool) (v : W64) (s : State) : exec (.registerWrite mapping offset wide v) s = .next s := by
  cases wide
  · rw [registerWrite_narrow (by omega), writeWord_unmapped (by omega)]
  · rw [registerWrite_wide (by omega), writeWord_unmapped (by omega), writeWord_unmapped (by omega)]

/-- Settles O19: ring writes by the laws of `flushRing`, doorbells case by case of R113 to R115, register writes by the
map that their offset lies in. -/
theorem writesToTheControlWindow : Obligations.WritesToTheControlWindow := by
  refine ⟨?head, ?arm, ?ignored, ?malformed, ?waits, ?spoof, ?cached, ?routed, fun s v => registerWrite_event v s,
    fun s v mapping => registerWrite_lockNs v mapping s, fun s mapping offset wide v h => registerWrite_outside h mapping wide v s,
    ?halves⟩
  case head =>
    intro s k mapping head
    refine ⟨s.evrHead k mapping head, rfl, (touch_evrHead (.refl 4831839248 s)).only, fun h => ?_, fun h hheld hdrop => ?_,
      fun r h hheld hdrop hon hroom => ?_⟩
    · exact evrHead_unmapped h head
    · exact ring_evrHead_of_nothing_held h hheld hdrop head
    · exact ring_evrHead_of_one_held h hheld hdrop hon hroom
  case arm =>
    intro s k mapping arm
    refine ⟨s.evrArm k mapping arm, rfl, (touch_evrArm (.refl 536870928 s)).only, fun h => ?_, fun h harm hne => ?_,
      fun h hno => ?_⟩
    · exact evrArm_unmapped h arm
    · rw [harm, evrArm_of_waiting h hne, ring_emit, State.ring_modRing_same]
      exact ⟨rfl, rfl⟩
    · rw [evrArm_of_not_waiting h hno]
      exact ⟨State.ring_modRing_same .., rfl⟩
  case ignored =>
    intro s p mapping offset al v h
    exact congrArg Host.Outcome.next (doorbellWrite_ignored h al v)
  case malformed =>
    intro s p mapping offset v hmap hoff
    refine ⟨_, congrArg Host.Outcome.next (doorbellWrite_malformed hmap hoff v), State.dbPage_modDbPage_same .., ?_⟩
    exact (touch_modDbPage (.refl 64 s)).only
  case waits =>
    intro s p mapping offset v hmap hoff hany
    refine ⟨_, congrArg Host.Outcome.next ((doorbellWrite_aligned hmap hoff v).trans (takeDoorbell_waits hany)), ?_, rfl⟩
    exact (touch_waitDoorbell (.refl 8192 s)).only
  case spoof =>
    intro s p mapping offset v hmap hoff hany hown
    refine ⟨_, congrArg Host.Outcome.next ((doorbellWrite_aligned hmap hoff v).trans (takeDoorbell_spoof hany hown)),
      dbPage_doorbellSpoof .., countSpoof_total .., countSpoof_queues .., ?_⟩
    exact (touch_doorbellSpoof (.refl 4831839696 s)).only
  case cached =>
    intro s p mapping offset v c hmap hoff hany hown hq hty herr hne
    have htail : v.toNat / 2 ^ 32 < 2 ^ 32 := by have := v.isLt; omega
    obtain ⟨haccepted, hstale⟩ := ringTail_effect (p := p) hq herr htail hne
    refine ⟨_, congrArg Host.Outcome.next ((doorbellWrite_aligned hmap hoff v).trans (takeDoorbell_cached hany hown hq hty)),
      haccepted, hstale, ?_⟩
    exact (touch_ringTail (.refl 8256 s)).only
  case routed =>
    intro s mapping v
    refine ⟨fun m => ⟨?_, ?_⟩, fun k => ⟨?_, ?_⟩, fun p o ho => ?_⟩
    · exact registerWrite_mbxTail m mapping v s
    · exact registerWrite_mbxEnable m mapping v s
    · exact registerWrite_evrHead k mapping v s
    · exact registerWrite_evrArm k mapping v s
    · exact registerWrite_doorbell p.isLt ho mapping true v s
  case halves =>
    intro s mapping offset v h
    exact ⟨_, registerWrite_narrow (by omega) mapping v s, registerWrite_wide_eq h mapping v s⟩

end Sys2Proof.Machine
end

section
/-! The Peloth table as bytes (R45, R46): its length, and the words of its header and of its end entry. -/

namespace Sys2Proof.Machine

/-! ## Little-endian fields -/

@[simp] theorem length_leBytes (n v : Nat) : (leBytes n v).length = n := by
  induction n generalizing v with
  | zero => rfl
  | succ n ih => simp [leBytes, ih]

theorem leNat_leBytes (n v : Nat) : leNat (leBytes n v) = v % 256 ^ n := by
  induction n generalizing v with
  | zero => simp [leBytes, leNat, Nat.mod_one]
  | succ n ih =>
    have hbyte : (BitVec.ofNat 8 (v % 256)).toNat = v % 256 := by simp
    rw [leBytes, leNat, hbyte, ih, Nat.pow_succ', Nat.mod_mul]

theorem leBytes_add (m n v : Nat) : leBytes (m + n) v = leBytes m v ++ leBytes n (v / 256 ^ m) := by
  induction m generalizing v with
  | zero => simp [leBytes]
  | succ m ih =>
    rw [Nat.add_right_comm, leBytes, ih, leBytes, List.cons_append, Nat.div_div_eq_div_mul, ← Nat.pow_succ']

/-- Two 16-bit fields are one word. -/
theorem leBytes_pair {a b w : Nat} (ha : a < 2 ^ 16) (hw : w = a + 2 ^ 16 * b) :
    leBytes 2 a ++ leBytes 2 b = leBytes 4 w := by
  subst hw
  have hlow : leBytes 2 (a + 2 ^ 16 * b) = leBytes 2 a := by
    have hfirst : (a + 2 ^ 16 * b) % 256 = a % 256 := by omega
    have hsecond : (a + 2 ^ 16 * b) / 256 % 256 = a / 256 % 256 := by omega
    simp only [leBytes, hfirst, hsecond]
  rw [leBytes_add 2 2, hlow, show (a + 2 ^ 16 * b) / 256 ^ 2 = b by omega]

/-- Word `i` of a string of words. -/
theorem leNat_word (ws : List Nat) (rest : Bytes) (i : Nat) (h : i < ws.length) :
    leNat (((ws.flatMap (leBytes 4) ++ rest).drop (4 * i)).take 4) = ws[i] % 2 ^ 32 := by
  induction ws generalizing i with
  | nil => exact absurd h (Nat.not_lt_zero i)
  | cons w ws ih =>
    rw [List.flatMap_cons, List.append_assoc]
    cases i with
    | zero => rw [Nat.mul_zero, List.drop_zero, List.take_left' (length_leBytes 4 w), leNat_leBytes]; rfl
    | succ i =>
      rw [Nat.mul_succ, Nat.add_comm, ← List.drop_drop, List.drop_left' (length_leBytes 4 w)]
      exact ih i (Nat.lt_of_succ_lt_succ h)

/-! ## Lengths of the parts -/

theorem length_flatMap_of_forall {α : Type} (l : List α) (f : α → Bytes) (n : Nat) (h : ∀ a ∈ l, (f a).length = n) :
    (l.flatMap f).length = n * l.length := by
  rw [List.length_flatMap, List.map_congr_left h, List.map_const', List.sum_replicate_nat, Nat.mul_comm]

theorem length_allUnits : allUnits.length = 720 := by simp [allUnits, unitTypes, typeRange]

theorem length_unitEntry (s : State) (u : UnitId) : (s.unitEntry u).length = 40 := by simp [State.unitEntry]

theorem length_ifaceEntry (i : Nat × List Nat) : (ifaceEntry i).length = 16 := by
  simp [ifaceEntry, fixLen]
  omega

theorem length_classEntry : classEntry.length = 32 := by simp [classEntry]

theorem tableLength_eq : tableLength = 28968 := by
  rw [tableLength, length_allUnits]
  rfl

/-! ## The words of the table -/

/-- The words of the header (Table 02-1). -/
def State.headerWords (s : State) : List Nat :=
  [0x544C4550, 0x0100, tableLength, entryCount, s.units.changeCount, s.units.changeCount / 2 ^ 32, s.fuses.uid.toNat,
   s.fuses.uid.toNat / 2 ^ 32]

theorem entryCount_eq : entryCount = 728 := by
  rw [entryCount, length_allUnits]
  rfl

theorem tableHeader_eq_words (s : State) : s.tableHeader = s.headerWords.flatMap (leBytes 4) := by
  have hversion : leBytes 2 0x0100 ++ leBytes 2 0 = leBytes 4 0x0100 := leBytes_pair (by omega) (by omega)
  have hcount : leBytes 2 entryCount ++ leBytes 2 0 = leBytes 4 entryCount :=
    leBytes_pair (by rw [entryCount_eq]; omega) (by omega)
  have hwide : ∀ v, leBytes 8 v = leBytes 4 v ++ leBytes 4 (v / 2 ^ 32) := fun v => leBytes_add 4 4 v
  simp only [State.tableHeader, State.headerWords, List.flatMap_cons, List.flatMap_nil, List.append_nil, ← hversion,
    ← hcount, hwide, List.append_assoc]

theorem endEntry_eq_words : endEntry = [0x0008FFFF, 0].flatMap (leBytes 4) := by
  have hmark : leBytes 2 0xFFFF ++ leBytes 2 8 = leBytes 4 0x0008FFFF := leBytes_pair (by omega) (by omega)
  simp only [endEntry, hmark, List.flatMap_cons, List.flatMap_nil, List.append_nil]

/-- The entries of the table but for the end entry. -/
def State.tableEntries (s : State) : Bytes := allUnits.flatMap s.unitEntry ++ (interfaces.flatMap ifaceEntry ++ classEntry)

theorem length_headerWords_bytes (s : State) : (s.headerWords.flatMap (leBytes 4)).length = 32 := by
  simp [State.headerWords]

theorem length_tableEntries (s : State) : s.tableEntries.length = 28928 := by
  simp only [State.tableEntries, List.length_append, length_classEntry,
    length_flatMap_of_forall _ _ _ (fun u _ => length_unitEntry s u),
    length_flatMap_of_forall _ _ _ (fun i _ => length_ifaceEntry i), length_allUnits]
  rfl

theorem table_unpublished {s : State} (h : s.units.published = false) : s.table = [] := by simp [State.table, h]

section Published
variable {s : State} (h : s.units.published = true)
include h

theorem table_published :
    s.table = s.headerWords.flatMap (leBytes 4) ++ (s.tableEntries ++ [0x0008FFFF, 0].flatMap (leBytes 4)) := by
  rw [State.table, if_pos h, tableHeader_eq_words, endEntry_eq_words, State.tableEntries]
  simp only [List.append_assoc]

theorem length_table : s.table.length = 28968 := by
  rw [table_published h, List.length_append, List.length_append, length_headerWords_bytes, length_tableEntries]
  rfl

theorem readWord_header (i : Nat) (hi : i < 8) : s.readWord (4 * i) = (s.headerWords[i]'hi) % 2 ^ 32 := by
  rw [State.readWord, if_neg (by omega), if_pos (by omega), table_published h]
  exact leNat_word s.headerWords _ i hi

theorem readWord_end : s.readWord (s.table.length - 8) = 0x0008FFFF := by
  have hlen : (s.headerWords.flatMap (leBytes 4) ++ s.tableEntries).length = 28960 := by
    rw [List.length_append, length_headerWords_bytes, length_tableEntries]
  rw [length_table h, State.readWord, if_neg (by omega), if_pos (by omega), table_published h, ← List.append_assoc,
    List.drop_left' hlen]
  exact leNat_word [0x0008FFFF, 0] [] 0 (by decide)

end Published

end Sys2Proof.Machine
end

section
/-! The unit register blocks (R34; log entry 3): the pages that the device gives to the units do not overlap, whether it
places them itself or they lie in the order of the table. -/

namespace Sys2Proof.Machine

theorem mem_allUnits {u : UnitId} :
    u ∈ allUnits ↔ (typeRange u.ty).1 ≤ u.idx ∧ u.idx < (typeRange u.ty).1 + (typeRange u.ty).2 := by
  obtain ⟨ty, i⟩ := u
  simp only [allUnits, List.mem_flatMap, List.mem_map, List.mem_range, UnitId.mk.injEq]
  constructor
  · rintro ⟨_, _, j, hj, rfl, rfl⟩
    omega
  · rintro ⟨hlo, hhi⟩
    exact ⟨ty, by cases ty <;> decide, i - (typeRange ty).1, by omega, rfl, by omega⟩

theorem mem_blockUnits {u : UnitId} : u ∈ blockUnits ↔ u ∈ allUnits ∧ hasBlock u = true := List.mem_filter

/-- The device is one unit (Table 02-2). -/
theorem eq_of_device {u v : UnitId} (hu : u ∈ allUnits) (hv : v ∈ allUnits) (hut : u.ty = .device) (hvt : v.ty = .device) :
    u = v := by
  obtain ⟨tu, i⟩ := u
  obtain ⟨tv, j⟩ := v
  subst hut hvt
  simp only [mem_allUnits, typeRange] at hu hv
  rw [UnitId.mk.injEq]
  exact ⟨rfl, by omega⟩

theorem regPages_pos (u : UnitId) : 0 < regPages u := by
  unfold regPages
  split <;> omega

theorem regPages_of_not_device {u : UnitId} (h : u.ty ≠ .device) : regPages u = 1 := if_neg h

/-- What `placesOk` checks. -/
theorem placesOk_iff (f : Nat → Nat) : placesOk f = true ↔ ∀ u ∈ blockUnits, f (unitKey u) + regPages u ≤ 4096 ∧
    ∀ v ∈ blockUnits, u = v ∨ f (unitKey u) + regPages u ≤ f (unitKey v) ∨ f (unitKey v) + regPages v ≤ f (unitKey u) := by
  simp only [placesOk, List.all_eq_true, Bool.and_eq_true, Bool.or_eq_true, beq_iff_eq, decide_eq_true_eq]

/-- Units at the same place of the list of blocks are one unit. -/
theorem eq_of_idxOf_blockUnits {u v : UnitId} (hu : u ∈ blockUnits) (hv : v ∈ blockUnits)
    (h : blockUnits.idxOf u = blockUnits.idxOf v) : u = v := by
  have hget : ∀ w (hw : w ∈ blockUnits), blockUnits[blockUnits.idxOf w]? = some w := fun w hw => by
    rw [List.getElem?_eq_getElem (List.idxOf_lt_length_iff.2 hw), List.getElem_idxOf]
  rw [← Option.some_inj, ← hget u hu, ← hget v hv, h]

/-- The page of a unit where the blocks lie in the order of the table. -/
def orderedPage (u : UnitId) : Nat := if u.ty = .device then 0 else 11 + blockUnits.idxOf u

theorem regPage_eq_place (h : placesOk Config.regPlace = true) (u : UnitId) : regPage u = Config.regPlace (unitKey u) := if_pos h

theorem regPage_eq_ordered (h : placesOk Config.regPlace ≠ true) (u : UnitId) : regPage u = orderedPage u := if_neg h

theorem orderedPage_fits {u : UnitId} (hu : u ∈ blockUnits) : orderedPage u + regPages u ≤ 4096 := by
  have hidx : blockUnits.idxOf u < blockUnits.length := List.idxOf_lt_length_iff.2 hu
  have hlen : blockUnits.length ≤ 720 := Nat.le_trans (List.length_filter_le ..) (Nat.le_of_eq length_allUnits)
  unfold orderedPage regPages
  split <;> omega

theorem orderedPage_disjoint {u v : UnitId} (hu : u ∈ blockUnits) (hv : v ∈ blockUnits) (hne : v ≠ u) :
    orderedPage u + regPages u ≤ orderedPage v ∨ orderedPage v + regPages v ≤ orderedPage u := by
  have hidx : blockUnits.idxOf u ≠ blockUnits.idxOf v := fun h => hne (eq_of_idxOf_blockUnits hu hv h).symm
  by_cases hut : u.ty = .device <;> by_cases hvt : v.ty = .device
  · exact absurd (eq_of_device (mem_blockUnits.1 hv).1 (mem_blockUnits.1 hu).1 hvt hut) hne
  · left
    simp [orderedPage, regPages, hut, hvt]
  · right
    simp [orderedPage, regPages, hut, hvt]
  · simp only [orderedPage, regPages, hut, hvt, if_false]
    omega

theorem regPage_fits {u : UnitId} (hu : u ∈ blockUnits) : regPage u + regPages u ≤ 4096 := by
  by_cases h : placesOk Config.regPlace = true
  · rw [regPage_eq_place h]
    exact ((placesOk_iff _).1 h u hu).1
  · rw [regPage_eq_ordered h]
    exact orderedPage_fits hu

theorem regPage_disjoint {u v : UnitId} (hu : u ∈ blockUnits) (hv : v ∈ blockUnits) (hne : v ≠ u) :
    regPage u + regPages u ≤ regPage v ∨ regPage v + regPages v ≤ regPage u := by
  by_cases h : placesOk Config.regPlace = true
  · rw [regPage_eq_place h, regPage_eq_place h]
    exact (((placesOk_iff _).1 h u hu).2 v hv).resolve_left hne.symm
  · rw [regPage_eq_ordered h, regPage_eq_ordered h]
    exact orderedPage_disjoint hu hv hne

theorem regOffset_of_hasBlock {u : UnitId} (h : hasBlock u = true) : regOffset u = 0x03000000 + 4096 * regPage u := if_pos h

theorem regSize_of_hasBlock {u : UnitId} (h : hasBlock u = true) : regSize u = 4096 * regPages u := if_pos h

theorem hasBlock_of_regOffset_ne_zero {u : UnitId} (h : regOffset u ≠ 0) : hasBlock u = true := by
  by_cases hb : hasBlock u = true
  · exact hb
  · exact absurd (if_neg hb) h

/-- Every register block that an entry names lies in the unit register blocks and overlaps no other. -/
theorem registerBlocks_disjoint {u : UnitId} (hu : u ∈ allUnits) (hoff : regOffset u ≠ 0) :
    0x03000000 ≤ regOffset u ∧ regOffset u % 4096 = 0 ∧ regOffset u + regSize u ≤ 0x04000000 ∧ 0 < regSize u ∧
    ∀ v ∈ allUnits, regOffset v ≠ 0 → v ≠ u → regOffset u + regSize u ≤ regOffset v ∨ regOffset v + regSize v ≤ regOffset u := by
  have hub := hasBlock_of_regOffset_ne_zero hoff
  have hum : u ∈ blockUnits := mem_blockUnits.2 ⟨hu, hub⟩
  have hfits := regPage_fits hum
  have hpos := regPages_pos u
  rw [regOffset_of_hasBlock hub, regSize_of_hasBlock hub]
  refine ⟨by omega, by omega, by omega, by omega, fun v hv hvoff hne => ?_⟩
  have hvb := hasBlock_of_regOffset_ne_zero hvoff
  have hdis := regPage_disjoint hum (mem_blockUnits.2 ⟨hv, hvb⟩) hne
  rw [regOffset_of_hasBlock hvb, regSize_of_hasBlock hvb]
  omega

theorem blockAt_eq_none {o : Nat} (h : ∀ u ∈ allUnits, hasBlock u = true → o < regOffset u ∨ regOffset u + regSize u ≤ o) :
    blockAt o = none := by
  refine List.find?_eq_none.2 (fun u hu => ?_)
  obtain ⟨hmem, hblock⟩ := mem_blockUnits.1 hu
  have := h u hmem hblock
  rw [decide_eq_true_eq]
  omega

end Sys2Proof.Machine
end

section
/-! Reads of the control window (R11, R14, R33, R35). -/

namespace Sys2Proof.Machine

/-- R14: no register of the map lies at the offset. -/
theorem regWord_eq_zero {l : List Reg} {r : Nat} (h : ∀ x ∈ l, r < x.off ∨ x.off + x.size ≤ r) : regWord l r = 0 := by
  have hnone : l.find? (fun x => decide (x.off ≤ r ∧ r < x.off + x.size)) = none := by
    refine List.find?_eq_none.2 (fun x hx => ?_)
    have := h x hx
    rw [decide_eq_true_eq]
    omega
  rw [regWord, hnone]

theorem readWord_unaligned {o : Nat} (h : o % 4 ≠ 0) (s : State) : s.readWord o = 0 := if_pos h

theorem readWord_unpublished {s : State} (h : s.units.published = false) {o : Nat} (ho : o < 0x00100000) : s.readWord o = 0 := by
  by_cases h4 : o % 4 = 0
  · rw [State.readWord, if_neg (not_not_intro h4), if_pos ho, table_unpublished h, List.drop_nil, List.take_nil]
    rfl
  · exact readWord_unaligned h4 s

theorem readWord_between_maps {o : Nat} (h : (0x00110000 ≤ o ∧ o < 0x00200000) ∨ (0x00300000 ≤ o ∧ o < 0x01000000) ∨
    (0x01010000 ≤ o ∧ o < 0x01100000) ∨ (0x01200000 ≤ o ∧ o < 0x02000000)) (s : State) : s.readWord o = 0 := by
  by_cases h4 : o % 4 = 0
  · rw [State.readWord, if_neg (not_not_intro h4)]
    rcases h with ⟨hlo, hhi⟩ | ⟨hlo, hhi⟩ | ⟨hlo, hhi⟩ | ⟨hlo, hhi⟩
    · iterate 2 rw [if_neg (by omega)]
      exact if_pos hhi
    · iterate 4 rw [if_neg (by omega)]
      exact if_pos hhi
    · iterate 6 rw [if_neg (by omega)]
      exact if_pos hhi
    · iterate 8 rw [if_neg (by omega)]
      exact if_pos hhi
  · exact readWord_unaligned h4 s

theorem readWord_debug {o : Nat} (hlo : 0x02000000 ≤ o) (hhi : o < 0x03000000) (h4 : o % 4 = 0) (s : State) :
    s.readWord o = s.readDebug (o - 0x02000000) := by
  rw [State.readWord, if_neg (not_not_intro h4)]
  iterate 9 rw [if_neg (by omega)]
  exact if_pos hhi

/-- R35: the debug block reads 0 while debug access is disabled. -/
theorem readWord_debug_disabled {s : State} (h : s.dev.debugAccess = false) {o : Nat} (hlo : 0x02000000 ≤ o)
    (hhi : o < 0x03000000) : s.readWord o = 0 := by
  by_cases h4 : o % 4 = 0
  · rw [readWord_debug hlo hhi h4]
    simp [State.readDebug, h]
  · exact readWord_unaligned h4 s

/-- R14: no entry names a block at the offset. -/
theorem readWord_no_block {o : Nat} (hlo : 0x03000000 ≤ o) (hnone : blockAt o = none) (s : State) : s.readWord o = 0 := by
  by_cases h4 : o % 4 = 0
  · rw [State.readWord, if_neg (not_not_intro h4)]
    iterate 10 rw [if_neg (by omega)]
    rw [hnone]
    exact ite_self 0
  · exact readWord_unaligned h4 s

theorem writeWord_no_block {o : Nat} (hlo : 0x03000000 ≤ o) (hhi : o < 0x04000000) (hnone : blockAt o = none)
    (mapping : W32) (v : Nat) (s : State) : s.writeWord mapping o v = s := by
  by_cases h4 : o % 4 = 0
  · rw [writeWord_block hlo hhi h4, State.writeBlocks, hnone]
    exact ite_self s
  · exact if_pos h4

/-- Settles O58: the table by its words, the register blocks by their pages, reads and writes outside every map by the
region that their offset lies in. -/
theorem thePelothTableAndReadsOfTheControlWindow : Obligations.ThePelothTableAndReadsOfTheControlWindow := by
  refine ⟨fun s h o ho => readWord_unpublished h ho, ?table, fun u hu hoff => registerBlocks_disjoint hu hoff, ?unmapped,
    fun l r h => regWord_eq_zero h, ?debug⟩
  case table =>
    intro s h
    have hlen := length_table h
    refine ⟨readWord_header h 0 (by omega), readWord_header h 4 (by omega), readWord_header h 5 (by omega), ?_,
      by omega, readWord_end h⟩
    rw [hlen, ← tableLength_eq]
    have hlt : tableLength < 2 ^ 32 := by rw [tableLength_eq]; omega
    exact (readWord_header h 2 (by omega)).trans (Nat.mod_eq_of_lt hlt)
  case unmapped =>
    intro s mapping o v h
    rw [registerWrite_narrow (by omega)]
    simp only [← or_assoc] at h
    rcases h with hgap | ⟨hlo, hhi, hout⟩
    · rw [writeWord_unmapped (by omega)]
      exact ⟨readWord_between_maps (by omega) s, rfl⟩
    · have hnone := blockAt_eq_none hout
      rw [writeWord_no_block hlo hhi hnone]
      exact ⟨readWord_no_block hlo hnone s, rfl⟩
  case debug =>
    intro s mapping o v h hlo hhi
    rw [registerWrite_narrow (by omega), writeWord_unmapped (by omega)]
    exact ⟨readWord_debug_disabled h hlo hhi, rfl⟩

end Sys2Proof.Machine
end

section
/-! The entries of units (R49, R51, R58): what an update of the table leaves in each entry, and which operations leave the
entries alone. -/

namespace Sys2Proof.Machine

theorem Touch.unit {w : Nat} {s t : State} (h : Touch w s t) (v : UnitId) (hw : w.testBit 2 = false := by decide) :
    t.unit v = s.unit v := by
  rw [State.unit, h.units hw, State.unit]

/-- STATE_CHANGE is stamped and nothing else. -/
theorem tget_stamped (l : List (UnitId × UState)) (c : Nat) (t : List (Nat × UnitEntry)) (k : Nat) :
    ∃ n, tget {} (l.foldl (fun t p => tmod ({} : UnitEntry) t (unitKey p.1) (fun e => { e with stateChange := c })) t) k =
      { tget {} t k with stateChange := n } := by
  induction l generalizing t with
  | nil => exact ⟨_, rfl⟩
  | cons p l ih =>
    obtain ⟨n, hn⟩ := ih (tmod ({} : UnitEntry) t (unitKey p.1) (fun e => { e with stateChange := c }))
    refine ⟨n, ?_⟩
    rw [List.foldl_cons, hn, tget_tmod]
    split
    · subst_vars
      rfl
    · rfl

theorem unit_tableChange (s : State) (v : UnitId) : s.tableChange.unit v = s.unit v := by
  have hraise : s.tableChange.units = { s.units with changeCount := (s.units.changeCount + 2) % 2 ^ 64 } :=
    (Reports.raise ..).get.2.2.1
  rw [State.unit, hraise, State.unit]

/-- An update of the table writes its entry, stamps the entries whose shown state changed, and reports it (R49, R51). -/
theorem setEntry_eq_announced (u : UnitId) (f : UnitEntry → UnitEntry) (s : State) :
    ∃ (r : State) (l : List (UnitId × UState)) (c : Nat),
      r.units.entries = l.foldl (fun t p => tmod ({} : UnitEntry) t (unitKey p.1) (fun e => { e with stateChange := c }))
        (tmod {} s.units.entries (unitKey u) f) ∧
      s.setEntry u f = r.tableChange.forEach l (fun p s => s.announce p.1 p.2 (s.shown p.1)) := by
  unfold State.setEntry
  exact ⟨_, _, _, rfl, rfl⟩

/-- R49, R51: one update of the table changes the entry it names, and STATE_CHANGE of others. -/
theorem unit_setEntry (u v : UnitId) (f : UnitEntry → UnitEntry) (s : State) :
    ∃ n, (s.setEntry u f).unit v = { (if unitKey v = unitKey u then f (s.unit u) else s.unit v) with stateChange := n } := by
  obtain ⟨r, l, c, hr, heq⟩ := setEntry_eq_announced u f s
  have hannounce : Touch 4840227856 r.tableChange (s.setEntry u f) :=
    heq ▸ touch_forEach (fun p s h => touch_announce h) (.refl _ _)
  obtain ⟨n, hn⟩ := tget_stamped l c (tmod {} s.units.entries (unitKey u) f) (unitKey v)
  refine ⟨n, ?_⟩
  rw [hannounce.unit v, unit_tableChange, State.unit, hr, hn, tget_tmod, State.unit, State.unit]

end Sys2Proof.Machine
end

section
/-! UNIT_RESET (R58, R60 to R62, R64): a unit enters INITIALISING with its next number, and what the reset of one unit
leaves of the others. -/

namespace Sys2Proof.Machine

/-- The entry of a unit that enters INITIALISING with its next number (R58). -/
def UnitEntry.begun (e : UnitEntry) : UnitEntry :=
  { e with state := .initialising, incarnation := e.incarnation + 1, waitsReserve := false }

theorem initialise_reserved {s : State} {u : UnitId} (hwait : (s.unit u).waitsReserve = true → (s.unit u).incarnation ≠ 0)
    (hlegal : legalTransition (s.unit u).state .initialising = true)
    (hnum : (s.unit u).incarnation + 1 < tget 0 s.flash.reserved (unitKey u)) :
    s.initialise u = s.setEntry u UnitEntry.begun := by
  have hfirst : ((s.unit u).waitsReserve && (s.unit u).incarnation == 0) = false := by
    cases hw : (s.unit u).waitsReserve
    · rfl
    · simpa using hwait hw
  unfold State.initialise
  simp only [hfirst, hlegal, Bool.false_eq_true, Bool.not_true, if_false]
  exact if_pos hnum

/-- No unit changes its state or its number. -/
def SameUnits (s t : State) : Prop :=
  ∀ v, (t.unit v).state = (s.unit v).state ∧ (t.unit v).incarnation = (s.unit v).incarnation

theorem SameUnits.of_units {s t : State} (h : t.units = s.units) : SameUnits s t := fun v => by
  rw [State.unit, h]
  exact ⟨rfl, rfl⟩

theorem SameUnits.trans {s t r : State} (h : SameUnits s t) (h' : SameUnits t r) : SameUnits s r := fun v =>
  ⟨(h' v).1.trans (h v).1, (h' v).2.trans (h v).2⟩

/-- An update of the table that changes neither the state nor the number of the unit it names. -/
theorem SameUnits.setEntry (s : State) {u : UnitId} {f : UnitEntry → UnitEntry} (hstate : ∀ e, (f e).state = e.state)
    (hinc : ∀ e, (f e).incarnation = e.incarnation) : SameUnits s (s.setEntry u f) := fun v => by
  obtain ⟨n, hn⟩ := unit_setEntry u v f s
  rw [hn]
  by_cases hk : unitKey v = unitKey u
  · rw [if_pos hk]
    simp only [hstate, hinc, State.unit, hk, and_self]
  · rw [if_neg hk]
    exact ⟨rfl, rfl⟩

/-! ## What a reset leaves of the unit (R61, R64) -/

/-- A fold that does not serve is not held for debug, so its entry stays as it is. -/
theorem settleHold_units {s : State} {f : Nat} (h : (s.unit ⟨.fold, f⟩).state.accepts = false) :
    (s.settleHold f).units = s.units := by
  have hw : Touch 6987717656 s (s.settleHold f) := by
    unfold State.settleHold
    dsimp only
    split
    · exact .refl _ _
    · split
      · exact .refl _ _
      · have hfree : Touch 6987717656 s (s.modFold f (fun x => { x with holdAsked := none })) := touch_modFold (.refl _ _)
        have hnot : (State.unit (s.modFold f (fun x => { x with holdAsked := none })) ⟨.fold, f⟩).state.accepts = false := h
        rw [hnot]
        simp only [Bool.false_eq_true, if_false]
        split
        · split
          · exact touch_modMbox hfree
          · exact touch_respond hfree
        · exact hfree
  exact hw.units (by decide)

/-- Up to the debug hold that was asked for, the reset of a fold touches no entry of the table. -/
theorem wipeFold_eq_settleHold (f : Nat) (s : State) :
    ∃ r, Touch 8195833488 s r ∧ s.wipeFold f = r.settleHold f := by
  refine ⟨_, ?_, rfl⟩
  refine touch_modFold (touch_modDisp (touch_wipeSpace ?_))
  have hends : ∀ {x : State}, Touch 8195833488 s x → Touch 8195833488 s
      ((x.forEach (x.tasksOn f) (fun n s => s.loseTask n .staleHandle)).endContexts f) := fun h =>
    touch_endContexts (touch_forEach (fun _ _ h => touch_loseTask h) h)
  split
  · exact touch_dmaStale (hends (touch_moveRadio (.refl _ _)))
  · exact hends (touch_moveRadio (.refl _ _))

theorem wipeFold_units {s : State} {f : Nat} (h : (s.unit ⟨.fold, f⟩).state.accepts = false) :
    (s.wipeFold f).units = s.units := by
  obtain ⟨r, hr, heq⟩ := wipeFold_eq_settleHold f s
  rw [heq, settleHold_units (by rw [hr.unit]; exact h)]
  exact hr.units (by decide)

/-- The reset of a unit that is no fold and no fabric port touches neither the table's entries nor the mailboxes. -/
theorem touch_wipeUnit_noFold {u : UnitId} (hfold : u.ty ≠ .fold) (hport : u.ty ≠ .fabPort) (s : State) :
    Touch 8197144210 s (s.wipeUnit u) := by
  have hk : Touch 8197144210 s s := .refl _ _
  unfold State.wipeUnit
  split
  case h_1 h => exact absurd h hfold
  case h_2 => exact touch_modMover (touch_dropT2Lines (touch_wipeSpace hk))
  case h_3 => exact touch_wipeEngine hk
  case h_4 => exact touch_wipeCore hk
  case h_5 => exact touch_forEach (fun _ _ h => touch_wipeCore h) hk
  case h_6 => exact touch_modDma (touch_dmaStale hk)
  case h_7 h => exact absurd h hport
  case h_8 => exact touch_forEach (fun _ _ h => touch_modLane h) (touch_modFhPort hk)
  case h_9 => exact touch_modCore hk
  case h_10 => exact touch_modStackCtl hk
  case h_11 => exact touch_loseStack hk
  case h_12 => exact touch_modDisp hk
  case h_13 => exact touch_ite (touch_wipeRadio hk) hk
  case h_14 => exact hk

theorem wipeUnit_units {s : State} {u : UnitId} (hport : u.ty ≠ .fabPort) (h : (s.unit u).state.accepts = false) :
    (s.wipeUnit u).units = s.units := by
  by_cases hfold : u.ty = .fold
  · obtain ⟨ty, i⟩ := u
    subst hfold
    exact wipeFold_units h
  · exact (touch_wipeUnit_noFold hfold hport s).units (by decide)

/-- R61: a radio engine keeps its count of posted jobs and what its crossing holds. -/
theorem engine_wipeEngine (e : Nat) (s : State) :
    (s.wipeEngine e).engine e = { posted := (s.engine e).posted, held := (s.engine e).held } :=
  State.engine_modEngine_same ..

theorem sigCore_wipeCore (c : Nat) (s : State) : (s.wipeCore c).sigCore c = {} := by
  have hradio : ((s.modSigCore c (fun _ => {})).modCrossing (c / 8) (fun q => q.filter (fun x => x.core != c))).sigCore c =
      (s.modSigCore c (fun _ => {})).sigCore c := rfl
  have hwipe : ∀ x : State, (x.wipeRadio (ldmBase c) 524288).sigCore c = x.sigCore c := fun x =>
    congrArg (fun r : Radio => tget ({} : SigCore) r.sigCores c) ((touch_wipeRadio (.refl 2147615744 x)).radio (by decide))
  rw [State.wipeCore, hwipe, hradio, State.sigCore_modSigCore_same]

/-! ## Wake with retention (R62) -/

theorem sameUnits_wakeRetained (u : UnitId) (s : State) : SameUnits s (s.wakeRetained u) := by
  unfold State.wakeRetained
  extract_lets s1
  have hsram : SameUnits s s1 := by
    refine SameUnits.of_units ?_
    show State.units (match u.ty with | .fold => _ | .commons => _ | .sigCore => _ | _ => _) = _
    split <;> rfl
  split
  · exact hsram
  · exact hsram.trans (.setEntry _ (fun _ => rfl) (fun _ => rfl))

/-! ## UNIT_RESET -/

section Started
variable {s : State} {u : UnitId}

theorem startUnit_of_initialised (hinit : s.initialise u = s.setEntry u UnitEntry.begun)
    (hold : (s.unit u).state ≠ .initialising) :
    s.startUnit u = if (s.unit u).state = .sleeping && (s.setEntry u UnitEntry.begun).retained u then
      (s.setEntry u UnitEntry.begun).wakeRetained u else (s.setEntry u UnitEntry.begun).wipeUnit u := by
  obtain ⟨n, hn⟩ := unit_setEntry u u UnitEntry.begun s
  have hnew : ((s.setEntry u UnitEntry.begun).unit u).state = .initialising := by
    rw [hn, if_pos rfl]
    rfl
  unfold State.startUnit
  rw [hinit]
  exact if_neg (by simp [hnew, hold])

/-- R60, R61: a unit whose reset begins, by the states and numbers of all units. -/
theorem unit_startUnit (hinit : s.initialise u = s.setEntry u UnitEntry.begun) (hold : (s.unit u).state ≠ .initialising)
    (hport : u.ty ≠ .fabPort) : SameUnits (s.setEntry u UnitEntry.begun) (s.startUnit u) := by
  obtain ⟨n, hn⟩ := unit_setEntry u u UnitEntry.begun s
  rw [startUnit_of_initialised hinit hold]
  split
  · exact sameUnits_wakeRetained _ _
  · refine .of_units (wipeUnit_units hport ?_)
    rw [hn, if_pos rfl]
    rfl

theorem startUnit_mboxes (hinit : s.initialise u = s.setEntry u UnitEntry.begun) (hold : (s.unit u).state ≠ .initialising)
    (hport : u.ty ≠ .fabPort) (hfold : u.ty ≠ .fold) : (s.startUnit u).mboxes = s.mboxes := by
  have hentry : (s.setEntry u UnitEntry.begun).mboxes = s.mboxes := (touch_setEntry (.refl 4840227860 s)).mboxes (by decide)
  rw [startUnit_of_initialised hinit hold, ← hentry]
  split
  · exact (touch_wakeRetained (.refl 4840246804 _)).mboxes (by decide)
  · exact (touch_wipeUnit_noFold hfold hport _).mboxes (by decide)

theorem engine_startUnit (hinit : s.initialise u = s.setEntry u UnitEntry.begun) (hold : (s.unit u).state ≠ .initialising)
    (hengine : u.ty = .engine) :
    (s.startUnit u).engine u.idx = { posted := (s.engine u.idx).posted, held := (s.engine u.idx).held } := by
  have hentry : (s.setEntry u UnitEntry.begun).engine u.idx = s.engine u.idx := by
    rw [State.engine, (touch_setEntry (.refl 4840227860 s)).radio (by decide), State.engine]
  rw [startUnit_of_initialised hinit hold]
  simp only [State.retained, State.wipeUnit, hengine, Bool.and_false, Bool.false_eq_true, if_false, engine_wipeEngine, hentry]

theorem sigCore_startUnit (hinit : s.initialise u = s.setEntry u UnitEntry.begun) (hold : (s.unit u).state ≠ .initialising)
    (hawake : (s.unit u).state ≠ .sleeping) (hcore : u.ty = .sigCore) : (s.startUnit u).sigCore u.idx = {} := by
  rw [startUnit_of_initialised hinit hold, if_neg (by simp [hawake])]
  simp only [State.wipeUnit, hcore, sigCore_wipeCore]

end Started

/-- The cores of a sleeping signal-core group that sleep with it (R247). -/
def State.sleepingCores (s : State) (g : Nat) : List UnitId :=
  ((List.range 8).map (fun i => (⟨.sigCore, 8 * g + i⟩ : UnitId))).filter (fun c => decide ((s.unit c).state = .sleeping))

/-- UNIT_RESET does nothing: no such unit, the device, a debug hold, a device asleep, or a state that no reset leaves. -/
def State.resetIdle (s : State) (u : UnitId) : Prop :=
  unitExists u = false ∨ u.ty = .device ∨ (s.unit u).debug = true ∨ s.dev.dstate = .night ∨
    (s.dev.dstate = .fenced ∧ s.dev.fencedFrom = .night) ∨ ¬((s.unit u).state = .fenced ∨ (s.unit u).state = .failed ∨
    (s.unit u).state = .sleeping) ∨ (u.ty = .sigCore ∧ (s.unit u).state = .sleeping)

theorem resetIdle_iff (s : State) (u : UnitId) : s.resetIdle u ↔
    (!unitExists u) = true ∨ u.ty = .device ∨ (s.unit u).debug = true ∨
      (s.dev.dstate = .night ∨ (s.dev.dstate = .fenced ∧ s.dev.fencedFrom = .night)) ∨
      (!((s.unit u).state = .fenced ∨ (s.unit u).state = .failed ∨ (s.unit u).state = .sleeping)) = true ∨
      (u.ty = .sigCore ∧ (s.unit u).state = .sleeping) := by
  simp only [State.resetIdle, Bool.not_eq_true', decide_eq_false_iff_not, or_assoc]

theorem exec_unitReset_idle {s : State} {u : UnitId} (h : s.resetIdle u) : exec (.unitReset u) s = .next s :=
  congrArg Host.Outcome.next (if_pos ((resetIdle_iff s u).1 h))

theorem exec_unitReset {s : State} {u : UnitId} (h : ¬s.resetIdle u) : exec (.unitReset u) s = .next (s.resetUnit u) :=
  congrArg Host.Outcome.next (if_neg (mt (resetIdle_iff s u).2 h))

theorem resetUnit_alone {s : State} {u : UnitId} (h : ¬(u.ty = .sigGroup ∧ (s.unit u).state = .sleeping)) :
    s.resetUnit u = s.startUnit u := by
  unfold State.resetUnit
  simp only [if_neg h]
  rfl

/-- R247: the cores of a sleeping group wake with it. -/
theorem resetUnit_sleepingGroup {s : State} {g : Nat} (h : (s.unit ⟨.sigGroup, g⟩).state = .sleeping) :
    s.resetUnit ⟨.sigGroup, g⟩ = (s.startUnit ⟨.sigGroup, g⟩).forEach (s.sleepingCores g) State.startUnit := by
  unfold State.resetUnit
  simp only [h, and_self, if_true]
  rfl

end Sys2Proof.Machine
end

section
/-! UNIT_SELF_TEST_DONE and RETENTION_CHECK_DONE (R56, R62, R65, R594). -/

namespace Sys2Proof.Machine

/-! ## The self-test -/

/-- What follows from the change of a unit other than a die and a fabric port touches no entry of the table. -/
theorem touch_afterUnit_noLink {u : UnitId} (hport : u.ty ≠ .fabPort) (hdie : u.ty ≠ .die) (before : Bool) (s : State) :
    Touch 8062787088 s (s.afterUnit u before) := by
  have hk : Touch 8062787088 s s := .refl _ _
  unfold State.afterUnit
  split
  case h_1 => exact touch_radioOn hk
  case h_2 h => exact absurd h hport
  case h_3 => exact touch_fhPortChanged hk
  case h_4 => exact touch_ite (touch_loseStack hk) hk
  case h_5 => exact touch_engineChanged hk
  case h_6 h => exact absurd h hdie
  case h_7 => exact hk

/-- The entry of a unit whose self-test ended (Table 02-5); a standing fence applies again. -/
def selfTestEntry (r : SelfTest) (held : Bool) (e : UnitEntry) : UnitEntry :=
  match r with
  | .fail => { e with state := .failed }
  | .pass => passed none held e
  | .part caps => passed (some caps) held e

theorem exec_unitSelfTestDone_idle {s : State} {u : UnitId} {r : SelfTest}
    (h : (s.unit u).state ≠ .initialising ∨ (s.unit u).retainedUnverified = true ∨ (s.unit u).waitsReserve = true) :
    exec (.unitSelfTestDone u r) s = .next s :=
  congrArg Host.Outcome.next (if_pos h)

/-- R56: the entry changes in one update of the table; what follows leaves the entries alone. -/
theorem exec_unitSelfTestDone_entry {s : State} {u : UnitId} (r : SelfTest) (hstate : (s.unit u).state = .initialising)
    (hret : (s.unit u).retainedUnverified = false) (hwait : (s.unit u).waitsReserve = false) (hport : u.ty ≠ .fabPort)
    (hdie : u.ty ≠ .die) :
    ∃ t, exec (.unitSelfTestDone u r) s = .next t ∧ t.units = (s.setEntry u (selfTestEntry r (s.held u))).units := by
  have hrun : ¬((s.unit u).state ≠ .initialising ∨ (s.unit u).retainedUnverified = true ∨
      (s.unit u).waitsReserve = true) := by
    simp [hstate, hret, hwait]
  refine ⟨_, congrArg Host.Outcome.next (if_neg hrun), ?_⟩
  have hmile : ∀ x : State, (x.milestones u).units = x.units := fun x =>
    (touch_milestones (.refl 4429185024 x)).units (by decide)
  have hafter : ∀ x : State, (x.afterUnit u false).units = x.units := fun x =>
    (touch_afterUnit_noLink hport hdie false x).units (by decide)
  rw [hmile]
  cases r with
  | fail =>
    have hlegal : legalTransition (s.unit u).state .failed = true := by rw [hstate]; rfl
    exact congrArg State.units (if_pos hlegal)
  | pass => exact hafter _
  | part caps => exact hafter _

/-! ## The retention check -/

theorem Touch.retZeroed {w : Nat} {s t : State} (h : Touch w s t) (hw : w.testBit 27 = false := by decide) :
    t.power.retZeroed = s.power.retZeroed := by
  have hpower := congrArg Power.retZeroed (h.power hw)
  exact hpower

/-- R65: a chunk whose checksum differs is counted. -/
theorem retZeroed_checkChunk (sp : Space) (a sum : Nat) (s : State) : (s.checkChunk sp a sum).power.retZeroed =
    if chunkSum (s.rd sp a chunkSize) = sum then s.power.retZeroed else satInc 32 s.power.retZeroed := by
  unfold State.checkChunk
  split
  · rfl
  · have hlost : ∀ l : List Nat, Touch 8061453840 s ((s.zeroMem sp a chunkSize).forEach l (fun e s => s.loseCopy e 0)) :=
      fun l => touch_forEach (fun _ _ h => touch_loseCopy h) (touch_zeroMem (.refl _ _))
    exact congrArg (satInc 32) (hlost _).retZeroed

theorem exec_retentionCheckDone_idle {s : State} {u : UnitId} {d : List (Nat × Byte)}
    (h : retainedSpace u = none ∨ (s.unit u).retainedUnverified = false) : exec (.retentionCheckDone u d) s = .next s := by
  refine congrArg Host.Outcome.next ?_
  split
  · rfl
  · rename_i hspace
    rw [hspace] at h
    simp only [reduceCtorEq, false_or] at h
    rw [h]
    rfl

/-- The checksums of the last NIGHT that lie in a range of a space. -/
def State.retainedChunks (s : State) (sp : Space) (base n : Nat) : List (Nat × Nat) :=
  (tget [] s.power.retainedSums sp.code).filter (fun p => decide (base ≤ p.1 ∧ p.1 < base + n))

/-- Bytes of a range of a space that did not keep their value (R62). -/
def State.decayIn (s : State) (sp : Space) (base n : Nat) (decayed : List (Nat × Byte)) : State :=
  s.forEach (decayed.filter (fun p => decide (base ≤ p.1 ∧ p.1 < base + n)))
    (fun p s => { s with mem := s.mem.wr (key sp p.1) p.2 })

/-- The check of every chunk of a range of a space that has a checksum (R65). -/
def State.checkChunksIn (s : State) (sp : Space) (base n : Nat) : State :=
  s.forEach (s.retainedChunks sp base n) (fun p s => s.checkChunk sp p.1 p.2)

/-- The entry of a unit whose retained SRAM has been checked (R65). -/
def UnitEntry.verified (e : UnitEntry) : UnitEntry := { e with retainedUnverified := false }

theorem exec_retentionCheckDone_checked {s : State} {u : UnitId} {sp : Space} {base n : Nat} (d : List (Nat × Byte))
    (hspace : retainedSpace u = some (sp, base, n)) (hret : (s.unit u).retainedUnverified = true) :
    exec (.retentionCheckDone u d) s =
      .next (((s.decayIn sp base n d).checkChunksIn sp base n).setEntry u UnitEntry.verified) := by
  refine congrArg Host.Outcome.next ?_
  simp only [hspace, hret]
  rfl

theorem touch_checked (s : State) (sp : Space) (base n : Nat) (d : List (Nat × Byte)) :
    Touch 8195671568 s ((s.decayIn sp base n d).checkChunksIn sp base n) :=
  touch_forEach (fun _ _ h => touch_checkChunk h) (touch_forEach (fun _ _ h => touch_lit10 h) (.refl _ _))

theorem forEach_nil {α : Type} (f : α → State → State) (s : State) : s.forEach [] f = s := rfl

theorem forEach_singleton {α : Type} (a : α) (f : α → State → State) (s : State) : s.forEach [a] f = f a s := rfl

theorem decayIn_nil (s : State) (sp : Space) (base n : Nat) : s.decayIn sp base n [] = s := by
  rw [State.decayIn, List.filter_nil, forEach_nil]

theorem checkChunksIn_one {s : State} {sp : Space} {base n a sum : Nat} (h : s.retainedChunks sp base n = [(a, sum)]) :
    s.checkChunksIn sp base n = s.checkChunk sp a sum := by
  rw [State.checkChunksIn, h, forEach_singleton]

end Sys2Proof.Machine
end

section
/-! Reset, self-test and retention of units (O21). -/

namespace Sys2Proof.Machine

theorem legalTransition_initialising {x : UState} (h : x = .fenced ∨ x = .failed ∨ x = .sleeping) :
    legalTransition x .initialising = true ∧ x ≠ .initialising := by
  rcases h with rfl | rfl | rfl <;> exact ⟨rfl, by decide⟩

/-- Settles O21: UNIT_RESET by its one update of the table and what the reset of each kind of unit touches, the self-test
and the retention check by their updates of the table. -/
theorem resetSelfTestAndRetentionOfUnits : Obligations.ResetSelfTestAndRetentionOfUnits := by
  refine ⟨?reset, ?group, fun s u h => exec_unitReset_idle h, fun s u r h => exec_unitSelfTestDone_idle h, ?test,
    fun s u d h => exec_retentionCheckDone_idle h, ?retention⟩
  case reset =>
    intro s u hex hdev hport hdebug hnight hasleep hstate hwait hnum
    have hany : (s.unit u).state = .fenced ∨ (s.unit u).state = .failed ∨ (s.unit u).state = .sleeping :=
      hstate.imp_right (Or.imp_right And.left)
    have hcore : u.ty = .sigCore → (s.unit u).state ≠ .sleeping := by
      rcases hstate with h | h | ⟨-, hne, -⟩
      · simp [h]
      · simp [h]
      · exact fun h => absurd h hne
    have hgroup : ¬(u.ty = .sigGroup ∧ (s.unit u).state = .sleeping) := by
      rcases hstate with h | h | ⟨-, -, hne⟩
      · simp [h]
      · simp [h]
      · exact fun h => hne h.1
    have hbusy : ¬s.resetIdle u := by
      simp only [State.resetIdle, not_or]
      exact ⟨by simp [hex], hdev, by simp [hdebug], hnight, hasleep, fun ⟨hf, hx, hs⟩ => hany.elim hf (fun h => h.elim hx hs),
        fun h => hcore h.1 h.2⟩
    obtain ⟨hlegal, hold⟩ := legalTransition_initialising hany
    have hinit := initialise_reserved hwait hlegal hnum
    have hexec : exec (.unitReset u) s = .next (s.startUnit u) :=
      (exec_unitReset hbusy).trans (congrArg Host.Outcome.next (resetUnit_alone hgroup))
    have hunits := unit_startUnit hinit hold hport
    have htouch : Touch 8285224606 s (s.startUnit u) := touch_startUnit (.refl _ _)
    obtain ⟨n, hn⟩ := unit_setEntry u u UnitEntry.begun s
    rw [if_pos rfl] at hn
    refine ⟨_, hexec, (hunits u).1.trans (by rw [hn]; rfl), (hunits u).2.trans (by rw [hn]; rfl), fun v hv => ?_,
      engine_startUnit hinit hold, fun h => sigCore_startUnit hinit hold (hcore h) h, htouch.time (by decide),
      htouch.fuses (by decide), htouch.settings (by decide), startUnit_mboxes hinit hold hport⟩
    obtain ⟨k, hk⟩ := unit_setEntry u v UnitEntry.begun s
    rw [if_neg hv] at hk
    exact ⟨(hunits v).1.trans (by rw [hk]), (hunits v).2.trans (by rw [hk])⟩
  case group =>
    intro s g hex hdebug hnight hasleep hstate
    have hbusy : ¬s.resetIdle ⟨.sigGroup, g⟩ := by
      simp [State.resetIdle, hex, hdebug, hnight, hasleep, hstate]
    exact (exec_unitReset hbusy).trans (congrArg Host.Outcome.next (resetUnit_sleepingGroup hstate))
  case test =>
    intro s u r hstate hret hwait hport hdie
    obtain ⟨t, ht, hunits⟩ := exec_unitSelfTestDone_entry r hstate hret hwait hport hdie
    have htouch : Touch 8197004820 s t := touch_execUnitSelfTestDone ht
    have hunit : ∀ v, t.unit v = (s.setEntry u (selfTestEntry r (s.held u))).unit v := fun v => by
      rw [State.unit, hunits, State.unit]
    refine ⟨t, ht, htouch.time (by decide), htouch.mboxes (by decide), htouch.settings (by decide), fun v hv => ?_, ?_⟩
    · obtain ⟨n, hn⟩ := unit_setEntry u v (selfTestEntry r (s.held u)) s
      rw [hunit, hn, if_neg hv]
    · obtain ⟨n, hn⟩ := unit_setEntry u u (selfTestEntry r (s.held u)) s
      rw [hunit, hn, if_pos rfl]
      cases r <;> rfl
  case retention =>
    intro s u d sp base n hspace hret
    have hexec := exec_retentionCheckDone_checked d hspace hret
    have hchecked := touch_checked s sp base n d
    have hsame : SameUnits _ (((s.decayIn sp base n d).checkChunksIn sp base n).setEntry u UnitEntry.verified) :=
      .setEntry _ (fun _ => rfl) (fun _ => rfl)
    obtain ⟨k, hk⟩ := unit_setEntry u u UnitEntry.verified
      ((s.decayIn sp base n d).checkChunksIn sp base n)
    rw [if_pos rfl] at hk
    refine ⟨_, hexec, by rw [hk]; rfl, fun v => ?_, fun a sum hsums hd => ?_, (touch_execRetentionCheckDone hexec).only⟩
    · rw [(hsame v).1, hchecked.unit v]
    · subst hd
      rw [(touch_setEntry (.refl 4840227860 _)).retZeroed, decayIn_nil, checkChunksIn_one hsums, retZeroed_checkChunk]

end Sys2Proof.Machine
end

section
/-! Commands of the mailbox interface (R90, R91): checks that the device state passes, frames that follow one another, and the
rings that a response leaves alone. -/

namespace Sys2Proof.Machine

theorem code_mem_every (d : DState) : d.code ∈ [0, 1, 2, 3, 4, 5, 6, 7, 8, 9] := by
  cases d <;> decide

theorem code_mem_out_of_rom {d : DState} (h : d ≠ .rom) : d.code ∈ [1, 2, 3, 4, 5, 6, 7, 8, 9] := by
  cases d <;> revert h <;> decide

theorem Only.trans {l : List Field} {s t u : State} (h : Only l s t) (h' : Only l t u) : Only l s u := by
  intro p hp
  have hst := h p hp
  have htu := h' p hp
  cases p
  case deviceMem => exact SameDeviceMem.trans hst htu
  all_goals exact Eq.trans htu hst

theorem Only.mono {l l' : List Field} {s t : State} (h : Only l s t) (hl : l ⊆ l') : Only l' s t :=
  fun p hp => h p (fun hin => hp (hl hin))

theorem Touch.carries {w : Nat} {s t : State} (h : Touch w s t) (hw : w.testBit 27 = false := by decide) :
    t.carries = s.carries := by
  have hfyf := congrArg Power.fyf (h.power hw)
  exact congrArg (fun x : FyfState => Power.carries { fyf := x }) hfyf

theorem raiseResponse_of_respOff {s : State} {m : Nat} (h : (s.mbox m).respOn = false) : s.raiseResponse m = s := by
  unfold State.raiseResponse
  simp [h]

/-- R83: where RESP_EVENT is off a response raises no event. -/
theorem ring_respond_of_respOff {s : State} {m : Nat} (h : (s.mbox m).respOn = false) (c : Cmd) (st : Status)
    (result : Bytes) (pending : Bool) (k : Nat) : (s.respond m c st result pending).ring k = s.ring k := by
  have hkeep : ∀ (x : State) (f : Mailbox → Mailbox), (x.modMbox m f).ring k = x.ring k := fun _ _ => rfl
  have hwr : ∀ (x : State) (a : Nat) (b : Bytes), (x.wr .companion a b).mbox m = x.mbox m := fun x a b =>
    mbox_of_reports (.wr x a b) m
  unfold State.respond State.writeResponse
  dsimp only
  rw [hkeep, raiseResponse_of_respOff, ite_self, hkeep, ring_wr, hkeep]
  rw [State.mbox_modMbox_same, hwr, State.mbox_modMbox_same]
  exact h

section Passed
variable {s : State} {m op : Nat} {c : Cmd} {early late : Cmd → State → List Err} {states : Cmd → List Nat}
  {effect : Cmd → State → State × Bytes × Bool}

/-- What a command that no table row makes a long one has to pass (R90). -/
theorem checks_eq_none (hearly : ∀ e ∈ early c s, e = none) (hstate : s.dev.dstate.code ∈ states c)
    (hlate : ∀ e ∈ late c s, e = none) {row : CmdRow} (hrow : catalogueRow op = some row) (hshort : row.long = false) :
    s.checks op early states late m c = none := by
  simp only [State.checks, firstErr_append, firstErr_eq_none.2 hearly, firstErr_eq_none.2 hlate, hrow, hshort]
  simp [firstErr, failIf, conflictIf, hstate]

/-- The first of checks 7 to 11 that fails, where checks 1 to 6 pass (R90). -/
theorem checks_eq_late (hearly : ∀ e ∈ early c s, e = none) (hstate : s.dev.dstate.code ∈ states c) {x : Status × Bytes}
    (hlate : firstErr (late c s) = some x) : s.checks op early states late m c = some x := by
  simp only [State.checks, firstErr_append, firstErr_eq_none.2 hearly, hlate]
  simp [firstErr, conflictIf, hstate]

/-- A command that passes its checks and does not go on, as its effect and its response. -/
theorem runCommand_eq_respond (ht : Taken s m op c) (h : s.checks op early states late m c = none)
    (hend : (effect c s).2.2 = false) :
    s.runCommand m op early states late effect = (effect c s).1.respond m c .ok (effect c s).2.1 false := by
  unfold State.runCommand
  rw [verdict_taken ht, h]
  simp only [hend, Bool.false_eq_true, if_false]

end Passed

end Sys2Proof.Machine
end

section
/-! MBX_ASSIGN and EVR_CONFIGURE (R82, R106): their effects before the response. -/

namespace Sys2Proof.Machine

/-! ## MBX_ASSIGN -/

theorem mbox_stopLong (m seq : Nat) (s : State) (k : Nat) : (s.stopLong m seq).mbox k = s.mbox k := by
  rw [State.mbox, (touch_stopLong (.refl 75513856 s)).mboxes (by decide), State.mbox]

/-- R82: the end of the long commands of mailbox `m` changes nothing of a mailbox but the list of `m`. -/
theorem mbox_cancelLong (m : Nat) (s : State) (k : Nat) :
    ∃ l, (s.cancelLong m).mbox k = if k = m then { s.mbox m with long := l } else s.mbox k := by
  unfold State.cancelLong State.forEach
  generalize (s.mbox m).long = done
  induction done generalizing s with
  | nil =>
    refine ⟨(s.mbox m).long, ?_⟩
    by_cases hk : k = m
    · subst hk
      rw [if_pos rfl]
      rfl
    · rw [if_neg hk]
      rfl
  | cons x done ih =>
    obtain ⟨l, hl⟩ := ih ((s.stopLong m x.seq).commandDone m x.seq x.opcode .cancelled)
    refine ⟨l, ?_⟩
    rw [List.foldl_cons, hl]
    simp only [mbox_commandDone, mbox_stopLong, if_true]
    split
    · rfl
    · rfl

/-- What MBX_ASSIGN does before its response (R82). -/
def State.mbxAssigned (c : Cmd) (r : Role) (s : State) : State :=
  (s.cancelLong (c.arg 0x20 1)).modMbox (c.arg 0x20 1)
    (fun b => assigned b r (c.arg 0x22 1) (BitVec.ofNat 32 (c.arg 0x24 4)))

theorem mbox_mbxAssigned (c : Cmd) (r : Role) (s : State) (k : Nat) : (s.mbxAssigned c r).mbox k =
    if k = c.arg 0x20 1 then assigned (s.mbox k) r (c.arg 0x22 1) (BitVec.ofNat 32 (c.arg 0x24 4)) else s.mbox k := by
  obtain ⟨l, hl⟩ := mbox_cancelLong (c.arg 0x20 1) s k
  rw [State.mbxAssigned, State.mbox_modMbox]
  by_cases hk : k = c.arg 0x20 1
  · rw [if_pos hk, if_pos hk, ← hk]
    rw [if_pos hk, ← hk] at hl
    rw [hl]
    rfl
  · rw [if_neg hk, if_neg hk, hl, if_neg hk]

theorem touch_mbxAssigned (c : Cmd) (r : Role) (s : State) : Touch 4907353112 s (s.mbxAssigned c r) :=
  touch_modMbox (touch_cancelLong (.refl _ _))

theorem only_mbxAssigned_of_no_long {s : State} {c : Cmd} (r : Role) (h : (s.mbox (c.arg 0x20 1)).long = []) :
    Only [.mboxes] s (s.mbxAssigned c r) := by
  have hnone : s.cancelLong (c.arg 0x20 1) = s := by
    rw [State.cancelLong, h, forEach_nil]
  rw [State.mbxAssigned, hnone]
  exact (touch_modMbox (.refl 8 s)).only

/-- R82: MBX_ASSIGN waits for the answer of the command taken up from the mailbox it names. -/
theorem exec_mbxAssign_waits {s : State} {m : Fin 16} {c : Cmd} (ht : Taken s m.val 0x0002 c) (hne : c.arg 0x20 1 ≠ m.val)
    (hbusy : (s.mbox (c.arg 0x20 1)).current ≠ none) : exec (.mbxAssign m) s = .next s := by
  obtain ⟨hcur, hop, -, -⟩ := ht
  have hsome : (s.mbox (c.arg 0x20 1)).current.isSome = true := Option.isSome_iff_ne_none.2 hbusy
  refine congrArg Host.Outcome.next (if_pos ?_)
  simp [hcur, hop, hne, hsome]

/-! ## EVR_CONFIGURE -/

/-- A page that changes hands takes the other rings of the page with it (R106). -/
def State.giveMates (c : Cmd) (s : State) : State :=
  let k := c.arg 0x20 2
  let p := configuredPage c
  if s.evPage (k / 16) = p then s
  else s.forEach (pageMates k) (fun j s => s.modRing j (fun r => { r with ownerRole := p.role, ownerInst := p.inst }))

/-- What EVR_CONFIGURE does before its response (R106). -/
def State.evrConfigured (c : Cmd) (s : State) : State :=
  let s := s.giveMates c
  State.modRing { s with evPages := tset {} s.evPages (c.arg 0x20 2 / 16) (configuredPage c) } (c.arg 0x20 2)
    (fun _ => configuredRing c (configuredPage c).role)

theorem touch_giveMates (c : Cmd) (s : State) : Touch 16 s (s.giveMates c) :=
  touch_ite (.refl _ _) (touch_forEach (fun _ _ h => touch_modRing h) (.refl _ _))

theorem touch_evrConfigured (c : Cmd) (s : State) : Touch 48 s (s.evrConfigured c) :=
  touch_modRing (touch_lit5 ((touch_giveMates c s).mono (by decide)))

theorem ring_evrConfigured (c : Cmd) (s : State) :
    (s.evrConfigured c).ring (c.arg 0x20 2) = configuredRing c (configuredPage c).role := State.ring_modRing_same ..

theorem evPages_evrConfigured (c : Cmd) (s : State) :
    (s.evrConfigured c).evPages = tset {} s.evPages (c.arg 0x20 2 / 16) (configuredPage c) := by
  rw [← (touch_giveMates c s).evPages (by decide)]
  rfl

end Sys2Proof.Machine
end

section
/-! MBX_VERSION, MBX_ASSIGN, DEV_QUERY and EVR_CONFIGURE (O18): each by the checks it passes, its effect and its response. -/

namespace Sys2Proof.Machine

theorem exec_mbxVersion_agreed {s : State} {m : Fin 16} {c : Cmd} {v : Nat} (ht : Taken s m.val 0x0001 c)
    (hlen : c.argLength = 8) (hv : agreeVersion s.mbxOffer (offeredSlots c) = some v) :
    ∃ t, exec (.mbxVersion m) s = .next t ∧
      Responds (s.modMbox m (fun b => { b with agreed := v })) t m c .ok (s.versionResult v) false := by
  obtain ⟨t, hexec, hresp⟩ := exec_ok (e := exec (.mbxVersion m) s) rfl ht
    (checks_eq_none (by simp [Cmd.lenIs, hlen]) (code_mem_every _) (by simp [hv]) cat_0001 rfl)
  simp only [hv, Option.getD_some] at hresp
  exact ⟨t, hexec, hresp⟩

theorem exec_mbxVersion_none {s : State} {m : Fin 16} {c : Cmd} (ht : Taken s m.val 0x0001 c)
    (hlen : c.argLength = 8) (hv : agreeVersion s.mbxOffer (offeredSlots c) = none) :
    ∃ t, exec (.mbxVersion m) s = .next t ∧ Responds s t m c .version (s.versionResult 0) false :=
  exec_err (x := (.version, s.versionResult 0)) rfl ht
    (checks_eq_late (by simp [Cmd.lenIs, hlen]) (code_mem_every _) (by simp [hv, firstErr]))

theorem exec_mbxAssign_assigned {s : State} {m : Fin 16} {c : Cmd} {r : Role} (ht : Taken s m.val 0x0002 c)
    (hlen : c.argLength = 8) (hlo : 1 ≤ c.arg 0x20 1) (hhi : c.arg 0x20 1 ≤ 15) (hrole : roleOfCode (c.arg 0x21 1) = some r)
    (hpair : assignable (some r) (c.arg 0x22 1) = true) (hfree : (s.mbox (c.arg 0x20 1)).current = none)
    (hrom : s.dev.dstate ≠ .rom) :
    ∃ t, exec (.mbxAssign m) s = .next t ∧ Responds (s.mbxAssigned c r) t m c .ok [] false := by
  have hnot : ¬(match (s.mbox m).current with
      | some c => c.opcode == 2 && c.arg 0x20 1 != m.val && (s.mbox (c.arg 0x20 1)).current.isSome
      | none => false) = true := by
    simp [ht.1, hfree]
  have hrun : exec (.mbxAssign m) s = _ := congrArg Host.Outcome.next (if_neg hnot)
  obtain ⟨t, hexec, hresp⟩ := exec_ok hrun ht
    (checks_eq_none (by simp [Cmd.lenIs, hlen, hrole, hpair]; omega) (code_mem_out_of_rom hrom) (by simp) cat_0002 rfl)
  simp only [hrole, Option.getD_some] at hresp
  exact ⟨t, hexec, hresp⟩

theorem exec_devQuery_answered {s : State} {m : Fin 16} {c : Cmd} (ht : Taken s m.val 0x0003 c) (hlen : c.argLength = 0) :
    ∃ t, exec (.devQuery m) s = .next t ∧ Responds s t m c .ok (leBytes 1 s.dev.dstate.code ++ leBytes 3 0 ++
      leBytes 4 (s.unit theDevice).incarnation ++ leBytes 2 (s.mbox m).agreed ++ leBytes 2 0) false :=
  exec_ok (e := exec (.devQuery m) s) rfl ht
    (checks_eq_none (by simp [Cmd.lenIs, hlen]) (code_mem_every _) (by simp) cat_0003 rfl)

theorem exec_evrConfigure_configured {s : State} {m : Fin 16} {c : Cmd} {r : Role} (ht : Taken s m.val 0x0007 c)
    (hlen : c.argLength = 40) (hk : c.arg 0x20 2 ≤ 4095)
    (hlog : c.arg 0x22 1 = 0 ∨ (6 ≤ c.arg 0x22 1 ∧ c.arg 0x22 1 ≤ 16 ∧ c.arg 0x28 8 % (32 * 2 ^ c.arg 0x22 1) = 0))
    (hrole : roleOfCode (c.arg 0x23 1) = some r) (hrom : s.dev.dstate ≠ .rom)
    (hpage : s.evPage (c.arg 0x20 2 / 16) = configuredPage c ∨ (∀ j ∈ pageMates (c.arg 0x20 2), (s.ring j).enabled = false)) :
    exec (.evrConfigure m) s = .next ((s.evrConfigured c).respond m c .ok [] false) := by
  have hlogOk : log2Ok (c.arg 0x22 1) = true := by
    simp only [log2Ok, Bool.or_eq_true, beq_iff_eq, decide_eq_true_eq]
    exact hlog.imp_right (fun h => ⟨h.1, h.2.1⟩)
  have haligned : (c.arg 0x22 1 != 0 && c.arg 0x28 8 % (32 * 2 ^ c.arg 0x22 1) != 0) = false := by
    rcases hlog with h | ⟨-, -, h⟩
    · simp [h]
    · simp [h]
  have hmates : (decide (s.evPage (c.arg 0x20 2 / 16) ≠ configuredPage c) &&
      (pageMates (c.arg 0x20 2)).any (fun j => (s.ring j).enabled)) = false := by
    rcases hpage with h | h
    · simp [h]
    · rw [List.any_eq_false.2 (fun j hj => by simp [h j hj]), Bool.and_false]
  refine congrArg Host.Outcome.next (runCommand_eq_respond ht ?_ rfl)
  refine checks_eq_none ?_ (code_mem_out_of_rom hrom) ?_ cat_0007 rfl
  · simp [Cmd.lenIs, hlen, hk, hlogOk, hrole, haligned]
  · simp only [List.mem_singleton, forall_eq, hmates, failIf_eq_none]

end Sys2Proof.Machine
end

section
/-! Versions, assignments, queries and event rings (O18). -/

namespace Sys2Proof.Machine

/-- Settles O18: each command by the checks it passes, what it does before its response, and the response. -/
theorem versionAssignQueryAndEventRings : Obligations.VersionAssignQueryAndEventRings := by
  refine ⟨?agreed, ?none, ?assign, fun s m c ht hne hbusy => exec_mbxAssign_waits ht hne hbusy, ?query, ?evr⟩
  case agreed =>
    intro s m c v ht hlen hv
    obtain ⟨t, hexec, hresp⟩ := exec_mbxVersion_agreed ht hlen hv
    refine ⟨t, hexec, (touch_execMbxVersion hexec).only, fun k => ?_⟩
    rw [hresp.2 k, State.mbox_modMbox_same]
    split
    · rfl
    · exact State.mbox_modMbox_ne _ _ ‹_›
  case none =>
    intro s m c ht hlen hv
    obtain ⟨t, hexec, hresp⟩ := exec_mbxVersion_none ht hlen hv
    exact ⟨t, hexec, (touch_execMbxVersion hexec).only, hresp.answers rfl⟩
  case assign =>
    intro s m c r ht hlen hlo hhi hne hrole hpair hfree hrom
    obtain ⟨t, hexec, hresp⟩ := exec_mbxAssign_assigned ht hlen hlo hhi hrole hpair hfree hrom
    refine ⟨t, hexec, (touch_execMbxAssign hexec).only, fun hlong => ?_, fun k => ?_⟩
    · exact ((only_mbxAssigned_of_no_long r hlong).mono (by simp)).trans hresp.fields
    · have htouch := touch_mbxAssigned c r s
      rw [hresp.2 k, htouch.dev (by decide), htouch.carries, mbox_mbxAssigned, mbox_mbxAssigned, if_neg hne.symm]
      rfl
  case query =>
    intro s m c ht hlen
    obtain ⟨t, hexec, hresp⟩ := exec_devQuery_answered ht hlen
    exact ⟨t, hexec, (touch_execDevQuery hexec).only, hresp.answers rfl⟩
  case evr =>
    intro s m c r ht hlen hk hlog hrole hrom hpage
    have hexec := exec_evrConfigure_configured ht hlen hk hlog hrole hrom hpage
    have hmboxes : (s.evrConfigured c).mboxes = s.mboxes := (touch_evrConfigured c s).mboxes (by decide)
    have hresp : Responds (s.evrConfigured c) _ m c .ok [] false := Responds.respond (s.evrConfigured c) m c .ok [] false
    have howner : (configuredPage c).role = r := by
      simp only [configuredPage, hrole, Option.getD_some]
    have hpages := (touch_respond (m := m) (c := c) (st := .ok) (result := []) (pending := false)
      (.refl 4831839256 (s.evrConfigured c))).evPages (by decide)
    refine ⟨_, hexec, (touch_execEvrConfigure hexec).only, hresp.answers hmboxes, fun p => ?_, fun hoff => ?_⟩
    · rw [State.evPage, hpages, evPages_evrConfigured, tget_tset, ← howner]
      rfl
    · rw [ring_respond_of_respOff (by rw [State.mbox, hmboxes]; exact hoff), ring_evrConfigured, howner]
      rfl

end Sys2Proof.Machine
end
